-- ==== Sys2Proof/Word.lean ====
section
/-! DEFINITION. The plainest types: bytes, words and sparse maps kept as lists of key and value. -/

namespace Sys2Proof

/-- One byte. -/
abbrev Byte := BitVec 8

/-- A byte string; multi-byte fields in it are little-endian (R11). -/
abbrev Bytes := List Byte

/-- A sparse map: pairs of a key and a value, in rising key order. -/
abbrev NMap (α : Type) := List (Nat × α)

end Sys2Proof
end

