-- ==== Sys2Proof/Machine/Bits.lean ====
section
/-! DEFINITION. Bit fields, sign extension, byte order and checksums. Multi-byte values are little-endian (R11). -/

namespace Sys2Proof.Machine

/-- Bits `lo` to `lo + n - 1` of a number. -/
def bits (v lo n : Nat) : Nat := v / 2 ^ lo % 2 ^ n

/-- One bit of a number as a Bool. -/
def bit (v i : Nat) : Bool := v.testBit i

/-- `b` as 0 or 1. -/
def ofBool (b : Bool) : Nat := if b then 1 else 0

/-- A field value placed at bit `lo`, cut to `n` bits. -/
def fld (v lo n : Nat) : Nat := v % 2 ^ n * 2 ^ lo

/-- Set or clear bit `i` of a number. -/
def setBit (v i : Nat) (b : Bool) : Nat :=
  if v.testBit i = b then v else if b then v + 2 ^ i else v - 2 ^ i

/-- The `n`-bit two's-complement reading of a number. -/
def sext (v n : Nat) : Int :=
  let u := v % 2 ^ n
  if u < 2 ^ (n - 1) then (u : Int) else (u : Int) - (2 ^ n : Nat)

/-- An integer as an `n`-bit two's-complement number. -/
def ofInt (n : Nat) (i : Int) : Nat := (i % ((2 ^ n : Nat) : Int)).toNat

/-- The little-endian reading of a byte string. -/
def leNat : Bytes → Nat
  | [] => 0
  | b :: l => b.toNat + 256 * leNat l

/-- A number as `n` little-endian bytes. -/
def leBytes : Nat → Nat → Bytes
  | 0, _ => []
  | n + 1, v => BitVec.ofNat 8 v :: leBytes n (v / 256)

/-- The big-endian reading of a byte string. -/
def beNat (b : Bytes) : Nat := leNat b.reverse

/-- A number as `n` big-endian bytes. -/
def beBytes (n v : Nat) : Bytes := (leBytes n v).reverse

/-- Bytes `off` to `off + n - 1` of a byte string, absent bytes reading 0. -/
def slice (b : Bytes) (off n : Nat) : Bytes :=
  let p := (b.drop off).take n
  p ++ List.replicate (n - p.length) 0

/-- The little-endian field of `n` bytes at offset `off`. -/
def leAt (b : Bytes) (off n : Nat) : Nat := leNat ((b.drop off).take n)

/-- One byte of a string as a number; 0 past its end. -/
def byteAt (b : Bytes) (off : Nat) : Nat := (b.getD off 0).toNat

/-- A byte string with `p` written at offset `off`, kept at its own length. -/
def patch (b : Bytes) (off : Nat) (p : Bytes) : Bytes :=
  (b.take off ++ p ++ b.drop (off + p.length)).take b.length

/-- A string of `n` zero bytes. -/
def zeros (n : Nat) : Bytes := List.replicate n 0

/-- Whether every byte of a string is zero. -/
def allZero (b : Bytes) : Bool := b.all fun x => x == 0

/-- The string cut or zero-filled to `n` bytes. -/
def fit (n : Nat) (b : Bytes) : Bytes := (b ++ zeros n).take n

/-- Eight steps of the reflected CRC-32C polynomial. -/
def crcByteStep : Nat → Nat → Nat
  | 0, c => c
  | k + 1, c => crcByteStep k (if c % 2 = 1 then (c / 2) ^^^ 0x82F63B78 else c / 2)

/-- CRC-32C of a byte string (initial and final value all ones). -/
def crc32c (b : Bytes) : Nat :=
  (b.foldl (fun c x => crcByteStep 8 (c ^^^ x.toNat)) 0xFFFFFFFF) ^^^ 0xFFFFFFFF

/-- `n` divided by `d`, rounded up. -/
def cdiv (n d : Nat) : Nat := (n + d - 1) / d

/-- The smaller exponent `k ≤ fuel` with `v ≤ 2 ^ k`. -/
def clog2 : Nat → Nat → Nat
  | 0, _ => 0
  | f + 1, v => if v ≤ 1 then 0 else 1 + clog2 f ((v + 1) / 2)

end Sys2Proof.Machine
end

