-- ==== Sys2Proof/Machine/Maps.lean ====
section
/-! DEFINITION. Sparse maps as lists of key and value in rising key order, with reading, writing and removing. -/

namespace Sys2Proof.Machine

/-- The value listed under a key, if any. -/
def mget {α : Type} : NMap α → Nat → Option α
  | [], _ => none
  | (k, v) :: m, n => if k = n then some v else mget m n

/-- The value under a key, or a default where none is listed. -/
def mgetD {α : Type} (m : NMap α) (n : Nat) (d : α) : α := (mget m n).getD d

/-- List a value under a key, in key order, in place of any value listed there. -/
def mput {α : Type} : NMap α → Nat → α → NMap α
  | [], n, v => [(n, v)]
  | (k, w) :: m, n, v =>
    if n < k then (n, v) :: (k, w) :: m
    else if n = k then (n, v) :: m
    else (k, w) :: mput m n v

/-- Remove the value listed under a key. -/
def mdel {α : Type} (m : NMap α) (n : Nat) : NMap α := m.filter fun p => p.1 != n

/-- Give a key a value, where an unlisted key stands for `d`: writing `d` removes the entry, so that equal maps are equal lists. -/
def msetD {α : Type} [DecidableEq α] (m : NMap α) (n : Nat) (d v : α) : NMap α :=
  if v = d then mdel m n else mput m n v

/-- Keys strictly rising and every one above `lo`. -/
def mrising {α : Type} : Option Nat → NMap α → Bool
  | _, [] => true
  | none, (k, _) :: m => mrising (some k) m
  | some lo, (k, _) :: m => decide (lo < k) && mrising (some k) m

/-- The canonical form of a sparse map whose unlisted keys stand for `d`. -/
def mcanon {α : Type} [DecidableEq α] (m : NMap α) (d : α) : Bool :=
  mrising none m && m.all fun p => decide (p.2 ≠ d)

/-- Replace the first element that passes a test. -/
def updFirst {α : Type} (p : α → Bool) (f : α → α) : List α → List α
  | [] => []
  | a :: l => if p a then f a :: l else a :: updFirst p f l

/-- The first element that passes a test, and the list without it. -/
def takeFirst {α : Type} (p : α → Bool) : List α → Option (α × List α)
  | [] => none
  | a :: l =>
    if p a then some (a, l)
    else match takeFirst p l with
      | some (b, r) => some (b, a :: r)
      | none => none

/-- Insert or replace the element with the same key. -/
def upsert {α : Type} (key : α → Nat) (a : α) : List α → List α
  | [] => [a]
  | b :: l => if key b = key a then a :: l else b :: upsert key a l

end Sys2Proof.Machine
end

