-- ==== Sys2Proof/Machine/StBase.lean ====
section
/-! DEFINITION. Unit states, completion statuses and causes, and the event recorder's part of the state. -/

namespace Sys2Proof.Machine

/-- Unit states by the codes of R95 (R20). -/
abbrev ustActive : Nat := 1
abbrev ustQuiescing : Nat := 2
abbrev ustDisabled : Nat := 3
abbrev ustFenced : Nat := 4
abbrev ustFrozen : Nat := 5
abbrev ustSpare : Nat := 6
abbrev ustRetired : Nat := 7
abbrev ustFailed : Nat := 8

/-- Completion statuses (R22). -/
inductive Status where
  | ok | abortedDisabled | abortedRetired | destLost | uncorrectable | violation | timeout
  deriving DecidableEq, Repr

/-- The 8-bit code of a status (R22). -/
def Status.code : Status → Nat
  | .ok => 0 | .abortedDisabled => 1 | .abortedRetired => 2 | .destLost => 3
  | .uncorrectable => 4 | .violation => 5 | .timeout => 6

/-- The status with a code, where one has it. -/
def Status.ofCode? : Nat → Option Status
  | 0 => some .ok | 1 => some .abortedDisabled | 2 => some .abortedRetired | 3 => some .destLost
  | 4 => some .uncorrectable | 5 => some .violation | 6 => some .timeout | _ => none

/-- Rank in the order of R23, lowest first; OK counts as last (R111). -/
def Status.rank : Status → Nat
  | .violation => 0 | .uncorrectable => 1 | .abortedRetired => 2 | .destLost => 3
  | .abortedDisabled => 4 | .timeout => 5 | .ok => 6

/-- The status that applies when two do (R23). -/
def Status.first (a b : Status) : Status := if b.rank < a.rank then b else a

/-- Cause codes (R137). -/
abbrev causeNone : Nat := 0x00
abbrev causeIllegal : Nat := 0x01
abbrev causeMalformed : Nat := 0x02
abbrev causeMisaligned : Nat := 0x03
abbrev causeNotLocal : Nat := 0x04
abbrev causeTallyUnowned : Nat := 0x05
abbrev causeWindow : Nat := 0x06
abbrev causeTallyForeign : Nat := 0x07
abbrev causeBudget : Nat := 0x08
abbrev causeData : Nat := 0x09
abbrev causeDependency : Nat := 0x0A
abbrev causeDisabled : Nat := 0x0B
abbrev causeRetired : Nat := 0x0C
abbrev causePostFull : Nat := 0x0D
abbrev causeDest : Nat := 0x0E
abbrev causeNoSeed : Nat := 0x0F

/-- The statuses of the causes of R137; DEPENDENCY takes the tally's. -/
def causeStatus (c : Nat) : Status :=
  if c = causeBudget ∨ c = causePostFull then .timeout
  else if c = causeData then .uncorrectable
  else if c = causeDisabled ∨ c = causeNoSeed then .abortedDisabled
  else if c = causeRetired then .abortedRetired
  else if c = causeDest then .destLost
  else if c = causeNone then .ok
  else .violation

/-- An event offered to the recorder (R488, R490), with the times of its occurrence. -/
structure EventIn where
  code : Nat
  cls : Nat
  unit : Nat
  ctx : Nat
  arg0 : Nat
  arg1 : Nat
  arg2 : Nat
  time : Nat
  upMs : Nat
  deriving DecidableEq, Repr

/-- One event record (R488); `ev_crc` is computed from the other bytes. -/
structure EvRec where
  seq : Nat
  time : Nat
  upMs : Nat
  boot : Nat
  code : Nat
  severity : Nat
  cls : Nat
  unit : Nat
  ctx : Nat
  masked : Bool
  saturated : Bool
  rep : Nat
  lastMs : Nat
  arg0 : Nat
  arg1 : Nat
  arg2 : Nat
  deriving DecidableEq, Repr

/-- A session's snapshot (R496). -/
structure Snapshot where
  session : Nat
  circulating : Bool
  lastSeq : Nat
  cursor : Nat
  deriving DecidableEq, Repr

/-- The clear in progress (R498): the cleared number and the session and request that wait for its answer. -/
structure ClearOp where
  upto : Nat
  session : Nat
  req : Nat
  recSeq : Nat
  deriving DecidableEq, Repr

/-- The event recorder (R488 to R500). -/
structure Recorder where
  /-- The images have been loaded from FL (R494); until then events wait in SRAM. -/
  loaded : Bool
  /-- The number the next record takes (R489). -/
  nextSeq : Nat
  /-- The reserved mark held in FL (R489). -/
  mark : Nat
  /-- The circulating area, newest record first (R492). -/
  circ : List EvRec
  /-- The founding area, newest record first (R492). -/
  found : List EvRec
  /-- Sequence numbers of open records, newest first (R495). -/
  openSeqs : List Nat
  /-- The input queue, oldest first (R490). -/
  queue : List EventIn
  /-- Events lost since the last RECORDS_LOST record (R490). -/
  lostNow : Nat
  /-- Sequence numbers of records or changes that have not reached FL (R493). -/
  dirty : List Nat
  /-- The images in FL (R493, R494). -/
  flCirc : List EvRec
  flFound : List EvRec
  /-- The cause of the flush in progress (R499). -/
  flush : Option Nat
  clear : Option ClearOp
  snapshots : List Snapshot
  deriving DecidableEq, Repr

end Sys2Proof.Machine
end

