-- ==== Sys2Proof/Machine/StTile.lean ====
section
/-! DEFINITION. The state of the pond tiles: sequencer registers, queued array work, accumulators, tallies, task pools, freezes and
substitutions (R64 to R147). -/

namespace Sys2Proof.Machine

/-- The two accumulator formats (R39, R132). -/
inductive AccFmt where
  | fp32 | int32
  deriving DecidableEq, Repr

/-- One accumulator set of a tile (R68, R129, R132): the format and the shape (8 rows of 64 columns when `wide`, else 64 rows of 8) that the
operations issued so far give it, and its 512 cells, cell `64 a + 8 i + j` of array `a`; an unlisted cell holds +0. -/
structure AccSet where
  fmt : Option AccFmt
  wide : Bool
  cells : NMap (BitVec 32)
  deriving DecidableEq, Repr

/-- A task as a pool holds it (R106, R107): the descriptor as stamped, its context, its age, the pool it entered, whether it was stolen, and the stealing settings
in force when it entered (R147). -/
structure PoolTask where
  desc : Bytes
  ctx : Nat
  age : Nat
  poolTile : Nat
  stolen : Bool
  /-- `steal_enable` and `steal_keep` at the task's entry (R147). -/
  stealOn : Bool
  keep : Nat
  deriving DecidableEq, Repr

/-- The running task: the pool entry, the protection epoch it was accepted under (R396), and its start. -/
structure RunTask where
  task : PoolTask
  epoch : Nat
  startNs : Nat
  /-- Tile clocks counted up to `sinceNs`, where the clock last changed (R92, R108). -/
  clocks : Nat
  sinceNs : Nat
  /-- The clocks of this task that `tile_busy_cycles` no longer counts, because it was cleared while the task ran (R104). -/
  busyCut : Nat
  deriving DecidableEq, Repr

inductive OpKind where
  | mma | drain | qcvt
  deriving DecidableEq, Repr

/-- An issued array, drain or conversion operation (R127): the descriptors it copied, the fields, the settings in force at issue (R63),
and the accumulator set it uses. -/
structure TileOp where
  kind : OpKind
  set : Nat
  /-- The format and shape of the accumulator set it works on (R132). -/
  fmt : Option AccFmt
  wide : Bool
  da : Bytes
  db : Bytes
  dc : Bytes
  cfg : Nat
  acc : Nat
  skip : Bool
  satDef : Nat
  ftzDef : Nat
  shadowK : Nat
  taskAge : Nat
  deriving DecidableEq, Repr

/-- A tally (R109). -/
structure Tally where
  count : Int
  status : Status
  cause : Nat
  owner : Option Nat
  pending : Int
  pendStatus : Status
  pendCause : Nat
  deriving DecidableEq, Repr

/-- A released tally (R110). -/
def Tally.free : Tally := ⟨0, .ok, causeNone, none, 0, .ok, causeNone⟩

/-- The sources of decrements (R88, R111): a tile, a transfer-engine channel, a network interface, a mailbox. -/
inductive DecSrc where
  | tile (n : Nat)
  | chan (c : Nat)
  | ni (i : Nat)
  | mbox (m : Nat)
  deriving DecidableEq, Repr

/-- A decrement on its way to a tally (R111), with the source it left (R88). -/
structure TallyDec where
  src : DecSrc
  tile : Nat
  tally : Nat
  n : Nat
  status : Status
  cause : Nat
  ctx : Nat
  deriving DecidableEq, Repr

/-- A tile copy under way (R135). -/
structure Xfer where
  tally : Nat
  ctx : Nat
  epoch : Nat
  taskAge : Nat
  dst : Nat
  src : Nat
  len : Nat
  deriving DecidableEq, Repr

/-- Who waits for a post's completion (R120): a tile's tally, a transfer-engine descriptor's then_task, an NI message, a Jitoig load. -/
inductive Origin where
  | tile (t tally ctx age epoch : Nat)
  | te (ch serial : Nat)
  | ni (ni msg : Nat)
  | jti (ctx : Nat)
  deriving DecidableEq, Repr

/-- A posted task on its way to a pool or waiting in a post queue (R119 to R121). -/
structure PostMsg where
  origin : Origin
  ctx : Nat
  target : Nat
  desc : Bytes
  deriving DecidableEq, Repr

/-- What a frozen tile keeps (R98, R140): the accumulators are those of the moment it froze, which array work issued before, and still going on (R137), leaves alone. -/
structure Freeze where
  cause : Nat
  ctx : Nat
  pc : Nat
  addr : Nat
  wasQuiescing : Bool
  acc0 : AccSet
  acc1 : AccSet
  deriving DecidableEq, Repr

/-- A substitution of a logical tile (R100): the step reached, the reserved site, and whether it follows a failure or waits for a task end. -/
structure Subst where
  step : Nat
  spare : Nat
  swapNow : Bool
  failed : Bool
  deriving DecidableEq, Repr

/-- A block pair drawn for a shadow check (R59): its products in ascending element order, exact, in units of the smallest product's last place. -/
structure ShadowJob where
  kblock : Nat
  ctx : Nat
  prods : List Int
  deriving DecidableEq, Repr

/-- One logical tile. Registers are sparse: an unlisted register holds zero. -/
structure Tile where
  x : NMap (BitVec 64)
  d : NMap Bytes
  v : NMap Bytes
  pc : Nat
  run : Option RunTask
  /-- The sequencer waits in TWAIT, FENCE or END, for a queue or on an interlock (R127, R139). -/
  waiting : Bool
  ops : List TileOp
  acc0 : AccSet
  acc1 : AccSet
  cur : Nat
  shadow : List ShadowJob
  /-- Segments skipped by this tile's arrays (R74). -/
  skips : Nat
  tallies : NMap Tally
  pool : List PoolTask
  postQ : List PostMsg
  xfers : List Xfer
  /-- XFER and POST operations of the running task that have not completed (R128). -/
  outstanding : Nat
  /-- The context of the task that ran last, and each context's credit in ns (R392). -/
  lastCtx : Nat
  credit : NMap Int
  /-- The direction of the neighbour asked last, and the neighbours whose answers are out (R123). -/
  stealDir : Nat
  stealAsked : List Nat
  /-- Tasks given to this tile by victims and not yet taken, oldest first (R124). -/
  stealGiven : List PoolTask
  frozen : Option Freeze
  /-- A disable held while FROZEN (R27). -/
  heldDisable : Bool
  /-- A disable received in steps 3 to 5 of a substitution (R102). -/
  disableAfterSubst : Bool
  /-- The quiesce grace has ended (R24). -/
  graceOver : Bool
  subst : Option Subst
  /-- A freeze by work of a task that has ended, which takes effect when the task now running ends (R140, R394). -/
  freezeNext : Option Freeze
  /-- Decrements that arrived in steps 2 to 4 of a substitution, in arrival order (R142). -/
  heldDecs : List TallyDec
  deriving DecidableEq, Repr

/-- A Jitoig image load under way (R145): the image, the step reached (3: checks ended, 4: placed, 5: posting), its status so far, and the
posts that have not completed. -/
structure JtiLoad where
  image : Bytes
  step : Nat
  status : Status
  left : Nat
  deriving DecidableEq, Repr

/-- A tile in steps 2 to 5 of a substitution: it starts nothing and accesses to it are held (R100). -/
def Tile.held (t : Tile) : Bool :=
  match t.subst with
  | some b => decide (2 ≤ b.step)
  | none => false

def AccSet.empty : AccSet := ⟨none, false, []⟩

/-- A tile right after bring-up: nothing running, nothing held. -/
def Tile.init : Tile :=
  ⟨[], [], [], 0, none, false, [], .empty, .empty, 0, [], 0, [], [], [], [], 0, 0, [], 3, [], [], none, false, false, false, none, none, []⟩

end Sys2Proof.Machine
end

