-- ==== Sys2Proof/Machine/StFabric.lean ====
section
/-! DEFINITION. The state of the links, the router and the network interfaces (R212 to R312). -/

namespace Sys2Proof.Machine

/-- A packet (R249): the fields of `route_byte`, the addresses, the router's fields, header bytes 12 to 31, the payload, the tag, and the
flit count of its kind byte. -/
structure Packet where
  flits : Nat
  cls : Nat
  level : Nat
  parity : Nat
  pool : Bool
  dst : Nat
  src : Nat
  flags : Nat
  units : Nat
  aux0 : Nat
  aux1 : Nat
  ni : Bytes
  payload : Bytes
  tag : Bytes
  deriving DecidableEq, Repr

/-- Packet trailer fields other than the CRC (R222). -/
structure Trailer where
  seq : Nat
  ack : Nat
  ackValid : Bool
  creditVc : Nat
  creditFlits : Nat
  poolCredit : Nat
  rsvZero : Bool
  deriving DecidableEq, Repr

/-- A control flit (R222). -/
structure CtlFlit where
  op : Nat
  ack : Nat
  replayFrom : Nat
  mapLogical : Nat
  mapPosition : Nat
  mapAfter : Nat
  credits : List Nat
  poolCredit : Nat
  deriving DecidableEq, Repr

/-- A lane substitution under way at this end's receiver (R236, R242): the logical lane, the old and new position, the step reached,
what becomes of the old position. -/
structure LaneSub where
  logical : Nat
  old : Nat
  new : Nat
  step : Nat
  oldTo : Nat
  deriving DecidableEq, Repr

/-- A lane switch armed by LANE_MAP (R236): direction (0 transmit, 1 receive), logical lane, new position, state of the old one, abrupt or planned. -/
structure LaneSwitch where
  dir : Nat
  logical : Nat
  new : Nat
  oldTo : Nat
  abrupt : Bool
  deriving DecidableEq, Repr

/-- A packet kept until acknowledged (R224, R230): the trailer that carries its number and credits, and its arrival at the router. -/
structure HeldPkt where
  tr : Trailer
  pkt : Packet
  arrNs : Nat
  deriving DecidableEq, Repr

/-- A packet accepted and not yet in the router's input buffer (R226, R227): its number at this router, its arrival, and whether its credits are owed to the
far end. -/
structure RxWait where
  id : Nat
  arrNs : Nat
  owed : Bool
  pkt : Packet
  deriving DecidableEq, Repr

/-- One external port's link (R222 to R243). -/
structure LinkPort where
  /-- Flits received and not yet taken, in order; `none` is a flit of a codeword that could not be corrected (R221). -/
  rxFlits : List (Option Bytes)
  /-- Corrected symbols in the present second, by receive position, and those of the last whole second (R221, R235). -/
  fixed : NMap Nat
  fixedLast : NMap Nat
  /-- Received power of an optical port at the last report (R235). -/
  rxPower : Int
  /-- The receive positions arrive in the opposite order, and the mask of those whose polarity training corrects (R218). -/
  reversed : Bool
  inverted : Nat
  /-- The scramblers of the transmit and the receive positions since training seeded them (R217); a position not listed stands at its seed. -/
  txScr : NMap Nat
  rxScr : NMap Nat
  txSeq : Nat
  rxNext : Nat
  /-- Packets sent and not acknowledged, oldest first (R224). -/
  held : List HeldPkt
  /-- The landing buffer (R226, R227). -/
  rxQ : List RxWait
  /-- A REPLAY_REQ for the expected number has been sent (R225). -/
  asked : Bool
  /-- The number last requested by the far end, and how many requests in a row named it (R229). -/
  reqNum : Nat
  reqCount : Nat
  timeouts : Nat
  /-- A packet was accepted and no acknowledgement has been sent since (R224). -/
  ackDue : Bool
  /-- Credits held toward the far end, spent from 5 per channel and from the pool (R257). -/
  spentVc : NMap Nat
  spentPool : Nat
  /-- Freed flits to be returned to the far end. -/
  retVc : NMap Nat
  retPool : Nat
  /-- Step of training in progress, 0 when none. -/
  train : Nat
  subs : List LaneSub
  /-- Logical lanes the transmitter copies onto a spare position (R236 step 2). -/
  copies : List (Nat × Nat)
  switches : List LaneSwitch
  /-- A laser swap waits for the next training (R239). -/
  laserAtTrain : Option Nat
  /-- The pair that laser 9 feeds (R239). -/
  laser9 : Option Nat
  /-- Transmit positions that relock on laser 9 and wait for the check of training step 4 (R239). -/
  relock : List Nat
  /-- Receive positions that an ENABLE retrains and that wait for the check of training step 4 (R242). -/
  enabling : List Nat
  /-- Worn lasers of which the spare policy has been told that laser 9 is not free (R239). -/
  wornTold : List Nat
  deriving DecidableEq, Repr

def LinkPort.init : LinkPort :=
  { rxFlits := [], fixed := [], fixedLast := [], rxPower := 0, reversed := false, inverted := 0, txScr := [], rxScr := [], txSeq := 0, rxNext := 0, held := [], rxQ := [],
    asked := false, reqNum := 0, reqCount := 0, timeouts := 0, ackDue := false, spentVc := [], spentPool := 0, retVc := [], retPool := 0, train := 0,
    subs := [], copies := [], switches := [], laserAtTrain := none, laser9 := none, relock := [], enabling := [], wornTold := [] }

/-- An in-package link (R213, R214). Each direction has its own numbers; direction 0 leads from the end that `d2dDomain` names. -/
structure D2dLink where
  /-- The number that each direction's receiver expects. -/
  rxNext : Nat × Nat
  /-- The number that follows the highest one each direction's transmitter has sent, as far as a receiver has seen it: the transmitter holds the units
  between the two (R213). -/
  sent : Nat × Nat
  /-- Each direction's receiver waits for the units it has asked for again (R213). -/
  asked : Bool × Bool
  /-- Redundant lanes used, by module. -/
  used : NMap Nat
  deriving DecidableEq, Repr

/-- A packet resident in the router (R255, R268): the input it lies at, its arrival, whether it lies in the shared pool, its buffer banks,
and the copies that have not left: output and header. -/
structure RtEntry where
  id : Nat
  inPort : Nat
  pkt : Packet
  arrNs : Nat
  /-- The flits of the packet that lie in each bank of the input (R258). -/
  banks : NMap Nat
  /-- Its credits are owed to the far end: the link has not been lost since it arrived (R229). -/
  owed : Bool
  jobs : List (Nat × Packet)
  deriving DecidableEq, Repr

/-- The fabric router (R248 to R279). -/
structure Router where
  bufs : List RtEntry
  nextId : Nat
  /-- Route entries, by `65536 * (2 * bank + table) + index` (R259). -/
  routes : NMap Nat
  /-- The last grant between CL and the data classes at each output was a CL grant (R267). -/
  lastCl : List Nat
  /-- Where the round robin among equally free ports resumes (R261). -/
  rr : Nat
  /-- Worn banks that take no new flit and have not emptied, as `8 * port + bank` (R258). -/
  worn : List Nat
  /-- Flits of failed banks still to be withheld from the pool credits of an input (R258). -/
  poolDebt : NMap Nat
  /-- Banks past their limit that found no spare and of which the spare policy has been told, as `8 * port + bank` (R258). -/
  told : List Nat
  /-- The epoch number of each route bank, taken when it became VALID (R273). -/
  epochs : NMap Nat
  deriving DecidableEq, Repr

/-- A command in an NI command queue (R280). -/
structure NiCmd where
  serial : Nat
  bytes : Bytes
  direct : Bool
  /-- A remote task post: the poster's tally takes the status (R281). -/
  origin : Option Origin
  /-- The task descriptor of a remote task post (R281); empty for every other command. -/
  task : Bytes
  deriving DecidableEq, Repr

/-- A command in progress (R282): messages not yet completed, bytes and tokens so far, and its outcome. -/
structure NiActive where
  serial : Nat
  bytes : Bytes
  epoch : Nat
  origin : Option Origin
  task : Bytes
  status : Status
  detail : Nat
  bytesDone : Nat
  count : Nat
  /-- Messages issued and not completed. -/
  left : Nat
  /-- DISPATCH: tokens placed, by 256 * rank + inbox (R309). -/
  placed : NMap Nat
  /-- Everything the command issues has been issued. -/
  issued : Bool
  /-- DISPATCH: route entries and DONE messages taken so far (R307, R309). -/
  cursor : Nat
  /-- DISPATCH: the context's rank and destination tables as they stood when the command started (R283, R307). -/
  ranks : NMap Nat
  dests : NMap Nat
  deriving DecidableEq, Repr

/-- One command queue of an NI and a context. -/
structure NiQueue where
  queue : List NiCmd
  active : List NiActive
  recs : List (Nat × Bytes)
  postQ : List PostMsg
  nextSerial : Nat
  deriving DecidableEq, Repr

def NiQueue.init : NiQueue := ⟨[], [], [], [], 0⟩

/-- An outstanding message at its source (R291, R295): the command it belongs to, its identifier, the addresses it went to that have not
answered, the op, its length and local address, the bytes and packets of DATA received, and whether it is quarantined. -/
structure OutMsg where
  ni : Nat
  ctx : Nat
  slot : Nat
  msgId : Nat
  serial : Nat
  op : Nat
  waiting : List Nat
  len : Nat
  localAddr : Nat
  got : Nat
  bitmap : Nat
  status : Status
  detail : Nat
  placedKey : Nat
  /-- An FW message sent for COPY_TO: the receive entry it serves (R288). -/
  forRx : Option Nat
  quarantined : Bool
  deriving DecidableEq, Repr

/-- A receive entry (R292, R293). -/
structure RxMsg where
  id : Nat
  ni : Nat
  ctx : Nat
  slot : Nat
  src : Nat
  msgId : Nat
  cls : Nat
  op : Nat
  len : Nat
  got : Nat
  bitmap : Nat
  epoch : Nat
  /-- A TOKEN's inbox slot (R308). -/
  place : Option Nat
  status : Status
  quarantined : Bool
  enc : Bool
  deriving DecidableEq, Repr

/-- A packet queued for egress at an NI; `relRp` on the last reply packet of a message. -/
structure EgPkt where
  ctx : Nat
  pkt : Packet
  relRp : Bool
  deriving DecidableEq, Repr

/-- One network interface. -/
structure Ni where
  egress : List EgPkt
  rxQ : List Packet
  rpUsed : Nat
  fwUsed : Nat
  deriving DecidableEq, Repr

def Ni.init : Ni := ⟨[], [], 0, 0⟩

/-- A line of the catchment as a command names it (R281, R286): axis, line index, member mask, NI. -/
structure Line where
  axis : Nat
  idx : Nat
  mask : Nat
  ni : Nat
  deriving DecidableEq, Repr

/-- The state of one stage of a collective invocation at an owner: the accumulator's values by element, the contributions counted
by 256-byte part (as members heard), for the present and the next invocation (R303, R304). -/
structure ClStage where
  acc : NMap (BitVec 32)
  heard : NMap Nat
  deriving DecidableEq, Repr

def ClStage.empty : ClStage := ⟨[], []⟩

/-- A collective session (R302 to R306). -/
structure ClSession where
  ctx : Nat
  num : Nat
  ni : Nat
  srcAddr : Nat
  resAddr : Nat
  len : Nat
  kind : Nat
  fmt : Nat
  op : Nat
  root : Nat
  line0 : Line
  line1 : Option Line
  /-- Invocations asked for and not started (R304), each as NI + 4 × command serial. -/
  queued : List Nat
  /-- The number of the present invocation, and its command while it runs. -/
  inv : Nat
  running : Option Nat
  stage : Nat
  /-- The 256-byte parts of the result written in the present invocation (R303, R292), as 2 ^ 24 × stage + part. -/
  parts : List Nat
  cur : List ClStage
  nxt : List ClStage
  /-- 256-byte parts already written for the next invocation. -/
  nextParts : List Nat
  /-- The serial of the CL_CLOSE that waits for the invocations (R306). -/
  closing : Option Nat
  /-- The status and detail with which a BROKEN session refuses CL_RUN (R306). -/
  broken : Option (Status × Nat)
  deriving DecidableEq, Repr

/-- An armed inbox (R308, R309). -/
structure Inbox where
  ctx : Nat
  num : Nat
  area : Nat
  slotBytes : Nat
  capacity : Nat
  manifest : Nat
  expected : Nat
  tally : Nat
  tallyTile : Nat
  tallyValid : Bool
  next : Nat
  placed : Nat
  doneGot : Nat
  announced : Nat
  fired : Bool
  deriving DecidableEq, Repr

/-- The second half of a COPY_TO that waits for an outstanding entry (R288, R295): the receive entry it serves, the second rank's address, the target and the data. -/
structure FwdJob where
  ni : Nat
  ctx : Nat
  rx : Nat
  dst : Nat
  target : Nat
  data : Bytes
  deriving DecidableEq, Repr

/-- The network interfaces and the collective engine (R280 to R312). -/
structure NiSys where
  nis : NMap Ni
  /-- Command queues, by `64 * ni + ctx`. -/
  queues : NMap NiQueue
  outs : List OutMsg
  rxs : List RxMsg
  nextRx : Nat
  /-- `msg_id` counters, by `4 * (64 * ni + ctx) + slot` (R291). -/
  msgIds : NMap Nat
  /-- Rank and destination tables, by `4096 * ctx + index` (R283, R307). -/
  ranks : NMap Nat
  dests : NMap Nat
  sessions : List ClSession
  inboxes : List Inbox
  /-- Positions suspect here, with the positions whose suspicion has lasted 50 µs (R296). -/
  suspect50 : List Nat
  /-- Job numbers cleared by a retire and not yet free for use (R401). -/
  heldJobs : List Nat
  fwdQ : List FwdJob
  deriving DecidableEq, Repr

def NiSys.init : NiSys := ⟨[], [], [], [], 0, [], [], [], [], [], [], [], []⟩

end Sys2Proof.Machine
end

