-- ==== Sys2Proof/Machine/StAgent.lean ====
section
/-! DEFINITION. The state of the fabric agent and, where this package is the Wellhead, of the Wellhead (R313 to R344). -/

namespace Sys2Proof.Machine

/-- The path an agent message arrived on (R313): the side-band, or the fabric with the arrival port. -/
inductive MgPath where
  | mgmt
  | data (port : Nat)
  deriving DecidableEq, Repr

/-- An agent message (R314). -/
structure AgentMsg where
  typ : Nat
  flags : Nat
  origin : Nat
  ttl : Nat
  term : Nat
  seq : Nat
  gen : Nat
  arg : Nat
  payload : Bytes
  deriving DecidableEq, Repr

/-- A message in the agent's receive ring (R316). -/
structure InMsg where
  path : MgPath
  srcCatchment : Nat
  msg : AgentMsg
  deriving DecidableEq, Repr

/-- A probe outcome history of one port end (R317, R318): the probe that waits for its echo, and the successes and failures in a row. -/
structure PortProbe where
  nonce : Nat
  sentNs : Nat
  open_ : Bool
  good : Nat
  bad : Nat
  deriving DecidableEq, Repr

def PortProbe.init : PortProbe := ⟨0, 0, false, 0, 0⟩

/-- What the last REPORT over one path said of a position (R314): its head flags and its 18 port records. -/
structure Report where
  pos : Nat
  flags : Nat
  ports : List Bytes
  deriving DecidableEq, Repr

/-- The Wellhead's record of one slice (R335, R336). -/
structure Slice where
  num : Nat
  job : Nat
  members : Nat
  onLoss : Nat
  acked : Nat
  /-- Its CREATE has no result yet (R336). -/
  forming : Bool
  deriving DecidableEq, Repr

/-- The epoch being installed (R342). -/
structure EpochRun where
  epoch : Nat
  mapGen : Nat
  routeMap : Bytes
  ready : List Nat
  committed : Bool
  acked : List Nat
  /-- The positions that were ACTIVE at its PREPARE and have been so since, and the rail map in force then. -/
  members : List Nat
  rail : Bytes
  deriving DecidableEq, Repr

/-- The agent's part of the epoch it prepares (R342 step 2). -/
structure PrepRun where
  epoch : Nat
  routeMap : Bytes
  /-- The rail map in force at its PREPARE (R338, R339). -/
  rail : Bytes
  done : Bool
  deriving DecidableEq, Repr

/-- An indication of the loss of a position (R332): the position lost, where it came from, when. -/
structure LossInd where
  lost : Nat
  from_ : Nat
  atNs : Nat
  deriving DecidableEq, Repr

/-- A claim under way (R327 to R330): the term, the grants by path, and which attempt it is. -/
structure ClaimRun where
  term : Nat
  grantsMgmt : List Nat
  grantsData : List Nat
  attempt : Nat
  deriving DecidableEq, Repr

/-- The fabric agent. -/
structure Agent where
  /-- Messages received and not yet handled, oldest first (R316). -/
  inbox : List InMsg
  /-- Flooded messages seen, as origin, type and `mg_seq` (R315). -/
  seen : List (Nat × Nat × Nat)
  /-- `mg_seq` counters by type (R314). -/
  seqs : NMap Nat
  probes : NMap PortProbe
  /-- Positions heard on each path: position, eligible, healthy, time (R314, R327). -/
  heardMgmt : List (Nat × Nat × Nat × Nat)
  heardData : List (Nat × Nat × Nat × Nat)
  /-- The highest term granted, and the candidate granted under it (R327). -/
  grantTerm : Nat
  /-- The last heartbeat followed: its `mg_seq`, state vector, map generation and rail-map version. -/
  hbSeq : Nat
  hbStates : Bytes
  hbMapGen : Nat
  hbSeen : Bool
  /-- Heartbeat periods in a row without a heartbeat (R331). -/
  missed : Nat
  claim : Option ClaimRun
  /-- Loss indications, and the positions noticed with the notice's `mg_gen` (R332, R333). -/
  inds : List LossInd
  noticed : List (Nat × Nat)
  /-- Positions whose link this package has lost (R333). -/
  ownLost : List Nat
  noticeSent : List (Nat × Nat)
  prep : Option PrepRun
  /-- A full replica is held (R325), its chunks, and the rail map's chunks and its accepted bytes. -/
  replica : NMap Bytes
  replicaFull : Bool
  railChunks : NMap Bytes
  railMap : Bytes
  /-- The own position was fenced by the Wellhead (R322): data messages are flooded. -/
  selfFenced : Bool
  /-- The ports that the fencing of the own position has fenced (R322). -/
  posFenced : List Nat
  /-- The highest term seen in any message (R330). -/
  maxTerm : Nat
  /-- The generation of the own position, as the last REPROBE gave it (R320). -/
  posGen : Nat
  /-- The last state known of each slice, with its job, as state + 256 × job (R337). -/
  sliceSt : NMap Nat
  /-- The agent has stopped claiming until it follows a heartbeat of a new term (R330), and when it last detected the loss of its Wellhead. -/
  stopped : Bool
  orphanAt : Nat
  deriving DecidableEq, Repr

def Agent.init : Agent :=
  { inbox := [], seen := [], seqs := [], probes := [], heardMgmt := [], heardData := [], grantTerm := 0, hbSeq := 0, hbStates := [], hbMapGen := 0,
    hbSeen := false, missed := 0, claim := none, inds := [], noticed := [], ownLost := [], noticeSent := [], prep := none, replica := [], replicaFull := false,
    railChunks := [], railMap := [], selfFenced := false, posFenced := [], maxTerm := 0, posGen := 0, sliceSt := [], stopped := false, orphanAt := 0 }

/-- The Wellhead's own state, unused elsewhere (R319 to R343). -/
structure Wellhead where
  repMgmt : List Report
  repData : List Report
  /-- Positions whose HB_ACK arrived in the last five periods, newest period first, by path (R319). -/
  acksMgmt : List (List Nat)
  acksData : List (List Nat)
  /-- Positions named by a LOSS_NOTICE under the present `map_gen` (R319). -/
  lossNamed : List Nat
  /-- E and O links held excluded or fenced: by `32 * position + port`: the generation and the state (1 usable, 4 fenced, 8 excluded). -/
  links : NMap (Nat × Nat)
  run : Option EpochRun
  /-- A change waits for the next epoch (R342). -/
  dirty : Bool
  /-- The last epoch number used. -/
  lastEpoch : Nat
  slices : List Slice
  /-- The standby confirmed, and the positions whose replica is full. -/
  replicaConfirmed : List Nat
  /-- The pieces of a rail map being loaded (R338). -/
  railLoad : NMap Byte
  /-- Periods in a row without a quorum of HB_ACKs (R329). -/
  noQuorum : Nat
  mapFormed : Bool
  /-- Heartbeat periods since a position's generation was last raised, up to five (R319, R320). -/
  genAge : NMap Nat
  /-- FAILED positions whose package has completed a bring-up (R323). -/
  back : List Nat
  /-- A position has changed state since the last CAP_TABLE (R368). -/
  capsDue : Bool
  /-- What the last REPLICA held, and the position it went to (R325). -/
  replicaTo : Nat
  replicaSent : Bytes
  deriving DecidableEq, Repr

def Wellhead.init : Wellhead :=
  { repMgmt := [], repData := [], acksMgmt := [], acksData := [], lossNamed := [], links := [], run := none, dirty := false, lastEpoch := 0, slices := [],
    replicaConfirmed := [], railLoad := [], noQuorum := 0, mapFormed := false, genAge := [], back := [], capsDue := false, replicaTo := 64, replicaSent := [] }

end Sys2Proof.Machine
end

