-- ==== Sys2Proof/Machine/StMem.lean ====
section
/-! DEFINITION. The state of the memory system (R148 to R184). -/

namespace Sys2Proof.Machine

/-- What the stored check of a word of tile SRAM or a granule says (R79, R157, R162): a correctable error, an uncorrectable one, or unwritten. -/
inductive EccMark where
  | ce | ue | unwritten
  deriving DecidableEq, Repr

/-- One page-table entry (R167, R171). -/
structure PageEnt where
  ctx : Nat
  va : Nat
  big : Bool
  pa : Nat
  moving : Bool
  deriving DecidableEq, Repr

/-- Why a page frame is not in the free pool. -/
inductive FrameUse where
  | mapped (ctx : Nat)
  | filling
  | withheld
  | reserved
  deriving DecidableEq, Repr

/-- A page frame taken from the free pool. -/
structure Frame where
  pa : Nat
  big : Bool
  use : FrameUse
  deriving DecidableEq, Repr

/-- What follows when a shootdown takes effect (R170, R175, R201, R400). -/
inductive ShootWhy where
  | unmap (ctx : Nat)
  | migrateStart (serial : Nat)
  | migrateEnd (serial : Nat)
  | retire (ctx : Nat)
  deriving DecidableEq, Repr

/-- A shootdown under way: the caches that have not acknowledged, and the frames released by it. -/
structure Shootdown where
  why : ShootWhy
  waiting : List Nat
  frames : List Nat
  deriving DecidableEq, Repr

/-- Who asked for a house-context fill (R402). -/
inductive FillWhy where
  | page (pa : Nat)
  | retirePage (ctx pa : Nat)
  | retireSram (ctx : Nat)
  | commitSram (ctx : Nat)
  deriving DecidableEq, Repr

/-- A house-context fill with zeros that has not completed: the physical range, and the house channel it is assigned to. -/
structure Fill where
  why : FillWhy
  base : Nat
  len : Nat
  ch : Nat
  deriving DecidableEq, Repr

/-- A range of one tile's SRAM withheld from use (R402), and the context it may still be given to: the one whose commit asked for the fill, 0 for none. -/
structure SramHold where
  ctx : Nat
  tile : Nat
  off : Nat
  len : Nat
  deriving DecidableEq, Repr

/-- An evacuation under way (R177): stack, logical die, old and spare position, the cursor of each die channel, unwritten granules so far, and the house channel
that carries its copies (R185). -/
structure Evac where
  stack : Nat
  logical : Nat
  old : Nat
  spare : Nat
  cur0 : Nat
  cur1 : Nat
  unwritten : Nat
  oldFailed : Bool
  ch : Nat
  deriving DecidableEq, Repr

/-- A page on the move (R202): channel and descriptor, source and destination frame, the cursor in granules, whether step 1's shootdown
has taken effect, and whether an uncorrectable granule was met. -/
structure Move where
  ch : Nat
  serial : Nat
  ctx : Nat
  va : Nat
  big : Bool
  src : Nat
  dst : Nat
  cursor : Nat
  started : Bool
  ue : Bool
  deriving DecidableEq, Repr

/-- Granules of a die channel written as unwritten all at once (R180): ECC groups `lo` up to `hi`, without the physical ranges written whole since. -/
structure Lost where
  stack : Nat
  logical : Nat
  chan : Nat
  lo : Nat
  hi : Nat
  renewed : List (Nat × Nat)
  deriving DecidableEq, Repr

/-- The memory system. -/
structure Mem where
  /-- Every byte that is not zero, by 44-bit physical address; tile SRAM under the logical tile number (R66, R152). -/
  bytes : NMap Byte
  /-- ECC marks: by word address in tile SRAM; by granule address in the tiers, where only `unwritten` is kept so. -/
  marks : NMap EccMark
  /-- Stored bytes of a granule of the tiers that differ from what was written (R156, R157): by granule address, then by place among the 136, the bits that
  differ. -/
  flips : NMap (NMap Nat)
  /-- Die channels lost in part (R180). -/
  lost : List Lost
  /-- Unwritten rows of tile SRAM, by row address, with the mask of the words written since (R82). -/
  unwRows : NMap Nat
  /-- Correctable errors per physical row since bring-up, by `16384 * site + 1024 * bank + row` (R81). -/
  rowCe : NMap Nat
  /-- Rows redirected to a spare row, by the same key, once for each spare row they have taken (R81). -/
  spared : List Nat
  pages : List PageEnt
  frames : List Frame
  shoots : List Shootdown
  fills : List Fill
  sramHeld : List SramHold
  evacs : List Evac
  /-- The times of the correctable errors of a physical die in the last 24 hours, by `32 * stack + position` (R176, R485). -/
  ceTimes : NMap (List Nat)
  /-- Uncorrectable granules a physical die has given: the die as above, the granule, the time (R176). -/
  ueSeen : List (Nat × Nat × Nat)
  moves : List Move
  /-- UNMAP commands that wait for a migration to end (R201): context and command. -/
  waitUnmap : List (Nat × Bytes)
  /-- Pages whose table-store read is uncorrectable, as context and page address, or the address of the 2 MiB that no page maps (R168). -/
  walkUe : List (Nat × Nat)
  deriving DecidableEq, Repr

def Mem.init : Mem := ⟨[], [], [], [], [], [], [], [], [], [], [], [], [], [], [], [], [], []⟩

end Sys2Proof.Machine
end

