-- ==== Sys2Proof/Machine/StTe.lean ====
section
/-! DEFINITION. The state of the transfer-engine channels and of the RoCEv2 queue pairs (R185 to R211). -/

namespace Sys2Proof.Machine

/-- A descriptor in a channel queue (R190): its serial number in the order of receipt, its 64 bytes, and whether it came by POST. -/
structure TeDesc where
  serial : Nat
  bytes : Bytes
  direct : Bool
  deriving DecidableEq, Repr

/-- How far a descriptor that has started has come. -/
inductive TePhase where
  /-- Its work is under way. -/
  | working
  /-- A MIGRATE that waits for a free page (R201). -/
  | waitPage
  /-- A MIGRATE that waits for another migration of its page (R201). -/
  | waitMove
  /-- Every write has been performed or the work has ended; the completion of R197 may follow. -/
  | ended
  /-- The post of its then_task has not completed (R197 step 2). -/
  | posting
  deriving DecidableEq, Repr

/-- A descriptor in progress (R198). -/
structure TeActive where
  serial : Nat
  bytes : Bytes
  epoch : Nat
  phase : TePhase
  status : Status
  detail : Nat
  bytesDone : Nat
  count : Nat
  /-- The status of the post of its then_task, 0xFF when none was made (R197). -/
  postStatus : Nat
  /-- Host modes: packets sent and packets acknowledged. -/
  pktsSent : Nat
  pktsAcked : Nat
  /-- The address of a failed window check of a host transfer (R199). -/
  failAddr : Nat
  deriving DecidableEq, Repr

/-- A completion record that waits for its turn or for room (R191, R198). -/
structure TeRec where
  serial : Nat
  bytes : Bytes
  notOk : Bool
  deriving DecidableEq, Repr

/-- One channel. -/
structure TeChan where
  queue : List TeDesc
  active : List TeActive
  recs : List TeRec
  /-- POSTs that found the direct queue full and wait (R189, R121). -/
  postQ : List PostMsg
  nextSerial : Nat
  heldDisable : Bool
  /-- The channel froze while QUIESCING; its release makes it ACTIVE all the same (R200). -/
  wasQuiescing : Bool
  frozenCtx : Nat
  deriving DecidableEq, Repr

def TeChan.init : TeChan := ⟨[], [], [], [], 0, false, false, 0⟩

/-- An RDMA request packet sent and not acknowledged (R206). -/
structure RdmaPkt where
  psn : Nat
  op : Nat
  addr : Nat
  len : Nat
  serial : Nat
  data : Bytes
  imm : Option Nat
  deriving DecidableEq, Repr

/-- One RoCEv2 queue pair (R205, R206). -/
structure HteQp where
  psn : Nat
  unacked : List RdmaPkt
  retries : Nat
  /-- Rate reductions in force after ECN marks. -/
  slowed : Nat
  deriving DecidableEq, Repr

def HteQp.init : HteQp := ⟨0, [], 0, 0⟩

end Sys2Proof.Machine
end

