-- ==== Sys2Proof/Machine/StMgmt.lean ====
section
/-! DEFINITION. The state of contexts, the security core, the management attachment, the steward, bring-up and the pins (R345 to R522). -/

namespace Sys2Proof.Machine

/-- A protection commit under way (R395): the step reached, the tiles that leave, and the new set. -/
structure ProtRun where
  ctx : Nat
  step : Nat
  newTiles : Bytes
  newWins : List Bytes
  oldTiles : Bytes
  oldWins : List Bytes
  deriving DecidableEq, Repr

/-- Contexts beside their objects (R381 to R404). -/
structure CtxSys where
  /-- The tenant image key index that a context was opened with; an unlisted context names none (R145, R412). -/
  imageKey : NMap Nat
  /-- The staged tile set of a context (R395). -/
  stagedTiles : NMap Bytes
  prots : List ProtRun
  /-- Retires accepted while a commit is BUSY (R398). -/
  retireAfter : List Nat
  /-- The job number as it stood when the retire was accepted (R501). -/
  retireJob : NMap Nat
  /-- Readings of per-unit objects of a confidential context's tiles, by `64 * key + context`, as they stood when the tile came in (R399). -/
  frozenReads : NMap Nat
  /-- Readings at the last whole 100 ms or 1 s, by object key, and the sums of power and rail readings over the present 100 ms (R399). -/
  coarse : NMap Nat
  sums : NMap Nat
  deriving DecidableEq, Repr

def CtxSys.init : CtxSys := ⟨[], [], [], [], [], [], [], []⟩

/-- A measurement entry (R425). -/
structure Meas where
  kind : Nat
  domain : Nat
  svn : Nat
  digest : Bytes
  deriving DecidableEq, Repr

/-- A security command under way (R419): its bytes, and the result that `sc_status` will show; none while it waits for a tile in a substitution (R100). -/
structure ScRun where
  cmd : Bytes
  due : Option Nat
  deriving DecidableEq, Repr

/-- A request for a report that waits (R428): of a session with its nonce, or of a context with its command. -/
inductive AttReq where
  | pkg (session : Nat) (nonce : Bytes)
  | ctx (c : Nat) (v : Bytes)
  deriving DecidableEq, Repr

/-- A Steward session that this package has asked for (R439): the position, the ephemeral private key, the OPEN_REQ body, and when it went out. -/
structure Opening where
  pos : Nat
  priv : Bytes
  body : Bytes
  time : Nat
  deriving DecidableEq, Repr

/-- The security core (R405 to R430). -/
structure Sec where
  /-- The unique device secret of this package (R408); no role reads it. -/
  uds : Bytes
  bindingPriv : Bytes
  aliasPriv : Bytes
  /-- The record key, which authenticates the field map (R465). -/
  recordKey : Bytes
  /-- The authority record in force, and the one held in FL for the next cold reset (R414). -/
  arForce : Bytes
  arStored : Bytes
  /-- Job keys by `4 * ctx + slot`, and their key epochs (R299, R420). -/
  slotKeys : NMap Bytes
  slotEpochs : NMap Nat
  /-- Context exchange private keys (R409, R423). -/
  xPriv : NMap Bytes
  /-- The slot that an accepted ACTIVATE makes ACTIVE at T (R422). -/
  actSlot : NMap Nat
  /-- Package measurements, kinds 0x01 to 0x08 (R425). -/
  pkg : List Meas
  /-- Image measurements of each context in load order, its commit chain, and the commits since OPEN (R425). -/
  images : NMap (List Meas)
  chains : NMap Bytes
  commits : NMap Nat
  /-- Security commands under way, by context (R419), and requests for reports that wait (R427, R428). -/
  scRuns : NMap ScRun
  attest : List AttReq
  deriving DecidableEq, Repr

inductive SessState where
  | proving | opened
  deriving DecidableEq, Repr

/-- A replay window (R434): the highest number accepted, and the mask of the 64 numbers below it. -/
structure ReplayWin where
  high : Nat
  mask : Nat
  deriving DecidableEq, Repr

/-- A response of the package (R440). -/
structure NxResp where
  reqId : Nat
  op : Nat
  result : Nat
  offset : Nat
  total : Nat
  data : Bytes
  deriving DecidableEq, Repr

/-- A request whose answer is outstanding (R441). -/
structure OpenReq where
  reqId : Nat
  op : Nat
  deriving DecidableEq, Repr

/-- A session, NXF or Steward (R431 to R439). -/
structure Session where
  id : Nat
  port : Nat
  role : Nat
  ctx : Nat
  st : SessState
  /-- A Steward session's peer position; opened by this package. -/
  peer : Option Nat
  weOpened : Bool
  openReq : Bytes
  openResp : Bytes
  /-- The source address and UDP port of its last frame, to which the package answers (R433). -/
  addr : Bytes
  udp : Nat
  /-- The `nx_session` of its frames, which the side that answered OPEN_REQ gave it, and the keys of traffic from the opener and from the opened (R417). -/
  peerId : Nat
  keyIn : Bytes
  keyOut : Bytes
  keyDigest : Bytes
  win : ReplayWin
  txSeq : Nat
  segs : NMap Bytes
  segCount : Nat
  openReqs : List OpenReq
  kept : List NxResp
  pkgReport : Bytes
  pkgStatus : Nat
  /-- The SPDM message whose answer is outstanding (R444), and the transcripts of this session: version to algorithms, certificates, measurements. -/
  spdm : Option Bytes
  spdmVca : Bytes
  spdmCert : Bytes
  spdmMeas : Bytes
  deriving DecidableEq, Repr

/-- The sender of a mailbox message (R451). -/
inductive MbxSender where
  | session (id port role ctx req : Nat)
  | tile (tile tally ctx age epoch : Nat)
  deriving DecidableEq, Repr

/-- A message in a mailbox queue. -/
structure MbxMsg where
  sender : MbxSender
  seq : Nat
  time : Nat
  body : Bytes
  deriving DecidableEq, Repr

/-- A mailbox (R450 to R454). -/
structure Mailbox where
  queue : List MbxMsg
  seq : Nat
  stuck : Bool
  deriving DecidableEq, Repr

/-- A firmware image in a slot of FL: header, digest. -/
structure FwImage where
  hdr : Bytes
  digest : Bytes
  deriving DecidableEq, Repr

/-- A firmware element (R455 to R460): the running image, the previous one in the other slot, the bytes being loaded, the staged image. -/
structure FwElem where
  running : FwImage
  previous : Option FwImage
  loading : NMap Byte
  loadEnd : Nat
  staged : Option FwImage
  /-- The running image was newly activated and has not been fallen back from (R459). -/
  fresh : Bool
  deriving DecidableEq, Repr

/-- The management attachment (R431 to R463). -/
structure Mgmt where
  sessions : List Session
  nextId : Nat
  /-- The package's group key, and each peer's, with its replay window (R439). -/
  groupKey : Bytes
  groupSeq : Nat
  peerKeys : List (Nat × Bytes × ReplayWin)
  mailboxes : NMap Mailbox
  fw : NMap FwElem
  /-- Writes of persistent objects that wait for FL: session, request, object key, value (R447). -/
  storing : List (Nat × Nat × Nat × Bytes)
  persistReset : Bool
  /-- Priorities paused on H0 and H1 by PFC (R432), as masks. -/
  paused : NMap Nat
  opening : List Opening
  /-- What `fw_stage_result` of an element will read once the staging step under way is over (R455). -/
  fwDue : NMap Nat
  deriving DecidableEq, Repr

/-- A position's last POWER_REPORT (R370). -/
structure PowerRep where
  pos : Nat
  power : Nat
  demand : Nat
  host : Nat
  state : Nat
  flags : Nat
  deriving DecidableEq, Repr

/-- A poll of one equipment entry (R365, R366): an answer is awaited, polls unanswered in a row, rated output, pumping, SILENT or lost. -/
structure EqPoll where
  waiting : Bool
  misses : Nat
  rated : Nat
  status : Nat
  lost : Bool
  supply : Nat
  /-- A shelf's present output in 10 W units, or a CDU's flow in 0.1 L/min (R365). -/
  regC : Nat
  /-- The last answer of a CDU whose status register was OK showed that it does not pump (R367, R372). -/
  stopped : Bool
  deriving DecidableEq, Repr

def EqPoll.init : EqPoll := ⟨false, 0, 0, 0, false, 0xFFFF, 0, false⟩

/-- The package steward and the catchment steward (R345 to R380). -/
structure Steward where
  /-- The floor latch's setting time in ns (R360). -/
  floorSetNs : Nat
  /-- Which rail state the stop under way leads to: FABRIC 1 or PARKED 5 (R347, R349). -/
  stopTo : Nat
  /-- A park order in force (R351). -/
  parkOrder : Bool
  /-- The causes of the park in force (R349, R380): 1 leak or loop fault, 2 hub lost, 3 low flow, 4 regulator fault, 5 trip, 6 a fault of FD. -/
  parkWhy : List Nat
  /-- A thermal order to FABRIC in force (R359). -/
  thermalFabric : Bool
  /-- The LOW_FLOW cap of 1,040 W in force, by the tray's own report and by the Wellhead's SAFETY (R372, R373). -/
  lowFlowTray : Bool
  lowFlowWh : Bool
  /-- The steward cap in force, and whether the last entry granted STARTING (R369, R353). -/
  stewardCap : Nat
  granted : Bool
  /-- The last entry gave no grant: an order for FABRIC (R351). -/
  fabricOrder : Bool
  orphanCap : Option Nat
  /-- Steps of 25 MHz that temperature takes from each die's clock (R359). -/
  thermalSteps : NMap Nat
  /-- Sensors now SUSPECT (R378). -/
  suspect : List Nat
  /-- Leak loop classes of the last two readings, the hub lead, and sensor figures (R376, R379). -/
  loopClass : NMap Nat
  loopPrev : NMap Nat
  lead : Bool
  leadCol : Nat
  inlet : Nat
  outlet : Nat
  /-- The last pressure that the hub has shown, in kPa (R370). -/
  pressure : Nat
  cduSupply : Nat
  /-- Catchment steward (R365 to R372). -/
  eqs : NMap EqPoll
  reports : List PowerRep
  grantedPos : List Nat
  safetySeq : Nat
  txSeq : Nat
  alert : Bool
  pumpLoss : Bool
  /-- Used flow below the limit, by tray, and outlet temperature by tray (R372). -/
  trayLow : List Nat
  trayOut : NMap Nat
  /-- The budget kept while every entry is SILENT (R366). -/
  keptBudget : Nat
  nextTray : Nat
  /-- The raised clock of a die that waits for its VTILE (R358). -/
  raising : NMap Nat
  /-- Rails with a regulator fault (R363). -/
  railBad : List Nat
  /-- Power of each rail in mW, and the sum and number of the totals since the last whole millisecond (R354). -/
  railMw : NMap Nat
  pwrSum : Nat
  pwrN : Nat
  /-- Package power in mW, newest first: of the last 100 µs by poll, and of the last 100 ms by millisecond under the cap in force, with the VTILE currents in 0.1 A of each of
  the last 100 ms (R355). -/
  polls : List Nat
  msMw : List Nat
  msAmp : List (List Nat)
  /-- The last SAFETY sequence taken (R370), and the used flow of each tray as its lead last reported it (R379). -/
  safetyRx : Nat
  trayUsed : NMap Nat
  /-- A positive alert has been polled: entries that have not answered since (R366). -/
  alertWait : List Nat
  /-- The leading package of the tray has said LOW_FLOW (R373). -/
  lowFlowSaid : Bool
  /-- The cap being followed: it falls at once and rises at `rise_rate_w_per_ms` (R353). -/
  ramp : Nat
  /-- PFAIL_N has asserted and its clearing has not been handled (R361). -/
  pfailPend : Bool
  /-- The last supervised reading of each die in °C, and the milliseconds each die has spent within 10 °C of its control point (R359, R487). -/
  temps : NMap Int
  hotMs : NMap Nat
  /-- Trays the Wellhead has cleared from the low-flow mask, and those it parks (R372): the pump loss being handled. -/
  pumpHandled : Bool
  /-- Tray status as the last TRAY_SENSORS of each tray gave it (R370). -/
  trayStat : NMap Nat
  /-- Since when each tray's used flow has been at 110% of the threshold or more (R372), and the entries of the last CAP_TABLE sent (R366). -/
  trayOk : NMap Nat
  lastCaps : Bytes
  deriving DecidableEq, Repr

/-- A copy of the field map in FL (R464, R467): its sequence number, the states and mapping by object key, the SRAM rows given to spares, the fail counts of units
other than tile sites, and its authentication under the record key (R465). -/
structure MapCopy where
  seq : Nat
  states : NMap Nat
  rows : List Nat
  fails : NMap Nat
  mac : Bytes
  deriving DecidableEq, Repr

def MapCopy.init : MapCopy := ⟨0, [], [], [], []⟩

/-- Clocks, resets, bring-up and the pins (R464 to R522). -/
structure Boot where
  /-- RESET_N, THROTTLE_N, PFAIL_N, TRAY_PRES_N, PMBUS_ALERT_N as last seen (true high), and the straps. -/
  resetN : Bool
  throttleN : Bool
  pfailN : Bool
  trayPresN : Bool
  pmbusAlertN : Bool
  straps : Nat
  /-- Rails up, in the order of raising (R512), by the sub numbers of `rail_telemetry`. -/
  rails : List Nat
  /-- The bring-up step that runs or is held before; hold in force; RUN given. -/
  step : Nat
  held : Bool
  runAll : Bool
  /-- Bring-up was halted at ROOT or MANAGER since the cold reset (R466, R470). -/
  dead : Bool
  /-- TILE_KAT and MEMORY_KAT run again, and the package then holds (R469). -/
  retest : Bool
  /-- Each reference as the package last saw it. -/
  refA : Bool
  refB : Bool
  /-- PTP: package time minus the free-running count, the offset estimate, a Sync heard, the time since the offset stayed within 20 µs,
  the selected source (R479). -/
  ptpDelta : Int
  ptpOffset : Int
  ptpHeard : Bool
  ptpSource : Nat
  /-- Domains held in reset (R481 to R484), and generations confirmed (R482). -/
  inReset : List Nat
  confirmed : NMap Nat
  /-- When FD last failed (R484), whether FD is being reset (R458, R484), and whether the staged FD image is what starts then (R458, R505). -/
  fdFaultNs : Option Nat
  fdReset : Bool
  fdNew : Bool
  /-- A cold reset waits for the flush that `reset_cmd` started (R481, R499). -/
  resetWaits : Bool
  /-- Fail counts of units other than tile sites, by `65536 * class + unit` (R473), and below the units changed since the last write. -/
  failCounts : NMap Nat
  /-- The two copies of the field map in FL, newer first (R467). -/
  mapNew : MapCopy
  mapOld : MapCopy
  mapDirty : List Nat
  /-- Persistent values stored in FL: integer objects and byte strings (R447). -/
  flReg : NMap Nat
  flOct : NMap Bytes
  /-- TAP: the instruction (IEEE 1149.1 names of R520) and the boundary-scan register (R515). -/
  tapInstr : Nat
  bsr : Nat
  tapDrive : Bool
  tapFloat : Bool
  deriving DecidableEq, Repr

/-- What the package puts on its boundary. -/
inductive Emit where
  /-- Flits back to back on an external port, a packet with its trailer or a control flit (R222), and the PAM4 levels in which each of the 18 transmit positions carries
  them (R217, R220); a dark position has none. -/
  | flits (port : Nat) (b : Bytes) (levels : List (List Nat))
  | idle (port : Nat)
  | train (port : Nat) (position : Nat) (catchment : Nat)
  | d2dReplay (link dir seq : Nat)
  | memReply (st : Status) (data : Bytes)
  | memAck (st : Status)
  | memOld (st : Status) (old : Nat)
  | rdma (hte qp : Nat) (p : RdmaPkt)
  | rdmaNak (port qpn : Nat)
  | steal (thief victim : Nat)
  /-- An NXF datagram (R433): the management port, the destination address and UDP port, and the frame as it stands on the wire. -/
  | nxf (port : Nat) (addr : Bytes) (udp : Nat) (wire : Bytes)
  /-- A Modbus read of one register (R365): the IPv6 address, the TCP port, the unit, the function and the register. -/
  | modbus (addr : Bytes) (port unit function reg : Nat)
  | avs (rail value : Nat)
  | rail (rail : Nat) (on : Bool)
  | pmbus (rail : Nat)
  | hub (op : Nat)
  | tdo (v : Nat)
  /-- An answer to ARP (0), neighbour discovery (1) or echo (2), for one of the port's addresses (R432). -/
  | netReply (port kind : Nat) (addr : Bytes)
  | refresh (stack die bank : Nat)
  | refreshMgmt (stack die bank : Nat)
  deriving DecidableEq, Repr

end Sys2Proof.Machine
end

