-- ==== Sys2Proof/Syntax.lean ====
section
/-! DEFINITION. The commands of the package: one constructor for every row of spec/opcode_table.json, with its operands. A command is a write
or read of a register, an event on a pin or a port, an arrival, an expiry, or the execution of one instruction of a tile sequencer. -/

namespace Sys2Proof

open Sys2Proof.Machine

/-- The fields of the R format (R130): rd, ra, rb and the reserved bits. -/
structure FmtR where
  rd : Nat
  ra : Nat
  rb : Nat
  rsv : Nat
  deriving DecidableEq, Repr

/-- The fields of the I format (R130). -/
structure FmtI where
  rd : Nat
  ra : Nat
  imm : Nat
  deriving DecidableEq, Repr

/-- The fields of the B format (R130). -/
structure FmtB where
  ra : Nat
  rb : Nat
  off : Nat
  deriving DecidableEq, Repr

/-- The fields of the J format (R130). -/
structure FmtJ where
  rd : Nat
  off : Nat
  deriving DecidableEq, Repr

/-- The fields of the D format (R130). -/
structure FmtD where
  dn : Nat
  rsv : Nat
  ra : Nat
  imm : Nat
  deriving DecidableEq, Repr

/-- The fields of the T format (R130). -/
structure FmtT where
  da : Nat
  db : Nat
  dc : Nat
  cfg : Nat
  acc : Nat
  skip : Nat
  rsv : Nat
  deriving DecidableEq, Repr

/-- The fields of the V format without its function, which the mnemonic names (R130, R133). -/
structure FmtV where
  vd : Nat
  va : Nat
  vb : Nat
  vc : Nat
  deriving DecidableEq, Repr

/-- The fields of the X format (R130). -/
structure FmtX where
  ra : Nat
  rb : Nat
  rc : Nat
  rsv : Nat
  tally : Nat
  deriving DecidableEq, Repr

/-- The fields of the S format (R130). -/
structure FmtS where
  r : Nat
  rsv : Nat
  tally : Nat
  imm : Nat
  deriving DecidableEq, Repr

/-- A received NXF frame (R433, R434): the source address and UDP ports of its datagram, the position of the package at that address (64 or more for any other peer), the
fields of its header, and its tag. Its body, as plaintext, is what the command carries. -/
structure NxFrame where
  peer : Nat
  addr : Bytes
  sport : Nat
  dport : Nat
  magic : Nat
  version : Nat
  typ : Nat
  session : Nat
  seq : Nat
  len : Nat
  rsv : Nat
  tag : Bytes
  deriving DecidableEq, Repr

/-- A REQUEST frame (R440): its header and its body. -/
structure NxReq where
  frame : NxFrame
  reqId : Nat
  op : Nat
  area : Nat
  entry : Nat
  sub : Nat
  rsv : Nat
  length : Nat
  offset : Nat
  value : Bytes
  deriving DecidableEq, Repr

/-- Who writes an object: the role code (R435), a Tenant's context, and the session and request to be answered; session 0 is the package's own
firmware. -/
structure Who where
  role : Nat
  ctx : Nat
  session : Nat
  reqId : Nat
  deriving DecidableEq, Repr

/-- A unit that quiesces (R20, R24). -/
inductive UnitRef where
  | tile (n : Nat)
  | te (c : Nat)
  | ni (i : Nat)
  | port (p : Nat)
  | mbx (m : Nat)
  deriving DecidableEq, Repr

/-- A queue where posts wait (R121). -/
inductive PostAt where
  | pool (t : Nat)
  | te (c : Nat)
  | niq (i c : Nat)
  deriving DecidableEq, Repr

/-- A word of a patrolled SRAM row whose check is not clean, and what it says (R79). -/
structure WordErr where
  word : Nat
  mark : EccMark
  deriving DecidableEq, Repr

/-- A packet that answers an RDMA request (R206): kind 0 acknowledgement, 1 negative acknowledgement, 2 READ response; the sequence number it
names, the NAK code, and a READ response's data. -/
structure RdmaResp where
  kind : Nat
  psn : Nat
  code : Nat
  data : Bytes
  deriving DecidableEq, Repr

/-- One receive position's measurement (R235): position, pre-FEC error ratio as `lane_ber_est` counts it, smallest eye height in mV. -/
structure LaneRead where
  pos : Nat
  ber : Nat
  eye : Nat
  deriving DecidableEq, Repr

/-- One rail's reading (R354, R362): the rail as a sub of `rail_telemetry`, mV, mA, °C, its STATUS_WORD, and whether it answered and lay within 5% of its
set value over the last 1 ms (R363). -/
structure RailRead where
  rail : Nat
  mv : Nat
  ma : Nat
  temp : Int
  status : Nat
  answered : Bool
  inTol : Bool
  deriving DecidableEq, Repr

/-- One stored byte of a granule that has come to differ (R156, R157): its place among the 136, data bytes first, and the bits that differ. -/
structure CellErr where
  byte : Nat
  flip : Nat
  deriving DecidableEq, Repr

/-- What befalls one read of a granule: cells of it that have come to differ since its last access, or a read of the wrong granule (R157). -/
inductive ReadErr where
  | cells (l : List CellErr)
  | wrongGranule (pa : Nat)
  deriving DecidableEq, Repr

/-- One reading of a die temperature sensor, in 0.01 °C (R378). -/
structure SensorRead where
  sensor : Nat
  temp : Int
  deriving DecidableEq, Repr

/-- A sensor-hub reading (R370, R376): the four loop resistances in ohms, inlet and outlet temperatures in 0.01 °C, measured flow in 0.01 L/min and pressure in kPa. -/
structure HubRead where
  loops : List Nat
  inlet : Int
  outlet : Int
  flow : Nat
  pressure : Nat
  deriving DecidableEq, Repr

/-- What steps ROOT and MANAGER find (R407, R408, R412, R466): the straps, whether the identity, the firmware, the trim record and factory map, the
newer and the older copy of the field map and the random-number generator pass, whether each reference is present, and the records of the
images in FL whose `ev_crc` fails (R494). -/
structure RootRes where
  straps : Nat
  identityOk : Bool
  firmwareOk : Bool
  recordsOk : Bool
  fieldMapOk : Bool
  olderMapOk : Bool
  rngOk : Bool
  refA : Bool
  refB : Bool
  badRecs : List Nat
  deriving DecidableEq, Repr

/-- What a bring-up step finds (R469 to R476): whether its own work succeeded and its firmware verified, the units whose known-answer run failed (tile sites, DRAM
positions as `32 * stack + position`, router banks as `8 * port + bank`, lasers as `16 * engine + laser`, NIs, SRAM rows as `16384 * site + 1024 * bank + row`),
and in-package links without a lane left. -/
structure StepRes where
  pass : Bool
  fwOk : Bool
  sites : List Nat
  dies : List Nat
  banks : List Nat
  lasers : List Nat
  nis : List Nat
  rows : List Nat
  d2dOut : Bool
  deriving DecidableEq, Repr

/-- A wear reading beyond its limit (R485). -/
inductive WearRead where
  | siteAge (site reading : Nat)
  | drift (tile : Nat)
  | noRow (tile : Nat)
  | dieErrors (stack pos : Nat)
  | eye (port dir pos : Nat)
  deriving DecidableEq, Repr

/-- The commands, one constructor for each row of the command table. -/
inductive Instr where
  /-- WRITE (R443): An NXF WRITE to a dictionary object that has no row of its own replaces its value atomically after the range, access and length checks. -/
  | write (q : NxReq)
  /-- READ (R443): An NXF READ returns an object's value, or one piece of it, taken at one instant. -/
  | read (q : NxReq)
  /-- NEXT (R440): An NXF NEXT request returns the next object of the area that the session may reach. -/
  | nextObj (q : NxReq)
  /-- KEEPALIVE (R437): An NXF KEEPALIVE request keeps a session open. -/
  | keepalive (q : NxReq)
  /-- QUIESCE_GRACE_END (R24): The quiesce grace of a QUIESCING unit expires, and its remaining work completes with ABORTED_DISABLED. -/
  | quiesceGraceEnd (u : UnitRef)
  /-- QUIESCE_DRAINED (R24): The last in-flight item of a QUIESCING unit completes before the grace ends. -/
  | quiesceDrained (u : UnitRef)
  /-- QUIESCE_FAIL_ABORT (R28): A unit fails while QUIESCING, and manager firmware delivers ABORTED_DISABLED for each item still outstanding. -/
  | quiesceFailAbort (u : UnitRef)
  /-- ADD (R131): Scalar add of two registers. -/
  | add (t : Nat) (f : FmtR)
  /-- SUB (R131): Scalar subtract of two registers. -/
  | sub (t : Nat) (f : FmtR)
  /-- AND (R131): Scalar bitwise AND of two registers. -/
  | and_ (t : Nat) (f : FmtR)
  /-- OR (R131): Scalar bitwise OR of two registers. -/
  | or_ (t : Nat) (f : FmtR)
  /-- XOR (R131): Scalar bitwise XOR of two registers. -/
  | xor_ (t : Nat) (f : FmtR)
  /-- SHL (R131): Scalar shift left. -/
  | shl (t : Nat) (f : FmtR)
  /-- SHR (R131): Scalar logical shift right. -/
  | shr (t : Nat) (f : FmtR)
  /-- MUL (R131): Scalar multiply, keeping the low 64 bits. -/
  | mul (t : Nat) (f : FmtR)
  /-- SLT (R131): Signed set-less-than. -/
  | slt (t : Nat) (f : FmtR)
  /-- ADDI (R131): Add a sign-extended immediate. -/
  | addi (t : Nat) (f : FmtI)
  /-- ORI (R131): OR with a zero-extended immediate. -/
  | ori (t : Nat) (f : FmtI)
  /-- LUI (R131): Load an upper immediate. -/
  | lui (t : Nat) (f : FmtI)
  /-- LDX (R131): Load a 64-bit word from own SRAM, with window and alignment checks. -/
  | ldx (t : Nat) (f : FmtI)
  /-- STX (R131): Store a 64-bit word to own SRAM, with window and alignment checks. -/
  | stx (t : Nat) (f : FmtI)
  /-- BEQ (R131): Branch if equal. -/
  | beq (t : Nat) (f : FmtB)
  /-- BNE (R131): Branch if not equal. -/
  | bne (t : Nat) (f : FmtB)
  /-- BLT (R131): Branch if less than, signed. -/
  | blt (t : Nat) (f : FmtB)
  /-- BGE (R131): Branch if greater than or equal, signed. -/
  | bge (t : Nat) (f : FmtB)
  /-- JAL (R131): Jump and link. -/
  | jal (t : Nat) (f : FmtJ)
  /-- JR (R131): Jump to a register target, with the alignment check of R530. -/
  | jr (t : Nat) (f : FmtR)
  /-- DLD (R136): Load a tensor descriptor into a descriptor register; the descriptor is checked for malformation. -/
  | dld (t : Nat) (f : FmtD)
  /-- DST (R131): Store a descriptor register to own SRAM. -/
  | dst (t : Nat) (f : FmtD)
  /-- DSETW (R131): Set one 64-bit word of a descriptor register. -/
  | dsetw (t : Nat) (f : FmtD)
  /-- DADV (R131): Advance origin0 or origin1 of a descriptor register. -/
  | dadv (t : Nat) (f : FmtD)
  /-- MMA (R132): Issue an array multiply-accumulate into the current accumulator set. -/
  | mma (t : Nat) (f : FmtT)
  /-- MMA_DONE (R67): An array operation finishes its K-steps, including zero-block skipping and escalated blocks. -/
  | mmaDone (t : Nat) (drawn : List Nat)
  /-- SHADOW_CHECK_DONE (R60): The vector unit finishes a shadow recomputation and compares it with the block sum, counting drift. -/
  | shadowCheckDone (t : Nat) (fault : Int)
  /-- DRIFT_HOUR_ROLLOVER (R60): A tile's hourly drift window ends and the drift count is reset. -/
  | driftHourRollover (t : Nat)
  /-- DRAIN (R133): Issue a drain of the current accumulator set through the quantizer into a view. -/
  | drain (t : Nat) (f : FmtT)
  /-- DRAIN_DONE (R129): A drain finishes writing its view, including quantization and escalation. -/
  | drainDone (t : Nat)
  /-- QCVT (R133): Issue a conversion of one view into another through the quantizer. -/
  | qcvt (t : Nat) (f : FmtT)
  /-- QCVT_DONE (R133): A conversion finishes writing its target view. -/
  | qcvtDone (t : Nat)
  /-- VLD (R131): Load a vector register from own SRAM. -/
  | vld (t : Nat) (f : FmtI)
  /-- VST (R131): Store a vector register to own SRAM. -/
  | vst (t : Nat) (f : FmtI)
  /-- FADD (R133): Vector FP32 add. -/
  | fadd (t : Nat) (f : FmtV)
  /-- FSUB (R133): Vector FP32 subtract. -/
  | fsub (t : Nat) (f : FmtV)
  /-- FMUL (R133): Vector FP32 multiply. -/
  | fmul (t : Nat) (f : FmtV)
  /-- FFMA (R133): Vector FP32 fused multiply-add. -/
  | ffma (t : Nat) (f : FmtV)
  /-- FMIN (R133): Vector FP32 minimum. -/
  | fmin (t : Nat) (f : FmtV)
  /-- FMAX (R133): Vector FP32 maximum. -/
  | fmax (t : Nat) (f : FmtV)
  /-- FCMPLT (R133): Vector compare-less-than, producing a lane mask. -/
  | fcmplt (t : Nat) (f : FmtV)
  /-- SEL (R133): Vector select by lane mask. -/
  | sel (t : Nat) (f : FmtV)
  /-- EXP (R84): Vector exponential. -/
  | exp (t : Nat) (f : FmtV)
  /-- LOG (R84): Vector logarithm. -/
  | log (t : Nat) (f : FmtV)
  /-- RSQRT (R84): Vector reciprocal square root. -/
  | rsqrt (t : Nat) (f : FmtV)
  /-- TANH (R84): Vector tanh. -/
  | tanh (t : Nat) (f : FmtV)
  /-- SIGM (R84): Vector sigmoid. -/
  | sigm (t : Nat) (f : FmtV)
  /-- DIV (R133): Vector divide. -/
  | div (t : Nat) (f : FmtV)
  /-- SQRT (R133): Vector square root. -/
  | sqrt (t : Nat) (f : FmtV)
  /-- RSUM (R85): Pairwise lane sum reduction. -/
  | rsum (t : Nat) (f : FmtV)
  /-- RMAX (R133): Lane maximum reduction. -/
  | rmax (t : Nat) (f : FmtV)
  /-- RMIN (R133): Lane minimum reduction. -/
  | rmin (t : Nat) (f : FmtV)
  /-- IADD (R133): Vector INT32 add. -/
  | iadd (t : Nat) (f : FmtV)
  /-- ISUB (R133): Vector INT32 subtract. -/
  | isub (t : Nat) (f : FmtV)
  /-- IAND (R133): Vector INT32 AND. -/
  | iand (t : Nat) (f : FmtV)
  /-- IOR (R133): Vector INT32 OR. -/
  | ior (t : Nat) (f : FmtV)
  /-- IXOR (R133): Vector INT32 XOR. -/
  | ixor (t : Nat) (f : FmtV)
  /-- ISHL (R133): Vector INT32 shift left. -/
  | ishl (t : Nat) (f : FmtV)
  /-- ISHR (R133): Vector INT32 shift right. -/
  | ishr (t : Nat) (f : FmtV)
  /-- CVT (R133): Vector conversion to an IEEE format. -/
  | cvt (t : Nat) (f : FmtV)
  /-- BADD (R133): Packed BF16 add. -/
  | badd (t : Nat) (f : FmtV)
  /-- BSUB (R133): Packed BF16 subtract. -/
  | bsub (t : Nat) (f : FmtV)
  /-- BMUL (R133): Packed BF16 multiply. -/
  | bmul (t : Nat) (f : FmtV)
  /-- BFMA (R133): Packed BF16 fused multiply-add. -/
  | bfma (t : Nat) (f : FmtV)
  /-- XFER (R135): Issue a tile copy between a tile-relative address and another address, checked at issue. -/
  | xfer (t : Nat) (f : FmtX)
  /-- XFER_COMPLETE (R135): A tile copy completes on its tally with one status, or freezes the tile on a window failure. -/
  | xferComplete (t k : Nat)
  /-- POST_TASK (R119): POST sends a task descriptor to a pool of this package. -/
  | postTask (t : Nat) (f : FmtX)
  /-- POST_REMOTE_TASK (R281): POST sends a task descriptor to a rank through the NI as a TASK command. -/
  | postRemoteTask (t : Nat) (f : FmtX)
  /-- POST_TE_DIRECT (R189): POST places a descriptor in a transfer-engine channel's direct queue. -/
  | postTeDirect (t : Nat) (f : FmtX)
  /-- POST_NI_DIRECT (R281): POST places a command in an NI's direct queue. -/
  | postNiDirect (t : Nat) (f : FmtX)
  /-- POST_MAILBOX (R451): POST sends a 64-byte message to a mailbox. -/
  | postMailbox (t : Nat) (f : FmtX)
  /-- POST_BELL (R451): POST rings a doorbell of a mailbox. -/
  | postBell (t : Nat) (f : FmtX)
  /-- TSET (R110): Claim a tally or set its count, resetting its status and cause. -/
  | tset (t : Nat) (f : FmtS)
  /-- TDEC (R111): Decrement a tally by an immediate. -/
  | tdec (t : Nat) (f : FmtS)
  /-- TWAIT (R131): Wait until a tally has fired and return its status. -/
  | twait (t : Nat) (f : FmtS)
  /-- TRD (R131): Read a tally's count, status and cause. -/
  | trd (t : Nat) (f : FmtS)
  /-- TFREE (R110): Release a tally. -/
  | tfree (t : Nat) (f : FmtS)
  /-- FENCE (R128): Wait until every XFER and POST of the task has completed. -/
  | fence (t : Nat) (f : FmtS)
  /-- END (R128): End the task once its work is done, deliver its completion and record, and decrement its done tally. -/
  | end_ (t : Nat) (f : FmtS)
  /-- ILLEGAL_INSTRUCTION (R131): An illegal opcode faults the task with cause ILLEGAL. -/
  | illegalInstruction (t : Nat)
  /-- TASK_SELECT (R116): The tile selects the next READY task by time-sharing and priority, completing dependency-failed tasks. -/
  | taskSelect (t : Nat)
  /-- TALLY_DECREMENT (R111): A completion naming a tally arrives and decrements it, merges its status, or is refused as misdirected. -/
  | tallyDecrement (k : Nat)
  /-- POST_ARRIVAL (R120): A posted task arrives at its target pool and is checked, stamped and admitted, queued or refused. -/
  | postArrival (k : Nat)
  /-- POST_QUEUE_ADMIT (R121): A pool entry frees, and the oldest post waiting in the post queue enters the pool. -/
  | postQueueAdmit (q : PostAt)
  /-- POST_WAIT_EXPIRY (R120): A post still waiting post_wait_us after arrival completes with TIMEOUT, cause POST_FULL. -/
  | postWaitExpiry (q : PostAt) (k : Nat)
  /-- TASK_BUDGET_EXPIRY (R139): The running task's budget is exhausted, and it stops with cause BUDGET. -/
  | taskBudgetExpiry (t : Nat)
  /-- SEQUENCER_WATCHDOG_EXPIRY (R139): A task retires no instruction for 1 ms, and the tile enters FAILED. -/
  | sequencerWatchdogExpiry (t : Nat)
  /-- STEAL_POLL (R123): An idle tile sends a steal request to its next mesh neighbour. -/
  | stealPoll (t : Nat)
  /-- STEAL_REQUEST (R124): A victim receives a steal request and gives a qualifying task or none. -/
  | stealRequest (victim thief : Nat)
  /-- STEAL_REPLY (R124): A thief receives a stolen task and runs it, or returns it when it can no longer take it. -/
  | stealReply (t : Nat)
  /-- TILE_DISABLE (R96): tile_control DISABLE puts a tile into QUIESCING. -/
  | tileDisable (w : Who) (n : Nat)
  /-- TILE_ENABLE (R105): tile_control ENABLE returns a DISABLED tile to ACTIVE. -/
  | tileEnable (w : Who) (n : Nat)
  /-- TILE_SWAP (R100): tile_control SWAP reserves a spare site for substitution at the next context boundary. -/
  | tileSwap (w : Who) (n : Nat)
  /-- TILE_SWAP_NOW (R100): tile_control SWAP_NOW reserves a spare site for substitution at the end of the running task. -/
  | tileSwapNow (w : Who) (n : Nat)
  /-- SUBSTITUTION_HOLD (R100): A context boundary or task end is reached, and a pending substitution stops new accesses and starts the copy. -/
  | substitutionHold (n : Nat)
  /-- SUBSTITUTION_COPY_DONE (R100): The 2 MiB copy ends, every mesh station maps the logical tile to the new site, and the old site is retired or failed. -/
  | substitutionCopyDone (n : Nat)
  /-- TILE_PARITY_FAIL (R99): An internal parity check of a tile fails, and the tile enters FAILED and is substituted when a spare is free. -/
  | tileParityFail (n : Nat)
  /-- FREEZE_RELEASE_KEEP (R140): freeze_control RELEASE_KEEP discards the kept state, applies the pending counts and returns the tile to ACTIVE or QUIESCING. -/
  | freezeReleaseKeep (w : Who) (n : Nat)
  /-- FREEZE_RELEASE_PURGE (R140): freeze_control RELEASE_PURGE also completes the offending context's pool tasks with ABORTED_DISABLED. -/
  | freezeReleasePurge (w : Who) (n : Nat)
  /-- SRAM_PATROL (R80): SRAM patrol reads a row using idle bank clocks. -/
  | sramPatrol (n bank row : Nat) (found : List WordErr)
  /-- TILE_CLOCK_CHANGE (R92): The tile clock of a die changes to a new step without stopping work. -/
  | tileClockChange (die mhz : Nat)
  /-- JTI_LOAD (R145): A write to jti_load starts an image load: the header, digest, signature and section windows are checked. -/
  | jtiLoad (w : Who) (ctx addr : Nat)
  /-- JTI_PLACEMENT_DONE (R145): The section placement copies complete, the digest is recorded, and the TASKS are posted. -/
  | jtiPlacementDone (ctx : Nat)
  /-- JTI_LOAD_DONE (R146): The last post of an image load completes, and jti_load_status becomes DONE. -/
  | jtiLoadDone (ctx : Nat)
  /-- MEM_READ (R158): A base die reads a granule, correcting and writing back, or answering UNCORRECTABLE, or VIOLATION for a hole. -/
  | memRead (pa : Nat) (found : ReadErr)
  /-- MEM_WRITE (R160): A base die writes a whole granule or performs a read-merge-write. -/
  | memWrite (pa : Nat) (data : Bytes)
  /-- MEM_ATOMIC (R161): A base die performs an atomic read-merge-write on a word and returns the old value. -/
  | memAtomic (pa fn : Nat) (wide : Bool) (operand compare : Nat)
  /-- PATROL_SCRUB (R164): A base die scrubs a granule with idle channel time. -/
  | patrolScrub (pa : Nat) (found : ReadErr) (lastOfPass : Bool)
  /-- DRAM_REFRESH (R165): A controller issues per-bank refresh at the temperature-required rate, or a refresh management command. -/
  | dramRefresh (stack pos bank : Nat) (management : Bool)
  /-- DRAM_TEMP_REPORT (R165): A DRAM die reports its temperature; above 95 °C its activation rate is halved. -/
  | dramTempReport (stack pos : Nat) (temp : Int)
  /-- TABLE_WALK_DONE (R168): A table-store walk finishes and the waiting access proceeds, fails its window check, or completes UNCORRECTABLE. -/
  | tableWalkDone (ctx va : Nat) (uncorrectable : Bool)
  /-- SHOOTDOWN_ACK (R170): A translation cache acknowledges a shootdown; the last acknowledgement makes the change take effect. -/
  | shootdownAck (k cache : Nat)
  /-- PAGE_MAP (R173): A page-map MAP command maps a range from the zero-filled free pool, all or nothing. -/
  | pageMap (w : Who) (ctx : Nat) (cmd : Bytes)
  /-- PAGE_UNMAP (R175): A page-map UNMAP command runs a shootdown, reports DONE and schedules zero fills. -/
  | pageUnmap (w : Who) (ctx : Nat) (cmd : Bytes)
  /-- UNMAP_FILL_DONE (R175): A house-context fill of an unmapped page completes, and the page returns to the free pool. -/
  | unmapFillDone (pa : Nat)
  /-- DRAM_EVACUATE (R176): dram_control EVACUATE starts the evacuation of a data die to its stack's spare. -/
  | dramEvacuate (w : Who) (stack pos : Nat)
  /-- EVAC_GROUP_COPIED (R178): An ECC group is copied to the spare and the cursor advances; after the last group the channel switch serves from the spare. -/
  | evacGroupCopied (stack chan : Nat)
  /-- OLD_DIE_UNRESPONSIVE (R180): The old die stops answering during an evacuation, and the remaining groups are written unwritten. -/
  | oldDieUnresponsive (stack : Nat)
  /-- SPARE_DIE_UNRESPONSIVE (R180): The spare die stops answering, and the evacuation is abandoned. -/
  | spareDieUnresponsive (stack : Nat)
  /-- TE_SQ_TAIL_WRITE (R188): A write to te_sq_tail submits ring descriptors to a channel. -/
  | teSqTailWrite (w : Who) (c v : Nat)
  /-- TE_CQ_HEAD_WRITE (R191): A write to te_cq_head frees completion entries and lets waiting records be written. -/
  | teCqHeadWrite (w : Who) (c v : Nat)
  /-- TE_RING_FETCH (R190): A channel fetches a ring descriptor into its channel queue, checking the ring address. -/
  | teRingFetch (c : Nat)
  /-- TE_OWNER_WRITE (R186): A write to te_owner binds a DISABLED channel to a context, or is refused. -/
  | teOwnerWrite (w : Who) (c v : Nat)
  /-- TE_COPY (R194): A COPY descriptor starts moving bytes from src to dst. -/
  | teCopy (c : Nat)
  /-- TE_FILL (R193): A FILL descriptor starts filling dst with the pattern. -/
  | teFill (c : Nat)
  /-- TE_SCRUB (R196): A SCRUB descriptor starts reading and correcting granules. -/
  | teScrub (c : Nat)
  /-- TE_GATHER (R195): A GATHER descriptor starts gathering elements through an index list. -/
  | teGather (c : Nat)
  /-- TE_SCATTER (R195): A SCATTER descriptor starts scattering elements through an index list. -/
  | teScatter (c : Nat)
  /-- TE_MIGRATE (R201): A MIGRATE descriptor starts moving a page to another tier or die, or completes NOT_MOVED. -/
  | teMigrate (c : Nat)
  /-- HOST_READ (R206): An HTE descriptor issues an RDMA READ from host memory. -/
  | hostRead (c : Nat)
  /-- HOST_WRITE (R206): An HTE descriptor issues an RDMA WRITE to host memory. -/
  | hostWrite (c : Nat)
  /-- HOST_WRITE_IMM (R206): An HTE descriptor issues an RDMA WRITE with immediate data. -/
  | hostWriteImm (c : Nat)
  /-- TE_DESCRIPTOR_COMPLETE (R197): A descriptor's writes are performed, its tally is decremented, any then_task is posted and the record is written. -/
  | teDescriptorComplete (c serial : Nat)
  /-- MIGRATE_WAIT_EXPIRY (R201): No free page appears within migrate_wait_us, and the MIGRATE completes with TIMEOUT, NO_PAGE. -/
  | migrateWaitExpiry (c serial : Nat)
  /-- MIGRATION_COPY_DONE (R202): The last granule of a migration is copied, the entry points to the destination and the source is filled. -/
  | migrationCopyDone (c serial : Nat)
  /-- TE_DISABLE (R207): te_control DISABLE quiesces a channel. -/
  | teDisable (w : Who) (c : Nat)
  /-- TE_ENABLE (R186): te_control ENABLE returns an owned DISABLED channel to ACTIVE. -/
  | teEnable (w : Who) (c : Nat)
  /-- TE_RELEASE (R200): te_control RELEASE returns a FROZEN channel to ACTIVE. -/
  | teRelease (w : Who) (c : Nat)
  /-- TE_PURGE (R200): te_control PURGE completes queued descriptors with ABORTED_DISABLED and returns the channel to ACTIVE. -/
  | tePurge (w : Who) (c : Nat)
  /-- TE_CHANNEL_FAIL (R210): A channel parity check fails: the channel is FAILED, its descriptors are aborted and house fills move to other channels. -/
  | teChannelFail (c : Nat)
  /-- RDMA_REQUEST_REFUSED (R205): An incoming RDMA request is answered with a NAK and counted. -/
  | rdmaRequestRefused (port qpn : Nat)
  /-- RDMA_RESPONSE (R206): An RDMA ACK, NAK or READ response arrives for a queue pair. -/
  | rdmaResponse (h q : Nat) (r : RdmaResp)
  /-- RDMA_ACK_TIMEOUT (R206): The local ACK timeout expires, and the queue pair retransmits go-back-N or fails with RETRY_EXCEEDED. -/
  | rdmaAckTimeout (h q : Nat)
  /-- RDMA_ECN_MARK (R206): An ECN-marked packet makes the queue pair reduce its rate. -/
  | rdmaEcnMark (h q : Nat)
  /-- HTE_PORT_DOWN_TIMEOUT (R206): A queue pair's port has had no link for 50 µs, and transfers complete DEST_LOST, PORT_DOWN. -/
  | htePortDownTimeout (h q : Nat)
  /-- HTE_QP_WRITE (R205): A write to hte_qp configures a queue pair and clears its error state. -/
  | hteQpWrite (w : Who) (h q : Nat) (v : Bytes)
  /-- D2D_UNIT_RECEIVE (R213): An in-package link receives a protocol unit, checks its CRC and replays on failure. -/
  | d2dUnitReceive (l dir seq gen : Nat) (unit : Bytes)
  /-- D2D_LANE_FAIL (R214): A lane of an in-package link fails: the link retrains onto a redundant lane, or becomes FAILED. -/
  | d2dLaneFail (l module : Nat)
  /-- CODEWORD_RECEIVE (R221): A FEC codeword is decoded, corrected and counted, or discarded as uncorrectable. -/
  | codewordReceive (p : Nat) (levels : List (List Nat))
  /-- LINK_PACKET_RECEIVE (R223): The link layer accepts or discards a packet by CRC and sequence, and adds its credits and acknowledgement. -/
  | linkPacketReceive (p : Nat)
  /-- ACK_CREDIT (R224): An ACK_CREDIT control flit is received and its acknowledgement and credits are applied. -/
  | ackCredit (p : Nat)
  /-- ACK_DEADLINE (R224): 200 ns pass after acceptance without a trailer to carry the acknowledgement, and an ACK_CREDIT flit is sent. -/
  | ackDeadline (p : Nat)
  /-- REPLAY_REQ (R225): A REPLAY_REQ flit is received, and held packets are resent from the named number. -/
  | replayReq (p : Nat)
  /-- REPLAY_TIMEOUT (R225): No acknowledgement advances for the replay timeout, and the transmitter resends from its oldest held packet. -/
  | replayTimeout (p : Nat)
  /-- LANE_REQ (R236): A LANE_REQ flit makes the far transmitter copy a logical lane onto a spare position. -/
  | laneReq (p position : Nat)
  /-- LANE_MAP (R236): A LANE_MAP flit arms a lane switch at a named codeword. -/
  | laneMap (p : Nat)
  /-- LANE_COPY_ALIGNED (R236): A receiver aligns the copied lane on the spare position and confirms it. -/
  | laneCopyAligned (p logical position : Nat)
  /-- LANE_SWITCH (R236): At the codeword named by map_after both ends switch, and the old position becomes DISABLED or RETIRED. -/
  | laneSwitch (p dir logical : Nat)
  /-- LANE_ABRUPT_LOSS (R237): One or two data positions are lost abruptly and are moved to spares at once. -/
  | laneAbruptLoss (p : Nat) (positions : List Nat)
  /-- LINK_LOSS (R228): A link is lost: it goes DOWN, its packets are salvaged, the agent is told and training restarts. -/
  | linkLoss (p cause : Nat)
  /-- TRAINING_SIGNAL_DETECTED (R232): Signal is detected on 16 or more positions, and lock and equalisation begin. -/
  | trainingSignalDetected (p positions : Nat)
  /-- EQUALISATION_DONE (R232): Training step 2 completes, and training frames are exchanged and the wiring is checked. -/
  | equalisationDone (p : Nat)
  /-- TRAINING_FRAMES_CHECKED (R234): Training frames pass the wiring check, or the port becomes MISWIRED. -/
  | trainingFramesChecked (p farPos farCatchment farPort : Nat) (order : List Nat) (inverted : Nat)
  /-- BER_MEASURE_DONE (R233): The pre-FEC measurement ends: positions are spared, and the link comes UP or stays DOWN. -/
  | berMeasureDone (p : Nat) (tx rx : List Nat)
  /-- RETRAIN_INTERVAL_EXPIRY (R233): retrain_interval_ms expires for a DOWN or MISWIRED port, and training repeats. -/
  | retrainIntervalExpiry (p : Nat)
  /-- MARGIN_MEASURE (R235): Each second, every position's error ratio, eye and laser bias are measured and their limits applied. -/
  | marginMeasure (p : Nat) (lanes : List LaneRead) (bias : List Nat) (power : Int)
  /-- LASER_FAIL (R239): A laser fails, its pair's lanes are lost abruptly, and laser 9 is switched in when SPARE. -/
  | laserFail (e j : Nat)
  /-- PORT_SERDES_FAIL (R241): A port's SerDes fails a runtime check, and the port becomes FAILED. -/
  | portSerdesFail (p : Nat)
  /-- LANE_SERDES_FAIL (R242): A lane position's SerDes fails a runtime check, and the position becomes FAILED. -/
  | laneSerdesFail (p dir i : Nat)
  /-- PORT_DISABLE (R240): port_control DISABLE quiesces a port. -/
  | portDisable (w : Who) (p : Nat)
  /-- PORT_ENABLE (R241): port_control ENABLE returns a port to ACTIVE with rt_admit 0. -/
  | portEnable (w : Who) (p : Nat)
  /-- PORT_RETRAIN (R247): port_control RETRAIN declares a loss and retrains the port. -/
  | portRetrain (w : Who) (p : Nat)
  /-- LANE_DISABLE (R242): lane_control DISABLE moves an ACTIVE position off by substitution, or makes a SPARE position DISABLED. -/
  | laneDisable (w : Who) (p i : Nat)
  /-- LANE_ENABLE (R242): lane_control ENABLE retrains a DISABLED position and returns it to ACTIVE. -/
  | laneEnable (w : Who) (p i : Nat)
  /-- ROUTER_PACKET_IN (R251): A packet enters a router input, is checked and routed, replicated or ejected. -/
  | routerPacketIn (p bank : Nat) (err : Option EccMark)
  /-- ROUTER_INJECT (R252): A packet from N0–N3 or M is stamped with source, level and parity, or dropped for its class. -/
  | routerInject (p : Nat) (err : Option EccMark)
  /-- ROUTER_PACKET_SEND (R267): An output grants an eligible packet with credits and sends it whole. -/
  | routerPacketSend (out : Nat)
  /-- RESIDENCE_LIMIT_EXPIRY (R268): A packet reaches 100 µs residence without starting and is discarded. -/
  | residenceLimitExpiry (id : Nat)
  /-- ROUTER_BANK_FAIL (R258): A buffer bank fails a runtime check: its packets are discarded and the spare joins. -/
  | routerBankFail (p b : Nat)
  /-- WORN_BANK_EMPTIED (R258): A worn bank has emptied and becomes RETIRED. -/
  | wornBankEmptied (p b : Nat)
  /-- ROUTE_BANK_LOADING (R273): route_bank_state LOADING opens a bank for loading, refused while packets of its parity are resident. -/
  | routeBankLoading (w : Who) (b : Nat)
  /-- ROUTE_BANK_VALID (R273): route_bank_state VALID validates a bank with the epoch of route_bank_epoch. -/
  | routeBankValid (w : Who) (b : Nat)
  /-- ROUTE_LOAD (R273): A write to route_load writes route entries into a LOADING bank. -/
  | routeLoad (w : Who) (v : Bytes)
  /-- INJECT_PARITY_WRITE (R273): A write to inject_parity switches injection to a VALID bank. -/
  | injectParityWrite (w : Who) (v : Nat)
  /-- RT_ADMIT_WRITE (R276): The agent writes rt_admit of a port. -/
  | rtAdmitWrite (w : Who) (p v : Nat)
  /-- NIQ_SQ_TAIL_WRITE (R280): A write to niq_sq_tail submits commands to an NI command queue. -/
  | niqSqTailWrite (w : Who) (i c v : Nat)
  /-- NIQ_CQ_HEAD_WRITE (R280): A write to niq_cq_head frees completion entries of a command queue. -/
  | niqCqHeadWrite (w : Who) (i c v : Nat)
  /-- NI_RING_FETCH (R280): An NI fetches a command from a submission ring. -/
  | niRingFetch (i c : Nat)
  /-- PUT (R285): A PUT command splits into messages and sends them to the rank or line. -/
  | put (i c : Nat)
  /-- GET (R285): A GET command requests data from a rank into local memory. -/
  | get (i c : Nat)
  /-- ATOMIC (R285): An ATOMIC command sends an atomic operation to a rank. -/
  | atomic (i c : Nat)
  /-- NOTIFY (R285): A NOTIFY command sends a value to a rank's notify ring. -/
  | notify (i c : Nat)
  /-- TASK (R285): A TASK command posts a descriptor to a tile at a rank. -/
  | task (i c : Nat)
  /-- COPY_TO (R288): A COPY_TO command asks a rank to copy data to a second rank. -/
  | copyTo (i c : Nat)
  /-- DISPATCH (R307): A DISPATCH command sends tokens as TOKEN messages, then DONE messages. -/
  | dispatch (i c : Nat)
  /-- INBOX_ARM (R308): An INBOX_ARM command arms an inbox and resets its counts. -/
  | inboxArm (i c : Nat)
  /-- CL_OPEN (R302): A CL_OPEN command opens a collective session and reserves accumulators. -/
  | clOpen (i c : Nat)
  /-- CL_RUN (R303): A CL_RUN command queues an invocation of a session. -/
  | clRun (i c : Nat)
  /-- CL_INVOCATION_START (R304): The previous invocation completes locally, and the next invocation sends its CONTRIB packets. -/
  | clInvocationStart (ctx num : Nat)
  /-- CL_CLOSE (R306): A CL_CLOSE command releases the session once its invocations have completed. -/
  | clClose (i c : Nat)
  /-- NI_COMMAND_COMPLETE (R282): A command's last message completes, its tally is decremented and its record is written. -/
  | niCommandComplete (i c serial : Nat)
  /-- RX_PUT (R292): A PUT packet is placed by offset and counted, with duplicates dropped; completion decrements the landing tally and sends an ACK. -/
  | rxPut (i : Nat)
  /-- RX_GET (R287): A GET packet is read at the target and returned as DATA packets. -/
  | rxGet (i : Nat)
  /-- RX_ATOMIC (R287): An ATOMIC packet is performed at the target and acknowledged with the old value. -/
  | rxAtomic (i : Nat)
  /-- RX_NOTIFY (R287): A NOTIFY packet writes a notify-ring entry or is refused REMOTE_FULL. -/
  | rxNotify (i : Nat)
  /-- RX_TASK (R287): A TASK packet posts its descriptor in the assigned context and returns the status. -/
  | rxTask (i : Nat)
  /-- RX_COPY_TO (R288): A COPY_TO packet makes the target read its source and send it as FW to the second rank. -/
  | rxCopyTo (i : Nat)
  /-- RX_FWD (R288): A FWD packet is written at the second rank and acknowledged to the forwarder. -/
  | rxFwd (i : Nat)
  /-- RX_TOKEN (R308): A TOKEN packet takes an inbox slot, writes the manifest entry and acknowledges the slot, or is refused. -/
  | rxToken (i : Nat)
  /-- RX_DONE (R309): A DONE message counts toward an inbox, whose tally fires when the counts match. -/
  | rxDone (i : Nat)
  /-- RX_ACK (R297): An ACK completes an outstanding message with its status. -/
  | rxAck (i : Nat)
  /-- RX_DATA (R292): A DATA reply packet is written into the requester's reserved memory and counted. -/
  | rxData (i : Nat)
  /-- RX_CONTRIB (R303): An owner reduces a CONTRIB packet into its accumulator, and multicasts the shard when all contributions are in. -/
  | rxContrib (i : Nat)
  /-- RX_RESULT (R303): A member writes a RESULT packet into its result buffer; the invocation completes at its byte count. -/
  | rxResult (i : Nat)
  /-- QUARANTINE_EXPIRY (R293): A completed message's receive or outstanding entry leaves its 1 ms quarantine. -/
  | quarantineExpiry (rx : Bool) (k : Nat)
  /-- RX_PARTIAL_EXPIRY (R294): An incomplete receive entry expires ni_op_timeout_us after its last packet. -/
  | rxPartialExpiry (id : Nat)
  /-- NI_OP_TIMEOUT (R297): A message not completed ni_op_timeout_us after its last packet completes with TIMEOUT, NO_REPLY. -/
  | niOpTimeout (i ctx slot msgId : Nat)
  /-- SUSPECT_TIMEOUT (R296): A position has been suspect for 50 µs, and messages toward it complete DEST_LOST, SUSPECT. -/
  | suspectTimeout (pos : Nat)
  /-- KEY_DRAIN_EXPIRY (R299): A DRAINING key slot is zeroized and becomes EMPTY 1 ms after entry. -/
  | keyDrainExpiry (ctx slot : Nat)
  /-- CL_TIMEOUT (R306): An invocation not completed within cl_timeout_us ends TIMEOUT, and the session is BROKEN. -/
  | clTimeout (ctx num : Nat)
  /-- RANK_LOAD (R283): A write to rank_load writes rank-table entries. -/
  | rankLoad (w : Who) (ctx : Nat) (v : Bytes)
  /-- DISPATCH_LOAD (R307): A write to dispatch_load writes destination-table entries. -/
  | dispatchLoad (w : Who) (ctx : Nat) (v : Bytes)
  /-- NI_JOB_WRITE (R284): A write to ni_job sets a context's job number, refused for duplicates, outstanding messages or held jobs. -/
  | niJobWrite (w : Who) (ctx v : Nat)
  /-- KEY_TX_SLOT_WRITE (R301): A write to key_tx_slot selects the transmit key slot. -/
  | keyTxSlotWrite (w : Who) (ctx v : Nat)
  /-- NI_DISABLE (R310): ni_control DISABLE quiesces an NI. -/
  | niDisable (w : Who) (i : Nat)
  /-- NI_ENABLE (R310): ni_control ENABLE returns an NI to ACTIVE. -/
  | niEnable (w : Who) (i : Nat)
  /-- NIQ_RELEASE (R200): niq_control RELEASE returns a FROZEN command queue to ACTIVE. -/
  | niqRelease (w : Who) (i c : Nat)
  /-- NIQ_PURGE (R200): niq_control PURGE aborts queued commands and returns the queue to ACTIVE. -/
  | niqPurge (w : Who) (i c : Nat)
  /-- PROBE (R317): A PROBE is received and answered with a PROBE_ECHO on the arrival port. -/
  | probe
  /-- PROBE_ECHO (R318): A PROBE_ECHO is received and updates the port's probe verdict. -/
  | probeEcho
  /-- PROBE_INTERVAL (R317): Every probe_interval_us the agent sends a PROBE on every UP port. -/
  | probeInterval
  /-- HELLO (R314): A HELLO is received, noting an agent and its eligibility. -/
  | hello
  /-- HELLO_INTERVAL (R314): During discovery an agent sends a HELLO every 10 ms. -/
  | helloInterval
  /-- REPORT (R319): The Wellhead receives a REPORT and evaluates the verdicts of the units it covers. -/
  | report
  /-- REPORT_INTERVAL (R318): Every 100 ms the agent sends a REPORT. -/
  | reportInterval
  /-- CLAIM (R327): An agent receives a CLAIM and grants it when the conditions hold. -/
  | claim
  /-- GRANT (R328): A candidate receives a GRANT; reaching quorum makes it Wellhead. -/
  | grant
  /-- HEARTBEAT (R324): An agent receives a HEARTBEAT, follows its term, publication and catchment, and answers with HB_ACK. -/
  | heartbeat
  /-- HEARTBEAT_INTERVAL (R324): Every 1 ms the Wellhead sends a HEARTBEAT and re-evaluates, stepping down when it lacks a quorum. -/
  | heartbeatInterval
  /-- HB_ACK (R319): The Wellhead receives an HB_ACK, counting it toward verdicts and quorum. -/
  | hbAck
  /-- HEARTBEAT_MISS_LIMIT (R331): Five heartbeat periods pass without a heartbeat: the agent becomes ORPHAN and the standby claims. -/
  | heartbeatMissLimit
  /-- CLAIM_RETRY_TIMER (R330): At 10 ms after its claim the standby claims again; at 20 ms it stops claiming. -/
  | claimRetryTimer
  /-- CLAIM_STAGGER_TIMER (R330): An eligible agent's staggered claim time passes without a new term, and it claims. -/
  | claimStaggerTimer
  /-- DISCOVERY_CLAIM_TIMER (R330): 50 ms into discovery without a heartbeat, an eligible agent claims in its stagger slot. -/
  | discoveryClaimTimer
  /-- DISCOVERY_REPORT_TIMEOUT (R323): 100 ms after election the map is formed, and unheard positions become FAILED. -/
  | discoveryReportTimeout
  /-- LINK_DOWN (R332): A LINK_DOWN is received, and two indications within 50 µs make the agent flood a LOSS_NOTICE. -/
  | linkDown
  /-- LOSS_NOTICE (R333): A LOSS_NOTICE is received: the named position is suspect, and at the Wellhead it is fenced. -/
  | lossNotice
  /-- REPROBE (R322): A REPROBE sets a port, or the whole position, FENCED or back to ACTIVE with rt_admit 0. -/
  | reprobe
  /-- FENCE_REPROBE_INTERVAL (R322): Every fence_reprobe_ms the Wellhead resends a fencing REPROBE under a new generation. -/
  | fenceReprobeInterval
  /-- PREPARE (R342): An agent receives PREPARE and computes the new epoch's tables. -/
  | prepare
  /-- BANK_DRAINED (R342): route_bank_resident of the other parity reaches 0; the agent loads and validates the bank and sends READY. -/
  | bankDrained
  /-- READY (R343): The Wellhead receives READY; when every digest matches it sends COMMIT. -/
  | ready
  /-- COMMIT (R342): An agent receives COMMIT, sets rt_admit and switches inject_parity. -/
  | commit
  /-- EPOCH_READY_TIMEOUT (R343): A READY is missing after epoch_ready_timeout_ms: the epoch is abandoned and the position fenced. -/
  | epochReadyTimeout
  /-- EPOCH_ACK_TIMEOUT (R343): A position has not acknowledged a committed epoch within 2 ms and is fenced. -/
  | epochAckTimeout
  /-- SLICE (R337): A member receives SLICE, acknowledges it and writes slice notices to the job's notify rings. -/
  | slice
  /-- SLICE_ACK (R336): The Wellhead receives a SLICE_ACK, and a slice becomes ACTIVE or is removed when all have acknowledged. -/
  | sliceAck
  /-- SLICE_ACK_TIMEOUT (R336): 10 ms pass without every acknowledgement: a forming slice is removed, or a retiring slice is removed anyway. -/
  | sliceAckTimeout (n : Nat)
  /-- SLICE_CREATE (R336): slice_cmd CREATE forms a slice from rows, columns, positions or a mask. -/
  | sliceCreate (w : Who) (cmd : Bytes)
  /-- SLICE_REPAIR (R336): slice_cmd REPAIR returns a DEGRADED slice to ACTIVE or replaces its members. -/
  | sliceRepair (w : Who) (cmd : Bytes)
  /-- SLICE_RETIRE (R336): slice_cmd RETIRE moves a slice to RETIRING. -/
  | sliceRetire (w : Who) (cmd : Bytes)
  /-- REPLICA (R325): The standby receives a REPLICA chunk of the Wellhead's state. -/
  | replica
  /-- RAIL_MAP (R338): An agent receives a RAIL_MAP chunk and keeps the map persistently. -/
  | railMap
  /-- RAIL_MAP_LOAD (R338): A write to rail_map_load places a piece of a rail map. -/
  | railMapLoad (w : Who) (v : Bytes)
  /-- RAIL_MAP_COMMIT (R338): A write to rail_map_commit checks and accepts the rail map and distributes it. -/
  | railMapCommit (w : Who) (v : Nat)
  /-- FABRIC_START_TIMER (R364): 20 ms × t after MD starts, the package enters FABRIC without a grant and raises the fabric rails. -/
  | fabricStartTimer (r : StepRes)
  /-- STOP_COMPLETE (R347): The last unit is DISABLED, or the grace plus 1 ms passes, and rails are lowered to FABRIC or PARKED. -/
  | stopComplete
  /-- PARK_RELEASE (R349): A write to park_release takes a PARKED package to OFF when the cause has cleared. -/
  | parkRelease (w : Who) (v : Nat)
  /-- HOST_POWER_REQUEST (R351): A write to host_power_request sets the host order, which may lower the cap or order FABRIC. -/
  | hostPowerRequest (w : Who) (v : Nat)
  /-- AVS_TELEMETRY_POLL (R354): Every 20 µs the steward reads the AVSBus rails and holds the cap through clocks and voltages. -/
  | avsTelemetryPoll (rails : List RailRead) (temps : List SensorRead)
  /-- PMBUS_POLL (R362): Every 1 ms the steward reads every rail over PMBus and checks for faults. -/
  | pmbusPoll (rails : List RailRead)
  /-- VTILE_REACHED (R358): The regulator reports the raised VTILE value, and the clock is raised. -/
  | vtileReached (die : Nat)
  /-- THERMAL_STEP (R359): Every 100 µs above its control point a die's clock falls one step. -/
  | thermalStep (die : Nat)
  /-- THERMAL_TRIP (R359): A die stays at or above the trip temperature for 1 ms and trips. -/
  | thermalTrip (die reading : Nat)
  /-- THROTTLE_ASSERT (R360): A falling edge on THROTTLE_N sets the floor latch and drops every tile clock to 600 MHz. -/
  | throttleAssert
  /-- THROTTLE_DEASSERT (R360): THROTTLE_N rises. -/
  | throttleDeassert
  /-- FLOOR_LATCH_TIMEOUT (R360): With no Wellhead followed, the latch clears 100 ms after THROTTLE_N deasserts. -/
  | floorLatchTimeout
  /-- PFAIL_ASSERT (R361): PFAIL_N asserts: the floor latch is set, a departing REPORT is sent and the flush starts. -/
  | pfailAssert
  /-- PFAIL_DEASSERT (R361): PFAIL_N deasserts. -/
  | pfailDeassert
  /-- PFAIL_CLEAR_TIMER (R361): PFAIL_N has been deasserted 100 ms with rails good, and the package goes through STOPPING to FABRIC. -/
  | pfailClearTimer
  /-- TRAY_PRES_DEASSERT (R334): TRAY_PRES_N deasserts, and a departing REPORT is sent and the flush starts. -/
  | trayPresDeassert
  /-- REGULATOR_FAULT (R363): A regulator fault places a SAFETY order to STOPPING and PARKED. -/
  | regulatorFault (rail status : Nat)
  /-- PMBUS_ALERT (R510): PMBUS_ALERT_N asserts and the package reads the bus alert. -/
  | pmbusAlert (asserted : Bool)
  /-- EQUIPMENT_POLL (R365): Every 10 ms, or at once on an alert, the Wellhead polls each equipment entry over Modbus TCP. -/
  | equipmentPoll (k : Nat)
  /-- EQUIPMENT_RESPONSE (R366): An equipment answer sets the entry OK or FAULT, detecting a shelf or pump loss. -/
  | equipmentResponse (k status regB regC : Nat)
  /-- POLL_TIMEOUT (R366): An equipment poll goes unanswered within poll_timeout_ms. -/
  | pollTimeout (k : Nat)
  /-- CAP_TABLE_INTERVAL (R368): Every 10 ms, or within 2 ms of a loss or change, the Wellhead computes caps and sends a CAP_TABLE. -/
  | capTableInterval
  /-- CAP_TABLE (R369): A package receives a CAP_TABLE, applying its steward cap, its grant and its release. -/
  | capTable
  /-- POWER_REPORT_INTERVAL (R370): Every 1 ms a package sends its POWER_REPORT. -/
  | powerReportInterval
  /-- POWER_REPORT (R366): The Wellhead receives a POWER_REPORT; a throttle flag raises an alert. -/
  | powerReport
  /-- SAFETY (R372): A package receives a SAFETY message setting park and low-flow masks. -/
  | safety
  /-- TRAY_SENSORS (R370): A TRAY_SENSORS message from the tray lead is received. -/
  | traySensors
  /-- TRAY_ALARM (R377): A TRAY_ALARM is received, and the tray's packages head for PARKED. -/
  | trayAlarm
  /-- HUB_READ (R376): Every 10 ms the tray lead reads the sensor hub, classifies the loops and computes the used flow. -/
  | hubRead (r : HubRead)
  /-- HUB_UNREADABLE_TIMEOUT (R377): The hub has been unreadable for 1 s, and the lead raises an alarm. -/
  | hubUnreadableTimeout
  /-- LEAD_HANDOFF (R376): TRAY_SENSORS have been absent 50 ms, and the next column takes over the I3C controller. -/
  | leadHandoff
  /-- LOW_FLOW_CAP_TIMER (R373): 50 ms after a LOW_FLOW report, each package holds 1,040 W. -/
  | lowFlowCapTimer
  /-- LOW_FLOW_PARK_TIMER (R373): A tray in LOW_FLOW parks itself at 5 s without a Wellhead, or at 9 s with one. -/
  | lowFlowParkTimer
  /-- LOW_FLOW_EXIT_TIMER (R379): Used flow has stayed at or above 110% for 1 s, and the tray leaves LOW_FLOW. -/
  | lowFlowExitTimer
  /-- PUMP_PARK_TIMER (R372): From 5 s after a pump loss, the Wellhead parks one low-flow tray every 200 ms. -/
  | pumpParkTimer
  /-- ORPHAN_CAP_TIMER (R374): After 5 s ORPHAN, the steward cap becomes at most 1,600 W. -/
  | orphanCapTimer
  /-- TRAY_START_INTERVAL (R364): Every tray_start_interval_ms the Wellhead grants the next tray a start. -/
  | trayStartInterval
  /-- SENSOR_SUSPECT_TIMER (R378): A sensor reads 15 °C below the model for 1 s and becomes SUSPECT, or reads near the model for 10 s and leaves it. -/
  | sensorSuspectTimer (sensor : Nat) (reading : Int)
  /-- CONTEXT_OPEN (R383): ctx_cmd OPEN opens a FREE context with no windows and generates its exchange key. -/
  | contextOpen (w : Who) (ctx : Nat) (cmd : Bytes)
  /-- CONTEXT_RETIRE (R400): ctx_cmd RETIRE closes issue at every master and starts the quiet period. -/
  | contextRetire (w : Who) (ctx : Nat) (cmd : Bytes)
  /-- RETIRE_QUIET_END (R400): The quiet period ends: keys are zeroized, the job and tables are cleared and the shootdown and fills start. -/
  | retireQuietEnd (ctx : Nat)
  /-- RETIRE_FILL_DONE (R400): The retire fills complete, pages return, and the context becomes FREE. -/
  | retireFillDone (ctx : Nat)
  /-- JOB_HOLD_EXPIRY (R401): 1 ms after retire step 3 the job number may be assigned again. -/
  | jobHoldExpiry (job : Nat)
  /-- PROT_COMMIT (R395): prot_commit COMMIT checks the staged copy and loads the new epoch into every checker. -/
  | protCommit (w : Who) (ctx : Nat)
  /-- PROT_DISCARD (R395): prot_commit DISCARD replaces the staged copy with the committed one. -/
  | protDiscard (w : Who) (ctx : Nat)
  /-- PROT_OLD_REQUESTS_DRAINED (R395): Requests checked under the old set complete, and departing tiles are cleaned and filled. -/
  | protOldRequestsDrained (ctx : Nat)
  /-- PROT_FILL_DONE (R395): The SRAM fills of a commit complete, and the new epoch is reported. -/
  | protFillDone (ctx : Nat)
  /-- RNG_HEALTH_FAIL (R407): An entropy health test fails, and rng_health reads FAILED. -/
  | rngHealthFail
  /-- KEYGEN (R420): sc_cmd KEYGEN checks recipients, generates a job key and writes wrapped bundles. -/
  | keygen (w : Who) (ctx : Nat) (cmd : Bytes)
  /-- IMPORT (R421): sc_cmd IMPORT verifies a key bundle and loads the key RX_ONLY. -/
  | import_ (w : Who) (ctx : Nat) (cmd : Bytes)
  /-- ACTIVATE (R422): sc_cmd ACTIVATE schedules a key switch at PTP time T. -/
  | activate (w : Who) (ctx : Nat) (cmd : Bytes)
  /-- KEY_ACTIVATION_TIME (R422): At time T the slot becomes ACTIVE, the old one DRAINING, and key_tx_slot is set. -/
  | keyActivationTime (ctx : Nat)
  /-- UNSEAL (R424): sc_cmd UNSEAL verifies a weight bundle and decrypts its chunks to the destination. -/
  | unseal (w : Who) (ctx : Nat) (cmd : Bytes)
  /-- AUTHORITY_RECORD_WRITE (R414): A write to authority_record is verified and stored for the next cold reset. -/
  | authorityRecordWrite (w : Who) (v : Bytes)
  /-- TENANT_IMAGE_KEY_WRITE (R413): A write to tenant_image_key, refused while a context names the index. -/
  | tenantImageKeyWrite (w : Who) (idx : Nat) (v : Bytes)
  /-- PKG_ATTEST_REQUEST (R428): A write to pkg_attest_cmd requests a session-scoped package report. -/
  | pkgAttestRequest (w : Who) (nonce : Bytes)
  /-- CTX_ATTEST_REQUEST (R428): A write to ctx_attest_cmd queues a context report. -/
  | ctxAttestRequest (w : Who) (ctx : Nat) (v : Bytes)
  /-- GET_VERSION (R429): SPDM GET_VERSION is answered. -/
  | getVersion (sid : Nat)
  /-- GET_CAPABILITIES (R429): SPDM GET_CAPABILITIES is answered. -/
  | getCapabilities (sid : Nat)
  /-- NEGOTIATE_ALGORITHMS (R429): SPDM NEGOTIATE_ALGORITHMS is answered. -/
  | negotiateAlgorithms (sid : Nat)
  /-- GET_DIGESTS (R429): SPDM GET_DIGESTS is answered. -/
  | getDigests (sid : Nat)
  /-- GET_CERTIFICATE (R429): SPDM GET_CERTIFICATE returns the chain of slot 0. -/
  | getCertificate (sid : Nat)
  /-- CHALLENGE (R429): SPDM CHALLENGE is answered under the Alias key. -/
  | challenge (sid : Nat)
  /-- GET_MEASUREMENTS (R429): SPDM GET_MEASUREMENTS returns measurement blocks, including index 0xF0. -/
  | getMeasurements (sid : Nat)
  /-- SPDM_UNSUPPORTED (R429): An unsupported SPDM request is answered with ERROR UnsupportedRequest. -/
  | spdmUnsupported (sid : Nat)
  /-- OPEN_REQ (R434): An OPEN_REQ frame opens a session, is answered with OPEN_RESP, and the session keys are derived. -/
  | openReq (port : Nat) (f : NxFrame) (body : Bytes)
  /-- PROVE (R436): A PROVE segment is taken; the last one verifies the proof and grants the role. -/
  | prove (f : NxFrame) (body : Bytes)
  /-- PROVE_TIMEOUT (R434): The proof is not complete 1 s after OPEN_RESP, and the session is freed. -/
  | proveTimeout (sid : Nat)
  /-- SESSION_IDLE_EXPIRY (R437): A session carries no valid frame for its idle time and is closed. -/
  | sessionIdleExpiry (sid : Nat)
  /-- CLOSE (R438): A CLOSE frame closes a session. -/
  | close (f : NxFrame)
  /-- SESSION_CLOSE_WRITE (R438): A Custodian write to session_close closes the named session. -/
  | sessionCloseWrite (w : Who) (sid : Nat)
  /-- OPERATOR_KEYS_WRITE (R438): A write to operator_keys closes sessions whose key left the list. -/
  | operatorKeysWrite (w : Who) (v : Bytes)
  /-- TENANT_SESSION_KEY_WRITE (R438): A write to tenant_session_key closes the context's Tenant sessions. -/
  | tenantSessionKeyWrite (w : Who) (ctx : Nat) (v : Bytes)
  /-- AGENT (R439): An AGENT frame in a Steward session delivers an agent message. -/
  | agent (f : NxFrame) (m : AgentMsg)
  /-- AGENT_GROUP (R439): An AGENT_GROUP frame is checked under the sender's group key, or prompts a Steward session. -/
  | agentGroup (f : NxFrame) (m : AgentMsg)
  /-- GROUP_KEY (R439): A GROUP_KEY frame installs a peer's group key. -/
  | groupKey (f : NxFrame) (key : Bytes)
  /-- SPDM (R444): An SPDM frame is accepted one at a time within a management session. -/
  | spdm (f : NxFrame) (body : Bytes)
  /-- MBX_SEND (R452): A session sends a message to a mailbox; it is answered when taken, aborted or expired. -/
  | mbxSend (q : NxReq)
  /-- MBX_RECV (R452): A claimant takes the oldest entry of a mailbox. -/
  | mbxRecv (q : NxReq)
  /-- MBX_CLAIM (R450): A session becomes the receiver of a mailbox. -/
  | mbxClaim (q : NxReq)
  /-- MBX_RELEASE (R453): A claimant ends its claim, and queued messages abort. -/
  | mbxRelease (q : NxReq)
  /-- BELL_RING (R454): A session rings a doorbell of a mailbox. -/
  | bellRing (q : NxReq)
  /-- BELL_FETCH (R454): A session reads and clears a mailbox's bell mask. -/
  | bellFetch (q : NxReq)
  /-- BELL_EVENT_REPEAT (R454): Every 100 ms with bells pending, the package sends EVENT BELLS again. -/
  | bellEventRepeat (m : Nat)
  /-- MBX_TTL_EXPIRY (R452): A queued message not taken within mbx_ttl_ms completes with TIMEOUT. -/
  | mbxTtlExpiry (m k : Nat)
  /-- MBX_RING_HEAD_WRITE (R452): A write to mbx_ring_head frees ring entries and lets queued entries be written. -/
  | mbxRingHeadWrite (w : Who) (m v : Nat)
  /-- MBX_DISABLE (R453): mbx_control DISABLE quiesces a mailbox. -/
  | mbxDisable (w : Who) (m : Nat)
  /-- MBX_ENABLE (R450): mbx_control ENABLE returns a bound mailbox to ACTIVE. -/
  | mbxEnable (w : Who) (m : Nat)
  /-- PERSIST_RESET (R447): A write to persist_reset returns persistent objects to their defaults at the next cold reset. -/
  | persistReset (w : Who) (v : Nat)
  /-- PERSIST_STORE_DONE (R447): A persistent value is stored in FL and its write is answered. -/
  | persistStoreDone
  /-- FW_BEGIN (R455): fw_stage_cmd BEGIN erases the inactive slot and enters LOADING. -/
  | fwBegin (w : Who) (e : Nat)
  /-- FW_STAGE_DATA (R455): A write to fw_stage_data places image bytes in the inactive slot. -/
  | fwStageData (w : Who) (e : Nat) (v : Bytes)
  /-- FW_COMMIT (R456): fw_stage_cmd COMMIT checks signature, svn floor and compatibility and stages the image. -/
  | fwCommit (w : Who) (e : Nat)
  /-- FW_ABANDON (R457): fw_stage_cmd ABANDON removes a staged image. -/
  | fwAbandon (w : Who) (e : Nat)
  /-- FW_ACTIVATE_NOW (R458): fw_stage_cmd ACTIVATE_NOW starts FD activation in FABRIC. -/
  | fwActivateNow (w : Who) (e : Nat)
  /-- FD_SELFTEST_DONE (R458): FD passes its self-test, leaves reset and rejoins. -/
  | fdSelftestDone (pass : Bool)
  /-- FW_SVN_FLOOR_WRITE (R459): A write to fw_svn_floor raises the floor, refused below it or above the running svn. -/
  | fwSvnFloorWrite (w : Who) (e v : Nat)
  /-- FW_START_TIMEOUT (R459): Newly activated firmware fails to start, and the previous slot is started once. -/
  | fwStartTimeout (e : Nat)
  /-- RESET_RELEASE (R468): RESET_N is released, and steps ROOT and MANAGER run. -/
  | resetRelease (r : RootRes)
  /-- RESET_ASSERT (R481): RESET_N is low for 10 µs, causing a cold reset, or a shorter low is recorded as a glitch. -/
  | resetAssert (lowNs : Nat)
  /-- RESET_COLD_CMD (R481): reset_cmd COLD orders a cold reset after a flush. -/
  | resetColdCmd (w : Who) (v : Nat)
  /-- SC_WATCHDOG_EXPIRY (R481): The security-core watchdog expires and causes a cold reset. -/
  | scWatchdogExpiry
  /-- BRINGUP_STEP_DONE (R469): A bring-up step from RAILS completes, and the next runs or the package holds. -/
  | bringupStepDone (r : StepRes)
  /-- BRINGUP_NEXT (R469): bringup_cmd NEXT runs the next held step. -/
  | bringupNext (w : Who)
  /-- BRINGUP_RUN (R469): bringup_cmd RUN runs every remaining step. -/
  | bringupRun (w : Who)
  /-- BRINGUP_RETEST (R469): bringup_cmd RETEST runs TILE_KAT and MEMORY_KAT again. -/
  | bringupRetest (w : Who)
  /-- BRINGUP_ABORT (R470): bringup_cmd ABORT ends bring-up with ABORTED. -/
  | bringupAbort (w : Who)
  /-- BRINGUP_HOLD_TIMEOUT (R469): A hold longer than bringup_hold_s ends bring-up with HOLD_TIMEOUT. -/
  | bringupHoldTimeout
  /-- NO_REFERENCE_TIMEOUT (R470): No reference clock 10 s after the fabric start halts with NO_REFERENCE. -/
  | noReferenceTimeout
  /-- REFCLK_LOSS (R477): The reference in use is lost: the package switches references or enters holdover. -/
  | refclkLoss (b : Bool)
  /-- REFCLK_RETURN (R478): A reference returns, and the package locks to it. -/
  | refclkReturn (b : Bool)
  /-- PTP_SYNC (R479): A PTP Sync is received, and package time is stepped or slewed. -/
  | ptpSync (source : Nat) (offset : Int)
  /-- PTP_LOCK_TIMER (R479): The offset has stayed within ±20 µs for 10 s, and ptp_state reads LOCKED. -/
  | ptpLockTimer
  /-- PTP_SYNC_TIMEOUT (R479): 10 s pass without Sync, and ptp_state reads UNLOCKED. -/
  | ptpSyncTimeout
  /-- DOMAIN_FAULT_RESET (R483): A domain enters reset on a fault, and other masters' accesses to it abort. -/
  | domainFaultReset (d : Nat)
  /-- COMPUTE_DIE_FAULT (R484): A compute-die fault takes the package through STOPPING to FABRIC. -/
  | computeDieFault (die unit : Nat)
  /-- FD_FAULT (R484): An FD fault resets FD once, or parks the package on a second fault within an hour. -/
  | fdFault
  /-- SPARE_POLICY_REQUEST (R485): A wear reading passes its limit, and the spare policy requests SWAP, EVACUATE or a lane substitution. -/
  | sparePolicyRequest (r : WearRead)
  /-- FIELD_MAP_WRITE (R467): Within 100 ms of a unit change, the field map is written to the older copy. -/
  | fieldMapWrite
  /-- EVENT_TAKEN (R490): The recorder takes an offered event and makes a record or raises a repeat count. -/
  | eventTaken
  /-- EVENT_QUEUE_FULL (R490): An event finds the recorder queue full and is counted lost. -/
  | eventQueueFull (e : EventIn)
  /-- REPEAT_WINDOW_EXPIRY (R495): An open record's 1 s window ends, and it closes. -/
  | repeatWindowExpiry (seq : Nat)
  /-- RECORDER_FL_WRITE (R493): Pending records reach FL within 10 ms, or at once at 256 pending. -/
  | recorderFlWrite (flOk : Bool)
  /-- RECORDER_FL_RETRY (R493): With FL FAILED, a routine write is retried each second. -/
  | recorderFlRetry (flOk : Bool)
  /-- SNAPSHOT_TAKE (R496): A write to er_snapshot_cmd fixes a session's snapshot range. -/
  | snapshotTake (w : Who) (v : Bytes)
  /-- SNAPSHOT_READ (R496): A read of er_snapshot_read returns up to 15 records and advances the cursor. -/
  | snapshotRead (w : Who)
  /-- RECORDER_CLEAR (R498): A write to er_clear makes a CLEARED record and writes the cleared areas to FL. -/
  | recorderClear (w : Who) (v : Nat)
  /-- CLEAR_WRITE_DONE (R498): The clear's FL write completes, and the write to er_clear is answered. -/
  | clearWriteDone
  /-- FLUSH_DONE (R499): A flush has written every pending record and its FLUSH record. -/
  | flushDone
  /-- BYPASS (R520): TAP instruction BYPASS. -/
  | bypass (tdi : Bool)
  /-- IDCODE (R520): TAP instruction IDCODE returns 0x0C91_9A6B. -/
  | idcode
  /-- SAMPLE (R520): TAP instruction SAMPLE captures the boundary-scan register. -/
  | sample
  /-- PRELOAD (R520): TAP instruction PRELOAD loads the boundary-scan register. -/
  | preload (v : Nat)
  /-- EXTEST (R521): TAP instruction EXTEST drives lands only in OFF or PARKED without a confidential context, and acts as BYPASS otherwise. -/
  | extest
  /-- HIGHZ (R521): TAP instruction HIGHZ floats outputs under the same condition, and acts as BYPASS otherwise. -/
  | highz
  /-- RAILS_FALL_WITHOUT_STOPPING (R348): The package's rails fall without STOPPING, and work of its own masters ends without completion while volatile state is lost. -/
  | railsFallWithoutStopping
  /-- DRAM_DIE_FAIL (R181): A data DRAM die or channel fails outside an evacuation, is evacuated when a spare is free, or otherwise stays mapped and FAILED with every access UNCORRECTABLE. -/
  | dramDieFail (stack pos : Nat)
  /-- NI_FAIL (R310): An NI enters FAILED. -/
  | niFail (i : Nat)
  /-- MIGRATION_GRANULE_COPIED (R203): A granule of a moving page is copied to the destination, the cursor advances, and an access waiting at the cursor proceeds. -/
  | migrationGranuleCopied (c serial : Nat)
  /-- OPEN_RESP (R439): A package that opened a Steward session receives OPEN_RESP, derives the session keys and sends its PROVE segments. -/
  | openResp (f : NxFrame) (body : Bytes)
  /-- PROVE_RESP (R439): The initiating package receives PROVE_RESP, and on success the Steward session is open and the GROUP_KEY is sent. -/
  | proveResp (f : NxFrame) (body : Bytes)
  /-- MPORT_LINK_CHANGE (R326): The Ethernet link of H0, H1 or SB goes down or comes up, which changes mport_link and the health of the position. -/
  | mportLinkChange (p : Nat) (up : Bool)
  /-- MKA_STATE_CHANGE (R415): IEEE 802.1X MKA on SB secures the port or loses its secure state, which gates NXF admission in NETWORK mode. -/
  | mkaStateChange (secured : Bool)
  /-- ARP_ND_ECHO (R432): An ARP, IPv6 neighbour-discovery or ICMP echo frame arrives on a management port and is answered. -/
  | arpNdEcho (p kind : Nat) (addr : Bytes) (tagged : Bool)
  /-- PTP_ANNOUNCE (R479): A PTP Announce message arrives and the best-master algorithm may change the selected time source. -/
  | ptpAnnounce (source : Nat) (better : Bool)
  /-- PFC_PAUSE (R432): An IEEE 802.1Qbb priority flow control frame on H0 or H1 pauses or resumes transmission on its priority. -/
  | pfcPause (p prio : Nat) (pause : Bool)
  deriving DecidableEq, Repr

end Sys2Proof
end

