-- ==== Sys2Proof/WellFormed.lean ====
section
/-! DEFINITION. The well-formed commands: operands that the spec's field widths and unit counts allow. -/

namespace Sys2Proof

open Sys2Proof.Machine

/-- The field widths of the instruction formats (R130). -/
def FmtR.wf (f : FmtR) : Bool := decide (f.rd < 32 ∧ f.ra < 32 ∧ f.rb < 32 ∧ f.rsv < 2048)
def FmtI.wf (f : FmtI) : Bool := decide (f.rd < 32 ∧ f.ra < 32 ∧ f.imm < 65536)
def FmtB.wf (f : FmtB) : Bool := decide (f.ra < 32 ∧ f.rb < 32 ∧ f.off < 65536)
def FmtJ.wf (f : FmtJ) : Bool := decide (f.rd < 32 ∧ f.off < 2097152)
def FmtD.wf (f : FmtD) : Bool := decide (f.dn < 16 ∧ f.rsv < 2 ∧ f.ra < 32 ∧ f.imm < 65536)
def FmtT.wf (f : FmtT) : Bool :=
  decide (f.da < 16 ∧ f.db < 16 ∧ f.dc < 16 ∧ f.cfg < 4 ∧ f.acc < 4 ∧ f.skip < 2 ∧ f.rsv < 512)
def FmtV.wf (f : FmtV) : Bool := decide (f.vd < 32 ∧ f.va < 32 ∧ f.vb < 32 ∧ f.vc < 32)
def FmtX.wf (f : FmtX) : Bool := decide (f.ra < 32 ∧ f.rb < 32 ∧ f.rc < 32 ∧ f.rsv < 8 ∧ f.tally < 256)
def FmtS.wf (f : FmtS) : Bool := decide (f.r < 32 ∧ f.rsv < 32 ∧ f.tally < 256 ∧ f.imm < 256)

/-- The role and context of a writer (R435, R381). -/
def Who.wf (w : Who) : Bool := decide (w.role ≤ 5 ∧ w.ctx < 64)

/-- The fields of a frame (R433). -/
def NxFrame.wf (f : NxFrame) : Bool :=
  decide (f.addr.length = 16 ∧ f.sport < 65536 ∧ f.dport < 65536 ∧ f.magic < 65536 ∧ f.version < 256 ∧ f.typ < 256 ∧ f.session < 2 ^ 32 ∧ f.seq < 2 ^ 64 ∧ f.len < 65536 ∧
    f.rsv < 2 ^ 48 ∧ f.tag.length = 16)

/-- The fields of a request (R440). -/
def NxReq.wf (q : NxReq) : Bool :=
  q.frame.wf && decide (q.reqId < 2 ^ 32 ∧ q.op < 256 ∧ q.area < 256 ∧ q.entry < 65536 ∧ q.sub < 256 ∧ q.rsv < 256 ∧ q.length < 65536 ∧ q.offset < 2 ^ 32)

/-- The fields of an agent message (R314). -/
def Machine.AgentMsg.wf (m : AgentMsg) : Bool :=
  decide (m.typ < 256 ∧ m.flags < 256 ∧ m.origin < 256 ∧ m.ttl < 256 ∧ m.term < 2 ^ 32 ∧ m.seq < 2 ^ 32 ∧ m.gen < 2 ^ 32 ∧ m.arg < 2 ^ 32)

/-- The units that exist (R17, R185, R280, R450). -/
def UnitRef.wf : UnitRef → Bool
  | .tile n => decide (n < 1920)
  | .te c => decide (c < 72)
  | .ni i => decide (i < 4)
  | .port p => decide (p < 18)
  | .mbx m => decide (m < 16)

def PostAt.wf : PostAt → Bool
  | .pool t => decide (t < 1920)
  | .te c => decide (c < 72)
  | .niq i c => decide (i < 4 ∧ c < 64)

/-- The field widths of a packet header (R249). -/
def Machine.Packet.wf (p : Packet) : Bool :=
  decide (p.cls < 8 ∧ p.level < 8 ∧ p.parity < 2 ∧ p.dst < 2 ^ 24 ∧ p.src < 2 ^ 24 ∧ p.ni.length = 20 ∧ p.tag.length = 16)

def Machine.CtlFlit.wf (f : CtlFlit) : Bool := decide (f.op < 256)

/-- The places and bits of a granule's stored bytes (R156). -/
def ReadErr.wf : ReadErr → Bool
  | .cells l => l.all fun c => decide (c.byte < 136) && decide (0 < c.flip) && decide (c.flip < 256)
  | .wrongGranule pa => decide (pa < 2 ^ 44)

/-- Whether a command names units, registers and values that exist. -/
def Instr.wf (i : Instr) : Bool :=
  match i with
  | .write q => q.wf
  | .read q => q.wf
  | .nextObj q => q.wf
  | .keepalive q => q.wf
  | .quiesceGraceEnd u => u.wf
  | .quiesceDrained u => u.wf
  | .quiesceFailAbort u => u.wf
  | .add t f => decide (t < 1920) && f.wf
  | .sub t f => decide (t < 1920) && f.wf
  | .and_ t f => decide (t < 1920) && f.wf
  | .or_ t f => decide (t < 1920) && f.wf
  | .xor_ t f => decide (t < 1920) && f.wf
  | .shl t f => decide (t < 1920) && f.wf
  | .shr t f => decide (t < 1920) && f.wf
  | .mul t f => decide (t < 1920) && f.wf
  | .slt t f => decide (t < 1920) && f.wf
  | .addi t f => decide (t < 1920) && f.wf
  | .ori t f => decide (t < 1920) && f.wf
  | .lui t f => decide (t < 1920) && f.wf
  | .ldx t f => decide (t < 1920) && f.wf
  | .stx t f => decide (t < 1920) && f.wf
  | .beq t f => decide (t < 1920) && f.wf
  | .bne t f => decide (t < 1920) && f.wf
  | .blt t f => decide (t < 1920) && f.wf
  | .bge t f => decide (t < 1920) && f.wf
  | .jal t f => decide (t < 1920) && f.wf
  | .jr t f => decide (t < 1920) && f.wf
  | .dld t f => decide (t < 1920) && f.wf
  | .dst t f => decide (t < 1920) && f.wf
  | .dsetw t f => decide (t < 1920) && f.wf
  | .dadv t f => decide (t < 1920) && f.wf
  | .mma t f => decide (t < 1920) && f.wf
  | .mmaDone t _ => decide (t < 1920)
  | .shadowCheckDone t _ => decide (t < 1920)
  | .driftHourRollover t => decide (t < 1920)
  | .drain t f => decide (t < 1920) && f.wf
  | .drainDone t => decide (t < 1920)
  | .qcvt t f => decide (t < 1920) && f.wf
  | .qcvtDone t => decide (t < 1920)
  | .vld t f => decide (t < 1920) && f.wf
  | .vst t f => decide (t < 1920) && f.wf
  | .fadd t f => decide (t < 1920) && f.wf
  | .fsub t f => decide (t < 1920) && f.wf
  | .fmul t f => decide (t < 1920) && f.wf
  | .ffma t f => decide (t < 1920) && f.wf
  | .fmin t f => decide (t < 1920) && f.wf
  | .fmax t f => decide (t < 1920) && f.wf
  | .fcmplt t f => decide (t < 1920) && f.wf
  | .sel t f => decide (t < 1920) && f.wf
  | .exp t f => decide (t < 1920) && f.wf
  | .log t f => decide (t < 1920) && f.wf
  | .rsqrt t f => decide (t < 1920) && f.wf
  | .tanh t f => decide (t < 1920) && f.wf
  | .sigm t f => decide (t < 1920) && f.wf
  | .div t f => decide (t < 1920) && f.wf
  | .sqrt t f => decide (t < 1920) && f.wf
  | .rsum t f => decide (t < 1920) && f.wf
  | .rmax t f => decide (t < 1920) && f.wf
  | .rmin t f => decide (t < 1920) && f.wf
  | .iadd t f => decide (t < 1920) && f.wf
  | .isub t f => decide (t < 1920) && f.wf
  | .iand t f => decide (t < 1920) && f.wf
  | .ior t f => decide (t < 1920) && f.wf
  | .ixor t f => decide (t < 1920) && f.wf
  | .ishl t f => decide (t < 1920) && f.wf
  | .ishr t f => decide (t < 1920) && f.wf
  | .cvt t f => decide (t < 1920) && f.wf
  | .badd t f => decide (t < 1920) && f.wf
  | .bsub t f => decide (t < 1920) && f.wf
  | .bmul t f => decide (t < 1920) && f.wf
  | .bfma t f => decide (t < 1920) && f.wf
  | .xfer t f => decide (t < 1920) && f.wf
  | .xferComplete t _ => decide (t < 1920)
  | .postTask t f => decide (t < 1920) && f.wf
  | .postRemoteTask t f => decide (t < 1920) && f.wf
  | .postTeDirect t f => decide (t < 1920) && f.wf
  | .postNiDirect t f => decide (t < 1920) && f.wf
  | .postMailbox t f => decide (t < 1920) && f.wf
  | .postBell t f => decide (t < 1920) && f.wf
  | .tset t f => decide (t < 1920) && f.wf
  | .tdec t f => decide (t < 1920) && f.wf
  | .twait t f => decide (t < 1920) && f.wf
  | .trd t f => decide (t < 1920) && f.wf
  | .tfree t f => decide (t < 1920) && f.wf
  | .fence t f => decide (t < 1920) && f.wf
  | .end_ t f => decide (t < 1920) && f.wf
  | .illegalInstruction t => decide (t < 1920)
  | .taskSelect t => decide (t < 1920)
  | .tallyDecrement _ => true
  | .postArrival _ => true
  | .postQueueAdmit q => q.wf
  | .postWaitExpiry q _ => q.wf
  | .taskBudgetExpiry t => decide (t < 1920)
  | .sequencerWatchdogExpiry t => decide (t < 1920)
  | .stealPoll t => decide (t < 1920)
  | .stealRequest victim thief => decide (victim < 1920) && decide (thief < 1920)
  | .stealReply t => decide (t < 1920)
  | .tileDisable w n => w.wf && decide (n < 1920)
  | .tileEnable w n => w.wf && decide (n < 1920)
  | .tileSwap w n => w.wf && decide (n < 1920)
  | .tileSwapNow w n => w.wf && decide (n < 1920)
  | .substitutionHold n => decide (n < 1920)
  | .substitutionCopyDone n => decide (n < 1920)
  | .tileParityFail n => decide (n < 1920)
  | .freezeReleaseKeep w n => w.wf && decide (n < 1920)
  | .freezeReleasePurge w n => w.wf && decide (n < 1920)
  | .sramPatrol n bank row _ => decide (n < 1920) && decide (bank < 16) && decide (row < 1024)
  | .tileClockChange die _ => decide (die < 4)
  | .jtiLoad w ctx _ => w.wf && decide (ctx < 64)
  | .jtiPlacementDone ctx => decide (ctx < 64)
  | .jtiLoadDone ctx => decide (ctx < 64)
  | .memRead pa e => decide (pa < 2 ^ 44) && e.wf
  | .memWrite pa _ => decide (pa < 2 ^ 44)
  | .memAtomic pa fn _ _ _ => decide (pa < 2 ^ 44) && decide (fn < 16)
  | .patrolScrub pa e _ => decide (pa < 2 ^ 44) && e.wf
  | .dramRefresh stack pos bank _ => decide (stack < 32) && decide (pos < 17) && decide (bank < 64)
  | .dramTempReport stack pos _ => decide (stack < 32) && decide (pos < 17)
  | .tableWalkDone ctx va _ => decide (ctx < 64) && decide (va < 2 ^ 48)
  | .shootdownAck _ _ => true
  | .pageMap w ctx _ => w.wf && decide (ctx < 64)
  | .pageUnmap w ctx _ => w.wf && decide (ctx < 64)
  | .unmapFillDone pa => decide (pa < 2 ^ 44)
  | .dramEvacuate w stack pos => w.wf && decide (stack < 32) && decide (pos < 17)
  | .evacGroupCopied stack chan => decide (stack < 32) && decide (chan < 2)
  | .oldDieUnresponsive stack => decide (stack < 32)
  | .spareDieUnresponsive stack => decide (stack < 32)
  | .teSqTailWrite w c _ => w.wf && decide (c < 72)
  | .teCqHeadWrite w c _ => w.wf && decide (c < 72)
  | .teRingFetch c => decide (c < 72)
  | .teOwnerWrite w c _ => w.wf && decide (c < 72)
  | .teCopy c => decide (c < 72)
  | .teFill c => decide (c < 72)
  | .teScrub c => decide (c < 72)
  | .teGather c => decide (c < 72)
  | .teScatter c => decide (c < 72)
  | .teMigrate c => decide (c < 72)
  | .hostRead c => decide (c < 72)
  | .hostWrite c => decide (c < 72)
  | .hostWriteImm c => decide (c < 72)
  | .teDescriptorComplete c _ => decide (c < 72)
  | .migrateWaitExpiry c _ => decide (c < 72)
  | .migrationCopyDone c _ => decide (c < 72)
  | .teDisable w c => w.wf && decide (c < 72)
  | .teEnable w c => w.wf && decide (c < 72)
  | .teRelease w c => w.wf && decide (c < 72)
  | .tePurge w c => w.wf && decide (c < 72)
  | .teChannelFail c => decide (c < 72)
  | .rdmaRequestRefused port _ => decide (port < 2)
  | .rdmaResponse h q _ => decide (h < 8) && decide (q < 16)
  | .rdmaAckTimeout h q => decide (h < 8) && decide (q < 16)
  | .rdmaEcnMark h q => decide (h < 8) && decide (q < 16)
  | .htePortDownTimeout h q => decide (h < 8) && decide (q < 16)
  | .hteQpWrite w h q _ => w.wf && decide (h < 8) && decide (q < 16)
  | .d2dUnitReceive l dir seq _ u => decide (l < 53) && decide (dir < 2) && decide (seq < 2 ^ 64) && decide (u.length = 256)
  | .d2dLaneFail l module => decide (l < 53) && decide (module < 4)
  | .codewordReceive p y => decide (p < 18) && decide (y.length = 18) && y.all fun l => (l.isEmpty || decide (l.length = if p < 14 then 34 else 170)) && l.all fun v => decide (v < 4)
  | .linkPacketReceive p => decide (p < 18)
  | .ackCredit p => decide (p < 18)
  | .ackDeadline p => decide (p < 18)
  | .replayReq p => decide (p < 18)
  | .replayTimeout p => decide (p < 18)
  | .laneReq p i => decide (p < 18) && decide (i < 18)
  | .laneMap p => decide (p < 18)
  | .laneCopyAligned p _ i => decide (p < 18) && decide (i < 18)
  | .laneSwitch p dir _ => decide (p < 18) && decide (dir < 2)
  | .laneAbruptLoss p _ => decide (p < 18)
  | .linkLoss p cause => decide (p < 18) && decide (cause = 1 ∨ cause = 2)
  | .trainingSignalDetected p _ => decide (p < 18)
  | .equalisationDone p => decide (p < 18)
  | .trainingFramesChecked p _ _ _ o _ => decide (p < 18) && o.all fun i => decide (i ≤ 18)
  | .berMeasureDone p _ _ => decide (p < 18)
  | .retrainIntervalExpiry p => decide (p < 18)
  | .marginMeasure p l _ _ => decide (p < 18) && l.all fun r => decide (r.pos < 18)
  | .laserFail e j => decide (e < 4) && decide (j < 10)
  | .portSerdesFail p => decide (p < 18)
  | .laneSerdesFail p dir i => decide (p < 18) && decide (dir < 2) && decide (i < 18)
  | .portDisable w p => w.wf && decide (p < 18)
  | .portEnable w p => w.wf && decide (p < 18)
  | .portRetrain w p => w.wf && decide (p < 18)
  | .laneDisable w p i => w.wf && decide (p < 18) && decide (i < 18)
  | .laneEnable w p i => w.wf && decide (p < 18) && decide (i < 18)
  | .routerPacketIn p bank _ => decide (p < 23) && decide (bank < 8)
  | .routerInject p _ => decide (p < 23)
  | .routerPacketSend out => decide (out < 23)
  | .residenceLimitExpiry _ => true
  | .routerBankFail p b => decide (p < 23) && decide (b < 8)
  | .wornBankEmptied p b => decide (p < 23) && decide (b < 8)
  | .routeBankLoading w b => w.wf && decide (b < 2)
  | .routeBankValid w b => w.wf && decide (b < 2)
  | .routeLoad w _ => w.wf
  | .injectParityWrite w _ => w.wf
  | .rtAdmitWrite w p _ => w.wf && decide (p < 18)
  | .niqSqTailWrite w i c _ => w.wf && decide (i < 4) && decide (c < 64)
  | .niqCqHeadWrite w i c _ => w.wf && decide (i < 4) && decide (c < 64)
  | .niRingFetch i c => decide (i < 4) && decide (c < 64)
  | .put i c => decide (i < 4) && decide (c < 64)
  | .get i c => decide (i < 4) && decide (c < 64)
  | .atomic i c => decide (i < 4) && decide (c < 64)
  | .notify i c => decide (i < 4) && decide (c < 64)
  | .task i c => decide (i < 4) && decide (c < 64)
  | .copyTo i c => decide (i < 4) && decide (c < 64)
  | .dispatch i c => decide (i < 4) && decide (c < 64)
  | .inboxArm i c => decide (i < 4) && decide (c < 64)
  | .clOpen i c => decide (i < 4) && decide (c < 64)
  | .clRun i c => decide (i < 4) && decide (c < 64)
  | .clInvocationStart ctx _ => decide (ctx < 64)
  | .clClose i c => decide (i < 4) && decide (c < 64)
  | .niCommandComplete i c _ => decide (i < 4) && decide (c < 64)
  | .rxPut i => decide (i < 4)
  | .rxGet i => decide (i < 4)
  | .rxAtomic i => decide (i < 4)
  | .rxNotify i => decide (i < 4)
  | .rxTask i => decide (i < 4)
  | .rxCopyTo i => decide (i < 4)
  | .rxFwd i => decide (i < 4)
  | .rxToken i => decide (i < 4)
  | .rxDone i => decide (i < 4)
  | .rxAck i => decide (i < 4)
  | .rxData i => decide (i < 4)
  | .rxContrib i => decide (i < 4)
  | .rxResult i => decide (i < 4)
  | .quarantineExpiry _ _ => true
  | .rxPartialExpiry _ => true
  | .niOpTimeout i ctx slot msgId => decide (i < 4) && decide (ctx < 64) && decide (slot < 4) && decide (msgId < 2 ^ 48)
  | .suspectTimeout pos => decide (pos < 64)
  | .keyDrainExpiry ctx slot => decide (ctx < 64) && decide (slot < 4)
  | .clTimeout ctx _ => decide (ctx < 64)
  | .rankLoad w ctx _ => w.wf && decide (ctx < 64)
  | .dispatchLoad w ctx _ => w.wf && decide (ctx < 64)
  | .niJobWrite w ctx _ => w.wf && decide (ctx < 64)
  | .keyTxSlotWrite w ctx _ => w.wf && decide (ctx < 64)
  | .niDisable w i => w.wf && decide (i < 4)
  | .niEnable w i => w.wf && decide (i < 4)
  | .niqRelease w i c => w.wf && decide (i < 4) && decide (c < 64)
  | .niqPurge w i c => w.wf && decide (i < 4) && decide (c < 64)
  | .probe => true
  | .probeEcho => true
  | .probeInterval => true
  | .hello => true
  | .helloInterval => true
  | .report => true
  | .reportInterval => true
  | .claim => true
  | .grant => true
  | .heartbeat => true
  | .heartbeatInterval => true
  | .hbAck => true
  | .heartbeatMissLimit => true
  | .claimRetryTimer => true
  | .claimStaggerTimer => true
  | .discoveryClaimTimer => true
  | .discoveryReportTimeout => true
  | .linkDown => true
  | .lossNotice => true
  | .reprobe => true
  | .fenceReprobeInterval => true
  | .prepare => true
  | .bankDrained => true
  | .ready => true
  | .commit => true
  | .epochReadyTimeout => true
  | .epochAckTimeout => true
  | .slice => true
  | .sliceAck => true
  | .sliceAckTimeout _ => true
  | .sliceCreate w _ => w.wf
  | .sliceRepair w _ => w.wf
  | .sliceRetire w _ => w.wf
  | .replica => true
  | .railMap => true
  | .railMapLoad w _ => w.wf
  | .railMapCommit w _ => w.wf
  | .fabricStartTimer _ => true
  | .stopComplete => true
  | .parkRelease w _ => w.wf
  | .hostPowerRequest w _ => w.wf
  | .avsTelemetryPoll _ _ => true
  | .pmbusPoll _ => true
  | .vtileReached die => decide (die < 4)
  | .thermalStep die => decide (die < 4)
  | .thermalTrip die _ => decide (die < 42)
  | .throttleAssert => true
  | .throttleDeassert => true
  | .floorLatchTimeout => true
  | .pfailAssert => true
  | .pfailDeassert => true
  | .pfailClearTimer => true
  | .trayPresDeassert => true
  | .regulatorFault rail _ => decide (rail < 16)
  | .pmbusAlert _ => true
  | .equipmentPoll k => decide (k < 16)
  | .equipmentResponse k _ _ _ => decide (k < 16)
  | .pollTimeout k => decide (k < 16)
  | .capTableInterval => true
  | .capTable => true
  | .powerReportInterval => true
  | .powerReport => true
  | .safety => true
  | .traySensors => true
  | .trayAlarm => true
  | .hubRead _ => true
  | .hubUnreadableTimeout => true
  | .leadHandoff => true
  | .lowFlowCapTimer => true
  | .lowFlowParkTimer => true
  | .lowFlowExitTimer => true
  | .pumpParkTimer => true
  | .orphanCapTimer => true
  | .trayStartInterval => true
  | .sensorSuspectTimer _ _ => true
  | .contextOpen w ctx _ => w.wf && decide (ctx < 64)
  | .contextRetire w ctx _ => w.wf && decide (ctx < 64)
  | .retireQuietEnd ctx => decide (ctx < 64)
  | .retireFillDone ctx => decide (ctx < 64)
  | .jobHoldExpiry _ => true
  | .protCommit w ctx => w.wf && decide (ctx < 64)
  | .protDiscard w ctx => w.wf && decide (ctx < 64)
  | .protOldRequestsDrained ctx => decide (ctx < 64)
  | .protFillDone ctx => decide (ctx < 64)
  | .rngHealthFail => true
  | .keygen w ctx _ => w.wf && decide (ctx < 64)
  | .import_ w ctx _ => w.wf && decide (ctx < 64)
  | .activate w ctx _ => w.wf && decide (ctx < 64)
  | .keyActivationTime ctx => decide (ctx < 64)
  | .unseal w ctx _ => w.wf && decide (ctx < 64)
  | .authorityRecordWrite w _ => w.wf
  | .tenantImageKeyWrite w idx _ => w.wf && decide (idx < 8)
  | .pkgAttestRequest w _ => w.wf
  | .ctxAttestRequest w ctx _ => w.wf && decide (ctx < 64)
  | .getVersion sid => decide (sid < 2 ^ 32)
  | .getCapabilities sid => decide (sid < 2 ^ 32)
  | .negotiateAlgorithms sid => decide (sid < 2 ^ 32)
  | .getDigests sid => decide (sid < 2 ^ 32)
  | .getCertificate sid => decide (sid < 2 ^ 32)
  | .challenge sid => decide (sid < 2 ^ 32)
  | .getMeasurements sid => decide (sid < 2 ^ 32)
  | .spdmUnsupported sid => decide (sid < 2 ^ 32)
  | .openReq port f _ => decide (port < 3) && f.wf
  | .prove f _ => f.wf
  | .proveTimeout sid => decide (sid < 2 ^ 32)
  | .sessionIdleExpiry sid => decide (sid < 2 ^ 32)
  | .close f => f.wf
  | .sessionCloseWrite w sid => w.wf && decide (sid < 2 ^ 32)
  | .operatorKeysWrite w _ => w.wf
  | .tenantSessionKeyWrite w ctx _ => w.wf && decide (ctx < 64)
  | .agent f m => f.wf && m.wf
  | .agentGroup f m => f.wf && m.wf
  | .groupKey f _ => f.wf
  | .spdm f _ => f.wf
  | .mbxSend q => q.wf
  | .mbxRecv q => q.wf
  | .mbxClaim q => q.wf
  | .mbxRelease q => q.wf
  | .bellRing q => q.wf
  | .bellFetch q => q.wf
  | .bellEventRepeat m => decide (m < 16)
  | .mbxTtlExpiry m _ => decide (m < 16)
  | .mbxRingHeadWrite w m _ => w.wf && decide (m < 16)
  | .mbxDisable w m => w.wf && decide (m < 16)
  | .mbxEnable w m => w.wf && decide (m < 16)
  | .persistReset w _ => w.wf
  | .persistStoreDone => true
  | .fwBegin w e => w.wf && decide (1 ≤ e ∧ e ≤ 4)
  | .fwStageData w e _ => w.wf && decide (1 ≤ e ∧ e ≤ 4)
  | .fwCommit w e => w.wf && decide (1 ≤ e ∧ e ≤ 4)
  | .fwAbandon w e => w.wf && decide (1 ≤ e ∧ e ≤ 4)
  | .fwActivateNow w e => w.wf && decide (1 ≤ e ∧ e ≤ 4)
  | .fdSelftestDone _ => true
  | .fwSvnFloorWrite w e _ => w.wf && decide (1 ≤ e ∧ e ≤ 4)
  | .fwStartTimeout e => decide (1 ≤ e ∧ e ≤ 4)
  | .resetRelease _ => true
  | .resetAssert _ => true
  | .resetColdCmd w _ => w.wf
  | .scWatchdogExpiry => true
  | .bringupStepDone _ => true
  | .bringupNext w => w.wf
  | .bringupRun w => w.wf
  | .bringupRetest w => w.wf
  | .bringupAbort w => w.wf
  | .bringupHoldTimeout => true
  | .noReferenceTimeout => true
  | .refclkLoss _ => true
  | .refclkReturn _ => true
  | .ptpSync _ _ => true
  | .ptpLockTimer => true
  | .ptpSyncTimeout => true
  | .domainFaultReset d => decide (d < 6)
  | .computeDieFault die unit => decide (die < 4) && decide (1 ≤ unit ∧ unit ≤ 3)
  | .fdFault => true
  | .sparePolicyRequest _ => true
  | .fieldMapWrite => true
  | .eventTaken => true
  | .eventQueueFull _ => true
  | .repeatWindowExpiry seq => decide (seq < 2 ^ 64)
  | .recorderFlWrite _ => true
  | .recorderFlRetry _ => true
  | .snapshotTake w _ => w.wf
  | .snapshotRead w => w.wf
  | .recorderClear w _ => w.wf
  | .clearWriteDone => true
  | .flushDone => true
  | .bypass _ => true
  | .idcode => true
  | .sample => true
  | .preload _ => true
  | .extest => true
  | .highz => true
  | .railsFallWithoutStopping => true
  | .dramDieFail stack pos => decide (stack < 32) && decide (pos < 17)
  | .niFail i => decide (i < 4)
  | .migrationGranuleCopied c _ => decide (c < 72)
  | .openResp f _ => f.wf
  | .proveResp f _ => f.wf
  | .mportLinkChange p _ => decide (p < 3)
  | .mkaStateChange _ => true
  | .arpNdEcho p kind addr _ => decide (p < 3) && decide (kind < 256) && decide (addr.length = 16)
  | .ptpAnnounce _ _ => true
  | .pfcPause p prio _ => decide (p < 2) && decide (prio < 8)

end Sys2Proof
end

