-- ==== Sys2Proof/Decode.lean ====
section
/-! DEFINITION. Reading a command from a word of the command table. -/

namespace Sys2Proof

/-- The command that a word spells by the bits of the command table. No row of the table gives bits: a command reaches the package as a request, a
frame, a packet, an arrival or an event, and no word spells one. -/
def decodeTableWord (_nbits _w : Nat) : Option Instr := none

end Sys2Proof
end

