-- ==== Sys2Proof/Config.lean ====
section
/-! DEFINITION. What the spec leaves open or gives to an outside standard, as constants without a body: no proof can see a value of them. -/

namespace Sys2Proof.Config

/-- A free value: the `k`-th value the machine draws where the spec gives none (R52, R61, and every result it does not state). -/
opaque freeValue : Nat → Nat

/-- The lane masks that FCMPLT writes for true and for false (R133 names a lane mask and no pattern). -/
opaque maskTrue : BitVec 32
opaque maskFalse : BitVec 32

/-- Whether ISHR shifts in copies of the sign bit (R133 says only that it shifts right). -/
opaque ishrSigned : Bool

/-- The shared secret of a private key and a public key that lies on no point of P-256, for which no standard that R405 names gives a result. -/
opaque ecdhOff : Bytes → Bytes → Bytes

/-- The per-message number of a signature of a hash under a private key: R405 names ECDSA, and R407 that a signature takes no fresh randomness. -/
opaque ecNonce : Bytes → Bytes → Nat

/-- `n` bytes from the random-number generator at draw `k` (R407). -/
opaque random : Nat → Nat → Bytes

/-- The 58 bits that a lane's scrambler starts from at training: R217 says that they come from the lane position, and not how. -/
opaque scrambleSeed : Nat → BitVec 58

/-- The 8 check bytes of a granule's data and physical address: R157 names a Reed-Solomon code over GF(2^8) and gives no field polynomial and no generator. -/
opaque eccCheck : Bytes → Nat → Bytes

/-- What R157 leaves to chance: whether the check sees an error in more than 6 stored bytes of a granule, what such a granule reads as when it does not, and whether
it sees that another granule was read. -/
opaque eccSees : Nat → List (Nat × Nat) → Bool
opaque eccReads : Nat → List (Nat × Nat) → Bytes
opaque eccSeesOther : Nat → Nat → Bool

/-- Whether a certificate chain verifies to the Umanas root, and the public key it names (R410). -/
opaque certOk : Bytes → Bool
opaque certKey : Bytes → Bytes

/-- The public key a firmware image's signing certificate names, where the chain verifies to the Umanas root (R412, R455). -/
opaque fwSignerOk : Bytes → Bool

/-- What the certificate chain of R410 holds above the package's own certificates: the digest of the Umanas root certificate and the product CA's certificate. -/
opaque rootHash : Bytes
opaque productCert : Bytes

/-- The DeviceID certificate that the product CA issued at manufacture and that FL holds (R410), after its first byte, which as DER is 0x30. -/
opaque deviceIdTail : Bytes

/-- The part of the Alias certificate that is signed, for an Alias public key, a firmware digest and a security version: R410 names its extension and prints no field. -/
opaque aliasTbs : Bytes → Bytes → Nat → Bytes

/-- The digests of the boot ROM and of the trim record, and the factory defect map, which the spec gives no value of (R425, R464). -/
opaque romDigest : Bytes
opaque trimDigest : Bytes
opaque factoryMap : Bytes

/-- The field defect map as a byte string, of which the spec gives no layout: from its sequence number, the states and mapping it records, the SRAM rows given to
spares and the fail counts (R464). -/
opaque fieldMap : Nat → List (Nat × Nat) → List Nat → List (Nat × Nat) → Bytes

/-- The die on which a temperature sensor stands, by the numbers that THERMAL_TRIP uses for dies, its θ of the signed trim record in 0.01 °C per W, and a die's share
of the package power in W from the rails' readings in mW (R378): the spec gives no value of these. -/
opaque sensorDie : Nat → Nat

/-- The set value of a rail in the signed trim record, by the subs of `rail_telemetry` (R362): the spec gives no value. -/
opaque trimSet : Nat → Nat

/-- What the steward expects of a common tile clock in MHz, from the rails' readings in mW: the package power in mW, and the current of a die's VTILE rail in 0.1 A
(R355, R356). The spec gives no such estimate. -/
opaque powerAt : List (Nat × Nat) → Nat → Nat
opaque ampsAt : List (Nat × Nat) → Nat → Nat → Nat
opaque theta : Nat → Nat
opaque dieShare : Nat → List (Nat × Nat) → Nat

end Sys2Proof.Config
end

