-- ==== Sys2Proof/Machine/Cipher.lean ====
section
/-! DEFINITION. The algorithms of R405, each from the standard that the rule names (PRESUMED: the spec names the standards and does not print them): SHA-256 (FIPS 180-4),
AES-256 in Galois/Counter Mode (FIPS 197, SP 800-38D), and ECDSA and ECDH over NIST P-256 (FIPS 186-5, SP 800-56A). -/

namespace Sys2Proof.Machine

open Sys2Proof

/-- Apply a function to a number once the number is a numeral, so that evaluation keeps no unevaluated argument. -/
def strictly {α : Type} (n : Nat) (f : Nat → α) : α :=
  match n with
  | 0 => f 0
  | m + 1 => f (m + 1)

/-! ## SHA-256 -/

abbrev word32 : Nat := 4294967296

/-- The round constants of FIPS 180-4. -/
def shaK : List Nat := [
  0x428a2f98, 0x71374491, 0xb5c0fbcf, 0xe9b5dba5, 0x3956c25b, 0x59f111f1, 0x923f82a4, 0xab1c5ed5,
  0xd807aa98, 0x12835b01, 0x243185be, 0x550c7dc3, 0x72be5d74, 0x80deb1fe, 0x9bdc06a7, 0xc19bf174,
  0xe49b69c1, 0xefbe4786, 0x0fc19dc6, 0x240ca1cc, 0x2de92c6f, 0x4a7484aa, 0x5cb0a9dc, 0x76f988da,
  0x983e5152, 0xa831c66d, 0xb00327c8, 0xbf597fc7, 0xc6e00bf3, 0xd5a79147, 0x06ca6351, 0x14292967,
  0x27b70a85, 0x2e1b2138, 0x4d2c6dfc, 0x53380d13, 0x650a7354, 0x766a0abb, 0x81c2c92e, 0x92722c85,
  0xa2bfe8a1, 0xa81a664b, 0xc24b8b70, 0xc76c51a3, 0xd192e819, 0xd6990624, 0xf40e3585, 0x106aa070,
  0x19a4c116, 0x1e376c08, 0x2748774c, 0x34b0bcb5, 0x391c0cb3, 0x4ed8aa4a, 0x5b9cca4f, 0x682e6ff3,
  0x748f82ee, 0x78a5636f, 0x84c87814, 0x8cc70208, 0x90befffa, 0xa4506ceb, 0xbef9a3f7, 0xc67178f2]

/-- The initial hash value. -/
def shaInit : List Nat := [0x6a09e667, 0xbb67ae85, 0x3c6ef372, 0xa54ff53a, 0x510e527f, 0x9b05688c, 0x1f83d9ab, 0x5be0cd19]

def rotr32 (x n : Nat) : Nat := (x >>> n) ||| ((x <<< (32 - n)) % word32)

/-- The message schedule, newest word first: `n` more words. -/
def shaSched : Nat → List Nat → List Nat
  | 0, w => w
  | n + 1, w =>
    let a := w.getD 14 0
    let b := w.getD 1 0
    let s0 := rotr32 a 7 ^^^ rotr32 a 18 ^^^ (a >>> 3)
    let s1 := rotr32 b 17 ^^^ rotr32 b 19 ^^^ (b >>> 10)
    strictly ((w.getD 15 0 + s0 + w.getD 6 0 + s1) % word32) fun x => shaSched n (x :: w)

/-- One round, with its constant and its word of the schedule. -/
def shaRound (st : List Nat) (k w : Nat) : List Nat :=
  match st with
  | [a, b, c, d, e, f, g, h] =>
    let t1 := h + (rotr32 e 6 ^^^ rotr32 e 11 ^^^ rotr32 e 25) + ((e &&& f) ^^^ ((word32 - 1 - e) &&& g)) + k + w
    let t2 := (rotr32 a 2 ^^^ rotr32 a 13 ^^^ rotr32 a 22) + ((a &&& b) ^^^ (a &&& c) ^^^ (b &&& c))
    strictly ((t1 + t2) % word32) fun x => strictly ((d + t1) % word32) fun y => [x, a, b, c, y, e, f, g]
  | l => l

def shaRounds : List (Nat × Nat) → List Nat → List Nat
  | [], st => st
  | p :: l, st => shaRounds l (shaRound st p.1 p.2)

/-- The big-endian words of a string. -/
def shaWords : Nat → Bytes → List Nat
  | 0, _ => []
  | n + 1, b => strictly (beNat (b.take 4)) fun x => x :: shaWords n (b.drop 4)

/-- One block of 64 bytes. -/
def shaBlock (st : List Nat) (b : Bytes) : List Nat :=
  let w := (shaSched 48 (shaWords 16 b).reverse).reverse
  (List.zip st (shaRounds (shaK.zip w) st)).map fun p => (p.1 + p.2) % word32

def shaBlocks : Nat → List Nat → Bytes → List Nat
  | 0, st, _ => st
  | n + 1, st, b => shaBlocks n (shaBlock st (b.take 64)) (b.drop 64)

/-- The padding of a message of `n` bytes. -/
def shaPad (n : Nat) : Bytes := [0x80] ++ zeros ((119 - n % 64) % 64) ++ beBytes 8 (8 * n)

def sha256 (m : Bytes) : Bytes :=
  let p := m ++ shaPad m.length
  ((shaBlocks (p.length / 64) shaInit p).map (beBytes 4)).flatten

/-! ## AES-256 and GCM -/

/-- The S-box of FIPS 197, sixteen entries to a number, the first in the lowest byte. -/
def aesBox : List Nat := [
  0x76abd7fe2b670130c56f6bf27b777c63, 0xc072a49cafa2d4adf04759fa7dc982ca, 0x1531d871f1e5a534ccf73f362693fdb7, 0x75b227ebe28012079a059618c323c704,
  0x842fe329b3d63b52a05a6e1b1a2c8309, 0xcf584c4a39becb6a5bb1fc20ed00d153, 0xa89f3c507f02f94585334d43fbaaefd0, 0xd2f3ff1021dab6bcf5389d928f40a351,
  0x73195d643d7ea7c41744975fec130ccd, 0xdb0b5ede14b8ee4688902a22dc4f8160, 0x79e4959162acd3c25c2406490a3a32e0, 0x08ae7a65eaf4566ca94ed58d6d37c8e7,
  0x8a8bbd4b1f74dde8c6b4a61c2e2578ba, 0x9e1dc186b95735610ef6034866b53e70, 0xdf2855cee9871e9b948ed9691198f8e1, 0x16bb54b00f2d99416842e6bf0d89a18c]

def sbox (x : Nat) : Nat := (aesBox.getD (x / 16) 0 >>> (8 * (x % 16))) % 256

/-- Multiplication by x in the field of AES. -/
def xtime (x : Nat) : Nat := if x < 128 then 2 * x else (2 * x - 256) ^^^ 0x1B

/-- The S-box on each byte of a word. -/
def subWord (w : Nat) : Nat := sbox (w >>> 24) * 16777216 + sbox ((w >>> 16) % 256) * 65536 + sbox ((w >>> 8) % 256) * 256 + sbox (w % 256)

/-- The key schedule, newest word first: word `i` and those after it, `n` in all. -/
def aesExpand : Nat → Nat → List Nat → List Nat
  | 0, _, w => w
  | n + 1, i, w =>
    let t := w.headD 0
    let t := if i % 8 = 0 then subWord ((t <<< 8) % word32 + (t >>> 24)) ^^^ (2 ^ (i / 8 - 1) * 16777216) else if i % 8 = 4 then subWord t else t
    strictly (w.getD 7 0 ^^^ t) fun x => aesExpand n (i + 1) (x :: w)

/-- The fifteen round keys of a 32-byte key, as 16 bytes each. -/
def aesKeys (key : Bytes) : List (List Nat) :=
  let w := (aesExpand 52 8 (shaWords 8 key).reverse).reverse
  (List.range 15).map fun r => ((w.drop (4 * r)).take 4).flatMap fun x => [x >>> 24, (x >>> 16) % 256, (x >>> 8) % 256, x % 256]

/-- Numbers, each made a numeral. -/
def forced : List Nat → List Nat
  | [] => []
  | x :: l => strictly x fun y => y :: forced l

def xorL (a b : List Nat) : List Nat := forced (List.zipWith (· ^^^ ·) a b)

/-- SubBytes and ShiftRows: byte `4c + r` comes from column `c + r`. -/
def aesShift (s : List Nat) : List Nat := forced ((List.range 16).map fun i => sbox (s.getD ((i + 4 * (i % 4)) % 16) 0))

/-- MixColumns on one column. -/
def aesMixCol (a b c d : Nat) : List Nat :=
  let t := a ^^^ b ^^^ c ^^^ d
  [a ^^^ t ^^^ xtime (a ^^^ b), b ^^^ t ^^^ xtime (b ^^^ c), c ^^^ t ^^^ xtime (c ^^^ d), d ^^^ t ^^^ xtime (d ^^^ a)]

def aesMix (s : List Nat) : List Nat :=
  forced ((List.range 4).flatMap fun c => aesMixCol (s.getD (4 * c) 0) (s.getD (4 * c + 1) 0) (s.getD (4 * c + 2) 0) (s.getD (4 * c + 3) 0))

/-- The rounds after the first key: the last one mixes no columns. -/
def aesRounds : List (List Nat) → List Nat → List Nat
  | [], s => s
  | [k], s => xorL (aesShift s) k
  | k :: ks, s => aesRounds ks (xorL (aesMix (aesShift s)) k)

/-- AES-256 of a block under expanded keys. -/
def aesBlock (ks : List (List Nat)) (b : List Nat) : List Nat := aesRounds ks.tail (xorL b (ks.headD []))

def natsOf (b : Bytes) : List Nat := forced (b.map (·.toNat))
def bytesOfNats (l : List Nat) : Bytes := l.map (BitVec.ofNat 8)

/-- A block as a number, its first byte highest. -/
def natOfBlock (l : List Nat) : Nat := l.foldl (fun n x => 256 * n + x) 0

/-- Multiplication in the field of GCM: the first bit of a block is the coefficient of 1. -/
def ghashMul : Nat → Nat → Nat → Nat → Nat
  | 0, _, _, z => z
  | n + 1, x, v, z =>
    strictly (if x.testBit n then z ^^^ v else z) fun z =>
      strictly (if v % 2 = 1 then (v / 2) ^^^ (0xE1 * 2 ^ 120) else v / 2) fun v => ghashMul n x v z

/-- GHASH over `n` blocks of a padded string. -/
def ghash (h : Nat) : Nat → Bytes → Nat → Nat
  | 0, _, y => y
  | n + 1, b, y => strictly (y ^^^ beNat (b.take 16)) fun x => strictly (ghashMul 128 x h 0) fun y => ghash h n (b.drop 16) y

/-- Zeros that fill the last block of 16 bytes. -/
def padTo16 (b : Bytes) : Bytes := b ++ zeros ((16 - b.length % 16) % 16)

/-- The counter block of a 12-byte IV. -/
def gcmCtr (iv : Bytes) (i : Nat) : List Nat := natsOf (fit 12 iv ++ beBytes 4 i)

/-- The key stream on a string: block `i` and those after it. -/
def gcmStream (ks : List (List Nat)) (iv : Bytes) : Nat → Nat → Bytes → Bytes
  | 0, _, _ => []
  | n + 1, i, b =>
    if b.isEmpty then []
    else bytesOfNats (xorL (natsOf (b.take 16)) (aesBlock ks (gcmCtr iv i))) ++ gcmStream ks iv n (i + 1) (b.drop 16)

/-- Encrypt or decrypt: the two are the same. -/
def gcmCrypt (key iv b : Bytes) : Bytes := gcmStream (aesKeys (fit 32 key)) iv (b.length / 16 + 1) 2 b

/-- The tag of additional data and ciphertext. -/
def gcmTag (key iv aad ct : Bytes) : Bytes :=
  let ks := aesKeys (fit 32 key)
  let h := natOfBlock (aesBlock ks (List.replicate 16 0))
  let d := padTo16 aad ++ padTo16 ct ++ beBytes 8 (8 * aad.length) ++ beBytes 8 (8 * ct.length)
  strictly h fun h => strictly (ghash h (d.length / 16) d 0) fun s => bytesOfNats (xorL (natsOf (beBytes 16 s)) (aesBlock ks (gcmCtr iv 1)))

/-- AES-256-GCM: the ciphertext, then the 16-byte tag. -/
def gcmSeal (key iv aad pt : Bytes) : Bytes :=
  let c := gcmCrypt key iv pt
  c ++ gcmTag key iv aad c

/-- The plaintext, where the tag verifies. -/
def gcmOpen (key iv aad b : Bytes) : Option Bytes :=
  let c := b.take (b.length - 16)
  if b.length < 16 ∨ gcmTag key iv aad c ≠ b.drop (b.length - 16) then none else some (gcmCrypt key iv c)

/-! ## P-256 -/

def ecP : Nat := 0xFFFFFFFF00000001000000000000000000000000FFFFFFFFFFFFFFFFFFFFFFFF
/-- The order of P-256. -/
def p256n : Nat := 0xFFFFFFFF00000000FFFFFFFFFFFFFFFFBCE6FAADA7179E84F3B9CAC2FC632551
def ecB : Nat := 0x5AC635D8AA3A93E7B3EBBD55769886BC651D06B0CC53B0F63BCE3C3E27D2604B

/-- A point in Jacobian coordinates; z = 0 is the point at infinity. -/
structure EcPt where
  x : Nat
  y : Nat
  z : Nat
  deriving DecidableEq, Repr

def EcPt.inf : EcPt := ⟨1, 1, 0⟩
def EcPt.base : EcPt :=
  ⟨0x6B17D1F2E12C4247F8BCE6E563A440F277037D812DEB33A0F4A13945D898C296, 0x4FE342E2FE1A7F9B8EE7EB4A7C0F9E162BCE33576B315ECECBB6406837BF51F5, 1⟩

/-- A point made of numerals. -/
def EcPt.mk' (x y z : Nat) : EcPt := strictly x fun x => strictly y fun y => strictly z fun z => ⟨x, y, z⟩

/-- Difference modulo m. -/
def subMod (a b m : Nat) : Nat := (a + (m - b % m)) % m

def EcPt.double (a : EcPt) : EcPt :=
  strictly (a.z * a.z % ecP) fun d => strictly (a.y * a.y % ecP) fun g => strictly (a.x * g % ecP) fun b =>
    strictly (3 * subMod a.x d ecP * (a.x + d) % ecP) fun al =>
      strictly (subMod (al * al) (8 * b) ecP) fun x3 =>
        EcPt.mk' x3 (subMod (al * subMod (4 * b) x3 ecP) (8 * g * g) ecP) (subMod ((a.y + a.z) * (a.y + a.z)) (g + d) ecP)

def EcPt.add (a b : EcPt) : EcPt :=
  if a.z = 0 then b
  else if b.z = 0 then a
  else
    strictly (a.z * a.z % ecP) fun za => strictly (b.z * b.z % ecP) fun zb =>
      strictly (a.x * zb % ecP) fun u1 => strictly (subMod (b.x * za) u1 ecP) fun h =>
        strictly (a.y * b.z * zb % ecP) fun s1 => strictly (subMod (b.y * a.z * za) s1 ecP) fun r =>
          if h = 0 then (if r = 0 then a.double else EcPt.inf)
          else
            strictly (h * h % ecP) fun hh => strictly (h * hh % ecP) fun h3 => strictly (u1 * hh % ecP) fun v =>
              strictly (subMod (r * r) (h3 + 2 * v) ecP) fun x3 =>
                EcPt.mk' x3 (subMod (r * subMod v x3 ecP) (s1 * h3) ecP) (a.z * b.z * h % ecP)

/-- The multiple of a point by the top bits of a number, `n` bits of which are left. -/
def EcPt.mulGo (p : EcPt) (k : Nat) : Nat → EcPt → EcPt
  | 0, a => a
  | n + 1, a => EcPt.mulGo p k n (if k.testBit n then a.double.add p else a.double)

def EcPt.mul (p : EcPt) (k : Nat) : EcPt := EcPt.mulGo p k 256 EcPt.inf

/-- Powers modulo m, by the bits of the exponent. -/
def powMod (a m k : Nat) : Nat → Nat → Nat
  | 0, r => r
  | n + 1, r => strictly (if k.testBit n then r * r % m * a % m else r * r % m) fun r => powMod a m k n r

/-- The inverse modulo a prime. -/
def invMod (a m : Nat) : Nat := powMod (a % m) m (m - 2) 256 1

/-- The affine coordinates of a point. -/
def EcPt.affine (p : EcPt) : Nat × Nat :=
  strictly (invMod p.z ecP) fun i => strictly (i * i % ecP) fun i2 => (p.x * i2 % ecP, p.y * i2 % ecP * i % ecP)

/-- The point of a 64-byte public key, where it lies on the curve. -/
def ecPoint (b : Bytes) : Option EcPt :=
  let x := beNat (b.take 32)
  let y := beNat ((b.drop 32).take 32)
  if x < ecP ∧ y < ecP ∧ y * y % ecP = subMod (x * x * x + ecB) (3 * x) ecP then some ⟨x, y, 1⟩ else none

/-- The public key of a private key: X then Y, 32 bytes each. -/
def ecPub (priv : Bytes) : Bytes :=
  let q := (EcPt.base.mul (beNat priv)).affine
  beBytes 32 q.1 ++ beBytes 32 q.2

/-- ECDH: the X coordinate of the shared point. A public key that lies on no point of the curve has no shared point, and the spec states no result (free). -/
def ecdh (priv pub : Bytes) : Bytes :=
  match ecPoint pub with
  | some p => beBytes 32 (p.mul (beNat priv)).affine.1
  | none => Config.ecdhOff priv pub

/-- The numbers r and s of an ECDSA signature over a hash with a per-message number. -/
def ecSignWith (d z k : Nat) : Nat × Nat :=
  strictly ((EcPt.base.mul k).affine.1 % p256n) fun r => (r, invMod k p256n * ((z + r * d) % p256n) % p256n)

/-- ECDSA under a private key over a hash, as r then s. The per-message number is free: the spec names no way of forming it, and R407 that it takes no fresh randomness. -/
def ecSign (priv hash : Bytes) : Bytes :=
  let q := ecSignWith (beNat priv) (beNat hash) (1 + Config.ecNonce priv hash % (p256n - 1))
  beBytes 32 q.1 ++ beBytes 32 q.2

/-- Whether a signature over a hash verifies under a public key. -/
def ecVerify (pub hash sig : Bytes) : Bool :=
  match ecPoint pub with
  | none => false
  | some q =>
    let r := beNat (sig.take 32)
    let s := beNat (sig.drop 32)
    if sig.length ≠ 64 ∨ r = 0 ∨ s = 0 ∨ p256n ≤ r ∨ p256n ≤ s then false
    else
      strictly (invMod s p256n) fun w =>
        let p := (EcPt.base.mul (beNat hash % p256n * w % p256n)).add (q.mul (r * w % p256n))
        p.z != 0 && p.affine.1 % p256n == r

end Sys2Proof.Machine
end

