-- ==== Sys2Proof/Machine/Num.lean ====
section
/-! DEFINITION. Exact numbers, the element formats and rounding (R31 to R37, R48 to R51). -/

namespace Sys2Proof.Machine

open Sys2Proof

/-- A value of a number format: `± m × 2 ^ e` exactly, an infinity, or NaN. -/
inductive Num where
  | fin (neg : Bool) (m : Nat) (e : Int)
  | inf (neg : Bool)
  | nan
  deriving DecidableEq, Repr

/-- A power of two of a natural exponent, from an integer that is not negative. -/
def p2 (e : Int) : Nat := 2 ^ e.toNat

def sgnMul (neg : Bool) (m : Nat) : Int := if neg then -(m : Int) else (m : Int)

/-- The exact sum (IEEE 754 signs of zero under RNE; R37). -/
def Num.add : Num → Num → Num
  | .nan, _ => .nan
  | _, .nan => .nan
  | .inf a, .inf b => if a = b then .inf a else .nan
  | .inf a, .fin _ _ _ => .inf a
  | .fin _ _ _, .inf b => .inf b
  | .fin a m e, .fin b n f =>
    let q := min e f
    let v := sgnMul a m * p2 (e - q) + sgnMul b n * p2 (f - q)
    if v = 0 then .fin (a && b) 0 0 else .fin (decide (v < 0)) v.natAbs q

def Num.neg : Num → Num
  | .fin a m e => .fin (!a) m e
  | .inf a => .inf !a
  | .nan => .nan

/-- The exact product. -/
def Num.mul : Num → Num → Num
  | .nan, _ => .nan
  | _, .nan => .nan
  | .inf a, .inf b => .inf (xor a b)
  | .inf a, .fin b n _ => if n = 0 then .nan else .inf (xor a b)
  | .fin a m _, .inf b => if m = 0 then .nan else .inf (xor a b)
  | .fin a m e, .fin b n f => .fin (xor a b) (m * n) (e + f)

def Num.isZero : Num → Bool
  | .fin _ m _ => m == 0
  | _ => false

def Num.isFin : Num → Bool
  | .fin _ _ _ => true
  | _ => false

/-- Multiplied by a power of two. -/
def Num.scale : Num → Int → Num
  | .fin a m e, k => .fin a m (e + k)
  | x, _ => x

/-- Whether `m × 2 ^ e ≤ n × 2 ^ f`. -/
def magLe (m : Nat) (e : Int) (n : Nat) (f : Int) : Bool :=
  let q := min e f
  decide (m * p2 (e - q) ≤ n * p2 (f - q))

/-- Whether one number is less than another; false when either is NaN. -/
def Num.lt : Num → Num → Bool
  | .nan, _ => false
  | _, .nan => false
  | .inf a, .inf b => a && !b
  | .inf a, .fin _ _ _ => a
  | .fin _ _ _, .inf b => !b
  | .fin a m e, .fin b n f =>
    let q := min e f
    decide (sgnMul a m * p2 (e - q) < sgnMul b n * p2 (f - q))

/-- Rounding modes by the `conv` code (R135): RNE, SR, RTZ. -/
abbrev rmRNE : Nat := 0
abbrev rmSR : Nat := 1
abbrev rmRTZ : Nat := 2

/-- A magnitude `m × 2 ^ e` as a count of `2 ^ q`, rounded (rounding modes of R49, R51); `r` is the 16-bit random value of SR. -/
def roundMag (mode r m : Nat) (e q : Int) : Nat :=
  if q ≤ e then m * p2 (e - q)
  else
    let d := (q - e).toNat
    let k := m / 2 ^ d
    let rest := m % 2 ^ d
    if mode = rmSR then
      if 16 ≤ d then (m + r % 65536 * 2 ^ (d - 16)) / 2 ^ d else (m + r % 65536 / 2 ^ (16 - d)) / 2 ^ d
    else if mode = rmRTZ then k
    else if 2 ^ d < 2 * rest ∨ (2 * rest = 2 ^ d ∧ k % 2 = 1) then k + 1 else k

/-- A binary floating-point format: exponent and mantissa bits, bias, and which codes are special: 0 none, 1 IEEE, 2 the one NaN of E4M3 (R34). -/
structure Fp where
  eb : Nat
  mb : Nat
  bias : Nat
  kind : Nat
  deriving DecidableEq, Repr

def fp32 : Fp := ⟨8, 23, 127, 1⟩
def bf16 : Fp := ⟨8, 7, 127, 1⟩
def fp16 : Fp := ⟨5, 10, 15, 1⟩
def e4m3 : Fp := ⟨4, 3, 7, 2⟩
def e5m2 : Fp := ⟨5, 2, 15, 1⟩
def e2m3 : Fp := ⟨2, 3, 1, 0⟩
def e3m2 : Fp := ⟨3, 2, 3, 0⟩
def e2m1 : Fp := ⟨2, 1, 1, 0⟩

/-- The value of a code (R34, R37: subnormals are honoured). -/
def Fp.dec (f : Fp) (v : Nat) : Num :=
  let neg := bit v (f.eb + f.mb)
  let x := bits v f.mb f.eb
  let m := v % 2 ^ f.mb
  if f.kind = 1 ∧ x = 2 ^ f.eb - 1 then (if m = 0 then .inf neg else .nan)
  else if f.kind = 2 ∧ x = 2 ^ f.eb - 1 ∧ m = 2 ^ f.mb - 1 then .nan
  else if x = 0 then .fin neg m (1 - (f.bias : Int) - f.mb)
  else .fin neg (2 ^ f.mb + m) ((x : Int) - f.bias - f.mb)

/-- The grid exponent of a format at a magnitude that is not zero: subnormals keep the spacing of the smallest normal. -/
def Fp.grid (f : Fp) (m : Nat) (e : Int) : Int := max (e + Nat.log2 m) (1 - (f.bias : Int)) - f.mb

/-- A magnitude rounded to the grid as a code without sign; codes past the largest finite one stand for overflow. -/
def Fp.mag (f : Fp) (mode r m : Nat) (e : Int) : Nat :=
  if m = 0 then 0
  else
    let q := f.grid m e
    (q - (1 - (f.bias : Int) - f.mb)).toNat * 2 ^ f.mb + roundMag mode r m e q

/-- The code of +Inf in an IEEE format. -/
def Fp.infCode (f : Fp) : Nat := (2 ^ f.eb - 1) * 2 ^ f.mb

def Fp.sign (f : Fp) (neg : Bool) (c : Nat) : Nat := c + ofBool neg * 2 ^ (f.eb + f.mb)

/-- Some NaN of an IEEE format, picked by a free value: the spec gives no payload. -/
def Fp.nanCode (f : Fp) (v : Nat) : Nat := f.sign (bit v 0) (f.infCode + 1 + v / 2 % (2 ^ f.mb - 1))

/-- The code of a number in an IEEE format under a rounding mode: overflow follows IEEE 754, and SR gives ±Inf (R49). -/
def Fp.enc (f : Fp) (mode r nanV : Nat) : Num → Nat
  | .nan => f.nanCode nanV
  | .inf a => f.sign a f.infCode
  | .fin a m e =>
    let c := f.mag mode r m e
    f.sign a (if c < f.infCode then c else if mode = rmRTZ then f.infCode - 1 else f.infCode)

/-- Rounded to nearest-even in FP32; an overflow becomes an infinity. -/
def Num.r32 : Num → Num
  | .fin a m e =>
    let c := fp32.mag rmRNE 0 m e
    if c < fp32.infCode then fp32.dec (fp32.sign a c) else .inf a
  | x => x

/-- An integer as a number. -/
def Num.ofInt (i : Int) : Num := .fin (decide (i < 0)) i.natAbs 0

/-- The value of an element code before scaling (R34 to R36). -/
def elemNum (f c : Nat) : Num :=
  if f = 0x00 then fp32.dec c
  else if f = 0x01 then bf16.dec c
  else if f = 0x02 then fp16.dec c
  else if f = 0x03 ∨ f = 0x08 then e4m3.dec c
  else if f = 0x04 ∨ f = 0x09 then e5m2.dec c
  else if f = 0x05 then .ofInt (sext c 8)
  else if f = 0x06 ∨ f = 0x0F then .ofInt (sext c 4)
  else if f = 0x07 then .ofInt (sext c 2)
  else if f = 0x0A then e2m3.dec c
  else if f = 0x0B then e3m2.dec c
  else if f = 0x0C ∨ f = 0x0E then e2m1.dec c
  else if f = 0x0D then (Num.ofInt (sext c 8)).scale (-6)
  else if f = 0x10 then (if c = 2 then .fin false 0 0 else .ofInt (sext c 2))
  else .ofInt (sext c 32)

/-- The floating-point element of a target format, if it has one. -/
def elemFp (f : Nat) : Option Fp :=
  if f = 0x00 then some fp32
  else if f = 0x01 then some bf16
  else if f = 0x02 then some fp16
  else if f = 0x03 ∨ f = 0x08 then some e4m3
  else if f = 0x04 ∨ f = 0x09 then some e5m2
  else if f = 0x0A then some e2m3
  else if f = 0x0B then some e3m2
  else if f = 0x0C ∨ f = 0x0E then some e2m1
  else none

/-- The exponent of the unit of an integer element: MXINT8 counts in 2^−6 (R31). -/
def intUnit (f : Nat) : Int := if f = 0x0D then -6 else 0

/-- Vmax of a target element as `m × 2 ^ e` (R46, R48). -/
def vmaxOf (f : Nat) : Nat × Int :=
  if f = 0x03 ∨ f = 0x08 then (7, 6)
  else if f = 0x04 ∨ f = 0x09 then (7, 13)
  else if f = 0x05 then (127, 0)
  else if f = 0x06 ∨ f = 0x0F then (7, 0)
  else if f = 0x07 ∨ f = 0x10 then (1, 0)
  else if f = 0x0A then (15, -1)
  else if f = 0x0B then (7, 2)
  else if f = 0x0C ∨ f = 0x0E then (3, 1)
  else if f = 0x0D then (127, -6)
  else (2 ^ 31 - 1, 0)

/-- floor(log2) of a magnitude that is not zero. -/
def flog2 (m : Nat) (e : Int) : Int := e + Nat.log2 m

/-- What the quantizer emits for one element: its code, and whether it counts as a saturation or a flush (R49). -/
structure QElem where
  code : Nat
  sat : Bool
  ftz : Bool
  deriving DecidableEq, Repr

/-- The magnitude code of Vmax in a target element. -/
def vmaxCode (f : Nat) : Nat :=
  match elemFp f with
  | some p => p.mag rmRNE 0 (vmaxOf f).1 (vmaxOf f).2
  | none => (vmaxOf f).1

/-- A magnitude code with a sign: sign bit for floating-point elements, two's complement for integers. -/
def signCode (f : Nat) (neg : Bool) (c : Nat) : Nat :=
  match elemFp f with
  | some p => p.sign neg c
  | none => if neg then ofInt (fmtBitsOf f) (-(c : Int)) else c
where
  /-- Bits of an integer element. -/
  fmtBitsOf (f : Nat) : Nat :=
    if f = 0x05 ∨ f = 0x0D then 8 else if f = 0x06 ∨ f = 0x0F then 4 else if f = 0x07 ∨ f = 0x10 then 2 else 32

/-- A source of −0 becomes code 0 (DESIGN CHOICE). Quantize one finite value, already divided by its scale factor, to a saturating element (R48, R49, R51): a magnitude above Vmax, as it stands or after
rounding, is emitted as Vmax (DEDUCED: R49 and the last words of R51). -/
def quantElem (f mode r : Nat) (neg : Bool) (m : Nat) (e : Int) : QElem :=
  if m = 0 then ⟨0, false, false⟩
  else
    let v := vmaxOf f
    let c := match elemFp f with
      | some p => p.mag mode r m e
      | none => roundMag mode r m e (intUnit f)
    if !magLe m e v.1 v.2 ∨ vmaxCode f < c then ⟨signCode f neg (vmaxCode f), true, false⟩
    else if c = 0 then ⟨0, false, true⟩
    else ⟨signCode f neg c, false, false⟩

end Sys2Proof.Machine
end

