-- ==== Sys2Proof/Machine/Types.lean ====
section
/-! DEFINITION. The types of the object dictionary (R445-R449). -/

namespace Sys2Proof.Machine

/-- The type column of a dictionary object (R446). -/
inductive ObjTy where
  | u8 | u16 | u32 | u64 | i16
  | oct (n : Nat)
  | octv (a b : Nat)
  deriving DecidableEq, Repr

/-- The access of one role to an object (R447). -/
inductive Acc where
  | no | r | w | rw
  deriving DecidableEq, Repr

/-- The values a write may store: the range stated in the object's row. -/
inductive ObjRng where
  | any
  | range (lo hi : Nat)
  | rangeOr (lo hi x : Nat)
  | align (n : Nat)
  | pow2 (lo hi : Nat)
  | mask (m : Nat)
  deriving DecidableEq, Repr

/-- An integer object: its number as a key, and its default. -/
structure Obj where
  key : Nat
  dflt : Nat
  deriving DecidableEq, Repr

/-- A byte-string object: its number as a key, and its default. -/
structure Oct where
  key : Nat
  dflt : Bytes
  deriving DecidableEq, Repr

/-- One row of a dictionary table: entries `base + stride * i + j` for `i < outer`, `j < inner`, subs `subLo` to `subHi`;
the access of Observer, Tenant, Operator, Custodian and Steward; persistence, default and range. -/
structure DictRow where
  area : Nat
  base : Nat
  outer : Nat
  stride : Nat
  inner : Nat
  subLo : Nat
  subHi : Nat
  ty : ObjTy
  obs : Acc
  ten : Acc
  op : Acc
  cus : Acc
  stw : Acc
  pers : Bool
  dflt : Nat
  rng : ObjRng
  deriving DecidableEq, Repr

end Sys2Proof.Machine
end

