-- ==== Sys2Proof/Machine/Objects.lean ====
section
/-! DEFINITION. The object dictionary: one named object for every row of the object tables of spec/ (R62, R104, R147, R184, R211, R247, R279,
R312, R344, R380, R404, R430, R461, R462, R463, R487, R502), and the dictionary as a table of rows that READ, WRITE and NEXT walk (R445-R449). -/

namespace Sys2Proof.Machine

/-- The number `AA:EEEE.SS` of an object as one key (R445). -/
def objKey (area entry sub : Nat) : Nat := area * 16777216 + entry * 256 + sub

/-- The area, entry and sub of an object's key. -/
def keyArea (k : Nat) : Nat := k / 16777216
def keyEntry (k : Nat) : Nat := k / 256 % 65536
def keySub (k : Nat) : Nat := k % 256

/-- 08:0020.00 `quiesce_grace_us`, R29. -/
def Obj.quiesceGraceUs : Obj := ⟨objKey 0x08 0x0020 0, 1000⟩
/-- 10:0200.00 `quant_sat_count`, R62. -/
def Obj.quantSatCount : Obj := ⟨objKey 0x10 0x0200 0, 0⟩
/-- 10:0201.00 `quant_ftz_count`, R62. -/
def Obj.quantFtzCount : Obj := ⟨objKey 0x10 0x0201 0, 0⟩
/-- 10:0202.00 `quant_nonfinite_blocks`, R62. -/
def Obj.quantNonfiniteBlocks : Obj := ⟨objKey 0x10 0x0202 0, 0⟩
/-- 10:0203.00 `esc_blocks`, R62. -/
def Obj.escBlocks : Obj := ⟨objKey 0x10 0x0203 0, 0⟩
/-- 10:0204.00 `esc_suppressed`, R62. -/
def Obj.escSuppressed : Obj := ⟨objKey 0x10 0x0204 0, 0⟩
/-- 10:0205.00 `acc_overflow_count`, R62. -/
def Obj.accOverflowCount : Obj := ⟨objKey 0x10 0x0205 0, 0⟩
/-- 10:0206.00 `shadow_samples`, R62. -/
def Obj.shadowSamples : Obj := ⟨objKey 0x10 0x0206 0, 0⟩
/-- 10:0207.00 `shadow_drift`, R62. -/
def Obj.shadowDrift : Obj := ⟨objKey 0x10 0x0207 0, 0⟩
/-- 10:0208.00 `shadow_skipped`, R62. -/
def Obj.shadowSkipped : Obj := ⟨objKey 0x10 0x0208 0, 0⟩
/-- 10:0210.00 `esc_sat_threshold`, R62. -/
def Obj.escSatThreshold : Obj := ⟨objKey 0x10 0x0210 0, 0⟩
/-- 10:0211.00 `esc_ftz_threshold`, R62. -/
def Obj.escFtzThreshold : Obj := ⟨objKey 0x10 0x0211 0, 12⟩
/-- 10:0212.00 `shadow_period_log2`, R62. -/
def Obj.shadowPeriodLog2 : Obj := ⟨objKey 0x10 0x0212 0, 12⟩
/-- 10:0213.00 `shadow_drift_limit`, R62. -/
def Obj.shadowDriftLimit : Obj := ⟨objKey 0x10 0x0213 0, 4⟩
/-- 10:0000.00 `tile_count`, R104. -/
def Obj.tileCount : Obj := ⟨objKey 0x10 0x0000 0, 1920⟩
/-- 10:0020.00–.03 `tile_clock_mhz`, R104. -/
def Obj.tileClockMhz (sub : Nat) : Obj := ⟨objKey 0x10 0x0020 sub, 600⟩
/-- 10:0021.00 `tile_clock_floor_mhz`, R104. -/
def Obj.tileClockFloorMhz : Obj := ⟨objKey 0x10 0x0021 0, 600⟩
/-- 10:0030.00 `zero_skip_enable`, R104. -/
def Obj.zeroSkipEnable : Obj := ⟨objKey 0x10 0x0030 0, 1⟩
/-- 10:0031.00 `sram_row_ce_limit`, R104. -/
def Obj.sramRowCeLimit : Obj := ⟨objKey 0x10 0x0031 0, 4⟩
/-- 10:0040.00–.03 `spare_tiles_free`, R104. -/
def Obj.spareTilesFree (sub : Nat) : Obj := ⟨objKey 0x10 0x0040 sub, 32⟩
/-- 10:0041.00 `sram_spare_rows_free`, R104. -/
def Obj.sramSpareRowsFree : Obj := ⟨objKey 0x10 0x0041 0, 491520⟩
/-- 10:0050.00 `sram_ce_count`, R104. -/
def Obj.sramCeCount : Obj := ⟨objKey 0x10 0x0050 0, 0⟩
/-- 10:0051.00 `sram_ue_count`, R104. -/
def Obj.sramUeCount : Obj := ⟨objKey 0x10 0x0051 0, 0⟩
/-- 10:0052.00 `zero_skip_segments`, R104. -/
def Obj.zeroSkipSegments : Obj := ⟨objKey 0x10 0x0052 0, 0⟩
/-- 10:(4000+n).00 `tile_state`, R104. -/
def Obj.tileState (n : Nat) : Obj := ⟨objKey 0x10 (0x4000 + n) 0, 0x01⟩
/-- 10:(4000+n).01 `tile_control`, R104 (the spec gives no default). -/
def Obj.tileControl (n : Nat) : Obj := ⟨objKey 0x10 (0x4000 + n) 1, 0x0⟩
/-- 10:(4000+n).02 `tile_site`, R104. -/
def Obj.tileSite (n : Nat) : Obj := ⟨objKey 0x10 (0x4000 + n) 2, 512 * (n / 480) + 32 * (n % 480 % 16) + n % 480 / 16⟩
/-- 10:(4000+n).03 `tile_busy_cycles`, R104. -/
def Obj.tileBusyCycles (n : Nat) : Obj := ⟨objKey 0x10 (0x4000 + n) 3, 0⟩
/-- 10:(4000+n).04 `tile_drift`, R104. -/
def Obj.tileDrift (n : Nat) : Obj := ⟨objKey 0x10 (0x4000 + n) 4, 0⟩
/-- 10:(4000+n).05 `tile_sram_ce`, R104. -/
def Obj.tileSramCe (n : Nat) : Obj := ⟨objKey 0x10 (0x4000 + n) 5, 0⟩
/-- 10:(4000+n).06 `tile_rows_spared`, R104. -/
def Obj.tileRowsSpared (n : Nat) : Obj := ⟨objKey 0x10 (0x4000 + n) 6, 0⟩
/-- 10:(5000+s).00 `site_state`, R104. -/
def Obj.siteState (s : Nat) : Obj := ⟨objKey 0x10 (0x5000 + s) 0, if s % 512 < 480 then 1 else 6⟩
/-- 10:(5000+s).01 `site_logical`, R104. -/
def Obj.siteLogical (s : Nat) : Obj := ⟨objKey 0x10 (0x5000 + s) 1, if s % 512 < 480 then 480 * (s / 512) + s % 512 else 0xFFFF⟩
/-- 18:0000.00 `pool_entries`, R147. -/
def Obj.poolEntries : Obj := ⟨objKey 0x18 0x0000 0, 64⟩
/-- 18:0001.00 `tally_count`, R147. -/
def Obj.tallyCount : Obj := ⟨objKey 0x18 0x0001 0, 256⟩
/-- 18:0010.00 `task_budget_default_us`, R147. -/
def Obj.taskBudgetDefaultUs : Obj := ⟨objKey 0x18 0x0010 0, 10000⟩
/-- 18:0011.00 `task_budget_max_us`, R147. -/
def Obj.taskBudgetMaxUs : Obj := ⟨objKey 0x18 0x0011 0, 100000⟩
/-- 18:0012.00 `steal_enable`, R147. -/
def Obj.stealEnable : Obj := ⟨objKey 0x18 0x0012 0, 1⟩
/-- 18:0013.00 `steal_keep`, R147. -/
def Obj.stealKeep : Obj := ⟨objKey 0x18 0x0013 0, 1⟩
/-- 18:0014.00 `steal_poll_ns`, R147. -/
def Obj.stealPollNs : Obj := ⟨objKey 0x18 0x0014 0, 200⟩
/-- 18:0015.00 `post_wait_us`, R147. -/
def Obj.postWaitUs : Obj := ⟨objKey 0x18 0x0015 0, 10⟩
/-- 18:0020.00 `tasks_completed`, R147. -/
def Obj.tasksCompleted : Obj := ⟨objKey 0x18 0x0020 0, 0⟩
/-- 18:0021.00 `tasks_stolen`, R147. -/
def Obj.tasksStolen : Obj := ⟨objKey 0x18 0x0021 0, 0⟩
/-- 18:0022.00 `tasks_not_ok`, R147. -/
def Obj.tasksNotOk : Obj := ⟨objKey 0x18 0x0022 0, 0⟩
/-- 18:0023.00 `posts_timed_out`, R147. -/
def Obj.postsTimedOut : Obj := ⟨objKey 0x18 0x0023 0, 0⟩
/-- 18:0024.00 `tally_misdirected`, R147. -/
def Obj.tallyMisdirected : Obj := ⟨objKey 0x18 0x0024 0, 0⟩
/-- 18:0025.00 `watchdog_failures`, R147. -/
def Obj.watchdogFailures : Obj := ⟨objKey 0x18 0x0025 0, 0⟩
/-- 18:0100.00–.3F `jti_load`, R147 (the spec gives no default). -/
def Obj.jtiLoad (sub : Nat) : Obj := ⟨objKey 0x18 0x0100 sub, 0x0⟩
/-- 18:0101.00–.3F `jti_load_status`, R147. -/
def Obj.jtiLoadStatus (sub : Nat) : Obj := ⟨objKey 0x18 0x0101 sub, 0x0000⟩
/-- 18:(4000+n).00 `pool_used`, R147. -/
def Obj.poolUsed (n : Nat) : Obj := ⟨objKey 0x18 (0x4000 + n) 0, 0⟩
/-- 18:(4000+n).01 `pool_ready`, R147. -/
def Obj.poolReady (n : Nat) : Obj := ⟨objKey 0x18 (0x4000 + n) 1, 0⟩
/-- 18:(4000+n).02 `tallies_owned`, R147. -/
def Obj.talliesOwned (n : Nat) : Obj := ⟨objKey 0x18 (0x4000 + n) 2, 0⟩
/-- 18:(4000+n).03 `tasks_run`, R147. -/
def Obj.tasksRun (n : Nat) : Obj := ⟨objKey 0x18 (0x4000 + n) 3, 0⟩
/-- 18:(4000+n).04 `freeze_cause`, R147. -/
def Obj.freezeCause (n : Nat) : Obj := ⟨objKey 0x18 (0x4000 + n) 4, 0x00⟩
/-- 18:(4000+n).05 `freeze_ctx`, R147. -/
def Obj.freezeCtx (n : Nat) : Obj := ⟨objKey 0x18 (0x4000 + n) 5, 0⟩
/-- 18:(4000+n).06 `freeze_pc`, R147. -/
def Obj.freezePc (n : Nat) : Obj := ⟨objKey 0x18 (0x4000 + n) 6, 0⟩
/-- 18:(4000+n).07 `freeze_addr`, R147. -/
def Obj.freezeAddr (n : Nat) : Obj := ⟨objKey 0x18 (0x4000 + n) 7, 0⟩
/-- 18:(4000+n).08 `freeze_control`, R147 (the spec gives no default). -/
def Obj.freezeControl (n : Nat) : Obj := ⟨objKey 0x18 (0x4000 + n) 8, 0x0⟩
/-- 20:0000.00 `shallows_usable_gib`, R184. -/
def Obj.shallowsUsableGib : Obj := ⟨objKey 0x20 0x0000 0, 1080⟩
/-- 20:0001.00 `deeps_usable_gib`, R184. -/
def Obj.deepsUsableGib : Obj := ⟨objKey 0x20 0x0001 0, 480⟩
/-- 20:0010.00 `shallows_interleave`, R184. -/
def Obj.shallowsInterleave : Obj := ⟨objKey 0x20 0x0010 0, 0⟩
/-- 20:0011.00 `deeps_interleave`, R184. -/
def Obj.deepsInterleave : Obj := ⟨objKey 0x20 0x0011 0, 0⟩
/-- 20:0012.00 `interleave_in_force`, R184. -/
def Obj.interleaveInForce : Obj := ⟨objKey 0x20 0x0012 0, 0⟩
/-- 20:0020.00 `scrub_period_h`, R184. -/
def Obj.scrubPeriodH : Obj := ⟨objKey 0x20 0x0020 0, 24⟩
/-- 20:0021.00 `dram_ce_limit`, R184. -/
def Obj.dramCeLimit : Obj := ⟨objKey 0x20 0x0021 0, 256⟩
/-- 20:0022.00 `dram_ue_limit`, R184. -/
def Obj.dramUeLimit : Obj := ⟨objKey 0x20 0x0022 0, 2⟩
/-- 20:0023.00 `evac_share_pct`, R184. -/
def Obj.evacSharePct : Obj := ⟨objKey 0x20 0x0023 0, 25⟩
/-- 20:0030.00 `mem_ce_count`, R184. -/
def Obj.memCeCount : Obj := ⟨objKey 0x20 0x0030 0, 0⟩
/-- 20:0031.00 `mem_ue_count`, R184. -/
def Obj.memUeCount : Obj := ⟨objKey 0x20 0x0031 0, 0⟩
/-- 20:0032.00 `tc_miss_count`, R184. -/
def Obj.tcMissCount : Obj := ⟨objKey 0x20 0x0032 0, 0⟩
/-- 20:0033.00 `scrub_passes`, R184. -/
def Obj.scrubPasses : Obj := ⟨objKey 0x20 0x0033 0, 0⟩
/-- 20:0040.00–.01 `mem_free_mib`, R184. -/
def Obj.memFreeMib (sub : Nat) : Obj := ⟨objKey 0x20 0x0040 sub, if sub = 0 then 1105920 else 491520⟩
/-- 20:0041.00 `table_store_free`, R184. -/
def Obj.tableStoreFree : Obj := ⟨objKey 0x20 0x0041 0, 4096⟩
/-- 20:0100.00–.3F `page_map_cmd`, R184. -/
def Obj.pageMapCmd (sub : Nat) : Oct := ⟨objKey 0x20 0x0100 sub, List.replicate 32 0⟩
/-- 20:0101.00–.3F `page_map_status`, R184. -/
def Obj.pageMapStatus (sub : Nat) : Obj := ⟨objKey 0x20 0x0101 sub, 0x0000⟩
/-- 20:0102.00–.3F `mem_mapped_mib`, R184. -/
def Obj.memMappedMib (sub : Nat) : Obj := ⟨objKey 0x20 0x0102 sub, 0⟩
/-- 20:(4000+32s+k).00 `dram_state`, R184. -/
def Obj.dramState (s k : Nat) : Obj := ⟨objKey 0x20 (0x4000 + 32 * s + k) 0, if k < 16 then 1 else 6⟩
/-- 20:(4000+32s+k).01 `dram_logical`, R184. -/
def Obj.dramLogical (s k : Nat) : Obj := ⟨objKey 0x20 (0x4000 + 32 * s + k) 1, if k < 16 then k else 0xFF⟩
/-- 20:(4000+32s+k).02 `dram_control`, R184 (the spec gives no default). -/
def Obj.dramControl (s k : Nat) : Obj := ⟨objKey 0x20 (0x4000 + 32 * s + k) 2, 0x0⟩
/-- 20:(4000+32s+k).03 `evac_progress`, R184. -/
def Obj.evacProgress (s k : Nat) : Obj := ⟨objKey 0x20 (0x4000 + 32 * s + k) 3, 0xFF⟩
/-- 20:(4000+32s+k).04 `dram_ce_hour`, R184. -/
def Obj.dramCeHour (s k : Nat) : Obj := ⟨objKey 0x20 (0x4000 + 32 * s + k) 4, 0⟩
/-- 20:(4000+32s+k).05 `dram_ue_day`, R184. -/
def Obj.dramUeDay (s k : Nat) : Obj := ⟨objKey 0x20 (0x4000 + 32 * s + k) 5, 0⟩
/-- 20:(4000+32s+k).06 `dram_temp_c`, R184 (the spec gives no default). -/
def Obj.dramTempC (s k : Nat) : Obj := ⟨objKey 0x20 (0x4000 + 32 * s + k) 6, 0x8000⟩
/-- 28:0000.00 `te_channels`, R211. -/
def Obj.teChannels : Obj := ⟨objKey 0x28 0x0000 0, 64⟩
/-- 28:0001.00 `hte_channels`, R211. -/
def Obj.hteChannels : Obj := ⟨objKey 0x28 0x0001 0, 8⟩
/-- 28:0010.00 `migrate_wait_us`, R211. -/
def Obj.migrateWaitUs : Obj := ⟨objKey 0x28 0x0010 0, 1000⟩
/-- 28:0020.00 `te_bytes`, R211. -/
def Obj.teBytes : Obj := ⟨objKey 0x28 0x0020 0, 0⟩
/-- 28:0021.00 `te_desc_completed`, R211. -/
def Obj.teDescCompleted : Obj := ⟨objKey 0x28 0x0021 0, 0⟩
/-- 28:0022.00 `te_desc_not_ok`, R211. -/
def Obj.teDescNotOk : Obj := ⟨objKey 0x28 0x0022 0, 0⟩
/-- 28:0023.00 `migrations`, R211. -/
def Obj.migrations : Obj := ⟨objKey 0x28 0x0023 0, 0⟩
/-- 28:0024.00 `rdma_requests_refused`, R211. -/
def Obj.rdmaRequestsRefused : Obj := ⟨objKey 0x28 0x0024 0, 0⟩
/-- 28:0025.00 `rdma_retransmits`, R211. -/
def Obj.rdmaRetransmits : Obj := ⟨objKey 0x28 0x0025 0, 0⟩
/-- 28:0026.00 `te_retire_records_dropped`, R211. -/
def Obj.teRetireRecordsDropped : Obj := ⟨objKey 0x28 0x0026 0, 0⟩
/-- 28:(4000+c).00 `te_state`, R211. -/
def Obj.teState (c : Nat) : Obj := ⟨objKey 0x28 (0x4000 + c) 0, 0x03⟩
/-- 28:(4000+c).01 `te_control`, R211 (the spec gives no default). -/
def Obj.teControl (c : Nat) : Obj := ⟨objKey 0x28 (0x4000 + c) 1, 0x0⟩
/-- 28:(4000+c).02 `te_owner`, R211. -/
def Obj.teOwner (c : Nat) : Obj := ⟨objKey 0x28 (0x4000 + c) 2, if c < 64 ∧ c % 16 = 15 then 0 else 0xFF⟩
/-- 28:(4000+c).03 `te_sq_base`, R211. -/
def Obj.teSqBase (c : Nat) : Obj := ⟨objKey 0x28 (0x4000 + c) 3, 0⟩
/-- 28:(4000+c).04 `te_sq_entries`, R211. -/
def Obj.teSqEntries (c : Nat) : Obj := ⟨objKey 0x28 (0x4000 + c) 4, 16⟩
/-- 28:(4000+c).05 `te_sq_tail`, R211. -/
def Obj.teSqTail (c : Nat) : Obj := ⟨objKey 0x28 (0x4000 + c) 5, 0⟩
/-- 28:(4000+c).06 `te_sq_head`, R211. -/
def Obj.teSqHead (c : Nat) : Obj := ⟨objKey 0x28 (0x4000 + c) 6, 0⟩
/-- 28:(4000+c).07 `te_cq_base`, R211. -/
def Obj.teCqBase (c : Nat) : Obj := ⟨objKey 0x28 (0x4000 + c) 7, 0⟩
/-- 28:(4000+c).08 `te_cq_entries`, R211. -/
def Obj.teCqEntries (c : Nat) : Obj := ⟨objKey 0x28 (0x4000 + c) 8, 16⟩
/-- 28:(4000+c).09 `te_cq_head`, R211. -/
def Obj.teCqHead (c : Nat) : Obj := ⟨objKey 0x28 (0x4000 + c) 9, 0⟩
/-- 28:(4000+c).0A `te_cq_tail`, R211. -/
def Obj.teCqTail (c : Nat) : Obj := ⟨objKey 0x28 (0x4000 + c) 10, 0⟩
/-- 28:(4000+c).0B `te_freeze_addr`, R211. -/
def Obj.teFreezeAddr (c : Nat) : Obj := ⟨objKey 0x28 (0x4000 + c) 11, 0⟩
/-- 28:(4100+16h+q).00 `hte_qp`, R211. -/
def Obj.hteQp (h q : Nat) : Oct := ⟨objKey 0x28 (0x4100 + 16 * h + q) 0, List.replicate 32 0⟩
/-- 28:(4100+16h+q).01 `hte_qp_state`, R211. -/
def Obj.hteQpState (h q : Nat) : Obj := ⟨objKey 0x28 (0x4100 + 16 * h + q) 1, 0x00⟩
/-- 30:0000.00 `port_count`, R247. -/
def Obj.portCount : Obj := ⟨objKey 0x30 0x0000 0, 18⟩
/-- 30:0010.00 `retrain_interval_ms`, R247. -/
def Obj.retrainIntervalMs : Obj := ⟨objKey 0x30 0x0010 0, 100⟩
/-- 30:0011.00–.01 `lane_ber_limit`, R247. -/
def Obj.laneBerLimit (sub : Nat) : Obj := ⟨objKey 0x30 0x0011 sub, if sub = 0 then 7 else 5⟩
/-- 30:0012.00 `laser_bias_limit_ma`, R247. -/
def Obj.laserBiasLimitMa : Obj := ⟨objKey 0x30 0x0012 0, 90⟩
/-- 30:0020.00 `link_replays`, R247. -/
def Obj.linkReplays : Obj := ⟨objKey 0x30 0x0020 0, 0⟩
/-- 30:0021.00 `link_losses`, R247. -/
def Obj.linkLosses : Obj := ⟨objKey 0x30 0x0021 0, 0⟩
/-- 30:0022.00 `lane_substitutions`, R247. -/
def Obj.laneSubstitutions : Obj := ⟨objKey 0x30 0x0022 0, 0⟩
/-- 30:0023.00 `packets_salvaged`, R247. -/
def Obj.packetsSalvaged : Obj := ⟨objKey 0x30 0x0023 0, 0⟩
/-- 30:0024.00 `cl_packets_dropped`, R247. -/
def Obj.clPacketsDropped : Obj := ⟨objKey 0x30 0x0024 0, 0⟩
/-- 30:(4000+p).00 `port_state`, R247. -/
def Obj.portState (p : Nat) : Obj := ⟨objKey 0x30 (0x4000 + p) 0, 0x01⟩
/-- 30:(4000+p).01 `port_control`, R247 (the spec gives no default). -/
def Obj.portControl (p : Nat) : Obj := ⟨objKey 0x30 (0x4000 + p) 1, 0x0⟩
/-- 30:(4000+p).02 `link_state`, R247. -/
def Obj.linkState (p : Nat) : Obj := ⟨objKey 0x30 (0x4000 + p) 2, 0x00⟩
/-- 30:(4000+p).03 `far_end`, R247. -/
def Obj.farEnd (p : Nat) : Obj := ⟨objKey 0x30 (0x4000 + p) 3, 0xFFFFFFFF⟩
/-- 30:(4000+p).04 `spares_free`, R247. -/
def Obj.sparesFree (p : Nat) : Obj := ⟨objKey 0x30 (0x4000 + p) 4, 0x0A⟩
/-- 30:(4000+p).05 `fec_corrected`, R247. -/
def Obj.fecCorrected (p : Nat) : Obj := ⟨objKey 0x30 (0x4000 + p) 5, 0⟩
/-- 30:(4000+p).06 `fec_uncorrected`, R247. -/
def Obj.fecUncorrected (p : Nat) : Obj := ⟨objKey 0x30 (0x4000 + p) 6, 0⟩
/-- 30:(4000+p).07 `port_replays`, R247. -/
def Obj.portReplays (p : Nat) : Obj := ⟨objKey 0x30 (0x4000 + p) 7, 0⟩
/-- 30:(4100+32p+i).00–.01 `lane_state`, R247. -/
def Obj.laneState (p i sub : Nat) : Obj := ⟨objKey 0x30 (0x4100 + 32 * p + i) sub, if i < 16 then 1 else 6⟩
/-- 30:(4100+32p+i).02–.03 `lane_logical`, R247. -/
def Obj.laneLogical (p i sub : Nat) : Obj := ⟨objKey 0x30 (0x4100 + 32 * p + i) (2 + sub), if i < 16 then i else 0xFF⟩
/-- 30:(4100+32p+i).04 `lane_ber_est`, R247. -/
def Obj.laneBerEst (p i : Nat) : Obj := ⟨objKey 0x30 (0x4100 + 32 * p + i) 4, 0⟩
/-- 30:(4100+32p+i).05 `lane_eye_mv`, R247. -/
def Obj.laneEyeMv (p i : Nat) : Obj := ⟨objKey 0x30 (0x4100 + 32 * p + i) 5, 0⟩
/-- 30:(4100+32p+i).06 `lane_control`, R247 (the spec gives no default). -/
def Obj.laneControl (p i : Nat) : Obj := ⟨objKey 0x30 (0x4100 + 32 * p + i) 6, 0x0⟩
/-- 30:(4400+16e+j).00 `laser_state`, R247. -/
def Obj.laserState (e j : Nat) : Obj := ⟨objKey 0x30 (0x4400 + 16 * e + j) 0, if j < 9 then 1 else 6⟩
/-- 30:(4400+16e+j).01 `laser_bias`, R247. -/
def Obj.laserBias (e j : Nat) : Obj := ⟨objKey 0x30 (0x4400 + 16 * e + j) 1, 0⟩
/-- 30:(4800+l).00 `d2d_state`, R247. -/
def Obj.d2dState (l : Nat) : Obj := ⟨objKey 0x30 (0x4800 + l) 0, 0x01⟩
/-- 30:(4800+l).01 `d2d_lanes_repaired`, R247. -/
def Obj.d2dLanesRepaired (l : Nat) : Obj := ⟨objKey 0x30 (0x4800 + l) 1, 0⟩
/-- 30:(4800+l).02 `d2d_replays`, R247. -/
def Obj.d2dReplays (l : Nat) : Obj := ⟨objKey 0x30 (0x4800 + l) 2, 0⟩
/-- 38:0000.00 `router_ports`, R279. -/
def Obj.routerPorts : Obj := ⟨objKey 0x38 0x0000 0, 23⟩
/-- 38:0001.00 `rt_input_flits`, R279. -/
def Obj.rtInputFlits : Obj := ⟨objKey 0x38 0x0001 0, 1736⟩
/-- 38:0010.00 `own_catchment`, R279. -/
def Obj.ownCatchment : Obj := ⟨objKey 0x38 0x0010 0, 0xFFFF⟩
/-- 38:0011.00 `inject_parity`, R279. -/
def Obj.injectParity : Obj := ⟨objKey 0x38 0x0011 0, 0⟩
/-- 38:0012.00–.01 `route_bank_state`, R279. -/
def Obj.routeBankState (sub : Nat) : Obj := ⟨objKey 0x38 0x0012 sub, 0x00⟩
/-- 38:0013.00–.01 `route_bank_epoch`, R279. -/
def Obj.routeBankEpoch (sub : Nat) : Obj := ⟨objKey 0x38 0x0013 sub, 0⟩
/-- 38:0014.00–.01 `route_bank_resident`, R279. -/
def Obj.routeBankResident (sub : Nat) : Obj := ⟨objKey 0x38 0x0014 sub, 0⟩
/-- 38:0015.00 `route_load`, R279. -/
def Obj.routeLoad : Oct := ⟨objKey 0x38 0x0015 0, []⟩
/-- 38:0016.00 `route_read_sel`, R279. -/
def Obj.routeReadSel : Obj := ⟨objKey 0x38 0x0016 0, 0⟩
/-- 38:0017.00 `route_read_entry`, R279 (the spec gives no default). -/
def Obj.routeReadEntry : Obj := ⟨objKey 0x38 0x0017 0, 0x0⟩
/-- 38:0020.00 `adaptive_threshold_flits`, R279. -/
def Obj.adaptiveThresholdFlits : Obj := ⟨objKey 0x38 0x0020 0, 64⟩
/-- 38:0021.00 `rt_bank_ce_limit`, R279. -/
def Obj.rtBankCeLimit : Obj := ⟨objKey 0x38 0x0021 0, 16⟩
/-- 38:0030.00 `drop_malformed`, R279. -/
def Obj.dropMalformed : Obj := ⟨objKey 0x38 0x0030 0, 0⟩
/-- 38:0031.00 `drop_class`, R279. -/
def Obj.dropClass : Obj := ⟨objKey 0x38 0x0031 0, 0⟩
/-- 38:0032.00 `drop_hop_limit`, R279. -/
def Obj.dropHopLimit : Obj := ⟨objKey 0x38 0x0032 0, 0⟩
/-- 38:0033.00 `drop_no_route`, R279. -/
def Obj.dropNoRoute : Obj := ⟨objKey 0x38 0x0033 0, 0⟩
/-- 38:0034.00 `drop_epoch`, R279. -/
def Obj.dropEpoch : Obj := ⟨objKey 0x38 0x0034 0, 0⟩
/-- 38:0035.00 `drop_residence`, R279. -/
def Obj.dropResidence : Obj := ⟨objKey 0x38 0x0035 0, 0⟩
/-- 38:0036.00 `drop_buffer_error`, R279. -/
def Obj.dropBufferError : Obj := ⟨objKey 0x38 0x0036 0, 0⟩
/-- 38:0037.00 `mc_copies`, R279. -/
def Obj.mcCopies : Obj := ⟨objKey 0x38 0x0037 0, 0⟩
/-- 38:(4000+p).00 `rt_pkts_in`, R279. -/
def Obj.rtPktsIn (p : Nat) : Obj := ⟨objKey 0x38 (0x4000 + p) 0, 0⟩
/-- 38:(4000+p).01 `rt_pkts_out`, R279. -/
def Obj.rtPktsOut (p : Nat) : Obj := ⟨objKey 0x38 (0x4000 + p) 1, 0⟩
/-- 38:(4000+p).02 `rt_flits_in`, R279. -/
def Obj.rtFlitsIn (p : Nat) : Obj := ⟨objKey 0x38 (0x4000 + p) 2, 0⟩
/-- 38:(4000+p).03 `rt_flits_out`, R279. -/
def Obj.rtFlitsOut (p : Nat) : Obj := ⟨objKey 0x38 (0x4000 + p) 3, 0⟩
/-- 38:(4000+p).04 `rt_stall_clocks`, R279. -/
def Obj.rtStallClocks (p : Nat) : Obj := ⟨objKey 0x38 (0x4000 + p) 4, 0⟩
/-- 38:(4000+p).05 `rt_input_depth`, R279. -/
def Obj.rtInputDepth (p : Nat) : Obj := ⟨objKey 0x38 (0x4000 + p) 5, 0⟩
/-- 38:(4000+p).06 `rt_input_peak`, R279. -/
def Obj.rtInputPeak (p : Nat) : Obj := ⟨objKey 0x38 (0x4000 + p) 6, 0⟩
/-- 38:(4000+p).07 `rt_nonminimal`, R279. -/
def Obj.rtNonminimal (p : Nat) : Obj := ⟨objKey 0x38 (0x4000 + p) 7, 0⟩
/-- 38:(4000+p).08 `rt_admit`, R279. -/
def Obj.rtAdmit (p : Nat) : Obj := ⟨objKey 0x38 (0x4000 + p) 8, if p < 18 then 0 else 1⟩
/-- 38:(4000+p).09 `rt_class_depth`, R279. -/
def Obj.rtClassDepth (p : Nat) : Oct := ⟨objKey 0x38 (0x4000 + p) 9, List.replicate 10 0⟩
/-- 38:(4000+p).0A–.0E `rt_class_out`, R279. -/
def Obj.rtClassOut (p sub : Nat) : Obj := ⟨objKey 0x38 (0x4000 + p) (10 + sub), 0⟩
/-- 38:(4400+8p+b).00 `rt_bank_state`, R279. -/
def Obj.rtBankState (p b : Nat) : Obj := ⟨objKey 0x38 (0x4400 + 8 * p + b) 0, if b < 7 then 1 else 6⟩
/-- 38:(4400+8p+b).01 `rt_bank_ce`, R279. -/
def Obj.rtBankCe (p b : Nat) : Obj := ⟨objKey 0x38 (0x4400 + 8 * p + b) 1, 0⟩
/-- 40:0000.00 `ni_count`, R312. -/
def Obj.niCount : Obj := ⟨objKey 0x40 0x0000 0, 4⟩
/-- 40:0010.00 `ni_op_timeout_us`, R312. -/
def Obj.niOpTimeoutUs : Obj := ⟨objKey 0x40 0x0010 0, 2000⟩
/-- 40:0011.00 `cl_timeout_us`, R312. -/
def Obj.clTimeoutUs : Obj := ⟨objKey 0x40 0x0011 0, 1000⟩
/-- 40:0012.00 `cl_buffer_free_kib`, R312. -/
def Obj.clBufferFreeKib : Obj := ⟨objKey 0x40 0x0012 0, 16384⟩
/-- 40:0020.00 `rx_duplicates`, R312. -/
def Obj.rxDuplicates : Obj := ⟨objKey 0x40 0x0020 0, 0⟩
/-- 40:0021.00 `rx_last_early`, R312. -/
def Obj.rxLastEarly : Obj := ⟨objKey 0x40 0x0021 0, 0⟩
/-- 40:0022.00 `rx_check_fail`, R312. -/
def Obj.rxCheckFail : Obj := ⟨objKey 0x40 0x0022 0, 0⟩
/-- 40:0023.00 `rx_no_key`, R312. -/
def Obj.rxNoKey : Obj := ⟨objKey 0x40 0x0023 0, 0⟩
/-- 40:0024.00 `rx_retiring_drop`, R312. -/
def Obj.rxRetiringDrop : Obj := ⟨objKey 0x40 0x0024 0, 0⟩
/-- 40:0025.00 `tx_retire_drop`, R312. -/
def Obj.txRetireDrop : Obj := ⟨objKey 0x40 0x0025 0, 0⟩
/-- 40:0026.00 `rx_partial_expired`, R312. -/
def Obj.rxPartialExpired : Obj := ⟨objKey 0x40 0x0026 0, 0⟩
/-- 40:0027.00 `rx_window_refused`, R312. -/
def Obj.rxWindowRefused : Obj := ⟨objKey 0x40 0x0027 0, 0⟩
/-- 40:0028.00 `rx_disabled_drop`, R312. -/
def Obj.rxDisabledDrop : Obj := ⟨objKey 0x40 0x0028 0, 0⟩
/-- 40:0029.00 `cl_unexpected`, R312. -/
def Obj.clUnexpected : Obj := ⟨objKey 0x40 0x0029 0, 0⟩
/-- 40:002A.00 `dispatch_refused`, R312. -/
def Obj.dispatchRefused : Obj := ⟨objKey 0x40 0x002A 0, 0⟩
/-- 40:002B.00 `niq_retire_records_dropped`, R312. -/
def Obj.niqRetireRecordsDropped : Obj := ⟨objKey 0x40 0x002B 0, 0⟩
/-- 40:0100.00–.3F `ni_job`, R312. -/
def Obj.niJob (sub : Nat) : Obj := ⟨objKey 0x40 0x0100 sub, 0⟩
/-- 40:0101.00–.3F `ni_enc_required`, R312. -/
def Obj.niEncRequired (sub : Nat) : Obj := ⟨objKey 0x40 0x0101 sub, 0⟩
/-- 40:0102.00–.3F `rank_load`, R312. -/
def Obj.rankLoad (sub : Nat) : Oct := ⟨objKey 0x40 0x0102 sub, []⟩
/-- 40:0103.00–.3F `rank_read_sel`, R312. -/
def Obj.rankReadSel (sub : Nat) : Obj := ⟨objKey 0x40 0x0103 sub, 0⟩
/-- 40:0104.00–.3F `rank_read_entry`, R312 (the spec gives no default). -/
def Obj.rankReadEntry (sub : Nat) : Obj := ⟨objKey 0x40 0x0104 sub, 0x0⟩
/-- 40:0105.00–.3F `dispatch_load`, R312. -/
def Obj.dispatchLoad (sub : Nat) : Oct := ⟨objKey 0x40 0x0105 sub, []⟩
/-- 40:0106.00–.3F `landing_map`, R312. -/
def Obj.landingMap (sub : Nat) : Oct := ⟨objKey 0x40 0x0106 sub, List.replicate 64 0⟩
/-- 40:0107.00–.3F `key_slot_state`, R312. -/
def Obj.keySlotState (sub : Nat) : Oct := ⟨objKey 0x40 0x0107 sub, List.replicate 4 0⟩
/-- 40:0108.00–.3F `key_tx_slot`, R312. -/
def Obj.keyTxSlot (sub : Nat) : Obj := ⟨objKey 0x40 0x0108 sub, 0xFF⟩
/-- 40:0109.00–.3F `ni_outstanding`, R312. -/
def Obj.niOutstanding (sub : Nat) : Obj := ⟨objKey 0x40 0x0109 sub, 0⟩
/-- 40:010A.00–.3F `notify_base`, R312. -/
def Obj.notifyBase (sub : Nat) : Obj := ⟨objKey 0x40 0x010A sub, 0⟩
/-- 40:010B.00–.3F `notify_entries`, R312. -/
def Obj.notifyEntries (sub : Nat) : Obj := ⟨objKey 0x40 0x010B sub, 16⟩
/-- 40:010C.00–.3F `notify_head`, R312. -/
def Obj.notifyHead (sub : Nat) : Obj := ⟨objKey 0x40 0x010C sub, 0⟩
/-- 40:010D.00–.3F `notify_tail`, R312. -/
def Obj.notifyTail (sub : Nat) : Obj := ⟨objKey 0x40 0x010D sub, 0⟩
/-- 40:(4000+64i+c).00 `niq_state`, R312. -/
def Obj.niqState (i c : Nat) : Obj := ⟨objKey 0x40 (0x4000 + 64 * i + c) 0, 0x01⟩
/-- 40:(4000+64i+c).01 `niq_control`, R312 (the spec gives no default). -/
def Obj.niqControl (i c : Nat) : Obj := ⟨objKey 0x40 (0x4000 + 64 * i + c) 1, 0x0⟩
/-- 40:(4000+64i+c).02 `niq_sq_base`, R312. -/
def Obj.niqSqBase (i c : Nat) : Obj := ⟨objKey 0x40 (0x4000 + 64 * i + c) 2, 0⟩
/-- 40:(4000+64i+c).03 `niq_sq_entries`, R312. -/
def Obj.niqSqEntries (i c : Nat) : Obj := ⟨objKey 0x40 (0x4000 + 64 * i + c) 3, 16⟩
/-- 40:(4000+64i+c).04 `niq_sq_tail`, R312. -/
def Obj.niqSqTail (i c : Nat) : Obj := ⟨objKey 0x40 (0x4000 + 64 * i + c) 4, 0⟩
/-- 40:(4000+64i+c).05 `niq_sq_head`, R312. -/
def Obj.niqSqHead (i c : Nat) : Obj := ⟨objKey 0x40 (0x4000 + 64 * i + c) 5, 0⟩
/-- 40:(4000+64i+c).06 `niq_cq_base`, R312. -/
def Obj.niqCqBase (i c : Nat) : Obj := ⟨objKey 0x40 (0x4000 + 64 * i + c) 6, 0⟩
/-- 40:(4000+64i+c).07 `niq_cq_entries`, R312. -/
def Obj.niqCqEntries (i c : Nat) : Obj := ⟨objKey 0x40 (0x4000 + 64 * i + c) 7, 16⟩
/-- 40:(4000+64i+c).08 `niq_cq_head`, R312. -/
def Obj.niqCqHead (i c : Nat) : Obj := ⟨objKey 0x40 (0x4000 + 64 * i + c) 8, 0⟩
/-- 40:(4000+64i+c).09 `niq_cq_tail`, R312. -/
def Obj.niqCqTail (i c : Nat) : Obj := ⟨objKey 0x40 (0x4000 + 64 * i + c) 9, 0⟩
/-- 40:(4000+64i+c).0A `niq_freeze_addr`, R312. -/
def Obj.niqFreezeAddr (i c : Nat) : Obj := ⟨objKey 0x40 (0x4000 + 64 * i + c) 10, 0⟩
/-- 40:(4400+i).00 `ni_state`, R312. -/
def Obj.niState (i : Nat) : Obj := ⟨objKey 0x40 (0x4400 + i) 0, 0x01⟩
/-- 40:(4400+i).01 `ni_control`, R312 (the spec gives no default). -/
def Obj.niControl (i : Nat) : Obj := ⟨objKey 0x40 (0x4400 + i) 1, 0x0⟩
/-- 48:0000.00 `agent_state`, R344. -/
def Obj.agentState : Obj := ⟨objKey 0x48 0x0000 0, 0x00⟩
/-- 48:0001.00 `agent_term`, R344. -/
def Obj.agentTerm : Obj := ⟨objKey 0x48 0x0001 0, 0⟩
/-- 48:0002.00 `agent_wellhead`, R344. -/
def Obj.agentWellhead : Obj := ⟨objKey 0x48 0x0002 0, 0xFF⟩
/-- 48:0003.00 `agent_standby`, R344. -/
def Obj.agentStandby : Obj := ⟨objKey 0x48 0x0003 0, 0xFF⟩
/-- 48:0004.00 `agent_epoch`, R344. -/
def Obj.agentEpoch : Obj := ⟨objKey 0x48 0x0004 0, 0⟩
/-- 48:0010.00 `wh_eligible`, R344. -/
def Obj.whEligible : Obj := ⟨objKey 0x48 0x0010 0, 1⟩
/-- 48:0011.00 `probe_interval_us`, R344. -/
def Obj.probeIntervalUs : Obj := ⟨objKey 0x48 0x0011 0, 1000⟩
/-- 48:0012.00 `catchment_expected`, R344. -/
def Obj.catchmentExpected : Obj := ⟨objKey 0x48 0x0012 0, 64⟩
/-- 48:0020.00 `suspect_mask`, R344. -/
def Obj.suspectMask : Obj := ⟨objKey 0x48 0x0020 0, 0⟩
/-- 48:0021.00 `lost_mask`, R344. -/
def Obj.lostMask : Obj := ⟨objKey 0x48 0x0021 0, 0⟩
/-- 48:0030.00 `mg_rx_dropped`, R344. -/
def Obj.mgRxDropped : Obj := ⟨objKey 0x48 0x0030 0, 0⟩
/-- 48:0031.00 `mg_rx_bad`, R344. -/
def Obj.mgRxBad : Obj := ⟨objKey 0x48 0x0031 0, 0⟩
/-- 48:0032.00 `mg_foreign`, R344. -/
def Obj.mgForeign : Obj := ⟨objKey 0x48 0x0032 0, 0⟩
/-- 48:0033.00 `mg_stale_term`, R344. -/
def Obj.mgStaleTerm : Obj := ⟨objKey 0x48 0x0033 0, 0⟩
/-- 48:0034.00 `loss_notices_sent`, R344. -/
def Obj.lossNoticesSent : Obj := ⟨objKey 0x48 0x0034 0, 0⟩
/-- 48:0035.00 `slice_notices_dropped`, R344. -/
def Obj.sliceNoticesDropped : Obj := ⟨objKey 0x48 0x0035 0, 0⟩
/-- 48:(4000+p).00 `probe_verdict`, R344. -/
def Obj.probeVerdict (p : Nat) : Obj := ⟨objKey 0x48 (0x4000 + p) 0, 0x00⟩
/-- 48:(4000+p).01 `port_generation`, R344. -/
def Obj.portGeneration (p : Nat) : Obj := ⟨objKey 0x48 (0x4000 + p) 1, 0⟩
/-- 48:(4000+p).02 `probe_rtt_ns`, R344. -/
def Obj.probeRttNs (p : Nat) : Obj := ⟨objKey 0x48 (0x4000 + p) 2, 0⟩
/-- 4C:0000.00 `wh_position`, R344. -/
def Obj.whPosition : Obj := ⟨objKey 0x4C 0x0000 0, 0xFF⟩
/-- 4C:0001.00 `wh_term`, R344. -/
def Obj.whTerm : Obj := ⟨objKey 0x4C 0x0001 0, 0⟩
/-- 4C:0002.00 `wh_epoch`, R344. -/
def Obj.whEpoch : Obj := ⟨objKey 0x4C 0x0002 0, 0⟩
/-- 4C:0003.00 `wh_map_gen`, R344. -/
def Obj.whMapGen : Obj := ⟨objKey 0x4C 0x0003 0, 0⟩
/-- 4C:0004.00 `wh_quorum`, R344. -/
def Obj.whQuorum : Obj := ⟨objKey 0x4C 0x0004 0, 0⟩
/-- 4C:0010.00 `catchment_id`, R344. -/
def Obj.catchmentId : Obj := ⟨objKey 0x4C 0x0010 0, 0xFFFF⟩
/-- 4C:0011.00 `fence_reprobe_ms`, R344. -/
def Obj.fenceReprobeMs : Obj := ⟨objKey 0x4C 0x0011 0, 100⟩
/-- 4C:0012.00 `epoch_ready_timeout_ms`, R344. -/
def Obj.epochReadyTimeoutMs : Obj := ⟨objKey 0x4C 0x0012 0, 2⟩
/-- 4C:0020.00 `rail_map_load`, R344. -/
def Obj.railMapLoad : Oct := ⟨objKey 0x4C 0x0020 0, []⟩
/-- 4C:0021.00 `rail_map_commit`, R344 (the spec gives no default). -/
def Obj.railMapCommit : Obj := ⟨objKey 0x4C 0x0021 0, 0x0⟩
/-- 4C:0022.00 `rail_map_status`, R344. -/
def Obj.railMapStatus : Obj := ⟨objKey 0x4C 0x0022 0, 0x00⟩
/-- 4C:0023.00 `rail_map_version`, R344. -/
def Obj.railMapVersion : Obj := ⟨objKey 0x4C 0x0023 0, 0⟩
/-- 4C:0030.00 `slice_cmd`, R344. -/
def Obj.sliceCmd : Oct := ⟨objKey 0x4C 0x0030 0, List.replicate 16 0⟩
/-- 4C:0031.00 `slice_status`, R344. -/
def Obj.sliceStatus : Obj := ⟨objKey 0x4C 0x0031 0, 0x0000⟩
/-- 4C:0040.00 `epochs_committed`, R344. -/
def Obj.epochsCommitted : Obj := ⟨objKey 0x4C 0x0040 0, 0⟩
/-- 4C:0041.00 `epochs_abandoned`, R344. -/
def Obj.epochsAbandoned : Obj := ⟨objKey 0x4C 0x0041 0, 0⟩
/-- 4C:0042.00 `fences`, R344. -/
def Obj.fences : Obj := ⟨objKey 0x4C 0x0042 0, 0⟩
/-- 4C:(4000+q).00 `pos_state`, R344. -/
def Obj.posState (q : Nat) : Obj := ⟨objKey 0x4C (0x4000 + q) 0, 0x08⟩
/-- 4C:(4000+q).01 `pos_generation`, R344. -/
def Obj.posGeneration (q : Nat) : Obj := ⟨objKey 0x4C (0x4000 + q) 1, 0⟩
/-- 4C:(4000+q).02 `pos_verdicts`, R344. -/
def Obj.posVerdicts (q : Nat) : Obj := ⟨objKey 0x4C (0x4000 + q) 2, 0x00⟩
/-- 4C:(4000+q).03 `pos_usable_ports`, R344. -/
def Obj.posUsablePorts (q : Nat) : Obj := ⟨objKey 0x4C (0x4000 + q) 3, 0⟩
/-- 4C:(4000+q).04 `pos_port_fenced`, R344. -/
def Obj.posPortFenced (q : Nat) : Obj := ⟨objKey 0x4C (0x4000 + q) 4, 0⟩
/-- 4C:(6000+n).00 `slice_state`, R344. -/
def Obj.sliceState (n : Nat) : Obj := ⟨objKey 0x4C (0x6000 + n) 0, 0xFF⟩
/-- 4C:(6000+n).01 `slice_job`, R344. -/
def Obj.sliceJob (n : Nat) : Obj := ⟨objKey 0x4C (0x6000 + n) 1, 0⟩
/-- 4C:(6000+n).02 `slice_members`, R344. -/
def Obj.sliceMembers (n : Nat) : Obj := ⟨objKey 0x4C (0x6000 + n) 2, 0⟩
/-- 4C:(6000+n).03 `slice_lost`, R344. -/
def Obj.sliceLost (n : Nat) : Obj := ⟨objKey 0x4C (0x6000 + n) 3, 0⟩
/-- 4C:(6000+n).04 `slice_generation`, R344. -/
def Obj.sliceGeneration (n : Nat) : Obj := ⟨objKey 0x4C (0x6000 + n) 4, 0⟩
/-- 50:0000.00 `pkg_power_state`, R380. -/
def Obj.pkgPowerState : Obj := ⟨objKey 0x50 0x0000 0, 0x00⟩
/-- 50:0001.00 `pkg_power_w`, R380. -/
def Obj.pkgPowerW : Obj := ⟨objKey 0x50 0x0001 0, 0⟩
/-- 50:0002.00 `pkg_energy_mj`, R380. -/
def Obj.pkgEnergyMj : Obj := ⟨objKey 0x50 0x0002 0, 0⟩
/-- 50:0003.00 `cap_in_force_w`, R380. -/
def Obj.capInForceW : Obj := ⟨objKey 0x50 0x0003 0, 2600⟩
/-- 50:0004.00 `cap_reason`, R380. -/
def Obj.capReason : Obj := ⟨objKey 0x50 0x0004 0, 0x00⟩
/-- 50:0005.00 `cap_sequence`, R380. -/
def Obj.capSequence : Obj := ⟨objKey 0x50 0x0005 0, 0⟩
/-- 50:0010.00 `host_power_request`, R380. -/
def Obj.hostPowerRequest : Obj := ⟨objKey 0x50 0x0010 0, 2600⟩
/-- 50:0011.00 `rise_rate_w_per_ms`, R380. -/
def Obj.riseRateWPerMs : Obj := ⟨objKey 0x50 0x0011 0, 400⟩
/-- 50:0012.00 `park_release`, R380 (the spec gives no default). -/
def Obj.parkRelease : Obj := ⟨objKey 0x50 0x0012 0, 0x0⟩
/-- 50:0020.00 `floor_latched`, R380. -/
def Obj.floorLatched : Obj := ⟨objKey 0x50 0x0020 0, 0⟩
/-- 50:0021.00 `throttle_events`, R380. -/
def Obj.throttleEvents : Obj := ⟨objKey 0x50 0x0021 0, 0⟩
/-- 50:0022.00 `pfail_events`, R380. -/
def Obj.pfailEvents : Obj := ⟨objKey 0x50 0x0022 0, 0⟩
/-- 50:0030.00–.05 `die_temp_c`, R380 (the spec gives no default). -/
def Obj.dieTempC (sub : Nat) : Obj := ⟨objKey 0x50 0x0030 sub, 0x0⟩
/-- 50:0031.00 `sensors_suspect`, R380. -/
def Obj.sensorsSuspect : Obj := ⟨objKey 0x50 0x0031 0, 0⟩
/-- 50:0040.00 `tray_number`, R380 (the spec gives no default). -/
def Obj.trayNumber : Obj := ⟨objKey 0x50 0x0040 0, 0x0⟩
/-- 50:0041.00 `tray_status`, R380. -/
def Obj.trayStatus : Obj := ⟨objKey 0x50 0x0041 0, 0⟩
/-- 50:0042.00–.03 `leak_loop_ohms`, R380 (the spec gives no default). -/
def Obj.leakLoopOhms (sub : Nat) : Obj := ⟨objKey 0x50 0x0042 sub, 0x0⟩
/-- 50:0043.00–.01 `flow_clpm`, R380 (the spec gives no default). -/
def Obj.flowClpm (sub : Nat) : Obj := ⟨objKey 0x50 0x0043 sub, 0x0⟩
/-- 50:0050.00–.0F `rail_telemetry`, R380. -/
def Obj.railTelemetry (sub : Nat) : Oct := ⟨objKey 0x50 0x0050 sub, List.replicate 8 0⟩
/-- 50:0060.00 `flow_min_clpm`, R380. -/
def Obj.flowMinClpm : Obj := ⟨objKey 0x50 0x0060 0, 800⟩
/-- 50:0061.00 `coolant_cv`, R380. -/
def Obj.coolantCv : Obj := ⟨objKey 0x50 0x0061 0, 3980⟩
/-- 58:0000.00 `catchment_power_w`, R380. -/
def Obj.catchmentPowerW : Obj := ⟨objKey 0x58 0x0000 0, 0⟩
/-- 58:0001.00 `catchment_budget_w`, R380. -/
def Obj.catchmentBudgetW : Obj := ⟨objKey 0x58 0x0001 0, 0⟩
/-- 58:0002.00 `catchment_level_w`, R380. -/
def Obj.catchmentLevelW : Obj := ⟨objKey 0x58 0x0002 0, 0⟩
/-- 58:0010.00 `catchment_limit_w`, R380. -/
def Obj.catchmentLimitW : Obj := ⟨objKey 0x58 0x0010 0, 175000⟩
/-- 58:0011.00 `budget_margin_pct`, R380. -/
def Obj.budgetMarginPct : Obj := ⟨objKey 0x58 0x0011 0, 5⟩
/-- 58:0012.00 `tray_start_interval_ms`, R380. -/
def Obj.trayStartIntervalMs : Obj := ⟨objKey 0x58 0x0012 0, 100⟩
/-- 58:0013.00 `start_grant_w`, R380. -/
def Obj.startGrantW : Obj := ⟨objKey 0x58 0x0013 0, 1200⟩
/-- 58:0014.00 `poll_timeout_ms`, R380. -/
def Obj.pollTimeoutMs : Obj := ⟨objKey 0x58 0x0014 0, 5⟩
/-- 58:0015.00 `pump_loss_trays`, R380. -/
def Obj.pumpLossTrays : Obj := ⟨objKey 0x58 0x0015 0, 4⟩
/-- 58:0020.00–.0F `equipment`, R380. -/
def Obj.equipment (sub : Nat) : Oct := ⟨objKey 0x58 0x0020 sub, List.replicate 32 0⟩
/-- 58:0021.00–.0F `equipment_state`, R380. -/
def Obj.equipmentState (sub : Nat) : Obj := ⟨objKey 0x58 0x0021 sub, 0x00⟩
/-- 58:0030.00 `park_mask`, R380. -/
def Obj.parkMask : Obj := ⟨objKey 0x58 0x0030 0, 0⟩
/-- 58:0031.00 `low_flow_mask`, R380. -/
def Obj.lowFlowMask : Obj := ⟨objKey 0x58 0x0031 0, 0⟩
/-- 58:0040.00 `shelf_losses`, R380. -/
def Obj.shelfLosses : Obj := ⟨objKey 0x58 0x0040 0, 0⟩
/-- 58:0041.00 `pump_losses`, R380. -/
def Obj.pumpLosses : Obj := ⟨objKey 0x58 0x0041 0, 0⟩
/-- 60:0000.00 `ctx_count`, R404. -/
def Obj.ctxCount : Obj := ⟨objKey 0x60 0x0000 0, 64⟩
/-- 60:0001.00 `ctx_open_mask`, R404. -/
def Obj.ctxOpenMask : Obj := ⟨objKey 0x60 0x0001 0, 0x0000000000000001⟩
/-- 60:0002.00 `confidential_resident`, R404. -/
def Obj.confidentialResident : Obj := ⟨objKey 0x60 0x0002 0, 0⟩
/-- 60:0010.00 `ts_quantum_us`, R404. -/
def Obj.tsQuantumUs : Obj := ⟨objKey 0x60 0x0010 0, 100⟩
/-- 60:0020.00 `retires`, R404. -/
def Obj.retires : Obj := ⟨objKey 0x60 0x0020 0, 0⟩
/-- 60:0021.00 `freezes`, R404. -/
def Obj.freezes : Obj := ⟨objKey 0x60 0x0021 0, 0⟩
/-- 60:0022.00 `prot_change_aborts`, R404. -/
def Obj.protChangeAborts : Obj := ⟨objKey 0x60 0x0022 0, 0⟩
/-- 60:0023.00 `pages_withheld`, R404. -/
def Obj.pagesWithheld : Obj := ⟨objKey 0x60 0x0023 0, 0⟩
/-- 60:0100.00–.3F `ctx_cmd`, R404. -/
def Obj.ctxCmd (sub : Nat) : Oct := ⟨objKey 0x60 0x0100 sub, List.replicate 16 0⟩
/-- 60:0101.00–.3F `ctx_status`, R404. -/
def Obj.ctxStatus (sub : Nat) : Obj := ⟨objKey 0x60 0x0101 sub, 0x0000⟩
/-- 60:0102.00–.3F `ctx_state`, R404. -/
def Obj.ctxState (sub : Nat) : Obj := ⟨objKey 0x60 0x0102 sub, if sub = 0 then 1 else 0⟩
/-- 60:0103.00–.3F `ctx_flags_in_force`, R404. -/
def Obj.ctxFlagsInForce (sub : Nat) : Obj := ⟨objKey 0x60 0x0103 sub, 0⟩
/-- 60:0104.00–.3F `ctx_weight`, R404. -/
def Obj.ctxWeight (sub : Nat) : Obj := ⟨objKey 0x60 0x0104 sub, 1⟩
/-- 60:0105.00–.3F `ctx_pool_limit`, R404. -/
def Obj.ctxPoolLimit (sub : Nat) : Obj := ⟨objKey 0x60 0x0105 sub, 64⟩
/-- 60:0106.00–.3F `ctx_quota_mib`, R404. -/
def Obj.ctxQuotaMib (sub : Nat) : Obj := ⟨objKey 0x60 0x0106 sub, 0⟩
/-- 60:0107.00–.3F `prot_epoch`, R404. -/
def Obj.protEpoch (sub : Nat) : Obj := ⟨objKey 0x60 0x0107 sub, 0⟩
/-- 60:0108.00–.3F `prot_commit`, R404 (the spec gives no default). -/
def Obj.protCommit (sub : Nat) : Obj := ⟨objKey 0x60 0x0108 sub, 0x0⟩
/-- 60:0109.00–.3F `prot_status`, R404. -/
def Obj.protStatus (sub : Nat) : Obj := ⟨objKey 0x60 0x0109 sub, 0x0000⟩
/-- 60:010A.00–.3F `tile_set`, R404. -/
def Obj.tileSet (sub : Nat) : Oct := ⟨objKey 0x60 0x010A sub, List.replicate 240 0⟩
/-- 60:010B.00–.3F `ctx_violations`, R404. -/
def Obj.ctxViolations (sub : Nat) : Obj := ⟨objKey 0x60 0x010B sub, 0⟩
/-- 60:010C.00–.3F `retire_step`, R404. -/
def Obj.retireStep (sub : Nat) : Obj := ⟨objKey 0x60 0x010C sub, 0x00⟩
/-- 60:(4000+64c+w).00 `window`, R404. -/
def Obj.window (c w : Nat) : Oct := ⟨objKey 0x60 (0x4000 + 64 * c + w) 0, List.replicate 32 0⟩
/-- 60:(4000+64c+w).01 `window_staged`, R404. -/
def Obj.windowStaged (c w : Nat) : Oct := ⟨objKey 0x60 (0x4000 + 64 * c + w) 1, List.replicate 32 0⟩
/-- 68:0000.00 `identity_state`, R430 (the spec gives no default). -/
def Obj.identityState : Obj := ⟨objKey 0x68 0x0000 0, 0x0⟩
/-- 68:0001.00 `device_id_pub`, R430. -/
def Obj.deviceIdPub : Oct := ⟨objKey 0x68 0x0001 0, List.replicate 64 0⟩
/-- 68:0002.00 `binding_pub`, R430. -/
def Obj.bindingPub : Oct := ⟨objKey 0x68 0x0002 0, List.replicate 64 0⟩
/-- 68:0003.00 `device_id_cert`, R430. -/
def Obj.deviceIdCert : Oct := ⟨objKey 0x68 0x0003 0, (0x30 :: Config.deviceIdTail).take 2048⟩
/-- 68:0004.00 `alias_cert`, R430. -/
def Obj.aliasCert : Oct := ⟨objKey 0x68 0x0004 0, []⟩
/-- 68:0010.00–.07 `tenant_image_key`, R430. -/
def Obj.tenantImageKey (sub : Nat) : Oct := ⟨objKey 0x68 0x0010 sub, List.replicate 64 0⟩
/-- 68:0020.00 `authority_record`, R430. -/
def Obj.authorityRecord : Oct := ⟨objKey 0x68 0x0020 0, List.replicate 320 0⟩
/-- 68:0021.00 `authority_mode`, R430. -/
def Obj.authorityMode : Obj := ⟨objKey 0x68 0x0021 0, 0x00⟩
/-- 68:0022.00 `authority_pending`, R430. -/
def Obj.authorityPending : Obj := ⟨objKey 0x68 0x0022 0, 0x00⟩
/-- 68:0023.00 `sb_cak`, R430. -/
def Obj.sbCak : Oct := ⟨objKey 0x68 0x0023 0, List.replicate 48 0⟩
/-- 68:0030.00 `rng_health`, R430. -/
def Obj.rngHealth : Obj := ⟨objKey 0x68 0x0030 0, 0x00⟩
/-- 68:0031.00 `keys_generated`, R430. -/
def Obj.keysGenerated : Obj := ⟨objKey 0x68 0x0031 0, 0⟩
/-- 68:0100.00–.3F `sc_cmd`, R430. -/
def Obj.scCmd (sub : Nat) : Oct := ⟨objKey 0x68 0x0100 sub, List.replicate 64 0⟩
/-- 68:0101.00–.3F `sc_status`, R430. -/
def Obj.scStatus (sub : Nat) : Obj := ⟨objKey 0x68 0x0101 sub, 0x0000⟩
/-- 68:0102.00–.3F `ctx_xkey_pub`, R430. -/
def Obj.ctxXkeyPub (sub : Nat) : Oct := ⟨objKey 0x68 0x0102 sub, List.replicate 64 0⟩
/-- 68:0103.00–.3F `key_epoch_high`, R430. -/
def Obj.keyEpochHigh (sub : Nat) : Obj := ⟨objKey 0x68 0x0103 sub, 0⟩
/-- 68:0104.00–.3F `activate_pending`, R430. -/
def Obj.activatePending (sub : Nat) : Obj := ⟨objKey 0x68 0x0104 sub, 0⟩
/-- 6C:0000.00 `attest_state`, R430. -/
def Obj.attestState : Obj := ⟨objKey 0x6C 0x0000 0, 0x00⟩
/-- 6C:0001.00 `boot_count`, R430 (the spec gives no default). -/
def Obj.bootCount : Obj := ⟨objKey 0x6C 0x0001 0, 0x0⟩
/-- 6C:0010.00 `pkg_attest_cmd`, R430. -/
def Obj.pkgAttestCmd : Oct := ⟨objKey 0x6C 0x0010 0, List.replicate 32 0⟩
/-- 6C:0011.00 `pkg_attest_report`, R430. -/
def Obj.pkgAttestReport : Oct := ⟨objKey 0x6C 0x0011 0, []⟩
/-- 6C:0012.00 `pkg_attest_status`, R430. -/
def Obj.pkgAttestStatus : Obj := ⟨objKey 0x6C 0x0012 0, 0x0000⟩
/-- 6C:0020.00 `attest_requests`, R430. -/
def Obj.attestRequests : Obj := ⟨objKey 0x6C 0x0020 0, 0⟩
/-- 6C:0100.00–.3F `ctx_attest_cmd`, R430. -/
def Obj.ctxAttestCmd (sub : Nat) : Oct := ⟨objKey 0x6C 0x0100 sub, List.replicate 48 0⟩
/-- 6C:0101.00–.3F `ctx_attest_status`, R430. -/
def Obj.ctxAttestStatus (sub : Nat) : Obj := ⟨objKey 0x6C 0x0101 sub, 0x0000⟩
/-- 84:0000.00 `zk7_serial`, R461. -/
def Obj.zk7Serial : Oct := ⟨objKey 0x84 0x0000 0, List.replicate 16 0⟩
/-- 84:0001.00 `zk7_health`, R461 (the spec gives no default). -/
def Obj.zk7Health : Obj := ⟨objKey 0x84 0x0001 0, 0x0⟩
/-- 84:0002.00 `zk7_temp_max_c`, R461 (the spec gives no default). -/
def Obj.zk7TempMaxC : Obj := ⟨objKey 0x84 0x0002 0, 0x0⟩
/-- 88:0000.00 `zk7_power_w`, R461. -/
def Obj.zk7PowerW : Obj := ⟨objKey 0x88 0x0000 0, 0⟩
/-- 88:0001.00 `zk7_power_limit_w`, R461. -/
def Obj.zk7PowerLimitW : Obj := ⟨objKey 0x88 0x0001 0, 2600⟩
/-- 00:0000.00 `part_number`, R462. -/
def Obj.partNumber : Oct := ⟨objKey 0x00 0x0000 0, [90, 75, 57, 45, 49, 57, 50, 48, 45, 76, 67, 0, 0, 0, 0, 0]⟩
/-- 00:0001.00 `product_name`, R462. -/
def Obj.productName : Oct := ⟨objKey 0x00 0x0001 0, [75, 69, 76, 80, 79, 82, 0, 0]⟩
/-- 00:0002.00 `serial_number`, R462 (the spec gives no default). -/
def Obj.serialNumber : Obj := ⟨objKey 0x00 0x0002 0, 0x0⟩
/-- 00:0003.00 `stepping`, R462 (the spec gives no default). -/
def Obj.stepping : Obj := ⟨objKey 0x00 0x0003 0, 0x0⟩
/-- 00:0004.00 `date_code`, R462 (the spec gives no default). -/
def Obj.dateCode : Obj := ⟨objKey 0x00 0x0004 0, 0x0⟩
/-- 00:0005.00 `assembly_lot`, R462. -/
def Obj.assemblyLot : Oct := ⟨objKey 0x00 0x0005 0, List.replicate 9 0⟩
/-- 00:0006.00 `dictionary_version`, R462. -/
def Obj.dictionaryVersion : Obj := ⟨objKey 0x00 0x0006 0, 0x0001⟩
/-- 00:0007.00 `position`, R462 (the spec gives no default). -/
def Obj.position : Obj := ⟨objKey 0x00 0x0007 0, 0x0⟩
/-- 00:0008.00–.02 `mac_address`, R462. -/
def Obj.macAddress (sub : Nat) : Oct := ⟨objKey 0x00 0x0008 sub, List.replicate 6 0⟩
/-- 78:0000.00 `mgmt_ports`, R462. -/
def Obj.mgmtPorts : Obj := ⟨objKey 0x78 0x0000 0, 3⟩
/-- 78:0010.00 `session_idle_s`, R462. -/
def Obj.sessionIdleS : Obj := ⟨objKey 0x78 0x0010 0, 60⟩
/-- 78:0011.00 `mbx_ttl_ms`, R462. -/
def Obj.mbxTtlMs : Obj := ⟨objKey 0x78 0x0011 0, 1000⟩
/-- 78:0012.00 `operator_keys`, R462. -/
def Obj.operatorKeys : Oct := ⟨objKey 0x78 0x0012 0, List.replicate 128 0⟩
/-- 78:0013.00 `sessions_open`, R462. -/
def Obj.sessionsOpen : Obj := ⟨objKey 0x78 0x0013 0, 0⟩
/-- 78:0014.00 `session_list`, R462. -/
def Obj.sessionList : Oct := ⟨objKey 0x78 0x0014 0, []⟩
/-- 78:0015.00 `session_close`, R462 (the spec gives no default). -/
def Obj.sessionClose : Obj := ⟨objKey 0x78 0x0015 0, 0x0⟩
/-- 78:0016.00 `persist_reset`, R462 (the spec gives no default). -/
def Obj.persistReset : Obj := ⟨objKey 0x78 0x0016 0, 0x0⟩
/-- 78:0017.00 `zk7_compat_enable`, R462. -/
def Obj.zk7CompatEnable : Obj := ⟨objKey 0x78 0x0017 0, 0⟩
/-- 78:0020.00 `nxf_frames_bad`, R462. -/
def Obj.nxfFramesBad : Obj := ⟨objKey 0x78 0x0020 0, 0⟩
/-- 78:0021.00 `nxf_replay_drop`, R462. -/
def Obj.nxfReplayDrop : Obj := ⟨objKey 0x78 0x0021 0, 0⟩
/-- 78:0022.00 `nxf_open_refused`, R462. -/
def Obj.nxfOpenRefused : Obj := ⟨objKey 0x78 0x0022 0, 0⟩
/-- 78:0023.00 `nxf_proof_failed`, R462. -/
def Obj.nxfProofFailed : Obj := ⟨objKey 0x78 0x0023 0, 0⟩
/-- 78:0024.00 `nxf_group_nokey`, R462. -/
def Obj.nxfGroupNokey : Obj := ⟨objKey 0x78 0x0024 0, 0⟩
/-- 78:0100.00–.3F `tenant_session_key`, R462. -/
def Obj.tenantSessionKey (sub : Nat) : Oct := ⟨objKey 0x78 0x0100 sub, List.replicate 32 0⟩
/-- 78:(4000+p).00 `mport_link`, R462. -/
def Obj.mportLink (p : Nat) : Obj := ⟨objKey 0x78 (0x4000 + p) 0, 0x00⟩
/-- 78:(4000+p).01 `mport_ip`, R462. -/
def Obj.mportIp (p : Nat) : Oct := ⟨objKey 0x78 (0x4000 + p) 1, List.replicate 36 0⟩
/-- 78:(4000+p).02 `mport_macsec`, R462. -/
def Obj.mportMacsec (p : Nat) : Obj := ⟨objKey 0x78 (0x4000 + p) 2, 0x00⟩
/-- 78:(6000+m).00 `mbx_state`, R462. -/
def Obj.mbxState (m : Nat) : Obj := ⟨objKey 0x78 (0x6000 + m) 0, 0x03⟩
/-- 78:(6000+m).01 `mbx_control`, R462 (the spec gives no default). -/
def Obj.mbxControl (m : Nat) : Obj := ⟨objKey 0x78 (0x6000 + m) 1, 0x0⟩
/-- 78:(6000+m).02 `mbx_bind`, R462. -/
def Obj.mbxBind (m : Nat) : Oct := ⟨objKey 0x78 (0x6000 + m) 2, List.replicate 32 0⟩
/-- 78:(6000+m).03 `mbx_ring_head`, R462. -/
def Obj.mbxRingHead (m : Nat) : Obj := ⟨objKey 0x78 (0x6000 + m) 3, 0⟩
/-- 78:(6000+m).04 `mbx_ring_tail`, R462. -/
def Obj.mbxRingTail (m : Nat) : Obj := ⟨objKey 0x78 (0x6000 + m) 4, 0⟩
/-- 78:(6000+m).05 `mbx_queued`, R462. -/
def Obj.mbxQueued (m : Nat) : Obj := ⟨objKey 0x78 (0x6000 + m) 5, 0⟩
/-- 78:(6000+m).06 `mbx_claimant`, R462. -/
def Obj.mbxClaimant (m : Nat) : Obj := ⟨objKey 0x78 (0x6000 + m) 6, 0⟩
/-- 78:(6000+m).07 `mbx_bells_pending`, R462. -/
def Obj.mbxBellsPending (m : Nat) : Obj := ⟨objKey 0x78 (0x6000 + m) 7, 0⟩
/-- 7C:0000.00 `fw_elements`, R463. -/
def Obj.fwElements : Obj := ⟨objKey 0x7C 0x0000 0, 4⟩
/-- 7C:(4000+e).00 `fw_state`, R463. -/
def Obj.fwState (e : Nat) : Obj := ⟨objKey 0x7C (0x4000 + e) 0, 0x00⟩
/-- 7C:(4000+e).01 `fw_active_slot`, R463 (the spec gives no default). -/
def Obj.fwActiveSlot (e : Nat) : Obj := ⟨objKey 0x7C (0x4000 + e) 1, 0x0⟩
/-- 7C:(4000+e).02 `fw_running_version`, R463 (the spec gives no default). -/
def Obj.fwRunningVersion (e : Nat) : Obj := ⟨objKey 0x7C (0x4000 + e) 2, 0x0⟩
/-- 7C:(4000+e).03 `fw_running_svn`, R463 (the spec gives no default). -/
def Obj.fwRunningSvn (e : Nat) : Obj := ⟨objKey 0x7C (0x4000 + e) 3, 0x0⟩
/-- 7C:(4000+e).04 `fw_running_level`, R463 (the spec gives no default). -/
def Obj.fwRunningLevel (e : Nat) : Obj := ⟨objKey 0x7C (0x4000 + e) 4, 0x0⟩
/-- 7C:(4000+e).05 `fw_staged_version`, R463. -/
def Obj.fwStagedVersion (e : Nat) : Obj := ⟨objKey 0x7C (0x4000 + e) 5, 0⟩
/-- 7C:(4000+e).06 `fw_svn_floor`, R463. -/
def Obj.fwSvnFloor (e : Nat) : Obj := ⟨objKey 0x7C (0x4000 + e) 6, 0⟩
/-- 7C:(4000+e).07 `fw_stage_cmd`, R463 (the spec gives no default). -/
def Obj.fwStageCmd (e : Nat) : Obj := ⟨objKey 0x7C (0x4000 + e) 7, 0x0⟩
/-- 7C:(4000+e).08 `fw_stage_data`, R463. -/
def Obj.fwStageData (e : Nat) : Oct := ⟨objKey 0x7C (0x4000 + e) 8, []⟩
/-- 7C:(4000+e).09 `fw_stage_result`, R463. -/
def Obj.fwStageResult (e : Nat) : Obj := ⟨objKey 0x7C (0x4000 + e) 9, 0x0000⟩
/-- 7C:(4000+e).0A `fw_fallbacks`, R463. -/
def Obj.fwFallbacks (e : Nat) : Obj := ⟨objKey 0x7C (0x4000 + e) 10, 0⟩
/-- 08:0000.00 `bringup_state`, R487 (the spec gives no default). -/
def Obj.bringupState : Obj := ⟨objKey 0x08 0x0000 0, 0x0⟩
/-- 08:0001.00 `bringup_cmd`, R487 (the spec gives no default). -/
def Obj.bringupCmd : Obj := ⟨objKey 0x08 0x0001 0, 0x0⟩
/-- 08:0002.00 `bringup_result`, R487. -/
def Obj.bringupResult : Obj := ⟨objKey 0x08 0x0002 0, 0x0000⟩
/-- 08:0003.00 `bringup_auto`, R487. -/
def Obj.bringupAuto : Obj := ⟨objKey 0x08 0x0003 0, 1⟩
/-- 08:0004.00 `bringup_hold_s`, R487. -/
def Obj.bringupHoldS : Obj := ⟨objKey 0x08 0x0004 0, 600⟩
/-- 08:0005.00 `bringup_elapsed_ms`, R487. -/
def Obj.bringupElapsedMs : Obj := ⟨objKey 0x08 0x0005 0, 0⟩
/-- 08:0006.00 `resources_complete`, R487. -/
def Obj.resourcesComplete : Obj := ⟨objKey 0x08 0x0006 0, 0⟩
/-- 08:0010.00 `reset_cmd`, R487 (the spec gives no default). -/
def Obj.resetCmd : Obj := ⟨objKey 0x08 0x0010 0, 0x0⟩
/-- 08:0011.00–.05 `reset_generation`, R487 (the spec gives no default). -/
def Obj.resetGeneration (sub : Nat) : Obj := ⟨objKey 0x08 0x0011 sub, 0x0⟩
/-- 08:0030.00 `ref_state`, R487. -/
def Obj.refState : Obj := ⟨objKey 0x08 0x0030 0, 0x00⟩
/-- 08:0031.00 `ref_switches`, R487. -/
def Obj.refSwitches : Obj := ⟨objKey 0x08 0x0031 0, 0⟩
/-- 08:0032.00 `ptp_state`, R487. -/
def Obj.ptpState : Obj := ⟨objKey 0x08 0x0032 0, 0x00⟩
/-- 08:0033.00 `ptp_offset_abs_ns`, R487. -/
def Obj.ptpOffsetAbsNs : Obj := ⟨objKey 0x08 0x0033 0, 0xFFFFFFFF⟩
/-- 08:0034.00 `ptp_domain`, R487. -/
def Obj.ptpDomain : Obj := ⟨objKey 0x08 0x0034 0, 0⟩
/-- 08:0040.00 `defect_map_state`, R487. -/
def Obj.defectMapState : Obj := ⟨objKey 0x08 0x0040 0, 0x00⟩
/-- 08:0041.00 `defect_map_sequence`, R487 (the spec gives no default). -/
def Obj.defectMapSequence : Obj := ⟨objKey 0x08 0x0041 0, 0x0⟩
/-- 08:0050.00 `spare_policy_enable`, R487. -/
def Obj.sparePolicyEnable : Obj := ⟨objKey 0x08 0x0050 0, 1⟩
/-- 08:0051.00 `tile_age_limit`, R487. -/
def Obj.tileAgeLimit : Obj := ⟨objKey 0x08 0x0051 0, 800⟩
/-- 08:0052.00 `lane_eye_min_mv`, R487. -/
def Obj.laneEyeMinMv : Obj := ⟨objKey 0x08 0x0052 0, 20⟩
/-- 08:0053.00 `spare_exhausted`, R487. -/
def Obj.spareExhausted : Obj := ⟨objKey 0x08 0x0053 0, 0⟩
/-- 08:0054.00 `spare_requests`, R487. -/
def Obj.spareRequests : Obj := ⟨objKey 0x08 0x0054 0, 0⟩
/-- 08:(4000+d).00 `wear_age`, R487. -/
def Obj.wearAge (d : Nat) : Obj := ⟨objKey 0x08 (0x4000 + d) 0, 0⟩
/-- 08:(4000+d).01 `wear_hours_hot`, R487. -/
def Obj.wearHoursHot (d : Nat) : Obj := ⟨objKey 0x08 (0x4000 + d) 1, 0⟩
/-- 08:(5000+s).00 `site_age`, R487. -/
def Obj.siteAge (s : Nat) : Obj := ⟨objKey 0x08 (0x5000 + s) 0, 0⟩
/-- 08:(5000+s).01 `site_fail_count`, R487. -/
def Obj.siteFailCount (s : Nat) : Obj := ⟨objKey 0x08 (0x5000 + s) 1, 0⟩
/-- 70:0000.00 `er_newest_seq`, R502 (the spec gives no default). -/
def Obj.erNewestSeq : Obj := ⟨objKey 0x70 0x0000 0, 0x0⟩
/-- 70:0001.00 `er_oldest_seq`, R502 (the spec gives no default). -/
def Obj.erOldestSeq : Obj := ⟨objKey 0x70 0x0001 0, 0x0⟩
/-- 70:0002.00 `er_founding_count`, R502. -/
def Obj.erFoundingCount : Obj := ⟨objKey 0x70 0x0002 0, 0⟩
/-- 70:0003.00 `er_last_clear_seq`, R502. -/
def Obj.erLastClearSeq : Obj := ⟨objKey 0x70 0x0003 0, 0⟩
/-- 70:0010.00 `er_snapshot_cmd`, R502. -/
def Obj.erSnapshotCmd : Oct := ⟨objKey 0x70 0x0010 0, List.replicate 9 0⟩
/-- 70:0011.00 `er_snapshot_read`, R502. -/
def Obj.erSnapshotRead : Oct := ⟨objKey 0x70 0x0011 0, []⟩
/-- 70:0020.00 `er_clear`, R502 (the spec gives no default). -/
def Obj.erClear : Obj := ⟨objKey 0x70 0x0020 0, 0x0⟩
/-- 70:0030.00 `er_records_lost`, R502. -/
def Obj.erRecordsLost : Obj := ⟨objKey 0x70 0x0030 0, 0⟩
/-- 70:0031.00 `er_repeats`, R502. -/
def Obj.erRepeats : Obj := ⟨objKey 0x70 0x0031 0, 0⟩
/-- 70:0032.00 `er_flushes`, R502. -/
def Obj.erFlushes : Obj := ⟨objKey 0x70 0x0032 0, 0⟩
/-- 70:0033.00 `er_fl_state`, R502. -/
def Obj.erFlState : Obj := ⟨objKey 0x70 0x0033 0, 0x00⟩

/-- The rows of area 00, ascending by first entry and sub. -/
def dict00 : List DictRow := [
  ⟨0x00, 0x0000, 1, 0, 1, 0, 0, (.oct 16), .r, .r, .r, .r, .no, true, 0, .any⟩,
  ⟨0x00, 0x0001, 1, 0, 1, 0, 0, (.oct 8), .r, .r, .r, .r, .no, true, 0, .any⟩,
  ⟨0x00, 0x0002, 1, 0, 1, 0, 0, .u64, .r, .r, .r, .r, .no, true, 0x0, .any⟩,
  ⟨0x00, 0x0003, 1, 0, 1, 0, 0, .u16, .r, .r, .r, .r, .no, true, 0x0, .any⟩,
  ⟨0x00, 0x0004, 1, 0, 1, 0, 0, .u16, .r, .r, .r, .r, .no, true, 0x0, .any⟩,
  ⟨0x00, 0x0005, 1, 0, 1, 0, 0, (.oct 9), .r, .r, .r, .r, .no, true, 0x0, .any⟩,
  ⟨0x00, 0x0006, 1, 0, 1, 0, 0, .u16, .r, .r, .r, .r, .no, true, 0x0001, .any⟩,
  ⟨0x00, 0x0007, 1, 0, 1, 0, 0, .u8, .r, .r, .r, .r, .no, false, 0x0, .any⟩,
  ⟨0x00, 0x0008, 1, 0, 1, 0, 2, (.oct 6), .r, .r, .r, .r, .no, true, 0x0, .any⟩]
/-- The rows of area 08, ascending by first entry and sub. -/
def dict08 : List DictRow := [
  ⟨0x08, 0x0000, 1, 0, 1, 0, 0, .u8, .r, .r, .r, .r, .no, false, 0x0, .any⟩,
  ⟨0x08, 0x0001, 1, 0, 1, 0, 0, .u8, .no, .no, .w, .w, .no, false, 0x0, .range 1 4⟩,
  ⟨0x08, 0x0002, 1, 0, 1, 0, 0, .u16, .r, .r, .r, .r, .no, false, 0x0000, .any⟩,
  ⟨0x08, 0x0003, 1, 0, 1, 0, 0, .u8, .r, .no, .rw, .rw, .no, true, 1, .range 0 1⟩,
  ⟨0x08, 0x0004, 1, 0, 1, 0, 0, .u16, .r, .no, .rw, .rw, .no, true, 600, .range 10 3600⟩,
  ⟨0x08, 0x0005, 1, 0, 1, 0, 0, .u32, .r, .no, .r, .r, .no, false, 0, .any⟩,
  ⟨0x08, 0x0006, 1, 0, 1, 0, 0, .u8, .r, .r, .r, .r, .no, false, 0, .any⟩,
  ⟨0x08, 0x0010, 1, 0, 1, 0, 0, .u8, .no, .no, .no, .w, .no, false, 0x0, .range 1 1⟩,
  ⟨0x08, 0x0011, 1, 0, 1, 0, 5, .u16, .r, .no, .r, .r, .no, false, 0x0, .any⟩,
  ⟨0x08, 0x0020, 1, 0, 1, 0, 0, .u32, .r, .r, .rw, .rw, .no, true, 1000, .range 10 100000⟩,
  ⟨0x08, 0x0030, 1, 0, 1, 0, 0, .u8, .r, .no, .r, .r, .no, false, 0x00, .any⟩,
  ⟨0x08, 0x0031, 1, 0, 1, 0, 0, .u64, .r, .no, .r, .rw, .no, false, 0, .range 0 0⟩,
  ⟨0x08, 0x0032, 1, 0, 1, 0, 0, .u8, .r, .r, .r, .r, .no, false, 0x00, .any⟩,
  ⟨0x08, 0x0033, 1, 0, 1, 0, 0, .u32, .r, .r, .r, .r, .no, false, 0xFFFFFFFF, .any⟩,
  ⟨0x08, 0x0034, 1, 0, 1, 0, 0, .u8, .r, .no, .rw, .rw, .no, true, 0, .range 0 127⟩,
  ⟨0x08, 0x0040, 1, 0, 1, 0, 0, .u8, .r, .no, .r, .r, .no, false, 0x00, .any⟩,
  ⟨0x08, 0x0041, 1, 0, 1, 0, 0, .u32, .r, .no, .r, .r, .no, true, 0x0, .any⟩,
  ⟨0x08, 0x0050, 1, 0, 1, 0, 0, .u8, .r, .no, .rw, .rw, .no, true, 1, .range 0 1⟩,
  ⟨0x08, 0x0051, 1, 0, 1, 0, 0, .u16, .r, .no, .rw, .rw, .no, true, 800, .range 100 2000⟩,
  ⟨0x08, 0x0052, 1, 0, 1, 0, 0, .u16, .r, .no, .rw, .rw, .no, true, 20, .range 5 200⟩,
  ⟨0x08, 0x0053, 1, 0, 1, 0, 0, .u16, .r, .no, .r, .r, .no, false, 0, .any⟩,
  ⟨0x08, 0x0054, 1, 0, 1, 0, 0, .u64, .r, .no, .r, .rw, .no, false, 0, .range 0 0⟩,
  ⟨0x08, 0x4000, 1, 0, 6, 0, 0, .u16, .r, .no, .r, .r, .no, false, 0, .any⟩,
  ⟨0x08, 0x4000, 1, 0, 6, 1, 1, .u32, .r, .no, .r, .r, .no, true, 0, .any⟩,
  ⟨0x08, 0x5000, 1, 0, 2048, 0, 0, .u16, .r, .no, .r, .r, .no, false, 0, .any⟩,
  ⟨0x08, 0x5000, 1, 0, 2048, 1, 1, .u8, .r, .no, .r, .r, .no, true, 0, .any⟩]
/-- The rows of area 10, ascending by first entry and sub. -/
def dict10 : List DictRow := [
  ⟨0x10, 0x0000, 1, 0, 1, 0, 0, .u16, .r, .r, .r, .r, .no, false, 1920, .any⟩,
  ⟨0x10, 0x0020, 1, 0, 1, 0, 3, .u16, .r, .no, .r, .r, .no, false, 600, .any⟩,
  ⟨0x10, 0x0021, 1, 0, 1, 0, 0, .u16, .r, .r, .r, .r, .no, false, 600, .any⟩,
  ⟨0x10, 0x0030, 1, 0, 1, 0, 0, .u8, .r, .r, .rw, .rw, .no, true, 1, .range 0 1⟩,
  ⟨0x10, 0x0031, 1, 0, 1, 0, 0, .u8, .r, .no, .rw, .rw, .no, true, 4, .range 1 255⟩,
  ⟨0x10, 0x0040, 1, 0, 1, 0, 3, .u8, .r, .no, .r, .r, .no, false, 32, .any⟩,
  ⟨0x10, 0x0041, 1, 0, 1, 0, 0, .u32, .r, .no, .r, .r, .no, false, 491520, .any⟩,
  ⟨0x10, 0x0050, 1, 0, 1, 0, 0, .u64, .r, .no, .r, .rw, .no, false, 0, .range 0 0⟩,
  ⟨0x10, 0x0051, 1, 0, 1, 0, 0, .u64, .r, .no, .r, .rw, .no, false, 0, .range 0 0⟩,
  ⟨0x10, 0x0052, 1, 0, 1, 0, 0, .u64, .r, .no, .r, .rw, .no, false, 0, .range 0 0⟩,
  ⟨0x10, 0x0200, 1, 0, 1, 0, 0, .u64, .r, .no, .r, .rw, .no, false, 0, .range 0 0⟩,
  ⟨0x10, 0x0201, 1, 0, 1, 0, 0, .u64, .r, .no, .r, .rw, .no, false, 0, .range 0 0⟩,
  ⟨0x10, 0x0202, 1, 0, 1, 0, 0, .u64, .r, .no, .r, .rw, .no, false, 0, .any⟩,
  ⟨0x10, 0x0203, 1, 0, 1, 0, 0, .u64, .r, .no, .r, .rw, .no, false, 0, .any⟩,
  ⟨0x10, 0x0204, 1, 0, 1, 0, 0, .u64, .r, .no, .r, .rw, .no, false, 0, .any⟩,
  ⟨0x10, 0x0205, 1, 0, 1, 0, 0, .u64, .r, .no, .r, .rw, .no, false, 0, .any⟩,
  ⟨0x10, 0x0206, 1, 0, 1, 0, 0, .u64, .r, .no, .r, .rw, .no, false, 0, .any⟩,
  ⟨0x10, 0x0207, 1, 0, 1, 0, 0, .u64, .r, .no, .r, .rw, .no, false, 0, .any⟩,
  ⟨0x10, 0x0208, 1, 0, 1, 0, 0, .u64, .r, .no, .r, .rw, .no, false, 0, .any⟩,
  ⟨0x10, 0x0210, 1, 0, 1, 0, 0, .u8, .r, .r, .rw, .rw, .no, true, 0, .range 0 32⟩,
  ⟨0x10, 0x0211, 1, 0, 1, 0, 0, .u8, .r, .r, .rw, .rw, .no, true, 12, .range 0 32⟩,
  ⟨0x10, 0x0212, 1, 0, 1, 0, 0, .u8, .r, .r, .rw, .rw, .no, true, 12, .rangeOr 0 24 0xFF⟩,
  ⟨0x10, 0x0213, 1, 0, 1, 0, 0, .u16, .r, .no, .rw, .rw, .no, true, 4, .any⟩,
  ⟨0x10, 0x4000, 1, 0, 1920, 0, 0, .u8, .r, .r, .r, .r, .no, false, 0x01, .any⟩,
  ⟨0x10, 0x4000, 1, 0, 1920, 1, 1, .u8, .no, .no, .w, .w, .no, false, 0x0, .range 1 4⟩,
  ⟨0x10, 0x4000, 1, 0, 1920, 2, 2, .u16, .r, .no, .r, .r, .no, false, 0, .any⟩,
  ⟨0x10, 0x4000, 1, 0, 1920, 3, 3, .u64, .r, .no, .r, .rw, .no, false, 0, .range 0 0⟩,
  ⟨0x10, 0x4000, 1, 0, 1920, 4, 4, .u32, .r, .no, .r, .r, .no, false, 0, .any⟩,
  ⟨0x10, 0x4000, 1, 0, 1920, 5, 5, .u32, .r, .no, .r, .rw, .no, false, 0, .range 0 0⟩,
  ⟨0x10, 0x4000, 1, 0, 1920, 6, 6, .u16, .r, .no, .r, .r, .no, false, 0, .any⟩,
  ⟨0x10, 0x5000, 1, 0, 2048, 0, 0, .u8, .r, .no, .r, .r, .no, false, 0, .any⟩,
  ⟨0x10, 0x5000, 1, 0, 2048, 1, 1, .u16, .r, .no, .r, .r, .no, false, 0, .any⟩]
/-- The rows of area 18, ascending by first entry and sub. -/
def dict18 : List DictRow := [
  ⟨0x18, 0x0000, 1, 0, 1, 0, 0, .u8, .r, .r, .r, .r, .no, false, 64, .any⟩,
  ⟨0x18, 0x0001, 1, 0, 1, 0, 0, .u16, .r, .r, .r, .r, .no, false, 256, .any⟩,
  ⟨0x18, 0x0010, 1, 0, 1, 0, 0, .u32, .r, .r, .rw, .rw, .no, true, 10000, .range 10 1000000⟩,
  ⟨0x18, 0x0011, 1, 0, 1, 0, 0, .u32, .r, .r, .rw, .rw, .no, true, 100000, .range 10 1000000⟩,
  ⟨0x18, 0x0012, 1, 0, 1, 0, 0, .u8, .r, .r, .rw, .rw, .no, true, 1, .range 0 1⟩,
  ⟨0x18, 0x0013, 1, 0, 1, 0, 0, .u8, .r, .r, .rw, .rw, .no, true, 1, .range 0 63⟩,
  ⟨0x18, 0x0014, 1, 0, 1, 0, 0, .u16, .r, .r, .rw, .rw, .no, true, 200, .range 50 10000⟩,
  ⟨0x18, 0x0015, 1, 0, 1, 0, 0, .u16, .r, .r, .rw, .rw, .no, true, 10, .range 0 1000⟩,
  ⟨0x18, 0x0020, 1, 0, 1, 0, 0, .u64, .r, .no, .r, .rw, .no, false, 0, .range 0 0⟩,
  ⟨0x18, 0x0021, 1, 0, 1, 0, 0, .u64, .r, .no, .r, .rw, .no, false, 0, .range 0 0⟩,
  ⟨0x18, 0x0022, 1, 0, 1, 0, 0, .u64, .r, .no, .r, .rw, .no, false, 0, .range 0 0⟩,
  ⟨0x18, 0x0023, 1, 0, 1, 0, 0, .u64, .r, .no, .r, .rw, .no, false, 0, .range 0 0⟩,
  ⟨0x18, 0x0024, 1, 0, 1, 0, 0, .u64, .r, .no, .r, .rw, .no, false, 0, .range 0 0⟩,
  ⟨0x18, 0x0025, 1, 0, 1, 0, 0, .u64, .r, .no, .r, .rw, .no, false, 0, .range 0 0⟩,
  ⟨0x18, 0x0100, 1, 0, 1, 0, 63, .u64, .no, .w, .no, .w, .no, false, 0x0, .any⟩,
  ⟨0x18, 0x0101, 1, 0, 1, 0, 63, .u16, .r, .r, .r, .r, .no, false, 0x0000, .any⟩,
  ⟨0x18, 0x4000, 1, 0, 1920, 0, 0, .u8, .r, .no, .r, .r, .no, false, 0, .any⟩,
  ⟨0x18, 0x4000, 1, 0, 1920, 1, 1, .u8, .r, .no, .r, .r, .no, false, 0, .any⟩,
  ⟨0x18, 0x4000, 1, 0, 1920, 2, 2, .u16, .r, .no, .r, .r, .no, false, 0, .any⟩,
  ⟨0x18, 0x4000, 1, 0, 1920, 3, 3, .u64, .r, .no, .r, .rw, .no, false, 0, .range 0 0⟩,
  ⟨0x18, 0x4000, 1, 0, 1920, 4, 4, .u8, .no, .no, .r, .r, .no, false, 0x00, .any⟩,
  ⟨0x18, 0x4000, 1, 0, 1920, 5, 5, .u8, .no, .no, .r, .r, .no, false, 0, .any⟩,
  ⟨0x18, 0x4000, 1, 0, 1920, 6, 6, .u32, .no, .no, .no, .r, .no, false, 0, .any⟩,
  ⟨0x18, 0x4000, 1, 0, 1920, 7, 7, .u64, .no, .no, .no, .r, .no, false, 0, .any⟩,
  ⟨0x18, 0x4000, 1, 0, 1920, 8, 8, .u8, .no, .no, .no, .w, .no, false, 0x0, .range 1 2⟩]
/-- The rows of area 20, ascending by first entry and sub. -/
def dict20 : List DictRow := [
  ⟨0x20, 0x0000, 1, 0, 1, 0, 0, .u16, .r, .r, .r, .r, .no, false, 1080, .any⟩,
  ⟨0x20, 0x0001, 1, 0, 1, 0, 0, .u16, .r, .r, .r, .r, .no, false, 480, .any⟩,
  ⟨0x20, 0x0010, 1, 0, 1, 0, 0, .u8, .r, .r, .rw, .rw, .no, true, 0, .range 0 1⟩,
  ⟨0x20, 0x0011, 1, 0, 1, 0, 0, .u8, .r, .r, .rw, .rw, .no, true, 0, .range 0 1⟩,
  ⟨0x20, 0x0012, 1, 0, 1, 0, 0, .u8, .r, .r, .r, .r, .no, false, 0, .any⟩,
  ⟨0x20, 0x0020, 1, 0, 1, 0, 0, .u8, .r, .no, .rw, .rw, .no, true, 24, .range 1 168⟩,
  ⟨0x20, 0x0021, 1, 0, 1, 0, 0, .u16, .r, .no, .rw, .rw, .no, true, 256, .range 1 65535⟩,
  ⟨0x20, 0x0022, 1, 0, 1, 0, 0, .u8, .r, .no, .rw, .rw, .no, true, 2, .range 1 255⟩,
  ⟨0x20, 0x0023, 1, 0, 1, 0, 0, .u8, .r, .no, .rw, .rw, .no, true, 25, .range 5 100⟩,
  ⟨0x20, 0x0030, 1, 0, 1, 0, 0, .u64, .r, .no, .r, .rw, .no, false, 0, .range 0 0⟩,
  ⟨0x20, 0x0031, 1, 0, 1, 0, 0, .u64, .r, .no, .r, .rw, .no, false, 0, .range 0 0⟩,
  ⟨0x20, 0x0032, 1, 0, 1, 0, 0, .u64, .r, .no, .r, .rw, .no, false, 0, .range 0 0⟩,
  ⟨0x20, 0x0033, 1, 0, 1, 0, 0, .u32, .r, .no, .r, .r, .no, false, 0, .any⟩,
  ⟨0x20, 0x0040, 1, 0, 1, 0, 1, .u32, .r, .r, .r, .r, .no, false, 0, .any⟩,
  ⟨0x20, 0x0041, 1, 0, 1, 0, 0, .u16, .r, .no, .r, .r, .no, false, 4096, .any⟩,
  ⟨0x20, 0x0100, 1, 0, 1, 0, 63, (.oct 32), .no, .w, .w, .w, .no, false, 0x0, .any⟩,
  ⟨0x20, 0x0101, 1, 0, 1, 0, 63, .u16, .r, .r, .r, .r, .no, false, 0x0000, .any⟩,
  ⟨0x20, 0x0102, 1, 0, 1, 0, 63, .u32, .r, .r, .r, .r, .no, false, 0, .any⟩,
  ⟨0x20, 0x4000, 32, 32, 17, 0, 0, .u8, .r, .no, .r, .r, .no, false, 0, .any⟩,
  ⟨0x20, 0x4000, 32, 32, 17, 1, 1, .u8, .r, .no, .r, .r, .no, false, 0, .any⟩,
  ⟨0x20, 0x4000, 32, 32, 17, 2, 2, .u8, .no, .no, .w, .w, .no, false, 0x0, .range 1 1⟩,
  ⟨0x20, 0x4000, 32, 32, 17, 3, 3, .u8, .r, .no, .r, .r, .no, false, 0xFF, .any⟩,
  ⟨0x20, 0x4000, 32, 32, 17, 4, 4, .u32, .r, .no, .r, .r, .no, false, 0, .any⟩,
  ⟨0x20, 0x4000, 32, 32, 17, 5, 5, .u16, .r, .no, .r, .r, .no, false, 0, .any⟩,
  ⟨0x20, 0x4000, 32, 32, 17, 6, 6, .i16, .r, .no, .r, .r, .no, false, 0x8000, .any⟩]
/-- The rows of area 28, ascending by first entry and sub. -/
def dict28 : List DictRow := [
  ⟨0x28, 0x0000, 1, 0, 1, 0, 0, .u8, .r, .r, .r, .r, .no, false, 64, .any⟩,
  ⟨0x28, 0x0001, 1, 0, 1, 0, 0, .u8, .r, .r, .r, .r, .no, false, 8, .any⟩,
  ⟨0x28, 0x0010, 1, 0, 1, 0, 0, .u32, .r, .r, .rw, .rw, .no, true, 1000, .range 0 100000⟩,
  ⟨0x28, 0x0020, 1, 0, 1, 0, 0, .u64, .r, .no, .r, .rw, .no, false, 0, .range 0 0⟩,
  ⟨0x28, 0x0021, 1, 0, 1, 0, 0, .u64, .r, .no, .r, .rw, .no, false, 0, .range 0 0⟩,
  ⟨0x28, 0x0022, 1, 0, 1, 0, 0, .u64, .r, .no, .r, .rw, .no, false, 0, .range 0 0⟩,
  ⟨0x28, 0x0023, 1, 0, 1, 0, 0, .u64, .r, .no, .r, .rw, .no, false, 0, .range 0 0⟩,
  ⟨0x28, 0x0024, 1, 0, 1, 0, 0, .u64, .r, .no, .r, .rw, .no, false, 0, .range 0 0⟩,
  ⟨0x28, 0x0025, 1, 0, 1, 0, 0, .u64, .r, .no, .r, .rw, .no, false, 0, .range 0 0⟩,
  ⟨0x28, 0x0026, 1, 0, 1, 0, 0, .u64, .r, .no, .r, .rw, .no, false, 0, .range 0 0⟩,
  ⟨0x28, 0x4000, 1, 0, 72, 0, 0, .u8, .r, .r, .r, .r, .no, false, 0x03, .any⟩,
  ⟨0x28, 0x4000, 1, 0, 72, 1, 1, .u8, .no, .no, .w, .w, .no, false, 0x0, .range 1 4⟩,
  ⟨0x28, 0x4000, 1, 0, 72, 2, 2, .u8, .r, .r, .rw, .rw, .no, false, 0, .rangeOr 1 63 0xFF⟩,
  ⟨0x28, 0x4000, 1, 0, 72, 3, 3, .u64, .no, .rw, .r, .r, .no, false, 0, .align 4096⟩,
  ⟨0x28, 0x4000, 1, 0, 72, 4, 4, .u16, .no, .rw, .r, .r, .no, false, 16, .pow2 16 4096⟩,
  ⟨0x28, 0x4000, 1, 0, 72, 5, 5, .u16, .no, .rw, .r, .r, .no, false, 0, .any⟩,
  ⟨0x28, 0x4000, 1, 0, 72, 6, 6, .u16, .r, .r, .r, .r, .no, false, 0, .any⟩,
  ⟨0x28, 0x4000, 1, 0, 72, 7, 7, .u64, .no, .rw, .r, .r, .no, false, 0, .align 4096⟩,
  ⟨0x28, 0x4000, 1, 0, 72, 8, 8, .u16, .no, .rw, .r, .r, .no, false, 16, .pow2 16 4096⟩,
  ⟨0x28, 0x4000, 1, 0, 72, 9, 9, .u16, .no, .rw, .r, .r, .no, false, 0, .any⟩,
  ⟨0x28, 0x4000, 1, 0, 72, 10, 10, .u16, .r, .r, .r, .r, .no, false, 0, .any⟩,
  ⟨0x28, 0x4000, 1, 0, 72, 11, 11, .u64, .no, .no, .r, .r, .no, false, 0, .any⟩,
  ⟨0x28, 0x4100, 8, 16, 16, 0, 0, (.oct 32), .no, .no, .rw, .rw, .no, false, 0, .any⟩,
  ⟨0x28, 0x4100, 8, 16, 16, 1, 1, .u8, .r, .r, .r, .r, .no, false, 0x00, .any⟩]
/-- The rows of area 30, ascending by first entry and sub. -/
def dict30 : List DictRow := [
  ⟨0x30, 0x0000, 1, 0, 1, 0, 0, .u8, .r, .r, .r, .r, .no, false, 18, .any⟩,
  ⟨0x30, 0x0010, 1, 0, 1, 0, 0, .u16, .r, .no, .rw, .rw, .no, true, 100, .range 10 10000⟩,
  ⟨0x30, 0x0011, 1, 0, 1, 0, 1, .u8, .r, .no, .rw, .rw, .no, true, 0, .range 3 12⟩,
  ⟨0x30, 0x0012, 1, 0, 1, 0, 0, .u16, .r, .no, .rw, .rw, .no, true, 90, .range 40 120⟩,
  ⟨0x30, 0x0020, 1, 0, 1, 0, 0, .u64, .r, .no, .r, .rw, .no, false, 0, .range 0 0⟩,
  ⟨0x30, 0x0021, 1, 0, 1, 0, 0, .u64, .r, .no, .r, .rw, .no, false, 0, .range 0 0⟩,
  ⟨0x30, 0x0022, 1, 0, 1, 0, 0, .u64, .r, .no, .r, .rw, .no, false, 0, .range 0 0⟩,
  ⟨0x30, 0x0023, 1, 0, 1, 0, 0, .u64, .r, .no, .r, .rw, .no, false, 0, .range 0 0⟩,
  ⟨0x30, 0x0024, 1, 0, 1, 0, 0, .u64, .r, .no, .r, .rw, .no, false, 0, .range 0 0⟩,
  ⟨0x30, 0x4000, 1, 0, 18, 0, 0, .u8, .r, .no, .r, .r, .no, false, 0x01, .any⟩,
  ⟨0x30, 0x4000, 1, 0, 18, 1, 1, .u8, .no, .no, .w, .w, .no, false, 0x0, .range 1 3⟩,
  ⟨0x30, 0x4000, 1, 0, 18, 2, 2, .u8, .r, .no, .r, .r, .no, false, 0x00, .any⟩,
  ⟨0x30, 0x4000, 1, 0, 18, 3, 3, .u32, .r, .no, .r, .r, .no, false, 0xFFFFFFFF, .any⟩,
  ⟨0x30, 0x4000, 1, 0, 18, 4, 4, .u8, .r, .no, .r, .r, .no, false, 0x0A, .any⟩,
  ⟨0x30, 0x4000, 1, 0, 18, 5, 5, .u64, .r, .no, .r, .rw, .no, false, 0, .range 0 0⟩,
  ⟨0x30, 0x4000, 1, 0, 18, 6, 6, .u64, .r, .no, .r, .rw, .no, false, 0, .range 0 0⟩,
  ⟨0x30, 0x4000, 1, 0, 18, 7, 7, .u64, .r, .no, .r, .rw, .no, false, 0, .range 0 0⟩,
  ⟨0x30, 0x4100, 18, 32, 18, 0, 1, .u8, .r, .no, .r, .r, .no, false, 0, .any⟩,
  ⟨0x30, 0x4100, 18, 32, 18, 2, 3, .u8, .r, .no, .r, .r, .no, false, 0, .any⟩,
  ⟨0x30, 0x4100, 18, 32, 18, 4, 4, .u32, .r, .no, .r, .r, .no, false, 0, .any⟩,
  ⟨0x30, 0x4100, 18, 32, 18, 5, 5, .u16, .r, .no, .r, .r, .no, false, 0, .any⟩,
  ⟨0x30, 0x4100, 18, 32, 18, 6, 6, .u8, .no, .no, .w, .w, .no, false, 0x0, .range 1 2⟩,
  ⟨0x30, 0x4400, 4, 16, 10, 0, 0, .u8, .r, .no, .r, .r, .no, false, 0, .any⟩,
  ⟨0x30, 0x4400, 4, 16, 10, 1, 1, .u16, .r, .no, .r, .r, .no, false, 0, .any⟩,
  ⟨0x30, 0x4800, 1, 0, 14, 0, 0, .u8, .r, .no, .r, .r, .no, false, 0x01, .any⟩,
  ⟨0x30, 0x4800, 1, 0, 14, 1, 1, .u8, .r, .no, .r, .r, .no, false, 0, .any⟩,
  ⟨0x30, 0x4800, 1, 0, 14, 2, 2, .u64, .r, .no, .r, .rw, .no, false, 0, .range 0 0⟩,
  ⟨0x30, 0x4810, 1, 0, 37, 0, 0, .u8, .r, .no, .r, .r, .no, false, 0x01, .any⟩,
  ⟨0x30, 0x4810, 1, 0, 37, 1, 1, .u8, .r, .no, .r, .r, .no, false, 0, .any⟩,
  ⟨0x30, 0x4810, 1, 0, 37, 2, 2, .u64, .r, .no, .r, .rw, .no, false, 0, .range 0 0⟩]
/-- The rows of area 38, ascending by first entry and sub. -/
def dict38 : List DictRow := [
  ⟨0x38, 0x0000, 1, 0, 1, 0, 0, .u8, .r, .r, .r, .r, .no, false, 23, .any⟩,
  ⟨0x38, 0x0001, 1, 0, 1, 0, 0, .u16, .r, .r, .r, .r, .no, false, 1736, .any⟩,
  ⟨0x38, 0x0010, 1, 0, 1, 0, 0, .u16, .r, .r, .r, .r, .rw, false, 0xFFFF, .any⟩,
  ⟨0x38, 0x0011, 1, 0, 1, 0, 0, .u8, .r, .no, .r, .r, .rw, false, 0, .range 0 1⟩,
  ⟨0x38, 0x0012, 1, 0, 1, 0, 1, .u8, .r, .no, .r, .r, .rw, false, 0x00, .range 0 2⟩,
  ⟨0x38, 0x0013, 1, 0, 1, 0, 1, .u32, .r, .no, .r, .r, .rw, false, 0, .any⟩,
  ⟨0x38, 0x0014, 1, 0, 1, 0, 1, .u32, .r, .no, .r, .r, .r, false, 0, .any⟩,
  ⟨0x38, 0x0015, 1, 0, 1, 0, 0, (.octv 8 520), .no, .no, .no, .w, .w, false, 0x0, .any⟩,
  ⟨0x38, 0x0016, 1, 0, 1, 0, 0, .u32, .no, .no, .rw, .rw, .rw, false, 0, .mask 0x0101FFFF⟩,
  ⟨0x38, 0x0017, 1, 0, 1, 0, 0, .u64, .no, .no, .r, .r, .r, false, 0x0, .any⟩,
  ⟨0x38, 0x0020, 1, 0, 1, 0, 0, .u16, .r, .no, .rw, .rw, .no, true, 64, .rangeOr 5 1736 0xFFFF⟩,
  ⟨0x38, 0x0021, 1, 0, 1, 0, 0, .u16, .r, .no, .rw, .rw, .no, true, 16, .range 1 65535⟩,
  ⟨0x38, 0x0030, 1, 0, 1, 0, 0, .u64, .r, .no, .r, .rw, .no, false, 0, .range 0 0⟩,
  ⟨0x38, 0x0031, 1, 0, 1, 0, 0, .u64, .r, .no, .r, .rw, .no, false, 0, .range 0 0⟩,
  ⟨0x38, 0x0032, 1, 0, 1, 0, 0, .u64, .r, .no, .r, .rw, .no, false, 0, .range 0 0⟩,
  ⟨0x38, 0x0033, 1, 0, 1, 0, 0, .u64, .r, .no, .r, .rw, .no, false, 0, .range 0 0⟩,
  ⟨0x38, 0x0034, 1, 0, 1, 0, 0, .u64, .r, .no, .r, .rw, .no, false, 0, .range 0 0⟩,
  ⟨0x38, 0x0035, 1, 0, 1, 0, 0, .u64, .r, .no, .r, .rw, .no, false, 0, .range 0 0⟩,
  ⟨0x38, 0x0036, 1, 0, 1, 0, 0, .u64, .r, .no, .r, .rw, .no, false, 0, .range 0 0⟩,
  ⟨0x38, 0x0037, 1, 0, 1, 0, 0, .u64, .r, .no, .r, .rw, .no, false, 0, .range 0 0⟩,
  ⟨0x38, 0x4000, 1, 0, 23, 0, 0, .u64, .r, .no, .r, .rw, .no, false, 0, .range 0 0⟩,
  ⟨0x38, 0x4000, 1, 0, 23, 1, 1, .u64, .r, .no, .r, .rw, .no, false, 0, .range 0 0⟩,
  ⟨0x38, 0x4000, 1, 0, 23, 2, 2, .u64, .r, .no, .r, .rw, .no, false, 0, .range 0 0⟩,
  ⟨0x38, 0x4000, 1, 0, 23, 3, 3, .u64, .r, .no, .r, .rw, .no, false, 0, .range 0 0⟩,
  ⟨0x38, 0x4000, 1, 0, 23, 4, 4, .u64, .r, .no, .r, .rw, .no, false, 0, .range 0 0⟩,
  ⟨0x38, 0x4000, 1, 0, 23, 5, 5, .u16, .r, .no, .r, .r, .no, false, 0, .any⟩,
  ⟨0x38, 0x4000, 1, 0, 23, 6, 6, .u16, .r, .no, .r, .rw, .no, false, 0, .range 0 0⟩,
  ⟨0x38, 0x4000, 1, 0, 23, 7, 7, .u64, .r, .no, .r, .rw, .no, false, 0, .range 0 0⟩,
  ⟨0x38, 0x4000, 1, 0, 23, 8, 8, .u8, .r, .no, .r, .r, .rw, false, 0, .range 0 1⟩,
  ⟨0x38, 0x4000, 1, 0, 23, 9, 9, (.oct 10), .r, .no, .r, .r, .no, false, 0, .any⟩,
  ⟨0x38, 0x4000, 1, 0, 23, 10, 14, .u64, .r, .no, .r, .rw, .no, false, 0, .range 0 0⟩,
  ⟨0x38, 0x4400, 23, 8, 8, 0, 0, .u8, .r, .no, .r, .r, .no, false, 0, .any⟩,
  ⟨0x38, 0x4400, 23, 8, 8, 1, 1, .u32, .r, .no, .r, .r, .no, false, 0, .any⟩]
/-- The rows of area 40, ascending by first entry and sub (part 1). -/
def dict40p0 : List DictRow := [
  ⟨0x40, 0x0000, 1, 0, 1, 0, 0, .u8, .r, .r, .r, .r, .no, false, 4, .any⟩,
  ⟨0x40, 0x0010, 1, 0, 1, 0, 0, .u32, .r, .r, .rw, .rw, .no, true, 2000, .range 1000 1000000⟩,
  ⟨0x40, 0x0011, 1, 0, 1, 0, 0, .u32, .r, .r, .rw, .rw, .no, true, 1000, .range 100 1000000⟩,
  ⟨0x40, 0x0012, 1, 0, 1, 0, 0, .u32, .r, .r, .r, .r, .no, false, 16384, .any⟩,
  ⟨0x40, 0x0020, 1, 0, 1, 0, 0, .u64, .r, .no, .r, .rw, .no, false, 0, .range 0 0⟩,
  ⟨0x40, 0x0021, 1, 0, 1, 0, 0, .u64, .r, .no, .r, .rw, .no, false, 0, .range 0 0⟩,
  ⟨0x40, 0x0022, 1, 0, 1, 0, 0, .u64, .r, .no, .r, .rw, .no, false, 0, .range 0 0⟩,
  ⟨0x40, 0x0023, 1, 0, 1, 0, 0, .u64, .r, .no, .r, .rw, .no, false, 0, .range 0 0⟩,
  ⟨0x40, 0x0024, 1, 0, 1, 0, 0, .u64, .r, .no, .r, .rw, .no, false, 0, .range 0 0⟩,
  ⟨0x40, 0x0025, 1, 0, 1, 0, 0, .u64, .r, .no, .r, .rw, .no, false, 0, .range 0 0⟩,
  ⟨0x40, 0x0026, 1, 0, 1, 0, 0, .u64, .r, .no, .r, .rw, .no, false, 0, .range 0 0⟩,
  ⟨0x40, 0x0027, 1, 0, 1, 0, 0, .u64, .r, .no, .r, .rw, .no, false, 0, .range 0 0⟩,
  ⟨0x40, 0x0028, 1, 0, 1, 0, 0, .u64, .r, .no, .r, .rw, .no, false, 0, .range 0 0⟩,
  ⟨0x40, 0x0029, 1, 0, 1, 0, 0, .u64, .r, .no, .r, .rw, .no, false, 0, .range 0 0⟩,
  ⟨0x40, 0x002A, 1, 0, 1, 0, 0, .u64, .r, .no, .r, .rw, .no, false, 0, .range 0 0⟩,
  ⟨0x40, 0x002B, 1, 0, 1, 0, 0, .u64, .r, .no, .r, .rw, .no, false, 0, .range 0 0⟩,
  ⟨0x40, 0x0100, 1, 0, 1, 0, 63, .u16, .r, .r, .rw, .rw, .no, false, 0, .range 0 0xFFFE⟩,
  ⟨0x40, 0x0101, 1, 0, 1, 0, 63, .u8, .r, .r, .rw, .rw, .no, false, 0, .range 0 1⟩,
  ⟨0x40, 0x0102, 1, 0, 1, 0, 63, (.octv 4 1028), .no, .no, .w, .w, .no, false, 0x0, .any⟩,
  ⟨0x40, 0x0103, 1, 0, 1, 0, 63, .u16, .no, .rw, .rw, .rw, .no, false, 0, .range 0 4095⟩,
  ⟨0x40, 0x0104, 1, 0, 1, 0, 63, .u32, .no, .r, .r, .r, .no, false, 0x0, .any⟩,
  ⟨0x40, 0x0105, 1, 0, 1, 0, 63, (.octv 4 1028), .no, .w, .w, .w, .no, false, 0x0, .any⟩,
  ⟨0x40, 0x0106, 1, 0, 1, 0, 63, (.oct 64), .no, .rw, .r, .rw, .no, false, 0, .any⟩,
  ⟨0x40, 0x0107, 1, 0, 1, 0, 63, (.oct 4), .r, .r, .r, .r, .no, false, 0, .any⟩,
  ⟨0x40, 0x0108, 1, 0, 1, 0, 63, .u8, .r, .r, .r, .rw, .no, false, 0xFF, .rangeOr 0 3 0xFF⟩,
  ⟨0x40, 0x0109, 1, 0, 1, 0, 63, .u32, .r, .r, .r, .r, .no, false, 0, .any⟩,
  ⟨0x40, 0x010A, 1, 0, 1, 0, 63, .u64, .no, .rw, .r, .r, .no, false, 0, .align 4096⟩,
  ⟨0x40, 0x010B, 1, 0, 1, 0, 63, .u16, .no, .rw, .r, .r, .no, false, 16, .pow2 16 4096⟩,
  ⟨0x40, 0x010C, 1, 0, 1, 0, 63, .u16, .no, .rw, .r, .r, .no, false, 0, .any⟩,
  ⟨0x40, 0x010D, 1, 0, 1, 0, 63, .u16, .r, .r, .r, .r, .no, false, 0, .any⟩,
  ⟨0x40, 0x4000, 4, 64, 64, 0, 0, .u8, .r, .r, .r, .r, .no, false, 0x01, .any⟩,
  ⟨0x40, 0x4000, 4, 64, 64, 1, 1, .u8, .no, .no, .no, .w, .no, false, 0x0, .range 3 4⟩,
  ⟨0x40, 0x4000, 4, 64, 64, 2, 2, .u64, .no, .rw, .r, .r, .no, false, 0, .align 4096⟩,
  ⟨0x40, 0x4000, 4, 64, 64, 3, 3, .u16, .no, .rw, .r, .r, .no, false, 16, .pow2 16 4096⟩,
  ⟨0x40, 0x4000, 4, 64, 64, 4, 4, .u16, .no, .rw, .r, .r, .no, false, 0, .any⟩,
  ⟨0x40, 0x4000, 4, 64, 64, 5, 5, .u16, .r, .r, .r, .r, .no, false, 0, .any⟩,
  ⟨0x40, 0x4000, 4, 64, 64, 6, 6, .u64, .no, .rw, .r, .r, .no, false, 0, .align 4096⟩,
  ⟨0x40, 0x4000, 4, 64, 64, 7, 7, .u16, .no, .rw, .r, .r, .no, false, 16, .pow2 16 4096⟩,
  ⟨0x40, 0x4000, 4, 64, 64, 8, 8, .u16, .no, .rw, .r, .r, .no, false, 0, .any⟩,
  ⟨0x40, 0x4000, 4, 64, 64, 9, 9, .u16, .r, .r, .r, .r, .no, false, 0, .any⟩]
/-- The rows of area 40, ascending by first entry and sub (part 2). -/
def dict40p1 : List DictRow := [
  ⟨0x40, 0x4000, 4, 64, 64, 10, 10, .u64, .no, .no, .r, .r, .no, false, 0, .any⟩,
  ⟨0x40, 0x4400, 1, 0, 4, 0, 0, .u8, .r, .r, .r, .r, .no, false, 0x01, .any⟩,
  ⟨0x40, 0x4400, 1, 0, 4, 1, 1, .u8, .no, .no, .w, .w, .no, false, 0x0, .range 1 2⟩]
/-- The rows of area 40. -/
def dict40 : List DictRow := dict40p0 ++ dict40p1
/-- The rows of area 48, ascending by first entry and sub. -/
def dict48 : List DictRow := [
  ⟨0x48, 0x0000, 1, 0, 1, 0, 0, .u8, .r, .no, .r, .r, .no, false, 0x00, .any⟩,
  ⟨0x48, 0x0001, 1, 0, 1, 0, 0, .u32, .r, .no, .r, .r, .no, false, 0, .any⟩,
  ⟨0x48, 0x0002, 1, 0, 1, 0, 0, .u8, .r, .r, .r, .r, .no, false, 0xFF, .any⟩,
  ⟨0x48, 0x0003, 1, 0, 1, 0, 0, .u8, .r, .no, .r, .r, .no, false, 0xFF, .any⟩,
  ⟨0x48, 0x0004, 1, 0, 1, 0, 0, .u32, .r, .no, .r, .r, .no, false, 0, .any⟩,
  ⟨0x48, 0x0010, 1, 0, 1, 0, 0, .u8, .r, .no, .rw, .rw, .no, true, 1, .range 0 1⟩,
  ⟨0x48, 0x0011, 1, 0, 1, 0, 0, .u16, .r, .no, .rw, .rw, .no, true, 1000, .range 100 10000⟩,
  ⟨0x48, 0x0012, 1, 0, 1, 0, 0, .u8, .r, .no, .rw, .rw, .no, true, 64, .range 1 64⟩,
  ⟨0x48, 0x0020, 1, 0, 1, 0, 0, .u64, .r, .r, .r, .r, .no, false, 0, .any⟩,
  ⟨0x48, 0x0021, 1, 0, 1, 0, 0, .u64, .r, .r, .r, .r, .no, false, 0, .any⟩,
  ⟨0x48, 0x0030, 1, 0, 1, 0, 0, .u64, .r, .no, .r, .rw, .no, false, 0, .range 0 0⟩,
  ⟨0x48, 0x0031, 1, 0, 1, 0, 0, .u64, .r, .no, .r, .rw, .no, false, 0, .range 0 0⟩,
  ⟨0x48, 0x0032, 1, 0, 1, 0, 0, .u64, .r, .no, .r, .rw, .no, false, 0, .range 0 0⟩,
  ⟨0x48, 0x0033, 1, 0, 1, 0, 0, .u64, .r, .no, .r, .rw, .no, false, 0, .range 0 0⟩,
  ⟨0x48, 0x0034, 1, 0, 1, 0, 0, .u64, .r, .no, .r, .rw, .no, false, 0, .range 0 0⟩,
  ⟨0x48, 0x0035, 1, 0, 1, 0, 0, .u64, .r, .no, .r, .rw, .no, false, 0, .range 0 0⟩,
  ⟨0x48, 0x4000, 1, 0, 18, 0, 0, .u8, .r, .no, .r, .r, .no, false, 0x00, .any⟩,
  ⟨0x48, 0x4000, 1, 0, 18, 1, 1, .u32, .r, .no, .r, .r, .no, false, 0, .any⟩,
  ⟨0x48, 0x4000, 1, 0, 18, 2, 2, .u32, .r, .no, .r, .r, .no, false, 0, .any⟩]
/-- The rows of area 4C, ascending by first entry and sub. -/
def dict4C : List DictRow := [
  ⟨0x4C, 0x0000, 1, 0, 1, 0, 0, .u8, .r, .r, .r, .r, .no, false, 0xFF, .any⟩,
  ⟨0x4C, 0x0001, 1, 0, 1, 0, 0, .u32, .r, .no, .r, .r, .no, false, 0, .any⟩,
  ⟨0x4C, 0x0002, 1, 0, 1, 0, 0, .u32, .r, .no, .r, .r, .no, false, 0, .any⟩,
  ⟨0x4C, 0x0003, 1, 0, 1, 0, 0, .u32, .r, .no, .r, .r, .no, false, 0, .any⟩,
  ⟨0x4C, 0x0004, 1, 0, 1, 0, 0, .u8, .r, .no, .r, .r, .no, false, 0, .any⟩,
  ⟨0x4C, 0x0010, 1, 0, 1, 0, 0, .u16, .r, .no, .rw, .rw, .no, true, 0xFFFF, .any⟩,
  ⟨0x4C, 0x0011, 1, 0, 1, 0, 0, .u16, .r, .no, .rw, .rw, .no, true, 100, .range 10 10000⟩,
  ⟨0x4C, 0x0012, 1, 0, 1, 0, 0, .u8, .r, .no, .rw, .rw, .no, true, 2, .range 1 4⟩,
  ⟨0x4C, 0x0020, 1, 0, 1, 0, 0, (.octv 5 1028), .no, .no, .w, .w, .no, false, 0x0, .any⟩,
  ⟨0x4C, 0x0021, 1, 0, 1, 0, 0, .u8, .no, .no, .w, .w, .no, false, 0x0, .range 1 1⟩,
  ⟨0x4C, 0x0022, 1, 0, 1, 0, 0, .u8, .r, .no, .r, .r, .no, false, 0x00, .any⟩,
  ⟨0x4C, 0x0023, 1, 0, 1, 0, 0, .u32, .r, .no, .r, .r, .no, true, 0, .any⟩,
  ⟨0x4C, 0x0030, 1, 0, 1, 0, 0, (.oct 16), .no, .no, .w, .w, .no, false, 0x0, .any⟩,
  ⟨0x4C, 0x0031, 1, 0, 1, 0, 0, .u16, .r, .no, .r, .r, .no, false, 0x0000, .any⟩,
  ⟨0x4C, 0x0040, 1, 0, 1, 0, 0, .u64, .r, .no, .r, .rw, .no, false, 0, .range 0 0⟩,
  ⟨0x4C, 0x0041, 1, 0, 1, 0, 0, .u64, .r, .no, .r, .rw, .no, false, 0, .range 0 0⟩,
  ⟨0x4C, 0x0042, 1, 0, 1, 0, 0, .u64, .r, .no, .r, .rw, .no, false, 0, .range 0 0⟩,
  ⟨0x4C, 0x4000, 1, 0, 64, 0, 0, .u8, .r, .r, .r, .r, .no, false, 0x08, .any⟩,
  ⟨0x4C, 0x4000, 1, 0, 64, 1, 1, .u32, .r, .no, .r, .r, .no, false, 0, .any⟩,
  ⟨0x4C, 0x4000, 1, 0, 64, 2, 2, .u8, .r, .no, .r, .r, .no, false, 0x00, .any⟩,
  ⟨0x4C, 0x4000, 1, 0, 64, 3, 3, .u32, .r, .no, .r, .r, .no, false, 0, .any⟩,
  ⟨0x4C, 0x4000, 1, 0, 64, 4, 4, .u32, .r, .no, .r, .r, .no, false, 0, .any⟩,
  ⟨0x4C, 0x6000, 1, 0, 64, 0, 0, .u8, .r, .r, .r, .r, .no, false, 0xFF, .any⟩,
  ⟨0x4C, 0x6000, 1, 0, 64, 1, 1, .u16, .r, .r, .r, .r, .no, false, 0, .any⟩,
  ⟨0x4C, 0x6000, 1, 0, 64, 2, 2, .u64, .r, .r, .r, .r, .no, false, 0, .any⟩,
  ⟨0x4C, 0x6000, 1, 0, 64, 3, 3, .u64, .r, .r, .r, .r, .no, false, 0, .any⟩,
  ⟨0x4C, 0x6000, 1, 0, 64, 4, 4, .u32, .r, .r, .r, .r, .no, false, 0, .any⟩]
/-- The rows of area 50, ascending by first entry and sub. -/
def dict50 : List DictRow := [
  ⟨0x50, 0x0000, 1, 0, 1, 0, 0, .u8, .r, .r, .r, .r, .no, false, 0x00, .any⟩,
  ⟨0x50, 0x0001, 1, 0, 1, 0, 0, .u16, .r, .no, .r, .r, .no, false, 0, .any⟩,
  ⟨0x50, 0x0002, 1, 0, 1, 0, 0, .u64, .r, .no, .r, .r, .no, false, 0, .any⟩,
  ⟨0x50, 0x0003, 1, 0, 1, 0, 0, .u16, .r, .r, .r, .r, .no, false, 2600, .any⟩,
  ⟨0x50, 0x0004, 1, 0, 1, 0, 0, .u8, .r, .r, .r, .r, .no, false, 0x00, .any⟩,
  ⟨0x50, 0x0005, 1, 0, 1, 0, 0, .u32, .r, .no, .r, .r, .no, false, 0, .any⟩,
  ⟨0x50, 0x0010, 1, 0, 1, 0, 0, .u16, .r, .no, .rw, .rw, .no, false, 2600, .rangeOr 900 2600 0⟩,
  ⟨0x50, 0x0011, 1, 0, 1, 0, 0, .u16, .r, .no, .rw, .rw, .no, true, 400, .range 100 2600⟩,
  ⟨0x50, 0x0012, 1, 0, 1, 0, 0, .u8, .no, .no, .w, .w, .no, false, 0x0, .range 1 1⟩,
  ⟨0x50, 0x0020, 1, 0, 1, 0, 0, .u8, .r, .no, .r, .r, .no, false, 0, .any⟩,
  ⟨0x50, 0x0021, 1, 0, 1, 0, 0, .u64, .r, .no, .r, .rw, .no, false, 0, .range 0 0⟩,
  ⟨0x50, 0x0022, 1, 0, 1, 0, 0, .u64, .r, .no, .r, .rw, .no, false, 0, .range 0 0⟩,
  ⟨0x50, 0x0030, 1, 0, 1, 0, 5, .i16, .r, .no, .r, .r, .no, false, 0x0, .any⟩,
  ⟨0x50, 0x0031, 1, 0, 1, 0, 0, .u16, .r, .no, .r, .r, .no, false, 0, .any⟩,
  ⟨0x50, 0x0040, 1, 0, 1, 0, 0, .u8, .r, .r, .r, .r, .no, false, 0x0, .any⟩,
  ⟨0x50, 0x0041, 1, 0, 1, 0, 0, .u8, .r, .no, .r, .r, .no, false, 0, .any⟩,
  ⟨0x50, 0x0042, 1, 0, 1, 0, 3, .u32, .r, .no, .r, .r, .no, false, 0x0, .any⟩,
  ⟨0x50, 0x0043, 1, 0, 1, 0, 1, .u16, .r, .no, .r, .r, .no, false, 0x0, .any⟩,
  ⟨0x50, 0x0050, 1, 0, 1, 0, 15, (.oct 8), .r, .no, .r, .r, .no, false, 0x0, .any⟩,
  ⟨0x50, 0x0060, 1, 0, 1, 0, 0, .u16, .r, .no, .rw, .rw, .no, true, 800, .range 100 10000⟩,
  ⟨0x50, 0x0061, 1, 0, 1, 0, 0, .u16, .r, .no, .rw, .rw, .no, true, 3980, .range 3000 4300⟩]
/-- The rows of area 58, ascending by first entry and sub. -/
def dict58 : List DictRow := [
  ⟨0x58, 0x0000, 1, 0, 1, 0, 0, .u32, .r, .no, .r, .r, .no, false, 0, .any⟩,
  ⟨0x58, 0x0001, 1, 0, 1, 0, 0, .u32, .r, .no, .r, .r, .no, false, 0, .any⟩,
  ⟨0x58, 0x0002, 1, 0, 1, 0, 0, .u16, .r, .no, .r, .r, .no, false, 0, .any⟩,
  ⟨0x58, 0x0010, 1, 0, 1, 0, 0, .u32, .r, .no, .rw, .rw, .no, true, 175000, .range 20000 250000⟩,
  ⟨0x58, 0x0011, 1, 0, 1, 0, 0, .u8, .r, .no, .rw, .rw, .no, true, 5, .range 0 30⟩,
  ⟨0x58, 0x0012, 1, 0, 1, 0, 0, .u16, .r, .no, .rw, .rw, .no, true, 100, .range 20 5000⟩,
  ⟨0x58, 0x0013, 1, 0, 1, 0, 0, .u16, .r, .no, .rw, .rw, .no, true, 1200, .range 900 2600⟩,
  ⟨0x58, 0x0014, 1, 0, 1, 0, 0, .u8, .r, .no, .rw, .rw, .no, true, 5, .range 2 9⟩,
  ⟨0x58, 0x0015, 1, 0, 1, 0, 0, .u8, .r, .no, .rw, .rw, .no, true, 4, .range 1 16⟩,
  ⟨0x58, 0x0020, 1, 0, 1, 0, 15, (.oct 32), .no, .no, .rw, .rw, .no, true, 0, .any⟩,
  ⟨0x58, 0x0021, 1, 0, 1, 0, 15, .u8, .r, .no, .r, .r, .no, false, 0x00, .any⟩,
  ⟨0x58, 0x0030, 1, 0, 1, 0, 0, .u16, .r, .no, .r, .r, .no, false, 0, .any⟩,
  ⟨0x58, 0x0031, 1, 0, 1, 0, 0, .u16, .r, .no, .r, .r, .no, false, 0, .any⟩,
  ⟨0x58, 0x0040, 1, 0, 1, 0, 0, .u64, .r, .no, .r, .rw, .no, false, 0, .range 0 0⟩,
  ⟨0x58, 0x0041, 1, 0, 1, 0, 0, .u64, .r, .no, .r, .rw, .no, false, 0, .range 0 0⟩]
/-- The rows of area 60, ascending by first entry and sub. -/
def dict60 : List DictRow := [
  ⟨0x60, 0x0000, 1, 0, 1, 0, 0, .u8, .r, .r, .r, .r, .no, false, 64, .any⟩,
  ⟨0x60, 0x0001, 1, 0, 1, 0, 0, .u64, .r, .no, .r, .r, .no, false, 0x0000000000000001, .any⟩,
  ⟨0x60, 0x0002, 1, 0, 1, 0, 0, .u8, .r, .r, .r, .r, .no, false, 0, .any⟩,
  ⟨0x60, 0x0010, 1, 0, 1, 0, 0, .u16, .r, .r, .rw, .rw, .no, true, 100, .range 10 10000⟩,
  ⟨0x60, 0x0020, 1, 0, 1, 0, 0, .u64, .r, .no, .r, .rw, .no, false, 0, .range 0 0⟩,
  ⟨0x60, 0x0021, 1, 0, 1, 0, 0, .u64, .r, .no, .r, .rw, .no, false, 0, .range 0 0⟩,
  ⟨0x60, 0x0022, 1, 0, 1, 0, 0, .u64, .r, .no, .r, .rw, .no, false, 0, .range 0 0⟩,
  ⟨0x60, 0x0023, 1, 0, 1, 0, 0, .u32, .r, .no, .r, .r, .no, false, 0, .any⟩,
  ⟨0x60, 0x0100, 1, 0, 1, 0, 63, (.oct 16), .no, .no, .w, .w, .no, false, 0x0, .any⟩,
  ⟨0x60, 0x0101, 1, 0, 1, 0, 63, .u16, .r, .r, .r, .r, .no, false, 0x0000, .any⟩,
  ⟨0x60, 0x0102, 1, 0, 1, 0, 63, .u8, .r, .r, .r, .r, .no, false, 0, .any⟩,
  ⟨0x60, 0x0103, 1, 0, 1, 0, 63, .u8, .r, .r, .r, .r, .no, false, 0, .any⟩,
  ⟨0x60, 0x0104, 1, 0, 1, 0, 63, .u8, .r, .r, .rw, .rw, .no, false, 1, .range 1 255⟩,
  ⟨0x60, 0x0105, 1, 0, 1, 0, 63, .u8, .r, .r, .rw, .rw, .no, false, 64, .range 1 64⟩,
  ⟨0x60, 0x0106, 1, 0, 1, 0, 63, .u32, .r, .r, .rw, .rw, .no, false, 0, .range 0 1597440⟩,
  ⟨0x60, 0x0107, 1, 0, 1, 0, 63, .u32, .r, .r, .r, .r, .no, false, 0, .any⟩,
  ⟨0x60, 0x0108, 1, 0, 1, 0, 63, .u8, .no, .no, .w, .w, .no, false, 0x0, .range 1 2⟩,
  ⟨0x60, 0x0109, 1, 0, 1, 0, 63, .u16, .r, .r, .r, .r, .no, false, 0x0000, .any⟩,
  ⟨0x60, 0x010A, 1, 0, 1, 0, 63, (.oct 240), .r, .r, .rw, .rw, .no, false, 0, .any⟩,
  ⟨0x60, 0x010B, 1, 0, 1, 0, 63, .u32, .r, .r, .r, .rw, .no, false, 0, .range 0 0⟩,
  ⟨0x60, 0x010C, 1, 0, 1, 0, 63, .u8, .r, .r, .r, .r, .no, false, 0x00, .any⟩,
  ⟨0x60, 0x4000, 64, 64, 64, 0, 0, (.oct 32), .no, .r, .r, .r, .no, false, 0, .any⟩,
  ⟨0x60, 0x4000, 64, 64, 64, 1, 1, (.oct 32), .no, .r, .rw, .rw, .no, false, 0, .any⟩]
/-- The rows of area 68, ascending by first entry and sub. -/
def dict68 : List DictRow := [
  ⟨0x68, 0x0000, 1, 0, 1, 0, 0, .u8, .r, .r, .r, .r, .no, false, 0x0, .any⟩,
  ⟨0x68, 0x0001, 1, 0, 1, 0, 0, (.oct 64), .r, .r, .r, .r, .no, false, 0x0, .any⟩,
  ⟨0x68, 0x0002, 1, 0, 1, 0, 0, (.oct 64), .r, .r, .r, .r, .no, false, 0x0, .any⟩,
  ⟨0x68, 0x0003, 1, 0, 1, 0, 0, (.octv 1 2048), .r, .r, .r, .r, .no, true, 0x0, .any⟩,
  ⟨0x68, 0x0004, 1, 0, 1, 0, 0, (.octv 1 2048), .r, .r, .r, .r, .no, false, 0x0, .any⟩,
  ⟨0x68, 0x0010, 1, 0, 1, 0, 7, (.oct 64), .r, .r, .rw, .rw, .no, true, 0, .any⟩,
  ⟨0x68, 0x0020, 1, 0, 1, 0, 0, (.oct 320), .no, .no, .r, .rw, .no, true, 0, .any⟩,
  ⟨0x68, 0x0021, 1, 0, 1, 0, 0, .u8, .r, .r, .r, .r, .no, false, 0x00, .any⟩,
  ⟨0x68, 0x0022, 1, 0, 1, 0, 0, .u8, .r, .no, .r, .r, .no, false, 0x00, .any⟩,
  ⟨0x68, 0x0023, 1, 0, 1, 0, 0, (.oct 48), .no, .no, .no, .w, .no, true, 0, .any⟩,
  ⟨0x68, 0x0030, 1, 0, 1, 0, 0, .u8, .r, .r, .r, .r, .no, false, 0x00, .any⟩,
  ⟨0x68, 0x0031, 1, 0, 1, 0, 0, .u64, .r, .no, .r, .rw, .no, false, 0, .range 0 0⟩,
  ⟨0x68, 0x0100, 1, 0, 1, 0, 63, (.oct 64), .no, .w, .no, .w, .no, false, 0x0, .any⟩,
  ⟨0x68, 0x0101, 1, 0, 1, 0, 63, .u16, .r, .r, .r, .r, .no, false, 0x0000, .any⟩,
  ⟨0x68, 0x0102, 1, 0, 1, 0, 63, (.oct 64), .r, .r, .r, .r, .no, false, 0, .any⟩,
  ⟨0x68, 0x0103, 1, 0, 1, 0, 63, .u32, .r, .r, .r, .r, .no, false, 0, .any⟩,
  ⟨0x68, 0x0104, 1, 0, 1, 0, 63, .u64, .r, .r, .r, .r, .no, false, 0, .any⟩]
/-- The rows of area 6C, ascending by first entry and sub. -/
def dict6C : List DictRow := [
  ⟨0x6C, 0x0000, 1, 0, 1, 0, 0, .u8, .r, .r, .r, .r, .no, false, 0x00, .any⟩,
  ⟨0x6C, 0x0001, 1, 0, 1, 0, 0, .u32, .r, .r, .r, .r, .no, true, 0x0, .any⟩,
  ⟨0x6C, 0x0010, 1, 0, 1, 0, 0, (.oct 32), .w, .w, .w, .w, .no, false, 0x0, .any⟩,
  ⟨0x6C, 0x0011, 1, 0, 1, 0, 0, (.octv 1 4096), .r, .r, .r, .r, .no, false, 0x0, .any⟩,
  ⟨0x6C, 0x0012, 1, 0, 1, 0, 0, .u16, .r, .r, .r, .r, .no, false, 0x0000, .any⟩,
  ⟨0x6C, 0x0020, 1, 0, 1, 0, 0, .u64, .r, .no, .r, .rw, .no, false, 0, .range 0 0⟩,
  ⟨0x6C, 0x0100, 1, 0, 1, 0, 63, (.oct 48), .no, .w, .w, .w, .no, false, 0x0, .any⟩,
  ⟨0x6C, 0x0101, 1, 0, 1, 0, 63, .u16, .r, .r, .r, .r, .no, false, 0x0000, .any⟩]
/-- The rows of area 70, ascending by first entry and sub. -/
def dict70 : List DictRow := [
  ⟨0x70, 0x0000, 1, 0, 1, 0, 0, .u64, .r, .no, .r, .r, .no, true, 0x0, .any⟩,
  ⟨0x70, 0x0001, 1, 0, 1, 0, 0, .u64, .r, .no, .r, .r, .no, true, 0x0, .any⟩,
  ⟨0x70, 0x0002, 1, 0, 1, 0, 0, .u16, .r, .no, .r, .r, .no, true, 0, .any⟩,
  ⟨0x70, 0x0003, 1, 0, 1, 0, 0, .u64, .r, .no, .r, .r, .no, true, 0, .any⟩,
  ⟨0x70, 0x0010, 1, 0, 1, 0, 0, (.oct 9), .w, .no, .w, .w, .no, false, 0x0, .any⟩,
  ⟨0x70, 0x0011, 1, 0, 1, 0, 0, (.octv 16 976), .r, .no, .r, .r, .no, false, 0x0, .any⟩,
  ⟨0x70, 0x0020, 1, 0, 1, 0, 0, .u64, .no, .no, .no, .w, .no, false, 0x0, .any⟩,
  ⟨0x70, 0x0030, 1, 0, 1, 0, 0, .u64, .r, .no, .r, .rw, .no, false, 0, .range 0 0⟩,
  ⟨0x70, 0x0031, 1, 0, 1, 0, 0, .u64, .r, .no, .r, .rw, .no, false, 0, .range 0 0⟩,
  ⟨0x70, 0x0032, 1, 0, 1, 0, 0, .u64, .r, .no, .r, .rw, .no, false, 0, .range 0 0⟩,
  ⟨0x70, 0x0033, 1, 0, 1, 0, 0, .u8, .r, .no, .r, .r, .no, false, 0x00, .any⟩]
/-- The rows of area 78, ascending by first entry and sub. -/
def dict78 : List DictRow := [
  ⟨0x78, 0x0000, 1, 0, 1, 0, 0, .u8, .r, .r, .r, .r, .no, false, 3, .any⟩,
  ⟨0x78, 0x0010, 1, 0, 1, 0, 0, .u16, .r, .r, .rw, .rw, .no, true, 60, .range 5 3600⟩,
  ⟨0x78, 0x0011, 1, 0, 1, 0, 0, .u16, .r, .r, .rw, .rw, .no, true, 1000, .range 1 60000⟩,
  ⟨0x78, 0x0012, 1, 0, 1, 0, 0, (.oct 128), .no, .no, .r, .rw, .no, true, 0, .any⟩,
  ⟨0x78, 0x0013, 1, 0, 1, 0, 0, .u16, .r, .no, .r, .r, .no, false, 0, .any⟩,
  ⟨0x78, 0x0014, 1, 0, 1, 0, 0, (.octv 0 1024), .no, .no, .r, .r, .no, false, 0x0, .any⟩,
  ⟨0x78, 0x0015, 1, 0, 1, 0, 0, .u32, .no, .no, .no, .w, .no, false, 0x0, .any⟩,
  ⟨0x78, 0x0016, 1, 0, 1, 0, 0, .u8, .no, .no, .no, .w, .no, false, 0x0, .range 1 1⟩,
  ⟨0x78, 0x0017, 1, 0, 1, 0, 0, .u8, .r, .no, .rw, .rw, .no, true, 0, .range 0 1⟩,
  ⟨0x78, 0x0020, 1, 0, 1, 0, 0, .u64, .r, .no, .r, .rw, .no, false, 0, .range 0 0⟩,
  ⟨0x78, 0x0021, 1, 0, 1, 0, 0, .u64, .r, .no, .r, .rw, .no, false, 0, .range 0 0⟩,
  ⟨0x78, 0x0022, 1, 0, 1, 0, 0, .u64, .r, .no, .r, .rw, .no, false, 0, .range 0 0⟩,
  ⟨0x78, 0x0023, 1, 0, 1, 0, 0, .u64, .r, .no, .r, .rw, .no, false, 0, .range 0 0⟩,
  ⟨0x78, 0x0024, 1, 0, 1, 0, 0, .u64, .r, .no, .r, .rw, .no, false, 0, .range 0 0⟩,
  ⟨0x78, 0x0100, 1, 0, 1, 0, 63, (.oct 32), .no, .r, .rw, .rw, .no, false, 0, .any⟩,
  ⟨0x78, 0x4000, 1, 0, 3, 0, 0, .u8, .r, .no, .r, .r, .no, false, 0x00, .any⟩,
  ⟨0x78, 0x4000, 1, 0, 3, 1, 1, (.oct 36), .r, .no, .rw, .rw, .no, true, 0, .any⟩,
  ⟨0x78, 0x4000, 1, 0, 3, 2, 2, .u8, .r, .no, .r, .r, .no, false, 0x00, .any⟩,
  ⟨0x78, 0x6000, 1, 0, 16, 0, 0, .u8, .r, .r, .r, .r, .no, false, 0x03, .any⟩,
  ⟨0x78, 0x6000, 1, 0, 16, 1, 1, .u8, .no, .no, .w, .w, .no, false, 0x0, .range 1 2⟩,
  ⟨0x78, 0x6000, 1, 0, 16, 2, 2, (.oct 32), .no, .r, .rw, .rw, .no, false, 0, .any⟩,
  ⟨0x78, 0x6000, 1, 0, 16, 3, 3, .u16, .no, .rw, .r, .r, .no, false, 0, .any⟩,
  ⟨0x78, 0x6000, 1, 0, 16, 4, 4, .u16, .no, .r, .r, .r, .no, false, 0, .any⟩,
  ⟨0x78, 0x6000, 1, 0, 16, 5, 5, .u8, .r, .r, .r, .r, .no, false, 0, .any⟩,
  ⟨0x78, 0x6000, 1, 0, 16, 6, 6, .u32, .r, .r, .r, .r, .no, false, 0, .any⟩,
  ⟨0x78, 0x6000, 1, 0, 16, 7, 7, .u64, .no, .r, .r, .r, .no, false, 0, .any⟩]
/-- The rows of area 7C, ascending by first entry and sub. -/
def dict7C : List DictRow := [
  ⟨0x7C, 0x0000, 1, 0, 1, 0, 0, .u8, .r, .r, .r, .r, .no, false, 4, .any⟩,
  ⟨0x7C, 0x4001, 1, 0, 4, 0, 0, .u8, .r, .no, .r, .r, .no, true, 0x00, .any⟩,
  ⟨0x7C, 0x4001, 1, 0, 4, 1, 1, .u8, .r, .no, .r, .r, .no, true, 0x0, .any⟩,
  ⟨0x7C, 0x4001, 1, 0, 4, 2, 2, .u32, .r, .r, .r, .r, .no, false, 0x0, .any⟩,
  ⟨0x7C, 0x4001, 1, 0, 4, 3, 3, .u32, .r, .r, .r, .r, .no, false, 0x0, .any⟩,
  ⟨0x7C, 0x4001, 1, 0, 4, 4, 4, .u16, .r, .no, .r, .r, .no, false, 0x0, .any⟩,
  ⟨0x7C, 0x4001, 1, 0, 4, 5, 5, .u32, .r, .no, .r, .r, .no, true, 0, .any⟩,
  ⟨0x7C, 0x4001, 1, 0, 4, 6, 6, .u32, .r, .no, .r, .rw, .no, true, 0, .any⟩,
  ⟨0x7C, 0x4001, 1, 0, 4, 7, 7, .u8, .no, .no, .w, .w, .no, false, 0x0, .range 1 4⟩,
  ⟨0x7C, 0x4001, 1, 0, 4, 8, 8, (.octv 5 1028), .no, .no, .w, .w, .no, false, 0x0, .any⟩,
  ⟨0x7C, 0x4001, 1, 0, 4, 9, 9, .u16, .r, .no, .r, .r, .no, false, 0x0000, .any⟩,
  ⟨0x7C, 0x4001, 1, 0, 4, 10, 10, .u32, .r, .no, .r, .r, .no, true, 0, .any⟩]
/-- The rows of area 84, ascending by first entry and sub. -/
def dict84 : List DictRow := [
  ⟨0x84, 0x0000, 1, 0, 1, 0, 0, (.oct 16), .r, .no, .r, .r, .no, true, 0x0, .any⟩,
  ⟨0x84, 0x0001, 1, 0, 1, 0, 0, .u8, .r, .no, .r, .r, .no, false, 0x0, .any⟩,
  ⟨0x84, 0x0002, 1, 0, 1, 0, 0, .i16, .r, .no, .r, .r, .no, false, 0x0, .any⟩]
/-- The rows of area 88, ascending by first entry and sub. -/
def dict88 : List DictRow := [
  ⟨0x88, 0x0000, 1, 0, 1, 0, 0, .u16, .r, .no, .r, .r, .no, false, 0, .any⟩,
  ⟨0x88, 0x0001, 1, 0, 1, 0, 0, .u16, .r, .no, .rw, .rw, .no, false, 2600, .rangeOr 900 2600 0⟩]
/-- The rows of one area; area F0 and every number not in the map have none (R449). -/
def dictArea (area : Nat) : List DictRow :=
  if area = 0x00 then dict00
  else if area = 0x08 then dict08
  else if area = 0x10 then dict10
  else if area = 0x18 then dict18
  else if area = 0x20 then dict20
  else if area = 0x28 then dict28
  else if area = 0x30 then dict30
  else if area = 0x38 then dict38
  else if area = 0x40 then dict40
  else if area = 0x48 then dict48
  else if area = 0x4C then dict4C
  else if area = 0x50 then dict50
  else if area = 0x58 then dict58
  else if area = 0x60 then dict60
  else if area = 0x68 then dict68
  else if area = 0x6C then dict6C
  else if area = 0x70 then dict70
  else if area = 0x78 then dict78
  else if area = 0x7C then dict7C
  else if area = 0x84 then dict84
  else if area = 0x88 then dict88
  else []

end Sys2Proof.Machine
end

