-- ==== Sys2Proof/Machine/State.lean ====
section
/-! DEFINITION. The state of one package: the dictionary's register file, the memory, the units, the firmware's tables, the pins, and the queue of
commands that wait. State.reset is the package right after a cold reset. -/

namespace Sys2Proof.Machine

open Sys2Proof

/-- The reasons a command can stop the package. The spec names no stop: every failure it describes is an effect on the state, so no meaning raises
one. Safe: a model that never stops proves nothing about stops. -/
inductive Fault where
  /-- Raised by nobody. -/
  | none_
  deriving DecidableEq, Repr

/-- The reasons a command can be refused by the model. -/
inductive Refusal where
  /-- Raised by an arm of `exec` whose command has no meaning yet; safe, since nothing can be proved of it. -/
  | notModelled (mnemonic : String)
  deriving DecidableEq, Repr

/-- One package. -/
structure State where
  /-- Integer objects that hold another value than their default, by object key (R445). -/
  reg : NMap Nat
  /-- Byte-string objects, likewise. -/
  oct : NMap Bytes
  mem : Mem
  tiles : NMap Tile
  /-- Posts on their way to a pool (R119). -/
  posts : List PostMsg
  /-- Decrements on their way to a tally (R111, R112). -/
  decs : List TallyDec
  jti : NMap JtiLoad
  chans : NMap TeChan
  /-- Queue pairs, by `16 * h + q`. -/
  qps : NMap HteQp
  links : NMap LinkPort
  d2d : NMap D2dLink
  router : Router
  ni : NiSys
  /-- Packets the fabric agent has handed to port M (R313). -/
  mEgress : List Packet
  agent : Agent
  wh : Wellhead
  ctxs : CtxSys
  sec : Sec
  mgmt : Mgmt
  steward : Steward
  boot : Boot
  rcd : Recorder
  /-- Nanoseconds since RESET_N was released. -/
  now : Nat
  /-- The number of free values taken so far (the model's own field). -/
  fresh : Nat
  /-- The age the next task takes on entering a pool (R116). -/
  nextAge : Nat
  /-- How often an access has met a tile whose accesses are held (R100): a command that raises this number waits (the model's own field). -/
  heldHit : Nat
  /-- What the package has put on its boundary, newest first (the model's own field). -/
  sent : List Emit
  /-- The commands that wait, first in, first out. -/
  pending : List Instr
  deriving DecidableEq, Repr

def Router.init : Router := ⟨[], 0, [], [], 0, [], [], [], []⟩

def Recorder.init : Recorder := ⟨false, 1, 1, [], [], [], [], 0, [], [], [], none, none, []⟩

/-- The security core right after reset: no key, no record (DESIGN CHOICE: zeros). -/
def Sec.init : Sec :=
  { uds := zeros 32, bindingPriv := zeros 32, aliasPriv := zeros 32, recordKey := zeros 32, arForce := zeros 320, arStored := zeros 320, slotKeys := [],
    slotEpochs := [], xPriv := [], actSlot := [], pkg := [], images := [], chains := [], commits := [], scRuns := [], attest := [] }

def Mgmt.init : Mgmt :=
  { sessions := [], nextId := 1, groupKey := zeros 32, groupSeq := 0, peerKeys := [], mailboxes := [], fw := [], storing := [],
    persistReset := false, paused := [], opening := [], fwDue := [] }

def Steward.init : Steward :=
  { floorSetNs := 0, stopTo := 1, parkOrder := false, parkWhy := [], thermalFabric := false, lowFlowTray := false, lowFlowWh := false, stewardCap := 0,
    granted := false, fabricOrder := false, orphanCap := none, thermalSteps := [], suspect := [], loopClass := [], loopPrev := [],
    lead := false, leadCol := 0, inlet := 0, outlet := 0, pressure := 0, cduSupply := 0, eqs := [], reports := [], grantedPos := [], safetySeq := 0,
    txSeq := 0, alert := false, pumpLoss := false, trayLow := [], trayOut := [], keptBudget := 0, nextTray := 0, raising := [],
    railBad := [], railMw := [], pwrSum := 0, pwrN := 0, polls := [], msMw := [], msAmp := [], safetyRx := 0, trayUsed := [], alertWait := [], lowFlowSaid := false,
    ramp := 880, pfailPend := false, temps := [], hotMs := [], pumpHandled := false, trayStat := [], trayOk := [], lastCaps := [] }

/-- Right after reset every die but MD is held in reset (R481) and no reference has been seen. -/
def Boot.init : Boot :=
  { resetN := true, throttleN := true, pfailN := true, trayPresN := false, pmbusAlertN := true, straps := 0, rails := [], step := 0,
    held := false, runAll := false, dead := false, retest := false, refA := false, refB := false, ptpDelta := 0, ptpOffset := 0, ptpHeard := false, ptpSource := 0,
    inReset := [1, 2, 3, 4, 5], confirmed := [], fdFaultNs := none, fdReset := false, fdNew := false, resetWaits := false, failCounts := [], mapNew := MapCopy.init, mapOld := MapCopy.init, mapDirty := [],
    flReg := [], flOct := [], tapInstr := 0, bsr := 0, tapDrive := false, tapFloat := false }

/-- The package right after reset (R447, R481): every object at its default, memory with nothing listed, every unit idle. -/
def State.reset : State :=
  { reg := [], oct := [], mem := Mem.init, tiles := [], posts := [], decs := [], jti := [], chans := [], qps := [], links := [], d2d := [],
    router := Router.init, ni := NiSys.init, mEgress := [], agent := Agent.init, wh := Wellhead.init, ctxs := CtxSys.init, sec := Sec.init,
    mgmt := Mgmt.init, steward := Steward.init, boot := Boot.init, rcd := Recorder.init, now := 0, fresh := 0, nextAge := 0, heldHit := 0, sent := [], pending := [] }

end Sys2Proof.Machine
end

