-- ==== Sys2Proof/Machine/Ops.lean ====
section
/-! DEFINITION. The named operations over the state: reading and writing objects, counting, recording an event, taking a free value, and the parts
of the state by index. -/

namespace Sys2Proof.Machine

open Sys2Proof

/-- The present value of an integer object (R443). -/
def State.rd (s : State) (o : Obj) : Nat := mgetD s.reg o.key o.dflt

/-- Give an integer object a value (R443). -/
def State.wr (s : State) (o : Obj) (v : Nat) : State := { s with reg := mput s.reg o.key v }

/-- The present value of a byte-string object. -/
def State.rdo (s : State) (o : Oct) : Bytes := mgetD s.oct o.key o.dflt

/-- Give a byte-string object a value. -/
def State.wro (s : State) (o : Oct) (v : Bytes) : State := { s with oct := mput s.oct o.key v }

/-- Add to a 64-bit counter; every event is counted (R62). The spec gives no limit but the width: the count wraps (DESIGN CHOICE). -/
def State.bumpBy (s : State) (o : Obj) (n : Nat) : State := s.wr o ((s.rd o + n) % 2 ^ 64)

/-- Count one event (R62). -/
def State.bump (s : State) (o : Obj) : State := s.bumpBy o 1

/-- Count one event in a counter of fewer bits, which stops at its largest value (DESIGN CHOICE). -/
def State.bumpSat (s : State) (o : Obj) (w : Nat) : State := s.wr o (min (s.rd o + 1) (2 ^ w - 1))

/-- Package time (R479): 0 while `ptp_state` reads UNLOCKED. -/
def State.pkgTime (s : State) : Nat :=
  if s.rd Obj.ptpState = 1 then ((s.now : Int) + s.boot.ptpDelta).toNat else 0

/-- Milliseconds since RESET_N was released (R488). -/
def State.upMs (s : State) : Nat := s.now / 1000000 % 2 ^ 32

/-- Offer an event to the recorder's input queue; one that finds 1,024 waiting is lost and counted (R490). -/
def State.offer (s : State) (e : EventIn) : State :=
  if s.rcd.queue.length < 1024 then { s with rcd := { s.rcd with queue := s.rcd.queue ++ [e] } }
  else { s.bump Obj.erRecordsLost with rcd := { s.rcd with lostNow := s.rcd.lostNow + 1 } }

/-- Record an event (R488, R501); context 0xFF is none. -/
def State.event (s : State) (code cls unit ctx a0 a1 a2 : Nat) : State :=
  s.offer ⟨code, cls, unit, ctx, a0, a1, a2, s.pkgTime, s.upMs⟩

/-- No context in an event record (R488). -/
abbrev noCtx : Nat := 0xFF

/-- The next free value, and the state with it taken. -/
def State.free (s : State) (n : Nat) : Nat × State := (Config.freeValue s.fresh % 2 ^ n, { s with fresh := s.fresh + 1 })

/-- Put something on the package's boundary. -/
def State.emit (s : State) (e : Emit) : State := { s with sent := e :: s.sent }

def State.tile (s : State) (n : Nat) : Tile := mgetD s.tiles n Tile.init
def State.setTile (s : State) (n : Nat) (t : Tile) : State := { s with tiles := mput s.tiles n t }
def State.chan (s : State) (c : Nat) : TeChan := mgetD s.chans c TeChan.init
def State.setChan (s : State) (c : Nat) (v : TeChan) : State := { s with chans := mput s.chans c v }
def State.qp (s : State) (h q : Nat) : HteQp := mgetD s.qps (16 * h + q) HteQp.init
def State.setQp (s : State) (h q : Nat) (v : HteQp) : State := { s with qps := mput s.qps (16 * h + q) v }
def State.link (s : State) (p : Nat) : LinkPort := mgetD s.links p LinkPort.init
def State.setLink (s : State) (p : Nat) (v : LinkPort) : State := { s with links := mput s.links p v }
def State.niOf (s : State) (i : Nat) : Ni := mgetD s.ni.nis i Ni.init
def State.setNi (s : State) (i : Nat) (v : Ni) : State := { s with ni := { s.ni with nis := mput s.ni.nis i v } }
def State.niq (s : State) (i c : Nat) : NiQueue := mgetD s.ni.queues (64 * i + c) NiQueue.init
def State.setNiq (s : State) (i c : Nat) (v : NiQueue) : State := { s with ni := { s.ni with queues := mput s.ni.queues (64 * i + c) v } }
def State.mbox (s : State) (m : Nat) : Mailbox := mgetD s.mgmt.mailboxes m ⟨[], 0, false⟩
def State.setMbox (s : State) (m : Nat) (v : Mailbox) : State := { s with mgmt := { s.mgmt with mailboxes := mput s.mgmt.mailboxes m v } }

/-- The record of a unit's change of state (R24, R501). -/
def State.unitEvent (s : State) (cls unit old new : Nat) : State := s.event 0x0001 cls unit noCtx old new 0

/-- Move a state object to a unit state, with its event; nothing is recorded where the state does not change. -/
def State.goState (s : State) (o : Obj) (cls unit new : Nat) : State :=
  if s.rd o = new then s else (s.wr o new).unitEvent cls unit (s.rd o) new

/-- A unit's state, mapping or fail count changed: the field map is to be written (R467). -/
def State.mapNote (s : State) (cls unit : Nat) : State :=
  let k := 65536 * cls + unit
  if s.boot.mapDirty.contains k then s else { s with boot := { s.boot with mapDirty := s.boot.mapDirty ++ [k] } }

/-- The fail count of a unit that is no tile site (R473). -/
def State.failsOf (s : State) (cls unit : Nat) : Nat := mgetD s.boot.failCounts (65536 * cls + unit) 0

/-- A unit failed: its fail count rises, and the field map is to be written (R467, R473). -/
def State.addFail (s : State) (cls unit : Nat) : State :=
  { s with boot := { s.boot with failCounts := mput s.boot.failCounts (65536 * cls + unit) (s.failsOf cls unit + 1) } }.mapNote cls unit

/-- Whether a reset domain is out of reset (R481). -/
def State.domUp (s : State) (d : Nat) : Bool := !s.boot.inReset.contains d

/-- Power states by the codes of R345. -/
abbrev pwrOff : Nat := 0
abbrev pwrFabric : Nat := 1
abbrev pwrStarting : Nat := 2
abbrev pwrOn : Nat := 3
abbrev pwrStopping : Nat := 4
abbrev pwrParked : Nat := 5

/-- The states of a context (R381). -/
abbrev ctxFree : Nat := 0
abbrev ctxOpen : Nat := 1
abbrev ctxRetiring : Nat := 2

/-- The state of a context; ctx 0 is always OPEN (R381). -/
def State.ctxSt (s : State) (c : Nat) : Nat := if c = 0 then ctxOpen else s.rd (Obj.ctxState c)

/-- Whether a context was opened confidential and has not been retired (R399). -/
def State.confidential (s : State) (c : Nat) : Bool := c != 0 && s.ctxSt c != ctxFree && bit (s.rd (Obj.ctxFlagsInForce c)) 0

/-- Whether a master of the package may be ACTIVE (R346, R347): in STARTING and ON. An enable command in another state is answered REFUSED (DESIGN CHOICE: the spec states no
answer). -/
def State.mastersMay (s : State) : Bool := s.rd Obj.pkgPowerState == pwrStarting || s.rd Obj.pkgPowerState == pwrOn

/-- The position of the package (R8). -/
def State.pos (s : State) : Nat := s.rd Obj.position

/-- A command one of whose accesses meets a tile in steps 2 to 4 of a substitution waits until step 4 admits it (R100): it changes nothing, and is sent again. -/
def State.unlessHeld (s t : State) : State := if s.heldHit < t.heldHit then s else t

/-- Write bytes as a little-endian record of parts. -/
def bytesOf (parts : List Bytes) : Bytes := parts.foldr (· ++ ·) []

end Sys2Proof.Machine
end

