-- ==== Sys2Proof/Machine/Memory.lean ====
section
/-! DEFINITION. Physical memory, its checks, windows and page translation (R66, R79 to R82, R152 to R181, R385 to R390): every access of every
master goes through the operations of this file. -/

namespace Sys2Proof.Machine

open Sys2Proof

/-- Where a 44-bit physical address lies (R66, R152). -/
inductive Region where
  | sram (tile off : Nat)
  | shallows
  | deeps
  | control
  | hole
  deriving DecidableEq, Repr

/-- The interleave mode in force of the Shallows (false) or the Deeps (true): true is PACKAGE (R154). -/
def State.pkgMode (s : State) (deeps : Bool) : Bool := bit (s.rd Obj.interleaveInForce) (ofBool deeps)

abbrev gib : Nat := 1073741824

/-- The region of a physical address in the interleave mode in force (R152). -/
def State.regionOf (s : State) (pa : Nat) : Region :=
  if pa / 2 ^ 42 = 2 then
    if bits pa 32 10 = 0 ∧ bits pa 21 11 < 1920 then .sram (bits pa 21 11) (pa % 2 ^ 21) else .hole
  else if pa / 2 ^ 42 = 0 then
    if s.pkgMode false then (if pa < 1080 * gib then .shallows else .hole)
    else if pa / 2 ^ 39 < 4 ∧ pa % 2 ^ 39 < 270 * gib then .shallows else .hole
  else if pa / 2 ^ 42 = 1 then
    let o := pa - 2 ^ 42
    if s.pkgMode true then (if o < 480 * gib then .deeps else .hole)
    else if o / 2 ^ 37 < 4 ∧ o % 2 ^ 37 < 120 * gib then .deeps else .hole
  else if pa / 2 ^ 42 = 3 then .control
  else .hole

/-- The physical address of an offset in a tile's SRAM (R66). -/
def tilePa (n off : Nat) : Nat := 2 ^ 43 + n * 2 ^ 21 + off

/-- The stack, the logical data die and the die channel of a granule of the Shallows (R155). -/
def State.placeShallows (s : State) (pa : Nat) : Nat × Nat × Nat :=
  let d := pa / 2 ^ 39
  let o := if s.pkgMode false then pa else pa % 2 ^ 39
  let n := if s.pkgMode false then 768 else 192
  let g := o / 128
  let row := g / n
  let c := (g + row) % n
  if s.pkgMode false then (c % 24, c / 24 / 2, c / 24 % 2) else (6 * d + c % 6, c / 6 / 2, c / 6 % 2)

/-- The stack (24 and up), the logical data die and the die channel of a granule of the Deeps (R155). -/
def State.placeDeeps (s : State) (pa : Nat) : Nat × Nat × Nat :=
  let p := pa - 2 ^ 42
  let d := p / 2 ^ 37
  let o := if s.pkgMode true then p else p % 2 ^ 37
  let n := if s.pkgMode true then 128 else 32
  let g := o / 128
  let row := g / n
  let c := (g + row) % n
  let page := row / 15
  let ch := if s.pkgMode true then c / 8 else c / 2
  let st := if s.pkgMode true then c % 8 else 2 * d + c % 2
  (24 + st, 2 * (ch / 2) + page % 2, ch % 2)

/-- The stack, logical data die and die channel of a granule. -/
def State.place (s : State) (pa : Nat) : Nat × Nat × Nat :=
  if pa / 2 ^ 42 = 0 then s.placeShallows pa else s.placeDeeps pa

/-- Whether the compute die that holds an address, or whose stacks hold it, is out of reset (R481, R483). -/
def State.paUp (s : State) (pa : Nat) : Bool :=
  match s.regionOf pa with
  | .sram t _ => s.domUp (t / 480 + 1)
  | .shallows => s.domUp ((s.placeShallows pa).1 / 6 + 1)
  | .deeps => s.domUp (((s.placeDeeps pa).1 - 24) / 2 + 1)
  | _ => true

/-- The ECC group of a granule within its die channel (R155, R156): each rank of a Deeps channel holds every other group. -/
def State.groupOf (s : State) (pa : Nat) : Nat :=
  if pa / 2 ^ 42 = 0 then (if s.pkgMode false then pa else pa % 2 ^ 39) / 128 / (if s.pkgMode false then 768 else 192) / 15
  else (if s.pkgMode true then pa - 2 ^ 42 else (pa - 2 ^ 42) % 2 ^ 37) / 128 / (if s.pkgMode true then 128 else 32) / 15 / 2

/-- The slot of a granule within its ECC group (R155, R156). -/
def State.slotOf (s : State) (pa : Nat) : Nat :=
  if pa / 2 ^ 42 = 0 then (if s.pkgMode false then pa else pa % 2 ^ 39) / 128 / (if s.pkgMode false then 768 else 192) % 15
  else (if s.pkgMode true then pa - 2 ^ 42 else (pa - 2 ^ 42) % 2 ^ 37) / 128 / (if s.pkgMode true then 128 else 32) % 15

/-- Where stored byte `i` of a granule's 136 lies within its die channel (R156): a data byte in the granule's slot, a check byte after the slots. Bytes 2,040 to 2,047
of a group hold no granule's byte. -/
def State.cellOf (s : State) (pa i : Nat) : Nat :=
  2048 * s.groupOf pa + if i < 128 then 128 * s.slotOf pa + i else 1920 + 8 * s.slotOf pa + (i - 128)

/-- Whether a granule lies in a part of a die channel that was lost and has not been written whole since (R162, R180). -/
def State.lostGranule (s : State) (g : Nat) : Bool :=
  let p := s.place g
  let k := s.groupOf g
  s.mem.lost.any fun l => l.stack = p.1 ∧ l.logical = p.2.1 ∧ l.chan = p.2.2 ∧ l.lo ≤ k ∧ k < l.hi ∧
    !(l.renewed.any fun r => decide (r.1 ≤ g ∧ g < r.1 + r.2))

/-- What a check of 8 bytes says of an error in some of the 136 stored bytes (R157): 2 bytes are corrected, more are uncorrectable. -/
def eccSays (l : NMap Nat) : Option EccMark := if l = [] then none else if l.length ≤ 2 then some .ce else some .ue

/-- What the stored check of a granule says. -/
def State.markOf (s : State) (g : Nat) : Option EccMark :=
  if s.lostGranule g ∨ mget s.mem.marks g = some .unwritten then some .unwritten else eccSays (mgetD s.mem.flips g [])

/-- The address that the stored check of a granule was formed with (R156): its own, and of an unwritten granule the complement of it in 44 bits (R162), with which no read
can agree. -/
def State.checkAddr (s : State) (g : Nat) : Nat := if s.markOf g = some .unwritten then 2 ^ 44 - 1 - g else g

/-- The stored bytes of a granule (R156): its data and their check over data and address, with the bits that have come to differ. -/
def State.storedBytes (s : State) (g : Nat) : Bytes :=
  let d := (List.range 128).map fun i => mgetD s.mem.bytes (g + i) 0
  let w := d ++ fit 8 (Config.eccCheck d (s.checkAddr g))
  (List.range 136).map fun i => BitVec.ofNat 8 (byteAt w i ^^^ mgetD (mgetD s.mem.flips g []) i 0)

/-- The granule in a slot of the ECC group that holds an address (R155, R156): the group's slots are consecutive rows of one die channel. -/
def State.slotGranule (s : State) (pa slot : Nat) : Nat :=
  let deeps := decide (pa / 2 ^ 42 ≠ 0)
  let pkg := s.pkgMode deeps
  let span := if deeps then 2 ^ 37 else 2 ^ 39
  let p := if deeps then pa - 2 ^ 42 else pa
  let o := if pkg then p else p % span
  let n := if deeps then (if pkg then 128 else 32) else if pkg then 768 else 192
  let row := o / 128 / n
  let c := (o / 128 + row) % n
  let r := row / 15 * 15 + slot
  pa - o + 128 * (r * n + (c + n - r % n) % n)

/-- The 2,048 stored bytes of the ECC group that holds an address (R156): 15 slots of data, their checks, and 8 bytes of zeros that no check covers. -/
def State.storedGroup (s : State) (pa : Nat) : Bytes :=
  let gs := (List.range 15).map fun k => s.storedBytes (s.slotGranule pa k)
  (gs.map fun b => b.take 128).flatten ++ (gs.map fun b => b.drop 128).flatten ++ zeros 8

/-- A whole-granule write clears what its check said (R160, R162). -/
def State.clearMark (s : State) (g : Nat) : State :=
  let lost := if s.lostGranule g then s.mem.lost.map fun l => { l with renewed := (g, 128) :: l.renewed } else s.mem.lost
  { s with mem := { s.mem with marks := mdel s.mem.marks g, flips := mdel s.mem.flips g, lost := lost } }

/-- The position that serves a logical data die of a stack, if one does (R149, R155). -/
def State.diePos (s : State) (st l : Nat) : Option Nat :=
  (List.range 17).find? fun k => s.rd (Obj.dramLogical st k) = l

/-- The position that serves a granule (R178): during an evacuation the spare below the cursor of the granule's die channel, and the old die from there on. -/
def State.servePos (s : State) (pa : Nat) : Option Nat :=
  let p := s.place pa
  match s.mem.evacs.find? fun e => e.stack = p.1 ∧ e.logical = p.2.1 with
  | some e => some (if s.groupOf pa < (if p.2.2 = 0 then e.cur0 else e.cur1) then e.spare else e.old)
  | none => s.diePos p.1 p.2.1

/-- The SPARE position of a stack, if it has one (R176). -/
def State.spareDie (s : State) (st : Nat) : Option Nat :=
  (List.range 17).find? fun k => s.rd (Obj.dramState st k) = ustSpare

/-- A class without a spare (R486): its bit of `spare_exhausted` is set and an event is recorded; `resources_complete` reads 0 when the package no
longer meets R17. -/
def State.exhausted (s : State) (cls unit bitIdx : Nat) (short : Bool) : State :=
  let m := setBit (s.rd Obj.spareExhausted) bitIdx true
  let s := s.wr Obj.spareExhausted m
  let s := if short then s.wr Obj.resourcesComplete 0 else s
  s.event 0x0831 cls unit noCtx m 0 0

/-- The compute die that a stack belongs to (R148). -/
def stackHome (st : Nat) : Nat := if st < 24 then st / 6 else (st - 24) / 2

/-- The house channel for work of a home die: its own, or the lowest one that has not failed (R177, R402). -/
def State.houseOf (s : State) (die : Nat) : Option Nat :=
  let ok := fun c => s.rd (Obj.teState c) != ustFailed
  if ok (16 * die + 15) then some (16 * die + 15) else [15, 31, 47, 63].find? ok

/-- Whether a channel carries house work: it is in service, or finishes what it has (R24, R185). -/
def State.houseRuns (s : State) (c : Nat) : Bool := s.rd (Obj.teState c) == ustActive || s.rd (Obj.teState c) == ustQuiescing

/-- Start the evacuation of a data die (R176, R177 step 1); with no SPARE position no evacuation starts, an event is recorded and the spare policy is
told (R180). An evacuation of the stack under way keeps its spare. -/
def State.evacuate (s : State) (st k : Nat) : State :=
  if s.mem.evacs.any fun e => e.stack = st ∧ e.old = k then s
  else if s.mem.evacs.any fun e => e.stack = st then s.exhausted 0x03 (32 * st + k) 2 false
  else match s.spareDie st with
    | some sp =>
      let e : Evac := ⟨st, s.rd (Obj.dramLogical st k), k, sp, 0, 0, 0, false, (s.houseOf (stackHome st)).getD (16 * stackHome st + 15)⟩
      let s := { s with mem := { s.mem with evacs := s.mem.evacs ++ [e] } }
      let s := s.wr (Obj.evacProgress st k) 0
      s.event 0x2003 0x03 (32 * st + k) noCtx 1 0 0
    | none => s.exhausted 0x03 (32 * st + k) 2 false

/-- Spans of R176 in ns: an hour and a day. -/
abbrev hourNs : Nat := 3600000000000
abbrev dayNs : Nat := 86400000000000

/-- Whether a time lies within the last `span`. -/
def State.recent (s : State) (span t : Nat) : Bool := decide (s.now - t < span)

/-- The correctable errors of a physical die in the last hour, and its distinct uncorrectable granules in the last 24 hours (R176, R184). -/
def State.ceHour (s : State) (d : Nat) : Nat := ((mgetD s.mem.ceTimes d []).filter (s.recent hourNs)).length
def State.ueDay (s : State) (d : Nat) : Nat := (s.mem.ueSeen.filter fun u => u.1 == d && s.recent dayNs u.2.2).length

/-- Whether a die has had half of `dram_ce_limit` correctable errors or more in each of the last 24 hours, as the wear monitors of R485 count them. -/
def State.ceSteady (s : State) (d : Nat) : Bool :=
  (List.range 24).all fun h =>
    decide (s.rd Obj.dramCeLimit ≤ 2 * ((mgetD s.mem.ceTimes d []).filter fun t => decide (t + h * hourNs ≤ s.now ∧ s.now < t + (h + 1) * hourNs)).length)

/-- A correctable error of a granule (R159): it is written back corrected and counted against the die that holds the granule, and past the limit of R176 the die is
evacuated. -/
def State.dramCe (s : State) (pa : Nat) : State :=
  let g := pa / 128 * 128
  let s := { s with mem := { s.mem with flips := mdel s.mem.flips g } }
  let s := s.bump Obj.memCeCount
  let p := s.place pa
  match s.servePos pa with
  | none => s
  | some k =>
    let d := 32 * p.1 + k
    let s := { s with mem := { s.mem with ceTimes := mput s.mem.ceTimes d (s.now :: (mgetD s.mem.ceTimes d []).filter (s.recent dayNs)) } }
    let s := s.event 0x2001 0x03 d noCtx g 0 0
    if s.ceHour d > s.rd Obj.dramCeLimit then s.evacuate p.1 k else s

/-- An uncorrectable read of a granule (R158, R176): counted, recorded, and at the limit of distinct granules the die that holds it is evacuated. One read again counts from then on. -/
def State.dramUe (s : State) (pa : Nat) : State :=
  let g := pa / 128 * 128
  let s := s.bump Obj.memUeCount
  let p := s.place pa
  match s.servePos pa with
  | none => s
  | some k =>
    let d := 32 * p.1 + k
    let s := s.event 0x2002 0x03 d noCtx g 0 0
    let old := s.mem.ueSeen.filter fun u => s.recent dayNs u.2.2
    let seen := old.any fun u => u.1 = d ∧ u.2.1 = g
    let s : State := { s with mem := { s.mem with ueSeen := (d, g, s.now) :: old.filter fun u => !(u.1 = d ∧ u.2.1 = g) } }
    if seen then s
    else
      if s.ueDay d ≥ s.rd Obj.dramUeLimit then s.evacuate p.1 k else s

/-- Whether no position in service holds a granule: its logical die has failed with no spare (R181). -/
def State.deadGranule (s : State) (pa : Nat) : Bool :=
  match s.servePos pa with
  | none => true
  | some k => s.rd (Obj.dramState (s.place pa).1 k) == ustFailed

/-- The site that serves a logical tile, as its index of R104. -/
def State.siteOf (s : State) (n : Nat) : Nat :=
  let v := s.rd (Obj.tileSite n)
  512 * bits v 9 2 + 16 * bits v 0 5 + bits v 5 4

/-- The key of the physical row that holds an SRAM offset of a tile. -/
def State.rowKey (s : State) (n off : Nat) : Nat := 16384 * s.siteOf n + 1024 * bits off 7 4 + bits off 11 10

/-- A correctable error of an SRAM word (R79, R81): corrected, counted, and at the limit its row takes a free spare row of its bank, again when the spare row itself
reaches the limit; with no free row in the bank the shortage is reported to the spare policy (R486). -/
def State.sramCe (s : State) (n off : Nat) : State :=
  let w := tilePa n (off / 8 * 8)
  let s := { s with mem := { s.mem with marks := mdel s.mem.marks w } }
  let s := (s.bump Obj.sramCeCount).bumpSat (Obj.tileSramCe n) 32
  let key := s.rowKey n off
  let c := mgetD s.mem.rowCe key 0 + 1
  let s := { s with mem := { s.mem with rowCe := mput s.mem.rowCe key c } }
  if c < s.rd Obj.sramRowCeLimit then s
  else if (s.mem.spared.filter fun k => k / 1024 = key / 1024).length < 16 then
    let s : State := { s with mem := { s.mem with spared := key :: s.mem.spared, rowCe := mdel s.mem.rowCe key } }
    let s := s.bumpSat (Obj.tileRowsSpared n) 16
    let s := s.wr Obj.sramSpareRowsFree (s.rd Obj.sramSpareRowsFree - 1)
    (s.event 0x1002 0x01 n noCtx (bits off 7 4) (bits off 11 10) 0).mapNote 0x02 (key / 16384)
  else s.exhausted 0x01 n 1 false

/-- Whether a word of SRAM reads as uncorrectable: its check says so, or its row is unwritten (R79, R82). -/
def State.wordUe (s : State) (n off : Nat) : Bool :=
  (match mget s.mem.marks (tilePa n (off / 8 * 8)) with
   | some .ue | some .unwritten => true
   | _ => false) || (mget s.mem.unwRows (tilePa n (off / 128 * 128))).isSome

def State.wordCe (s : State) (n off : Nat) : Bool := mget s.mem.marks (tilePa n (off / 8 * 8)) = some .ce

/-- The word offsets that a range of SRAM touches. -/
def wordsOf (off n : Nat) : List Nat := (List.range ((off + n + 7) / 8 - off / 8)).map fun i => 8 * (off / 8 + i)

/-- The stored bytes of a physical range; a byte nothing has written reads as zero (R166). -/
def Mem.get (m : Mem) (pa n : Nat) : Bytes := (List.range n).map fun i => mgetD m.bytes (pa + i) 0

/-- Store bytes at a physical address; a zero byte is not listed, so that equal memories are equal lists. -/
def Mem.put : Mem → Nat → Bytes → Mem
  | m, _, [] => m
  | m, pa, b :: l => Mem.put { m with bytes := msetD m.bytes pa 0 b } (pa + 1) l

/-- The canonical form of memory: addresses strictly rising, and no entry equal to what an unlisted address reads as. -/
def Mem.wf (m : Mem) : Bool := mcanon m.bytes 0

/-- Read part of one granule of the tiers (R158, R159, R181). -/
def State.readTier (s : State) (pa n : Nat) : State × Status × Bytes :=
  if s.deadGranule pa then (s.dramUe pa, .uncorrectable, [])
  else match s.markOf (pa / 128 * 128) with
    | some .ue | some .unwritten => (s.dramUe pa, .uncorrectable, [])
    | some .ce => (s.dramCe pa, .ok, s.mem.get pa n)
    | none => (s, .ok, s.mem.get pa n)

/-- Read part of one aligned 128-byte block (R79, R158, R159). -/
def State.readBlock (s : State) (pa n : Nat) : State × Status × Bytes :=
  match s.regionOf pa with
  | .sram t off =>
    let ws := wordsOf off n
    let bad := ws.any (s.wordUe t)
    let s := (ws.filter (s.wordCe t)).foldl (fun s w => s.sramCe t w) s
    if bad then (s.bump Obj.sramUeCount, .uncorrectable, []) else (s, .ok, s.mem.get pa n)
  | .shallows | .deeps => s.readTier pa n
  | .control => (s, .violation, [])
  | .hole => (s.event 0x2004 0x00 0 noCtx pa 0 0, .violation, [])

/-- Note a whole word written into an unwritten row: the row is written once every word of it has been (R82). -/
def State.noteWord (s : State) (t off : Nat) : State :=
  let r := tilePa t (off / 128 * 128)
  match mget s.mem.unwRows r with
  | none => s
  | some m =>
    let m := setBit m (off % 128 / 8) true
    { s with mem := { s.mem with unwRows := if m = 0xFFFF then mdel s.mem.unwRows r else mput s.mem.unwRows r m } }

/-- Write one word of SRAM, or the part of it that the data covers (R79): `lo` and `n` are the part within the word. -/
def State.writeWord (s : State) (t w lo n : Nat) (d : Bytes) : State × Status :=
  if n = 8 then
    let s := { s with mem := { (s.mem.put (tilePa t w) d) with marks := mdel s.mem.marks (tilePa t w) } }
    (s.noteWord t w, .ok)
  else if s.wordUe t w then (s.bump Obj.sramUeCount, .uncorrectable)
  else
    let s := if s.wordCe t w then s.sramCe t w else s
    ({ s with mem := s.mem.put (tilePa t w + lo) d }, .ok)

/-- Write bytes into SRAM word by word (R79). -/
def State.writeWords : Nat → State → Nat → Nat → Bytes → State × Status
  | 0, s, _, _, _ => (s, .ok)
  | f + 1, s, t, off, d =>
    if d.isEmpty then (s, .ok)
    else
      let lo := off % 8
      let n := min (8 - lo) d.length
      let r := s.writeWord t (off / 8 * 8) lo n (d.take n)
      let q := State.writeWords f r.1 t (off + n) (d.drop n)
      (q.1, r.2.first q.2)

/-- The second write of a granule that a migration has already copied (R203). -/
def State.mirror (s : State) (pa : Nat) : State :=
  s.mem.moves.foldl (fun s mv =>
    let size := if mv.big then gib else 2097152
    if mv.started ∧ mv.src ≤ pa ∧ pa < mv.src + size ∧ (pa - mv.src) / 128 < mv.cursor then
      let g := pa / 128 * 128
      let d := mv.dst + (g - mv.src)
      let s := s.clearMark d
      { s with mem := s.mem.put d (s.mem.get g 128) }
    else s) s

/-- Store bytes in a granule of the tiers, and in its copy where it is moving (R160, R203). -/
def State.storeTier (s : State) (pa : Nat) (d : Bytes) : State := ({ s with mem := s.mem.put pa d } : State).mirror pa

/-- Write part of one granule of the tiers (R160, R162, R181): a whole granule is written whatever its check says, a part is merged with a correctable one alone. -/
def State.writeTier (s : State) (pa : Nat) (d : Bytes) : State × Status :=
  let g := pa / 128 * 128
  if s.deadGranule pa then (s.dramUe pa, .uncorrectable)
  else if d.length = 128 then ((s.clearMark g).storeTier pa d, .ok)
  else match s.markOf g with
    | some .ue | some .unwritten => (s.dramUe pa, .uncorrectable)
    | some .ce => ((s.dramCe pa).storeTier pa d, .ok)
    | none => (s.storeTier pa d, .ok)

/-- Write part of one aligned 128-byte block (R79, R160). -/
def State.writeBlock (s : State) (pa : Nat) (d : Bytes) : State × Status :=
  match s.regionOf pa with
  | .sram t off => State.writeWords 17 s t off d
  | .shallows | .deeps => s.writeTier pa d
  | .control => (s, .violation)
  | .hole => (s.event 0x2004 0x00 0 noCtx pa 0 0, .violation)

/-- The result of an atomic function (R161), by the function codes of the NI (R286): ADD, AND, OR, XOR, SWAP, CAS, SMIN, UMIN, SMAX, UMAX over `w` bits. -/
def atomicFn (fn w old x cmp : Nat) : Nat :=
  if fn = 0 then (old + x) % 2 ^ w
  else if fn = 1 then old &&& (x % 2 ^ w)
  else if fn = 2 then old ||| (x % 2 ^ w)
  else if fn = 3 then old ^^^ (x % 2 ^ w)
  else if fn = 4 then x % 2 ^ w
  else if fn = 5 then (if old = cmp % 2 ^ w then x % 2 ^ w else old)
  else if fn = 6 then (if sext x w < sext old w then x % 2 ^ w else old)
  else if fn = 7 then min old (x % 2 ^ w)
  else if fn = 8 then (if sext old w < sext x w then x % 2 ^ w else old)
  else if fn = 9 then max old (x % 2 ^ w)
  else old

/-- An atomic of the base dies (R161): read, merge and write of one granule, with the old value. A target outside the tiers or misaligned is a
VIOLATION. -/
def State.atomic (s : State) (pa fn : Nat) (wide : Bool) (x cmp : Nat) : State × Status × Nat :=
  let n := if wide then 8 else 4
  match s.regionOf pa with
  | .shallows | .deeps =>
    if pa % n ≠ 0 ∨ fn > 9 then (s, .violation, 0)
    else
      let r := s.readBlock pa n
      if r.2.1 ≠ .ok then (r.1, r.2.1, 0)
      else
        let old := leNat r.2.2
        let w := r.1.writeBlock pa (leBytes n (atomicFn fn (8 * n) old x cmp))
        (w.1, w.2, old)
  | .hole => (s.event 0x2004 0x00 0 noCtx pa 0 0, .violation, 0)
  | .sram _ _ | .control => (s, .violation, 0)

/-- The kinds of master (R385 `win_masters`). -/
inductive Master where
  | tile | te | hte | ni
  deriving DecidableEq, Repr

def Master.bit : Master → Nat
  | .tile => 0 | .te => 1 | .hte => 2 | .ni => 3

/-- The kinds of access (R386), as the `win_perm` bits they need beside `valid`. -/
abbrev permRead : Nat := 0x02
abbrev permWrite : Nat := 0x04
abbrev permAtomic : Nat := 0x0E
abbrev permExec : Nat := 0x10
abbrev permRemote : Nat := 0x20

/-- An address as a master names it: context virtual, an offset in a tile's SRAM, or physical (house context, R153). -/
inductive Loc where
  | virt (va : Nat)
  | sram (tile off : Nat)
  | phys (pa : Nat)
  deriving DecidableEq, Repr

def Loc.num : Loc → Nat
  | .virt va => va | .sram _ off => off | .phys pa => pa

/-- The address as a register reports it (R193, R134). -/
def Loc.report : Loc → Nat
  | .virt va => va | .sram t off => 2 ^ 63 + t * 2 ^ 21 + off | .phys pa => pa

def Loc.adv : Loc → Nat → Loc
  | .virt va, n => .virt (va + n) | .sram t off, n => .sram t (off + n) | .phys pa, n => .phys (pa + n)

/-- Whether one window entry grants an access (R385, R386). -/
def winGrants (e : Bytes) (sram : Bool) (addr len need : Nat) (m : Master) : Bool :=
  let base := leAt e 0 8
  let lo := if bit base 63 then base - 2 ^ 63 else base
  let perm := byteAt e 16
  bit perm 0 && bit base 63 == sram && (perm &&& need) == need && bit (byteAt e 17) m.bit &&
    decide (lo ≤ addr) && decide (addr + len ≤ lo + leAt e 8 8)

/-- Whether a logical tile is in a tile set (R404 `tile_set`). -/
def tileIn (set : Bytes) (n : Nat) : Bool := decide (n < 1920) && bit (byteAt set (n / 8)) (n % 8)

/-- The window check of one request (R386, R388): ctx 0 uses physical addresses alone (R381). -/
def State.winOk (s : State) (ctx : Nat) (m : Master) (need : Nat) (l : Loc) (len : Nat) : Bool :=
  match l with
  | .phys _ => ctx == 0
  | .virt va => ctx != 0 && decide (va + len ≤ 2 ^ 48) &&
      (List.range 64).any fun w => winGrants (s.rdo (Obj.window ctx w)) false va len need m
  | .sram t off => if ctx = 0 then decide (t < 1920) else
      tileIn (s.rdo (Obj.tileSet ctx)) t && decide (off + len ≤ 2 ^ 21) &&
      (List.range 64).any fun w => winGrants (s.rdo (Obj.window ctx w)) true off len need m

/-- The size of a page. -/
def PageEnt.size (p : PageEnt) : Nat := if p.big then gib else 2097152

/-- The page of a context that holds a virtual address (R167). -/
def State.pageOf (s : State) (ctx va : Nat) : Option PageEnt :=
  s.mem.pages.find? fun p => p.ctx = ctx ∧ p.va ≤ va ∧ va < p.va + p.size

/-- The outcome of an access: status, data, whether a window check or a walk refused it, the failing address, and the bytes that passed before. -/
structure AccR where
  s : State
  st : Status
  data : Bytes
  win : Bool
  addr : Nat
  done : Nat
  deriving DecidableEq, Repr

/-- An access from another master to the SRAM of a tile in steps 2 to 4 of a substitution is held (R100). -/
def State.meets (s : State) (pa : Nat) : State :=
  match s.regionOf pa with
  | .sram t _ => if (s.tile t).held then { s with heldHit := s.heldHit + 1 } else s
  | _ => s

/-- The physical address of a request that has passed its check: an access to a domain in reset completes with ABORTED_DISABLED (R483). -/
def State.reach (s : State) (pa : Nat) : State × Status × Nat := (s.meets pa, if s.paUp pa then .ok else .abortedDisabled, pa)

/-- The same for a tile's own SRAM, which its sequencer, its units and its copies reach without the mesh (R87). -/
def State.reachOwn (s : State) (pa : Nat) : State × Status × Nat := (s, if s.paUp pa then .ok else .abortedDisabled, pa)

/-- Translate and check one request of at most one granule (R168, R386): the physical address, or the status that refuses it. -/
def State.resolve (s : State) (ctx : Nat) (m : Master) (need : Nat) (l : Loc) (len : Nat) : State × Status × Nat :=
  if !s.winOk ctx m need l len then (s, .violation, 0)
  else match l with
    | .phys pa => s.reach pa
    | .sram t off => if m = .tile then s.reachOwn (tilePa t off) else s.reach (tilePa t off)
    | .virt va =>
      match s.pageOf ctx va with
      | none =>
        let k := (ctx, va / 2097152 * 2097152)
        if s.mem.walkUe.contains k then ({ s with mem := { s.mem with walkUe := s.mem.walkUe.filter fun x => x != k } }, .uncorrectable, 0)
        else (s, .violation, 0)
      | some p =>
        if s.mem.walkUe.contains (ctx, p.va) then
          ({ s with mem := { s.mem with walkUe := s.mem.walkUe.filter fun x => x != (ctx, p.va) } }, .uncorrectable, 0)
        else s.reach (p.pa + (va - p.va))

/-- Read a range in requests that each lie in one granule (R387); the first request that fails ends it, with the data read before it. -/
def State.readGo : Nat → State → Nat → Master → Nat → Loc → Nat → Bytes → AccR
  | 0, s, _, _, _, _, _, acc => ⟨s, .ok, acc, false, 0, acc.length⟩
  | f + 1, s, ctx, m, need, l, len, acc =>
    if len = 0 then ⟨s, .ok, acc, false, 0, acc.length⟩
    else
      let n := min len (128 - l.num % 128)
      let r := s.resolve ctx m need l n
      if r.2.1 ≠ .ok then ⟨r.1, r.2.1, acc, r.2.1 = .violation, l.report, acc.length⟩
      else
        let b := r.1.readBlock r.2.2 n
        if b.2.1 ≠ .ok then ⟨b.1, b.2.1, acc, false, l.report, acc.length⟩
        else State.readGo f b.1 ctx m need (l.adv n) (len - n) (acc ++ b.2.2)

/-- Read `len` bytes for a context by a master. -/
def State.read (s : State) (ctx : Nat) (m : Master) (need : Nat) (l : Loc) (len : Nat) : AccR :=
  State.readGo (len / 128 + 2) s ctx m need l len []

/-- Write a range in requests that each lie in one granule; the first request that fails ends it. -/
def State.writeGo : Nat → State → Nat → Master → Nat → Loc → Bytes → Nat → AccR
  | 0, s, _, _, _, _, _, k => ⟨s, .ok, [], false, 0, k⟩
  | f + 1, s, ctx, m, need, l, d, k =>
    if d.isEmpty then ⟨s, .ok, [], false, 0, k⟩
    else
      let n := min d.length (128 - l.num % 128)
      let r := s.resolve ctx m need l n
      if r.2.1 ≠ .ok then ⟨r.1, r.2.1, [], r.2.1 = .violation, l.report, k⟩
      else
        let b := r.1.writeBlock r.2.2 (d.take n)
        if b.2 ≠ .ok then ⟨b.1, b.2, [], false, l.report, k⟩
        else State.writeGo f b.1 ctx m need (l.adv n) (d.drop n) (k + n)

/-- Write bytes for a context by a master. -/
def State.write (s : State) (ctx : Nat) (m : Master) (need : Nat) (l : Loc) (d : Bytes) : AccR :=
  State.writeGo (d.length / 128 + 2) s ctx m need l d 0

/-- Copy a range: every byte is read before any byte is written; a request that fails ends the copy at its place, and the bytes read before it are written
(R135, R194, R199). -/
def State.copy (s : State) (ctx : Nat) (m : Master) (src dst : Loc) (len : Nat) : AccR :=
  let a := s.read ctx m permRead src len
  let b := a.s.write ctx m permWrite dst a.data
  if a.st = .ok then b
  else if b.st = .ok then { b with st := a.st, win := a.win, addr := a.addr }
  else { b with st := a.st.first b.st, win := a.win || b.win, addr := if b.win then b.addr else a.addr }

/-- Check a range without access, request by request (R386): the address of the first that fails, if any. -/
def State.checkGo : Nat → State → Nat → Master → Nat → Loc → Nat → Option Nat
  | 0, _, _, _, _, _, _ => none
  | f + 1, s, ctx, m, need, l, len =>
    if len = 0 then none
    else
      let n := min len (128 - l.num % 128)
      if (s.resolve ctx m need l n).2.1 = .violation then some l.report
      else State.checkGo f s ctx m need (l.adv n) (len - n)

def State.check (s : State) (ctx : Nat) (m : Master) (need : Nat) (l : Loc) (len : Nat) : Option Nat :=
  State.checkGo (len / 128 + 2) s ctx m need l len

/-- Fill a physical range with zeros, whole granules and rows, clearing every error in it (R160, R402). -/
def Mem.zeroRange (m : Mem) (base len : Nat) : Mem :=
  let out := fun k : Nat => k < base ∨ base + len ≤ k
  { m with lost := m.lost.map fun l => { l with renewed := (base, len) :: l.renewed },
           bytes := m.bytes.filter fun p => decide (out p.1), marks := m.marks.filter fun p => decide (out p.1),
           flips := m.flips.filter fun p => decide (out p.1),
           unwRows := m.unwRows.filter fun p => decide (out p.1) }

/-- Count an abort of work accepted under an earlier epoch (R396). -/
def State.protAbort (s : State) : State := s.bump Obj.protChangeAborts

/-- The event and the counts of a freeze (R394): class and unit name the master. -/
def State.freezeEvent (s : State) (cls unit ctx cause addr : Nat) : State :=
  let s := s.bumpSat (Obj.ctxViolations ctx) 32
  let s := s.bump Obj.freezes
  s.event 0x6001 cls unit ctx cause addr 0

end Sys2Proof.Machine
end

