-- ==== Sys2Proof/Machine/NxWire.lean ====
section
/-! DEFINITION. NXF frames on the wire: headers, bodies, and their protection with AES-256-GCM (R433 to R435, R440). -/

namespace Sys2Proof.Machine

open Sys2Proof

/-- The UDP port of NXF (R433). -/
def udpNxf : Nat := 30840

/-- The address ff02::1 of every agent (R313). -/
def allNodes : Bytes := [0xFF, 0x02] ++ zeros 13 ++ [0x01]

/-- Frame types (R433). -/
abbrev ntOpenReq : Nat := 0x01
abbrev ntOpenResp : Nat := 0x02
abbrev ntProve : Nat := 0x03
abbrev ntProveResp : Nat := 0x04
abbrev ntRequest : Nat := 0x10
abbrev ntResponse : Nat := 0x11
abbrev ntEvent : Nat := 0x12
abbrev ntAgent : Nat := 0x20
abbrev ntAgentGroup : Nat := 0x21
abbrev ntGroupKey : Nat := 0x22
abbrev ntSpdm : Nat := 0x30
abbrev ntClose : Nat := 0x3F

def nxTypes : List Nat :=
  [ntOpenReq, ntOpenResp, ntProve, ntProveResp, ntRequest, ntResponse, ntEvent, ntAgent, ntAgentGroup, ntGroupKey, ntSpdm, ntClose]

/-- The header of a frame that this package sends. -/
def nxHeader (typ session seq len : Nat) : Bytes :=
  bytesOf [[0x4E, 0x58, 0x01], leBytes 1 typ, leBytes 4 session, leBytes 8 seq, leBytes 2 len, zeros 6]

/-- The IV of a frame (R434). -/
def nxIv (session seq : Nat) : Bytes := beBytes 4 session ++ beBytes 8 seq

end Sys2Proof.Machine

namespace Sys2Proof

open Sys2Proof.Machine

/-- The header of a received frame, as it arrived. -/
def NxFrame.header (f : NxFrame) : Bytes :=
  bytesOf [leBytes 2 f.magic, leBytes 1 f.version, leBytes 1 f.typ, leBytes 4 f.session, leBytes 8 f.seq, leBytes 2 f.len, leBytes 6 f.rsv]

/-- Whether magic, version, type, length and reserved bytes are legal, over a body of `n` bytes (R433, R434). -/
def NxFrame.legal (f : NxFrame) (n : Nat) : Bool :=
  decide (f.magic = 0x584E) && decide (f.version = 1) && nxTypes.contains f.typ && decide (f.len = n) && decide (n ≤ 1200) && decide (f.rsv = 0)

/-- Whether a frame's tag passes over its header and its encrypted body (R434). -/
def NxFrame.tagOk (f : NxFrame) (key body : Bytes) : Bool :=
  let iv := nxIv f.session f.seq
  gcmTag key iv f.header (gcmCrypt key iv body) == f.tag

/-- The bytes of a request (R440). -/
def NxReq.body (q : NxReq) : Bytes :=
  bytesOf [leBytes 4 q.reqId, leBytes 1 q.op, leBytes 1 q.area, leBytes 2 q.entry, leBytes 1 q.sub, leBytes 1 q.rsv, leBytes 2 q.length, leBytes 4 q.offset, q.value]

/-- The position that a group frame names as its sender (R433). -/
def NxFrame.sender (f : NxFrame) : Nat := f.session - 0xFFFFFF00

end Sys2Proof

namespace Sys2Proof.Machine

open Sys2Proof

/-- The bytes of a response (R440). -/
def NxResp.body (r : NxResp) : Bytes :=
  bytesOf [leBytes 4 r.reqId, leBytes 1 r.op, leBytes 1 r.result, leBytes 2 r.data.length, leBytes 4 r.offset, leBytes 4 r.total, r.data]

/-- The first 20 bytes of an agent message (R314). -/
def AgentMsg.head (m : AgentMsg) : Bytes :=
  bytesOf [leBytes 1 m.typ, leBytes 1 m.flags, leBytes 1 m.origin, leBytes 1 m.ttl, leBytes 4 m.term, leBytes 4 m.seq, leBytes 4 m.gen, leBytes 4 m.arg]

/-- The body of an agent message (R314). -/
def AgentMsg.body (m : AgentMsg) : Bytes := m.head ++ m.payload

/-- What this package sends in a session. -/
inductive NxBody where
  | prove (seg : Bytes)
  | proveResp (result role : Nat)
  | resp (r : NxResp)
  | event (kind arg : Nat)
  | agent (m : AgentMsg)
  | groupKey (key : Bytes)
  | spdm (m : Bytes)
  | close
  deriving DecidableEq, Repr

def NxBody.typ : NxBody → Nat
  | .prove _ => ntProve
  | .proveResp _ _ => ntProveResp
  | .resp _ => ntResponse
  | .event _ _ => ntEvent
  | .agent _ => ntAgent
  | .groupKey _ => ntGroupKey
  | .spdm _ => ntSpdm
  | .close => ntClose

def NxBody.bytes : NxBody → Bytes
  | .prove b => b
  | .proveResp r role => leBytes 1 r ++ leBytes 1 role
  | .resp r => r.body
  | .event k a => leBytes 1 k ++ leBytes 1 a
  | .agent m => m.body
  | .groupKey k => k
  | .spdm m => m
  | .close => []

/-- A protected frame: the header, the encrypted body and the tag (R433, R434). -/
def nxSeal (key : Bytes) (typ session seq : Nat) (body : Bytes) : Bytes :=
  let h := nxHeader typ session seq body.length
  h ++ gcmSeal key (nxIv session seq) h body

/-- The key of what a session's peer sends, and of what this package sends (R417, R434). -/
def Session.rxKey (x : Session) : Bytes := if x.weOpened then x.keyOut else x.keyIn
def Session.txKey (x : Session) : Bytes := if x.weOpened then x.keyIn else x.keyOut

/-- A frame of a session, under its next number. -/
def Session.frame (x : Session) (b : NxBody) : Bytes := nxSeal x.txKey b.typ x.peerId (x.txSeq + 1) b.bytes

end Sys2Proof.Machine
end

