-- ==== Sys2Proof/Machine/Reply.lean ====
section
/-! DEFINITION. Answers to requests, access by role, and the common form of a write to a control object (R440 to R447). -/

namespace Sys2Proof.Machine

open Sys2Proof

/-- Result codes of a response (R440). -/
abbrev rOk : Nat := 0
abbrev rMalformed : Nat := 1
abbrev rNoObject : Nat := 2
abbrev rNoAccess : Nat := 3
abbrev rBadLength : Nat := 4
abbrev rOutOfRange : Nat := 5
abbrev rRefused : Nat := 6
abbrev rBusy : Nat := 7
/-- The answer follows later (R442). -/
abbrev rLater : Nat := 0x100

/-- Operation codes (R440). -/
abbrev opRead : Nat := 1
abbrev opWrite : Nat := 2
abbrev opNext : Nat := 3
abbrev opKeepalive : Nat := 4
abbrev opMbxSend : Nat := 5
abbrev opMbxRecv : Nat := 6
abbrev opMbxClaim : Nat := 7
abbrev opMbxRelease : Nat := 8
abbrev opBellRing : Nat := 9
abbrev opBellFetch : Nat := 10

/-- Role codes (R435). -/
abbrev roleObserver : Nat := 1
abbrev roleTenant : Nat := 2
abbrev roleOperator : Nat := 3
abbrev roleCustodian : Nat := 4
abbrev roleSteward : Nat := 5

/-- The Operator or the Custodian. -/
def isOpCus (w : Who) : Bool := w.role == roleOperator || w.role == roleCustodian

/-- The Custodian alone. -/
def isCus (w : Who) : Bool := w.role == roleCustodian

/-- A Tenant of one context. -/
def isTenant (w : Who) (ctx : Nat) : Bool := w.role == roleTenant && w.ctx == ctx

/-- The package's own agent and steward firmware (R439). -/
def isSteward (w : Who) : Bool := w.role == roleSteward

def State.session? (s : State) (id : Nat) : Option Session := s.mgmt.sessions.find? fun x => x.id = id

def State.setSession (s : State) (x : Session) : State :=
  { s with mgmt := { s.mgmt with sessions := updFirst (fun y => y.id == x.id) (fun _ => x) s.mgmt.sessions } }

/-- Whether a management port runs in this power state (R431). -/
def State.portRuns (s : State) (p : Nat) : Bool :=
  p == 2 || (s.rd Obj.pkgPowerState != pwrOff && s.rd Obj.pkgPowerState != pwrParked)

/-- Whether a session's port carries its frames: it runs (R431), and in NETWORK mode SB carries management frames only while it is secured (R415). -/
def State.carries (s : State) (x : Session) : Bool :=
  s.portRuns x.port && !(x.port == 2 && x.role != roleSteward && s.rd Obj.authorityMode == 1 && s.rd (Obj.mportMacsec 2) != 1)

/-- A frame of a session goes out under the session's next number, to the address and port of its last datagram (R433, R434); none leaves on a port that does not carry
it. -/
def State.frameOut (s : State) (id : Nat) (b : NxBody) : State :=
  match s.session? id with
  | none => s
  | some x => if s.carries x then (s.setSession { x with txSeq := x.txSeq + 1 }).emit (.nxf x.port x.addr x.udp (x.frame b)) else s

/-- Answer a request of a session: the response is kept among the last 16 answered and sent (R441; DESIGN CHOICE where answers come out of the order of arrival); a session that has closed receives none (R438), and session
0, the package's own firmware, needs none. -/
def State.answer (s : State) (session reqId op result : Nat) (data : Bytes) (off total : Nat) : State :=
  match s.session? session with
  | none => s
  | some x =>
    let r : NxResp := ⟨reqId, op, result, off, total, data⟩
    let x := { x with kept := (r :: x.kept).take 16, openReqs := x.openReqs.filter fun q => q.reqId != reqId }
    (s.setSession x).frameOut session (.resp r)

/-- Whether a session has answered a request, or has it under way or behind it (R441). -/
def Session.known (x : Session) (reqId : Nat) : Bool :=
  x.kept.any (fun r => r.reqId == reqId) || x.openReqs.any (fun o => o.reqId == reqId) || (!x.kept.isEmpty && x.kept.all fun r => decide (reqId < r.reqId))

/-- What becomes of a request that is not performed (R441): a repeat is answered with the kept response, one under way or lower than every kept one is discarded, and the
seventeenth in progress is BUSY. -/
def State.turnAway (s : State) (x : Session) (reqId op : Nat) : State :=
  match x.kept.find? fun r => r.reqId = reqId with
  | some r => s.frameOut x.id (.resp r)
  | none => if x.known reqId then s else s.answer x.id reqId op rBusy [] 0 0

/-- Whether a writer's session is open with its role, on a port that carries it; session 0 is the package's own firmware. -/
def State.writes (s : State) (w : Who) : Bool :=
  match s.session? w.session with
  | none => w.session == 0
  | some x => x.st == SessState.opened && x.role == w.role && (x.role != roleTenant || x.ctx == w.ctx) && s.carries x

/-- Whether a write is performed: its session writes, its request is new, and fewer than 16 are in progress (R441). -/
def State.admits (s : State) (w : Who) : Bool :=
  s.writes w && (match s.session? w.session with
    | none => true
    | some x => !x.known w.reqId && decide (x.openReqs.length < 16))

/-- A request that is answered later stays in progress until then (R441). -/
def State.keepOpen (s : State) (w : Who) : State :=
  match s.session? w.session with
  | none => s
  | some x => s.setSession { x with openReqs := x.openReqs ++ [⟨w.reqId, opWrite⟩] }

/-- The common form of a write to a control object: the session's rules for requests first (R441), then access, the object's own rules, and the answer (R442, R447). -/
def State.ctl (s : State) (w : Who) (ok : Bool) (f : State → State × Nat) : State :=
  if !s.admits w then
    (match s.session? w.session with
     | none => s
     | some x => if s.writes w then s.turnAway x w.reqId opWrite else s)
  else if ok then
    let r := f s
    if r.2 = rLater then r.1.keepOpen w else r.1.answer w.session w.reqId opWrite r.2 [] 0 0
  else s.answer w.session w.reqId opWrite rNoAccess [] 0 0

/-- A write of a persistent object goes to FL; the value takes effect as the write is answered, once it lies there (R63, R184, R247, R279, R443, R447). -/
def State.storeReg (s : State) (w : Who) (o : Obj) (v : Nat) : State × Nat :=
  ({ s with mgmt := { s.mgmt with storing := s.mgmt.storing ++ [(w.session, w.reqId, o.key, leBytes 8 v)] } }, rLater)

def State.storeOct (s : State) (w : Who) (o : Oct) (v : Bytes) : State × Nat :=
  ({ s with mgmt := { s.mgmt with storing := s.mgmt.storing ++ [(w.session, w.reqId, o.key, v)] } }, rLater)

/-- The value of a persistent object as the writes under way will leave it. -/
def State.toBe (s : State) (o : Obj) : Nat := s.mgmt.storing.foldl (fun v e => if e.2.2.1 = o.key then leNat e.2.2.2 else v) (s.rd o)

end Sys2Proof.Machine
end

