-- ==== Sys2Proof/Machine/Recorder.lean ====
section
/-! DEFINITION. The event recorder (R488 to R502). -/

namespace Sys2Proof.Machine

open Sys2Proof

/-- Severity by code (R501). -/
def severityOf (code : Nat) : Nat :=
  if code = 0x0802 ∨ code = 0x2001 ∨ code = 0x3002 ∨ code = 0x4C02 ∨ code = 0x6002 ∨ code = 0x7801 then 0
  else if code = 0x0001 ∨ code = 0x0812 ∨ code = 0x0830 ∨ code = 0x1002 ∨ code = 0x1003 ∨ code = 0x2003 ∨ code = 0x3004 ∨ code = 0x3005 ∨
    code = 0x3801 ∨ code = 0x4002 ∨ code = 0x4C03 ∨ code = 0x6003 ∨ code = 0x6802 ∨ code = 0x7001 ∨ code = 0x7002 ∨ code = 0x7C01 then 1
  else if code = 0x0820 ∨ code = 0x0831 ∨ code = 0x1004 ∨ code = 0x2002 ∨ code = 0x2005 ∨ code = 0x3003 ∨ code = 0x5005 ∨ code = 0x6001 ∨
    code = 0x7003 ∨ code = 0x7004 then 3
  else if code = 0x0801 ∨ code = 0x0840 ∨ code = 0x5002 ∨ code = 0x5003 ∨ code = 0x5801 ∨ code = 0x5802 ∨ code = 0x5803 ∨ code = 0x5804 ∨
    code = 0x6801 then 4
  else 2

/-- The 64 bytes of a record (R488). -/
def EvRec.bytes (r : EvRec) : Bytes :=
  let b := bytesOf [leBytes 8 r.seq, leBytes 8 r.time, leBytes 4 r.upMs, leBytes 2 r.boot, leBytes 2 r.code, leBytes 1 r.severity, leBytes 1 r.cls,
    leBytes 2 r.unit, leBytes 1 r.ctx, leBytes 1 (2 * ofBool r.saturated + ofBool r.masked), leBytes 2 r.rep, leBytes 4 r.lastMs, leBytes 8 r.arg0,
    leBytes 8 r.arg1, leBytes 8 r.arg2]
  b ++ leBytes 4 (crc32c b)

/-- Whether a physical address lies in a page mapped to a context or in one of its SRAM window ranges (R491). -/
def State.paOfCtx (s : State) (ctx pa : Nat) : Bool :=
  (s.mem.pages.any fun p => p.ctx = ctx ∧ p.pa ≤ pa ∧ pa < p.pa + p.size) ||
  (match s.regionOf pa with
   | .sram t off => tileIn (s.rdo (Obj.tileSet ctx)) t && (List.range 64).any fun w =>
       let e := s.rdo (Obj.window ctx w)
       bit (byteAt e 16) 0 && bit (leAt e 0 8) 63 && decide (leAt e 0 8 - 2 ^ 63 ≤ off) && decide (off < leAt e 0 8 - 2 ^ 63 + leAt e 8 8)
   | _ => false)

/-- Whether an event concerns a confidential context (R491). -/
def State.concerns (s : State) (e : EventIn) (c : Nat) : Bool :=
  s.confidential c &&
    (e.ctx == c || (e.cls == 0x01 && tileIn (s.rdo (Obj.tileSet c)) e.unit) || (e.cls == 0x04 && s.rd (Obj.teOwner e.unit) == c) ||
     (e.cls == 0x0B && e.unit % 64 == c) ||
     ((e.code == 0x2001 || e.code == 0x2002 || e.code == 0x2004) && s.paOfCtx c e.arg0))

/-- The event with its address arguments set to 0 (R491). -/
def EventIn.mask (e : EventIn) : EventIn :=
  if e.code = 0x2001 ∨ e.code = 0x2002 ∨ e.code = 0x2004 ∨ e.code = 0x2005 ∨ e.code = 0x1001 then { e with arg0 := 0 }
  else if e.code = 0x1002 ∨ e.code = 0x1004 then { e with arg0 := 0, arg1 := 0 }
  else if e.code = 0x6001 then { e with arg1 := 0 }
  else e

/-- The oldest number an area holds, or 0 (areas are newest first). -/
def oldestSeq (l : List EvRec) : Nat := (l.getLast?.map (·.seq)).getD 0

/-- The area objects follow the areas (R502). -/
def State.erSync (s : State) : State :=
  let s := s.wr Obj.erOldestSeq (oldestSeq s.rcd.circ)
  s.wr Obj.erFoundingCount s.rcd.found.length

/-- Make one record with the next number (R488, R489, R491, R492). -/
def State.makeRec (s : State) (e : EventIn) : State :=
  let m := (List.range 64).any fun c => s.concerns e c
  let e := if m then e.mask else e
  let q := s.rcd.nextSeq
  let r : EvRec := ⟨q, e.time, e.upMs, s.rd Obj.bootCount % 65536, e.code, severityOf e.code, e.cls, e.unit, e.ctx, m, false, 0, 0, e.arg0, e.arg1, e.arg2⟩
  let rcd := { s.rcd with
    nextSeq := q + 1
    mark := if q + 1 ≥ s.rcd.mark then s.rcd.mark + 256 else s.rcd.mark
    circ := (r :: s.rcd.circ).take 16384
    found := if s.rcd.found.length < 1024 then r :: s.rcd.found else s.rcd.found
    openSeqs := (q :: s.rcd.openSeqs).take 256
    dirty := s.rcd.dirty ++ [q] }
  ({ s with rcd := rcd }.wr Obj.erNewestSeq q).erSync

/-- Change the record with a number in both areas. -/
def State.updRec (s : State) (q : Nat) (f : EvRec → EvRec) : State :=
  { s with rcd := { s.rcd with
      circ := updFirst (fun r => r.seq == q) f s.rcd.circ
      found := updFirst (fun r => r.seq == q) f s.rcd.found
      dirty := if s.rcd.dirty.contains q then s.rcd.dirty else s.rcd.dirty ++ [q] } }

/-- The open record that an event repeats (R495). -/
def State.openRec (s : State) (e : EventIn) : Option EvRec :=
  (s.rcd.circ ++ s.rcd.found).find? fun r => s.rcd.openSeqs.contains r.seq && r.code == e.code && r.cls == e.cls && r.unit == e.unit && r.ctx == e.ctx

/-- An event raises the repeat count of its open record (R495). -/
def EvRec.again (r : EvRec) (e : EventIn) : EvRec :=
  if r.rep ≥ 0xFFFF then r
  else { r with rep := r.rep + 1, lastMs := e.upMs, saturated := decide (r.rep + 1 = 0xFFFF) }

/-- An event becomes a record or a repeat (R490, R495). -/
def State.takeEvent (s : State) (e : EventIn) : State :=
  match s.openRec e with
  | some r => (s.updRec r.seq fun r => r.again e).bump Obj.erRepeats
  | none => s.makeRec e

/-- The recorder takes the oldest event of its queue; once the queue has room, one RECORDS_LOST record tells of the events lost (R490). -/
def State.takeNext (s : State) : State :=
  match s.rcd.loaded, s.rcd.queue with
  | false, _ | _, [] => s
  | true, e :: q =>
    let s := { s with rcd := { s.rcd with queue := q } }
    let s := s.takeEvent e
    if s.rcd.lostNow = 0 then s
    else
      let n := s.rcd.lostNow
      let s := { s with rcd := { s.rcd with lostNow := 0 } }
      s.makeRec ⟨0x7003, 0x00, 0, noCtx, n, 0, 0, s.pkgTime, s.upMs⟩

/-- EVENT_TAKEN (R490). -/
def execEventTaken (s : State) : Host.Outcome State Fault Refusal := .next s.takeNext

/-- Between the units of one long operation the recorder goes on taking events, so that the queue does not overflow (DESIGN CHOICE). -/
def State.pace (s : State) : State := if s.rcd.queue.length ≥ 512 then s.takeNext else s

/-- EVENT_QUEUE_FULL: an event arrives at the recorder's queue; one that finds it full is counted (R490). -/
def execEventQueueFull (e : EventIn) (s : State) : Host.Outcome State Fault Refusal :=
  .next (if s.rcd.queue.length ≥ 1024 then s.offer e else s)

/-- REPEAT_WINDOW_EXPIRY: one second after its first occurrence a record closes (R495). -/
def execRepeatWindowExpiry (seq : Nat) (s : State) : Host.Outcome State Fault Refusal :=
  .next { s with rcd := { s.rcd with openSeqs := s.rcd.openSeqs.filter fun q => q != seq } }

/-- Both areas are imaged in FL (R493). -/
def State.imageAreas (s : State) : State :=
  { s with rcd := { s.rcd with flCirc := s.rcd.circ, flFound := s.rcd.found, dirty := [] } }

/-- RECORDER_FL_WRITE: waiting records and changes reach FL; a refusal by FL sets `er_fl_state` FAILED and makes an FL_FAILED record (R493). -/
def execRecorderFlWrite (flOk : Bool) (s : State) : Host.Outcome State Fault Refusal :=
  .next (if s.rcd.dirty.isEmpty ∨ s.rd Obj.erFlState ≠ 0 then s
    else if flOk then s.imageAreas
    else (s.wr Obj.erFlState 1).event 0x7004 0x00 0 noCtx 0 0 0)

/-- RECORDER_FL_RETRY: each second a write that FL refused is tried again (R493); one that succeeds ends FAILED (DEDUCED). -/
def execRecorderFlRetry (flOk : Bool) (s : State) : Host.Outcome State Fault Refusal :=
  .next (if s.rd Obj.erFlState ≠ 1 ∨ !flOk then s else (s.wr Obj.erFlState 0).imageAreas)

/-- SNAPSHOT_TAKE: a session fixes the range of records it will read (R496). -/
def State.takeSnapshot (s : State) (w : Who) (v : Bytes) : State × Nat :=
  if v.length ≠ 9 then (s, rBadLength)
  else if byteAt v 0 > 1 ∨ w.session = 0 then (s, rRefused)
  else
    let n : Snapshot := ⟨w.session, byteAt v 0 == 1, s.rd Obj.erNewestSeq, leAt v 1 8⟩
    ({ s with rcd := { s.rcd with snapshots := n :: s.rcd.snapshots.filter fun x => x.session != w.session } }, rOk)

def execSnapshotTake (w : Who) (v : Bytes) (s : State) : Host.Outcome State Fault Refusal :=
  .next (s.ctl w (w.role == roleObserver || isOpCus w) fun s => s.takeSnapshot w v)

/-- The header and records of one read of `er_snapshot_read` (R496, R497), and the snapshot with its cursor moved. -/
def State.snapRead (s : State) (session : Nat) : State × Bytes :=
  match s.rcd.snapshots.find? fun x => x.session = session with
  | none => (s, bytesOf [leBytes 8 (oldestSeq s.rcd.circ), [0, 1], zeros 6])
  | some n =>
    let area := if n.circulating then s.rcd.circ else s.rcd.found
    let cur := max n.cursor 1
    let todo := area.reverse.filter fun r => decide (cur ≤ r.seq) && decide (r.seq ≤ n.lastSeq)
    let out := todo.take 15
    let last := (out.getLast?.map (·.seq)).getD n.lastSeq
    let gap := decide (cur < oldestSeq area) && decide (cur ≤ n.lastSeq)
    let done := decide (todo.length ≤ 15)
    let n' := { n with cursor := last + 1 }
    let s := { s with rcd := { s.rcd with snapshots := updFirst (fun x => x.session == session) (fun _ => n') s.rcd.snapshots } }
    (s, bytesOf [leBytes 8 (oldestSeq area), leBytes 1 out.length, leBytes 1 (2 * ofBool gap + ofBool done), zeros 6] ++
      bytesOf (out.map EvRec.bytes))

/-- SNAPSHOT_READ: the next records of the session's snapshot (R496, R497). -/
def execSnapshotRead (w : Who) (s : State) : Host.Outcome State Fault Refusal :=
  if w.role == roleObserver || isOpCus w then
    let r := s.snapRead w.session
    .next (r.1.answer w.session w.reqId opRead rOk r.2 0 r.2.length)
  else .next (s.answer w.session w.reqId opRead rNoAccess [] 0 0)

/-- The FL write of a clear completes: both areas keep the CLEARED record and what followed it, in SRAM and in FL, and the write is answered (R498). -/
def State.clearDone (s : State) : State :=
  match s.rcd.clear with
  | none => s
  | some c =>
    let circ := s.rcd.circ.filter fun r => decide (c.upto < r.seq)
    let found := (circ.reverse.take 1024).reverse
    let s : State := { s with rcd := { s.rcd with circ := circ, found := found, clear := none } }
    (((s.imageAreas).wr Obj.erLastClearSeq c.recSeq).erSync).answer c.session c.req opWrite rOk [] 0 0

/-- RECORDER_CLEAR: the Custodian clears what it last read (R498): the CLEARED record is made at once, the answer follows the FL write. A clear that is still being
written completes before another is accepted (DESIGN CHOICE: both lie within its 100 ms). -/
def State.beginClear (s : State) (w : Who) (v : Nat) : State × Nat :=
  if v ≠ s.rd Obj.erNewestSeq ∨ s.rcd.flush.isSome ∨ s.rd Obj.erFlState ≠ 0 then (s, rRefused)
  else
    let s := s.clearDone
    let q := s.rcd.nextSeq
    let s := s.makeRec ⟨0x7001, 0x00, 0, noCtx, v, w.session, 0, s.pkgTime, s.upMs⟩
    ({ s with rcd := { s.rcd with clear := some ⟨v, w.session, w.reqId, q⟩ } }, rLater)

def execRecorderClear (w : Who) (v : Nat) (s : State) : Host.Outcome State Fault Refusal :=
  .next (s.ctl w (isCus w) fun s => s.beginClear w v)

/-- CLEAR_WRITE_DONE (R498). -/
def execClearWriteDone (s : State) : Host.Outcome State Fault Refusal := .next s.clearDone

/-- A flush starts (R499); a clear in progress is abandoned and answered REFUSED (R500). -/
def State.startFlush (s : State) (cause : Nat) : State :=
  if s.rcd.flush.isSome then s
  else
    let s := { s with rcd := { s.rcd with flush := some cause } }
    match s.rcd.clear with
    | none => s
    | some c =>
      let s := s.updRec c.recSeq fun r => { r with arg2 := 1 }
      let s := { s with rcd := { s.rcd with clear := none } }
      s.answer c.session c.req opWrite rRefused [] 0 0

/-- The end of a flush: the FLUSH record is made with the number of records written, itself included, and everything lies in FL (R499). -/
def State.endFlush (s : State) (cause : Nat) : State :=
  let n := s.rcd.dirty.length + 1
  let s := s.makeRec ⟨0x7002, 0x00, 0, noCtx, n, cause, 0, s.pkgTime, s.upMs⟩
  let s := if s.rd Obj.erFlState = 0 then s.imageAreas else s
  let s := { s with rcd := { s.rcd with flush := none } }
  s.bump Obj.erFlushes

end Sys2Proof.Machine
end

