-- ==== Sys2Proof/Machine/Nxf.lean ====
section
/-! DEFINITION. Receiving NXF frames and requests (R433, R434, R440, R441). -/

namespace Sys2Proof.Machine

open Sys2Proof

/-- Whether a replay window accepts a number (R434): above the highest, or among the 64 below it and not seen. -/
def ReplayWin.accepts (w : ReplayWin) (q : Nat) : Bool :=
  if q > w.high then true
  else if q = w.high then false
  else decide (w.high - q ≤ 64) && !bit w.mask (w.high - q - 1)

/-- The window after a number is accepted: bit i of the mask stands for `high - 1 - i`. -/
def ReplayWin.take (w : ReplayWin) (q : Nat) : ReplayWin :=
  if q > w.high then ⟨q, (if w.high = 0 then 0 else (2 * w.mask + 1) * 2 ^ (min 65 (q - w.high - 1))) % 2 ^ 64⟩
  else ⟨w.high, setBit w.mask (w.high - q - 1) true⟩

/-- The session that a frame names (R433): one that this package opened by its peer and the number that the peer gave it, any other by the number that this package gave
it. -/
def State.sessFor (s : State) (f : NxFrame) : Option Session :=
  match s.mgmt.sessions.find? fun x => x.weOpened && x.peerId == f.session && x.peer == some f.peer with
  | some x => some x
  | none => s.mgmt.sessions.find? fun x => !x.weOpened && x.id == f.session

/-- Receive a protected frame of one type (R433, R434): the session it belongs to, or the count of its discard. A frame of an unknown session has no key, so its tag
fails. Only UDP port 30840 takes NXF, nothing arrives on a port that does not run (R431), and in NETWORK mode SB takes no management frame while it is not secured
(R415). -/
def State.frameIn (s : State) (f : NxFrame) (typ : Nat) (body : Bytes) : State × Option Session :=
  if f.dport ≠ udpNxf then (s, none)
  else if !f.legal body.length then (s.bump Obj.nxfFramesBad, none)
  else if f.typ ≠ typ then (s, none)
  else match s.sessFor f with
    | none => (s.bump Obj.nxfFramesBad, none)
    | some x =>
      if !s.carries x then (s, none)
      else if !f.tagOk x.rxKey body then (s.bump Obj.nxfFramesBad, none)
      else if !x.win.accepts f.seq then (s.bump Obj.nxfReplayDrop, none)
      else
        let x := { x with win := x.win.take f.seq, addr := f.addr, udp := f.sport }
        (s.setSession x, some x)

/-- The length and offset rules of a request (R440). -/
def reqBad (op : Nat) (q : NxReq) : Bool :=
  decide (q.rsv ≠ 0) ||
    (if op = opRead then decide (q.length < 1 ∨ q.length > 1024) || !q.value.isEmpty
     else if op = opWrite ∨ op = opMbxSend then
       decide (q.length < 1 ∨ q.length > 1088 ∨ q.value.length ≠ q.length ∨ q.offset ≠ 0)
     else if op = opBellRing then decide (q.length ≠ 0 ∨ q.offset ≥ 64) || !q.value.isEmpty
     else decide (q.length ≠ 0 ∨ q.offset ≠ 0) || !q.value.isEmpty)

/-- Whether an operation code is one of R440. -/
def opKnown (op : Nat) : Bool := decide (1 ≤ op) && decide (op ≤ 10)

/-- Receive a request (R440, R441): repeats are answered from the kept responses, and the operation is performed otherwise; an unknown one is MALFORMED. A session that is
not open, or a Steward session, carries no request (R439). A request of another operation is a command of another row. -/
def State.request (s : State) (op : Nat) (q : NxReq) (k : State → Session → State) : State :=
  if q.op ≠ op ∧ opKnown q.op then s
  else match s.frameIn q.frame ntRequest q.body with
  | (s, none) => s
  | (s, some x) =>
    if x.st ≠ .opened ∨ x.role = roleSteward then s.bump Obj.nxfFramesBad
    else if x.known q.reqId ∨ 16 ≤ x.openReqs.length then s.turnAway x q.reqId q.op
    else
      let s := s.setSession { x with openReqs := x.openReqs ++ [⟨q.reqId, q.op⟩] }
      if q.op ≠ op ∨ reqBad op q then s.answer x.id q.reqId q.op rMalformed [] 0 0 else k s x

/-- KEEPALIVE: keeps the session open; the frame's acceptance is its whole effect (R437, R440). -/
def execKeepalive (q : NxReq) (s : State) : Host.Outcome State Fault Refusal :=
  .next (s.request opKeepalive q fun s x => s.answer x.id q.reqId opKeepalive rOk [] 0 0)

end Sys2Proof.Machine
end

