-- ==== Sys2Proof/Machine/NiBase.lean ====
section
/-! DEFINITION. Building and protecting packets at a network interface (R249, R290, R299, R300), and the acknowledgement of a received message. -/

namespace Sys2Proof.Machine

open Sys2Proof

/-- Class codes (R253). -/
abbrev clsMG : Nat := 0
abbrev clsRQ : Nat := 1
abbrev clsFW : Nat := 2
abbrev clsRP : Nat := 3
abbrev clsCL : Nat := 4

/-- Key slot states (R299). -/
abbrev slotEmpty : Nat := 0
abbrev slotRxOnly : Nat := 1
abbrev slotActive : Nat := 2
abbrev slotDraining : Nat := 3
abbrev slotRetiring : Nat := 4

/-- The NI fields of a packet (R290). -/
def Packet.op (p : Packet) : Nat := byteAt p.ni 0 / 16
def Packet.sub (p : Packet) : Nat := byteAt p.ni 0 % 16
def Packet.lastFlag (p : Packet) : Bool := bit (byteAt p.ni 1) 7
def Packet.enc (p : Packet) : Bool := bit (byteAt p.ni 1) 6
def Packet.slot (p : Packet) : Nat := bits (byteAt p.ni 1) 4 2
def Packet.job (p : Packet) : Nat := leAt p.ni 2 2
def Packet.msgId (p : Packet) : Nat := leAt p.ni 4 6
def Packet.index (p : Packet) : Nat := byteAt p.ni 10
def Packet.msgLen (p : Packet) : Nat := leAt p.ni 11 3
def Packet.target (p : Packet) : Nat := leAt p.ni 14 6

/-- The local context of a job (R284). -/
def State.ctxOfJob (s : State) (job : Nat) : Option Nat :=
  if job = 0 then none else (List.range 64).find? fun c => s.rd (Obj.niJob c) = job ∧ s.ctxSt c ≠ ctxFree

/-- The receive entry that a packet belongs to. -/
def State.rxOf (s : State) (i c : Nat) (p : Packet) : Option RxMsg :=
  s.ni.rxs.find? fun r => r.ni = i ∧ r.ctx = c ∧ r.slot = p.slot ∧ r.src = p.src ∧ r.msgId = p.msgId ∧ r.cls = p.cls

/-- The fabric address of an NI of this package (R249). -/
def State.fabAddr (s : State) (i : Nat) : Nat := s.rd Obj.ownCatchment * 256 + s.pos * 4 + i

/-- The state of one key slot of a context. -/
def State.slotSt (s : State) (ctx slot : Nat) : Nat := byteAt (s.rdo (Obj.keySlotState ctx)) slot

def State.setSlot (s : State) (ctx slot v : Nat) : State :=
  s.wro (Obj.keySlotState ctx) (patch (s.rdo (Obj.keySlotState ctx)) slot [BitVec.ofNat 8 v])

/-- The slot that protects what a context sends: the ACTIVE slot that `key_tx_slot` names (R300). -/
def State.txSlot (s : State) (ctx : Nat) : Option Nat :=
  let k := s.rd (Obj.keyTxSlot ctx)
  if k < 4 ∧ s.slotSt ctx k = slotActive then some k else none

/-- The header bytes that a packet's check covers (R300). -/
def Packet.aad (p : Packet) : Bytes := leBytes 3 p.src ++ leBytes 1 p.units ++ p.ni

/-- The class code and sender bits of a GCM nonce, for RQ, FW and RP (R300). -/
def Packet.nonce (p : Packet) (origin : Nat) : Bytes :=
  beBytes 3 origin ++ beBytes 6 (leAt p.ni 4 6) ++ beBytes 3 (byteAt p.ni 10 * 65536 + p.cls * 8192 + p.src % 256 * 32)

/-- The nonce of a CL packet: the source, the invocation, the session with kind and stage, and the byte offset ÷ 256 (R300, R305). -/
def Packet.nonceCl (p : Packet) (inv sess kindStage off : Nat) : Bytes :=
  beBytes 3 p.src ++ beBytes 4 inv ++ beBytes 1 sess ++ beBytes 1 kindStage ++ beBytes 3 off

/-- Seal a packet under a slot, or give it its CRC (R300). -/
def State.seal (s : State) (ctx : Nat) (slot : Option Nat) (iv : Bytes) (p : Packet) : Packet :=
  match slot with
  | some k =>
    let o := gcmSeal (mgetD s.sec.slotKeys (4 * ctx + k) []) iv p.aad p.payload
    { p with payload := fit p.payload.length o, tag := fit 16 (o.drop p.payload.length) }
  | none => { p with tag := leBytes 4 (crc32c (p.aad ++ p.payload)) ++ zeros 12 }

/-- Build a packet of class RQ, FW or RP (R249, R290): `op` and `sub` of `ni_op`, the message it belongs to, its index and its payload. -/
def State.buildPkt (s : State) (ctx i cls dst op sub : Nat) (last : Bool) (msgId idx len target : Nat) (pay : Bytes) : Packet :=
  let slot := s.txSlot ctx
  let units := cdiv pay.length 16
  let ni := bytesOf [leBytes 1 (16 * op + sub), leBytes 1 (128 * ofBool last + 64 * ofBool slot.isSome + 16 * slot.getD 0),
    leBytes 2 (s.rd (Obj.niJob ctx)), leBytes 6 msgId, leBytes 1 idx, leBytes 3 len, leBytes 6 target]
  let p : Packet := ⟨(16 * units + 127) / 64, cls, 0, 0, false, dst, s.fabAddr i, 0, units, 0, 0, ni, fit (16 * units) pay, zeros 16⟩
  s.seal ctx slot (p.nonce (if cls = clsRP then dst else p.src)) p

/-- Queue a packet for injection at an NI; one that is DISABLED or FAILED sends nothing (R310). -/
def State.queueEg (s : State) (i : Nat) (e : EgPkt) : State :=
  let n := s.niOf i
  if s.rd (Obj.niState i) = ustDisabled ∨ s.rd (Obj.niState i) = ustFailed then s.setNi i { n with rpUsed := n.rpUsed - ofBool e.relRp }
  else s.setNi i { n with egress := n.egress ++ [e] }

def State.updRx (s : State) (id : Nat) (f : RxMsg → RxMsg) : State :=
  { s with ni := { s.ni with rxs := updFirst (fun r => r.id == id) f s.ni.rxs } }

/-- Acknowledge a received message with a status and end its receive entry, which stays quarantined (R290, R293). -/
def State.ackRx (s : State) (r : RxMsg) (st : Status) (target : Nat) (pay : Bytes) : State :=
  let p := s.buildPkt r.ctx r.ni clsRP r.src 0xE st.code true r.msgId 0 (max 1 pay.length) target pay
  let s := s.queueEg r.ni ⟨r.ctx, p, true⟩
  s.updRx r.id fun r => { r with quarantined := true, status := st }

/-- A task post made for a received message has completed (R288): its acknowledgement carries the status. -/
def State.rxPostDone (s : State) (id : Nat) (st : Status) : State :=
  match s.ni.rxs.find? fun r => r.id = id ∧ !r.quarantined with
  | none => s
  | some r => s.ackRx r st 0 []

end Sys2Proof.Machine
end

