-- ==== Sys2Proof/Machine/Tally.lean ====
section
/-! DEFINITION. Tallies and the decrements that reach them (R109 to R113, R140, R142). -/

namespace Sys2Proof.Machine

open Sys2Proof

def Tile.tally (t : Tile) (k : Nat) : Tally := mgetD t.tallies k Tally.free

def State.setTally (s : State) (n k : Nat) (y : Tally) : State :=
  let t := s.tile n
  s.setTile n { t with tallies := mput t.tallies k y }

/-- A tally has fired while its count is 0 or less (R109). -/
def Tally.fired (y : Tally) : Bool := decide (y.count ≤ 0)

/-- A decrement applied to an ACTIVE tally (R111, R112): the count is a 32-bit signed number, and one that falls below the least of them wraps (DESIGN CHOICE: R109 is
silent). -/
def Tally.dec (y : Tally) (n : Int) (st : Status) (cause : Nat) : Tally :=
  { y with
    count := sext (ofInt 32 (y.count - n)) 32
    status := y.status.first st
    cause := if y.status.first st = y.status then y.cause else cause }

/-- A decrement kept while the tile is FROZEN (R109, R113). -/
def Tally.pend (y : Tally) (n : Int) (st : Status) (cause : Nat) : Tally :=
  { y with
    pending := y.pending + n
    pendStatus := y.pendStatus.first st
    pendCause := if y.pendStatus.first st = y.pendStatus then y.pendCause else cause }

/-- The pending counts of a tally applied at a release (R140). -/
def Tally.settle (y : Tally) : Tally :=
  { y.dec y.pending y.pendStatus y.pendCause with pending := 0, pendStatus := .ok, pendCause := causeNone }

/-- A decrement reaches its tally (R111 to R113). -/
def State.applyDec (s : State) (d : TallyDec) : State :=
  let y := (s.tile d.tile).tally d.tally
  if d.tile ≥ 1920 ∨ y.owner ≠ some d.ctx then
    (s.bump Obj.tallyMisdirected).event 0x1801 0x01 d.tile d.ctx d.tally d.ctx 0
  else if s.rd (Obj.tileState d.tile) = ustFrozen then s.setTally d.tile d.tally (y.pend d.n d.status d.cause)
  else s.setTally d.tile d.tally (y.dec d.n d.status d.cause)

/-- A decrement leaves for its tally. -/
def State.sendDec (s : State) (d : TallyDec) : State := { s with decs := s.decs ++ [d] }

/-- A channel or an NI decrements a tally before it goes on to write a record or to acknowledge (R197, R282, R289): at once, unless a substitution of the tally's
tile keeps the decrement (R100, R142). -/
def State.decNow (s : State) (d : TallyDec) : State :=
  let t := s.tile d.tile
  if t.held then { s.setTile d.tile { t with heldDecs := t.heldDecs ++ [d] } with heldHit := s.heldHit + 1 } else s.applyDec d

end Sys2Proof.Machine
end

