-- ==== Sys2Proof/Machine/TeBase.lean ====
section
/-! DEFINITION. Transfer descriptors, completion records and the record queue of a channel (R188 to R198). -/

namespace Sys2Proof.Machine

open Sys2Proof

/-- HTE channels are 64 to 71 (R185). -/
def isHte (c : Nat) : Bool := decide (64 ≤ c)

def chanMaster (c : Nat) : Master := if isHte c then .hte else .te

/-- TE15, TE31, TE47 and TE63 belong to the house context (R185). -/
def isHouse (c : Nat) : Bool := decide (c < 64 ∧ c % 16 = 15)

/-- The owner context of a channel, or none (R186). -/
def State.teOwnerOf (s : State) (c : Nat) : Option Nat :=
  if isHouse c then some 0 else
    let o := s.rd (Obj.teOwner c)
    if o = 0xFF then none else some o

/-- Detail codes of R197. -/
abbrev tdNone : Nat := 0
abbrev tdMalformed : Nat := 1
abbrev tdWindow : Nat := 2
abbrev tdNoPage : Nat := 3
abbrev tdNotMoved : Nat := 4
abbrev tdRemoteAccess : Nat := 5
abbrev tdRetryExceeded : Nat := 6
abbrev tdPortDown : Nat := 7

/-- The fields of a transfer descriptor (R192). -/
def dMode (b : Bytes) : Nat := byteAt b 0
def dFence (b : Bytes) : Bool := bit (byteAt b 1) 0
def dTallyValid (b : Bytes) : Bool := bit (byteAt b 1) 1
def dThenValid (b : Bytes) : Bool := bit (byteAt b 1) 2
def dTally (b : Bytes) : Nat := byteAt b 2
def dTallyTile (b : Bytes) : Nat := leAt b 4 2
def dCount (b : Bytes) : Nat := leAt b 6 2
def dSrc (b : Bytes) : Nat := leAt b 8 8
def dDst (b : Bytes) : Nat := leAt b 16 8
def dLen (b : Bytes) : Nat := leAt b 24 4
def dElem (b : Bytes) : Nat := leAt b 28 4
def dAux (b : Bytes) : Nat := leAt b 32 8
def dAux2 (b : Bytes) : Nat := leAt b 40 4
def dTag (b : Bytes) : Bytes := slice b 44 4
def dThenTask (b : Bytes) : Nat := leAt b 48 8
def dThenTile (b : Bytes) : Nat := leAt b 56 2

/-- A completion record (R197). -/
def teRecord (tag : Bytes) (st detail post c bytes count : Nat) : Bytes :=
  bytesOf [tag, leBytes 1 st, leBytes 1 detail, leBytes 1 post, leBytes 1 c, leBytes 4 bytes, leBytes 4 count]

/-- Whether a channel's completion queue is full: one entry always stays free, so that equal indices mean empty (DEDUCED). -/
def State.cqFull (s : State) (c : Nat) : Bool :=
  (s.rd (Obj.teCqTail c) + 1) % s.rd (Obj.teCqEntries c) == s.rd (Obj.teCqHead c)

/-- Write one record at the tail of the completion queue (R191, R390): a failed check freezes nothing and the record is not written. -/
def State.putRecord (s : State) (c : Nat) (r : TeRec) : State :=
  match s.teOwnerOf c with
  | none => s
  | some ctx =>
    let tail := s.rd (Obj.teCqTail c)
    let base := s.rd (Obj.teCqBase c) + 16 * tail
    let w := s.write ctx (chanMaster c) permWrite (if ctx = 0 then .phys base else .virt base) r.bytes
    if w.st ≠ .ok then w.s
    else
      let s := w.s.wr (Obj.teCqTail c) ((tail + 1) % s.rd (Obj.teCqEntries c))
      let s := s.bump Obj.teDescCompleted
      if r.notOk then s.bump Obj.teDescNotOk else s

/-- Write the records that may be written: in queue order, while the completion queue has room (R191, R198). One that meets a tile in steps 2 to 4 of a substitution waits,
and those behind it (R100). -/
def State.flushGo : Nat → State → Nat → State
  | 0, s, _ => s
  | f + 1, s, c =>
    let ch := s.chan c
    match ch.recs with
    | [] => s
    | r :: rest =>
      if s.cqFull c ∨ (ch.active.any fun a => decide (a.serial < r.serial)) ∨ (ch.queue.any fun q => decide (q.serial < r.serial)) then s
      else
        let t := (s.setChan c { ch with recs := rest }).putRecord c r
        if s.heldHit < t.heldHit then s else State.flushGo f t c

def State.flushRecords (s : State) (c : Nat) : State := State.flushGo ((s.chan c).recs.length) s c

/-- Put a record among those that wait, in queue order. -/
def insRec (r : TeRec) : List TeRec → List TeRec
  | [] => [r]
  | q :: l => if r.serial < q.serial then r :: q :: l else q :: insRec r l

/-- The record of a descriptor joins the channel's records and is written in its turn. -/
def State.recordDesc (s : State) (c serial : Nat) (tag : Bytes) (st : Status) (detail post bytes count : Nat) : State :=
  let ch := s.chan c
  let r : TeRec := ⟨serial, teRecord tag st.code detail post c bytes count, st != .ok⟩
  (s.setChan c { ch with recs := insRec r ch.recs }).flushRecords c

/-- A descriptor's tally decrement (R197 step 1); every other completion than a POST or a task carries cause NONE (R111). -/
def State.descTally (s : State) (c ctx : Nat) (b : Bytes) (st : Status) : State :=
  if dTallyValid b then s.decNow ⟨.chan c, dTallyTile b, dTally b, 1, st, causeNone, ctx⟩ else s

/-- The post of a descriptor's then_task has completed (R197 steps 2 and 3): the record is written. -/
def State.tePostDone (s : State) (c serial : Nat) (st : Status) : State :=
  let ch := s.chan c
  match ch.active.find? fun a => a.serial = serial ∧ a.phase = .posting with
  | none => s
  | some a =>
    let s := s.setChan c { ch with active := ch.active.filter fun b => b.serial != serial }
    s.recordDesc c serial (dTag a.bytes) a.status a.detail st.code a.bytesDone a.count

end Sys2Proof.Machine
end

