-- ==== Sys2Proof/Machine/Tasks.lean ====
section
/-! DEFINITION. Tallies, task completion, freezing, posting and task selection on the tiles (R106 to R125, R137 to R143, R391 to R396). -/

namespace Sys2Proof.Machine

open Sys2Proof

/-- The fields of a task descriptor (R106). -/
def kEntry (b : Bytes) : Nat := leAt b 0 4
def kFlags (b : Bytes) : Nat := leAt b 4 2
def kStealable (b : Bytes) : Bool := bit (kFlags b) 0
def kRunOnError (b : Bytes) : Bool := bit (kFlags b) 1
def kHigh (b : Bytes) : Bool := bit (kFlags b) 2
def kRecord (b : Bytes) : Bool := bit (kFlags b) 3
def kWaitAValid (b : Bytes) : Bool := bit (kFlags b) 4
def kWaitBValid (b : Bytes) : Bool := bit (kFlags b) 5
def kWaitA (b : Bytes) : Nat := byteAt b 6
def kWaitB (b : Bytes) : Nat := byteAt b 7
def kDoneTally (b : Bytes) : Nat := byteAt b 8
def kDoneValid (b : Bytes) : Bool := bit (byteAt b 9) 0
def kDoneTile (b : Bytes) : Nat := leAt b 10 2
def kBudget (b : Bytes) : Nat := leAt b 12 4
def kRecordAddr (b : Bytes) : Nat := leAt b 16 8
def kArg (b : Bytes) (i : Nat) : Nat := leAt b (24 + 8 * i) 8
def kTag (b : Bytes) : Bytes := slice b 56 4

/-- The wait tallies a descriptor names (R106). -/
def kWaits (b : Bytes) : List Nat :=
  (if kWaitAValid b then [kWaitA b] else []) ++ (if kWaitBValid b then [kWaitB b] else [])

/-- The place an XFER address names (R134). -/
def xferLoc (n a : Nat) : Loc := if bit a 63 then .sram n (a % 2 ^ 21) else .virt a

/-- Tile clocks in a span of ns at the die's present clock. -/
def State.clocksIn (s : State) (n ns : Nat) : Nat := ns * s.rd (Obj.tileClockMhz (n / 480)) / 1000

/-- Tile clocks the running task has used (R108). -/
def State.runClocks (s : State) (n : Nat) (r : RunTask) : Nat := r.clocks + s.clocksIn n (s.now - r.sinceNs)

/-- The completion record of a task (R108). -/
def taskRecord (k : PoolTask) (st : Status) (cause exec : Nat) (notRun : Bool) (clocks : Nat) : Bytes :=
  bytesOf [kTag k.desc, leBytes 1 st.code, leBytes 1 cause, leBytes 2 (if notRun then k.poolTile else exec), leBytes 2 k.poolTile,
    leBytes 1 (2 * ofBool notRun + ofBool k.stolen), leBytes 1 0, leBytes 4 (min clocks 0xFFFFFFFF)]

/-- Complete a task (R108, R111, R115): the record is written first, then the done tally's decrement leaves; a record that cannot be written changes
what the decrement carries, and nothing freezes. -/
def State.completeTask (s : State) (k : PoolTask) (st : Status) (cause exec : Nat) (notRun : Bool) (clocks : Nat) : State :=
  let w := if kRecord k.desc then
      s.write k.ctx .tile permWrite (.virt (kRecordAddr k.desc)) (taskRecord k st cause exec notRun clocks)
    else ⟨s, .ok, [], false, 0, 0⟩
  let failed : Status := if w.st = .ok then .ok else if w.win then .violation else .uncorrectable
  let own := decide (st.rank < failed.rank)
  let st' := if failed = .ok ∨ own then st else failed
  let cause' := if failed = .ok ∨ own then cause else if w.win then causeWindow else causeData
  let s := w.s.bump Obj.tasksCompleted
  let s := if st = .ok then s else s.bump Obj.tasksNotOk
  if kDoneValid k.desc then s.sendDec ⟨.tile (if notRun then k.poolTile else exec), kDoneTile k.desc, kDoneTally k.desc, 1, st', cause', k.ctx⟩ else s

/-- The running task of a tile ends: its run time is charged to its context's credit (R392) and it completes. -/
def State.endTask (s : State) (n : Nat) (r : RunTask) (st : Status) (cause : Nat) : State :=
  let clocks := s.runClocks n r
  let t := s.tile n
  let ran : Int := (s.now - r.startNs : Nat)
  let t := { t with
    run := none, waiting := false, lastCtx := r.task.ctx,
    credit := mput t.credit r.task.ctx (mgetD t.credit r.task.ctx 0 - ran) }
  let s := s.setTile n t
  let s := s.bumpBy (Obj.tileBusyCycles n) (clocks - r.busyCut)
  s.completeTask r.task st cause n false clocks

/-- A post has completed (R120): its issuer learns the status. This part freezes nothing. -/
def State.postDone (s : State) (o : Origin) (st : Status) (cause : Nat) : State :=
  let s := if st = .timeout then s.bump Obj.postsTimedOut else s
  match o with
  | .tile n k ctx age _ =>
    let t := s.tile n
    let s := match t.run with
      | some r => if r.task.age = age then s.setTile n { t with outstanding := t.outstanding - 1 } else s
      | none => s
    s.sendDec ⟨.tile n, n, k, 1, st, cause, ctx⟩
  | .te c serial => s.tePostDone c serial st
  | .ni _ id => s.rxPostDone id st
  | .jti ctx =>
    match mget s.jti ctx with
    | none => s
    | some j => { s with jti := mput s.jti ctx { j with left := j.left - 1, status := if j.status = .ok then st else j.status } }

/-- Complete posts with one status and cause. -/
def State.postsDone (s : State) (l : List PostMsg) (st : Status) (cause : Nat) : State :=
  l.foldl (fun s p => s.postDone p.origin st cause) s

/-- The tile freezes (R98, R140, R394): posts that wait for its pool complete with ABORTED_DISABLED, its state is kept. -/
def State.freezeTile (s : State) (n : Nat) (f : Freeze) : State :=
  let st := s.rd (Obj.tileState n)
  if st ≠ ustActive ∧ st ≠ ustQuiescing then s
  else
    let t := s.tile n
    let waiting := t.postQ
    let s := s.setTile n { t with postQ := [], freezeNext := none, frozen := some { f with wasQuiescing := st == ustQuiescing, acc0 := t.acc0, acc1 := t.acc1 } }
    let s := s.goState (Obj.tileState n) 0x01 n ustFrozen
    let s := s.wr (Obj.freezeCause n) f.cause
    let s := s.wr (Obj.freezeCtx n) f.ctx
    let s := s.wr (Obj.freezePc n) f.pc
    let s := s.wr (Obj.freezeAddr n) f.addr
    let s := s.freezeEvent 0x01 n f.ctx f.cause f.addr
    s.postsDone waiting .abortedDisabled causeDisabled

/-- A freeze that waited for the running task's end takes effect (R140). -/
def State.freezeHeld (s : State) (n : Nat) : State :=
  match (s.tile n).freezeNext with
  | some f => s.freezeTile n f
  | none => s

/-- The form in which a tile reports an address of its own SRAM (R134). -/
def tileReport (addr : Nat) : Nat := if bit addr 63 then 2 ^ 63 + addr % 2 ^ 21 else addr

/-- A fault ends the running task at the faulting instruction (R137); causes WINDOW and TALLY_FOREIGN freeze the tile, unless the task was accepted
under an earlier epoch (R396). -/
def State.faultTask (s : State) (n : Nat) (r : RunTask) (cause addr : Nat) : State :=
  let s := s.endTask n r (causeStatus cause) cause
  if cause = causeWindow ∨ cause = causeTallyForeign then
    if r.epoch = s.rd (Obj.protEpoch r.task.ctx) then
      s.freezeTile n ⟨cause, r.task.ctx, (s.tile n).pc, tileReport addr, false, .empty, .empty⟩
    else (s.protAbort).freezeHeld n
  else s.freezeHeld n

/-- The running task ends with a status and cause that freeze nothing. -/
def State.stopTask (s : State) (n : Nat) (r : RunTask) (st : Status) (cause : Nat) : State := (s.endTask n r st cause).freezeHeld n

/-- Work a task issued has failed a check that freezes its tile (R122, R135): the offending task's completion is delivered at once when it still runs;
when another task runs by then, the tile freezes at that task's end (DEDUCED); work of an earlier epoch freezes nothing (R396). -/
def State.offend (s : State) (n ctx age epoch cause addr : Nat) : State :=
  if epoch ≠ s.rd (Obj.protEpoch ctx) then s.protAbort
  else match (s.tile n).run with
    | some r =>
      if r.task.age = age then s.faultTask n r cause addr
      else
        let t := s.tile n
        s.setTile n { t with freezeNext := some ⟨cause, ctx, t.pc, tileReport addr, false, .empty, .empty⟩ }
    | none => s.freezeTile n ⟨cause, ctx, (s.tile n).pc, tileReport addr, false, .empty, .empty⟩

/-- Whether the descriptor or message that made a post was accepted under an earlier epoch of its context (R396). -/
def State.fromOldEpoch (s : State) (ctx : Nat) : Origin → Bool
  | .te c serial => (s.chan c).active.any fun a => a.serial == serial && a.epoch != s.rd (Obj.protEpoch ctx)
  | .ni _ id => s.ni.rxs.any fun r => r.id == id && r.epoch != s.rd (Obj.protEpoch r.ctx)
  | _ => false

/-- A post completes, and a refusal for a failed window or tally-ownership check freezes a posting tile (R122); work of an earlier epoch is counted (R396). -/
def State.postRefused (s : State) (o : Origin) (pctx : Nat) (st : Status) (cause freeze addr : Nat) : State :=
  let s := if freeze ≠ causeNone ∧ s.fromOldEpoch pctx o then s.protAbort else s
  let s := s.postDone o st cause
  match o with
  | .tile n _ ctx age epoch => if freeze = causeNone then s else s.offend n ctx age epoch freeze addr
  | _ => s

/-- A descriptor that breaks a rule of R106 other than wait-tally ownership. A record address must be a multiple of 16 and a context virtual
address where a record is enabled (DEDUCED from the field's row). -/
def kMalformed (b : Bytes) : Bool :=
  decide (kFlags b ≥ 64) || decide (byteAt b 9 ≥ 2) || !allZero (slice b 60 4) || decide (kEntry b % 4 ≠ 0) || decide (kEntry b ≥ 2097152) ||
    (decide (1920 ≤ kDoneTile b) && decide (kDoneTile b ≠ 0xFFFF)) ||
    (kRecord b && (decide (kRecordAddr b % 16 ≠ 0) || decide (kRecordAddr b ≥ 2 ^ 48)))

/-- What refuses a post at a pool (R106, R108, R111, R120, R391): status, cause, and the freezing cause of R122. A record address that fails its window check at entry gives
cause WINDOW (DESIGN CHOICE: R120 names none for it). -/
def State.postCheck (s : State) (p : PostMsg) : Option (Status × Nat × Nat) :=
  let mal := kMalformed p.desc
  let out := decide (p.target ≥ 1920) || !tileIn (s.rdo (Obj.tileSet p.ctx)) p.target
  let foreign := !out && (kWaits p.desc).any fun k => ((s.tile p.target).tally k).owner != some p.ctx
  let rec_ := kRecord p.desc && !mal && (s.check p.ctx .tile permWrite (.virt (kRecordAddr p.desc)) 16).isSome
  if mal ∨ out ∨ foreign ∨ rec_ then
    some (.violation, if mal then causeMalformed else if out then causeWindow else if foreign then causeTallyForeign else causeWindow,
      if out ∨ rec_ then causeWindow else if foreign then causeTallyForeign else causeNone)
  else if s.ctxSt p.ctx ≠ ctxOpen then some (.abortedRetired, causeRetired, causeNone)
  else if s.rd (Obj.tileState p.target) ≠ ustActive then some (.abortedDisabled, causeDisabled, causeNone)
  else if ((s.tile p.target).pool.filter fun e => e.ctx = p.ctx).length ≥ s.rd (Obj.ctxPoolLimit p.ctx) then
    some (.timeout, causePostFull, causeNone)
  else none

/-- A descriptor as it is stamped on entry (R107): the done tile is fixed and the budget cut. -/
def State.stamp (s : State) (n : Nat) (b : Bytes) : Bytes :=
  let b := if kDoneTile b = 0xFFFF then patch b 10 (leBytes 2 n) else b
  let budget := if kBudget b = 0 then s.rd Obj.taskBudgetDefaultUs else kBudget b
  patch b 12 (leBytes 4 (min budget (s.rd Obj.taskBudgetMaxUs)))

/-- The entry that a post makes of its descriptor, with the stealing settings now in force (R107, R147). -/
def State.poolEntry (s : State) (p : PostMsg) : PoolTask :=
  ⟨s.stamp p.target p.desc, p.ctx, s.nextAge, p.target, false, s.rd Obj.stealEnable == 1, s.rd Obj.stealKeep⟩

/-- A post enters the pool (R107, R120). -/
def State.enterPool (s : State) (p : PostMsg) : State :=
  let t := s.tile p.target
  let s := s.setTile p.target { t with pool := t.pool ++ [s.poolEntry p] }
  ({ s with nextAge := s.nextAge + 1 }).postDone p.origin .ok causeNone

/-- Whether a post is a tile's own. -/
def Origin.ofTile (o : Origin) (n : Nat) : Bool :=
  match o with
  | .tile m _ _ _ _ => m == n
  | _ => false

/-- The age of the task whose post it is. -/
def Origin.age (o : Origin) : Option Nat :=
  match o with
  | .tile _ _ _ a _ => some a
  | _ => none

/-- The posts of a tile in the mesh and in the post queues of tiles, channels and command queues. -/
def State.ownPosts (s : State) (n : Nat) : List PostMsg :=
  (s.posts ++ (s.tiles.map fun t => t.2.postQ).flatten ++ (s.chans.map fun c => c.2.postQ).flatten ++ (s.ni.queues.map fun q => q.2.postQ).flatten).filter
    fun p => p.origin.ofTile n

/-- Whether a post of a tile has not completed (R24, R120): it is on its way or waits, or an NI or a mailbox still works on it. -/
def State.postsOut (s : State) (n : Nat) : Bool :=
  !(s.ownPosts n).isEmpty ||
    (s.ni.queues.any fun q => (q.2.queue.any fun d => d.origin.any fun o => o.ofTile n) || q.2.active.any fun a => a.origin.any fun o => o.ofTile n) ||
    s.mgmt.mailboxes.any fun b => b.2.queue.any fun g => match g.sender with
      | .tile m _ _ _ _ => m == n
      | _ => false

/-- Whether two posts come from one source (R119). -/
def sameSource : Origin → Origin → Bool
  | .tile a _ _ _ _, .tile b _ _ _ _ => a == b
  | .te a _, .te b _ => a == b
  | .ni a _, .ni b _ => a == b
  | .jti a, .jti b => a == b
  | _, _ => false

/-- A post arrives at its pool (R119 to R121, R391): it is refused, enters, waits in the post queue of 8, or finds that full too. A post whose source has an
earlier one in the queue waits behind it, since posts of one source enter in the order in which they were issued. -/
def State.arrive (s : State) (p : PostMsg) : State :=
  match s.postCheck p with
  | some r => s.postRefused p.origin p.ctx r.1 r.2.1 r.2.2 p.target
  | none =>
    let t := s.tile p.target
    if t.pool.length < 64 ∧ (t.postQ.any fun q => sameSource q.origin p.origin) = false then s.enterPool p
    else if t.postQ.length < 8 then s.setTile p.target { t with postQ := t.postQ ++ [p] }
    else s.postDone p.origin .timeout causePostFull

/-- Whether a post to a tile is held by its substitution (R100); one to a tile in FAILED is not, since it completes with ABORTED_DISABLED (R99). -/
def State.holdsPosts (s : State) (n : Nat) : Bool := (s.tile n).held && s.rd (Obj.tileState n) != ustFailed

/-- POST_ARRIVAL: a post on its way reaches its pool; posts of one source to one tile keep their order (R119, R120), and accesses to a tile in steps 2 to
4 of a substitution are held (R99, R100). -/
def execPostArrival (k : Nat) (s : State) : Host.Outcome State Fault Refusal :=
  match s.posts[k]? with
  | none => .next s
  | some p =>
    if s.holdsPosts p.target ∨ ((s.posts.take k).any fun q => sameSource q.origin p.origin && q.target == p.target) then .next s
    else .next (({ s with posts := s.posts.eraseIdx k }).arrive p)

/-- TALLY_DECREMENT: a decrement on its way reaches its tally; decrements of one source to one tile arrive in the order in which they left (R88), and those that
arrive at a tile in steps 2 to 4 of a substitution are kept in arrival order (R142). -/
def execTallyDecrement (k : Nat) (s : State) : Host.Outcome State Fault Refusal :=
  match s.decs[k]? with
  | none => .next s
  | some d =>
    if (s.decs.take k).any fun e => e.src == d.src && e.tile == d.tile then .next s
    else
      let s := { s with decs := s.decs.eraseIdx k }
      let t := s.tile d.tile
      .next (if t.held then s.setTile d.tile { t with heldDecs := t.heldDecs ++ [d] } else s.applyDec d)

/-- The decrements kept during a substitution are applied in arrival order (R142). -/
def State.releaseDecs (s : State) (n : Nat) : State :=
  let t := s.tile n
  t.heldDecs.foldl State.applyDec (s.setTile n { t with heldDecs := [] })

/-- Admit the oldest post of a full pool's post queue once an entry is free (R121); the checks are made as it enters. -/
def State.admitPool (s : State) (n : Nat) : State :=
  let t := s.tile n
  match t.postQ with
  | [] => s
  | p :: q =>
    if t.pool.length < 64 then
      let s := s.setTile n { t with postQ := q }
      match s.postCheck p with
      | some r => s.postRefused p.origin p.ctx r.1 r.2.1 r.2.2 p.target
      | none => s.enterPool p
    else s

/-- Whether a pool entry is READY (R114): every named wait tally has fired. -/
def Tile.ready (t : Tile) (e : PoolTask) : Bool := (kWaits e.desc).all fun k => (t.tally k).fired

/-- The status that the wait tallies of an entry carry (R115). -/
def Tile.waitStatus (t : Tile) (e : PoolTask) : Status := (kWaits e.desc).foldl (fun st k => st.first (t.tally k).status) .ok

/-- A READY entry that selection completes without starting it (R115). -/
def Tile.blocked (t : Tile) (e : PoolTask) : Bool := t.ready e && t.waitStatus e != .ok && !kRunOnError e.desc

def Tile.hasReady (t : Tile) (c : Nat) : Bool := t.pool.any fun e => e.ctx == c && t.ready e

/-- One step of the loop of R392: context `(cur + i) mod 64` gains credit and joins the order. -/
def orderStep (t : Tile) (w : Nat → Int) (q : Int) (cur : Nat) (a : NMap Int × List Nat) (i : Nat) : NMap Int × List Nat :=
  let n := (cur + i) % 64
  if !t.hasReady n then (mput a.1 n 0, a.2)
  else
    let c := mgetD a.1 n 0
    let c := if c ≤ 0 then min (c + w n * q) (2 * w n * q) else c
    (mput a.1 n c, if c > 0 ∧ !a.2.contains n then a.2 ++ [n] else a.2)

/-- The time-sharing order of a tile and the credits it leaves (R392). -/
def State.order (s : State) (n : Nat) : NMap Int × List Nat :=
  let t := s.tile n
  let q : Int := (s.rd Obj.tsQuantumUs * 1000 : Nat)
  let first := if t.hasReady t.lastCtx ∧ mgetD t.credit t.lastCtx 0 > 0 then [t.lastCtx] else []
  ((List.range 64).map (· + 1)).foldl (orderStep t (fun c => (s.rd (Obj.ctxWeight c) : Int)) q t.lastCtx) (t.credit, first)

/-- The better of two startable entries: high priority first, then the oldest (R116). -/
def better (a b : PoolTask) : Bool :=
  if kHigh a.desc = kHigh b.desc then decide (a.age < b.age) else kHigh a.desc

def pick : List PoolTask → Option PoolTask
  | [] => none
  | e :: l => match pick l with
    | none => some e
    | some b => if better b e then some b else some e

def Tile.without (t : Tile) (e : PoolTask) : Tile := { t with pool := t.pool.filter fun x => x.age != e.age }

/-- Selection walks the order (R116): entries blocked under R115 complete with DEPENDENCY, and the first context with a startable entry gives its best. -/
def State.selectGo : List Nat → State → Nat → State × Option PoolTask
  | [], s, _ => (s, none)
  | c :: l, s, n =>
    let t := s.tile n
    let mine := t.pool.filter fun e => e.ctx == c && t.ready e
    let bad := mine.filter t.blocked
    let s := bad.foldl (fun s e => (s.setTile n ((s.tile n).without e)).completeTask e (t.waitStatus e) causeDependency n true 0) s
    match pick (mine.filter fun e => !t.blocked e) with
    | some e => (s.setTile n ((s.tile n).without e), some e)
    | none => State.selectGo l s n

/-- What a selection made now would start, without its effects (R99 context boundary). -/
def State.wouldSelect (s : State) (n : Nat) : Option PoolTask := (State.selectGo (s.order n).2 s n).2

/-- Start a task on a tile (R118, R128 to R130): accumulators and registers are cleared, x1 to x7 are set, the sequencer stands at `entry`. -/
def State.startTask (s : State) (n : Nat) (e : PoolTask) : State :=
  let t := s.tile n
  let regs : NMap (BitVec 64) := [(1, BitVec.ofNat 64 (kArg e.desc 0)), (2, BitVec.ofNat 64 (kArg e.desc 1)), (3, BitVec.ofNat 64 (kArg e.desc 2)),
    (4, BitVec.ofNat 64 (kArg e.desc 3)), (5, BitVec.ofNat 64 n), (6, BitVec.ofNat 64 e.poolTile), (7, BitVec.ofNat 64 (ofBool e.stolen))]
  let s := s.setTile n { t with
    x := regs, d := [], v := [], pc := kEntry e.desc, waiting := false, acc0 := .empty, acc1 := .empty, cur := 0, outstanding := 0,
    run := some ⟨e, s.rd (Obj.protEpoch e.ctx), s.now, 0, s.now, 0⟩ }
  let s := s.bump (Obj.tasksRun n)
  if e.stolen then s.bump Obj.tasksStolen else s

/-- Start a task, or complete it with NO_SEED when a context entry cannot reseed the tile's generator (R118, R407). -/
def State.beginTask (s : State) (n : Nat) (e : PoolTask) : State :=
  if e.ctx ≠ (s.tile n).lastCtx ∧ s.rd Obj.rngHealth ≠ 0 then s.completeTask e .abortedDisabled causeNoSeed n true 0
  else s.startTask n e

/-- Whether a tile may start a task: ACTIVE, its die out of reset, nothing running, no queued work of an earlier task, no substitution in steps 2 to 5. -/
def State.canStart (s : State) (n : Nat) : Bool :=
  let t := s.tile n
  s.domUp (n / 480 + 1) && s.rd (Obj.tileState n) == ustActive && t.run.isNone && t.ops.isEmpty && decide (n < 1920) && !t.held

/-- TASK_SELECT: an idle tile selects its next task and starts it (R114 to R118, R392). -/
def execTaskSelect (n : Nat) (s : State) : Host.Outcome State Fault Refusal :=
  if !s.canStart n then .next s
  else
    let o := s.order n
    let t := s.tile n
    let s := s.setTile n { t with credit := o.1 }
    let r := State.selectGo o.2 s n
    match r.2 with
    | none => .next r.1
    | some e => .next (r.1.beginTask n e)

/-- TASK_BUDGET_EXPIRY: the running task's budget has passed; it stops at the instruction boundary with cause BUDGET (R139). -/
def execTaskBudgetExpiry (n : Nat) (s : State) : Host.Outcome State Fault Refusal :=
  match (s.tile n).run with
  | none => .next s
  | some r => .next (if s.now - r.startNs < kBudget r.task.desc * 1000 then s else s.stopTask n r .timeout causeBudget)

/-- The logical neighbour of a tile in a direction, 0 east, 1 north, 2 west, 3 south, on its die (R64, R123). -/
def neighbour (n dir : Nat) : Option Nat :=
  let x := n % 480 % 16
  let y := n % 480 / 16
  if dir = 0 then (if x < 15 then some (n + 1) else none)
  else if dir = 1 then (if y < 29 then some (n + 16) else none)
  else if dir = 2 then (if 0 < x then some (n - 1) else none)
  else if 0 < y then some (n - 16) else none

/-- The next neighbour to ask after direction `d` (R123). -/
def nextNeighbour (n d : Nat) : Option (Nat × Nat) :=
  ((List.range 4).map fun i => (d + 1 + i) % 4).findSome? fun k => (neighbour n k).map fun v => (k, v)

/-- Whether a tile may ask for work (R123, R124): it is ACTIVE and in no substitution, holds no READY task, and has been given none that it has not yet started. A
task that runs on it does not matter. -/
def State.maySteal (s : State) (n : Nat) : Bool :=
  let t := s.tile n
  decide (n < 1920) && s.domUp (n / 480 + 1) && s.rd (Obj.tileState n) == ustActive && !t.held && t.stealGiven.isEmpty && !t.pool.any t.ready

/-- Whether a neighbour is asked (R123, R147): stealing is permitted, or it was when a task that the neighbour holds entered its pool. The setting of `steal_enable` at the
poll governs tasks of which nothing is known yet (DESIGN CHOICE: R123 names the object and R147 the tasks it applies to). -/
def State.pollsAt (s : State) (v : Nat) : Bool := s.rd Obj.stealEnable == 1 || (s.tile v).pool.any fun e => e.stealOn

/-- STEAL_POLL: a tile with no READY task asks its next neighbour (R123, R124). -/
def execStealPoll (n : Nat) (s : State) : Host.Outcome State Fault Refusal :=
  let t := s.tile n
  if !s.maySteal n then .next s
  else match nextNeighbour n t.stealDir with
    | none => .next s
    | some d => .next <| if !s.pollsAt d.2 then s else ((s.setTile n { t with stealDir := d.1, stealAsked := t.stealAsked ++ [d.2] }).emit (.steal n d.2))

/-- The task a victim gives (R124): the oldest stealable READY task of normal priority whose tile set holds the thief, a high-priority one only when none of
normal priority qualifies. A task is given under the settings in force when it entered the pool (R147). -/
def State.give (s : State) (v thief : Nat) : Option PoolTask :=
  let t := s.tile v
  let st := s.rd (Obj.tileState v)
  if (st ≠ ustActive ∧ st ≠ ustQuiescing) ∨ t.held ∨ t.graceOver then none
  else
    let ready := (t.pool.filter t.ready).length
    let ok := t.pool.filter fun e => t.ready e && !t.blocked e && kStealable e.desc && tileIn (s.rdo (Obj.tileSet e.ctx)) thief &&
      e.stealOn && decide (e.keep < ready)
    match pick (ok.filter fun e => !kHigh e.desc) with
    | some e => some e
    | none => pick (ok.filter fun e => kHigh e.desc)

/-- Whether a post of a tile is still on its way to another: a steal request shares the task class with it and cannot reach the victim before it (R88). -/
def State.postAhead (s : State) (thief v : Nat) : Bool := s.posts.any fun p => p.origin.ofTile thief && p.target == v

/-- STEAL_REQUEST: the victim answers with a task or with none (R123, R124); a request behind an earlier post of the thief to the victim waits for it (R88). -/
def execStealRequest (v thief : Nat) (s : State) : Host.Outcome State Fault Refusal :=
  let t := s.tile thief
  if !t.stealAsked.contains v ∨ s.postAhead thief v then .next s
  else match s.give v thief with
    | none => .next (s.setTile thief { t with stealAsked := t.stealAsked.erase v })
    | some e =>
      let s := s.setTile v ((s.tile v).without e)
      let t := s.tile thief
      .next (s.setTile thief { t with stealGiven := t.stealGiven ++ [{ e with stolen := true }], stealAsked := t.stealAsked.erase v })

/-- A thief that has left the states in which it may steal gives a task back, its age unchanged; a pool that cannot take it (full, or of a tile that is FROZEN,
DISABLED, FAILED or past its grace) lets it complete (R98, R124). -/
def State.giveBack (s : State) (n : Nat) (e : PoolTask) : State :=
  let v := s.tile e.poolTile
  let st := s.rd (Obj.tileState e.poolTile)
  if v.pool.length < 64 ∧ (st = ustActive ∨ st = ustQuiescing ∧ !v.graceOver) then
    s.setTile e.poolTile { v with pool := v.pool ++ [{ e with stolen := false }] }
  else s.completeTask e .abortedDisabled causeDisabled n true 0

/-- Every task given to a tile and not started goes back (R124). -/
def State.giveAllBack (s : State) (n : Nat) : State :=
  let t := s.tile n
  t.stealGiven.foldl (fun s e => s.giveBack n e) (s.setTile n { t with stealGiven := [] })

/-- STEAL_REPLY: a stolen task reaches the thief, which starts it once it is idle (R123 to R125). -/
def execStealReply (n : Nat) (s : State) : Host.Outcome State Fault Refusal :=
  match (s.tile n).stealGiven with
  | [] => .next s
  | e :: l =>
    if s.rd (Obj.tileState n) ≠ ustActive ∨ (s.tile n).held then .next (s.giveAllBack n)
    else if !s.canStart n then .next s
    else
      let t := s.tile n
      .next ((s.setTile n { t with stealGiven := l }).beginTask n e)

/-- Complete every pool entry of a tile that a test names, as not run. -/
def State.abortPool (s : State) (n : Nat) (p : PoolTask → Bool) (st : Status) (cause : Nat) : State :=
  let t := s.tile n
  let gone := t.pool.filter p
  let s := s.setTile n { t with pool := t.pool.filter fun e => !p e }
  gone.foldl (fun s e => s.completeTask e st cause n true 0) s

/-- The posts of a retired context that wait at a tile end with ABORTED_RETIRED, and so do their tasks, each with its completion delivered to its own done
tally (R143). -/
def State.retirePosts (s : State) (n ctx : Nat) : State :=
  let t := s.tile n
  let gone := t.postQ.filter fun p => p.ctx == ctx
  gone.foldl (fun s p => (s.postDone p.origin .abortedRetired causeRetired).completeTask (s.poolEntry p) .abortedRetired causeRetired n true 0)
    (s.setTile n { t with postQ := t.postQ.filter fun p => p.ctx != ctx })

/-- Complete the posts that wait at a tile and satisfy a test. -/
def State.abortPosts (s : State) (n : Nat) (p : PostMsg → Bool) (st : Status) (cause : Nat) : State :=
  let t := s.tile n
  let gone := t.postQ.filter p
  (s.setTile n { t with postQ := t.postQ.filter fun e => !p e }).postsDone gone st cause

/-- Release the tallies of a tile that a context owns (R110, R143). -/
def State.releaseTallies (s : State) (n ctx : Nat) : State :=
  let t := s.tile n
  s.setTile n { t with tallies := t.tallies.filter fun y => y.2.owner != some ctx }

end Sys2Proof.Machine
end

