-- ==== Sys2Proof/Machine/Mailbox.lean ====
section
/-! DEFINITION. Mailboxes and doorbells (R450 to R454). -/

namespace Sys2Proof.Machine

open Sys2Proof

/-- The fields of `mbx_bind` (R450). -/
def mbKind (b : Bytes) : Nat := byteAt b 0
def mbCtx (b : Bytes) : Nat := byteAt b 1
def mbMinRole (b : Bytes) : Nat := byteAt b 2
def mbRingBase (b : Bytes) : Nat := leAt b 4 8
def mbRingEntries (b : Bytes) : Nat := leAt b 12 2
def mbTallyTile (b : Bytes) : Nat := leAt b 14 2
def mbTally (b : Bytes) : Nat := byteAt b 16
def mbTallyValid (b : Bytes) : Bool := bit (byteAt b 17) 0
def mbSendCtx (b : Bytes) (c : Nat) : Bool := bit (leAt b 20 8) c
def mbSendRole (b : Bytes) (role : Nat) : Bool := bit (byteAt b 28) (role - 1)

def State.bind (s : State) (m : Nat) : Bytes := s.rdo (Obj.mbxBind m)

/-- A mailbox's queue changes, and `mbx_queued` with it. -/
def State.putMbox (s : State) (m : Nat) (b : Mailbox) : State := (s.setMbox m b).wr (Obj.mbxQueued m) b.queue.length

/-- Whether the receiver is absent (R451): unclaimed, or its context is not OPEN. -/
def State.noReceiver (s : State) (m : Nat) : Bool :=
  if mbKind (s.bind m) = 1 then s.ctxSt (mbCtx (s.bind m)) != ctxOpen else s.rd (Obj.mbxClaimant m) == 0

/-- The 128 bytes of a message entry (R451). -/
def mbxEntry (m : Nat) (g : MbxMsg) : Bytes :=
  let stamp := match g.sender with
    | .session id port role ctx _ => bytesOf [[1], leBytes 1 port, leBytes 1 role, leBytes 1 (if role = roleTenant then ctx else 0), leBytes 4 id,
        leBytes 2 0xFFFF]
    | .tile t _ ctx _ _ => bytesOf [[2, 0xFF, 0], leBytes 1 ctx, leBytes 4 0, leBytes 2 t]
  fit 128 (bytesOf [[1], leBytes 1 g.body.length, leBytes 1 m, [0], leBytes 4 g.seq, leBytes 8 g.time, stamp, zeros 6, g.body])

/-- A BELLS entry (R451, R454). -/
def bellsEntry (m seq time mask : Nat) : Bytes :=
  fit 128 (bytesOf [[2, 8], leBytes 1 m, [0], leBytes 4 seq, leBytes 8 time, [0, 0xFF], zeros 14, leBytes 8 mask])

/-- A send completes (R452): a tile's POST through its tally, a session's MBX_SEND through its response. -/
def State.sendDone (s : State) (g : MbxSender) (st : Status) (cause : Nat) : State :=
  match g with
  | .tile t k ctx age epoch => s.postDone (.tile t k ctx age epoch) st cause
  | .session id _ _ _ req => s.answer id req opMbxSend rOk (leBytes 1 st.code) 0 1

/-- Write one entry into a CONTEXT receiver's ring at `mbx_ring_tail` (R452): nothing when the ring has no room. A write that fails its check freezes nothing, and
the ring is not tried again until `mbx_ring_head` is next written (R453). The ring is written by MD, whose accesses are checked as HTE's are (DEDUCED). -/
def State.ringPut (s : State) (m : Nat) (e : Bytes) : State × Bool :=
  let b := s.bind m
  let n := mbRingEntries b
  let tail := s.rd (Obj.mbxRingTail m)
  if (s.mbox m).stuck ∨ (tail + 1) % n = s.rd (Obj.mbxRingHead m) then (s, false)
  else
    let w := s.write (mbCtx b) .hte permWrite (.virt (mbRingBase b + 128 * tail)) e
    if w.st ≠ .ok then (w.s.setMbox m { w.s.mbox m with stuck := true }, false)
    else
      let s := w.s.wr (Obj.mbxRingTail m) ((tail + 1) % n)
      (if mbTallyValid b then s.sendDec ⟨.mbox m, mbTallyTile b, mbTally b, 1, .ok, causeNone, mbCtx b⟩ else s, true)

/-- Deliver queued messages, then pending bells, to a CONTEXT receiver while its ring has room (R452, R454). -/
def State.deliverGo : Nat → State → Nat → State
  | 0, s, _ => s
  | f + 1, s, m =>
    let b := s.mbox m
    match b.queue with
    | g :: q =>
      let r := s.ringPut m (mbxEntry m g)
      if r.2 then State.deliverGo f ((r.1.putMbox m { b with queue := q }).sendDone g.sender .ok causeNone) m else r.1
    | [] =>
      let mask := s.rd (Obj.mbxBellsPending m)
      if mask = 0 then s
      else
        let r := s.ringPut m (bellsEntry m (b.seq + 1) s.pkgTime mask)
        if r.2 then (r.1.setMbox m { b with seq := b.seq + 1 }).wr (Obj.mbxBellsPending m) 0 else r.1

def State.deliver (s : State) (m : Nat) : State :=
  if mbKind (s.bind m) = 1 ∧ (s.rd (Obj.mbxState m) = ustActive ∨ s.rd (Obj.mbxState m) = ustQuiescing) then State.deliverGo 34 s m else s

/-- An admitted message meets the mailbox (R451): it enters the queue, or completes at once. -/
def State.mbxPost (s : State) (m : Nat) (g : MbxSender) (body : Bytes) : State :=
  if s.rd (Obj.mbxState m) ≠ ustActive ∨ s.noReceiver m then s.sendDone g .abortedDisabled causeDisabled
  else
    let b := s.mbox m
    if b.queue.length ≥ 32 then s.sendDone g .timeout causePostFull
    else (s.putMbox m { b with queue := b.queue ++ [⟨g, b.seq + 1, s.pkgTime, body⟩], seq := b.seq + 1 }).deliver m

/-- A ring sets its bell's bit and completes with OK at once (R454); it finds the mailbox as a message does (R451). -/
def State.ringBell (s : State) (m bell : Nat) : State × Status :=
  if s.rd (Obj.mbxState m) ≠ ustActive ∨ s.noReceiver m then (s, .abortedDisabled)
  else
    let old := s.rd (Obj.mbxBellsPending m)
    let s := s.wr (Obj.mbxBellsPending m) (setBit old bell true)
    let s := if mbKind (s.bind m) = 2 ∧ old = 0 then s.frameOut (s.rd (Obj.mbxClaimant m)) (.event 1 m) else s
    (s.deliver m, .ok)

/-- Whether a session may send to a mailbox (R450). -/
def admits (b : Bytes) (x : Session) : Bool := mbSendRole b x.role && (x.role != roleTenant || mbSendCtx b x.ctx)

/-- MBX_SEND (R451): a message of 1 to 64 bytes; the response follows when it is taken, aborted or expired. -/
def execMbxSend (q : NxReq) (s : State) : Host.Outcome State Fault Refusal :=
  .next (s.request opMbxSend q fun s x =>
    if q.sub ≥ 16 then s.answer x.id q.reqId opMbxSend rNoObject [] 0 0
    else if q.length > 64 then s.answer x.id q.reqId opMbxSend rBadLength [] 0 0
    else if !admits (s.bind q.sub) x then s.answer x.id q.reqId opMbxSend rNoAccess [] 0 0
    else s.mbxPost q.sub (.session x.id x.port x.role x.ctx q.reqId) q.value)

/-- The claim of a mailbox is this session's. -/
def State.claims (s : State) (m : Nat) (x : Session) : Bool := mbKind (s.bind m) == 2 && s.rd (Obj.mbxClaimant m) == x.id

/-- MBX_RECV: the claimant takes the oldest message, or the pending bells when no message waits (R440, R452). -/
def execMbxRecv (q : NxReq) (s : State) : Host.Outcome State Fault Refusal :=
  .next (s.request opMbxRecv q fun s x =>
    if q.sub ≥ 16 then s.answer x.id q.reqId opMbxRecv rNoObject [] 0 0
    else if !s.claims q.sub x then s.answer x.id q.reqId opMbxRecv rNoAccess [] 0 0
    else
      let b := s.mbox q.sub
      match b.queue with
      | g :: rest =>
        let s := (s.putMbox q.sub { b with queue := rest }).answer x.id q.reqId opMbxRecv rOk (mbxEntry q.sub g) 0 128
        s.sendDone g.sender .ok causeNone
      | [] =>
        let mask := s.rd (Obj.mbxBellsPending q.sub)
        if mask = 0 then s.answer x.id q.reqId opMbxRecv rOk [] 0 0
        else
          let e := bellsEntry q.sub (b.seq + 1) s.pkgTime mask
          let s := (s.setMbox q.sub { b with seq := b.seq + 1 }).wr (Obj.mbxBellsPending q.sub) 0
          s.answer x.id q.reqId opMbxRecv rOk e 0 128)

/-- MBX_CLAIM (R450): only in a SESSION mailbox, by a role of at least the minimum, in the bound context for a Tenant, and while unclaimed. -/
def execMbxClaim (q : NxReq) (s : State) : Host.Outcome State Fault Refusal :=
  .next (s.request opMbxClaim q fun s x =>
    let b := s.bind q.sub
    if q.sub ≥ 16 then s.answer x.id q.reqId opMbxClaim rNoObject [] 0 0
    else if mbKind b ≠ 2 ∨ s.rd (Obj.mbxClaimant q.sub) ≠ 0 then s.answer x.id q.reqId opMbxClaim rRefused [] 0 0
    else if x.role < mbMinRole b ∨ (x.role = roleTenant ∧ mbCtx b ≠ 0 ∧ x.ctx ≠ mbCtx b) then s.answer x.id q.reqId opMbxClaim rNoAccess [] 0 0
    else (s.wr (Obj.mbxClaimant q.sub) x.id).answer x.id q.reqId opMbxClaim rOk [] 0 0)

/-- The receiver of a mailbox becomes absent (R453): what is queued completes with a status and pending bells are cleared. -/
def State.receiverGone (s : State) (m : Nat) (st : Status) (cause : Nat) : State :=
  let b := s.mbox m
  let s := (s.putMbox m { b with queue := [], stuck := false }).wr (Obj.mbxBellsPending m) 0
  b.queue.foldl (fun s g => s.sendDone g.sender st cause) s

/-- MBX_RELEASE ends the claim (R453). -/
def execMbxRelease (q : NxReq) (s : State) : Host.Outcome State Fault Refusal :=
  .next (s.request opMbxRelease q fun s x =>
    if q.sub ≥ 16 then s.answer x.id q.reqId opMbxRelease rNoObject [] 0 0
    else if !s.claims q.sub x then s.answer x.id q.reqId opMbxRelease rRefused [] 0 0
    else
      let s := (s.wr (Obj.mbxClaimant q.sub) 0).receiverGone q.sub .abortedDisabled causeDisabled
      s.answer x.id q.reqId opMbxRelease rOk [] 0 0)

/-- BELL_RING (R451, R454). A mailbox that does not take the ring answers REFUSED (DEDUCED: the response carries no status). -/
def execBellRing (q : NxReq) (s : State) : Host.Outcome State Fault Refusal :=
  .next (s.request opBellRing q fun s x =>
    if q.sub ≥ 16 then s.answer x.id q.reqId opBellRing rNoObject [] 0 0
    else if !admits (s.bind q.sub) x then s.answer x.id q.reqId opBellRing rNoAccess [] 0 0
    else
      let r := s.ringBell q.sub q.offset
      r.1.answer x.id q.reqId opBellRing (if r.2 = .ok then rOk else rRefused) [] 0 0)

/-- BELL_FETCH returns the mask and clears it in one step (R454). -/
def execBellFetch (q : NxReq) (s : State) : Host.Outcome State Fault Refusal :=
  .next (s.request opBellFetch q fun s x =>
    if q.sub ≥ 16 then s.answer x.id q.reqId opBellFetch rNoObject [] 0 0
    else if !s.claims q.sub x then s.answer x.id q.reqId opBellFetch rNoAccess [] 0 0
    else
      let mask := s.rd (Obj.mbxBellsPending q.sub)
      (s.wr (Obj.mbxBellsPending q.sub) 0).answer x.id q.reqId opBellFetch rOk (leBytes 8 mask) 0 8)

/-- BELL_EVENT_REPEAT: every 100 ms the EVENT is sent again while the mask stays non-zero (R454). -/
def execBellEventRepeat (m : Nat) (s : State) : Host.Outcome State Fault Refusal :=
  .next (if mbKind (s.bind m) = 2 ∧ s.rd (Obj.mbxClaimant m) ≠ 0 ∧ s.rd (Obj.mbxBellsPending m) ≠ 0 then
      s.frameOut (s.rd (Obj.mbxClaimant m)) (.event 1 m)
    else s)

/-- MBX_TTL_EXPIRY: a message not taken within `mbx_ttl_ms` completes with TIMEOUT (R452). -/
def execMbxTtlExpiry (m k : Nat) (s : State) : Host.Outcome State Fault Refusal :=
  let b := s.mbox m
  match b.queue[k]? with
  | none => .next s
  | some g => .next ((s.putMbox m { b with queue := b.queue.eraseIdx k }).sendDone g.sender .timeout causePostFull)

/-- MBX_RING_HEAD_WRITE: the receiving context frees ring entries, and what waits is delivered (R452, R453). -/
def execMbxRingHeadWrite (w : Who) (m v : Nat) (s : State) : Host.Outcome State Fault Refusal :=
  .next (s.ctl w (w.role == roleTenant && decide (m < 16) && mbKind (s.bind m) != 0 && mbCtx (s.bind m) == w.ctx) fun s =>
    if v ≥ mbRingEntries (s.bind m) then (s, rOutOfRange) else (((s.wr (Obj.mbxRingHead m) v).setMbox m { s.mbox m with stuck := false }).deliver m, rOk))

/-- MBX_DISABLE: the mailbox refuses new sends and keeps delivering for the grace (R27, R453). -/
def State.disableMbx (s : State) (m : Nat) : State × Nat :=
  (if s.rd (Obj.mbxState m) = ustActive then s.goState (Obj.mbxState m) 0x0C m ustQuiescing else s, rOk)

def execMbxDisable (w : Who) (m : Nat) (s : State) : Host.Outcome State Fault Refusal :=
  .next (s.ctl w (isOpCus w) fun s => if m ≥ 16 then (s, rNoObject) else s.disableMbx m)

/-- MBX_ENABLE: refused with no kind bound and while QUIESCING (R27, R462); entries count from 1 again. -/
def State.enableMbx (s : State) (m : Nat) : State × Nat :=
  if mbKind (s.bind m) = 0 ∨ s.rd (Obj.mbxState m) = ustQuiescing then (s, rRefused)
  else if s.rd (Obj.mbxState m) = ustActive then (s, rOk)
  else ((s.setMbox m ⟨[], 0, false⟩).goState (Obj.mbxState m) 0x0C m ustActive, rOk)

def execMbxEnable (w : Who) (m : Nat) (s : State) : Host.Outcome State Fault Refusal :=
  .next (s.ctl w (isOpCus w) fun s => if m ≥ 16 then (s, rNoObject) else s.enableMbx m)

end Sys2Proof.Machine
end

