-- ==== Sys2Proof/Machine/Encoding.lean ====
section
/-! DEFINITION. The instruction formats and the opcode table of the tile sequencer (R130, R131, R133): words to fields and back. -/

namespace Sys2Proof.Machine

open Sys2Proof

/-- The opcode of a word (R130). -/
def wOp (w : Nat) : Nat := bits w 26 6

/-- The fields of a word in each format (R130). -/
def wR (w : Nat) : FmtR := ⟨bits w 21 5, bits w 16 5, bits w 11 5, bits w 0 11⟩
def wI (w : Nat) : FmtI := ⟨bits w 21 5, bits w 16 5, bits w 0 16⟩
def wB (w : Nat) : FmtB := ⟨bits w 21 5, bits w 16 5, bits w 0 16⟩
def wJ (w : Nat) : FmtJ := ⟨bits w 21 5, bits w 0 21⟩
def wD (w : Nat) : FmtD := ⟨bits w 22 4, bits w 21 1, bits w 16 5, bits w 0 16⟩
def wT (w : Nat) : FmtT := ⟨bits w 22 4, bits w 18 4, bits w 14 4, bits w 12 2, bits w 10 2, bits w 9 1, bits w 0 9⟩
def wV (w : Nat) : FmtV := ⟨bits w 21 5, bits w 16 5, bits w 11 5, bits w 6 5⟩
def wFunc (w : Nat) : Nat := bits w 0 6
def wX (w : Nat) : FmtX := ⟨bits w 21 5, bits w 16 5, bits w 11 5, bits w 8 3, bits w 0 8⟩
def wS (w : Nat) : FmtS := ⟨bits w 21 5, bits w 16 5, bits w 8 8, bits w 0 8⟩

/-- The word of an instruction in each format (R130). -/
def eR (op : Nat) (f : FmtR) : Nat := fld op 26 6 + fld f.rd 21 5 + fld f.ra 16 5 + fld f.rb 11 5 + fld f.rsv 0 11
def eI (op : Nat) (f : FmtI) : Nat := fld op 26 6 + fld f.rd 21 5 + fld f.ra 16 5 + fld f.imm 0 16
def eB (op : Nat) (f : FmtB) : Nat := fld op 26 6 + fld f.ra 21 5 + fld f.rb 16 5 + fld f.off 0 16
def eJ (op : Nat) (f : FmtJ) : Nat := fld op 26 6 + fld f.rd 21 5 + fld f.off 0 21
def eD (op : Nat) (f : FmtD) : Nat := fld op 26 6 + fld f.dn 22 4 + fld f.rsv 21 1 + fld f.ra 16 5 + fld f.imm 0 16
def eT (op : Nat) (f : FmtT) : Nat :=
  fld op 26 6 + fld f.da 22 4 + fld f.db 18 4 + fld f.dc 14 4 + fld f.cfg 12 2 + fld f.acc 10 2 + fld f.skip 9 1 + fld f.rsv 0 9
def eV (op func : Nat) (f : FmtV) : Nat := fld op 26 6 + fld f.vd 21 5 + fld f.va 16 5 + fld f.vb 11 5 + fld f.vc 6 5 + fld func 0 6
def eX (op : Nat) (f : FmtX) : Nat := fld op 26 6 + fld f.ra 21 5 + fld f.rb 16 5 + fld f.rc 11 5 + fld f.rsv 8 3 + fld f.tally 0 8
def eS (op : Nat) (f : FmtS) : Nat := fld op 26 6 + fld f.r 21 5 + fld f.rsv 16 5 + fld f.tally 8 8 + fld f.imm 0 8

/-- The opcodes of R131. -/
def legalOps : List Nat :=
  [0x01, 0x02, 0x03, 0x04, 0x05, 0x06, 0x07, 0x08, 0x09, 0x0A, 0x0B, 0x0C, 0x0D, 0x0E, 0x10, 0x11, 0x12, 0x13, 0x14, 0x15, 0x18, 0x19, 0x1A,
   0x1B, 0x20, 0x21, 0x22, 0x28, 0x29, 0x2A, 0x30, 0x31, 0x34, 0x35, 0x36, 0x37, 0x38, 0x3C, 0x3D]

/-- The vector functions of R133. -/
def legalFuncs : List Nat :=
  [0x00, 0x01, 0x02, 0x03, 0x04, 0x05, 0x06, 0x07, 0x08, 0x09, 0x0A, 0x0B, 0x0C, 0x0D, 0x0E, 0x0F, 0x10, 0x11, 0x12, 0x13, 0x14, 0x15, 0x16,
   0x17, 0x18, 0x19, 0x20, 0x21, 0x22, 0x23]

end Sys2Proof.Machine
end

