-- ==== Sys2Proof/Machine/Sequencer.lean ====
section
/-! DEFINITION. The tile sequencer (R126 to R135, R530): fetch, scalar, branch, descriptor, movement, tally and control instructions. -/

namespace Sys2Proof.Machine

open Sys2Proof

/-- A scalar register; x0 reads as zero (R126). -/
def Tile.xr (t : Tile) (n : Nat) : BitVec 64 := if n = 0 then 0 else mgetD t.x n 0

/-- A write of a scalar register; writes to x0 are ignored (R126). -/
def Tile.setX (t : Tile) (n : Nat) (v : BitVec 64) : Tile := if n = 0 then t else { t with x := mput t.x n v }

def Tile.dr (t : Tile) (n : Nat) : Bytes := mgetD t.d n (zeros 64)
def Tile.setD (t : Tile) (n : Nat) (v : Bytes) : Tile := { t with d := mput t.d n v }
def Tile.vr (t : Tile) (n : Nat) : Bytes := mgetD t.v n (zeros 256)
def Tile.setV (t : Tile) (n : Nat) (v : Bytes) : Tile := { t with v := mput t.v n v }

/-- The next instruction in sequence. -/
def Tile.next (t : Tile) : Tile := { t with pc := (t.pc + 4) % 2 ^ 32, waiting := false }

/-- Whether a tile's sequencer runs: ACTIVE or QUIESCING with a task running (R96, R117). -/
def State.running (s : State) (n : Nat) : Option RunTask :=
  let st := s.rd (Obj.tileState n)
  if st = ustActive ∨ st = ustQuiescing then (s.tile n).run else none

/-- The fields of a tensor descriptor (R135). -/
def vElemBase (b : Bytes) : Nat := leAt b 0 8
def vScaleBase (b : Bytes) : Nat := leAt b 8 8
def vEmapBase (b : Bytes) : Nat := leAt b 16 8
def vExtBase (b : Bytes) : Nat := leAt b 24 8
def vDim0 (b : Bytes) : Nat := leAt b 32 4
def vDim1 (b : Bytes) : Nat := leAt b 36 4
def vStride1 (b : Bytes) : Nat := leAt b 40 4
def vOrigin1 (b : Bytes) : Nat := leAt b 44 4
def vOrigin0 (b : Bytes) : Nat := leAt b 48 4
def vFormat (b : Bytes) : Nat := byteAt b 52
def vConv (b : Bytes) : Nat := byteAt b 53
def vSat (b : Bytes) : Nat := byteAt b 54
def vFtz (b : Bytes) : Nat := byteAt b 55
def vMapBlocks (b : Bytes) : Nat := leAt b 56 4

/-- A block-scaled format (R31). -/
def fmtScaled (f : Nat) : Bool := decide (0x08 ≤ f ∧ f ≤ 0x10)

/-- The block size of a format; 1 for an unscaled one. -/
def fmtBlock (f : Nat) : Nat := if f = 0x10 then 64 else if fmtScaled f then 32 else 1

/-- Bits of one element in its slot (R31). -/
def fmtBits (f : Nat) : Nat :=
  if f = 0x00 ∨ f = 0x11 then 32
  else if f = 0x01 ∨ f = 0x02 then 16
  else if f = 0x06 ∨ f = 0x0C ∨ f = 0x0E ∨ f = 0x0F then 4
  else if f = 0x07 ∨ f = 0x10 then 2
  else if f = 0x0A ∨ f = 0x0B then 6
  else 8

/-- Bytes of one scale entry (R32). -/
def fmtScaleBytes (f : Nat) : Nat := if f = 0x0E then 2 else 1

/-- The block, or for an unscaled format the element, of a view element (R136). -/
def vIndex (v : Bytes) (i0 i1 : Nat) : Nat := (vOrigin0 v + i0) / fmtBlock (vFormat v) + (vOrigin1 v + i1) * vStride1 v

/-- An address field with a non-zero reserved bit (R134). -/
def badAddr (a : Nat) : Bool := if bit a 63 then decide (bits a 21 42 ≠ 0) else decide (bits a 48 15 ≠ 0)

/-- The SRAM ranges of a view: its element and scale planes, and the whole tile where it has an escalation map (R127). -/
def viewSpan (v : Bytes) : List (Nat × Nat) :=
  if vEmapBase v ≠ 0 then [(0, 2097152)]
  else
    let lo := vIndex v 0 0
    let hi := vIndex v (vDim0 v - 1) (vDim1 v - 1) + 1
    let eb := fmtBits (vFormat v) * fmtBlock (vFormat v)
    [(vElemBase v % 2097152 + lo * eb / 8, cdiv ((hi - lo) * eb) 8 + 1)] ++
      if fmtScaled (vFormat v) then
        [(vScaleBase v % 2097152 + lo * fmtScaleBytes (vFormat v), (hi - lo) * fmtScaleBytes (vFormat v))]
      else []

/-- The SRAM ranges that a queued operation reads or writes (R127). -/
def opSpan (o : TileOp) : List (Nat × Nat) :=
  match o.kind with
  | .mma => viewSpan o.da ++ viewSpan o.db ++ if o.acc = 2 then viewSpan o.dc else []
  | .drain => viewSpan o.dc
  | .qcvt => viewSpan o.da ++ viewSpan o.dc

/-- The SRAM ranges that a queued operation writes (R127). -/
def opWrites (o : TileOp) : List (Nat × Nat) :=
  match o.kind with
  | .mma => []
  | .drain | .qcvt => viewSpan o.dc

/-- Whether an earlier array, drain or conversion operation that has not ended touches bytes `lo` to `lo + len` of the tile's SRAM (R127). -/
def Tile.busyRange (t : Tile) (span : TileOp → List (Nat × Nat)) (lo len : Nat) : Bool :=
  t.ops.any fun o => (span o).any fun p => decide (p.1 < lo + len) && decide (lo < p.1 + p.2)

/-- The sequencer waits (R127, R139). -/
def State.stall (s : State) (n : Nat) : State := s.setTile n { s.tile n with waiting := true }

/-- Fetch the instruction at the program counter (R126, R388: a fetch is EXEC). A failed check faults the task with WINDOW, an uncorrectable word with DATA, and a word that
an earlier operation has still to write holds the sequencer (R127). A command that names another instruction than the one at the program counter has not happened and
changes nothing. -/
def State.instr (s : State) (n op : Nat) (fits : Nat → Bool) (k : State → RunTask → State) : State :=
  match s.running n with
  | none => s
  | some r =>
    let f := s.read r.task.ctx .tile permExec (.sram n (s.tile n).pc) 4
    if (s.tile n).busyRange opWrites (s.tile n).pc 4 then s.stall n
    else if f.st = .violation then f.s.faultTask n r causeWindow f.addr
    else if f.st ≠ .ok then f.s.faultTask n r causeData f.addr
    else if wOp (leNat f.data) = op ∧ fits (leNat f.data) then k f.s r
    else s

/-- Continue with the next instruction after a change of the tile's registers. -/
def State.step1 (s : State) (n : Nat) (f : Tile → Tile) : State := s.setTile n (f (s.tile n)).next

/-- A scalar instruction of format R (R131): `rd = g ra rb`; a non-zero reserved field faults MALFORMED (R138). -/
def State.aluR (s : State) (n op : Nat) (f : FmtR) (g : BitVec 64 → BitVec 64 → BitVec 64) : State :=
  s.instr n op (fun w => wR w = f) fun s r =>
    if f.rsv ≠ 0 then s.faultTask n r causeMalformed 0
    else s.step1 n fun t => t.setX f.rd (g (t.xr f.ra) (t.xr f.rb))

/-- A 16-bit immediate, sign-extended to 64 bits (R130). -/
def imm16 (v : Nat) : BitVec 64 := BitVec.ofInt 64 (sext v 16)

def execAdd (t : Nat) (f : FmtR) (s : State) : Host.Outcome State Fault Refusal := .next (s.aluR t 0x01 f (· + ·))
def execSub (t : Nat) (f : FmtR) (s : State) : Host.Outcome State Fault Refusal := .next (s.aluR t 0x02 f (· - ·))
def execAnd (t : Nat) (f : FmtR) (s : State) : Host.Outcome State Fault Refusal := .next (s.aluR t 0x03 f (· &&& ·))
def execOr (t : Nat) (f : FmtR) (s : State) : Host.Outcome State Fault Refusal := .next (s.aluR t 0x04 f (· ||| ·))
def execXor (t : Nat) (f : FmtR) (s : State) : Host.Outcome State Fault Refusal := .next (s.aluR t 0x05 f (· ^^^ ·))
/-- SHL: the count is bits [5:0] of rb (R130). -/
def execShl (t : Nat) (f : FmtR) (s : State) : Host.Outcome State Fault Refusal :=
  .next (s.aluR t 0x06 f fun a b => a <<< (b.toNat % 64))
def execShr (t : Nat) (f : FmtR) (s : State) : Host.Outcome State Fault Refusal :=
  .next (s.aluR t 0x07 f fun a b => a >>> (b.toNat % 64))
def execMul (t : Nat) (f : FmtR) (s : State) : Host.Outcome State Fault Refusal := .next (s.aluR t 0x08 f (· * ·))
def execSlt (t : Nat) (f : FmtR) (s : State) : Host.Outcome State Fault Refusal :=
  .next (s.aluR t 0x09 f fun a b => if a.slt b then 1 else 0)

/-- ADDI: `rd = ra + imm16`. -/
def execAddi (t : Nat) (f : FmtI) (s : State) : Host.Outcome State Fault Refusal :=
  .next (s.instr t 0x0A (fun w => wI w = f) fun s _ => s.step1 t fun t => t.setX f.rd (t.xr f.ra + imm16 f.imm))

/-- ORI: the immediate is zero-extended (R130). -/
def execOri (t : Nat) (f : FmtI) (s : State) : Host.Outcome State Fault Refusal :=
  .next (s.instr t 0x0B (fun w => wI w = f) fun s _ => s.step1 t fun t => t.setX f.rd (t.xr f.ra ||| BitVec.ofNat 64 f.imm))

/-- LUI: `rd = imm16 << 16`, sign-extended; ra must be 0 (R131). -/
def execLui (t : Nat) (f : FmtI) (s : State) : Host.Outcome State Fault Refusal :=
  .next (s.instr t 0x0C (fun w => wI w = f) fun s r =>
    if f.ra ≠ 0 then s.faultTask t r causeMalformed 0 else s.step1 t fun t => t.setX f.rd (imm16 f.imm <<< 16))

/-- The own-SRAM offset `ra + imm16` of a load or store (R130, R530). -/
def Tile.offset (t : Tile) (ra imm : Nat) : Nat := (t.xr ra + imm16 imm).toNat

/-- An access to own SRAM at a naturally aligned offset (R388, R530): it stalls on the interlock of R127, faults MISALIGNED, WINDOW or DATA, or goes on. -/
def State.ownRead (s : State) (n : Nat) (r : RunTask) (need off len : Nat) (k : State → Bytes → State) : State :=
  if off % len ≠ 0 then s.faultTask n r causeMisaligned off
  else if (s.tile n).busyRange opSpan off len then s.stall n
  else
    let a := s.read r.task.ctx .tile need (.sram n off) len
    if a.st = .violation then a.s.faultTask n r causeWindow (2 ^ 63 + off)
    else if a.st ≠ .ok then a.s.faultTask n r causeData off
    else k a.s a.data

def State.ownWrite (s : State) (n : Nat) (r : RunTask) (off len : Nat) (d : Bytes) : State :=
  if off % len ≠ 0 then s.faultTask n r causeMisaligned off
  else if (s.tile n).busyRange opSpan off len then s.stall n
  else
    let a := s.write r.task.ctx .tile permWrite (.sram n off) d
    if a.st = .violation then a.s.faultTask n r causeWindow (2 ^ 63 + off)
    else if a.st ≠ .ok then a.s.faultTask n r causeData off
    else a.s.step1 n id

def execLdx (t : Nat) (f : FmtI) (s : State) : Host.Outcome State Fault Refusal :=
  .next (s.instr t 0x0D (fun w => wI w = f) fun s r =>
    s.ownRead t r permRead ((s.tile t).offset f.ra f.imm) 8 fun s d => s.step1 t fun t => t.setX f.rd (BitVec.ofNat 64 (leNat d)))

def execStx (t : Nat) (f : FmtI) (s : State) : Host.Outcome State Fault Refusal :=
  .next (s.instr t 0x0E (fun w => wI w = f) fun s r =>
    s.ownWrite t r ((s.tile t).offset f.ra f.imm) 8 (leBytes 8 ((s.tile t).xr f.rd).toNat))

/-- A target that breaks R530. -/
def badTarget (target : Int) : Bool := decide (target < 0 ∨ target ≥ 2097152 ∨ target % 4 ≠ 0)

/-- Go to a target: at or above 2 MiB it faults MISALIGNED at this instruction (R530). -/
def State.jump (s : State) (n : Nat) (r : RunTask) (target : Int) (f : Tile → Tile) : State :=
  if badTarget target then s.faultTask n r causeMisaligned (ofInt 32 target)
  else s.setTile n { f (s.tile n) with pc := target.toNat, waiting := false }

/-- A branch (R130, R131): target `pc + 4 × off16` when the test holds. A target at or above 2 MiB faults whether or not the branch is taken (R530). -/
def State.branch (s : State) (n op : Nat) (f : FmtB) (test : BitVec 64 → BitVec 64 → Bool) : State :=
  s.instr n op (fun w => wB w = f) fun s r =>
    let t := s.tile n
    let target := (t.pc : Int) + 4 * sext f.off 16
    if test (t.xr f.ra) (t.xr f.rb) ∨ badTarget target then s.jump n r target id else s.step1 n id

def execBeq (t : Nat) (f : FmtB) (s : State) : Host.Outcome State Fault Refusal := .next (s.branch t 0x10 f (· == ·))
def execBne (t : Nat) (f : FmtB) (s : State) : Host.Outcome State Fault Refusal := .next (s.branch t 0x11 f (· != ·))
def execBlt (t : Nat) (f : FmtB) (s : State) : Host.Outcome State Fault Refusal := .next (s.branch t 0x12 f fun a b => a.slt b)
def execBge (t : Nat) (f : FmtB) (s : State) : Host.Outcome State Fault Refusal := .next (s.branch t 0x13 f fun a b => !a.slt b)

/-- JAL: `rd = pc + 4`, then jump (R131); a bad target faults before rd is written (R530). -/
def execJal (t : Nat) (f : FmtJ) (s : State) : Host.Outcome State Fault Refusal :=
  .next (s.instr t 0x14 (fun w => wJ w = f) fun s r =>
    s.jump t r (((s.tile t).pc : Int) + 4 * sext f.off 21) fun t => t.setX f.rd (BitVec.ofNat 64 (t.pc + 4)))

/-- JR: `pc = ra`; the target is a multiple of 4 below 2 MiB (R530). -/
def execJr (t : Nat) (f : FmtR) (s : State) : Host.Outcome State Fault Refusal :=
  .next (s.instr t 0x15 (fun w => wR w = f) fun s r =>
    if f.rsv ≠ 0 then s.faultTask t r causeMalformed 0 else s.jump t r (((s.tile t).xr f.ra).toNat : Int) id)

/-- What makes a tensor descriptor malformed in itself (R135, R136, R529). -/
def viewBad (b : Bytes) : Bool :=
  decide (vFormat b ≥ 0x12) || decide (vConv b ≥ 8) || decide (vConv b % 4 = 3) || (decide (vSat b > 32) && decide (vSat b ≠ 0xFF)) ||
    (decide (vFtz b > 32) && decide (vFtz b ≠ 0xFF)) || !allZero (slice b 60 4) || badAddr (vElemBase b) || badAddr (vScaleBase b) ||
    badAddr (vEmapBase b) || (decide (vEmapBase b ≠ 0) && badAddr (vExtBase b)) || (decide (vEmapBase b = 0) && decide (vMapBlocks b ≠ 0)) ||
    (!fmtScaled (vFormat b) && (decide (vScaleBase b ≠ 0) || decide (vEmapBase b ≠ 0)))

/-- DLD: the descriptor is checked when it is loaded (R136); a descriptor fetch is EXEC (R386, DEDUCED with R77). -/
def execDld (t : Nat) (f : FmtD) (s : State) : Host.Outcome State Fault Refusal :=
  .next (s.instr t 0x18 (fun w => wD w = f) fun s r =>
    if f.rsv ≠ 0 then s.faultTask t r causeMalformed 0
    else s.ownRead t r permExec ((s.tile t).offset f.ra f.imm) 64 fun s d =>
      if viewBad d then s.faultTask t r causeMalformed 0 else s.step1 t fun t => t.setD f.dn d)

def execDst (t : Nat) (f : FmtD) (s : State) : Host.Outcome State Fault Refusal :=
  .next (s.instr t 0x19 (fun w => wD w = f) fun s r =>
    if f.rsv ≠ 0 then s.faultTask t r causeMalformed 0
    else s.ownWrite t r ((s.tile t).offset f.ra f.imm) 64 ((s.tile t).dr f.dn))

/-- DSETW: one 64-bit word of dn (R131). -/
def execDsetw (t : Nat) (f : FmtD) (s : State) : Host.Outcome State Fault Refusal :=
  .next (s.instr t 0x1A (fun w => wD w = f) fun s r =>
    if f.rsv ≠ 0 ∨ f.imm ≥ 8 then s.faultTask t r causeMalformed 0
    else s.step1 t fun t => t.setD f.dn (patch (t.dr f.dn) (8 * f.imm) (leBytes 8 (t.xr f.ra).toNat)))

/-- DADV: origin0 or origin1 of dn advances by ra (R131). -/
def execDadv (t : Nat) (f : FmtD) (s : State) : Host.Outcome State Fault Refusal :=
  .next (s.instr t 0x1B (fun w => wD w = f) fun s r =>
    if f.rsv ≠ 0 ∨ f.imm ≥ 2 then s.faultTask t r causeMalformed 0
    else s.step1 t fun t =>
      let at_ := if f.imm = 0 then 48 else 44
      t.setD f.dn (patch (t.dr f.dn) at_ (leBytes 4 (leAt (t.dr f.dn) at_ 4 + (t.xr f.ra).toNat))))

def execVld (t : Nat) (f : FmtI) (s : State) : Host.Outcome State Fault Refusal :=
  .next (s.instr t 0x28 (fun w => wI w = f) fun s r =>
    s.ownRead t r permRead ((s.tile t).offset f.ra f.imm) 256 fun s d => s.step1 t fun t => t.setV f.rd d)

def execVst (t : Nat) (f : FmtI) (s : State) : Host.Outcome State Fault Refusal :=
  .next (s.instr t 0x29 (fun w => wI w = f) fun s r =>
    s.ownWrite t r ((s.tile t).offset f.ra f.imm) 256 ((s.tile t).vr f.rd))

/-- The check of a tally that an instruction names (R113, R138): no cause when the task's context owns it. -/
def tallyCause (y : Tally) (ctx : Nat) : Nat :=
  match y.owner with
  | none => causeTallyUnowned
  | some c => if c = ctx then causeNone else causeTallyForeign

/-- An instruction of format S on a tally the task owns (R138). -/
def State.tallyOp (s : State) (n op : Nat) (f : FmtS) (k : State → RunTask → Tally → State) : State :=
  s.instr n op (fun w => wS w = f) fun s r =>
    if f.rsv ≠ 0 then s.faultTask n r causeMalformed 0
    else
      let y := (s.tile n).tally f.tally
      let c := tallyCause y r.task.ctx
      if c ≠ causeNone then s.faultTask n r c f.tally else k s r y

/-- TSET: claims an unowned tally, sets its count and resets its status (R110). -/
def execTset (t : Nat) (f : FmtS) (s : State) : Host.Outcome State Fault Refusal :=
  .next (s.instr t 0x34 (fun w => wS w = f) fun s r =>
    if f.rsv ≠ 0 then s.faultTask t r causeMalformed 0
    else
      let y := (s.tile t).tally f.tally
      if tallyCause y r.task.ctx = causeTallyForeign then s.faultTask t r causeTallyForeign f.tally
      else
        let v := sext ((s.tile t).xr f.r).toNat 32
        (s.setTally t f.tally { y with owner := some r.task.ctx, count := v, status := .ok, cause := causeNone }).step1 t id)

/-- TDEC: a decrement by imm8 with cause NONE; 0 faults MALFORMED (R111, R131). -/
def execTdec (t : Nat) (f : FmtS) (s : State) : Host.Outcome State Fault Refusal :=
  .next (s.tallyOp t 0x35 f fun s r y =>
    if f.imm = 0 then s.faultTask t r causeMalformed 0
    else (s.setTally t f.tally (y.dec f.imm .ok causeNone)).step1 t id)

/-- TWAIT: waits until the tally has fired; r takes its status (R131). -/
def execTwait (t : Nat) (f : FmtS) (s : State) : Host.Outcome State Fault Refusal :=
  .next (s.tallyOp t 0x36 f fun s _ y =>
    if y.fired then s.step1 t fun t => t.setX f.r (BitVec.ofNat 64 y.status.code)
    else s.setTile t { s.tile t with waiting := true })

/-- TRD: count, status and cause of a tally (R131). -/
def execTrd (t : Nat) (f : FmtS) (s : State) : Host.Outcome State Fault Refusal :=
  .next (s.tallyOp t 0x37 f fun s _ y =>
    s.step1 t fun t => t.setX f.r (BitVec.ofNat 64 (ofInt 32 y.count + y.status.code * 2 ^ 32 + y.cause * 2 ^ 40)))

/-- TFREE: releases the tally (R110). -/
def execTfree (t : Nat) (f : FmtS) (s : State) : Host.Outcome State Fault Refusal :=
  .next (s.tallyOp t 0x38 f fun s _ _ => (s.setTally t f.tally .free).step1 t id)

/-- FENCE: waits until every XFER and POST of the task has completed (R128). -/
def execFence (t : Nat) (f : FmtS) (s : State) : Host.Outcome State Fault Refusal :=
  .next (s.instr t 0x3C (fun w => wS w = f) fun s r =>
    if f.rsv ≠ 0 then s.faultTask t r causeMalformed 0
    else if (s.tile t).outstanding = 0 then s.step1 t id
    else s.setTile t { s.tile t with waiting := true })

/-- END: waits for the task's transfers, posts and queued work, then completes the task with the status in r (R128, R131). -/
def execEnd (t : Nat) (f : FmtS) (s : State) : Host.Outcome State Fault Refusal :=
  .next (s.instr t 0x3D (fun w => wS w = f) fun s r =>
    if f.rsv ≠ 0 then s.faultTask t r causeMalformed 0
    else match Status.ofCode? (((s.tile t).xr f.r).toNat % 256) with
      | none => s.faultTask t r causeMalformed 0
      | some st =>
        if (s.tile t).outstanding = 0 ∧ (s.tile t).ops.isEmpty then s.stopTask t r st causeNone
        else s.setTile t { s.tile t with waiting := true })

/-- ILLEGAL_INSTRUCTION: the word at the program counter has an opcode that is not in the table, or a VOP function that is not (R131, R133, R138). -/
def execIllegalInstruction (t : Nat) (s : State) : Host.Outcome State Fault Refusal :=
  .next (match s.running t with
    | none => s
    | some r =>
      let f := s.read r.task.ctx .tile permExec (.sram t (s.tile t).pc) 4
      if (s.tile t).busyRange opWrites (s.tile t).pc 4 then s.stall t
      else if f.st = .violation then f.s.faultTask t r causeWindow f.addr
      else if f.st ≠ .ok then f.s.faultTask t r causeData f.addr
      else if !legalOps.contains (wOp (leNat f.data)) then f.s.faultTask t r causeIllegal (s.tile t).pc
      else if wOp (leNat f.data) = 0x2A ∧ !legalFuncs.contains (wFunc (leNat f.data)) then f.s.faultTask t r causeMalformed 0
      else s)

/-- XFER: checked when it issues, in the order of R135; an own range that an earlier operation still uses holds it (R127); then the copy is under way (R113, R128,
R135). -/
def execXfer (t : Nat) (f : FmtX) (s : State) : Host.Outcome State Fault Refusal :=
  .next (s.instr t 0x30 (fun w => wX w = f) fun s r =>
    let x := s.tile t
    let dst := (x.xr f.ra).toNat
    let src := (x.xr f.rb).toNat
    let len := (x.xr f.rc).toNat
    if f.rsv ≠ 0 ∨ badAddr dst ∨ badAddr src ∨ len % 64 ≠ 0 ∨ len < 64 ∨ len > 2097152 then s.faultTask t r causeMalformed 0
    else if !bit dst 63 ∧ !bit src 63 then s.faultTask t r causeNotLocal dst
    else if dst % 64 ≠ 0 ∨ src % 64 ≠ 0 then s.faultTask t r causeMisaligned (if dst % 64 ≠ 0 then dst else src)
    else
      let c := tallyCause (x.tally f.tally) r.task.ctx
      let clash := fun (a : Nat) => bit a 63 && x.busyRange opSpan (a % 2 ^ 21) len
      if c ≠ causeNone then s.faultTask t r c f.tally
      else if clash dst ∨ clash src then s.stall t
      else
        let q : Xfer := ⟨f.tally, r.task.ctx, r.epoch, r.task.age, dst, src, len⟩
        s.step1 t fun x => { x with xfers := x.xfers ++ [q], outstanding := x.outstanding + 1 })

/-- XFER_COMPLETE: the copy is performed and completes on its tally with one status; a failed window check freezes the tile (R128, R135, R396). -/
def execXferComplete (t k : Nat) (s : State) : Host.Outcome State Fault Refusal :=
  let x := s.tile t
  match x.xfers[k]? with
  | none => .next s
  | some q =>
    let s := s.setTile t { x with xfers := x.xfers.eraseIdx k }
    let a := s.copy q.ctx .tile (xferLoc t q.src) (xferLoc t q.dst) q.len
    let s := a.s
    let x := s.tile t
    let s := match x.run with
      | some r => if r.task.age = q.taskAge then s.setTile t { x with outstanding := x.outstanding - 1 } else s
      | none => s
    let s := s.sendDec ⟨.tile t, t, q.tally, 1, a.st, causeNone, q.ctx⟩
    .next (if a.st = .violation then s.offend t q.ctx q.taskAge q.epoch causeWindow a.addr else s)

end Sys2Proof.Machine
end

