-- ==== Sys2Proof/Machine/Post.lean ====
section
/-! DEFINITION. The POST instruction in its forms (R119, R189, R281, R451), and the post queues (R121). -/

namespace Sys2Proof.Machine

open Sys2Proof

/-- The forms that x[rb] and x[rc] of a POST may take. -/
inductive PostForm where
  | pool | remote | te | ni | mailbox | bell | none_
  deriving DecidableEq, Repr

/-- The form of a POST (R119, R189, R281, R451). -/
def postForm (rb rc : Nat) : PostForm :=
  if bits rb 62 2 = 0 ∧ bits rb 11 51 = 0 ∧ rc = 0 then .pool
  else if bits rb 62 2 = 0 ∧ bits rb 11 51 = 0 ∧ bit rc 63 ∧ bits rc 12 51 = 0 then .remote
  else if bits rb 62 2 = 2 ∧ bits rb 7 55 = 0 ∧ rc = 0 then .te
  else if bits rb 62 2 = 3 ∧ bits rb 2 60 = 0 ∧ rc = 0 then .ni
  else if bits rb 62 2 = 1 ∧ bits rb 4 58 = 0 ∧ rc = 0 then .mailbox
  else if bits rb 62 2 = 1 ∧ bits rb 4 58 = 0 ∧ bit rc 63 ∧ bits rc 6 57 = 0 then .bell
  else .none_

/-- Queued descriptors that came by POST (R189). -/
def directCount (l : List TeDesc) : Nat := (l.filter fun d => d.direct).length

/-- A descriptor enters the channel queue (R190). -/
def TeChan.push (ch : TeChan) (b : Bytes) (direct : Bool) : TeChan :=
  { ch with queue := ch.queue ++ [⟨ch.nextSerial, b, direct⟩], nextSerial := ch.nextSerial + 1 }

/-- A descriptor posted to a channel (R120, R121, R189). -/
def State.teDirect (s : State) (c ctx : Nat) (o : Origin) (b : Bytes) : State :=
  if c ≥ 72 ∨ s.teOwnerOf c ≠ some ctx then s.postRefused o ctx .violation causeWindow causeWindow c
  else if s.ctxSt ctx ≠ ctxOpen then s.postDone o .abortedRetired causeRetired
  else if s.rd (Obj.teState c) ≠ ustActive then s.postDone o .abortedDisabled causeDisabled
  else
    let ch := s.chan c
    if directCount ch.queue < 16 then (s.setChan c (ch.push b true)).postDone o .ok causeNone
    else if ch.postQ.length < 8 then s.setChan c { ch with postQ := ch.postQ ++ [⟨o, ctx, c, b⟩] }
    else s.postDone o .timeout causePostFull

/-- Queued commands that came by POST (R280, R281). -/
def niDirectCount (l : List NiCmd) : Nat := (l.filter fun d => d.direct).length

/-- A command enters a command queue (R190, R280). -/
def NiQueue.push (q : NiQueue) (b : Bytes) (direct : Bool) (o : Option Origin) (task : Bytes) : NiQueue :=
  { q with queue := q.queue ++ [⟨q.nextSerial, b, direct, o, task⟩], nextSerial := q.nextSerial + 1 }

/-- Whether a command queue takes commands: its NI and the queue itself ACTIVE. -/
def State.niqActive (s : State) (i c : Nat) : Bool := s.rd (Obj.niState i) == ustActive && s.rd (Obj.niqState i c) == ustActive

/-- A command posted to an NI (R281): its own completion ends the POST when it is received; a remote task post ends with the command's status. -/
def State.niDirect (s : State) (i ctx : Nat) (o : Origin) (remote : Bool) (b task : Bytes) : State :=
  if s.ctxSt ctx ≠ ctxOpen then s.postDone o .abortedRetired causeRetired
  else if !s.niqActive i ctx then s.postDone o .abortedDisabled causeDisabled
  else
    let q := s.niq i ctx
    if niDirectCount q.queue < 16 then
      let s := s.setNiq i ctx (q.push b true (if remote then some o else none) task)
      if remote then s else s.postDone o .ok causeNone
    else if q.postQ.length < 8 then s.setNiq i ctx { q with postQ := q.postQ ++ [⟨o, ctx, ofBool remote, b ++ task⟩] }
    else s.postDone o .timeout causePostFull

/-- The TASK command of a remote task post (R281): rank and logical tile; the descriptor travels beside it. -/
def remoteTaskCmd (rank tile : Nat) : Bytes :=
  bytesOf [[5], zeros 5, leBytes 2 rank, zeros 8, leBytes 8 tile, zeros 40]

/-- The common part of a POST (R113, R119): its form, the tally it names, and the 64 bytes it reads when it issues, once no earlier operation has them still to
write (R127). -/
def State.postInstr (s : State) (n : Nat) (f : FmtX) (want : PostForm) (k : State → RunTask → Origin → Nat → Nat → Bytes → State) : State :=
  s.instr n 0x31 (fun w => wX w = f) fun s r =>
    let t := s.tile n
    let rb := (t.xr f.rb).toNat
    let rc := (t.xr f.rc).toNat
    let form := postForm rb rc
    if form ≠ want ∧ ¬ (form = .none_ ∧ want = .pool) then s
    else if f.rsv ≠ 0 ∨ form = .none_ then s.faultTask n r causeMalformed 0
    else
      let c := tallyCause (t.tally f.tally) r.task.ctx
      if c ≠ causeNone then s.faultTask n r c f.tally
      else
        let go := fun (s : State) (d : Bytes) =>
          let s := s.step1 n fun t => { t with outstanding := t.outstanding + 1 }
          k s r (.tile n f.tally r.task.ctx r.task.age r.epoch) rb rc d
        if form = .bell then go s []
        else
          let off := (t.xr f.ra).toNat
          if t.busyRange opSpan off 64 then s.stall n
          else
          let a := s.read r.task.ctx .tile permRead (.sram n off) 64
          if a.st = .violation then a.s.faultTask n r causeWindow (2 ^ 63 + off)
          else if a.st ≠ .ok then a.s.faultTask n r causeData off
          else go a.s a.data

/-- POST to a pool of this package (R119); a POST that fits no form faults MALFORMED. -/
def execPostTask (t : Nat) (f : FmtX) (s : State) : Host.Outcome State Fault Refusal :=
  .next (s.postInstr t f .pool fun s r o rb _ d => { s with posts := s.posts ++ [⟨o, r.task.ctx, rb, d⟩] })

/-- POST of a task to a rank of the job, through the NI of the poster's die (R281). -/
def execPostRemoteTask (t : Nat) (f : FmtX) (s : State) : Host.Outcome State Fault Refusal :=
  .next (s.postInstr t f .remote fun s r o rb rc d => s.niDirect (t / 480) r.task.ctx o true (remoteTaskCmd (bits rc 0 12) rb) d)

def execPostTeDirect (t : Nat) (f : FmtX) (s : State) : Host.Outcome State Fault Refusal :=
  .next (s.postInstr t f .te fun s r o rb _ d => s.teDirect (bits rb 0 7) r.task.ctx o d)

def execPostNiDirect (t : Nat) (f : FmtX) (s : State) : Host.Outcome State Fault Refusal :=
  .next (s.postInstr t f .ni fun s r o rb _ d => s.niDirect (bits rb 0 2) r.task.ctx o false d [])

/-- POST of a message to a mailbox (R451): a sender mask that does not admit the context refuses it with VIOLATION, and nothing freezes. -/
def execPostMailbox (t : Nat) (f : FmtX) (s : State) : Host.Outcome State Fault Refusal :=
  .next (s.postInstr t f .mailbox fun s r o rb _ d =>
    if !mbSendCtx (s.bind (bits rb 0 4)) r.task.ctx then s.postDone o .violation causeWindow
    else s.mbxPost (bits rb 0 4) (.tile t f.tally r.task.ctx r.task.age r.epoch) d)

/-- POST of a bell (R451, R454): it completes with OK at once when the mailbox takes it. -/
def execPostBell (t : Nat) (f : FmtX) (s : State) : Host.Outcome State Fault Refusal :=
  .next (s.postInstr t f .bell fun s r o rb rc _ =>
    if !mbSendCtx (s.bind (bits rb 0 4)) r.task.ctx then s.postDone o .violation causeWindow
    else
      let b := s.ringBell (bits rb 0 4) (bits rc 0 6)
      b.1.postDone o b.2 (if b.2 = .ok then causeNone else causeDisabled))

/-- Admit the oldest post that waits at a channel once its direct queue has room (R121, R189). -/
def State.admitTe (s : State) (c : Nat) : State :=
  let ch := s.chan c
  match ch.postQ with
  | [] => s
  | p :: q => if directCount ch.queue < 16 then (s.setChan c { ch with postQ := q }).teDirect c p.ctx p.origin p.desc else s

/-- Admit the oldest post that waits at a command queue (R121, R281). -/
def State.admitNiq (s : State) (i c : Nat) : State :=
  let n := s.niq i c
  match n.postQ with
  | [] => s
  | p :: q =>
    if niDirectCount n.queue < 16 then
      (s.setNiq i c { n with postQ := q }).niDirect i p.ctx p.origin (p.target == 1) (p.desc.take 64) (p.desc.drop 64)
    else s

/-- POST_QUEUE_ADMIT: an entry frees, and the oldest post waiting there enters (R121). -/
def execPostQueueAdmit (q : PostAt) (s : State) : Host.Outcome State Fault Refusal :=
  .next (match q with
    | .pool t => if s.holdsPosts t then s else s.admitPool t
    | .te c => s.admitTe c
    | .niq i c => s.admitNiq i c)

/-- POST_WAIT_EXPIRY: a post still waiting `post_wait_us` after its arrival, while what it waits for is still full, completes with TIMEOUT (R120, R121). -/
def execPostWaitExpiry (q : PostAt) (k : Nat) (s : State) : Host.Outcome State Fault Refusal :=
  .next (match q with
    | .pool n =>
      let t := s.tile n
      match t.postQ[k]? with
      | none => s
      | some p => if t.pool.length < 64 then s else (s.setTile n { t with postQ := t.postQ.eraseIdx k }).postDone p.origin .timeout causePostFull
    | .te c =>
      let ch := s.chan c
      match ch.postQ[k]? with
      | none => s
      | some p => if directCount ch.queue < 16 then s else (s.setChan c { ch with postQ := ch.postQ.eraseIdx k }).postDone p.origin .timeout causePostFull
    | .niq i c =>
      let n := s.niq i c
      match n.postQ[k]? with
      | none => s
      | some p => if niDirectCount n.queue < 16 then s else (s.setNiq i c { n with postQ := n.postQ.eraseIdx k }).postDone p.origin .timeout causePostFull)

end Sys2Proof.Machine
end

