-- ==== Sys2Proof/Machine/Ni.lean ====
section
/-! DEFINITION. Network interface commands: queues, the checks of a command, messages and their packets, and completion (R280 to R291, R295 to R298, R301). -/

namespace Sys2Proof.Machine

open Sys2Proof

/-- Command codes (R285). -/
abbrev cPut : Nat := 1
abbrev cGet : Nat := 2
abbrev cAtomic : Nat := 3
abbrev cNotify : Nat := 4
abbrev cTask : Nat := 5
abbrev cCopyTo : Nat := 6
abbrev cDispatch : Nat := 7
abbrev cInboxArm : Nat := 8
abbrev cClOpen : Nat := 9
abbrev cClRun : Nat := 10
abbrev cClClose : Nat := 11

/-- Packet ops (R290). -/
abbrev poPut : Nat := 1
abbrev poGet : Nat := 2
abbrev poAtomic32 : Nat := 3
abbrev poAtomic64 : Nat := 4
abbrev poNotify : Nat := 5
abbrev poTask : Nat := 6
abbrev poCopyTo : Nat := 7
abbrev poFwd : Nat := 8
abbrev poToken : Nat := 9
abbrev poDone : Nat := 0xA
abbrev poAck : Nat := 0xE
abbrev poData : Nat := 0xF

/-- Detail codes (R297). -/
abbrev ndNone : Nat := 0
abbrev ndMalformed : Nat := 1
abbrev ndWindow : Nat := 2
abbrev ndNoRank : Nat := 3
abbrev ndKey : Nat := 4
abbrev ndRemoteWindow : Nat := 5
abbrev ndRemoteFull : Nat := 6
abbrev ndRemoteStatus : Nat := 7
abbrev ndSuspect : Nat := 8
abbrev ndPublished : Nat := 9
abbrev ndNoReply : Nat := 0xA
abbrev ndSession : Nat := 0xB

/-- The fields of a command descriptor (R281). -/
def nOp (b : Bytes) : Nat := byteAt b 0
def nFence (b : Bytes) : Bool := bit (byteAt b 1) 0
def nTallyValid (b : Bytes) : Bool := bit (byteAt b 1) 1
def nLine (b : Bytes) : Bool := bit (byteAt b 1) 3
def nTally (b : Bytes) : Nat := byteAt b 2
def nSub (b : Bytes) : Nat := byteAt b 3
def nTallyTile (b : Bytes) : Nat := leAt b 4 2
def nRank (b : Bytes) : Nat := leAt b 6 2
def nLocal (b : Bytes) : Nat := leAt b 8 8
def nRemote (b : Bytes) : Nat := leAt b 16 8
def nLen (b : Bytes) : Nat := leAt b 24 4
def nCount (b : Bytes) : Nat := leAt b 28 4
def nOperand (b : Bytes) : Nat := leAt b 32 8
def nCompare (b : Bytes) : Nat := leAt b 40 8
def nRemote2 (b : Bytes) : Nat := leAt b 48 8
def nTag (b : Bytes) : Bytes := slice b 56 4

/-- The line that a 16-bit field names (R281, R302). -/
def lineOf (v : Nat) : Line := ⟨bits v 15 1, bits v 8 3, v % 256, bits v 11 2⟩

/-- Members of a line. -/
def Line.count (l : Line) : Nat := ((List.range 8).filter fun m => bit l.mask m).length

/-- A line field that is no line: a reserved bit, or no member. -/
def lineBad (v : Nat) : Bool := decide (bits v 13 2 ≠ 0) || decide (v % 256 = 0)

/-- A package address with a non-zero reserved bit (R193). -/
def niBadAddr (a : Nat) : Bool := if bit a 63 then decide (bits a 32 31 ≠ 0) else decide (bits a 48 15 ≠ 0)

/-- The place an address names for a context (R153, R193). -/
def niLoc (ctx a : Nat) : Loc := if bit a 63 then .sram (bits a 21 11) (a % 2097152) else if ctx = 0 then .phys a else .virt a

/-- A line that does not hold this package or whose members do not divide the vector (R302). -/
def State.stageBad (s : State) (l : Line) (len : Nat) : Bool :=
  let n := ((List.range 8).filter fun m => bit l.mask m).length
  let me := if l.axis = 0 then s.pos % 8 else s.pos / 8
  !(if l.axis = 0 then s.pos / 8 == l.idx else s.pos % 8 == l.idx) || !bit l.mask me || decide (len % (256 * n) ≠ 0) || decide (len = 0)

/-- Whether a command is malformed (R12, R285, R302, R307, R308). -/
def State.niMalformed (s : State) (b : Bytes) : Bool :=
  let op := nOp b
  let sub := nSub b
  let len := nLen b
  decide (op = 0 ∨ op > 11) || decide (byteAt b 1 / 16 ≠ 0) || bit (byteAt b 1) 2 || !allZero (slice b 60 4) ||
    (nTallyValid b && decide (nTallyTile b ≥ 1920)) || niBadAddr (nLocal b) || decide (nRemote b ≥ 2 ^ 48) ||
    (if nLine b then !(op == cPut || op == cNotify) || lineBad (nRank b) else op != cInboxArm && decide (nRank b ≥ 4096)) ||
    (match op with
      | 1 => decide (len < 1 ∨ len > 268435456) || decide (sub ≥ 16)
      | 2 => decide (len < 1 ∨ len > 268435456) || decide (sub ≠ 0)
      | 3 => decide (sub % 16 > 9) || decide (bits sub 4 3 ≠ 0) || decide (nRemote b % (if bit sub 7 then 8 else 4) ≠ 0)
      | 5 => decide (nRemote b ≥ 2048) || decide (sub ≠ 0)
      | 6 => decide (len < 1 ∨ len > 65536) || decide (nCount b ≥ 4096) || decide (nRemote2 b ≥ 2 ^ 48) || decide (sub ≠ 0)
      | 7 => decide (sub < 1 ∨ sub > 8) || decide (nCount b < 1 ∨ nCount b > 65535) || decide (len = 0 ∨ len > 65536 ∨ len % 16 ≠ 0)
      | 9 =>
        let c := nCount b
        let two := bit (nOperand b) 32
        let l0 := nOperand b % 65536
        let l1 := bits (nOperand b) 16 16
        decide (c % 256 > 3) || decide (bits c 8 8 > 1) || decide (bits c 16 8 > 2) || decide (nOperand b / 2 ^ 33 ≠ 0) || lineBad l0 || s.stageBad (lineOf l0) len ||
          decide (bits l1 13 2 ≠ 0) || (two && (lineBad l1 || s.stageBad (lineOf l1) len)) || (decide (c % 256 = 3) && (decide (c / 2 ^ 24 ≥ (lineOf l0).count) || (two && decide (c / 2 ^ 24 ≥ (lineOf l1).count))))
      | 4 => decide (sub ≠ 0)
      | _ => false) ||
    (op != cDispatch && op != cCopyTo && op != cClOpen && decide (nCount b ≠ 0))

/-! ## Records and completion -/

def State.niCqFull (s : State) (i c : Nat) : Bool :=
  (s.rd (Obj.niqCqTail i c) + 1) % s.rd (Obj.niqCqEntries i c) == s.rd (Obj.niqCqHead i c)

/-- A completion record (R281). -/
def niRecord (tag : Bytes) (st detail i bytes count : Nat) : Bytes :=
  bytesOf [tag, leBytes 1 st, leBytes 1 detail, leBytes 1 i, [0], leBytes 4 bytes, leBytes 4 count]

/-- Write one record at the tail (R280, R390): a failed check freezes nothing. -/
def State.niPutRecord (s : State) (i c : Nat) (r : Bytes) : State :=
  let tail := s.rd (Obj.niqCqTail i c)
  let w := s.write c .ni permWrite ((niLoc c (s.rd (Obj.niqCqBase i c))).adv (16 * tail)) r
  if w.st ≠ .ok then w.s else w.s.wr (Obj.niqCqTail i c) ((tail + 1) % s.rd (Obj.niqCqEntries i c))

/-- Write the records whose turn has come, in queue order, while there is room (R191, R280); one that meets a held tile waits, and those behind it (R100). -/
def State.niFlushGo : Nat → State → Nat → Nat → State
  | 0, s, _, _ => s
  | f + 1, s, i, c =>
    let q := s.niq i c
    match q.recs with
    | [] => s
    | r :: rest =>
      if s.niCqFull i c ∨ (q.active.any fun a => decide (a.serial < r.1)) ∨ (q.queue.any fun d => decide (d.serial < r.1)) then s
      else
        let t := (s.setNiq i c { q with recs := rest }).niPutRecord i c r.2
        if s.heldHit < t.heldHit then s else State.niFlushGo f t i c

def State.niFlush (s : State) (i c : Nat) : State := State.niFlushGo ((s.niq i c).recs.length) s i c

def insNi (r : Nat × Bytes) : List (Nat × Bytes) → List (Nat × Bytes)
  | [] => [r]
  | q :: l => if r.1 < q.1 then r :: q :: l else q :: insNi r l

/-- The cause that the completion of a remote task post carries to the poster's tally (R111, R120, R281). A refusal at the target comes back as a status alone (R290): a
descriptor that breaks R106 is MALFORMED, and whether any other was refused for the target tile or for a wait tally is free (DESIGN CHOICE). One that its own NI refuses for its rank or its key carries
WINDOW, and one whose data was uncorrectable DATA (DESIGN CHOICE: the rules give causes for posts at a pool alone). -/
def postCause (st : Status) (detail : Nat) (task : Bytes) (foreign : Bool) : Nat :=
  match st with
  | .ok => causeNone
  | .violation => if kMalformed task then causeMalformed else if detail = ndRemoteStatus ∧ foreign then causeTallyForeign else causeWindow
  | .abortedDisabled => causeDisabled
  | .timeout => causePostFull
  | .abortedRetired => causeRetired
  | .destLost => causeDest
  | .uncorrectable => causeData

/-- A remote task post completes on the poster's tally (R281). -/
def State.remotePostDone (s : State) (o : Origin) (st : Status) (detail : Nat) (task : Bytes) : State :=
  let v := s.free 1
  if st = .violation then v.2.postDone o st (postCause st detail task (v.1 == 1)) else s.postDone o st (postCause st detail task false)

/-- A command's end: the poster's or the named tally, then the record (R281, R282). An inbox keeps its tally for itself (R308). -/
def State.niEnd (s : State) (i c serial : Nat) (b task : Bytes) (o : Option Origin) (st : Status) (detail bytes count : Nat) : State :=
  let s := match o with
    | some o => s.remotePostDone o st detail task
    | none => if nTallyValid b ∧ nOp b ≠ cInboxArm then s.decNow ⟨.ni i, nTallyTile b, nTally b, 1, st, causeNone, c⟩ else s
  let q := s.niq i c
  (s.setNiq i c { q with recs := insNi (serial, niRecord (nTag b) st.code detail i bytes count) q.recs }).niFlush i c

/-- A queued command that never starts ends with a status. -/
def State.niDrop (s : State) (i c : Nat) (d : NiCmd) (st : Status) (detail : Nat) : State := s.niEnd i c d.serial d.bytes d.task d.origin st detail 0 0

def State.niDropQueue (s : State) (i c : Nat) (st : Status) : State :=
  let q := s.niq i c
  q.queue.foldl (fun s d => s.niDrop i c d st ndNone) (s.setNiq i c { q with queue := [] })

/-- A command queue freezes (R199, R297, R394): work of an earlier epoch freezes nothing (R396). -/
def State.freezeNiq (s : State) (i c epoch addr : Nat) : State :=
  if epoch ≠ s.rd (Obj.protEpoch c) then s.protAbort
  else if s.rd (Obj.niqState i c) ≠ ustActive then s
  else
    let q := s.niq i c
    let s := s.setNiq i c { q with postQ := [] }
    let s := (s.goState (Obj.niqState i c) 0x0B (64 * i + c) ustFrozen).wr (Obj.niqFreezeAddr i c) addr
    let s := s.freezeEvent 0x0B (64 * i + c) c causeWindow addr
    s.postsDone q.postQ .abortedDisabled causeDisabled

def State.updNiActive (s : State) (i c serial : Nat) (f : NiActive → NiActive) : State :=
  let q := s.niq i c
  s.setNiq i c { q with active := updFirst (fun a => a.serial == serial) f q.active }

/-- A command's outcome so far takes another status (R23, R282); the detail is that of the status kept. -/
def NiActive.merge (a : NiActive) (st : Status) (detail : Nat) : NiActive :=
  let m := a.status.first st
  { a with status := m, detail := if m = a.status then a.detail else detail }

/-- Whether everything a command does has been done (R282). -/
def NiActive.ready (a : NiActive) : Bool := a.issued && a.left == 0

/-- NI_COMMAND_COMPLETE: the tally is decremented and the record written (R282). -/
def execNiCommandComplete (i c serial : Nat) (s : State) : Host.Outcome State Fault Refusal :=
  let q := s.niq i c
  match q.active.find? fun a => a.serial = serial with
  | none => .next s
  | some a =>
    if !a.ready then .next s
    else
      let t := s.setNiq i c { q with active := q.active.filter fun x => x.serial != serial }
      .next (s.unlessHeld (t.niEnd i c serial a.bytes a.task a.origin a.status a.detail a.bytesDone a.count))

/-! ## Messages -/

/-- The next message identifier of a context at an NI, and whether the slot's counter is used up (R291, R301). -/
def State.nextMsg (s : State) (i c : Nat) : Option (Nat × Nat × State) :=
  let slot := s.txSlot c
  let k := slot.getD 0
  let key := 4 * (64 * i + c) + k
  let n := mgetD s.ni.msgIds key 0
  if slot.isSome ∧ n ≥ 2 ^ 48 then none
  else
    let s := { s with ni := { s.ni with msgIds := mput s.ni.msgIds key (if slot.isSome then n + 1 else (n + 1) % 2 ^ 48) } }
    let s := if slot.isSome ∧ n + 1 = 2 ^ 47 then s.event 0x4002 0x0D c c k 0 0 else s
    some (k, n, s)

/-- Whether a context may send (R297): encryption required without an ACTIVE transmit slot. -/
def State.mustKey (s : State) (c : Nat) : Bool := (s.rd (Obj.niEncRequired c) == 1 || s.confidential c) && (s.txSlot c).isNone

/-- Why a position cannot be reached (R296, R322): published lost, or suspect for 50 µs. -/
def State.blockedPos (s : State) (q : Nat) : Option Nat :=
  let own := byteAt s.agent.hbStates s.pos
  if q = s.pos then none
  else if bit (s.rd Obj.lostMask) q || (s.agent.hbSeen && (own == ustFenced || own == ustFailed)) then some ndPublished
  else if s.ni.suspect50.contains q then some ndSuspect
  else none

/-- The same for fabric addresses; another catchment is no position. -/
def State.blocked (s : State) (l : List Nat) : Option Nat :=
  l.findSome? fun a => if a / 256 = s.rd Obj.ownCatchment then s.blockedPos (a / 4 % 64) else none

def State.setOutstanding (s : State) (c : Nat) (up : Bool) : State :=
  let o := Obj.niOutstanding c
  s.wr o (if up then s.rd o + 1 else s.rd o - 1)

/-- Split a payload into packets of 256 bytes. -/
def pktChunks : Nat → Bytes → List Bytes
  | 0, _ => []
  | f + 1, b => if b.length ≤ 256 then [b] else b.take 256 :: pktChunks f (b.drop 256)

/-- A packet as it leaves for one address, or for a line from its anchor (R286). -/
def Packet.onLine (p : Packet) : Option Line → Packet
  | none => p
  | some l => { p with flags := 128, aux0 := l.mask, aux1 := 128 * l.axis + l.idx }

/-- Issue a message: its outstanding entry, its identifier and its packets (R285, R291, R295). -/
def State.sendMsg (s : State) (i c : Nat) (o : OutMsg) (dst : Nat) (line : Option Line) (cls sub target : Nat) (pay : Bytes) : State :=
  match s.nextMsg i c with
  | none => s
  | some (k, id, s) =>
    let o := { o with slot := k, msgId := id }
    let s := ({ s with ni := { s.ni with outs := s.ni.outs ++ [o] } }).setOutstanding c true
    let cs := pktChunks (pay.length / 256 + 1) pay
    (((List.range cs.length).zip cs).foldl (fun s x =>
      let p := s.buildPkt c i cls dst o.op sub (x.1 + 1 == cs.length) id x.1 o.len target x.2
      s.queueEg i ⟨c, p.onLine line, false⟩) s)

/-- Outstanding entries of an NI, quarantined ones included (R295). -/
def State.outsAt (s : State) (i : Nat) : Nat := (s.ni.outs.filter fun o => o.ni == i).length

/-- Whether a message could be given an identifier now. -/
def State.canSend (s : State) (i c : Nat) : Bool := (s.nextMsg i c).isSome

/-- A message that a command makes: where it goes, its op, its target and its payload; GET's reserved local address and length. -/
structure MsgPlan where
  waiting : List Nat
  dst : Nat
  line : Option Line
  op : Nat
  sub : Nat
  target : Nat
  len : Nat
  localAddr : Nat
  placedKey : Nat
  pay : Bytes

/-- Issue one planned message of an active command: an unreachable target ends it at once (R296), a missing key or a used-up counter refuses it (R297, R301). -/
def State.issueMsg (s : State) (i c serial : Nat) (m : MsgPlan) : State :=
  match s.blocked m.waiting with
  | some d => s.updNiActive i c serial fun a => a.merge .destLost d
  | none =>
    if s.mustKey c ∨ !s.canSend i c then s.updNiActive i c serial fun a => a.merge .violation ndKey
    else
      let o : OutMsg := ⟨i, c, 0, 0, serial, m.op, m.waiting, m.len, m.localAddr, 0, 0, .ok, ndNone, m.placedKey, none, false⟩
      let s := s.updNiActive i c serial fun a => { a with left := a.left + 1 }
      s.sendMsg i c o m.dst m.line clsRQ m.sub m.target m.pay

/-- A message of a command has completed (R282). -/
def State.cmdMsgDone (s : State) (o : OutMsg) (st : Status) (detail : Nat) : State :=
  s.updNiActive o.ni o.ctx o.serial fun a =>
    let a := { a.merge st detail with left := a.left - 1 }
    if st = .ok then { a with bytesDone := a.bytesDone + o.len } else a

def State.updOut (s : State) (o : OutMsg) (f : OutMsg → OutMsg) : State :=
  { s with ni := { s.ni with outs := updFirst (fun x => x.ni == o.ni && x.ctx == o.ctx && x.slot == o.slot && x.msgId == o.msgId) f s.ni.outs } }

/-- An outstanding message completes: its entry is quarantined (R293); a message sent for a COPY_TO lets that request be acknowledged (R288). -/
def State.outDone (s : State) (o : OutMsg) (st : Status) (detail : Nat) : State :=
  let s := (s.updOut o fun x => { x with quarantined := true, status := st, detail := detail, waiting := [] }).setOutstanding o.ctx false
  match o.forRx with
  | none => s.cmdMsgDone o st detail
  | some id =>
    let n := s.niOf o.ni
    let s := s.setNi o.ni { n with fwUsed := n.fwUsed - 1 }
    match s.ni.rxs.find? fun r => r.id = id ∧ !r.quarantined with
    | some r => s.ackRx r st 0 []
    | none => s

/-! ## Starting commands -/

/-- Whether a command queue may start its next command (R191, R280). -/
def State.niMayStart (s : State) (i c : Nat) (d : NiCmd) : Bool :=
  let q := s.niq i c
  decide (i < 4 ∧ c < 64) && s.domUp 5 && s.ctxSt c == ctxOpen && s.niqActive i c && decide (q.active.length < 64) && !s.niCqFull i c &&
    (!nFence d.bytes || (q.active.isEmpty && q.recs.isEmpty))

/-- Messages that a command needs room for before it starts (R285, R295). -/
def msgsOf (b : Bytes) : Nat :=
  if nOp b = cPut ∨ nOp b = cGet then cdiv (nLen b) 65536 else if nOp b = cDispatch ∨ nOp b > 7 then 0 else 1

/-- The oldest queued command starts when its code is the one asked for; a malformed one, and one that may not send, completes at once (R283, R285, R297). -/
def State.niStart (s : State) (i c : Nat) (want : Nat → Bool) (k : State → NiActive → State) : State :=
  let q := s.niq i c
  match q.queue with
  | [] => s
  | d :: rest =>
    if !want (nOp d.bytes) ∨ !s.niMayStart i c d ∨ s.outsAt i + msgsOf d.bytes > 8192 then s
    else s.unlessHeld <|
      let s := s.setNiq i c { q with queue := rest }
      if s.niMalformed d.bytes then s.niDrop i c d .violation ndMalformed
      else if nOp d.bytes < 8 ∧ s.mustKey c then s.niDrop i c d .violation ndKey
      else
        let a : NiActive := ⟨d.serial, d.bytes, s.rd (Obj.protEpoch c), d.origin, d.task, .ok, ndNone, 0, 0, 0, [], true, 0, [], []⟩
        let q := s.niq i c
        k (s.setNiq i c { q with active := q.active ++ [a] }) a

/-- A rank's fabric address (R283). -/
def State.rankAddr (s : State) (c rank : Nat) : Option Nat :=
  let e := mgetD s.ni.ranks (4096 * c + rank) 0
  if bit e 31 then some (e % 2 ^ 24) else none

/-- The addresses of a line's members and the anchor's (R265, R286). -/
def State.lineDst (s : State) (l : Line) : Nat × List Nat :=
  let cat := s.rd Obj.ownCatchment * 256
  let at_ := fun m => cat + 4 * (if l.axis = 0 then 8 * l.idx + m else 8 * m + l.idx) + l.ni
  let anchor := if (if l.axis = 0 then s.pos / 8 == l.idx else s.pos % 8 == l.idx) then cat + 4 * s.pos + l.ni
    else if l.axis = 0 then at_ (s.pos % 8) else at_ (s.pos / 8)
  (anchor, ((List.range 8).filter fun m => bit l.mask m).map at_)

/-- Where a command's messages go: address or anchor, line, and who answers; none without a valid rank. -/
def State.cmdDst (s : State) (c : Nat) (b : Bytes) : Option (Nat × Option Line × List Nat) :=
  if nLine b then
    let l := lineOf (nRank b)
    some ((s.lineDst l).1, some l, (s.lineDst l).2)
  else (s.rankAddr c (nRank b)).map fun a => (a, none, [a])

/-- A started command whose rank is not valid sends nothing (R283). -/
def State.noRank (s : State) (i c serial : Nat) : State := s.updNiActive i c serial fun a => a.merge .violation ndNoRank

/-- A failed access of a command's own memory: a window failure freezes the queue (R297). -/
def State.localFail (_ : State) (i c serial epoch : Nat) (r : AccR) : State :=
  let s := r.s.updNiActive i c serial fun a => a.merge r.st (if r.win then ndWindow else ndNone)
  if r.win then s.freezeNiq i c epoch r.addr else s

/-- The messages of a PUT, in ascending offset (R285). -/
def State.putGo : Nat → State → Nat → Nat → NiActive → Nat × Option Line × List Nat → Nat → State
  | 0, s, _, _, _, _, _ => s
  | f + 1, s, i, c, a, d, off =>
    if off ≥ nLen a.bytes then s
    else
      let n := min 65536 (nLen a.bytes - off)
      let r := s.read c .ni permRead ((niLoc c (nLocal a.bytes)).adv off) n
      if r.st ≠ .ok then r.s.localFail i c a.serial a.epoch r
      else
        let s := r.s.issueMsg i c a.serial ⟨d.2.2, d.1, d.2.1, poPut, nSub a.bytes, nRemote a.bytes + off, n, 0, 0, r.data⟩
        State.putGo f s i c a d (off + n)

def execPut (i c : Nat) (s : State) : Host.Outcome State Fault Refusal :=
  .next (s.niStart i c (fun op => op == cPut || op == 0 || decide (op > 11)) fun s a =>
    match s.cmdDst c a.bytes with
    | none => s.noRank i c a.serial
    | some d => State.putGo 4097 s i c a d 0)

/-- The messages of a GET (R285, R290). -/
def State.getGo : Nat → State → Nat → Nat → NiActive → Nat → Nat → State
  | 0, s, _, _, _, _, _ => s
  | f + 1, s, i, c, a, dst, off =>
    if off ≥ nLen a.bytes then s
    else
      let n := min 65536 (nLen a.bytes - off)
      let s := s.issueMsg i c a.serial ⟨[dst], dst, none, poGet, 0, nRemote a.bytes + off, n, nLocal a.bytes + off, 0, leBytes 4 n ++ zeros 12⟩
      State.getGo f s i c a dst (off + n)

def execGet (i c : Nat) (s : State) : Host.Outcome State Fault Refusal :=
  .next (s.niStart i c (· == cGet) fun s a =>
    match s.rankAddr c (nRank a.bytes) with
    | none => s.noRank i c a.serial
    | some d => State.getGo 4097 s i c a d 0)

/-- A command of one message. -/
def State.oneMsg (s : State) (i c : Nat) (a : NiActive) (op sub target : Nat) (pay : Bytes) : State :=
  match s.cmdDst c a.bytes with
  | none => s.noRank i c a.serial
  | some d => s.issueMsg i c a.serial ⟨d.2.2, d.1, d.2.1, op, sub, target, pay.length, nLocal a.bytes, 0, pay⟩

def execAtomic (i c : Nat) (s : State) : Host.Outcome State Fault Refusal :=
  .next (s.niStart i c (· == cAtomic) fun s a =>
    s.oneMsg i c a (if bit (nSub a.bytes) 7 then poAtomic64 else poAtomic32) (nSub a.bytes % 16) (nRemote a.bytes)
      (leBytes 8 (nOperand a.bytes) ++ leBytes 8 (nCompare a.bytes)))

def execNotify (i c : Nat) (s : State) : Host.Outcome State Fault Refusal :=
  .next (s.niStart i c (· == cNotify) fun s a => s.oneMsg i c a poNotify 0 0 (leBytes 8 (nOperand a.bytes) ++ zeros 8))

/-- TASK: the descriptor is the one at `local`, or the one that came with a remote task post (R281, R285). -/
def execTask (i c : Nat) (s : State) : Host.Outcome State Fault Refusal :=
  .next (s.niStart i c (· == cTask) fun s a =>
    if a.origin.isSome then s.oneMsg i c a poTask 0 (nRemote a.bytes) (fit 64 a.task)
    else
      let r := s.read c .ni permRead (niLoc c (nLocal a.bytes)) 64
      if r.st ≠ .ok then r.s.localFail i c a.serial a.epoch r else r.s.oneMsg i c a poTask 0 (nRemote a.bytes) r.data)

/-- COPY_TO: one message that carries the length, the second rank and its address (R288). -/
def execCopyTo (i c : Nat) (s : State) : Host.Outcome State Fault Refusal :=
  .next (s.niStart i c (· == cCopyTo) fun s a =>
    match s.rankAddr c (nRank a.bytes), s.rankAddr c (nCount a.bytes) with
    | some d, some _ =>
      s.issueMsg i c a.serial ⟨[d], d, none, poCopyTo, 0, nRemote a.bytes, nLen a.bytes, 0, 0, leBytes 8 (nRemote2 a.bytes) ++ leBytes 4 (nCount a.bytes) ++ zeros 4⟩
    | _, _ => s.noRank i c a.serial)

/-! ## Queues -/

/-- A write of `niq_sq_tail`, by a Tenant of the context (R312). -/
def State.niqTail (s : State) (i c v : Nat) : State × Nat :=
  if v ≥ s.rd (Obj.niqSqEntries i c) then (s, rOutOfRange) else (s.wr (Obj.niqSqTail i c) v, rOk)

def execNiqSqTailWrite (w : Who) (i c v : Nat) (s : State) : Host.Outcome State Fault Refusal :=
  .next (s.ctl w (isTenant w c) fun s => if i ≥ 4 then (s, rNoObject) else s.niqTail i c v)

def State.niqHead (s : State) (i c v : Nat) : State × Nat :=
  if v ≥ s.rd (Obj.niqCqEntries i c) then (s, rOutOfRange) else ((s.wr (Obj.niqCqHead i c) v).niFlush i c, rOk)

def execNiqCqHeadWrite (w : Who) (i c v : Nat) (s : State) : Host.Outcome State Fault Refusal :=
  .next (s.ctl w (isTenant w c) fun s => if i ≥ 4 then (s, rNoObject) else s.niqHead i c v)

/-- The ring command at the head index is fetched into the command queue (R280); a failed check ends the fetch with VIOLATION, WINDOW, and freezes the queue (R390). -/
def State.niFetch (s : State) (i c : Nat) : State :=
  let head := s.rd (Obj.niqSqHead i c)
  let a := s.read c .ni permRead ((niLoc c (s.rd (Obj.niqSqBase i c))).adv (64 * head)) 64
  let s := a.s.wr (Obj.niqSqHead i c) ((head + 1) % s.rd (Obj.niqSqEntries i c))
  let q := s.niq i c
  if a.st = .ok then s.setNiq i c (q.push a.data false none [])
  else
    let s := (s.setNiq i c { q with nextSerial := q.nextSerial + 1 }).niEnd i c q.nextSerial (zeros 64) [] none a.st (if a.win then ndWindow else ndNone) 0 0
    if a.win then s.freezeNiq i c (s.rd (Obj.protEpoch c)) a.addr else s

/-- NI_RING_FETCH: the next ring command enters the command queue (R280, R390). -/
def execNiRingFetch (i c : Nat) (s : State) : Host.Outcome State Fault Refusal :=
  if i ≥ 4 ∨ c ≥ 64 ∨ s.ctxSt c ≠ ctxOpen ∨ !s.niqActive i c ∨ !s.domUp 5 ∨ s.rd (Obj.niqSqHead i c) = s.rd (Obj.niqSqTail i c) then .next s
  else .next (s.unlessHeld (s.niFetch i c))

/-- RELEASE and PURGE of a FROZEN command queue, by the Custodian (R200, R312). -/
def State.releaseNiq (s : State) (i c : Nat) (purge : Bool) : State × Nat :=
  if s.rd (Obj.niqState i c) ≠ ustFrozen then (s, rRefused)
  else
    let s := if purge then s.niDropQueue i c .abortedDisabled else s
    (s.goState (Obj.niqState i c) 0x0B (64 * i + c) ustActive, rOk)

def execNiqRelease (w : Who) (i c : Nat) (s : State) : Host.Outcome State Fault Refusal :=
  .next (s.ctl w (isCus w) fun s => if i ≥ 4 ∨ c ≥ 64 then (s, rNoObject) else s.releaseNiq i c false)
def execNiqPurge (w : Who) (i c : Nat) (s : State) : Host.Outcome State Fault Refusal :=
  .next (s.ctl w (isCus w) fun s => if i ≥ 4 ∨ c ≥ 64 then (s, rNoObject) else s.releaseNiq i c true)

/-! ## Tables, jobs and keys -/

def putWords : List Nat → NMap Nat → Nat → NMap Nat
  | [], m, _ => m
  | v :: l, m, k => putWords l (msetD m k 0 v) (k + 1)

/-- The entries of a table write (R283, R307, R312): first index, count, entries with reserved bits zero. -/
def tableWrite (v : Bytes) (bad : Nat → Bool) : Except Nat (Nat × List Nat) :=
  let first := leAt v 0 2
  let n := leAt v 2 2
  if v.length ≠ 4 + 4 * n then .error rBadLength
  else if n = 0 ∨ n > 256 ∨ first + n > 4096 then .error rOutOfRange
  else
    let l := (List.range n).map fun i => leAt v (4 + 4 * i) 4
    if l.any bad then .error rMalformed else .ok (first, l)

def State.rankLoad (s : State) (ctx : Nat) (v : Bytes) : State × Nat :=
  match tableWrite v fun e => decide (bits e 24 7 ≠ 0) with
  | .error r => (s, r)
  | .ok (k, l) => ({ s with ni := { s.ni with ranks := putWords l s.ni.ranks (4096 * ctx + k) } }, rOk)

def execRankLoad (w : Who) (ctx : Nat) (v : Bytes) (s : State) : Host.Outcome State Fault Refusal :=
  .next (s.ctl w (isOpCus w) fun s => if ctx ≥ 64 then (s, rNoObject) else if ctx = 0 then (s, rRefused) else s.rankLoad ctx v)

def State.dispatchLoad (s : State) (ctx : Nat) (v : Bytes) : State × Nat :=
  match tableWrite v fun e => decide (bits e 24 7 ≠ 0) || decide (bits e 8 4 ≠ 0) with
  | .error r => (s, r)
  | .ok (k, l) => ({ s with ni := { s.ni with dests := putWords l s.ni.dests (4096 * ctx + k) } }, rOk)

def execDispatchLoad (w : Who) (ctx : Nat) (v : Bytes) (s : State) : Host.Outcome State Fault Refusal :=
  .next (s.ctl w (isOpCus w || isTenant w ctx) fun s => if ctx ≥ 64 then (s, rNoObject) else s.dispatchLoad ctx v)

/-- A write of `ni_job` (R284, R401). -/
def State.setJob (s : State) (ctx v : Nat) : State × Nat :=
  if v > 0xFFFE then (s, rOutOfRange)
  else if s.ctxSt ctx ≠ ctxOpen ∨ s.rd (Obj.niOutstanding ctx) ≠ 0 then (s, rRefused)
  else if v ≠ 0 ∧ ((List.range 64).any fun c => c != ctx && s.rd (Obj.niJob c) == v) then (s, rRefused)
  else if s.ni.heldJobs.contains v then (s, rRefused)
  else (s.wr (Obj.niJob ctx) v, rOk)

def execNiJobWrite (w : Who) (ctx v : Nat) (s : State) : Host.Outcome State Fault Refusal :=
  .next (s.ctl w (isOpCus w) fun s => if ctx ≥ 64 then (s, rNoObject) else if ctx = 0 then (s, rRefused) else s.setJob ctx v)

/-- The transmit slot is switched (R301, R422): the new slot becomes ACTIVE, and one that was ACTIVE DRAINING. -/
def State.switchSlot (s : State) (ctx v : Nat) : State :=
  let s := (List.range 4).foldl (fun s k => if k ≠ v ∧ s.slotSt ctx k = slotActive then s.setSlot ctx k slotDraining else s) s
  (s.setSlot ctx v slotActive).wr (Obj.keyTxSlot ctx) v

/-- A write of `key_tx_slot`, by the Custodian (R312). -/
def State.setTxSlot (s : State) (ctx v : Nat) : State × Nat :=
  if v = 0xFF then (s.wr (Obj.keyTxSlot ctx) v, rOk)
  else if v > 3 then (s, rOutOfRange)
  else if s.slotSt ctx v ≠ slotActive ∧ s.slotSt ctx v ≠ slotRxOnly then (s, rRefused)
  else (s.switchSlot ctx v, rOk)

def execKeyTxSlotWrite (w : Who) (ctx v : Nat) (s : State) : Host.Outcome State Fault Refusal :=
  .next (s.ctl w (isCus w) fun s => if ctx ≥ 64 then (s, rNoObject) else s.setTxSlot ctx v)

/-- A key slot is zeroized. -/
def State.zeroSlot (s : State) (ctx slot : Nat) : State :=
  { s.setSlot ctx slot slotEmpty with sec := { s.sec with slotKeys := mdel s.sec.slotKeys (4 * ctx + slot), slotEpochs := mdel s.sec.slotEpochs (4 * ctx + slot) } }

/-- KEY_DRAIN_EXPIRY (R299). -/
def execKeyDrainExpiry (ctx slot : Nat) (s : State) : Host.Outcome State Fault Refusal :=
  .next (if slot < 4 ∧ s.slotSt ctx slot = slotDraining then s.zeroSlot ctx slot else s)

end Sys2Proof.Machine
end

