-- ==== Sys2Proof/Machine/Rx.lean ====
section
/-! DEFINITION. Packets received by a network interface: checks, counting of bytes, the operations at the target, replies at the requester, quarantine and
timeouts (R287 to R300, R308 to R310). -/

namespace Sys2Proof.Machine

open Sys2Proof

/-- Whether the class allows the op (R290). -/
def Packet.opOk (p : Packet) : Bool :=
  if p.cls = clsRQ then (decide (1 ≤ p.op ∧ p.op ≤ 7) || p.op == poToken || p.op == poDone)
  else if p.cls = clsFW then p.op == poFwd
  else p.op == poAck || p.op == poData

/-- Payload bytes that a packet brings of its message (R285, R290). -/
def Packet.bytesIn (p : Packet) : Nat := min 256 (p.msgLen - 256 * p.index)

/-- Field rules of a packet (R290): reserved bits, the message length, and a payload that fits its place in the message. -/
def Packet.niOk (p : Packet) : Bool :=
  p.opOk && decide (byteAt p.ni 1 % 16 = 0) && decide (1 ≤ p.msgLen ∧ p.msgLen ≤ 65536) &&
    (if p.op = poPut ∨ p.op = poFwd ∨ p.op = poToken ∨ p.op = poData then decide (256 * p.index < p.msgLen) && decide (p.units = cdiv p.bytesIn 16)
     else if p.op = poAck then true else decide (p.index = 0))

/-- A packet whose check fails is counted and recorded (R300). -/
def State.checkFail (s : State) (i : Nat) (p : Packet) : State := (s.bump Obj.rxCheckFail).event 0x4001 0x0A i noCtx p.src p.job 0

/-- Open or check a packet under its slot or its CRC (R299, R300): the payload, or the state with the discard counted. -/
def State.openPkt (s : State) (i c : Nat) (p : Packet) (iv : Bytes) : Except State Bytes :=
  if s.ctxSt c = ctxRetiring then .error (s.bump Obj.rxRetiringDrop)
  else if p.enc then
    let st := s.slotSt c p.slot
    if st = slotEmpty then .error (s.bump Obj.rxNoKey)
    else if st = slotRetiring then .error (s.bump Obj.rxRetiringDrop)
    else match gcmOpen (mgetD s.sec.slotKeys (4 * c + p.slot) []) iv p.aad (p.payload ++ p.tag) with
      | some d => .ok (fit p.payload.length d)
      | none => .error (s.checkFail i p)
  else if s.rd (Obj.niEncRequired c) = 1 ∨ s.confidential c then .error (s.checkFail i p)
  else if leAt p.tag 0 4 ≠ crc32c (p.aad ++ p.payload) ∨ !allZero (slice p.tag 4 12) then .error (s.checkFail i p)
  else .ok p.payload

/-- A packet that the NI has taken: a DISABLED or FAILED NI discards it (R310), a job without a context and a bad check discard it (R284, R300). -/
def State.rxServe (s : State) (i : Nat) (iv : State → Packet → Bytes) (k : State → Nat → Packet → Bytes → State) (p : Packet) : State :=
  if s.rd (Obj.niState i) = ustDisabled ∨ s.rd (Obj.niState i) = ustFailed then s.bump Obj.rxDisabledDrop
  else match s.ctxOfJob p.job with
    | none => s.bump Obj.rxNoKey
    | some c => match s.openPkt i c p (iv s p) with
      | .error s => s
      | .ok d => k s c p d

/-- Whether a packet of an NI's buffer waits for one before it: for those of its own class alone, and a reply for none (R270, R271). -/
def rxBehind (b p : Packet) : Bool := b.cls == p.cls && b.cls != clsRP

/-- The packet of an NI's receive side that a row serves: the first of its own that waits for none before it and whose access no substitution holds (R100, R270). -/
def State.rxFrom (s : State) (i : Nat) (mine : Packet → Bool) (iv : State → Packet → Bytes) (k : State → Nat → Packet → Bytes → State) :
    List Packet → List Packet → State
  | _, [] => s
  | before, p :: rest =>
    if !mine p ∨ before.any (rxBehind · p) then s.rxFrom i mine iv k (before ++ [p]) rest
    else
      let t := (s.setNi i { s.niOf i with rxQ := before ++ rest }).rxServe i iv k p
      if s.heldHit < t.heldHit then s.rxFrom i mine iv k (before ++ [p]) rest else t

def State.rxPacket (s : State) (i : Nat) (mine : Packet → Bool) (iv : State → Packet → Bytes) (k : State → Nat → Packet → Bytes → State) : State :=
  s.rxFrom i mine iv k [] (s.niOf i).rxQ

/-- A reply's or request's packet; one of an op or field its class does not allow is discarded (R290). -/
def State.rxRow (s : State) (i : Nat) (want : Nat → Bool) (k : State → Nat → Packet → Bytes → State) : State :=
  s.rxPacket i (fun p => p.cls != clsCL && want p.op) (fun s p => p.nonce (if p.cls = clsRP then s.fabAddr i else p.src)) fun s c p d =>
    if p.niOk then k s c p d else s.bump Obj.rxCheckFail

/-! ## Requests at the target -/

/-- A new receive entry holds an RP slot, and for COPY_TO an FW slot (R295). -/
def State.newRx (s : State) (i c : Nat) (p : Packet) : State × RxMsg :=
  let n := s.niOf i
  let r : RxMsg := ⟨s.ni.nextRx, i, c, p.slot, p.src, p.msgId, p.cls, p.op, p.msgLen, 0, 0, s.rd (Obj.protEpoch c), none, .ok, false, p.enc⟩
  let s := s.setNi i { n with rpUsed := n.rpUsed + 1, fwUsed := n.fwUsed + ofBool (p.op == poCopyTo) }
  ({ s with ni := { s.ni with rxs := s.ni.rxs ++ [r], nextRx := s.ni.nextRx + 1 } }, r)

/-- A request packet finds or makes its entry: one of a quarantined entry, or of an index already counted, is a duplicate (R292, R293); the first packet of a
new message at a QUIESCING NI is answered with ABORTED_DISABLED (R310). -/
def State.rxEntry (s : State) (i c : Nat) (p : Packet) (k : State → RxMsg → Bool → State) : State :=
  match s.rxOf i c p with
  | some r => if r.quarantined ∨ bit r.bitmap p.index then s.bump Obj.rxDuplicates else k s r false
  | none =>
    let n := s.newRx i c p
    if s.rd (Obj.niState i) = ustQuiescing then
      let n2 := n.1.niOf i
      (n.1.setNi i { n2 with fwUsed := n2.fwUsed - ofBool (p.op == poCopyTo) }).ackRx n.2 .abortedDisabled 0 []
    else k n.1 n.2 true

/-- Requests made for a message of another package also need REMOTE (R386). -/
def State.remoteNeed (s : State) (src perm : Nat) : Nat :=
  if src / 256 = s.rd Obj.ownCatchment ∧ src / 4 % 64 = s.pos then perm else perm ||| permRemote

/-- A request that fails at the target is answered with its status; a window failure is counted and freezes nothing (R287), and that of a message of an earlier
epoch is counted as such (R396). -/
def State.rxFail (_ : State) (r : RxMsg) (a : AccR) : State :=
  let s := if a.win then a.s.bump Obj.rxWindowRefused else a.s
  let s := if a.win ∧ r.epoch ≠ s.rd (Obj.protEpoch r.ctx) then s.protAbort else s
  let n := s.niOf r.ni
  let s := if r.op = poCopyTo then s.setNi r.ni { n with fwUsed := n.fwUsed - 1 } else s
  s.ackRx r a.st 0 []

/-- Count a packet of a message (R292). -/
def State.countRx (s : State) (r : RxMsg) (p : Packet) : State × RxMsg :=
  let r := { r with got := r.got + p.bytesIn, bitmap := r.bitmap + 2 ^ p.index }
  let s := if p.lastFlag ∧ r.got < r.len then s.bump Obj.rxLastEarly else s
  (s.updRx r.id fun _ => r, r)

/-- Place a packet of a message at its offset, and go on when the message is complete (R292). -/
def State.placeRx (s : State) (r : RxMsg) (p : Packet) (d : Bytes) (perm base : Nat) (done : State → RxMsg → State) : State :=
  let a := s.write r.ctx .ni perm ((niLoc r.ctx base).adv (256 * p.index)) (d.take p.bytesIn)
  if a.st ≠ .ok then a.s.rxFail r a
  else
    let n := a.s.countRx r p
    if n.2.got = n.2.len then done n.1 n.2 else n.1

/-- The landing tally of a PUT (R289). -/
def State.land (s : State) (i c k : Nat) : State :=
  let m := s.rdo (Obj.landingMap c)
  if k = 0 ∨ !bit (byteAt m (4 * k + 3)) 0 then s
  else s.decNow ⟨.ni i, leAt m (4 * k) 2, byteAt m (4 * k + 2), 1, .ok, causeNone, c⟩

/-- RX_PUT; a packet of an op that no row names, or that its class does not allow, is discarded here too (R290). -/
def execRxPut (i : Nat) (s : State) : Host.Outcome State Fault Refusal :=
  .next (s.rxRow i (fun op => op == poPut || op == 0 || op == 0xB || op == 0xC || op == 0xD) fun s c p d =>
    s.rxEntry i c p fun s r _ => s.placeRx r p d (s.remoteNeed p.src permWrite) p.target fun s r => (s.land i c p.sub).ackRx r .ok 0 [])

/-- RX_FWD (R288). -/
def execRxFwd (i : Nat) (s : State) : Host.Outcome State Fault Refusal :=
  .next (s.rxRow i (· == poFwd) fun s c p d =>
    s.rxEntry i c p fun s r _ => s.placeRx r p d (s.remoteNeed p.src permWrite) p.target fun s r => s.ackRx r .ok 0 [])

/-- The DATA packets of a GET's reply; the last one ends the use of the RP slot (R287, R295). -/
def State.sendData_ (s : State) (r : RxMsg) (d : Bytes) (whole : Bool) : State :=
  let cs := (pktChunks (d.length / 256 + 1) d).filter fun x => decide (x.length = 256) || whole
  (((List.range cs.length).zip cs).foldl (fun s x =>
    let last := whole && x.1 + 1 == cs.length
    s.queueEg r.ni ⟨r.ctx, s.buildPkt r.ctx r.ni clsRP r.src poData 0 last r.msgId x.1 r.len 0 x.2, last⟩) s)

/-- RX_GET: read and returned; at a granule that is uncorrectable the reply stops with an ACK (R287, R298). -/
def execRxGet (i : Nat) (s : State) : Host.Outcome State Fault Refusal :=
  .next (s.rxRow i (· == poGet) fun s c p d =>
    s.rxEntry i c p fun s r _ =>
      let n := min 65536 (max 1 (leAt d 0 4))
      let r := { r with len := n }
      let a := s.read c .ni (s.remoteNeed p.src permRead) (niLoc c p.target) n
      if a.st = .ok then (a.s.sendData_ r a.data true).updRx r.id fun x => { x with quarantined := true, len := n, got := n }
      else if a.win then a.s.rxFail r a
      else (a.s.sendData_ r a.data false).rxFail r { a with s := a.s.sendData_ r a.data false })

/-- RX_ATOMIC: performed by the base die; the ACK carries the old value (R287, R290). -/
def execRxAtomic (i : Nat) (s : State) : Host.Outcome State Fault Refusal :=
  .next (s.rxRow i (fun op => op == poAtomic32 || op == poAtomic64) fun s c p d =>
    s.rxEntry i c p fun s r _ =>
      let wide := p.op == poAtomic64
      let m := s.resolve c .ni (s.remoteNeed p.src permAtomic) (niLoc c p.target) (if wide then 8 else 4)
      if m.2.1 ≠ .ok then m.1.rxFail r ⟨m.1, m.2.1, [], m.2.1 == .violation, p.target, 0⟩
      else
        let a := m.1.atomic m.2.2 p.sub wide (leAt d 0 8) (leAt d 8 8)
        if a.2.1 = .ok then a.1.ackRx r .ok 0 (leBytes 8 a.2.2 ++ zeros 8) else a.1.ackRx r a.2.1 0 [])

/-- Write one entry of a context's notify ring (R287, R337, R390): whether it took place, and its status. A message's entry (origin 0) is a request for its source
(R386). -/
def State.notifyPut (s : State) (c : Nat) (value src origin : Nat) : State × Status × Bool :=
  let tail := s.rd (Obj.notifyTail c)
  let next := (tail + 1) % s.rd (Obj.notifyEntries c)
  if next = s.rd (Obj.notifyHead c) then (s, .timeout, false)
  else
    let e := leBytes 8 value ++ leBytes 3 src ++ leBytes 1 origin ++ zeros 4
    let a := s.write c .ni (if origin = 0 then s.remoteNeed src permWrite else permWrite) ((niLoc c (s.rd (Obj.notifyBase c))).adv (16 * tail)) e
    if a.st ≠ .ok then (a.s, a.st, a.win) else (a.s.wr (Obj.notifyTail c) next, .ok, false)

/-- RX_NOTIFY (R287). -/
def execRxNotify (i : Nat) (s : State) : Host.Outcome State Fault Refusal :=
  .next (s.rxRow i (· == poNotify) fun s c p d =>
    s.rxEntry i c p fun s r _ =>
      let w := s.notifyPut c (leAt d 0 8) p.src 0
      let s := if w.2.2 then w.1.bump Obj.rxWindowRefused else w.1
      s.ackRx r w.2.1 0 [])

/-- RX_TASK: posted in the assigned context; the acknowledgement follows the post's completion (R287). -/
def execRxTask (i : Nat) (s : State) : Host.Outcome State Fault Refusal :=
  .next (s.rxRow i (· == poTask) fun s c p d =>
    s.rxEntry i c p fun s r _ =>
      let s := s.updRx r.id fun x => { x with bitmap := 1, got := x.len }
      { s with posts := s.posts ++ [(⟨.ni i r.id, c, p.target, fit 64 d⟩ : PostMsg)] })

/-- The message of class FW that a COPY_TO makes at its target (R288). -/
def State.sendFwd (s : State) (j : FwdJob) : State :=
  s.sendMsg j.ni j.ctx ⟨j.ni, j.ctx, 0, 0, 0, poFwd, [j.dst], j.data.length, 0, 0, 0, .ok, ndNone, 0, some j.rx, false⟩ j.dst none clsFW 0 j.target j.data

/-- Why a message of class FW may not be sent: its position is suspect or lost (R296), or a key is missing or used up (R297, R399). -/
def State.fwdBar (s : State) (j : FwdJob) : Option Status :=
  if (s.blocked [j.dst]).isSome then some .destLost else if s.mustKey j.ctx ∨ !s.canSend j.ni j.ctx then some .violation else none

/-- A COPY_TO whose second message is not sent is answered with a status (R288). -/
def State.fwdFail (s : State) (j : FwdJob) (st : Status) : State :=
  match s.ni.rxs.find? fun r => r.id = j.rx ∧ !r.quarantined with
  | none => s
  | some r => s.rxFail r ⟨s, st, [], false, 0, 0⟩

/-- It is sent once the NI holds an outstanding entry for it, and waits until then (R295). -/
def State.forward (s : State) (j : FwdJob) : State :=
  match s.fwdBar j with
  | some st => s.fwdFail j st
  | none => if s.outsAt j.ni < 8192 then s.sendFwd j else { s with ni := { s.ni with fwdQ := s.ni.fwdQ ++ [j] } }

/-- Waiting messages leave the queue of those that wait. -/
def State.fwdDrop (s : State) (gone : FwdJob → Bool) : State := { s with ni := { s.ni with fwdQ := s.ni.fwdQ.filter fun x => !gone x } }

/-- An outstanding entry is free again: the first message that waits for one at its NI is sent (R295); those that may no longer be sent are answered. -/
def State.fwdNext (s : State) (i : Nat) : State :=
  let l := s.ni.fwdQ.filter fun j => j.ni == i
  let s := (l.filter fun j => (s.fwdBar j).isSome).foldl (fun s j => match s.fwdBar j with
    | some st => (s.fwdDrop (·.rx == j.rx)).fwdFail j st
    | none => s) s
  match s.ni.fwdQ.find? fun j => j.ni = i with
  | none => s
  | some j => if s.outsAt i ≥ 8192 then s else (s.fwdDrop (·.rx == j.rx)).sendFwd j

/-- RX_COPY_TO: the source is read and sent on as a message of class FW to the second rank (R288). -/
def execRxCopyTo (i : Nat) (s : State) : Host.Outcome State Fault Refusal :=
  .next (s.rxRow i (· == poCopyTo) fun s c p d =>
    s.rxEntry i c p fun s r _ =>
      let s := s.updRx r.id fun x => { x with bitmap := 1, got := x.len }
      let a := s.read c .ni (s.remoteNeed p.src permRead) (niLoc c p.target) p.msgLen
      if a.st ≠ .ok then a.s.rxFail r a
      else match a.s.rankAddr c (leAt d 8 4 % 4096) with
        | none => a.s.rxFail r { a with st := .violation, win := false }
        | some dst => a.s.forward ⟨i, c, r.id, dst, leAt d 0 6, a.data⟩)

/-! ## Tokens -/

def State.inbox (s : State) (c n : Nat) : Option Inbox := s.ni.inboxes.find? fun b => b.ctx = c ∧ b.num = n

def State.setInbox (s : State) (b : Inbox) : State :=
  { s with ni := { s.ni with inboxes := updFirst (fun x => x.ctx == b.ctx && x.num == b.num) (fun _ => b) s.ni.inboxes } }

/-- The inbox's tally is decremented once the counts match (R309). -/
def State.fireInbox (s : State) (i : Nat) (b : Inbox) : State :=
  if b.fired ∨ b.doneGot ≠ b.expected ∨ b.placed ≠ b.announced then s.setInbox b
  else
    let s := s.setInbox { b with fired := true }
    if b.tallyValid then s.decNow ⟨.ni i, b.tallyTile, b.tally, 1, .ok, causeNone, b.ctx⟩ else s

/-- The manifest entry of a token (R308). -/
def manifestEntry (src token expert : Nat) : Bytes := leBytes 3 src ++ [0] ++ leBytes 4 token ++ leBytes 2 expert ++ zeros 6

/-- RX_TOKEN: the first packet takes the next free slot, or the message is refused; the manifest entry and the acknowledgement follow its completion (R308). -/
def execRxToken (i : Nat) (s : State) : Host.Outcome State Fault Refusal :=
  .next (s.rxRow i (· == poToken) fun s c p d =>
    s.rxEntry i c p fun s r new =>
      let num := p.target / 2 ^ 40
      match s.inbox c num with
      | none => (s.bump Obj.dispatchRefused).ackRx r .ok (2 ^ 48 - 1) []
      | some b =>
        if new ∧ (b.next ≥ b.capacity ∨ p.msgLen > b.slotBytes) then (s.bump Obj.dispatchRefused).ackRx r .ok (2 ^ 48 - 1) []
        else
          let s := if new then s.setInbox { b with next := b.next + 1 } else s
          let slot := if new then b.next else r.place.getD 0
          let r := { r with place := some slot }
          let s := s.updRx r.id fun _ => r
          s.placeRx r p d (s.remoteNeed p.src permWrite) (b.area + slot * b.slotBytes) fun s r =>
            let a := s.write c .ni (s.remoteNeed r.src permWrite) ((niLoc c b.manifest).adv (16 * slot)) (manifestEntry r.src (p.target % 2 ^ 24) (bits p.target 24 16))
            if a.st ≠ .ok then a.s.rxFail r a
            else
              let s := a.s.ackRx r .ok slot []
              match s.inbox c num with
              | none => s
              | some b => s.fireInbox i { b with placed := b.placed + 1 })

/-- RX_DONE (R309). -/
def execRxDone (i : Nat) (s : State) : Host.Outcome State Fault Refusal :=
  .next (s.rxRow i (· == poDone) fun s c p d =>
    s.rxEntry i c p fun s r _ =>
      match s.inbox c (p.target / 2 ^ 40) with
      | none => s.ackRx r .violation 0 []
      | some b => (s.ackRx r .ok 0 []).fireInbox i { b with doneGot := b.doneGot + 1, announced := b.announced + leAt d 0 4 })

/-! ## Replies at the requester -/

/-- The outstanding entry that a reply names: of the same slot first, then of any other. -/
def State.outOf (s : State) (i c : Nat) (p : Packet) : Option OutMsg :=
  let l := s.ni.outs.filter fun o => o.ni == i && o.ctx == c && o.msgId == p.msgId
  ((l.find? fun o => o.slot == p.slot && (o.quarantined || o.waiting.contains p.src)).orElse fun _ => l.find? fun o => o.waiting.contains p.src).orElse fun _ => l.head?

/-- The detail of a status returned in an ACK (R297). -/
def ackDetail (op : Nat) (st : Status) : Nat :=
  if st = .ok then ndNone
  else if st = .violation ∧ op ≠ poTask then ndRemoteWindow
  else if st = .timeout ∧ op = poNotify then ndRemoteFull
  else ndRemoteStatus

/-- RX_ACK: one of the answers of a message; the last one completes it with the first status (R23, R286, R297). An ATOMIC's old value is written to `local`, a
token's slot says whether it was placed (R308, R309). -/
def execRxAck (i : Nat) (s : State) : Host.Outcome State Fault Refusal :=
  .next (s.rxRow i (· == poAck) fun s c p d =>
    match s.outOf i c p with
    | none => s
    | some o =>
      if o.quarantined ∨ !o.waiting.contains p.src then s.bump Obj.rxDuplicates
      else
        let got := (Status.ofCode? p.sub).getD .violation
        let st := o.status.first got
        let o' := { o with waiting := o.waiting.filter (· != p.src), status := st, detail := if st = o.status then o.detail else ackDetail o.op got }
        if !o'.waiting.isEmpty then s.updOut o fun _ => o'
        else
          let a := (s.niq i c).active.find? fun a => a.serial = o.serial
          if got = .ok ∧ (o.op = poAtomic32 ∨ o.op = poAtomic64) then
            let w := s.write c .ni permWrite (niLoc c o.localAddr) (d.take (if o.op = poAtomic64 then 8 else 4))
            let s := w.s.outDone o' (if w.st = .ok then st else w.st) (if w.st = .ok then o'.detail else if w.win then ndWindow else ndNone)
            if w.win then s.freezeNiq i c ((a.map (·.epoch)).getD (s.rd (Obj.protEpoch c))) w.addr else s
          else
            let s := if o.op = poToken ∧ got = .ok then
                s.updNiActive i c o.serial fun a =>
                  if p.target = 2 ^ 48 - 1 then { a with count := a.count + 1 }
                  else { a with placed := mput a.placed o.placedKey (mgetD a.placed o.placedKey 0 + 1) }
              else s
            s.outDone o' st o'.detail)

/-- RX_DATA: a packet of a GET's reply is written into the reserved memory and counted (R292, R295). -/
def execRxData (i : Nat) (s : State) : Host.Outcome State Fault Refusal :=
  .next (s.rxRow i (· == poData) fun s c p d =>
    match s.outOf i c p with
    | none => s
    | some o =>
      if o.quarantined ∨ bit o.bitmap p.index ∨ o.op ≠ poGet ∨ p.msgLen ≠ o.len then s.bump Obj.rxDuplicates
      else
        let w := s.write c .ni permWrite ((niLoc c o.localAddr).adv (256 * p.index)) (d.take p.bytesIn)
        if w.st ≠ .ok then
          let a := (w.s.niq i c).active.find? fun a => a.serial = o.serial
          let s := w.s.outDone o w.st (if w.win then ndWindow else ndNone)
          if w.win then s.freezeNiq i c ((a.map (·.epoch)).getD (s.rd (Obj.protEpoch c))) w.addr else s
        else
          let o' := { o with got := o.got + p.bytesIn, bitmap := o.bitmap + 2 ^ p.index }
          let s := w.s.updOut o fun _ => o'
          let s := if p.lastFlag ∧ o'.got < o'.len then s.bump Obj.rxLastEarly else s
          if o'.got = o'.len then s.outDone o' .ok ndNone else s)

/-! ## Time -/

/-- QUARANTINE_EXPIRY (R293). -/
def execQuarantineExpiry (rx : Bool) (k : Nat) (s : State) : Host.Outcome State Fault Refusal :=
  if rx then .next { s with ni := { s.ni with rxs := s.ni.rxs.filter fun r => !(r.id == k && r.quarantined) } }
  else match s.ni.outs[k]? with
    | none => .next s
    | some o => .next (if o.quarantined then ({ s with ni := { s.ni with outs := s.ni.outs.eraseIdx k } }).fwdNext o.ni else s)

/-- A receive entry is freed without reply: its RP slot is free again. -/
def State.freeRx (s : State) (r : RxMsg) : State :=
  let n := s.niOf r.ni
  let s := s.setNi r.ni { n with rpUsed := n.rpUsed - 1 }
  { s with ni := { s.ni with rxs := s.ni.rxs.filter fun x => x.id != r.id } }

/-- RX_PARTIAL_EXPIRY (R294). -/
def execRxPartialExpiry (id : Nat) (s : State) : Host.Outcome State Fault Refusal :=
  match s.ni.rxs.find? fun r => r.id = id ∧ !r.quarantined ∧ r.got < r.len with
  | none => .next s
  | some r => .next ((s.bump Obj.rxPartialExpired).freeRx r)

/-- NI_OP_TIMEOUT (R297). -/
def execNiOpTimeout (i ctx slot msgId : Nat) (s : State) : Host.Outcome State Fault Refusal :=
  match s.ni.outs.find? fun o => o.ni = i ∧ o.ctx = ctx ∧ o.slot = slot ∧ o.msgId = msgId ∧ !o.quarantined with
  | none => .next s
  | some o => .next (s.outDone o .timeout ndNoReply)

/-- Messages outstanding toward a position, and those that wait to be sent there, complete with DEST_LOST (R296). -/
def State.loseOuts (s : State) (hit : Nat → Bool) (detail : Nat) : State :=
  let there := fun a : Nat => a / 256 == s.rd Obj.ownCatchment && hit (a / 4 % 64)
  let l := s.ni.outs.filter fun o => !o.quarantined && o.waiting.any there
  let w := s.ni.fwdQ.filter fun j => there j.dst
  w.foldl (fun s j => (s.fwdDrop (·.rx == j.rx)).fwdFail j .destLost) (l.foldl (fun s o => s.outDone o .destLost detail) s)

end Sys2Proof.Machine
end

