-- ==== Sys2Proof/Machine/Coll.lean ====
section
/-! DEFINITION. Token dispatch and inboxes, collective sessions, suspect positions, and the disabling, failure and retire of a network interface (R296,
R302 to R311). -/

namespace Sys2Proof.Machine

open Sys2Proof

/-! ## Dispatch -/

/-- Distinct rank and inbox pairs among the valid entries of a destination table, in the order of the table (R309). -/
def NiActive.destPairs (a : NiActive) : List Nat := ((a.dests.filter fun e => bit e.2 31).map fun e => 256 * bits e.2 12 12 + e.2 % 256).dedup

/-- A rank's fabric address by the table of the command's start (R283). -/
def NiActive.rankAddr (a : NiActive) (rank : Nat) : Option Nat :=
  let e := mgetD a.ranks rank 0
  if bit e 31 then some (e % 2 ^ 24) else none

/-- A context's part of a table, by its own index. -/
def ctxTable (m : NMap Nat) (c : Nat) : NMap Nat := (m.filter fun e => decide (4096 * c ≤ e.1 ∧ e.1 < 4096 * (c + 1))).map fun e => (e.1 - 4096 * c, e.2)

/-- One token to an expert (R307): an entry that is not valid counts as a refused token. -/
def State.dispatchOne (s : State) (i c : Nat) (a : NiActive) (k : Nat) : State :=
  let token := k / nSub a.bytes
  let r := s.read c .ni permRead ((niLoc c (nRemote a.bytes)).adv (2 * k)) 2
  if r.st ≠ .ok then (r.s.localFail i c a.serial a.epoch r).updNiActive i c a.serial fun x => { x with issued := true }
  else
    let e := leNat r.data
    let s := r.s.updNiActive i c a.serial fun x => { x with cursor := k + 1 }
    if e = 0xFFFF then s
    else
      let ent := if e < 4096 then mgetD a.dests e 0 else 0
      if !bit ent 31 then s.updNiActive i c a.serial fun x => { x with count := x.count + 1 }
      else match a.rankAddr (bits ent 12 12) with
        | none => s.noRank i c a.serial
        | some d =>
          let t := s.read c .ni permRead ((niLoc c (nLocal a.bytes)).adv (token * nLen a.bytes)) (nLen a.bytes)
          if t.st ≠ .ok then (t.s.localFail i c a.serial a.epoch t).updNiActive i c a.serial fun x => { x with issued := true }
          else
            t.s.issueMsg i c a.serial ⟨[d], d, none, poToken, 0, ent % 256 * 2 ^ 40 + e * 2 ^ 24 + token, nLen a.bytes, 0,
              256 * bits ent 12 12 + ent % 256, t.data⟩

/-- One DONE message (R309). -/
def State.dispatchDone (s : State) (i c : Nat) (a : NiActive) (k pair : Nat) : State :=
  let s := s.updNiActive i c a.serial fun x => { x with cursor := k + 1 }
  match a.rankAddr (pair / 256) with
  | none => s.noRank i c a.serial
  | some d => s.issueMsg i c a.serial ⟨[d], d, none, poDone, 0, pair % 256 * 2 ^ 40, 16, 0, 0, leBytes 4 (mgetD a.placed pair 0) ++ zeros 12⟩

/-- A DISPATCH goes on: its TOKEN messages while there is room for them, and once all have completed its DONE messages (R295, R307, R309). -/
def State.dispatchGo : Nat → State → Nat → Nat → Nat → State
  | 0, s, _, _, _ => s
  | f + 1, s, i, c, serial =>
    match (s.niq i c).active.find? fun a => a.serial = serial ∧ !a.issued with
    | none => s
    | some a =>
      let n := nCount a.bytes * nSub a.bytes
      if s.outsAt i ≥ 8192 then s
      else if a.cursor < n then State.dispatchGo f (s.dispatchOne i c a a.cursor) i c serial
      else if a.cursor = n ∧ a.left ≠ 0 then s
      else match a.destPairs[a.cursor - n]? with
        | some pair => State.dispatchGo f (s.dispatchDone i c a a.cursor pair) i c serial
        | none => s.updNiActive i c serial fun x => { x with issued := true }

/-- Steps that a DISPATCH needs at most. -/
def dispatchFuel (b : Bytes) : Nat := nCount b * nSub b + 4098

/-- A DISPATCH takes both tables as they stand (R283, R307). Every valid entry of the destination table names a rank, to which the command sends a DONE message
(R309): one whose rank is not valid ends the command, and nothing is sent. -/
def State.dispatchStart (s : State) (i c : Nat) (a : NiActive) : State :=
  let a := { a with issued := false, ranks := ctxTable s.ni.ranks c, dests := ctxTable s.ni.dests c }
  if a.destPairs.any fun p => (a.rankAddr (p / 256)).isNone then s.noRank i c a.serial
  else State.dispatchGo (dispatchFuel a.bytes) (s.updNiActive i c a.serial fun _ => a) i c a.serial

/-- DISPATCH: the command starts, or one in progress goes on where a TOKEN's completion made room or was the last (R307, R309). -/
def execDispatch (i c : Nat) (s : State) : Host.Outcome State Fault Refusal :=
  match (s.niq i c).active.find? fun a => nOp a.bytes = cDispatch ∧ !a.issued with
  | some a => .next (s.unlessHeld (State.dispatchGo (dispatchFuel a.bytes) s i c a.serial))
  | none => .next (s.niStart i c (· == cDispatch) fun s a => s.dispatchStart i c a)

/-- INBOX_ARM: arms an inbox with its counts at zero (R308). -/
def execInboxArm (i c : Nat) (s : State) : Host.Outcome State Fault Refusal :=
  .next (s.niStart i c (· == cInboxArm) fun s a =>
    let b := a.bytes
    let x : Inbox := ⟨c, nSub b, nLocal b, nLen b, nRank b, nOperand b, nCompare b % 65536, nTally b, nTallyTile b, nTallyValid b, 0, 0, 0, 0, false⟩
    let l := s.ni.inboxes.filter fun y => !(y.ctx == c && y.num == nSub b)
    ({ s with ni := { s.ni with inboxes := l ++ [x] } }).fireInbox i x)

/-! ## Collective sessions -/

/-- Members of a line, ascending (R303). -/
def Line.members (l : Line) : List Nat := (List.range 8).filter fun m => bit l.mask m
/-- Where a position stands in a line, and the position of a member. -/
def Line.idxOf (l : Line) (pos : Nat) : Nat := if l.axis = 0 then pos % 8 else pos / 8
def Line.posOf (l : Line) (m : Nat) : Nat := if l.axis = 0 then 8 * l.idx + m else 8 * m + l.idx
/-- The shard that a member owns. -/
def Line.shard (l : Line) (m : Nat) : Nat := (l.members.filter (· < m)).length

def ClSession.line (x : ClSession) (stage : Nat) : Line := if stage = 0 then x.line0 else x.line1.getD x.line0
/-- Bytes of one shard of a stage. -/
def ClSession.share (x : ClSession) (stage : Nat) : Nat := x.len / (x.line stage).members.length
/-- 256-byte parts that a stage writes here (R303). -/
def ClSession.expect (x : ClSession) (stage : Nat) : Nat := if x.kind = 1 then x.share stage / 256 else x.len / 256

/-- The key of a part in `parts`: its stage and its byte offset ÷ 256. -/
def clPart (stage off : Nat) : Nat := 2 ^ 24 * stage + off

def State.clSess (s : State) (c n : Nat) : Option ClSession := s.ni.sessions.find? fun x => x.ctx = c ∧ x.num = n

def State.setSess (s : State) (x : ClSession) : State :=
  { s with ni := { s.ni with sessions := updFirst (fun y => y.ctx == x.ctx && y.num == x.num) (fun _ => x) s.ni.sessions } }

/-- Bytes of the engine's buffer that a session reserves (R302). -/
def ClSession.reserved (x : ClSession) : Nat := x.share 0 + (if x.line1.isSome then x.share 1 else 0)
def State.clUsed (s : State) : Nat := (s.ni.sessions.map ClSession.reserved).foldr (· + ·) 0
/-- `cl_buffer_free_kib` follows the reservations. -/
def State.clCount (s : State) : State := s.wr Obj.clBufferFreeKib ((16777216 - s.clUsed) / 1024)

/-- A waiting command of a session, held as NI + 4 × serial, has its outcome (R306). -/
def State.clCmdDone (s : State) (c k : Nat) (st : Status) (detail : Nat) : State :=
  s.updNiActive (k % 4) c (k / 4) fun a => { a.merge st detail with left := a.left - 1 }

/-- CL_CLOSE ends a session (R306). -/
def State.clDrop (s : State) (x : ClSession) : State :=
  ({ s with ni := { s.ni with sessions := s.ni.sessions.filter fun y => !(y.ctx == x.ctx && y.num == x.num) } }).clCount

/-- A CL_CLOSE that waits completes once no invocation runs or waits (R306). -/
def State.clTryClose (s : State) (x : ClSession) : State :=
  match x.closing with
  | some k => if x.running.isNone ∧ x.queued.isEmpty then (s.clDrop x).clCmdDone x.ctx k .ok ndNone else s
  | none => s

/-- An invocation ends with a status other than OK: the session is BROKEN, and invocations that wait are refused with the same status and detail (R306). -/
def State.clBreak (s : State) (x : ClSession) (st : Status) (detail : Nat) : State :=
  let s := match x.running with
    | some k => s.clCmdDone x.ctx k st detail
    | none => s
  let s := x.queued.foldl (fun s k => s.clCmdDone x.ctx k st detail) s
  let x := { x with running := none, queued := [], broken := some (st, detail) }
  (s.setSess x).clTryClose x

/-- A failed access of the member's own memory ends the invocation; a window failure freezes the command queue (R297). -/
def State.clFail (s : State) (x : ClSession) (a : AccR) : State :=
  let k := x.running.getD x.ni
  let e := (((s.niq (k % 4) x.ctx).active.find? fun y => y.serial = k / 4).map (·.epoch)).getD (s.rd (Obj.protEpoch x.ctx))
  let s := s.clBreak x a.st (if a.win then ndWindow else ndNone)
  if a.win then s.freezeNiq (k % 4) x.ctx e a.addr else s

/-- One element of a reduction (R305): `v` stands for the NaN pattern, which the spec leaves open. -/
def clElem (fmt op v a b : Nat) : Nat :=
  let f := if fmt = 0 then fp32 else bf16
  let x := f.dec a
  let y := f.dec b
  if x = .nan ∨ y = .nan then f.nanCode v
  else if op = 0 then f.enc rmRNE 0 v (x.add y)
  else if op = 1 then (if x.lt y then b else a)
  else if y.lt x then b else a

/-- Bytes of one element of a session's format. -/
def ClSession.esz (x : ClSession) : Nat := if x.fmt = 0 then 4 else 2

def clReduceGo (x : ClSession) (fresh : Nat) (first : Bool) (off : Nat) (d : Bytes) : Nat → NMap (BitVec 32) → NMap (BitVec 32)
  | 0, m => m
  | n + 1, m =>
    let m := clReduceGo x fresh first off d n m
    let k := 256 / x.esz * off + n
    let v := leAt d (x.esz * n) x.esz
    mput m k (BitVec.ofNat 32 (if first then v else clElem x.fmt x.op (Config.freeValue (fresh + n)) (mgetD m k 0).toNat v))

/-- Reduce one 256-byte part from a member into an accumulator (R303, R305); the second answer says whether the member had been counted. -/
def ClStage.reduce (g : ClStage) (x : ClSession) (fresh member off : Nat) (d : Bytes) : ClStage × Bool :=
  let h := mgetD g.heard off 0
  if bit h member then (g, true)
  else (⟨clReduceGo x fresh (h == 0) off d (256 / x.esz) g.acc, mput g.heard off (h + 2 ^ member)⟩, false)

/-- The accumulators with one stage replaced. -/
def stageSet (l : List ClStage) (stage : Nat) (g : ClStage) : List ClStage := if stage = 0 then [g, l.getD 1 .empty] else [l.getD 0 .empty, g]

/-- The header bytes of a CL packet (DESIGN CHOICE: the spec gives the fields and not their places): kind and stage, flags, job, invocation, session, byte offset ÷ 256. -/
def clHdr (kind stage slot enc job inv sess off : Nat) : Bytes :=
  bytesOf [leBytes 1 (64 * kind + 32 * stage), leBytes 1 (64 * enc + 16 * slot), leBytes 2 job, leBytes 4 inv, leBytes 1 sess, [0], leBytes 3 off, zeros 7]

def Packet.clKind (p : Packet) : Nat := byteAt p.ni 0 / 64
def Packet.clStage (p : Packet) : Nat := bits (byteAt p.ni 0) 5 1
def Packet.clInv (p : Packet) : Nat := leAt p.ni 4 4
def Packet.clSess (p : Packet) : Nat := byteAt p.ni 8
def Packet.clOff (p : Packet) : Nat := leAt p.ni 10 3

/-- The fixed fields of a CL packet: kind 0 or 1, zero where its header gives zero, and a payload of 256 bytes (R290, R303). -/
def Packet.clOk (p : Packet) : Bool :=
  decide (p.clKind < 2 ∧ byteAt p.ni 0 % 32 = 0 ∧ byteAt p.ni 1 % 16 = 0 ∧ p.units = 16) && !bit (byteAt p.ni 1) 7 && byteAt p.ni 9 == 0 && allZero (slice p.ni 13 7)

/-- Queue one CL packet of a session's present invocation (R303, R305). -/
def State.clSend (s : State) (x : ClSession) (kind stage off dst : Nat) (line : Option Line) (d : Bytes) : State :=
  let slot := s.txSlot x.ctx
  let p : Packet := ⟨5, clsCL, 0, 0, false, dst, s.fabAddr x.ni, 0, 16, 0, 0,
    clHdr kind stage (slot.getD 0) (ofBool slot.isSome) (s.rd (Obj.niJob x.ctx)) x.inv x.num off, fit 256 d, zeros 16⟩
  let p := p.onLine line
  s.queueEg x.ni ⟨x.ctx, s.seal x.ctx slot (p.nonceCl x.inv x.num (64 * kind + 32 * stage) off) p, false⟩

/-- The bytes of one reduced part. -/
def ClSession.partBytes (x : ClSession) (g : ClStage) (off : Nat) : Bytes :=
  bytesOf ((List.range (256 / x.esz)).map fun n => leBytes x.esz (mgetD g.acc (256 / x.esz * off + n) 0).toNat)

/-- The parts of the shard that this member owns: the first one and their number. -/
def State.myShard (s : State) (x : ClSession) (stage : Nat) : Nat × Nat :=
  let l := x.line stage
  let n := x.share stage / 256
  (l.shard (l.idxOf s.pos) * n, n)

/-- Multicast bytes as RESULT packets anchored here (R265, R303). -/
def State.clMulticast (s : State) (x : ClSession) (stage off : Nat) (d : Bytes) : State :=
  let l := x.line stage
  let cs := pktChunks (d.length / 256 + 1) d
  ((List.range cs.length).zip cs).foldl (fun s y => s.clSend x 1 stage (off + y.1) (s.rd Obj.ownCatchment * 256 + 4 * s.pos + l.ni) (some l) y.2) s

/-- A part of the result is written here and counted (R292, R303). -/
def State.clWrite (s : State) (x : ClSession) (stage off : Nat) (d : Bytes) : State :=
  let a := s.write x.ctx .ni permWrite ((niLoc x.ctx x.resAddr).adv (256 * off)) (fit 256 d)
  if a.st ≠ .ok then a.s.clFail x a else a.s.setSess { x with parts := x.parts ++ [clPart stage off] }

/-- Once all contributions are in, the owner multicasts the shard, or writes it locally (R303). -/
def State.clOwner (s : State) (c n : Nat) : State :=
  match s.clSess c n with
  | none => s
  | some x =>
    let g := x.cur.getD x.stage .empty
    let m := s.myShard x x.stage
    let l := x.line x.stage
    if x.running.isNone ∨ x.kind > 1 ∨ !((List.range m.2).all fun k => mgetD g.heard (m.1 + k) 0 == l.mask) then s
    else if s.mustKey c ∧ x.kind = 0 then s.clBreak x .violation ndKey
    else if x.kind = 0 then (List.range m.2).foldl (fun s k => s.clSend x 1 x.stage (m.1 + k) (s.rd Obj.ownCatchment * 256 + 4 * s.pos + l.ni) (some l) (x.partBytes g (m.1 + k))) s
    else (List.range m.2).foldl (fun s k =>
      match s.clSess c n with
      | some y => if y.running.isSome then s.clWrite y y.stage (m.1 + k) (x.partBytes g (m.1 + k)) else s
      | none => s) s

/-- This member's part of one shard: reduced here, or sent to the owner as CONTRIB packets (R303). -/
def State.clContrib (s : State) (c n : Nat) (src : Nat) (m : Nat) : State :=
  match s.clSess c n with
  | none => s
  | some x =>
    let l := x.line x.stage
    let base := l.shard m * x.share x.stage
    if x.running.isNone then s
    else
      let a := s.read c .ni permRead ((niLoc c src).adv base) (x.share x.stage)
      if a.st ≠ .ok then a.s.clFail x a
      else
        let cs := pktChunks (a.data.length / 256 + 1) a.data
        let me := l.idxOf s.pos
        ((List.range cs.length).zip cs).foldl (fun s y =>
          if m = me then
            match s.clSess c n with
            | some z =>
              let g := ((z.cur.getD z.stage .empty).reduce z s.fresh me (base / 256 + y.1) y.2).1
              { s.setSess { z with cur := stageSet z.cur z.stage g } with fresh := s.fresh + 128 }
            | none => s
          else s.clSend x 0 x.stage (base / 256 + y.1) (s.rd Obj.ownCatchment * 256 + 4 * l.posOf m + l.ni) none y.2) a.s

/-- A stage begins (R303): the second one works on the result buffer. The root of a BROADCAST is a member's index in ascending position (R302, R303); a second stage takes
the same index in its own line, which the spec does not say (DESIGN CHOICE). -/
def State.clStageStart (s : State) (c n : Nat) : State :=
  match s.clSess c n with
  | none => s
  | some x =>
    let l := x.line x.stage
    let src := if x.stage = 0 then x.srcAddr else x.resAddr
    let me := l.idxOf s.pos
    if s.mustKey c then s.clBreak x .violation ndKey
    else if l.members.any fun m => (s.blockedPos (l.posOf m)).isSome then s.clBreak x .destLost ndSession
    else if x.kind ≤ 1 then (l.members.foldl (fun s m => s.clContrib c n src m) s).clOwner c n
    else if x.kind = 3 ∧ l.shard me ≠ x.root then s
    else
      let off := if x.kind = 2 then l.shard me * x.share x.stage else 0
      let a := s.read c .ni permRead ((niLoc c src).adv off) (if x.kind = 2 then x.share x.stage else x.len)
      if a.st ≠ .ok then a.s.clFail x a else a.s.clMulticast x x.stage (off / 256) a.data

/-- The present stage has written all it expects: the next stage begins, or the invocation completes locally (R303). -/
def State.clAdvance : Nat → State → Nat → Nat → State
  | 0, s, _, _ => s
  | f + 1, s, c, n =>
    match s.clSess c n with
    | none => s
    | some x =>
      match x.running with
      | none => s
      | some k =>
        if (x.parts.filter fun p => p / 2 ^ 24 = x.stage).length < x.expect x.stage then s
        else if x.stage = 0 ∧ x.line1.isSome then State.clAdvance f ((s.setSess { x with stage := 1 }).clStageStart c n) c n
        else
          let x := { x with running := none }
          ((s.setSess x).clCmdDone c k .ok ndNone).clTryClose x

/-- CL_OPEN (R302). -/
def execClOpen (i c : Nat) (s : State) : Host.Outcome State Fault Refusal :=
  .next (s.niStart i c (· == cClOpen) fun s a =>
    let b := a.bytes
    let k := nCount b
    let o := nOperand b
    let l1 := if bit o 32 then some (lineOf (bits o 16 16)) else none
    let x : ClSession := ⟨c, nSub b, i, nLocal b, nRemote b, nLen b, k % 256, bits k 8 8, bits k 16 8, k / 2 ^ 24, lineOf (o % 65536), l1, [], 0, none, 0, [],
      [.empty, .empty], [.empty, .empty], [], none, none⟩
    if (s.clSess c (nSub b)).isSome then s.updNiActive i c a.serial fun a => a.merge .violation ndMalformed
    else if s.clUsed + x.reserved > 16777216 ∨ (s.ni.sessions.filter fun y => y.ctx == c).length ≥ 16 then
      s.updNiActive i c a.serial fun a => a.merge .timeout ndSession
    else ({ s with ni := { s.ni with sessions := s.ni.sessions ++ [x] } }).clCount)

/-- CL_RUN queues an invocation (R303, R304, R306). -/
def execClRun (i c : Nat) (s : State) : Host.Outcome State Fault Refusal :=
  .next (s.niStart i c (· == cClRun) fun s a =>
    match (s.ni.sessions.find? fun x => x.ctx = c ∧ x.num = nSub a.bytes ∧ x.closing.isNone) with
    | none => s.updNiActive i c a.serial fun a => a.merge .violation ndMalformed
    | some x =>
      match x.broken with
      | some st => s.updNiActive i c a.serial fun a => a.merge st.1 st.2
      | none =>
        if s.mustKey c then s.updNiActive i c a.serial fun a => a.merge .violation ndKey
        else
          let s := s.updNiActive i c a.serial fun a => { a with left := a.left + 1 }
          s.setSess { x with queued := x.queued ++ [4 * a.serial + i] })

/-- CL_INVOCATION_START (R304): the accumulators of the next invocation become those of the present one. -/
def execClInvocationStart (ctx num : Nat) (s : State) : Host.Outcome State Fault Refusal :=
  match s.clSess ctx num with
  | none => .next s
  | some x =>
    match x.queued with
    | [] => .next s
    | k :: rest =>
      if x.running.isSome then .next s
      else
        let x := { x with queued := rest, running := some k, inv := (x.inv + 1) % 2 ^ 32, stage := 0, parts := x.nextParts, nextParts := [],
                          cur := x.nxt, nxt := [.empty, .empty] }
        .next (s.unlessHeld (State.clAdvance 2 ((s.setSess x).clStageStart ctx num) ctx num))

/-- CL_CLOSE (R306). -/
def execClClose (i c : Nat) (s : State) : Host.Outcome State Fault Refusal :=
  .next (s.niStart i c (· == cClClose) fun s a =>
    match (s.ni.sessions.find? fun x => x.ctx = c ∧ x.num = nSub a.bytes ∧ x.closing.isNone) with
    | none => s.updNiActive i c a.serial fun a => a.merge .violation ndMalformed
    | some x =>
      let s := s.updNiActive i c a.serial fun a => { a with left := a.left + 1 }
      let x := { x with closing := some (4 * a.serial + i) }
      (s.setSess x).clTryClose x)

/-- CL_TIMEOUT (R306). -/
def execClTimeout (ctx num : Nat) (s : State) : Host.Outcome State Fault Refusal :=
  match s.clSess ctx num with
  | none => .next s
  | some x => .next (if x.running.isNone then s else s.clBreak x .timeout ndSession)

/-- A CL packet of a session (R303, R306): one of neither the present nor the next invocation is counted; `k` takes the session and whether it is the next. -/
def State.clPacket (s : State) (i : Nat) (kind : Nat → Bool) (k : State → ClSession → Packet → Bytes → Bool → State) : State :=
  s.rxPacket i (fun p => p.cls == clsCL && kind p.clKind) (fun _ p => p.nonceCl p.clInv p.clSess (byteAt p.ni 0) p.clOff) fun s c p d =>
    if !p.clOk then s.bump Obj.rxCheckFail
    else match s.clSess c p.clSess with
      | none => s.bump Obj.clUnexpected
      | some x =>
        if x.broken.isSome ∨ (p.clStage = 1 ∧ x.line1.isNone) ∨ 256 * p.clOff ≥ x.len then s.bump Obj.clUnexpected
        else if p.clInv = x.inv then k s x p d false
        else if p.clInv = (x.inv + 1) % 2 ^ 32 then k s x p d true
        else s.bump Obj.clUnexpected

/-- RX_CONTRIB (R303, R304). -/
def execRxContrib (i : Nat) (s : State) : Host.Outcome State Fault Refusal :=
  .next (s.clPacket i (· == 0) fun s x p d next =>
    let l := x.line p.clStage
    let m := s.myShard x p.clStage
    let from_ := l.idxOf (p.src / 4 % 64)
    if x.kind > 1 ∨ !(decide (m.1 ≤ p.clOff ∧ p.clOff < m.1 + m.2)) ∨ !bit l.mask from_ ∨ l.posOf from_ ≠ p.src / 4 % 64 then s.bump Obj.clUnexpected
    else
      let acc := if next then x.nxt else x.cur
      let g := (acc.getD p.clStage .empty).reduce x s.fresh from_ p.clOff d
      if g.2 then s.bump Obj.rxDuplicates
      else
        let acc := stageSet acc p.clStage g.1
        let s := { s.setSess (if next then { x with nxt := acc } else { x with cur := acc }) with fresh := s.fresh + 128 }
        if next ∨ p.clStage ≠ x.stage then s else State.clAdvance 2 (s.clOwner x.ctx x.num) x.ctx x.num)

/-- RX_RESULT (R303); a packet of a kind that no row names is discarded here too (R290). -/
def execRxResult (i : Nat) (s : State) : Host.Outcome State Fault Refusal :=
  .next (s.clPacket i (· != 0) fun s x p d next =>
    let k := clPart p.clStage p.clOff
    if (if next then x.nextParts else x.parts).contains k ∨ (!next ∧ x.running.isNone) then s.bump Obj.rxDuplicates
    else
      let a := s.write x.ctx .ni permWrite ((niLoc x.ctx x.resAddr).adv (256 * p.clOff)) (fit 256 d)
      if a.st ≠ .ok then a.s.clFail x a
      else if next then a.s.setSess { x with nextParts := x.nextParts ++ [k] }
      else State.clAdvance 2 (a.s.setSess { x with parts := x.parts ++ [k] }) x.ctx x.num)

/-- Running invocations with a member at a lost or long suspect position end (R306). -/
def State.loseSessions (s : State) (hit : Nat → Bool) : State :=
  (s.ni.sessions.filter fun x => x.running.isSome && ((x.line0 :: x.line1.toList).any fun l => l.members.any fun m => hit (l.posOf m))).foldl
    (fun s x => s.clBreak x .destLost ndSession) s

/-- SUSPECT_TIMEOUT (R296, R306). -/
def execSuspectTimeout (pos : Nat) (s : State) : Host.Outcome State Fault Refusal :=
  if bit (s.rd Obj.suspectMask) pos ∧ !s.ni.suspect50.contains pos then
    let s := { s with ni := { s.ni with suspect50 := s.ni.suspect50 ++ [pos] } }
    .next ((s.loseOuts (· == pos) ndSuspect).loseSessions (· == pos))
  else .next s

/-! ## The states of an NI -/

/-- Messages, commands and invocations of an NI end with a status; unissued parts of commands are not issued (R24, R310). -/
def State.niStopAll (s : State) (i : Nat) (st : Status) : State :=
  let s := (s.ni.outs.filter fun o => o.ni == i && !o.quarantined).foldl (fun s o => s.outDone o st ndNone) s
  let s := (s.ni.sessions.filter fun x => x.ni == i).foldl (fun s x => s.clBreak x st ndNone) s
  (List.range 64).foldl (fun s c =>
    let q := s.niq i c
    q.active.foldl (fun s a =>
      let a := if a.ready then a else a.merge st ndNone
      s.niEnd i c a.serial a.bytes a.task a.origin a.status a.detail a.bytesDone a.count) (s.setNiq i c { q with active := [] })) s

/-- An NI sends nothing more: its egress queue is discarded. -/
def State.dropEgress (s : State) (i : Nat) : State :=
  let n := s.niOf i
  s.setNi i { n with egress := [], rpUsed := n.rpUsed - (n.egress.filter (·.relRp)).length }

/-- Commands that have not started and posts that wait end with a status (R310). -/
def State.niDropAll (s : State) (i : Nat) (st : Status) (cause : Nat) : State :=
  (List.range 64).foldl (fun s c =>
    let q := s.niq i c
    ((s.setNiq i c { q with postQ := [] }).postsDone q.postQ st cause).niDropQueue i c st) s

def State.quiesceNi (s : State) (i : Nat) : State := (s.goState (Obj.niState i) 0x0A i ustQuiescing).niDropAll i .abortedDisabled causeDisabled

/-- Nothing of an NI's own work remains, nor a message already begun (R24, R310). -/
def State.niDrained (s : State) (i : Nat) : Bool :=
  !(s.ni.outs.any fun o => o.ni == i && !o.quarantined) && !(s.ni.rxs.any fun r => r.ni == i && !r.quarantined) && (s.niOf i).egress.isEmpty &&
    (List.range 64).all fun c => (s.niq i c).queue.isEmpty && (s.niq i c).active.isEmpty && (s.niq i c).recs.isEmpty && (s.niq i c).postQ.isEmpty

def State.endNi (s : State) (i : Nat) : State := if s.niDrained i then s.goState (Obj.niState i) 0x0A i ustDisabled else s

/-- Messages that an NI has begun to receive end with it: their entries are free, without reply (R310). -/
def State.dropRxs (s : State) (i : Nat) : State :=
  let n := s.niOf i
  let s := s.setNi i { n with fwUsed := n.fwUsed - (s.ni.fwdQ.filter fun j => j.ni == i).length }
  let s := { s with ni := { s.ni with fwdQ := s.ni.fwdQ.filter fun j => j.ni != i } }
  (s.ni.rxs.filter fun r => r.ni == i && !r.quarantined).foldl (fun s r => s.freeRx r) s

def State.graceEndNi (s : State) (i : Nat) : State := (((s.niStopAll i .abortedDisabled).dropRxs i).dropEgress i).endNi i

/-- An NI fails (R21, R28): what it holds completes with ABORTED_DISABLED. -/
def State.failNi (s : State) (i : Nat) : State :=
  (((((s.goState (Obj.niState i) 0x0A i ustFailed).addFail 0x0A i).niStopAll i .abortedDisabled).niDropAll i .abortedDisabled causeDisabled).dropRxs i).dropEgress i

/-- A disable command for an NI (R27, R310). -/
def State.disableNi (s : State) (i : Nat) : State × Nat := (if s.rd (Obj.niState i) = ustActive then s.quiesceNi i else s, rOk)

def execNiDisable (w : Who) (i : Nat) (s : State) : Host.Outcome State Fault Refusal :=
  .next (s.ctl w (isOpCus w) fun s => if i ≥ 4 then (s, rNoObject) else s.disableNi i)

/-- An enable command for an NI (R27, R310). -/
def State.enableNi (s : State) (i : Nat) : State × Nat :=
  let st := s.rd (Obj.niState i)
  if st = ustActive then (s, rOk) else if st = ustDisabled ∧ s.mastersMay then (s.goState (Obj.niState i) 0x0A i ustActive, rOk) else (s, rRefused)

def execNiEnable (w : Who) (i : Nat) (s : State) : Host.Outcome State Fault Refusal :=
  .next (s.ctl w (isOpCus w) fun s => if i ≥ 4 then (s, rNoObject) else s.enableNi i)

/-- NI_FAIL (R310). -/
def execNiFail (i : Nat) (s : State) : Host.Outcome State Fault Refusal :=
  .next (if i ≥ 4 ∨ s.rd (Obj.niState i) = ustFailed then s else s.failNi i)

/-! ## Retire -/

/-- Write a retire's record while there is room, else count it (R311). -/
def State.niRetireRec (s : State) (i c : Nat) (r : Bytes) : State :=
  if s.niCqFull i c then s.bump Obj.niqRetireRecordsDropped else s.niPutRecord i c r

/-- The commands of a context at one NI end (R311). -/
def State.niRetireQueue (s : State) (i c : Nat) : State :=
  let q := s.niq i c
  let fin := fun (s : State) (serial : Nat) (b : Bytes) (o : Option Origin) (a : NiActive) =>
    let s := match o with
      | some o => s.remotePostDone o a.status a.detail a.task
      | none => if nTallyValid b ∧ nOp b ≠ cInboxArm then s.decNow ⟨.ni i, nTallyTile b, nTally b, 1, a.status, causeNone, c⟩ else s
    let r := niRecord (nTag b) a.status.code a.detail i a.bytesDone a.count
    let q := s.niq i c
    s.setNiq i c { q with recs := insNi (serial, r) q.recs }
  let s := s.setNiq i c { q with queue := [], active := [], postQ := [] }
  let s := q.active.foldl (fun s a => fin s a.serial a.bytes a.origin (if a.ready then a else a.merge .abortedRetired ndNone)) s
  let s := q.queue.foldl (fun s d => fin s d.serial d.bytes d.origin ⟨d.serial, d.bytes, 0, none, [], .abortedRetired, ndNone, 0, 0, 0, [], true, 0, [], []⟩) s
  let recs := (s.niq i c).recs
  let s := s.setNiq i c { s.niq i c with recs := [] }
  (recs.foldl (fun s r => s.niRetireRec i c r.2) s).postsDone q.postQ .abortedRetired causeRetired

/-- A context's packets, entries and messages at one NI end (R311). -/
def State.niRetirePackets (s : State) (i c : Nat) : State :=
  let n := s.niOf i
  let gone := n.egress.filter fun e => e.ctx == c
  let open_ := (s.ni.rxs.filter fun r => r.ni == i && r.ctx == c && !r.quarantined).length
  let fw := (s.ni.outs.filter fun o => o.ni == i && o.ctx == c && !o.quarantined && o.forRx.isSome).length +
    (s.ni.fwdQ.filter fun j => j.ni == i && j.ctx == c).length
  let s := s.setNi i { n with egress := n.egress.filter (fun e => e.ctx != c), rpUsed := n.rpUsed - (gone.filter (·.relRp)).length - open_, fwUsed := n.fwUsed - fw }
  s.bumpBy Obj.txRetireDrop gone.length

/-- A context retires at every NI and at the collective engine (R311). -/
def State.niRetire (s : State) (c : Nat) : State :=
  let s := (List.range 4).foldl (fun s i => (s.niRetirePackets i c).niRetireQueue i c) s
  let n := s.ni
  let outs := n.outs.map fun o => if o.ctx = c ∧ !o.quarantined then { o with quarantined := true, status := .abortedRetired, waiting := [] } else o
  let s := { s with ni := { n with outs := outs, rxs := n.rxs.filter (fun r => r.ctx != c), sessions := n.sessions.filter (fun x => x.ctx != c),
                                   inboxes := n.inboxes.filter (fun b => b.ctx != c), fwdQ := n.fwdQ.filter (fun j => j.ctx != c) } }
  let s := (s.clCount).wr (Obj.niOutstanding c) 0
  (List.range 4).foldl (fun s k => if s.slotSt c k = slotEmpty then s else s.setSlot c k slotRetiring) s

end Sys2Proof.Machine
end

