-- ==== Sys2Proof/Machine/Framing.lean ====
section
/-! DEFINITION. Packets, trailers and control flits as bytes: the flit kind byte, the packet's layout and its check, the control flit's layout and its check
(R222, R249). -/

namespace Sys2Proof.Machine

open Sys2Proof

/-- Flit kinds (R222): bits [7:4] of the kind byte. -/
abbrev kindIdle : Nat := 0x0
abbrev kindControl : Nat := 0x3
abbrev kindPacket : Nat := 0x9

/-- The packet trailer as a 128-bit little-endian field, without `ll_crc` in bits [127:96] (R222). -/
def Trailer.bytes (t : Trailer) : Bytes :=
  leBytes 12 (256 * ofBool t.ackValid + fld t.poolCredit 16 16 + fld t.creditFlits 32 8 + fld t.creditVc 40 8 + fld t.ack 48 24 + fld t.seq 72 24)

/-- The trailer's fields; every reserved bit must be 0 (R222, R223). -/
def Trailer.ofBytes (b : Bytes) : Trailer :=
  let v := leAt b 0 12
  ⟨bits v 72 24, bits v 48 24, bit v 8, bits v 40 8, bits v 32 8, bits v 16 16, bits v 0 8 == 0 && bits v 9 7 == 0⟩

/-- The route byte (R249): class code, level, epoch parity, pool. -/
def Packet.routeByte (p : Packet) : Nat := fld p.cls 5 3 + fld p.level 2 3 + fld p.parity 1 1 + ofBool p.pool

/-- The 32-byte header, byte 0 the flit kind byte (R222, R249). -/
def Packet.header (p : Packet) : Bytes :=
  leBytes 1 (16 * kindPacket + p.flits) ++ leBytes 1 p.routeByte ++ leBytes 3 p.dst ++ leBytes 3 p.src ++ leBytes 1 p.flags ++ leBytes 1 p.units ++
    leBytes 1 p.aux0 ++ leBytes 1 p.aux1 ++ fit 20 p.ni

/-- A packet before its trailer: header, payload, zero padding up to whole flits, tag (R249). -/
def Packet.body (p : Packet) : Bytes := fit (64 * p.flits - 32) (p.header ++ p.payload) ++ fit 16 p.tag

/-- A packet on the line: its flits, with `ll_crc` over every byte before it (R222, R249). -/
def Packet.bytes (p : Packet) (t : Trailer) : Bytes :=
  let b := p.body ++ t.bytes
  b ++ leBytes 4 (crc32c b)

/-- The packet that whole flits spell (R249). A payload that its units say is longer than the packet is cut at the tag; R251 discards it. -/
def Packet.ofBytes (b : Bytes) : Packet :=
  let units := byteAt b 9
  let r := byteAt b 1
  { flits := byteAt b 0 % 16, cls := bits r 5 3, level := bits r 2 3, parity := bits r 1 1, pool := bit r 0, dst := leAt b 2 3, src := leAt b 5 3, flags := byteAt b 8,
    units := units, aux0 := byteAt b 10, aux1 := byteAt b 11, ni := slice b 12 20, payload := slice b 32 (min (16 * units) (b.length - 64)),
    tag := slice b (b.length - 32) 16 }

/-- A control flit on the line (R222). -/
def CtlFlit.bytes (f : CtlFlit) : Bytes :=
  let b := leBytes 1 (16 * kindControl) ++ leBytes 1 f.op ++ zeros 2 ++ leBytes 4 (f.ack % 2 ^ 24) ++ leBytes 4 (f.replayFrom % 2 ^ 24) ++ leBytes 1 f.mapLogical ++
    leBytes 1 f.mapPosition ++ leBytes 2 f.mapAfter ++ fit 40 (f.credits.map fun (n : Nat) => BitVec.ofNat 8 n) ++ leBytes 4 f.poolCredit
  b ++ leBytes 4 (crc32c b)

/-- The control flit that a flit spells, where `ctl_crc` matches, its reserved bytes and bits are 0 and its op is one of the four (R222). -/
def CtlFlit.ofBytes (b : Bytes) : Option CtlFlit :=
  if leAt b 60 4 ≠ crc32c (b.take 60) ∨ leAt b 2 2 ≠ 0 ∨ byteAt b 7 ≠ 0 ∨ byteAt b 11 ≠ 0 ∨ byteAt b 1 < 1 ∨ byteAt b 1 > 4 then none
  else some ⟨byteAt b 1, leAt b 4 3, leAt b 8 3, byteAt b 12, byteAt b 13, leAt b 14 2, (slice b 16 40).map fun x => x.toNat, leAt b 56 4⟩

/-- What stands at the front of a link's received flits. -/
inductive LinkFrame where
  /-- Nothing, or a packet that has not been received whole. -/
  | wait
  /-- A control flit that passes its checks. -/
  | ctl (f : CtlFlit)
  /-- A packet whose codewords have all decoded and whose `ll_crc` matches. -/
  | pkt (p : Packet) (t : Trailer)
  /-- A packet or flit that is treated as a CRC failure, with the sequence number where its trailer was received (R222, R223). -/
  | bad (seq : Option Nat)
  /-- A control flit that fails its own check: it is dropped, and no packet is lost with it (DESIGN CHOICE). -/
  | badCtl
  deriving DecidableEq, Repr

/-- Idle flits between frames carry nothing (R222). -/
def dropIdle : List (Option Bytes) → List (Option Bytes)
  | [] => []
  | none :: l => none :: l
  | some f :: l => if byteAt f 0 = 16 * kindIdle then dropIdle l else some f :: l

/-- The first frame of received flits, a lost flit being `none`, and the flits after it (R222, R223). -/
def frameOf (l : List (Option Bytes)) : LinkFrame × List (Option Bytes) :=
  match dropIdle l with
  | [] => (.wait, [])
  | none :: r => (.bad none, r)
  | some f :: r =>
    let k := byteAt f 0
    let n := k % 16
    if k = 16 * kindControl then
      match CtlFlit.ofBytes f with
      | some c => (.ctl c, r)
      | none => (.badCtl, r)
    else if k / 16 ≠ kindPacket ∨ n < 1 ∨ n > 5 then (.bad none, r)
    else if r.length + 1 < n then (.wait, some f :: r)
    else
      let q := (some f :: r).take n
      let rest := r.drop (n - 1)
      if q.any (·.isNone) then (.bad none, rest)
      else
        let b := bytesOfFlits q
        let t := Trailer.ofBytes (b.drop (b.length - 16))
        if leAt b (b.length - 4) 4 = crc32c (b.take (b.length - 4)) ∧ t.rsvZero then (.pkt (Packet.ofBytes b) t, rest) else (.bad (some t.seq), rest)
where
  /-- The bytes of received flits in order. -/
  bytesOfFlits : List (Option Bytes) → Bytes
    | [] => []
    | f :: l => f.getD [] ++ bytesOfFlits l

end Sys2Proof.Machine
end

