-- ==== Sys2Proof/Machine/Fec.lean ====
section
/-! DEFINITION. Forward error correction of the external links: the two Reed-Solomon codes, their encoder and decoder, the striping of a codeword over
the logical lanes, and the scrambling and Gray coding of a lane (R217, R220, R221). -/

namespace Sys2Proof.Machine

/-- A Reed-Solomon code of R220: bits of a symbol, field polynomial, symbols of a codeword, data symbols, symbols it corrects. -/
structure RsCode where
  w : Nat
  poly : Nat
  n : Nat
  k : Nat
  t : Nat
  deriving DecidableEq, Repr

/-- RS(136,128) over GF(2^8) with x^8 + x^4 + x^3 + x^2 + 1, of the board and rack-copper classes (R220). -/
def rsElectrical : RsCode := ⟨8, 0x11D, 136, 128, 4⟩

/-- RS(544,512) over GF(2^10) with x^10 + x^3 + 1, of the optical class (R220). -/
def rsOptical : RsCode := ⟨10, 0x409, 544, 512, 16⟩

/-- The code of an external port (R212, R220). -/
def rsOf (p : Nat) : RsCode := if p < 14 then rsElectrical else rsOptical

/-! ## The field; addition is the exclusive or -/

/-- `a` times α. -/
def RsCode.xtime (c : RsCode) (a : Nat) : Nat := if 2 * a < 2 ^ c.w then 2 * a else (2 * a) ^^^ c.poly

def RsCode.mulGo (c : RsCode) : Nat → Nat → Nat → Nat → Nat
  | 0, _, _, acc => acc
  | f + 1, a, b, acc => c.mulGo f (c.xtime a) (b / 2) (if b % 2 = 1 then acc ^^^ a else acc)

def RsCode.mul (c : RsCode) (a b : Nat) : Nat := if a = 0 ∨ b = 0 then 0 else c.mulGo c.w a b 0

def RsCode.powGo (c : RsCode) : Nat → Nat → Nat → Nat → Nat
  | 0, _, _, acc => acc
  | f + 1, a, e, acc => c.powGo f (c.mul a a) (e / 2) (if e % 2 = 1 then c.mul acc a else acc)

/-- `a` to a power below 2^11. -/
def RsCode.pow (c : RsCode) (a e : Nat) : Nat := c.powGo 11 a e 1

/-- α to a power; the order of α divides 2^w - 1. -/
def RsCode.alpha (c : RsCode) (e : Nat) : Nat := c.pow 2 (e % (2 ^ c.w - 1))

/-- The inverse of a non-zero element. -/
def RsCode.inv (c : RsCode) (a : Nat) : Nat := c.pow a (2 ^ c.w - 2)

/-- A polynomial, highest degree first, at a point. -/
def RsCode.horner (c : RsCode) (l : List Nat) (x : Nat) : Nat := l.foldl (fun acc v => c.mul acc x ^^^ v) 0

/-- A polynomial, lowest degree first, at a point. -/
def RsCode.eval (c : RsCode) (l : List Nat) (x : Nat) : Nat := c.horner l.reverse x

/-! ## The code -/

/-- The generator: the product of x - α^i for the first `m` powers, lowest degree first (R220). -/
def RsCode.gen (c : RsCode) : Nat → List Nat
  | 0 => [1]
  | m + 1 => List.zipWith (fun (a b : Nat) => a ^^^ b) (0 :: c.gen m) ((c.gen m).map (fun (v : Nat) => c.mul (c.alpha m) v) ++ [0])

/-- The check symbols of data symbols: the remainder of the data times x^(n-k) by the generator, highest degree first. -/
def RsCode.checks (c : RsCode) (d : List Nat) : List Nat :=
  let m := c.n - c.k
  let g := (c.gen m).reverse.drop 1
  d.foldl (fun (r : List Nat) v =>
    let q := r.headD 0 ^^^ v
    List.zipWith (fun (a b : Nat) => a ^^^ b) (r.drop 1 ++ [0]) (g.map fun (x : Nat) => c.mul q x)) (List.replicate m 0)

/-- The systematic codeword of data symbols, data first (R220). The first symbol is the coefficient of the highest degree (DEDUCED: data symbols first). -/
def RsCode.encode (c : RsCode) (d : List Nat) : List Nat := d ++ c.checks d

/-- The syndromes of a word: its value at each root of the generator. -/
def RsCode.syndromes (c : RsCode) (r : List Nat) : List Nat := (List.range (c.n - c.k)).map fun j => c.horner r (c.alpha j)

/-- Whether a word is a codeword: of the code's length, and zero at every root of the generator. -/
def RsCode.isWord (c : RsCode) (r : List Nat) : Bool := r.length == c.n && (c.syndromes r).all fun v => v == 0

/-- The state of the search for the error locator. -/
structure RsLoc where
  lam : List Nat
  prev : List Nat
  len : Nat
  gap : Nat
  disc : Nat

/-- `a` plus `v` times x^m times `b`, lowest degree first. -/
def RsCode.addShift (c : RsCode) (a b : List Nat) (m v : Nat) : List Nat :=
  let b := List.replicate m 0 ++ b.map fun (x : Nat) => c.mul v x
  (List.range (max a.length b.length)).map fun i => a.getD i 0 ^^^ b.getD i 0

/-- One step of the Berlekamp-Massey recurrence at syndrome `i`. -/
def RsCode.locStep (c : RsCode) (syn : List Nat) (x : RsLoc) (i : Nat) : RsLoc :=
  let d := (List.range (x.len + 1)).foldl (fun (acc : Nat) j => acc ^^^ c.mul (x.lam.getD j 0) (if j ≤ i then syn.getD (i - j) 0 else 0)) 0
  if d = 0 then { x with gap := x.gap + 1 }
  else
    let lam := c.addShift x.lam x.prev x.gap (c.mul d (c.inv x.disc))
    if 2 * x.len ≤ i then ⟨lam, x.lam, i + 1 - x.len, 1, d⟩ else { x with lam := lam, gap := x.gap + 1 }

/-- The error locator of syndromes, lowest degree first, and the number of errors it stands for. -/
def RsCode.locator (c : RsCode) (syn : List Nat) : List Nat × Nat :=
  let x := (List.range syn.length).foldl (fun x i => c.locStep syn x i) ⟨[1], [1], 0, 1, 1⟩
  (x.lam, x.len)

/-- The error of each symbol, by the locator and the syndromes: 0 where the locator has no root. -/
def RsCode.errors (c : RsCode) (syn lam : List Nat) : List Nat :=
  let omega := (List.range syn.length).map fun i => (List.range (i + 1)).foldl (fun (acc : Nat) j => acc ^^^ c.mul (lam.getD j 0) (syn.getD (i - j) 0)) 0
  let dlam := (List.range (lam.length - 1)).map fun i => if i % 2 = 0 then lam.getD (i + 1) 0 else 0
  (List.range c.n).map fun i =>
    let e := c.n - 1 - i
    let y := c.alpha (2 ^ c.w - 1 - e % (2 ^ c.w - 1))
    if c.eval lam y ≠ 0 then 0 else c.mul (c.alpha e) (c.mul (c.eval omega y) (c.inv (c.eval dlam y)))

/-- The decoder (R220, R221): the corrected codeword, where one lies within the number of symbols that the code corrects. -/
def RsCode.decode (c : RsCode) (r : List Nat) : Option (List Nat) :=
  if c.isWord r then some r
  else
    let syn := c.syndromes r
    let l := c.locator syn
    let v := List.zipWith (fun (a b : Nat) => a ^^^ b) r (c.errors syn l.1)
    if c.isWord v ∧ l.2 ≤ c.t ∧ ((List.zip r v).filter fun p => p.1 != p.2).length ≤ c.t then some v else none

/-! ## Symbols, bytes and lanes -/

/-- Bytes of data symbols: most significant bit first (R217), so 4 symbols of 10 bits are 5 bytes. -/
def RsCode.toBytes (c : RsCode) (d : List Nat) : Bytes :=
  if c.w = 8 then d.map fun (v : Nat) => BitVec.ofNat 8 v
  else (List.range (d.length / 4)).flatMap fun i => beBytes 5 ((List.range 4).foldl (fun a j => 1024 * a + d.getD (4 * i + j) 0) 0)

/-- The data symbols of bytes. -/
def RsCode.ofBytes (c : RsCode) (b : Bytes) : List Nat :=
  if c.w = 8 then b.map fun x => x.toNat
  else (List.range (b.length / 5)).flatMap fun i =>
    let v := beNat ((b.drop (5 * i)).take 5)
    [v / 2 ^ 30, v / 2 ^ 20 % 1024, v / 2 ^ 10 % 1024, v % 1024]

/-- The logical lanes that carried the corrected bits of a symbol: PAM4 symbol j of a codeword lies on lane j mod 16 (R220). -/
def RsCode.lanesOf (c : RsCode) (i err : Nat) : List Nat :=
  let h := c.w / 2
  (List.range h).filterMap fun j => if err / 4 ^ (h - 1 - j) % 4 = 0 then none else some ((h * i + j) % 16)

/-! ## Lanes on the line (R217) -/

/-- A PAM4 level and the two bits it stands for, by the reflected Gray code 00, 01, 11, 10 (PRESUMED: R217 says Gray coding); the map is its own inverse. -/
def gray (d : Nat) : Nat := if d = 2 then 3 else if d = 3 then 2 else d

/-- Bits of a symbol of `w` bits two by two, most significant first, and the symbol again (R217). -/
def dibitsOf (n v : Nat) : List Nat := (List.range n).map fun i => v / 4 ^ (n - 1 - i) % 4
def ofDibits (l : List Nat) : Nat := l.foldl (fun a d => 4 * a + d) 0

/-- The next 34 bits of the additive scrambler x^58 + x^39 + 1, and its 58 bits after them, the newest lowest: each bit is the sum of those 58 and 39 before it (R217). -/
def scrStep (st : Nat) : Nat × Nat :=
  let k := (st / 2 ^ 24) ^^^ (st / 2 ^ 5 % 2 ^ 34)
  (k, (st * 2 ^ 34 + k) % 2 ^ 58)

/-- A lane's bits, in `n` runs of 17 pairs, under the scrambler, and its bits after them. Scrambling twice from one state gives the bits back. -/
def scrLane : Nat → Nat → List Nat → List Nat × Nat
  | 0, st, _ => ([], st)
  | n + 1, st, d =>
    let r := scrStep st
    let o := scrLane n r.2 (d.drop 17)
    (dibitsOf 17 (ofDibits ((d ++ List.replicate 17 0).take 17) ^^^ r.1) ++ o.1, o.2)

/-- A list in rows of `n`. -/
def rowsOf {α : Type} (n : Nat) : Nat → List α → List (List α)
  | 0, _ => []
  | f + 1, l => l.take n :: rowsOf n f (l.drop n)

/-- Runs of 17 pairs that one codeword puts on each lane (R220: 68 or 340 bits). -/
def RsCode.runs (c : RsCode) : Nat := c.n * c.w / 16 / 34

/-- The 16 logical lanes of codewords: PAM4 symbols round-robin (R220). -/
def RsCode.stripe (c : RsCode) (words : List (List Nat)) : List (List Nat) :=
  let d := words.flatten.flatMap (dibitsOf (c.w / 2))
  let rows := rowsOf 16 (d.length / 16) d
  (List.range 16).map fun k => rows.map fun r => r.getD k 0

/-- The symbols of a codeword from its 16 logical lanes (R220). -/
def RsCode.gather (c : RsCode) (lanes : List (List Nat)) : List Nat :=
  let d := (List.range (17 * c.runs)).flatMap fun i => lanes.map fun l => l.getD i 0
  (rowsOf (c.w / 2) c.n d).map ofDibits

/-- The codewords that carry a string of flits; what the last of them lacks is IDLE flits (R219, R222). -/
def RsCode.words (c : RsCode) (b : Bytes) : List (List Nat) :=
  let per := c.k * c.w / 8
  let n := (b.length + per - 1) / per
  (rowsOf per n (fit (per * n) b)).map fun d => c.encode (c.ofBytes d)

/-- The flits of a string of bytes. -/
def flitsOf : Nat → Bytes → List Bytes
  | 0, _ => []
  | n + 1, b => fit 64 b :: flitsOf n (b.drop 64)

/-- What a received word gives: its flits, the number of symbols corrected, and the logical lanes that carried them; or nothing (R221). -/
def RsCode.receive (c : RsCode) (r : List Nat) : Option (List Bytes × Nat × List Nat) :=
  (c.decode r).map fun v =>
    let errs := List.zipWith (fun (a b : Nat) => a ^^^ b) r v
    (flitsOf (c.k * c.w / 512) (c.toBytes (v.take c.k)), (errs.filter (· != 0)).length,
      (List.range c.n).flatMap fun i => c.lanesOf i (errs.getD i 0))

end Sys2Proof.Machine
end

