-- ==== Sys2Proof/Machine/Line.lean ====
section
/-! DEFINITION. What an external port puts on its lanes (R216 to R218, R220, R236). -/

namespace Sys2Proof.Machine

open Sys2Proof

/-- The pairs of bits that a transmit position sends with the logical lanes `lanes` (R216, R218, R236): its lane's, those of a lane it copies, the idle pattern on a SPARE
position, and nothing on any other. -/
def State.onPosition (s : State) (p i : Nat) (lanes : List (List Nat)) : Option (List Nat) :=
  let k := s.rd (Obj.laneLogical p i 0)
  if k < 16 then lanes[k]?
  else match (s.link p).copies.find? fun c => c.2 == i with
    | some c => lanes[c.1]?
    | none => if s.rd (Obj.laneState p i 0) = ustSpare then some (List.replicate ((lanes.headD []).length) 0) else none

/-- Flits leave on a port (R217, R220, R222): in codewords, striped over the logical lanes, each position's bits scrambled and Gray coded. Codewords that carry nothing else than
IDLE flits have no place in the model (DESIGN CHOICE). -/
def State.sendFlits (s : State) (p : Nat) (b : Bytes) : State :=
  let c := rsOf p
  let w := c.words b
  let lanes := c.stripe w
  let l := s.link p
  let out := (List.range 18).map fun i => (s.onPosition p i lanes).map (scrLane (c.runs * w.length) (mgetD l.txScr i (Config.scrambleSeed i).toNat))
  let scr := (out.mapIdx fun i o => (i, o)).filterMap fun x => x.2.map fun o => (x.1, o.2)
  (s.setLink p { l with txScr := scr.foldl (fun m x => mput m x.1 x.2) l.txScr }).emit
    (.flits p b (out.map fun o => (o.map fun o => o.1.map gray).getD []))

end Sys2Proof.Machine
end

