-- ==== Sys2Proof/Machine/Router.lean ====
section
/-! DEFINITION. The fabric router: packets, credits, routing, multicast, arbitration, buffer banks and route banks (R248 to R279), and the entry of agent
messages into the agent's receive ring (R314, R316). -/

namespace Sys2Proof.Machine

open Sys2Proof

/-- Link states (R247). -/
abbrev linkDown : Nat := 0
abbrev linkTraining : Nat := 1
abbrev linkUp : Nat := 2
abbrev linkMiswired : Nat := 3

def Packet.multicast (p : Packet) : Bool := bit p.flags 7
def Packet.minimalOnly (p : Packet) : Bool := bit p.flags 6
def Packet.probe (p : Packet) : Bool := bit p.flags 5

/-- The parts of a fabric address (R249). -/
def adrCat (a : Nat) : Nat := a / 256 % 65536
def adrPos (a : Nat) : Nat := a / 4 % 64
def adrNi (a : Nat) : Nat := a % 4

/-- The packets of R251 that an input discards. -/
def Packet.malformed (p : Packet) : Bool :=
  decide (p.cls ≥ 5) || decide (p.units > 16) || decide (p.flits ≠ (16 * p.units + 127) / 64) || decide (p.flags % 32 ≠ 0) ||
    decide (p.payload.length ≠ 16 * p.units) ||
    (p.multicast && (p.probe || decide (p.aux0 = 0) || decide (p.cls = clsFW) || decide (p.cls = clsRP) || decide (bits p.aux1 3 4 ≠ 0))) ||
    (p.probe && (decide (p.cls ≠ clsMG) || decide (p.aux0 > 17)))

/-- Agent message types (R314 and the steward's messages of R368). -/
def mgKnown (t : Nat) : Bool := decide (1 ≤ t ∧ t ≤ 0x12) || decide (0x20 ≤ t ∧ t ≤ 0x24)

/-- Whether the bytes of a payload from `a` to before `b` are zero. -/
def AgentMsg.zeroAt (m : AgentMsg) (a b : Nat) : Bool := allZero (slice m.payload a (b - a))

/-- The reserved fields of a message's own part, by its type (R314, R370): what the tables give as 0 or as zero bytes. A length that differs from the tables' is no
reserved field, and is not looked at (DESIGN CHOICE). -/
def AgentMsg.ownOk (m : AgentMsg) : Bool :=
  match m.typ with
  | 0x01 => m.zeroAt 4 16
  | 0x02 => m.zeroAt 8 16
  | 0x03 => decide (m.gen = 0 ∧ m.arg < 4)
  | 0x04 => decide (m.gen = 0 ∧ m.arg = 0 ∧ byteAt m.payload 0 < 64) && m.zeroAt 1 16 && ((List.range 18).all fun p => byteAt m.payload (19 + 12 * p) == 0) && m.zeroAt 232 240
  | 0x05 => decide (m.gen = 0 ∧ m.arg < 256)
  | 0x06 => decide (m.gen = 0 ∧ m.arg < 256)
  | 0x07 => decide (m.arg < 256) && m.zeroAt 74 80
  | 0x08 => decide (m.arg < 4)
  | 0x09 => decide (m.gen = 0)
  | 0x0B => decide (m.arg < 131072)
  | 0x0C => (List.range 64).all fun q => decide (byteAt m.payload (66 + 3 * q) < 4)
  | 0x0D => decide (m.arg = 0) && m.zeroAt 8 16
  | 0x0E => decide (m.arg = 0)
  | 0x10 => decide (m.arg < 256)
  | 0x20 => decide (m.arg % 65536 < 2)
  | 0x21 => decide (m.arg = 0 ∧ byteAt m.payload 7 < 16) && m.zeroAt 9 16
  | 0x22 => decide (m.arg = 0) && m.zeroAt 5 16
  | 0x23 => decide (m.gen = 0 ∧ m.arg < 256 ∧ byteAt m.payload 18 < 16) && m.zeroAt 19 32
  | 0x24 => decide (m.gen = 0 ∧ m.arg < 65536)
  | _ => true

/-- A message whose reserved fields are zero and whose type is known (R314). -/
def AgentMsg.good (m : AgentMsg) : Bool :=
  mgKnown m.typ && decide (m.flags % 128 = 0) && decide (m.ttl ≤ 3) && (bit m.flags 7 || m.ttl == 0) && m.ownOk

/-- Packets delivered from M that wait in the agent's receive ring (R316). -/
def State.ringUsed (s : State) : Nat := (s.agent.inbox.filter fun i => i.path != .mgmt).length

/-- A message comes to the agent (R316): a packet that finds 4,096 waiting is dropped, a bad one and a foreign one are discarded and counted; the ring holds packets
from M alone, and the spec bounds what waits from the management path nowhere. -/
def State.toAgent (s : State) (path : MgPath) (srcCat : Nat) (ok : Bool) (m : AgentMsg) : State :=
  if path ≠ .mgmt ∧ s.ringUsed ≥ 4096 then s.bump Obj.mgRxDropped
  else if !ok ∨ !m.good then s.bump Obj.mgRxBad
  else if path ≠ .mgmt ∧ srcCat ≠ s.rd Obj.ownCatchment ∧ m.typ > 2 then s.bump Obj.mgForeign
  else { s with agent := { s.agent with inbox := s.agent.inbox ++ [⟨path, srcCat, m⟩] } }

/-- The message an MG packet carries (R314). -/
def Packet.agentMsg (p : Packet) : AgentMsg :=
  ⟨byteAt p.ni 0, byteAt p.ni 1, byteAt p.ni 2, byteAt p.ni 3, leAt p.ni 4 4, leAt p.ni 8 4, leAt p.ni 12 4, leAt p.ni 16 4, p.payload⟩

/-- Whether the check of an MG packet passes (R314). -/
def Packet.agentOk (p : Packet) : Bool := leAt p.tag 0 4 == crc32c (p.ni ++ p.payload) && allZero (slice p.tag 4 12)

/-- M delivers a packet to the agent with its arrival port (R317). -/
def State.deliverM (s : State) (port : Nat) (p : Packet) : State := s.toAgent (.data port) (adrCat p.src) p.agentOk p.agentMsg

/-- A port that packets other than probes may be routed to (R261). -/
def State.portUsable (s : State) (p : Nat) : Bool :=
  s.rd (Obj.portState p) == ustActive && s.rd (Obj.linkState p) == linkUp && s.rd (Obj.rtAdmit p) == 1

/-- A port that packets already queued for it may leave on (R240, R261). -/
def State.portOpen (s : State) (p : Nat) : Bool :=
  s.portUsable p || (s.rd (Obj.portState p) == ustQuiescing && s.rd (Obj.linkState p) == linkUp)

/-- The pool credits of an output when its link comes UP (R257); the spec does not give the size of an NI's buffer, which is taken as an input's (DESIGN CHOICE). -/
def poolCap (p : Nat) : Nat := if 14 ≤ p ∧ p < 18 then 165376 else 1536

/-- The virtual channel of a packet (R254). -/
def Packet.vc (p : Packet) : Nat := 8 * p.cls + p.level

/-- The virtual channel a packet takes at the next input. -/
def Packet.vcNext (p : Packet) : Nat := 8 * p.cls + p.level + 1

/-- Flits committed to an output and not sent (R261). -/
def State.committed (s : State) (out : Nat) : Nat :=
  ((s.router.bufs.map fun e => ((e.jobs.filter fun j => j.1 == out).map fun j => j.2.flits).foldl (· + ·) 0)).foldl (· + ·) 0

/-- The virtual channel of a packet on an output: an output to N0–N3 or M keeps the level (R254). -/
def Packet.vcAt (p : Packet) (out : Nat) : Nat := if out < 18 then p.vcNext else p.vc

/-- Credits spent at an output on a virtual channel and on the pool. Toward N0–N3 the NI's receive buffer takes the place of the input, so what is spent is what
lies there; the agent takes a packet in the step that sends it, so nothing stays spent toward M (R257). -/
def State.spentVc (s : State) (out vc : Nat) : Nat :=
  if out < 18 then mgetD (s.link out).spentVc vc 0
  else if out < 22 then (((s.niOf (out - 18)).rxQ.filter fun p => !p.pool && p.vc == vc).map fun p => p.flits).foldl (· + ·) 0 else 0

def State.spentPool (s : State) (out : Nat) : Nat :=
  if out < 18 then (s.link out).spentPool
  else if out < 22 then (((s.niOf (out - 18)).rxQ.filter fun p => p.pool).map fun p => p.flits).foldl (· + ·) 0 else 0

/-- free(p, pkt) of R261. -/
def State.freeFor (s : State) (p : Nat) (k : Packet) : Int :=
  (5 - (s.spentVc p k.vcNext : Nat) : Int) + ((poolCap p : Nat) - (s.spentPool p : Nat) : Int) - (s.committed p : Nat)

/-- Whether an output holds the credits of a packet: in its channel's reserve, or in the pool (R257). -/
def State.reserveOk (s : State) (out : Nat) (p : Packet) : Bool := decide (s.spentVc out (p.vcAt out) + p.flits ≤ 5)
def State.creditOk (s : State) (out : Nat) (p : Packet) : Bool := s.reserveOk out p || decide (s.spentPool out + p.flits ≤ poolCap out)

/-- A route entry (R259). -/
def State.routeEnt (s : State) (bank table idx : Nat) : Nat := mgetD s.router.routes (65536 * (2 * bank + table) + idx) 0

/-- The ports of a mask, in rising order. -/
def portsIn (m : Nat) : List Nat := (List.range 18).filter fun p => bit m p

/-- The freest of some ports; among equally free ones the next in turn from `rr` (R261). -/
def State.mostFree (s : State) (l : List Nat) (k : Packet) : Option Nat :=
  let best := l.foldl (fun (a : Option Int) p => match a with
    | none => some (s.freeFor p k)
    | some v => some (max v (s.freeFor p k))) none
  let ties := l.filter fun p => some (s.freeFor p k) = best
  (ties.find? fun p => decide (s.router.rr ≤ p)).orElse fun _ => ties.head?

/-- What routing makes of a packet: the outputs and headers of its jobs, or the counter of its discard. -/
inductive Routed where
  | jobs (l : List (Nat × Packet))
  | drop (o : Obj)

/-- Packet routing at the own position: to M or to the NI of the address (R261). -/
def Packet.ejectPort (p : Packet) : Nat := if p.cls = clsMG then 22 else 18 + adrNi p.dst

/-- The entry that routes a packet (R261). -/
def State.entFor (s : State) (p : Packet) : Nat :=
  if adrCat p.dst = s.rd Obj.ownCatchment then s.routeEnt p.parity 0 (adrPos p.dst) else s.routeEnt p.parity 1 (adrCat p.dst)

/-- The choice among the ports of an entry (R261). -/
def State.choose (s : State) (p : Packet) (e : Nat) : Routed :=
  let thr := s.rd Obj.adaptiveThresholdFlits
  let m := (portsIn (bits e 0 18)).filter s.portUsable
  let a := if p.cls = clsMG ∨ p.minimalOnly ∨ p.level + bits e 40 3 > 7 ∨ thr = 0xFFFF then [] else (portsIn (bits e 22 18)).filter s.portUsable
  match s.mostFree m p, s.mostFree a p with
  | none, none => .drop Obj.dropNoRoute
  | none, some q => .jobs [(q, p)]
  | some x, aq =>
    if p.cls = clsMG then .jobs [(m.headD x, p)]
    else match aq with
      | none => .jobs [(x, p)]
      | some q =>
        if s.freeFor x p < thr ∧ s.freeFor q p ≥ s.freeFor x p + thr then .jobs [(q, p)] else .jobs [(x, p)]

/-- Routing of one packet that is no multicast at its anchor and no probe (R261); a packet at L7 whose route would take it to an external port is discarded for the
hop limit, whatever distance its entry names (R254). -/
def State.routeOne (s : State) (p : Packet) : Routed :=
  if s.rd (Obj.routeBankState p.parity) ≠ 2 then .drop Obj.dropEpoch
  else if adrCat p.dst = s.rd Obj.ownCatchment ∧ adrPos p.dst = s.pos then .jobs [(p.ejectPort, p)]
  else
    let e := s.entFor p
    if !bit e 43 then .drop Obj.dropNoRoute
    else if p.level + bits e 18 3 > 7 then .drop Obj.dropHopLimit
    else match s.choose p e with
      | .jobs l => if p.level ≥ 7 then .drop Obj.dropHopLimit else .jobs l
      | d => d

/-- The member positions of a line (R265). -/
def linePos (axis idx m : Nat) : Nat := if axis = 0 then 8 * idx + m else 8 * m + idx

/-- Whether a position lies in a line. -/
def inLine (axis idx pos : Nat) : Bool := if axis = 0 then pos / 8 == idx else pos % 8 == idx

/-- The copies of a multicast packet at its anchor (R265). -/
def State.mcCopies (s : State) (p : Packet) : List Packet :=
  ((List.range 8).filter fun m => bit p.aux0 m).map fun m =>
    let q := linePos (p.aux1 / 128) (p.aux1 % 8) m
    { p with dst := s.rd Obj.ownCatchment * 256 + q * 4 + adrNi p.dst, flags := p.flags % 128, aux0 := 0, aux1 := 0 }

/-- The outputs of one header, and the counts of what is discarded; the turn of the round robin moves past a chosen port. -/
def State.addRoute (s : State) (r : Routed) (l : List (Nat × Packet)) : State × List (Nat × Packet) :=
  match r with
  | .drop o => (s.bump o, l)
  | .jobs js =>
    let s := js.foldl (fun s j => if j.1 < 18 then { s with router := { s.router with rr := (j.1 + 1) % 18 } } else s) s
    (s, l ++ js)

/-- The jobs of a packet that has come in on a port (R261, R263, R265). -/
def State.jobsOf (s : State) (port : Nat) (p : Packet) : State × List (Nat × Packet) :=
  if p.probe then
    if port ≠ 22 then (s, [(22, p)])
    else if s.rd (Obj.linkState p.aux0) = linkUp then (s, [(p.aux0, p)]) else (s.bump Obj.dropNoRoute, [])
  else if s.rd (Obj.routeBankState p.parity) ≠ 2 then (s.bump Obj.dropEpoch, [])
  else if p.multicast ∧ adrCat p.dst = s.rd Obj.ownCatchment ∧ adrPos p.dst = s.pos then
    if !inLine (p.aux1 / 128) (p.aux1 % 8) s.pos then (s.bump Obj.dropMalformed, [])
    else (s.mcCopies p).foldl (fun a c => (a.1.bump Obj.mcCopies).addRoute (a.1.routeOne c) a.2) (s, [])
  else s.addRoute (s.routeOne p) []

/-- Credits of freed flits go back to the far end of an external input, less the flits of failed banks (R257, R258). -/
def State.giveBackFlits (s : State) (port : Nat) (owed : Bool) (p : Packet) : State :=
  if port ≥ 18 ∨ !owed then s
  else
    let l := s.link port
    if p.pool then
      let debt := mgetD s.router.poolDebt port 0
      let s := { s with router := { s.router with poolDebt := msetD s.router.poolDebt port 0 (debt - p.flits) } }
      s.setLink port { l with retPool := l.retPool + (p.flits - debt) }
    else s.setLink port { l with retVc := mput l.retVc p.vc (mgetD l.retVc p.vc 0 + p.flits) }

/-- Flits resident at an input (R279). -/
def State.depth (s : State) (port : Nat) (f : Packet → Bool) : Nat :=
  ((s.router.bufs.filter fun e => e.inPort == port && f e.pkt).map fun e => e.pkt.flits).foldl (· + ·) 0

/-- The depth objects of an input follow its buffer. -/
def State.syncDepth (s : State) (port : Nat) : State :=
  if port > 22 then s else
  let d := s.depth port fun _ => true
  let s := s.wr (Obj.rtInputDepth port) d
  let s := if s.rd (Obj.rtInputPeak port) < d then s.wr (Obj.rtInputPeak port) d else s
  s.wro (Obj.rtClassDepth port) (bytesOf ((List.range 5).map fun c => leBytes 2 (s.depth port fun p => p.cls == c)))

/-- `route_bank_resident` follows the packets held (R275). -/
def State.resident (s : State) (parity : Nat) (up : Bool) : State :=
  let o := Obj.routeBankResident (parity % 2)
  s.wr o (if up then s.rd o + 1 else s.rd o - 1)

/-- A packet has left the router or been discarded: its buffer is free. -/
def State.freeEntry (s : State) (e : RtEntry) : State :=
  let s := { s with router := { s.router with bufs := s.router.bufs.filter fun x => x.id != e.id } }
  ((s.giveBackFlits e.inPort e.owed e.pkt).resident e.pkt.parity false).syncDepth e.inPort

/-- A packet of the buffer keeps these jobs; with none left it is gone. -/
def State.setJobs (s : State) (e : RtEntry) (l : List (Nat × Packet)) : State :=
  if l.isEmpty then s.freeEntry e
  else { s with router := { s.router with bufs := updFirst (fun x => x.id == e.id) (fun x => { x with jobs := l }) s.router.bufs } }

/-- The number that a packet gets when it arrives at this router. -/
def State.newId (s : State) : Nat × State := (s.router.nextId, { s with router := { s.router with nextId := s.router.nextId + 1 } })

/-- A packet enters an input buffer and is routed (R255, R261). -/
def State.enter (s : State) (id port arr : Nat) (banks : NMap Nat) (owed : Bool) (p : Packet) : State :=
  let e : RtEntry := ⟨id, port, p, arr, banks, owed, []⟩
  let s := { s with router := { s.router with bufs := s.router.bufs ++ [e] } }
  let s := s.syncDepth port
  let r := s.jobsOf port p
  r.1.setJobs e r.2

/-- Flits of an input's reserve or pool in use. -/
def State.vcUse (s : State) (port vc : Nat) : Nat := s.depth port fun p => !p.pool && p.vc == vc
def State.poolUse (s : State) (port : Nat) : Nat := s.depth port fun p => p.pool

/-- A buffer bank that takes new flits (R258). -/
def State.bankOpen (s : State) (port bank : Nat) : Bool :=
  decide (bank < 8) && s.rd (Obj.rtBankState port bank) == ustActive && !s.router.worn.contains (8 * port + bank)

/-- The flits that lie in a bank (R258). -/
def State.bankUse (s : State) (port bank : Nat) : Nat :=
  ((s.router.bufs.filter fun e => e.inPort == port).map fun e => mgetD e.banks bank 0).foldl (· + ·) 0

/-- Where flits find room in open banks of 248 flits, the banks taken in the order given (R258); the spec does not say how a packet lies in the banks
(DESIGN CHOICE). -/
def State.bankPlace (s : State) (port : Nat) : List Nat → Nat → Option (NMap Nat)
  | _, 0 => some []
  | [], _ => none
  | b :: l, n =>
    let k := if s.bankOpen port b then min n (248 - s.bankUse port b) else 0
    (s.bankPlace port l (n - k)).map fun m => if k = 0 then m else mput m b k

/-- The banks of an input, the one given first. -/
def banksFrom (b : Nat) : List Nat := b :: (List.range 8).filter (· != b)

/-- The spare bank of an input joins it; without one the spare policy is told (R258). -/
def State.spareBank (s : State) (port bank why : Nat) : State × Bool :=
  let u := 8 * port + bank
  match (List.range 8).find? fun b => s.rd (Obj.rtBankState port b) = ustSpare with
  | some b => ((s.goState (Obj.rtBankState port b) 0x08 (8 * port + b) ustActive).event 0x3801 0x08 u noCtx why 0 0 |>.mapNote 0x08 (8 * port + b), true)
  | none => (s.exhausted 0x08 u 5 false, false)

/-- A worn bank retires once it has emptied (R258). -/
def State.retireBank (s : State) (u : Nat) : State :=
  if s.router.worn.contains u ∧ s.bankUse (u / 8) (u % 8) = 0 then
    ({ s with router := { s.router with worn := s.router.worn.filter (· != u) } }.goState (Obj.rtBankState (u / 8) (u % 8)) 0x08 u ustRetired).mapNote 0x08 u
  else s

/-- A correctable error in a buffer bank (R258): at the limit, or at the first error after the limit was lowered below the count, the bank is worn. -/
def State.bankCe (s : State) (port bank : Nat) : State :=
  let o := Obj.rtBankCe port bank
  let u := 8 * port + bank
  let s := s.bumpSat o 32
  if s.rd o < s.rd Obj.rtBankCeLimit ∨ s.router.worn.contains u ∨ s.router.told.contains u ∨ s.rd (Obj.rtBankState port bank) ≠ ustActive then s
  else
    let r := s.spareBank port bank 1
    if r.2 then { r.1 with router := { r.1.router with worn := r.1.router.worn ++ [u] } }
    else { r.1 with router := { r.1.router with told := r.1.router.told ++ [u] } }

/-- Buffer banks of an input that are missing from its 1,736 flits (R258). -/
def State.lostBanks (s : State) (p : Nat) : Nat := 7 - ((List.range 8).filter fun b => s.rd (Obj.rtBankState p b) == ustActive).length

/-- The pool of an input, less the flits of failed banks (R255, R258). -/
def State.poolSize (s : State) (p : Nat) : Nat := 1536 - 248 * s.lostBanks p

/-- Whether a packet finds room at an input: a packet of a reserve in the 5 flits of its own channel, a packet of the pool in the pool (R255). -/
def State.inputRoom (s : State) (port : Nat) (k : Packet) : Bool :=
  if k.pool then decide (s.poolUse port + k.flits ≤ s.poolSize port) else decide (s.vcUse port k.vc + k.flits ≤ 5)

/-- Two MG packets whose order is kept (R264). -/
def mgOrdered (a b : Packet) : Bool := a.cls == clsMG && b.cls == clsMG && a.src == b.src && a.dst == b.dst

/-- The first packet of a landing buffer that finds room and that no MG packet before it must precede; a packet of a reserve waits on no packet of the pool, nor of
another channel (R255, R264, R271). -/
def State.landed (s : State) (port : Nat) : List RxWait → List RxWait → Option (RxWait × List RxWait)
  | _, [] => none
  | before, w :: l =>
    if s.inputRoom port w.pkt ∧ !(before.any fun b => mgOrdered b.pkt w.pkt) then some (w, before ++ l) else s.landed port (before ++ [w]) l

/-- The check words of a bank say whether a packet it takes is whole (R258): a correctable error is counted, an uncorrectable one discards the packet. -/
def State.checkedEnter (s : State) (id p arr bank : Nat) (banks : NMap Nat) (owed : Bool) (k : Packet) (err : Option EccMark) : State :=
  match err with
  | none => s.enter id p arr banks owed k
  | some .ce => (s.enter id p arr banks owed k).bankCe p bank
  | some _ => ((s.bump Obj.dropBufferError).giveBackFlits p owed k).resident k.parity false

/-- ROUTER_PACKET_IN: a packet accepted by a link enters the input buffer in `bank`, whose check words say `err` (R251, R255, R258, R274). -/
def execRouterPacketIn (p bank : Nat) (err : Option EccMark) (s : State) : Host.Outcome State Fault Refusal :=
  let l := s.link p
  match s.landed p [] l.rxQ with
  | none => .next s
  | some (w, rest) =>
    if p ≥ 18 ∨ !s.bankOpen p bank then .next s
    else match s.bankPlace p (banksFrom bank) w.pkt.flits with
      | none => .next s
      | some m =>
        let s := s.setLink p { l with rxQ := rest }
        let s := (s.bump (Obj.rtPktsIn p)).bumpBy (Obj.rtFlitsIn p) w.pkt.flits
        .next (if w.pkt.malformed then ((s.bump Obj.dropMalformed).giveBackFlits p w.owed w.pkt).resident w.pkt.parity false
          else s.checkedEnter w.id p w.arrNs bank m w.owed w.pkt err)

/-- A packet as an injection input stamps it (R252). -/
def State.stamped (s : State) (p : Nat) (k : Packet) : Packet :=
  { k with src := s.fabAddr (if p = 22 then 0 else p - 18), level := 0, parity := s.rd Obj.injectParity }

/-- A packet that an injection input discards: malformed, or of a class that its port does not carry (R251, R252). -/
def misclassed (p : Nat) (k : Packet) : Bool := k.malformed || decide ((k.cls = clsMG) ≠ (p = 22))

/-- Whether the reserve of a packet's channel at an injection input takes it (R255). -/
def State.ownRoom (s : State) (p : Nat) (k : Packet) : Bool := decide (s.vcUse p k.vc + k.flits ≤ 5)

/-- Whether an injection input can take a packet now: it is discarded, or finds room (R255, R258). -/
def State.canInject (s : State) (p : Nat) (k : Packet) : Bool :=
  misclassed p k || s.ownRoom p (s.stamped p k) || decide (s.poolUse p + k.flits ≤ s.poolSize p)

/-- The first packet of an NI's queue that its input can take and before which no packet of its class waits: no class waits on another (R270, R271). -/
def State.injectPick (s : State) (p : Nat) : List EgPkt → List EgPkt → Option (EgPkt × List EgPkt)
  | _, [] => none
  | before, e :: l =>
    if s.canInject p e.pkt ∧ !(before.any fun b => b.pkt.cls == e.pkt.cls) then some (e, before ++ l) else s.injectPick p (before ++ [e]) l

/-- The packet that waits at an injection input, and the state without it; port M is lost with in-package link 48 (R213). -/
def State.injectHead (s : State) (p : Nat) : Option (Packet × State) :=
  if p = 22 then
    match s.mEgress with
    | [] => none
    | k :: l => if s.rd (Obj.d2dState 48) = ustActive ∧ s.canInject p k then some (k, { s with mEgress := l }) else none
  else
    let n := s.niOf (p - 18)
    (s.injectPick p [] n.egress).map fun x => (x.1.pkt, s.setNi (p - 18) { n with egress := x.2, rpUsed := n.rpUsed - ofBool x.1.relRp })

/-- ROUTER_INJECT: a packet of N0–N3 or M is checked, stamped and buffered in banks whose check words say `err` (R251, R252, R258); without room, less the flits of
failed banks, it waits. -/
def execRouterInject (p : Nat) (err : Option EccMark) (s : State) : Host.Outcome State Fault Refusal :=
  if p < 18 ∨ p > 22 then .next s
  else match s.injectHead p with
    | none => .next s
    | some (k, t) =>
      if k.malformed then .next (t.bump Obj.dropMalformed)
      else if misclassed p k then .next (t.bump Obj.dropClass)
      else
        let k := s.stamped p k
        let k := { k with pool := !s.ownRoom p k }
        match s.bankPlace p (List.range 8) k.flits with
        | none => .next s
        | some m =>
          let t := (t.bump (Obj.rtPktsIn p)).bumpBy (Obj.rtFlitsIn p) k.flits
          let n := (t.resident k.parity true).newId
          .next (n.2.checkedEnter n.1 p s.now ((m.head?.map (·.1)).getD 0) m false k err)

/-- Whether an NI holds a receive entry for a packet, by its context, key slot, source, number and class (R291, R295). -/
def State.niKnows (s : State) (i : Nat) (p : Packet) : Bool :=
  match s.ctxOfJob p.job with
  | none => false
  | some c => (s.rxOf i c p).isSome

/-- Whether a request needs slots that its NI does not hold for it yet. -/
def State.niNew (s : State) (i : Nat) (p : Packet) : Bool :=
  (p.cls == clsRQ || p.cls == clsFW) && (s.ctxOfJob p.job).isSome && !s.niKnows i p

/-- Whether an NI takes a packet now (R253, R295): replies and collective packets always, the first packet of a request only with a receive entry and the slots it
needs, beside those kept for the packets in its buffer; a packet that it will discard needs none. -/
def State.niTakes (s : State) (i : Nat) (p : Packet) : Bool :=
  let n := s.niOf i
  let w := n.rxQ.filter fun q => s.niNew i q
  !s.niNew i p || s.rd (Obj.niState i) == ustDisabled || s.rd (Obj.niState i) == ustFailed ||
    (decide ((s.ni.rxs.filter fun r => r.ni == i).length + w.length < 32768) && decide (n.rpUsed + w.length < 2048) &&
      (p.op != 7 || decide (n.fwUsed + (w.filter fun q => q.op == 7).length < 256)))

/-- The replay buffer of a port, in bytes: 64 KiB electrical, 10 MiB optical (R212). -/
def replayCap (p : Nat) : Nat := if p < 14 then 65536 else 10485760

/-- Whether the replay buffer of a port takes a packet (R212, R224). -/
def LinkPort.holds (l : LinkPort) (p : Nat) (k : Packet) : Bool :=
  decide (64 * ((l.held.map fun h => h.pkt.flits).foldl (· + ·) 0 + k.flits) ≤ replayCap p)

/-- Whether a job may leave on its output now (R212, R253, R257, R263). -/
def State.eligible (s : State) (out : Nat) (p : Packet) : Bool :=
  if out = 22 then s.rd (Obj.d2dState 48) == ustActive
  else if out ≥ 18 then s.niTakes (out - 18) p && s.creditOk out p
  else
    (if p.probe then s.rd (Obj.linkState out) == linkUp else s.portOpen out) && decide (p.level < 7) && s.creditOk out p && (s.link out).holds out p

/-- An MG packet waits for those of its source and destination that came before it (R264). -/
def State.mgNext (s : State) (out : Nat) (e : RtEntry) (p : Packet) : Bool :=
  p.cls != clsMG || !(s.router.bufs.any fun x => decide (x.id < e.id) && x.jobs.any fun j => j.1 == out && mgOrdered j.2 p)

/-- The order of R267 as a list compared from the front; less comes first. -/
def grantKey (now : Nat) (lastCl : Bool) (e : RtEntry) (p : Packet) : List Nat :=
  if e.arrNs + 10000 ≤ now then [0, 0, 0, e.arrNs, e.id]
  else if p.cls = clsMG then [1, 0, 7 - p.level, e.arrNs, e.id]
  else if p.cls = clsCL then [if lastCl then 3 else 2, 0, 7 - p.level, e.arrNs, e.id]
  else [if lastCl then 2 else 3, 3 - p.cls, 7 - p.level, e.arrNs, e.id]

def lexLt : List Nat → List Nat → Bool
  | a :: l, b :: m => decide (a < b) || (a == b && lexLt l m)
  | _, _ => false

/-- The job that an output grants (R267). -/
def State.granted (s : State) (out : Nat) : Option (RtEntry × Packet) :=
  let last := s.router.lastCl.contains out
  let cands := s.router.bufs.flatMap fun e => ((e.jobs.filter fun j => j.1 == out && s.eligible out j.2 && s.mgNext out e j.2).map fun j => (e, j.2))
  cands.foldl (fun (b : Option (RtEntry × Packet)) c => match b with
    | none => some c
    | some x => if lexLt (grantKey s.now last c.1 c.2) (grantKey s.now last x.1 x.2) then some c else b) none

/-- The credits that the next trailer returns: one virtual channel's and the pool's (R222). -/
def LinkPort.takeCredits (l : LinkPort) : Nat × Nat × Nat × LinkPort :=
  let pool := min l.retPool 65535
  match l.retVc with
  | [] => (0xFF, 0, pool, { l with retPool := l.retPool - pool })
  | (v, n) :: rest => (v, min n 255, pool, { l with retPool := l.retPool - pool, retVc := if n ≤ 255 then rest else (v, n - 255) :: rest })

/-- The link layer sends a packet: its trailer, and the copy kept until acknowledged (R222 to R224). -/
def State.linkSend (s : State) (p arr : Nat) (k : Packet) : State :=
  let l := s.link p
  let c := l.takeCredits
  let t : Trailer := ⟨l.txSeq, (l.rxNext + 2 ^ 24 - 1) % 2 ^ 24, true, c.1, c.2.1, c.2.2.1, true⟩
  let l := { c.2.2.2 with txSeq := (l.txSeq + 1) % 2 ^ 24, held := l.held ++ [⟨t, k, arr⟩], ackDue := false }
  (s.setLink p l).sendFlits p (k.bytes t)

/-- Send a granted packet on its output (R254, R257, R263). -/
def State.sendOn (s : State) (out port arr : Nat) (p : Packet) : State :=
  if out = 22 then s.deliverM port p
  else if out ≥ 18 then
    let n := s.niOf (out - 18)
    s.setNi (out - 18) { n with rxQ := n.rxQ ++ [{ p with pool := !s.reserveOk out p }] }
  else
    let l := s.link out
    let v := p.vcNext
    let own := s.reserveOk out p
    let l := if own then { l with spentVc := mput l.spentVc v (mgetD l.spentVc v 0 + p.flits) } else { l with spentPool := l.spentPool + p.flits }
    (s.setLink out l).linkSend out arr { p with level := p.level + 1, pool := !own }

/-- The copies waiting for an output that is no longer usable are routed again, each with its unchanged header (R262); a probe stays while the link is UP, and
cannot be sent otherwise (R263). -/
def State.reroute (s : State) (out : Nat) : State :=
  s.router.bufs.foldl (fun s e =>
    if !e.jobs.any fun j => j.1 == out then s
    else
      let r := e.jobs.foldl (fun (a : State × List (Nat × Packet)) j =>
        if j.1 ≠ out then (a.1, a.2 ++ [j])
        else if j.2.probe then (if s.rd (Obj.linkState out) = linkUp then (a.1, a.2 ++ [j]) else (a.1.bump Obj.dropNoRoute, a.2))
        else a.1.addRoute (a.1.routeOne j.2) a.2) (s, [])
      r.1.setJobs e r.2) s

/-- An output that a packet was chosen for and has no credits for (R279): each router clock of it is counted, 3,125 in a microsecond (R248). -/
def State.stalled (s : State) (out : Nat) : Bool := s.router.bufs.any fun e => e.jobs.any fun j => j.1 == out && !s.creditOk out j.2

def State.countStalls (s : State) : State :=
  if s.router.bufs.isEmpty then s
  else ((List.range 23).filter s.stalled).foldl (fun s o => s.bumpBy (Obj.rtStallClocks o) 3125) s

/-- ROUTER_PACKET_SEND: an output grants an eligible packet and sends it whole (R267). -/
def execRouterPacketSend (out : Nat) (s : State) : Host.Outcome State Fault Refusal :=
  match s.granted out with
  | none => .next s
  | some (e, p) =>
    let s := ((s.bump (Obj.rtPktsOut out)).bumpBy (Obj.rtFlitsOut out) p.flits).bump (Obj.rtClassOut out p.cls)
    let s := if out < 18 ∧ !p.probe ∧ bit (bits (s.entFor p) 22 18) out then s.bump (Obj.rtNonminimal out) else s
    let last := s.router.lastCl.filter (· != out)
    let s := if p.cls = clsMG then s else { s with router := { s.router with lastCl := if p.cls = clsCL then out :: last else last } }
    let s := s.sendOn out e.inPort e.arrNs p
    .next (s.setJobs e ((takeFirst (fun j => j == (out, p)) e.jobs).map (·.2) |>.getD []))

/-- RESIDENCE_LIMIT_EXPIRY: a packet that has not started within 100 µs is discarded with its remaining copies, in the input buffer or still in the landing buffer
(R268). -/
def execResidenceLimitExpiry (id : Nat) (s : State) : Host.Outcome State Fault Refusal :=
  match s.router.bufs.find? fun e => e.id = id with
  | some e => .next ((s.bump Obj.dropResidence).freeEntry e)
  | none => match (List.range 18).find? fun p => (s.link p).rxQ.any fun w => w.id == id with
    | none => .next s
    | some p =>
      let l := s.link p
      match l.rxQ.find? fun w => w.id = id with
      | none => .next s
      | some w => .next ((((s.setLink p { l with rxQ := l.rxQ.filter fun x => x.id != id }).bump Obj.dropResidence).giveBackFlits p w.owed w.pkt).resident w.pkt.parity false)

/-- ROUTER_BANK_FAIL (R258). -/
def execRouterBankFail (p b : Nat) (s : State) : Host.Outcome State Fault Refusal :=
  if p > 22 ∨ b > 7 ∨ s.rd (Obj.rtBankState p b) ≠ ustActive then .next s
  else
    let s := (s.goState (Obj.rtBankState p b) 0x08 (8 * p + b) ustFailed).addFail 0x08 (8 * p + b)
    let lost := s.router.bufs.filter fun e => e.inPort == p && decide (mgetD e.banks b 0 ≠ 0)
    let s := lost.foldl (fun s e => (s.bump Obj.dropBufferError).freeEntry e) s
    let worn := s.router.worn.contains (8 * p + b)
    let s := { s with router := { s.router with worn := s.router.worn.filter (· != 8 * p + b) } }
    if worn then .next s
    else
      let r := s.spareBank p b 2
      .next (if r.2 then r.1
        else { r.1 with router := { r.1.router with poolDebt := mput r.1.router.poolDebt p (mgetD r.1.router.poolDebt p 0 + 248) } })

/-- WORN_BANK_EMPTIED (R258). -/
def execWornBankEmptied (p b : Nat) (s : State) : Host.Outcome State Fault Refusal := .next (s.retireBank (8 * p + b))

/-- The agent under the Steward role, and the package's own firmware, write the route banks (R273, R279). -/
def rtWriter (w : Who) : Bool := isSteward w

/-- `route_bank_state` LOADING, refused while packets of its parity are resident (R273). -/
def State.bankLoading (s : State) (b : Nat) : State × Nat :=
  if s.rd (Obj.routeBankResident b) ≠ 0 then (s, rRefused) else (s.wr (Obj.routeBankState b) 1, rOk)

/-- `route_bank_state` VALID: the bank's epoch number is `route_bank_epoch` (R273). -/
def State.bankValid (s : State) (b : Nat) : State × Nat :=
  ({ s with router := { s.router with epochs := mput s.router.epochs b (s.rd (Obj.routeBankEpoch b)) } }.wr (Obj.routeBankState b) 2, rOk)

def execRouteBankLoading (w : Who) (b : Nat) (s : State) : Host.Outcome State Fault Refusal :=
  .next (s.ctl w (rtWriter w) fun s => if b > 1 then (s, rNoObject) else s.bankLoading b)
def execRouteBankValid (w : Who) (b : Nat) (s : State) : Host.Outcome State Fault Refusal :=
  .next (s.ctl w (rtWriter w) fun s => if b > 1 then (s, rNoObject) else s.bankValid b)

/-- Write entries in a row from an index on. -/
def putRoutes : List Nat → NMap Nat → Nat → NMap Nat
  | [], m, _ => m
  | v :: l, m, k => putRoutes l (msetD m k 0 v) (k + 1)

/-- A write of `route_load` (R273, R279). -/
def State.routeLoad (s : State) (v : Bytes) : State × Nat :=
  let bank := byteAt v 0
  let table := byteAt v 1
  let n := leAt v 2 2
  let first := leAt v 4 4
  if v.length ≠ 8 + 8 * n then (s, rBadLength)
  else if bank > 1 ∨ table > 1 ∨ n = 0 ∨ n > 64 then (s, rOutOfRange)
  else if s.rd (Obj.routeBankState bank) ≠ 1 ∨ first + n > (if table = 0 then 64 else 65536) then (s, rRefused)
  else
    let l := (List.range n).map fun i => leAt v (8 + 8 * i) 8
    if l.any fun e => decide (e / 2 ^ 44 ≠ 0) || bit e 21 then (s, rMalformed)
    else ({ s with router := { s.router with routes := putRoutes l s.router.routes (65536 * (2 * bank + table) + first) } }, rOk)

def execRouteLoad (w : Who) (v : Bytes) (s : State) : Host.Outcome State Fault Refusal :=
  .next (s.ctl w (isSteward w || isCus w) fun s => s.routeLoad v)

/-- A write of `inject_parity` (R273). -/
def State.setParity (s : State) (v : Nat) : State × Nat :=
  if v > 1 then (s, rOutOfRange) else if s.rd (Obj.routeBankState v) ≠ 2 then (s, rRefused) else (s.wr Obj.injectParity v, rOk)

def execInjectParityWrite (w : Who) (v : Nat) (s : State) : Host.Outcome State Fault Refusal := .next (s.ctl w (rtWriter w) fun s => s.setParity v)

/-- A write of `rt_admit` (R276, R279): a port that is no longer admitted carries only probes. -/
def State.setAdmit (s : State) (p v : Nat) : State × Nat :=
  if p ≥ 23 then (s, rNoObject)
  else if p ≥ 18 then (s, rRefused)
  else if v > 1 then (s, rOutOfRange)
  else if v = 1 then (s.wr (Obj.rtAdmit p) 1, rOk)
  else ((s.wr (Obj.rtAdmit p) 0).reroute p, rOk)

def execRtAdmitWrite (w : Who) (p v : Nat) (s : State) : Host.Outcome State Fault Refusal := .next (s.ctl w (rtWriter w) fun s => s.setAdmit p v)

end Sys2Proof.Machine
end

