-- ==== Sys2Proof/Machine/AgentBase.lean ====
section
/-! DEFINITION. Sending agent messages on both paths, reports, and the agent's view of lost links and positions (R313 to R315, R318, R332, R333). -/

namespace Sys2Proof.Machine

open Sys2Proof

/-- Message types (R314). -/
abbrev mgProbe : Nat := 0x01
abbrev mgProbeEcho : Nat := 0x02
abbrev mgHello : Nat := 0x03
abbrev mgReport : Nat := 0x04
abbrev mgClaim : Nat := 0x05
abbrev mgGrant : Nat := 0x06
abbrev mgHeartbeat : Nat := 0x07
abbrev mgHbAck : Nat := 0x08
abbrev mgLinkDown : Nat := 0x09
abbrev mgLossNotice : Nat := 0x0A
abbrev mgReprobe : Nat := 0x0B
abbrev mgPrepare : Nat := 0x0C
abbrev mgReady : Nat := 0x0D
abbrev mgCommit : Nat := 0x0E
abbrev mgSlice : Nat := 0x0F
abbrev mgSliceAck : Nat := 0x10
abbrev mgReplica : Nat := 0x11
abbrev mgRailMap : Nat := 0x12

/-- Agent states (R344). -/
abbrev agStarting : Nat := 0
abbrev agDiscovering : Nat := 1
abbrev agFollowing : Nat := 2
abbrev agOrphan : Nat := 3
abbrev agWellhead : Nat := 4
abbrev agStandby : Nat := 5

/-- far_position and far_port of R243. -/
def farPosition (p k : Nat) : Nat :=
  let r := p / 8
  let c := p % 8
  if k < 7 then 8 * r + (if k < c then k else k + 1) else 8 * (if k - 7 < r then k - 7 else k - 7 + 1) + c

def farPort (p k : Nat) : Nat :=
  let r := p / 8
  let c := p % 8
  let f := farPosition p k
  if k < 7 then (if c < f % 8 then c else c - 1) else 7 + (if r < f / 8 then r else r - 1)

/-- Whether this package is the Wellhead. -/
def State.isWh (s : State) : Bool := s.rd Obj.agentState == agWellhead

/-- A new message of this agent, numbered per type from 1, its payload in 16-byte units (R314). -/
def State.mkMsg (s : State) (typ gen arg : Nat) (pay : Bytes) : State × AgentMsg :=
  let n := mgetD s.agent.seqs typ 0 + 1
  ({ s with agent := { s.agent with seqs := mput s.agent.seqs typ (n % 2 ^ 32) } }, ⟨typ, 0, s.pos, 0, s.rd Obj.agentTerm, n % 2 ^ 32, gen, arg, fit (16 * cdiv pay.length 16) pay⟩)

/-- The MG packet of a message (R314). -/
def State.mgPkt (s : State) (m : AgentMsg) (dst flags aux0 aux1 : Nat) : Packet :=
  let ni := m.head
  let units := cdiv m.payload.length 16
  let pay := fit (16 * units) m.payload
  ⟨(16 * units + 127) / 64, clsMG, 0, 0, false, dst, s.fabAddr 0, flags, units, aux0, aux1, ni, pay, leBytes 4 (crc32c (ni ++ pay)) ++ zeros 12⟩

def State.mSend (s : State) (p : Packet) : State := { s with mEgress := s.mEgress ++ [p] }

/-- Send a message as a probe on one port (R263, R315). -/
def State.probeOn (s : State) (p : Nat) (m : AgentMsg) : State := s.mSend (s.mgPkt m (s.fabAddr 0) 32 p 0)

/-- The external ports whose links are UP. -/
def State.upPorts (s : State) : List Nat := (List.range 18).filter fun p => s.rd (Obj.linkState p) == linkUp

/-- Flood a message on the data path (R315). -/
def State.floodOn (s : State) (m : AgentMsg) (except_ : Option Nat) : State :=
  (s.upPorts.filter fun p => some p != except_).foldl (fun s p => s.probeOn p m) s

def AgentMsg.flooded (m : AgentMsg) : AgentMsg := { m with flags := 128, ttl := 3 }

/-- Whether the agent's messages go routed (R315, R322). -/
def State.routedOk (s : State) : Bool :=
  s.rd (Obj.routeBankState (s.rd Obj.injectParity)) == 2 && s.agent.hbSeen && byteAt s.agent.hbStates s.pos == ustActive && !s.agent.selfFenced

/-- Send a message on the data path to a position: routed, or flooded (R315). -/
def State.sendData (s : State) (q : Nat) (m : AgentMsg) : State :=
  if s.routedOk then s.mSend (s.mgPkt m (s.rd Obj.ownCatchment * 256 + 4 * q) 0 0 0) else s.floodOn m.flooded none

/-- The open Steward session with a position (R437). -/
def State.stewardSess (s : State) (q : Nat) : Option Session :=
  s.mgmt.sessions.find? fun x => x.role == roleSteward && x.st == SessState.opened && x.peer == some q

/-- An AGENT_GROUP frame goes out to ff02::1 under this package's group key (R433, R434, R439). -/
def State.sendGroup (s : State) (m : AgentMsg) : State :=
  let n := s.mgmt.groupSeq + 1
  { s with mgmt := { s.mgmt with groupSeq := n } }.emit (.nxf 2 allNodes udpNxf (nxSeal s.mgmt.groupKey ntAgentGroup (0xFFFFFF00 + s.pos) n m.body))

/-- Send a message on the management path (R439): to one package in the Steward session with it, to every agent under the group key; without a session, or without
a link on SB, it does not leave. -/
def State.sendSb (s : State) (dst : Option Nat) (m : AgentMsg) : State :=
  if s.rd (Obj.mportLink 2) ≠ 1 then s
  else match dst with
    | none => s.sendGroup m
    | some q =>
      match s.stewardSess q with
      | none => s
      | some x => s.frameOut x.id (.agent m)

/-- A message to one position on both paths, to this package's own agent at once. -/
def State.sendBoth (s : State) (q : Nat) (m : AgentMsg) : State :=
  if q = s.pos then (s.toAgent .mgmt 0 true m).toAgent (.data 22) (s.rd Obj.ownCatchment) true m else (s.sendData q m).sendSb (some q) m

/-- A message to every agent on both paths, flooded on the data path. -/
def State.sendAll (s : State) (m : AgentMsg) : State := (s.floodOn m.flooded none).sendSb none m

/-- The probe verdict of a port end (R318): a link that is not UP makes it UNUSABLE. -/
def State.verdict (s : State) (p : Nat) : Nat := if s.rd (Obj.linkState p) = linkUp then s.rd (Obj.probeVerdict p) else 2

/-- Whether the position is healthy (R326). The manager cores and FL have passed their checks once step MANAGER is done, where a failure halts bring-up (R466, R470). -/
def State.healthy (s : State) : Bool :=
  decide (2 ≤ s.boot.step) && s.rd (Obj.mportLink 2) == 1 && (List.range 18).any fun p => s.verdict p == 1

/-- The payload of a REPORT (R314). -/
def State.reportBytes (s : State) (departing : Bool) : Bytes :=
  let f := ofBool (!s.boot.trayPresN) + 2 * ofBool (!s.boot.pfailN) + 4 * ofBool (s.domUp 5) + 8 * (s.rd Obj.whEligible % 2) + 16 * ofBool s.healthy +
    32 * ofBool departing
  let recs := (List.range 18).map fun p => bytesOf [leBytes 1 (s.rd (Obj.portState p)), leBytes 1 (s.rd (Obj.linkState p)), leBytes 1 (s.verdict p),
    [0], leBytes 4 (s.rd (Obj.farEnd p)), leBytes 4 (s.rd (Obj.portGeneration p))]
  bytesOf [leBytes 1 f, zeros 15, recs.flatten, zeros 8]

/-- Send a REPORT to the Wellhead on both paths (R318, R332, R334). -/
def State.sendReport (s : State) (departing : Bool) : State :=
  let w := s.rd Obj.agentWellhead
  let r := s.mkMsg mgReport 0 0 (s.reportBytes departing)
  if w = 0xFF then r.1.sendAll r.2 else r.1.sendBoth w r.2

/-- Set or clear bits of a 64-bit mask by a test. -/
def maskOf (f : Nat → Bool) : Nat := (List.range 64).foldl (fun m q => if f q then m + 2 ^ q else m) 0

/-- `suspect_mask` and `lost_mask` follow the agent's knowledge (R333, R344); a suspicion that has ended counts no time. -/
def State.syncSuspect (s : State) : State :=
  let sus := fun q => s.agent.ownLost.contains q || s.agent.noticed.any fun n => n.1 == q
  let s := s.wr Obj.suspectMask (maskOf sus)
  let s := s.wr Obj.lostMask (maskOf fun q => s.agent.hbSeen && (byteAt s.agent.hbStates q == ustFenced || byteAt s.agent.hbStates q == ustFailed))
  { s with ni := { s.ni with suspect50 := s.ni.suspect50.filter sus } }

/-- Two independent indications of the loss of a position within 50 µs make the agent flood a LOSS_NOTICE, at most once per millisecond
(R332). At the Wellhead its own notice counts as one that has arrived, at its next evaluation (DEDUCED: no copy of a flooded message comes back to its origin). -/
def State.checkNotice (s : State) (f : Nat) : State :=
  let near := (s.agent.inds.filter fun i => i.lost == f && decide (s.now ≤ i.atNs + 50000)).map (·.from_)
  if near.dedup.length < 2 then s
  else if s.agent.noticeSent.any fun n => n.1 == f && decide (s.now < n.2 + 1000000) then s
  else
    let r := s.mkMsg mgLossNotice s.agent.hbMapGen f []
    let s := (r.1.floodOn r.2.flooded none).bump Obj.lossNoticesSent
    let s := { s with agent := { s.agent with
      noticeSent := (f, s.now) :: s.agent.noticeSent.filter fun n => n.1 != f
      noticed := (f, s.agent.hbMapGen) :: s.agent.noticed.filter fun n => n.1 != f } }.syncSuspect
    { s with wh := { s.wh with lossNamed := if s.wh.lossNamed.contains f then s.wh.lossNamed else f :: s.wh.lossNamed } }

/-- Take an indication of a loss; those older than 50 µs count no more. -/
def State.indicate (s : State) (f src : Nat) : State :=
  { s with agent := { s.agent with inds := (⟨f, src, s.now⟩ : LossInd) :: s.agent.inds.filter fun i => decide (s.now ≤ i.atNs + 50000) } }.checkNotice f

/-- The agent learns that its link on a port is lost (R229 step 3, R332, R333). -/
def State.agentLinkLost (s : State) (p : Nat) : State :=
  let s := (s.wr (Obj.probeVerdict p) 2)
  let s := { s with agent := { s.agent with probes := mput s.agent.probes p PortProbe.init } }
  if p ≥ 14 then s.sendReport false
  else
    let f := farPosition s.pos p
    let s := { s with agent := { s.agent with ownLost := if s.agent.ownLost.contains f then s.agent.ownLost else f :: s.agent.ownLost } }.syncSuspect
    let s := s.sendReport false
    let r := s.mkMsg mgLinkDown 0 f []
    let axis := if p < 7 then 0 else 1
    let idx := if p < 7 then s.pos / 8 else s.pos % 8
    let me := if p < 7 then s.pos % 8 else s.pos / 8
    (r.1.mSend (s.mgPkt r.2 (s.fabAddr 0) 128 (255 - 2 ^ me) (128 * axis + idx))).indicate f s.pos

/-- The agent learns that a link is UP (R333): its own suspicion of the far end is over, and the port's verdict starts anew. -/
def State.agentLinkUp (s : State) (p : Nat) : State :=
  let s := s.wr (Obj.probeVerdict p) 0
  let s := { s with agent := { s.agent with probes := mput s.agent.probes p PortProbe.init } }
  let s := if p < 14 then { s with agent := { s.agent with ownLost := s.agent.ownLost.filter (· != farPosition s.pos p) } }.syncSuspect else s
  s.sendReport false

/-- The catchment that the rail map expects on O port k of a position, 0xFFFF for none; nothing is expected without a rail map (R234, R338). -/
def State.railExpect (s : State) (k q : Nat) : Option Nat :=
  if s.agent.railMap.isEmpty then none else some (leAt s.agent.railMap (16 + 2 * (64 * k + q)) 2)

end Sys2Proof.Machine
end

