-- ==== Sys2Proof/Machine/Routes.lean ====
section
/-! DEFINITION. Route computation over a route map and a rail map, and the table digest (R339 to R341). -/

namespace Sys2Proof.Machine

open Sys2Proof

/-- The route map: states in bytes 0 to 63, then 64 usable-port masks of 3 bytes (R339). -/
def rmActive (m : Bytes) (q : Nat) : Bool := byteAt m q == ustActive
def rmMask (m : Bytes) (q : Nat) : Nat := leAt m (64 + 3 * q) 3

/-- Whether port Ek of a position is an edge of the graph (R339). -/
def rmEdge (m : Bytes) (p k : Nat) : Bool :=
  let f := farPosition p k
  rmActive m p && bit (rmMask m p) k && rmActive m f && bit (rmMask m f) (farPort p k)

/-- The neighbours of every position. -/
def rmAdj (m : Bytes) : List (List Nat) := (List.range 64).map fun p => ((List.range 14).filter (rmEdge m p)).map (farPosition p)

/-- The distance that stands for unreachable: past every limit of R340. -/
abbrev rtFar : Nat := 99

/-- One round of shortest paths over edges of weight 1. -/
def relax (adj : List (List Nat)) (d : List Nat) : List Nat :=
  (adj.zip d).map fun x => x.1.foldl (fun a n => min a (d.getD n rtFar + 1)) x.2

def relaxN : Nat → List (List Nat) → List Nat → List Nat
  | 0, _, d => d
  | n + 1, adj, d => relaxN n adj (relax adj d)

/-- A route entry (R259, R340) from the distance and the ports' distances. Where D + 1 exceeds 7, no port is listed as alternative: three bits hold no such distance
and no level would allow it (DESIGN CHOICE). -/
def rtEntry (dist : Nat) (via : Nat → Nat) : Nat :=
  if dist > 7 then 0
  else
    let mask := fun x => (List.range 18).foldl (fun m p => if via p = x then m + 2 ^ p else m) 0
    let alt := if dist < 7 then mask (dist + 1) else 0
    2 ^ 43 + (if alt = 0 then 7 else dist + 1) * 2 ^ 40 + alt * 2 ^ 22 + dist * 2 ^ 18 + mask dist

/-- The local entry of a position for a destination (R340). -/
def localEntry (m : Bytes) (adj : List (List Nat)) (p t : Nat) : Nat :=
  if t = p ∨ !rmActive m t ∨ !rmActive m p then 0
  else
    let d := relaxN 7 adj ((List.range 64).map fun q => if q = t then 0 else rtFar)
    rtEntry (d.getD p rtFar) fun k => if k < 14 ∧ rmEdge m p k then 1 + d.getD (farPosition p k) rtFar else rtFar

/-- Fields of a rail map (R338). -/
def railCat (r : Bytes) : Nat := leAt r 4 2
def railRoutes (r : Bytes) : Nat := leAt r 6 2
def railExp (r : Bytes) (k q : Nat) : Nat := leAt r (16 + 2 * (64 * k + q)) 2
def railDst (r : Bytes) (i : Nat) : Nat := leAt r (528 + 8 * i) 2
def railVia (r : Bytes) (i : Nat) : Nat := leAt r (530 + 8 * i) 2
def railLinks (r : Bytes) (i : Nat) : Nat := byteAt r (532 + 8 * i)

/-- The catchments from which a catchment can be reached outside this one, and how far: each destination has one route-list entry at most (R338, R339). -/
def railChain : Nat → Bytes → Nat → Nat → List (Nat × Nat)
  | 0, _, _, _ => []
  | f + 1, r, c, w =>
    (c, w) :: (match (List.range (railRoutes r)).find? fun i => railDst r i = c with
      | some i => railChain f r (railVia r i) (w + (railLinks r i - 1))
      | none => [])

/-- How far an O port is from the catchment of a chain; unreachable where it reaches none of it. -/
def railOut (m r : Bytes) (chain : List (Nat × Nat)) (q k : Nat) : Nat :=
  if rmActive m q ∧ bit (rmMask m q) (14 + k) then
    match chain.find? fun e => e.1 = railExp r k q with
    | some e => if railExp r k q = 0xFFFF then rtFar else 1 + e.2
    | none => rtFar
  else rtFar

/-- The remote entry of a position for a catchment (R340): the entry distance is the path's and 2 more. -/
def remoteEntry (m r : Bytes) (adj : List (List Nat)) (p c : Nat) : Nat :=
  if c = railCat r ∨ !rmActive m p then 0
  else
    let ch := railChain 8 r c 0
    let d := relaxN 7 adj ((List.range 64).map fun q => (List.range 4).foldl (fun a k => min a (railOut m r ch q k)) rtFar)
    rtEntry (d.getD p rtFar + 2) fun k =>
      if k < 14 then (if rmEdge m p k then 3 + d.getD (farPosition p k) rtFar else rtFar) else railOut m r ch p (k - 14) + 2

/-- A number put in its place in a rising list. -/
def insNat (n : Nat) : List Nat → List Nat
  | [] => [n]
  | m :: l => if n < m then n :: m :: l else if n = m then m :: l else m :: insNat n l

/-- Every catchment a rail map names but 0xFFFF, rising. -/
def railCats (r : Bytes) : List Nat :=
  if r.isEmpty then []
  else
    let l := (List.range 4).flatMap fun k => (List.range 64).map (railExp r k)
    ((l ++ (List.range (railRoutes r)).map (railDst r)).foldl (fun a n => insNat n a) []).filter fun n => decide (n ≠ 0xFFFF)

/-- The tables of a position: the 64 local entries, and the valid remote entries with their index (R340). -/
def tablesOf (m r : Bytes) (p : Nat) : List Nat × List (Nat × Nat) :=
  let adj := rmAdj m
  ((List.range 64).map (localEntry m adj p),
    ((railCats r).map fun c => (c, remoteEntry m r adj p c)).filter fun e => decide (e.2 ≠ 0))

/-- The table digest (R341). -/
def tableDigest (t : List Nat × List (Nat × Nat)) : Bytes :=
  (sha256 ((t.1.map (leBytes 8)).flatten ++ (t.2.map fun e => leBytes 2 e.1 ++ leBytes 8 e.2).flatten)).take 8

/-- A bank takes new contents whole (R342 step 2). -/
def State.loadBank (s : State) (b : Nat) (t : List Nat × List (Nat × Nat)) : State :=
  let lo := 65536 * (2 * b)
  let kept := s.router.routes.filter fun e => decide (e.1 < lo) || decide (lo + 131072 ≤ e.1)
  let m := putRoutes t.1 kept lo
  { s with router := { s.router with routes := t.2.foldl (fun m e => msetD m (lo + 65536 + e.1) 0 e.2) m } }

end Sys2Proof.Machine
end

