-- ==== Sys2Proof/Machine/Follow.lean ====
section
/-! DEFINITION. How the agent takes a message from its ring, follows a Wellhead's heartbeats, and switches to a committed epoch (R315, R324, R329, R342). -/

namespace Sys2Proof.Machine

open Sys2Proof

/-- Take the oldest message of a type (R315, R316): a flooded one seen before, or of this agent's own, is ignored, and a new one is sent on with its hops reduced on
every UP port but the arrival port. -/
def State.onMsg (s : State) (typ : Nat) (k : State → InMsg → State) : State :=
  match takeFirst (fun (i : InMsg) => i.msg.typ == typ) s.agent.inbox with
  | none => s
  | some (i, rest) =>
    let m := i.msg
    let s := { s with agent := { s.agent with inbox := rest, maxTerm := max s.agent.maxTerm m.term } }
    match i.path with
    | .mgmt => k s i
    | .data port =>
      if !bit m.flags 7 then k s i
      else
        let id := (m.origin, m.typ, m.seq)
        if m.origin = s.pos ∨ s.agent.seen.contains id then s
        else
          let s := { s with agent := { s.agent with seen := id :: s.agent.seen } }
          k (if m.ttl = 0 then s else s.floodOn { m with ttl := m.ttl - 1 } (some port)) i

/-- Whether the agent may write route banks, `inject_parity` and `rt_admit` 1 (R331). -/
def State.mayRoute (s : State) : Bool := s.rd Obj.agentState != agOrphan

/-- The agent switches to a committed epoch whose tables it holds (R342 step 4). -/
def State.commitEpoch (s : State) (e : Nat) : State :=
  match s.agent.prep with
  | none => s
  | some r =>
    if !s.mayRoute ∨ !r.done ∨ r.epoch ≠ e ∨ s.rd Obj.agentEpoch = e then s
    else
      let m := rmMask r.routeMap s.pos
      let s := (List.range 18).foldl (fun s p => (s.setAdmit p (ofBool (bit m p && s.rd (Obj.linkState p) == linkUp))).1) s
      (s.setParity (e % 2)).1.wr Obj.agentEpoch e

/-- Whether a message is of the term followed, which is no lower than any term granted (R329). -/
def State.follows (s : State) (m : AgentMsg) : Bool := m.term == s.rd Obj.agentTerm && decide (s.agent.grantTerm ≤ m.term)

/-- An order of the term followed; one of any other is ignored and counted (R329). -/
def State.inTerm (s : State) (m : AgentMsg) (k : State → State) : State := if s.follows m then k s else s.bump Obj.mgStaleTerm

/-- A Wellhead steps down (R329): it gives no more orders, and until it follows another it is ORPHAN. It does not claim meanwhile: R330 gives the old Wellhead no rank
(DEDUCED). -/
def State.stepDown (s : State) : State :=
  if !s.isWh then s
  else
    let s := s.event 0x4C03 0x0E s.pos noCtx (s.rd Obj.agentTerm) 2 0
    let s := (s.wr Obj.agentState agOrphan).wr Obj.agentWellhead 0xFF
    { s with agent := { s.agent with claim := none, stopped := true, orphanAt := s.now }, wh := { s.wh with run := none } }

/-- Work toward positions that the publication shows lost ends, and toward every other position while the own position is shown lost (R296, R306, R322). -/
def State.publish (s : State) : State :=
  let own := byteAt s.agent.hbStates s.pos
  let all := own == ustFenced || own == ustFailed
  let hit := fun q => q != s.pos && (all || bit (s.rd Obj.lostMask) q)
  (s.loseOuts hit ndPublished).loseSessions hit

/-- Follow a heartbeat (R324, R329, R333): its Wellhead, standby, publication, map generation, catchment and committed epoch. -/
def State.followHb (s : State) (m : AgentMsg) : State :=
  let p := m.payload
  let old := s.rd Obj.agentTerm
  let standby := m.arg % 256
  let newTerm := decide (old < m.term) || !s.agent.hbSeen
  let st := if m.origin = s.pos then agWellhead
    else if s.rd Obj.agentState = agOrphan ∧ !newTerm then agOrphan
    else if standby = s.pos then agStandby else agFollowing
  let s := (((s.wr Obj.agentTerm m.term).wr Obj.agentWellhead m.origin).wr Obj.agentStandby standby).wr Obj.agentState st
  let cat := leAt p 72 2
  let s := if cat ≠ 0xFFFF ∧ s.rd Obj.ownCatchment = 0xFFFF then s.wr Obj.ownCatchment cat else s
  let mg := leAt p 64 4
  let a := s.agent
  let s := { s with agent := { a with
    hbSeq := m.seq, hbStates := p.take 64, hbMapGen := mg, hbSeen := true, missed := 0,
    claim := if newTerm && m.origin != s.pos then none else a.claim,
    stopped := a.stopped && !newTerm,
    noticed := a.noticed.filter fun n => !(decide (n.2 < mg) && byteAt p n.1 == ustActive) } }
  (s.syncSuspect.publish).commitEpoch m.gen

/-- The answer to a heartbeat (R314, R324). -/
def State.hbAck (s : State) (m : AgentMsg) : State :=
  let arg := s.rd Obj.injectParity + 2 * ofBool s.agent.replicaFull
  let r := s.mkMsg mgHbAck m.seq arg (bytesOf [leBytes 8 (s.rd Obj.suspectMask), leBytes 4 (s.rd Obj.agentEpoch), leBytes 4 s.agent.posGen])
  r.1.sendBoth m.origin r.2

/-- HEARTBEAT (R324, R329): one of an older term is not followed; the copy of the other path, or an older one, changes nothing. -/
def execHeartbeat (s : State) : Host.Outcome State Fault Refusal :=
  .next (s.onMsg mgHeartbeat fun s i =>
    let m := i.msg
    let t := s.rd Obj.agentTerm
    if m.origin = s.pos ∨ m.term < t ∨ m.term < s.agent.grantTerm ∨ (m.term = t ∧ s.agent.hbSeen ∧ (m.seq ≤ s.agent.hbSeq ∨ s.isWh)) then s
    else
      let first := decide (t < m.term) || !s.agent.hbSeen
      let s := (if s.isWh then s.stepDown else s).followHb m
      let s := s.hbAck m
      if first then s.sendReport false else s)

/-- PREPARE (R342 step 2): the agent takes the route map; its tables are loaded once the bank has drained. -/
def execPrepare (s : State) : Host.Outcome State Fault Refusal :=
  .next (s.onMsg mgPrepare fun s i =>
    s.inTerm i.msg fun s =>
      let e := i.msg.gen
      if !s.mayRoute ∨ e ≤ s.rd Obj.agentEpoch then s
      else match s.agent.prep with
        | some r => if r.epoch ≥ e then s else { s with agent := { s.agent with prep := some ⟨e, fit 256 i.msg.payload, s.agent.railMap, false⟩ } }
        | none => { s with agent := { s.agent with prep := some ⟨e, fit 256 i.msg.payload, s.agent.railMap, false⟩ } })

/-- BANK_DRAINED (R342 step 2): the bank is loaded and VALID, and READY carries the digest. -/
def execBankDrained (s : State) : Host.Outcome State Fault Refusal :=
  match s.agent.prep with
  | none => .next s
  | some r =>
    let b := r.epoch % 2
    if r.done ∨ !s.mayRoute ∨ s.rd (Obj.routeBankResident b) ≠ 0 ∨ b = s.rd Obj.injectParity ∧ s.rd (Obj.routeBankState b) = 2 then .next s
    else
      let t := tablesOf r.routeMap r.rail s.pos
      let s := ((s.bankLoading b).1.loadBank b t).wr (Obj.routeBankEpoch b) r.epoch
      let s := (s.bankValid b).1
      let s := { s with agent := { s.agent with prep := some { r with done := true } } }
      let x := s.mkMsg mgReady r.epoch 0 (fit 8 (tableDigest t) ++ zeros 8)
      .next (x.1.sendBoth (s.rd Obj.agentWellhead) x.2)

/-- COMMIT (R342 step 4). -/
def execCommit (s : State) : Host.Outcome State Fault Refusal :=
  .next (s.onMsg mgCommit fun s i => s.inTerm i.msg fun s => s.commitEpoch i.msg.gen)

/-- LINK_DOWN (R329, R332): an indication from another position, of the term followed. -/
def execLinkDown (s : State) : Host.Outcome State Fault Refusal :=
  .next (s.onMsg mgLinkDown fun s i => if i.msg.arg ≥ 64 ∨ i.msg.arg = s.pos ∨ !s.follows i.msg then s else s.indicate i.msg.arg i.msg.origin)

/-! ## REPROBE -/

/-- A port is fenced (R241, R276, R322): it carries only probes from then on. -/
def State.fencePort (s : State) (p : Nat) : State :=
  let st := s.rd (Obj.portState p)
  if st = ustActive then ((s.goState (Obj.portState p) 0x05 p ustFenced).wr (Obj.rtAdmit p) 0).reroute p else s

/-- A port's fence is lifted, or it stays ACTIVE, not admitted (R322). -/
def State.clearPort (s : State) (p : Nat) : State :=
  let st := s.rd (Obj.portState p)
  if st = ustFenced ∨ st = ustActive then (s.goState (Obj.portState p) 0x05 p ustActive).setAdmit p 0 |>.1 else s

/-- The own position is fenced: its ACTIVE ports are fenced with it. When the fence is lifted, those ports are ACTIVE again, and not the ones that a link's own
REPROBE has fenced (R322). -/
def State.fenceSelf (s : State) (fence : Bool) : State :=
  if fence then
    let l := (List.range 18).filter fun p => s.rd (Obj.portState p) == ustActive
    let s := { s with agent := { s.agent with posFenced := (s.agent.posFenced ++ l).dedup } }
    l.foldl (fun s p => s.fencePort p) s
  else
    let l := s.agent.posFenced
    l.foldl (fun s p => s.clearPort p) { s with agent := { s.agent with posFenced := [] } }

/-- REPROBE (R320, R322): the port or the position takes the new generation, and a verdict that this changes is reported at once (R318); an older one says nothing. -/
def execReprobe (s : State) : Host.Outcome State Fault Refusal :=
  .next (s.onMsg mgReprobe fun s i =>
    s.inTerm i.msg fun s =>
      let a := i.msg.arg
      let g := i.msg.gen
      let p := bits a 8 8
      let fence := bit a 16
      if a % 256 ≠ s.pos then s
      else if p = 0xFF then
        if g ≤ s.agent.posGen then s
        else
          { s with agent := { s.agent with posGen := g, selfFenced := fence } }.fenceSelf fence
      else if p ≥ 18 ∨ g ≤ s.rd (Obj.portGeneration p) then s
      else
        let old := s.verdict p
        let s := (s.wr (Obj.portGeneration p) g).wr (Obj.probeVerdict p) 0
        let s := { s with agent := { s.agent with probes := mput s.agent.probes p PortProbe.init, posFenced := s.agent.posFenced.filter (· != p) } }
        let s := if fence then s.fencePort p else s.clearPort p
        if s.verdict p = old then s else s.sendReport false)

end Sys2Proof.Machine
end

