-- ==== Sys2Proof/Machine/Wellhead.lean ====
section
/-! DEFINITION. The Wellhead (R319 to R325, R328, R329, R335, R336, R342, R343): the map and its verdicts, fencing, heartbeats, epochs, the replica and election. -/

namespace Sys2Proof.Machine

open Sys2Proof

/-! ## The map -/

/-- Link states at the Wellhead (R321): usable, fenced, excluded. -/
abbrev lkUsable : Nat := 1
abbrev lkFenced : Nat := 4
abbrev lkExcluded : Nat := 8

/-- A link's record: an E link stands under its end of the lower position. -/
def lkKey (q p : Nat) : Nat := if p < 14 ∧ farPosition q p < q then 32 * farPosition q p + farPort q p else 32 * q + p

/-- Generation and state of a link; one that no record names is excluded. -/
def State.lk (s : State) (k : Nat) : Nat × Nat := mgetD s.wh.links k (0, lkExcluded)

/-- The ends of a link as positions and ports. -/
def lkEnds (k : Nat) : List (Nat × Nat) :=
  let q := k / 32
  let p := k % 32
  if p < 14 then [(q, p), (farPosition q p, farPort q p)] else [(q, p)]

/-- Every link of the catchment. -/
def lkAll : List Nat := (List.range 64).flatMap fun q => ((List.range 18).map (32 * q + ·)).filter fun k => lkKey q (k % 32) == k

def State.posActive (s : State) (q : Nat) : Bool := s.rd (Obj.posState q) == ustActive
def State.actives (s : State) : List Nat := (List.range 64).filter s.posActive

/-- The state vector (R314, R324). -/
def State.stateVec (s : State) : Bytes := (List.range 64).map fun q => BitVec.ofNat 8 (s.rd (Obj.posState q))

def repOf (l : List Report) (q : Nat) : Option Report := l.find? fun r => r.pos = q

/-! ## Verdicts: 0 UNKNOWN, 1 USABLE, 2 UNUSABLE -/

/-- A position by one path's evidence (R319): an HB_ACK in the last five periods, and a last REPORT healthy, with FD powered, not departing. Without evidence the verdict
is UNKNOWN until the position's generation is five periods old (DESIGN CHOICE). -/
def posVerdict (reps : List Report) (acks : List (List Nat)) (age q : Nat) : Nat :=
  let acked := acks.any fun a => a.contains q
  match repOf reps q with
  | some r =>
    if bit r.flags 5 ∨ !bit r.flags 4 ∨ !bit r.flags 2 then 2
    else if acked then 1 else if age < 5 then 0 else 2
  | none => if age < 5 then 0 else 2

/-- A departing REPORT makes both verdicts UNUSABLE (R334). -/
def State.departing (s : State) (q : Nat) : Bool := (s.wh.repMgmt ++ s.wh.repData).any fun r => r.pos == q && bit r.flags 5

def State.posVerd (s : State) (q : Nat) : Nat × Nat :=
  let age := mgetD s.wh.genAge q 0
  if s.departing q then (2, 2)
  else (posVerdict s.wh.repMgmt s.wh.acksMgmt age q, if s.wh.lossNamed.contains q then 2 else posVerdict s.wh.repData s.wh.acksData age q)

/-- Whether a port record shows the expected far end (R243, R319). -/
def State.farEndOk (s : State) (q p w : Nat) : Bool :=
  if p < 14 then decide (w = s.rd Obj.ownCatchment % 65536 * 65536 + farPort q p * 256 + farPosition q p)
  else match s.railExpect (p - 14) q with
    | some c => decide (w / 65536 = c ∧ w % 64 = q)
    | none => true

/-- One end of a link by the management path and by the data path, from a record that names the link's generation or a later one (R319, R320). -/
def State.endMgmt (s : State) (gen q p : Nat) : Nat :=
  match repOf s.wh.repMgmt q with
  | none => 0
  | some r =>
    let b := r.ports.getD p []
    if leAt b 8 4 < gen then 0
    else if (byteAt b 0 = ustActive ∨ byteAt b 0 = ustFenced) ∧ byteAt b 1 = linkUp ∧ s.farEndOk q p (leAt b 4 4) then 1 else 2

def State.endData (s : State) (gen q p : Nat) : Nat :=
  match repOf s.wh.repData q with
  | none => 0
  | some r =>
    let b := r.ports.getD p []
    if leAt b 8 4 < gen then 0 else byteAt b 2

/-- The verdict over both ends. -/
def joinVerd (l : List Nat) : Nat := if l.contains 2 then 2 else if l.all (· == 1) then 1 else 0

def State.lkVerd (s : State) (k : Nat) : Nat × Nat :=
  let e := lkEnds k
  (joinVerd (e.map fun x => s.endMgmt (s.lk k).1 x.1 x.2), joinVerd (e.map fun x => s.endData (s.lk k).1 x.1 x.2))

/-- What a unit becomes under its verdicts (R321, R322): `out` is its excluded state. -/
def nextVerd (st out : Nat) (v : Nat × Nat) : Nat :=
  if st = ustActive then (if v.1 = 2 ∧ v.2 = 2 then out else if v.1 = 2 ∨ v.2 = 2 then ustFenced else st)
  else if v.1 = 1 ∧ v.2 = 1 then ustActive
  else if st = ustFenced ∧ v.1 = 2 ∧ v.2 = 2 then out else st

/-! ## Changes of state -/

def State.reprobe (s : State) (q p gen : Nat) (fence : Bool) : State :=
  let r := s.mkMsg mgReprobe gen (q + 256 * p + 65536 * ofBool fence) []
  r.1.sendBoth q r.2

/-- The generation of a position rises, and what was heard under an older one no longer counts (R320). -/
def State.raiseGen (s : State) (q : Nat) : State :=
  let drop := fun (l : List (List Nat)) => l.map fun a => a.filter (· != q)
  { s.wr (Obj.posGeneration q) ((s.rd (Obj.posGeneration q) + 1) % 2 ^ 32) with
    wh := { s.wh with acksMgmt := drop s.wh.acksMgmt, acksData := drop s.wh.acksData, genAge := mput s.wh.genAge q 0 } }

/-- A change of the map (R320, R342): `map_gen` rises and the next epoch is due. -/
def State.mapChanged (s : State) : State :=
  let s := s.wr Obj.whMapGen ((s.rd Obj.whMapGen + 1) % 2 ^ 32)
  { s with wh := { s.wh with lossNamed := [], dirty := true } }

def State.noteFence (s : State) (cls unit gen : Nat) (v : Nat × Nat) (st : Nat) : State :=
  let s := s.event 0x4C01 cls unit noCtx gen (4 * v.2 + v.1) 0
  if st = ustFenced then s.bump Obj.fences else s

/-- Tell positions the state of a slice (R336). -/
def State.sendSlice (s : State) (n : Nat) (to_ : Nat) : State :=
  let arg := n + 256 * s.rd (Obj.sliceState n) + 65536 * s.rd (Obj.sliceJob n)
  let pay := leBytes 8 (s.rd (Obj.sliceMembers n)) ++ leBytes 8 (s.rd (Obj.sliceLost n))
  ((List.range 64).filter fun q => bit to_ q).foldl (fun s q =>
    let r := s.mkMsg mgSlice (s.rd (Obj.sliceGeneration n)) arg pay
    r.1.sendBoth q r.2) s

/-- A slice changes (R336): its generation rises and its members are told. -/
def State.sliceChange (s : State) (n st members lost : Nat) (to_ : Nat) : State :=
  let s := (((s.wr (Obj.sliceState n) st).wr (Obj.sliceMembers n) members).wr (Obj.sliceLost n) lost).wr (Obj.sliceGeneration n) ((s.rd (Obj.sliceGeneration n) + 1) % 2 ^ 32)
  let s := { s with wh := { s.wh with slices := s.wh.slices.map fun (x : Slice) => if x.num = n then { x with members := members, acked := 0, forming := x.forming && st != 1 } else x } }
  s.sendSlice n to_

/-- A slice command has its result (R335). -/
def State.slDone (s : State) (r : Nat) : State := s.wr Obj.sliceStatus (0x200 + r)

/-- A slice is removed (R336): its members are told, with slice state 0xFF, the free state of `slice_state` (DESIGN CHOICE: no rule gives the state of that SLICE). -/
def State.slRemove (s : State) (n res : Nat) : State :=
  let s := s.sliceChange n 0xFF 0 0 (s.rd (Obj.sliceMembers n))
  let s := { s with wh := { s.wh with slices := s.wh.slices.filter fun x => x.num != n } }
  (s.wr (Obj.sliceJob n) 0).slDone res

/-- A RETIRING slice is removed once every member that is still reachable has acknowledged (R336). -/
def State.slRetired (s : State) (n : Nat) : State :=
  match s.wh.slices.find? fun x => x.num = n with
  | none => s
  | some x =>
    if s.rd (Obj.sliceState n) = 3 ∧ (List.range 64).all fun q => !bit x.members q || bit x.acked q || !s.posActive q then s.slRemove n 0 else s

/-- A member is published FENCED or FAILED (R336): a slice that forms, works or is DEGRADED marks it lost or gives it up; one that retires waits for it no longer. -/
def State.degrade (s : State) (q : Nat) : State :=
  s.wh.slices.foldl (fun s x =>
    let st := s.rd (Obj.sliceState x.num)
    let lost := s.rd (Obj.sliceLost x.num)
    if !bit x.members q then s
    else if st = 3 then s.slRetired x.num
    else if st > 2 ∨ bit lost q then s
    else if x.onLoss = 0 then s.sliceChange x.num 2 x.members (lost + 2 ^ q) x.members
    else s.sliceChange x.num 2 (x.members - 2 ^ q) lost (x.members - 2 ^ q)) s

/-- A position changes state (R320 to R323). -/
def State.setPos (s : State) (q st : Nat) (v : Nat × Nat) : State :=
  let s := ((s.wr (Obj.posState q) st).raiseGen q).mapChanged
  let g := s.rd (Obj.posGeneration q)
  let run := s.wh.run.map fun r => { r with members := r.members.filter (· != q) }
  let back := if st = ustFailed then s.wh.back.filter (· != q) else s.wh.back
  let s := { s with wh := { s.wh with back := back, capsDue := true, run := run } }
  let s := if st = ustActive then s else (s.noteFence 0x0E q g v st).degrade q
  s.reprobe q 0xFF g (st == ustFenced)

/-- The package of a FAILED position has completed a bring-up (R323): the position takes a new generation, and may leave FAILED once both verdicts are USABLE under it.
No message says so in words; the Wellhead takes it from four signs (DEDUCED): a HELLO whose term is 0, which an agent sends only before it has followed any
Wellhead; an HB_ACK whose committed epoch is 0; a REPORT that shows FD powered after one that did not; and a POWER_REPORT that shows ON after STARTING. -/
def State.cameBack (s : State) (q : Nat) : State :=
  if !s.isWh ∨ !s.wh.mapFormed ∨ s.rd (Obj.posState q) ≠ ustFailed ∨ s.wh.back.contains q then s
  else
    let s := { s with wh := { s.wh with back := q :: s.wh.back } }.raiseGen q
    s.reprobe q 0xFF (s.rd (Obj.posGeneration q)) false

/-- `pos_port_fenced` of a position. -/
def State.syncFenced (s : State) (q : Nat) : State :=
  s.wr (Obj.posPortFenced q) ((List.range 18).foldl (fun m p => if (s.lk (lkKey q p)).2 = lkFenced then m + 2 ^ p else m) 0)

/-- A link changes state (R320 to R322): the agents of its ends take the new generation. -/
def State.setLk (s : State) (k st : Nat) (v : Nat × Nat) : State :=
  let g := ((s.lk k).1 + 1) % 2 ^ 32
  let s := { s with wh := { s.wh with links := mput s.wh.links k (g, st) } }.mapChanged
  let s := if st = lkUsable then s else s.noteFence 0x05 k g v st
  (lkEnds k).foldl (fun s e => (s.reprobe e.1 e.2 g (st == lkFenced)).syncFenced e.1) s

/-! ## Heartbeats and the replica -/

/-- The catchment that heartbeats announce: the rail map's, or `catchment_id` (R338, R344). -/
def State.whCatchment (s : State) : Nat := if s.agent.railMap.isEmpty then s.rd Obj.catchmentId else railCat s.agent.railMap

/-- A heartbeat (R314, R324), which the Wellhead's own agent follows at once. -/
def State.sendHeartbeat (s : State) : State :=
  let pay := bytesOf [s.stateVec, leBytes 4 (s.rd Obj.whMapGen), leBytes 4 (s.rd Obj.railMapVersion), leBytes 2 s.whCatchment, zeros 6]
  let r := s.mkMsg mgHeartbeat (s.rd Obj.whEpoch) (s.rd Obj.agentStandby) pay
  (r.1.sendAll r.2).followHb r.2

/-- Pairs of numbers as bytes: their count, then each as two u64. -/
def putPairs (l : List (Nat × Nat)) : Bytes := leBytes 4 l.length ++ (l.map fun p => leBytes 8 p.1 ++ leBytes 8 p.2).flatten

/-- The pairs at the front of a byte string, and what follows them. -/
def getPairs (b : Bytes) : List (Nat × Nat) × Bytes :=
  let n := min (leAt b 0 4) ((b.length - 4) / 16)
  ((List.range n).map fun i => (leAt b (4 + 16 * i) 8, leAt b (12 + 16 * i) 8), b.drop (4 + 16 * n))

/-- Whether an object is the Wellhead's or the catchment steward's (areas 4C and 58). -/
def whKey (k : Nat) : Bool := keyArea k == 0x4C || keyArea k == 0x58

/-- The numbers of the catchment steward's state beside its objects (R368 to R372). -/
def Steward.catchment (w : Steward) : List Nat :=
  [w.txSeq, w.safetySeq, maskOf w.grantedPos.contains, ofBool w.alert, ofBool w.pumpLoss, ofBool w.pumpHandled, w.nextTray, w.keptBudget, maskOf w.trayLow.contains]

/-- What the replica holds (R325), in a layout of the model's own (DESIGN CHOICE): the objects of areas 4C and 58, which hold the map with its generations, the epoch,
the slices and the masks; the last epoch number; the slices' answers to a loss; the links with their generations; the state of the catchment steward with its polls,
its trays and its last table; the entries of `equipment`; the rail map. -/
def State.replicaBytes (s : State) : Bytes :=
  let w := s.steward
  let octs := s.oct.filter fun p => whKey p.1
  bytesOf [putPairs (s.reg.filter fun p => whKey p.1), leBytes 4 s.wh.lastEpoch, putPairs (s.wh.slices.map fun x => (x.num, x.onLoss)),
    putPairs (s.wh.links.map fun e => (e.1, 256 * e.2.1 + e.2.2)), (w.catchment.map (leBytes 8)).flatten,
    putPairs (w.eqs.map fun e => (e.1, e.2.rated)), putPairs (w.eqs.map fun e => (e.1, e.2.status)), putPairs (w.eqs.map fun e => (e.1, e.2.misses + 256 * ofBool e.2.lost + 512 * ofBool e.2.stopped)),
    putPairs (w.eqs.map fun e => (e.1, e.2.supply + 65536 * e.2.regC)), putPairs w.trayOut, putPairs w.trayUsed, putPairs w.trayStat, fit 128 w.lastCaps,
    putPairs (octs.map fun p => (p.1, p.2.length)), (octs.map (·.2)).flatten, s.agent.railMap]

/-- The standby to be: the lowest healthy eligible position other than this one (R325). -/
def State.standbyPick (s : State) : Option Nat :=
  (List.range 64).find? fun q => q != s.pos && s.posActive q && (match repOf s.wh.repMgmt q with
    | some r => bit r.flags 3 && bit r.flags 4
    | none => false)

/-- A REPLICA for every change (R325): the whole state, in chunks of 256 bytes. -/
def State.sendReplica (s : State) : State :=
  match s.standbyPick with
  | none => s
  | some q =>
    let b := s.replicaBytes
    let cs := pktChunks (b.length / 256 + 1) b
    let s := { s with wh := { s.wh with replicaConfirmed := s.wh.replicaConfirmed.filter (· == q), replicaTo := q, replicaSent := b } }
    ((List.range cs.length).zip cs).foldl (fun s x =>
      let r := s.mkMsg mgReplica (s.rd Obj.whMapGen) (x.1 + 65536 * cs.length) x.2
      r.1.sendBoth q r.2) s

/-- A REPLICA for what has changed since the last one, in the map or in the steward's state, or for another standby to be (R325): with each heartbeat at the latest
(DESIGN CHOICE: the rule gives no time). -/
def State.replicate (s : State) : State :=
  if s.isWh ∧ s.standbyPick.isSome ∧ (s.standbyPick ≠ some s.wh.replicaTo ∨ s.replicaBytes ≠ s.wh.replicaSent) then s.sendReplica else s

/-- The standby that heartbeats name: it has confirmed a full replica and is still the one to be (R325). -/
def State.nameStandby (s : State) : State :=
  match s.standbyPick with
  | some q => s.wr Obj.agentStandby (if s.wh.replicaConfirmed.contains q then q else 0xFF)
  | none => s.wr Obj.agentStandby 0xFF

/-! ## Epochs -/

/-- The usable-port mask of a position (R339). -/
def State.usableMask (s : State) (q : Nat) : Nat := (List.range 18).foldl (fun m p => if (s.lk (lkKey q p)).2 = lkUsable then m + 2 ^ p else m) 0

def State.routeMap (s : State) : Bytes := s.stateVec ++ ((List.range 64).map fun q => leBytes 3 (s.usableMask q)).flatten

/-- Whether every position that an epoch waits for has acknowledged it; the Wellhead's own agent needs no message for that. -/
def State.allAcked (s : State) (r : EpochRun) : Bool :=
  r.members.all fun q => r.acked.contains q || (q == s.pos && s.rd Obj.agentEpoch == r.epoch)

/-- EPOCH_START (R342 step 1): a change is due and every ACTIVE position has acknowledged the epoch before it; one that has become ACTIVE since its PREPARE takes part
from the next epoch on (R322). -/
def State.tryEpoch (s : State) : State :=
  let free := match s.wh.run with
    | none => true
    | some r => r.committed && s.allAcked r
  if !s.isWh ∨ !s.wh.mapFormed ∨ !s.wh.dirty ∨ !free then s
  else
    let n := s.wh.lastEpoch + 1
    let n := if n % 2 = s.rd Obj.whEpoch % 2 then n + 1 else n
    let m := s.routeMap
    let run : EpochRun := ⟨n, s.rd Obj.whMapGen, m, [], false, [], s.actives, s.agent.railMap⟩
    let s := { s with wh := { s.wh with run := some run, dirty := false, lastEpoch := n } }
    s.actives.foldl (fun s q =>
      let r := s.mkMsg mgPrepare n (s.rd Obj.whMapGen) m
      r.1.sendBoth q r.2) s

/-- Once every position that the epoch waits for is ready, it is committed (R342 step 3). -/
def State.tryCommit (s : State) : State :=
  match s.wh.run with
  | none => s
  | some r =>
    if !s.isWh ∨ r.committed ∨ !(r.members.all fun p => r.ready.contains p) then s
    else
      let s := { s with wh := { s.wh with run := some { r with committed := true } } }
      let s := ((s.wr Obj.whEpoch r.epoch).bump Obj.epochsCommitted).event 0x4C02 0x00 0 noCtx r.epoch 1 0
      let s := (List.range 64).foldl (fun s q => s.wr (Obj.posUsablePorts q) (rmMask r.routeMap q)) s
      let x := s.mkMsg mgCommit r.epoch 0 []
      ((x.1.sendAll x.2).commitEpoch r.epoch).sendReplica

/-- What follows a change of the map (R324, R325, R342). -/
def State.afterChange (s : State) : State := (s.sendHeartbeat.sendReplica.nameStandby).tryCommit.tryEpoch

/-- The verdicts of every unit are evaluated (R321), those of the positions on the evidence as it stands before any of them changes. -/
def State.evaluate (s : State) : State :=
  if !s.isWh ∨ !s.wh.mapFormed then s
  else
    let g := s.rd Obj.whMapGen
    let seen := s
    let s := (List.range 64).foldl (fun s q =>
      let v := seen.posVerd q
      let s := s.wr (Obj.posVerdicts q) (4 * v.2 + v.1)
      let st := s.rd (Obj.posState q)
      let n := if st = ustFailed ∧ !s.wh.back.contains q then st else nextVerd st ustFailed v
      if n = st then s else s.setPos q n v) s
    let s := lkAll.foldl (fun s k =>
      let v := s.lkVerd k
      let st := (s.lk k).2
      let n := nextVerd st lkExcluded v
      if n = st then s else s.setLk k n v) s
    if s.rd Obj.whMapGen = g then s else s.afterChange

/-- The map is formed from the REPORTs that have arrived (discovery step 4): positions not heard are FAILED, and a link is usable where both verdicts say so. The
generations start as they stand (DEDUCED: nothing has changed state yet). -/
def State.formMap (s : State) : State :=
  let heard := fun q => q == s.pos || (s.wh.repMgmt ++ s.wh.repData).any fun r => r.pos == q
  let s := (List.range 64).foldl (fun s q => s.wr (Obj.posState q) (if heard q then ustActive else ustFailed)) s
  let links := lkAll.foldl (fun m k => mput m k (0, if s.lkVerd k = (1, 1) then lkUsable else lkExcluded)) []
  let s := { s with wh := { s.wh with links := links, mapFormed := true } }
  s.mapChanged.afterChange

/-- An epoch is given up (R343). -/
def State.abandonEpoch (s : State) (e : Nat) : State :=
  let s := (s.bump Obj.epochsAbandoned).event 0x4C02 0x00 0 noCtx e 2 0
  { s with wh := { s.wh with run := none, dirty := true } }

/-- A position's data verdict becomes UNUSABLE (R343): it is fenced, or excluded when the management verdict says the same. -/
def State.fencePos (s : State) (q : Nat) : State :=
  let v := ((s.posVerd q).1, 2)
  if s.posActive q then (s.wr (Obj.posVerdicts q) (4 * v.2 + v.1)).setPos q (nextVerd ustActive ustFailed v) v else s

/-! ## Rows of the Wellhead -/

/-- REPORT (R319, R321, R329), of the term followed; at an agent that is not the Wellhead it says nothing. -/
def execReport (s : State) : Host.Outcome State Fault Refusal :=
  .next (s.onMsg mgReport fun s i =>
    let m := i.msg
    if !s.isWh ∨ m.origin ≥ 64 ∨ m.term ≠ s.rd Obj.agentTerm then s
    else
      let was := match repOf (match i.path with
          | .mgmt => s.wh.repMgmt
          | .data _ => s.wh.repData) m.origin with
        | some r => bit r.flags 2
        | none => true
      let s := if !was ∧ bit (byteAt m.payload 0) 2 then s.cameBack m.origin else s
      let r : Report := ⟨m.origin, byteAt m.payload 0, (List.range 18).map fun p => slice m.payload (16 + 12 * p) 12⟩
      let s := match i.path with
        | .mgmt => { s with wh := { s.wh with repMgmt := upsert (·.pos) r s.wh.repMgmt } }
        | .data _ => { s with wh := { s.wh with repData := upsert (·.pos) r s.wh.repData } }
      if s.wh.mapFormed then s.evaluate
      else
        let heard := ((s.agent.heardMgmt ++ s.agent.heardData).map (·.1)).dedup
        if heard.all fun q => q == s.pos || ((repOf s.wh.repMgmt q).isSome && (repOf s.wh.repData q).isSome) then s.formMap else s)

/-- Count an acknowledgement in the newest period of one path. -/
def ackIn (l : List (List Nat)) (q : Nat) : List (List Nat) :=
  match l with
  | [] => [[q]]
  | a :: r => (if a.contains q then a else q :: a) :: r

/-- A position has acknowledged the committed epoch (R342, R343). One that names a later epoch tells a new Wellhead that its predecessor had committed that one, which is
then the epoch in force (DEDUCED). -/
def State.epochAcked (s : State) (q e : Nat) : State :=
  match s.wh.run with
  | none => s
  | some r =>
    if !r.committed then s
    else if r.epoch < e then
      { s.wr Obj.whEpoch e with wh := { s.wh with run := some { r with epoch := e, acked := [q] }, lastEpoch := max s.wh.lastEpoch e } }.tryEpoch
    else if r.epoch = e ∧ !r.acked.contains q then { s with wh := { s.wh with run := some { r with acked := q :: r.acked } } }.tryEpoch
    else s

/-- HB_ACK (R319, R320, R325). -/
def execHbAck (s : State) : Host.Outcome State Fault Refusal :=
  .next (s.onMsg mgHbAck fun s i =>
    let m := i.msg
    let q := m.origin
    if !s.isWh ∨ q ≥ 64 ∨ m.term ≠ s.rd Obj.agentTerm then s
    else
      let s := if leAt m.payload 8 4 = 0 then s.cameBack q else s
      let s := if leAt m.payload 12 4 < s.rd (Obj.posGeneration q) then s
        else match i.path with
          | .mgmt => { s with wh := { s.wh with acksMgmt := ackIn s.wh.acksMgmt q } }
          | .data _ => { s with wh := { s.wh with acksData := ackIn s.wh.acksData q } }
      let s := if bit m.arg 1 ∧ !s.wh.replicaConfirmed.contains q then { s with wh := { s.wh with replicaConfirmed := q :: s.wh.replicaConfirmed } }.nameStandby else s
      (s.epochAcked q (leAt m.payload 8 4)).evaluate)

/-- LOSS_NOTICE (R319, R329, R333), of the term followed. -/
def execLossNotice (s : State) : Host.Outcome State Fault Refusal :=
  .next (s.onMsg mgLossNotice fun s i =>
    let f := i.msg.arg
    if f ≥ 64 ∨ !s.follows i.msg then s
    else
      let s := if f = s.pos then s
        else { s with agent := { s.agent with noticed := (f, i.msg.gen) :: s.agent.noticed.filter fun n => n.1 != f } }.syncSuspect
      if s.isWh then { s with wh := { s.wh with lossNamed := if s.wh.lossNamed.contains f then s.wh.lossNamed else f :: s.wh.lossNamed } }.evaluate else s)

/-- FENCE_REPROBE_INTERVAL (R322): every fenced unit's REPROBE is sent again under a new generation. -/
def execFenceReprobeInterval (s : State) : Host.Outcome State Fault Refusal :=
  if !s.isWh then .next s
  else
    let s := ((List.range 64).filter fun q => s.rd (Obj.posState q) == ustFenced).foldl (fun s q =>
      let s := s.raiseGen q
      s.reprobe q 0xFF (s.rd (Obj.posGeneration q)) true) s
    .next ((lkAll.filter fun k => (s.lk k).2 == lkFenced).foldl (fun s k =>
      let g := ((s.lk k).1 + 1) % 2 ^ 32
      let s := { s with wh := { s.wh with links := mput s.wh.links k (g, lkFenced) } }
      (lkEnds k).foldl (fun s e => s.reprobe e.1 e.2 g true) s) s)

/-- READY (R329, R342 step 3, R343), of the term followed. -/
def execReady (s : State) : Host.Outcome State Fault Refusal :=
  .next (s.onMsg mgReady fun s i =>
    let q := i.msg.origin
    match s.wh.run with
    | none => s
    | some r =>
      if !s.isWh ∨ i.msg.term ≠ s.rd Obj.agentTerm ∨ r.committed ∨ r.epoch ≠ i.msg.gen ∨ !r.members.contains q ∨ r.ready.contains q then s
      else if (i.msg.payload.take 8) ≠ tableDigest (tablesOf r.routeMap r.rail q) then ((s.abandonEpoch r.epoch).fencePos q).afterChange
      else
        { s with wh := { s.wh with run := some { r with ready := q :: r.ready } } }.tryCommit.tryEpoch)

/-- EPOCH_READY_TIMEOUT (R343): positions whose READY is missing are fenced, and the epoch is abandoned. -/
def execEpochReadyTimeout (s : State) : Host.Outcome State Fault Refusal :=
  match s.wh.run with
  | none => .next s
  | some r =>
    if !s.isWh ∨ r.committed then .next s
    else .next (((r.members.filter fun q => !r.ready.contains q).foldl (fun s q => s.fencePos q) (s.abandonEpoch r.epoch)).afterChange)

/-- EPOCH_ACK_TIMEOUT (R343): positions that have not acknowledged a committed epoch are fenced. -/
def execEpochAckTimeout (s : State) : Host.Outcome State Fault Refusal :=
  match s.wh.run with
  | none => .next s
  | some r =>
    let l := r.members.filter fun q => !r.acked.contains q
    if !s.isWh ∨ !r.committed ∨ s.allAcked r then .next s
    else .next ((l.foldl (fun s q => s.fencePos q) s).afterChange)

/-- DISCOVERY_REPORT_TIMEOUT (discovery step 4). -/
def execDiscoveryReportTimeout (s : State) : Host.Outcome State Fault Refusal :=
  .next (if s.isWh ∧ !s.wh.mapFormed then s.formMap else s)

/-! ## Election -/

/-- The quorum of R328: more than half of the positions ACTIVE in the latest map, or of `catchment_expected`. -/
def State.quorum (s : State) : Nat :=
  if s.agent.hbSeen then ((s.agent.hbStates.filter fun b => b == 1).length) / 2 + 1 else s.rd Obj.catchmentExpected / 2 + 1

/-- A rail map is kept persistently (R338, R447). -/
def State.keepRail (s : State) (b : Bytes) : State :=
  let s := { s with agent := { s.agent with railMap := b, railChunks := [] } }.wr Obj.railMapVersion (leAt b 0 4)
  { s with boot := { s.boot with flReg := mput s.boot.flReg Obj.railMapVersion.key (leAt b 0 4), flOct := mput s.boot.flOct Obj.railMapLoad.key b } }

/-- Byte strings whose keys and lengths are given, one after another. -/
def cutBytes : List (Nat × Nat) → Bytes → List (Nat × Bytes)
  | [], _ => []
  | (k, n) :: l, b => (k, b.take n) :: cutBytes l (b.drop n)

/-- A full replica is taken up (R325, R329 step 3). -/
def State.useReplica (s : State) : State :=
  let b := (s.agent.replica.map (·.2)).flatten
  let regs := getPairs b
  let held := getPairs (regs.2.drop 4)
  let links := getPairs held.2
  let n := fun (i : Nat) => leAt links.2 (8 * i) 8
  let rated := getPairs (links.2.drop 72)
  let status := getPairs rated.2
  let misses := getPairs status.2
  let supply := getPairs misses.2
  let out := getPairs supply.2
  let used := getPairs out.2
  let stat := getPairs used.2
  let octs := getPairs (stat.2.drop 128)
  let len := octs.1.foldl (fun a p => a + p.2) 0
  let rail := octs.2.drop len
  let s := { s with
    reg := regs.1.foldl (fun m (p : Nat × Nat) => mput m p.1 p.2) (s.reg.filter fun p => !whKey p.1)
    oct := (cutBytes octs.1 octs.2).foldl (fun m (p : Nat × Bytes) => mput m p.1 p.2) (s.oct.filter fun p => !whKey p.1) }
  let eqs : List (Nat × EqPoll) := rated.1.map fun e =>
    let m := mgetD misses.1 e.1 0
    let c := mgetD supply.1 e.1 0xFFFF
    (e.1, ⟨false, m % 256, e.2, mgetD status.1 e.1 0, bit m 8, c % 65536, c / 65536, bit m 9⟩)
  let slices : List Slice := held.1.map fun x => ⟨x.1, s.rd (Obj.sliceJob x.1), s.rd (Obj.sliceMembers x.1), x.2, 0, s.rd (Obj.sliceState x.1) == 0⟩
  let s := { s with
    steward := { s.steward with
      txSeq := n 0, safetySeq := n 1, grantedPos := (List.range 64).filter (bit (n 2)), alert := n 3 == 1, pumpLoss := n 4 == 1, pumpHandled := n 5 == 1,
      nextTray := n 6, keptBudget := n 7, trayLow := (List.range 16).filter (bit (n 8)), eqs := eqs
      trayOut := out.1, trayUsed := used.1, trayStat := stat.1, trayOk := [], lastCaps := stat.2.take 128 }
    wh := { s.wh with lastEpoch := leAt regs.2 0 4, slices := slices, links := links.1.map fun (e : Nat × Nat) => (e.1, (e.2 / 256, e.2 % 256)) } }
  let len := 560 + 8 * railRoutes rail
  if rail.length < 560 ∨ leAt rail 0 4 = leAt s.agent.railMap 0 4 then s else s.keepRail (rail.take len)

/-- The used entries of `equipment`, and the poll of one (R365). -/
def State.usedEq (s : State) : List Nat := (List.range 16).filter fun k => byteAt (s.rdo (Obj.equipment k)) 17 != 0
def State.eqOf (s : State) (k : Nat) : EqPoll := mgetD s.steward.eqs k EqPoll.init
def State.setEq (s : State) (k : Nat) (v : EqPoll) : State := { s with steward := { s.steward with eqs := mput s.steward.eqs k v } }

/-- A poll reads the three registers of an entry from its address, at TCP port 502 where the entry says 0 (R365). -/
def State.pollEq (s : State) (k : Nat) : State :=
  let e := s.rdo (Obj.equipment k)
  let port := if leAt e 18 2 = 0 then 502 else leAt e 18 2
  [22, 24, 26].foldl (fun s o => s.emit (.modbus (e.take 16) port (byteAt e 16) (byteAt e 20) (leAt e o 2))) (s.setEq k { s.eqOf k with waiting := true })

/-- An alert reaches the Wellhead: every entry is polled at once, and release stays clear until it is handled (R366, R368, R371). With no entry to poll it is handled
at once, and the caps go out with release. -/
def State.beginAlert (s : State) : State :=
  let l := s.usedEq
  let s := { s with steward := { s.steward with alert := !l.isEmpty, alertWait := l }, wh := { s.wh with capsDue := s.wh.capsDue || l.isEmpty } }
  l.foldl (fun s k => s.pollEq k) s

/-- The catchment steward takes office: its first CAP_TABLE is numbered 65,536 above the sequence its replica holds (R503), and a floor latch reported, or THROTTLE_N
low here, is an alert (R504). -/
def State.stewardOffice (s : State) : State :=
  let seq := max s.steward.txSeq (s.rd Obj.capSequence)
  let s := { s with steward := { s.steward with txSeq := (seq + 65535) % 2 ^ 32, pumpLoss := false, pumpHandled := false } }
  if !s.boot.throttleN ∨ s.steward.reports.any fun r => bit r.flags 0 then s.beginAlert else s

/-- A candidate with a quorum becomes the Wellhead (R328, R329): with a map in hand it shows the old Wellhead's position FENCED under a new generation, and waits until
every ACTIVE position has acknowledged the epoch in force, the later of its replica's and its own (R342 step 1). -/
def State.becomeWh (s : State) (t : Nat) : State :=
  let q := s.quorum
  let old := s.rd Obj.agentWellhead
  let map := s.agent.hbSeen
  let s := { s with wh := { Wellhead.init with links := s.wh.links, slices := s.wh.slices, mapFormed := map, dirty := true
                                               lastEpoch := max (s.rd Obj.agentEpoch) s.wh.lastEpoch }
                    agent := { s.agent with claim := none } }
  let s := if s.agent.replicaFull then s.useReplica
    else if map then
      let s := (List.range 64).foldl (fun s p => s.wr (Obj.posState p) (byteAt s.agent.hbStates p)) s
      s.wr Obj.whMapGen s.agent.hbMapGen
    else s
  let s := s.wr Obj.whEpoch (max (s.rd Obj.whEpoch) (s.rd Obj.agentEpoch))
  let s := { s with wh := { s.wh with lastEpoch := max s.wh.lastEpoch (max (s.rd Obj.agentEpoch) ((s.agent.prep.map PrepRun.epoch).getD 0)) } }
  let s := ((((s.wr Obj.agentState agWellhead).wr Obj.agentTerm t).wr Obj.agentWellhead s.pos).wr Obj.agentStandby 0xFF)
  let s := (((s.wr Obj.whPosition s.pos).wr Obj.whTerm t).wr Obj.whQuorum q).event 0x4C03 0x0E s.pos noCtx t 1 0
  let s := if map && decide (old < 64) && decide (old ≠ s.pos) && s.posActive old then s.setPos old ustFenced (2, 2) else s
  let run : EpochRun := ⟨s.rd Obj.whEpoch, s.rd Obj.whMapGen, s.routeMap, [], true, [], s.actives, s.agent.railMap⟩
  let s := if map then { s with wh := { s.wh with run := some run } } else s
  ((s.sendHeartbeat.sendReplica).tryEpoch).stewardOffice

/-- Grants that have arrived over both paths, and the candidate itself, reach the quorum (R328). -/
def State.checkQuorum (s : State) : State :=
  match s.agent.claim with
  | none => s
  | some c => if 1 + (c.grantsMgmt.filter fun q => q != s.pos && c.grantsData.contains q).length ≥ s.quorum then s.becomeWh c.term else s

/-- Claim the role for a term (R327, R330): an agent claims only while it is eligible, and grants its own claim, so it claims no term up to one that it has granted or
followed. -/
def State.claimFor (s : State) (t attempt : Nat) : State :=
  if s.rd Obj.whEligible ≠ 1 ∨ t ≤ max (s.rd Obj.agentTerm) s.agent.grantTerm then s
  else
    let r := s.mkMsg mgClaim 0 s.quorum []
    let s := r.1.sendAll { r.2 with term := t }
    { s with agent := { s.agent with claim := some ⟨t, [], [], attempt⟩, grantTerm := t, maxTerm := max t s.agent.maxTerm } }.checkQuorum

/-- Heard on both paths in the last 50 ms and eligible (R327). -/
def State.heardBoth (s : State) (q : Nat) : Bool :=
  let h := fun (l : List (Nat × Nat × Nat × Nat)) => l.any fun e => e.1 == q && e.2.1 == 1 && decide (s.now ≤ e.2.2.2 + 50000000)
  h s.agent.heardMgmt && h s.agent.heardData

/-- Whether a claim is granted (R327). -/
def State.grants (s : State) (c t : Nat) : Bool :=
  decide (max (s.rd Obj.agentTerm) s.agent.grantTerm < t) &&
    (decide (5 ≤ s.agent.missed) || s.rd Obj.agentState == agDiscovering) &&
    !((s.agent.heardMgmt ++ s.agent.heardData).any fun e => e.1 == c && e.2.1 == 0) &&
    ((s.agent.hbSeen && s.rd Obj.agentStandby == c) || !((List.range c).any s.heardBoth))

/-- CLAIM (R327): the grant goes out on both paths. -/
def execClaim (s : State) : Host.Outcome State Fault Refusal :=
  .next (s.onMsg mgClaim fun s i =>
    let c := i.msg.origin
    let t := i.msg.term
    if c ≥ 64 ∨ c = s.pos ∨ !s.grants c t then s
    else
      let s := { s with agent := { s.agent with grantTerm := t } }
      let r := s.mkMsg mgGrant 0 c []
      r.1.sendBoth c { r.2 with term := t })

/-- GRANT (R328). -/
def execGrant (s : State) : Host.Outcome State Fault Refusal :=
  .next (s.onMsg mgGrant fun s i =>
    let q := i.msg.origin
    match s.agent.claim with
    | none => s
    | some c =>
      if i.msg.term ≠ c.term ∨ i.msg.arg % 256 ≠ s.pos then s
      else
        let c := match i.path with
          | .mgmt => { c with grantsMgmt := if c.grantsMgmt.contains q then c.grantsMgmt else q :: c.grantsMgmt }
          | .data _ => { c with grantsData := if c.grantsData.contains q then c.grantsData else q :: c.grantsData }
        { s with agent := { s.agent with claim := some c } }.checkQuorum)

/-- HEARTBEAT_MISS_LIMIT (R327, R331): five periods without a heartbeat of the term followed; the agent is ORPHAN, and the standby claims the next term. -/
def execHeartbeatMissLimit (s : State) : Host.Outcome State Fault Refusal :=
  let st := s.rd Obj.agentState
  if st = agStarting ∨ st = agDiscovering ∨ st = agWellhead then .next s
  else
    let s := { s.wr Obj.agentState agOrphan with agent := { s.agent with missed := 5, orphanAt := if st = agOrphan then s.agent.orphanAt else s.now } }
    .next (if st = agStandby then s.claimFor (s.rd Obj.agentTerm + 1) 1 else s)

/-- CLAIM_RETRY_TIMER (R330): 10 ms after the claim the standby claims once more; at 20 ms it stops, until it follows a heartbeat of a new term. A second claim that it
may not make leaves the first one open until then. -/
def execClaimRetryTimer (s : State) : Host.Outcome State Fault Refusal :=
  match s.agent.claim with
  | none => .next s
  | some c =>
    if s.isWh then .next s
    else if c.attempt = 1 then .next ({ s with agent := { s.agent with claim := some { c with attempt := 2 } } }.claimFor (s.rd Obj.agentTerm + 2) 2)
    else .next { s with agent := { s.agent with claim := none, stopped := s.agent.stopped || c.attempt == 2 } }

/-- The rank of this agent among the healthy eligible positions it knows, itself among them, other than the old Wellhead and the standby (R330). -/
def State.claimRank (s : State) : Nat :=
  let known := fun (q : Nat) => (s.agent.heardMgmt ++ s.agent.heardData).any fun e => e.1 == q && e.2.1 == 1 && e.2.2.1 == 1
  ((List.range s.pos).filter fun q => known q && q != s.rd Obj.agentWellhead && q != s.rd Obj.agentStandby).length + 1

/-- CLAIM_STAGGER_TIMER (R330): a healthy eligible ORPHAN agent that has not stopped claims above every term it has seen, once 20 ms and 10 ms for its rank have passed
since it detected the loss. -/
def execClaimStaggerTimer (s : State) : Host.Outcome State Fault Refusal :=
  .next (if s.rd Obj.agentState = agOrphan ∧ s.agent.claim.isNone ∧ s.agent.stopped = false ∧ s.healthy ∧ s.agent.orphanAt + 20000000 + 10000000 * s.claimRank ≤ s.now then
      s.claimFor (max s.agent.maxTerm (max (s.rd Obj.agentTerm) s.agent.grantTerm) + 1) 3
    else s)

/-- DISCOVERY_CLAIM_TIMER (discovery step 2). -/
def execDiscoveryClaimTimer (s : State) : Host.Outcome State Fault Refusal :=
  .next (if s.rd Obj.agentState = agDiscovering ∧ !s.agent.hbSeen ∧ s.healthy then
      s.claimFor (max s.agent.maxTerm (max (s.rd Obj.agentTerm) s.agent.grantTerm) + 1) 3
    else s)

end Sys2Proof.Machine
end

