-- ==== Sys2Proof/Machine/Agent.lean ====
section
/-! DEFINITION. Probes, discovery, reports, the replica and the rail map at an agent, and slices (R314, R317, R318, R325, R334 to R338). -/

namespace Sys2Proof.Machine

open Sys2Proof

/-! ## Probes -/

/-- PROBE (R317): answered on the arrival port. -/
def execProbe (s : State) : Host.Outcome State Fault Refusal :=
  .next (s.onMsg mgProbe fun s i =>
    match i.path with
    | .mgmt => s
    | .data port =>
      if port ≥ 18 then s
      else
        let m := i.msg
        let pay := bytesOf [slice m.payload 0 4, leBytes 2 (s.rd Obj.ownCatchment), leBytes 1 s.pos, leBytes 1 port, zeros 8]
        let r := s.mkMsg mgProbeEcho m.gen m.arg pay
        r.1.probeOn port r.2)

/-- A probe of a port has succeeded or failed: three in a row decide the verdict, and a change is reported at once (R318). -/
def State.probeOutcome (s : State) (p : Nat) (ok : Bool) : State :=
  let b := mgetD s.agent.probes p PortProbe.init
  let b := { b with open_ := false, good := if ok then min 3 (b.good + 1) else 0, bad := if ok then 0 else min 3 (b.bad + 1) }
  let v := if b.good = 3 then 1 else if b.bad = 3 then 2 else 0
  let old := s.verdict p
  let s := { s with agent := { s.agent with probes := mput s.agent.probes p b } }.wr (Obj.probeVerdict p) v
  if s.verdict p = old then s else s.sendReport false

/-- Whether an echo names the expected far end (R243, R318). -/
def State.echoOk (s : State) (p : Nat) (pay : Bytes) : Bool :=
  if p < 14 then leAt pay 4 2 == s.rd Obj.ownCatchment && byteAt pay 6 == farPosition s.pos p && byteAt pay 7 == farPort s.pos p
  else byteAt pay 6 == s.pos && (match s.railExpect (p - 14) s.pos with
    | some c => leAt pay 4 2 == c
    | none => true)

/-- PROBE_ECHO (R318). -/
def execProbeEcho (s : State) : Host.Outcome State Fault Refusal :=
  .next (s.onMsg mgProbeEcho fun s i =>
    match i.path with
    | .mgmt => s
    | .data p =>
      let m := i.msg
      let b := mgetD s.agent.probes p PortProbe.init
      if p ≥ 18 ∨ !b.open_ ∨ m.arg ≠ b.nonce ∨ m.gen ≠ s.rd (Obj.portGeneration p) then s
      else
        let rtt := s.now - b.sentNs
        let ok := decide (rtt ≤ (if p < 14 then 20000 else 100000)) && s.echoOk p m.payload
        (s.wr (Obj.probeRttNs p) rtt).probeOutcome p ok)

/-- One port's probe (R317): an earlier one without an echo has failed by now. -/
def State.probePort (s : State) (p : Nat) : State :=
  let s := if (mgetD s.agent.probes p PortProbe.init).open_ then s.probeOutcome p false else s
  let f := s.free 32
  let r := f.2.mkMsg mgProbe (f.2.rd (Obj.portGeneration p)) f.1 (bytesOf [leBytes 2 (f.2.rd Obj.ownCatchment), leBytes 1 f.2.pos, leBytes 1 p, zeros 12])
  let b := mgetD r.1.agent.probes p PortProbe.init
  let s := { r.1 with agent := { r.1.agent with probes := mput r.1.agent.probes p { b with nonce := f.1, sentNs := r.1.now, open_ := true } } }
  s.probeOn p r.2

/-- PROBE_INTERVAL (R317): every port whose link is UP. -/
def execProbeInterval (s : State) : Host.Outcome State Fault Refusal :=
  .next (if s.rd Obj.agentState = agStarting then s else s.upPorts.foldl (fun s p => s.probePort p) s)

/-! ## Discovery and reports -/

/-- HELLO_INTERVAL (discovery step 1), which goes on while the agent is ORPHAN (R331). -/
def execHelloInterval (s : State) : Host.Outcome State Fault Refusal :=
  if s.rd Obj.agentState ≠ agDiscovering ∧ s.rd Obj.agentState ≠ agOrphan then .next s
  else
    let r := s.mkMsg mgHello 0 (s.rd Obj.whEligible % 2 + 2 * ofBool s.healthy) []
    .next (r.1.sendAll r.2)

/-- HELLO (R314, R323): an agent is noted; at the Wellhead one of term 0 tells that its package has completed a bring-up. -/
def execHello (s : State) : Host.Outcome State Fault Refusal :=
  .next (s.onMsg mgHello fun s i =>
    let q := i.msg.origin
    if q ≥ 64 ∨ i.msg.arg ≥ 4 then s
    else
      let e := (q, i.msg.arg % 2, i.msg.arg / 2, s.now)
      let s := match i.path with
        | .mgmt => { s with agent := { s.agent with heardMgmt := upsert (·.1) e s.agent.heardMgmt } }
        | .data _ => { s with agent := { s.agent with heardData := upsert (·.1) e s.agent.heardData } }
      if i.msg.term = 0 then s.cameBack q else s)

/-- REPORT_INTERVAL (R318). -/
def execReportInterval (s : State) : Host.Outcome State Fault Refusal :=
  .next (if s.rd Obj.agentState = agStarting then s else s.sendReport false)

/-! ## The replica and the rail map -/

/-- REPLICA (R325): a first chunk begins a new replica. -/
def execReplica (s : State) : Host.Outcome State Fault Refusal :=
  .next (s.onMsg mgReplica fun s i =>
    s.inTerm i.msg fun s =>
      let k := i.msg.arg % 65536
      let n := i.msg.arg / 65536
      let old := if k = 0 then [] else s.agent.replica
      let r := mput old k i.msg.payload
      { s with agent := { s.agent with replica := r, replicaFull := r.length == n } })

/-- RAIL_MAP (R338): chunks of a version newer than the one in force. -/
def execRailMap (s : State) : Host.Outcome State Fault Refusal :=
  .next (s.onMsg mgRailMap fun s i =>
    if !s.follows i.msg ∨ i.msg.gen ≤ s.rd Obj.railMapVersion then s
    else
      let k := i.msg.arg % 65536
      let n := i.msg.arg / 65536
      let c := mput (if k = 0 then [] else s.agent.railChunks) k i.msg.payload
      let b := (c.map (·.2)).flatten
      let len := 560 + 8 * railRoutes b
      if c.length = n ∧ len ≤ b.length then s.keepRail (b.take len) else { s with agent := { s.agent with railChunks := c } })

/-- A piece of a rail map (R338, R344): the largest map is 33,328 bytes. -/
def State.railLoad (s : State) (v : Bytes) : State × Nat :=
  let off := leAt v 0 4
  let d := v.drop 4
  if !s.isWh then (s, rRefused)
  else if v.length < 5 ∨ v.length > 1028 then (s, rBadLength)
  else if off + d.length > 33328 then (s, rOutOfRange)
  else ({ s with wh := { s.wh with railLoad := ((List.range d.length).zip d).foldl (fun m x => msetD m (off + x.1) 0 x.2) s.wh.railLoad } }, rOk)

def execRailMapLoad (w : Who) (v : Bytes) (s : State) : Host.Outcome State Fault Refusal :=
  .next (s.ctl w (isOpCus w) fun s => s.railLoad v)

/-- The rules of a rail map beside its version and catchment (R338). -/
def railBad (b : Bytes) : Bool :=
  let n := railRoutes b
  let cat := railCat b
  let exps := (List.range 4).flatMap fun k => (List.range 64).map (railExp b k)
  decide (n > 4096) || decide (cat = 0xFFFF) || !allZero (slice b 8 8) || slice b (528 + 8 * n) 32 != fit 32 (sha256 (b.take (528 + 8 * n))) ||
    (List.range n).any fun i =>
      !allZero (slice b (533 + 8 * i) 3) || decide (railLinks b i < 2 ∨ railLinks b i > 3) || !exps.contains (railVia b i) || railVia b i == 0xFFFF ||
        railDst b i == cat || railVia b i == cat || ((List.range i).any fun j => railDst b j == railDst b i)

/-- The rail map is checked and accepted, or refused with its code in `rail_map_status` (R338). -/
def State.railCommit (s : State) (v : Nat) : State × Nat :=
  if !s.isWh ∨ v ≠ 1 then (s, rRefused)
  else
    let byte := fun i => mgetD s.wh.railLoad i 0
    let head := (List.range 8).map byte
    let n := min 4096 (railRoutes head)
    let b := (List.range (560 + 8 * n)).map byte
    if railRoutes head > 4096 ∨ railBad b then (s.wr Obj.railMapStatus 2, rRefused)
    else if leAt b 0 4 ≤ s.rd Obj.railMapVersion then (s.wr Obj.railMapStatus 3, rRefused)
    else if s.rd Obj.ownCatchment ≠ 0xFFFF ∧ s.rd Obj.ownCatchment ≠ railCat b then (s.wr Obj.railMapStatus 4, rRefused)
    else
      let s := (s.wr Obj.railMapStatus 1).keepRail b
      let cs := pktChunks (b.length / 256 + 1) b
      let s := ((List.range 64).filter (· != s.pos)).foldl (fun s q =>
        ((List.range cs.length).zip cs).foldl (fun s x =>
          let r := s.mkMsg mgRailMap (leAt b 0 4) (x.1 + 65536 * cs.length) x.2
          r.1.sendBoth q r.2) s) s
      ({ s with wh := { s.wh with dirty := true, railLoad := [] } }.afterChange, rOk)

def execRailMapCommit (w : Who) (v : Nat) (s : State) : Host.Outcome State Fault Refusal :=
  .next (s.ctl w (isOpCus w) fun s => s.railCommit v)

/-! ## Slices -/

/-- Results of a slice command (R335). -/
abbrev slOk : Nat := 0
abbrev slMalformed : Nat := 1
abbrev slNoPositions : Nat := 2
abbrev slInUse : Nat := 3
abbrev slNotActive : Nat := 4
abbrev slTimeout : Nat := 5
abbrev slNotWellhead : Nat := 6

/-- Positions in a mask. -/
def posIn (m : Nat) : List Nat := (List.range 64).filter fun q => bit m q

/-- A position that belongs to no slice but perhaps one. -/
def State.posFree (s : State) (except_ q : Nat) : Bool := !s.wh.slices.any fun x => x.num != except_ && bit x.members q

/-- A new slice waits for its members' acknowledgements (R336). -/
def State.slForm (s : State) (n job onLoss members : Nat) : State :=
  let s := { s with wh := { s.wh with slices := s.wh.slices ++ [(⟨n, job, members, onLoss, 0, true⟩ : Slice)] } }
  ((s.wr (Obj.sliceJob n) job).wr Obj.sliceStatus 0x100).sliceChange n 0 members 0 members

/-- The members that a shape takes (R336). -/
def State.slShape (s : State) (shape count mask : Nat) : Option Nat :=
  let ok := fun q => s.posActive q && s.posFree 64 q
  let lines := fun (f : Nat → List Nat) =>
    let l := ((List.range 8).filter fun i => (f i).all ok).take count
    if l.length < count then none else some (maskOf fun q => l.any fun i => (f i).contains q)
  if shape = 1 then lines fun i => (List.range 8).map (8 * i + ·)
  else if shape = 2 then lines fun i => (List.range 8).map (8 * · + i)
  else if shape = 3 then
    let l := ((List.range 64).filter ok).take count
    if l.length < count then none else some (maskOf l.contains)
  else some mask

/-- CREATE (R335, R336). -/
def State.slCreate (s : State) (b : Bytes) : State :=
  let shape := byteAt b 1
  let n := byteAt b 2
  let job := leAt b 4 2
  let count := byteAt b 6
  let mask := leAt b 8 8
  if byteAt b 0 ≠ 1 ∨ shape > 3 ∨ n > 63 ∨ byteAt b 3 > 1 ∨ job = 0 ∨ job > 0xFFFE ∨ byteAt b 7 ≠ 0 ∨
      (if shape = 0 then count ≠ 0 ∨ mask = 0 else mask ≠ 0 ∨ count = 0 ∨ count > (if shape = 3 then 64 else 8)) then s.slDone slMalformed
  else if s.wh.slices.any fun x => x.num == n || x.job == job then s.slDone slInUse
  else if shape = 0 then
    if (posIn mask).any fun q => !s.posActive q then s.slDone slNotActive
    else if (posIn mask).any fun q => !s.posFree 64 q then s.slDone slInUse
    else s.slForm n job (byteAt b 3) mask
  else match s.slShape shape count 0 with
    | some m => s.slForm n job (byteAt b 3) m
    | none => s.slDone slNoPositions

/-- The fields that REPAIR and RETIRE leave 0 (R335). -/
def slZero (b : Bytes) : Bool := byteAt b 1 == 0 && byteAt b 3 == 0 && allZero (slice b 4 4) && decide (byteAt b 2 ≤ 63)

/-- REPAIR (R336). -/
def State.slRepair (s : State) (b : Bytes) : State :=
  let n := byteAt b 2
  let mask := leAt b 8 8
  if !slZero b then s.slDone slMalformed
  else match s.wh.slices.find? fun x => x.num = n with
    | none => s.slDone slNotActive
    | some x =>
      if s.rd (Obj.sliceState n) ≠ 2 then s.slDone slNotActive
      else
        let m := if mask = 0 then x.members else mask
        if (posIn m).any fun q => !s.posActive q then s.slDone slNotActive
        else if (posIn m).any fun q => !s.posFree n q then s.slDone slInUse
        else (s.sliceChange n 1 m 0 (x.members ||| m)).slDone slOk

/-- RETIRE (R336). -/
def State.slRetire (s : State) (b : Bytes) : State :=
  let n := byteAt b 2
  if !slZero b ∨ leAt b 8 8 ≠ 0 then s.slDone slMalformed
  else match s.wh.slices.find? fun x => x.num = n with
    | none => s.slDone slNotActive
    | some x =>
      let st := s.rd (Obj.sliceState n)
      if st ≠ 1 ∧ st ≠ 2 then s.slDone slNotActive
      else ((s.wr Obj.sliceStatus 0x100).sliceChange n 3 x.members (s.rd (Obj.sliceLost n)) x.members).slRetired n

/-- A slice command (R335): refused while one is BUSY, and at a package that is not the Wellhead (R344). -/
def State.sliceCmd (s : State) (w : Who) (b : Bytes) (k : State → State) : State :=
  s.ctl w (isOpCus w) fun s =>
    if b.length ≠ 16 then (s, rBadLength)
    else if s.rd Obj.sliceStatus / 256 = 1 then (s, rRefused)
    else if !s.isWh then (s.slDone slNotWellhead, rRefused)
    else ((k s).sendReplica, rOk)

/-- SLICE_CREATE; a command of an unknown code is malformed here. -/
def execSliceCreate (w : Who) (cmd : Bytes) (s : State) : Host.Outcome State Fault Refusal :=
  .next (if byteAt cmd 0 = 2 ∨ byteAt cmd 0 = 3 then s else s.sliceCmd w cmd fun s => s.slCreate cmd)
def execSliceRepair (w : Who) (cmd : Bytes) (s : State) : Host.Outcome State Fault Refusal :=
  .next (if byteAt cmd 0 ≠ 2 then s else s.sliceCmd w cmd fun s => s.slRepair cmd)
def execSliceRetire (w : Who) (cmd : Bytes) (s : State) : Host.Outcome State Fault Refusal :=
  .next (if byteAt cmd 0 ≠ 3 then s else s.sliceCmd w cmd fun s => s.slRetire cmd)

/-- SLICE_ACK (R336): a forming slice becomes ACTIVE, or stays DEGRADED when it has lost a member meanwhile, once its members have acknowledged; a retiring one is
removed once its reachable members have. -/
def execSliceAck (s : State) : Host.Outcome State Fault Refusal :=
  .next (s.onMsg mgSliceAck fun s i =>
    let n := i.msg.arg % 256
    let q := i.msg.origin
    match s.wh.slices.find? fun x => x.num = n with
    | none => s
    | some x =>
      if !s.isWh ∨ i.msg.term ≠ s.rd Obj.agentTerm ∨ i.msg.gen ≠ s.rd (Obj.sliceGeneration n) ∨ !bit x.members q ∨ bit x.acked q then s
      else
        let x := { x with acked := x.acked + 2 ^ q }
        let s := { s with wh := { s.wh with slices := updFirst (fun y => y.num == n) (fun _ => x) s.wh.slices } }
        let st := s.rd (Obj.sliceState n)
        if st = 0 ∧ x.acked = x.members then ((s.sliceChange n 1 x.members 0 x.members).slDone slOk).sendReplica
        else if st = 2 ∧ x.forming ∧ x.acked = x.members then
          ({ s with wh := { s.wh with slices := updFirst (fun y => y.num == n) (fun _ => { x with forming := false }) s.wh.slices } }.slDone slOk).sendReplica
        else if st = 3 then (s.slRetired n).replicate
        else s)

/-- SLICE_ACK_TIMEOUT (R336). -/
def execSliceAckTimeout (n : Nat) (s : State) : Host.Outcome State Fault Refusal :=
  if !s.isWh ∨ !(s.wh.slices.any fun x => x.num == n) then .next s
  else
    let st := s.rd (Obj.sliceState n)
    .next (if st = 0 ∨ s.wh.slices.any fun x => x.num == n && x.forming then (s.slRemove n slTimeout).sendReplica else if st = 3 then (s.slRemove n slOk).sendReplica else s)

/-- A slice notice of one context (R337). -/
def State.sliceNotice (s : State) (c v : Nat) : State :=
  let r := s.notifyPut c v 0xFFFFFF 1
  if r.2.1 = .ok then r.1 else r.1.bump Obj.sliceNoticesDropped

/-- SLICE (R336, R337): acknowledged; a state that the slice of this job had not is put into the notify rings of the job's contexts. A slice that is removed has no
state of R337's table, and gives no notice (DESIGN CHOICE). -/
def execSlice (s : State) : Host.Outcome State Fault Refusal :=
  .next (s.onMsg mgSlice fun s i =>
    s.inTerm i.msg fun s =>
      let n := i.msg.arg % 256
      let st := bits i.msg.arg 8 8
      let job := i.msg.arg / 65536
      let known := mget s.agent.sliceSt n
      let s := { s with agent := { s.agent with sliceSt := mput s.agent.sliceSt n (st + 256 * job) } }
      let v := 2 ^ 56 + st * 2 ^ 48 + n * 2 ^ 40 + i.msg.gen
      let s := if known = some (st + 256 * job) ∨ st > 3 then s
        else ((List.range 64).filter fun c => s.rd (Obj.niJob c) == job && job != 0 && s.ctxSt c != ctxFree).foldl (fun s c => s.sliceNotice c v) s
      let r := s.mkMsg mgSliceAck i.msg.gen n []
      r.1.sendBoth i.msg.origin r.2)

end Sys2Proof.Machine
end

