-- ==== Sys2Proof/Machine/View.lean ====
section
/-! DEFINITION. Reading and writing views of narrow tensors in a tile's SRAM: packing, scales, escalated blocks, the quantizer and its stores
(R32 to R58, R134 to R136, R529). -/

namespace Sys2Proof.Machine

open Sys2Proof

/-- The codes of `n` elements of `w` bits packed from bit `off` of a byte string (R32). -/
def unpack (w off n : Nat) (d : Bytes) : List Nat :=
  let v := leNat d
  (List.range n).map fun k => bits v (off + w * k) w

/-- Codes of `w` bits packed into bytes (R32). -/
def pack (w : Nat) (l : List Nat) : Bytes :=
  leBytes (cdiv (w * l.length) 8) (l.foldr (fun c v => v * 2 ^ w + c % 2 ^ w) 0)

/-- An access to the planes of a view, for the tile `n` and the context of the task: what failed first, if anything. -/
structure PlaneR (α : Type) where
  s : State
  st : Status
  addr : Nat
  val : α

def PlaneR.ok {α : Type} (s : State) (a : α) : PlaneR α := ⟨s, .ok, 0, a⟩

def PlaneR.bind {α β : Type} (p : PlaneR α) (d : β) (k : State → α → PlaneR β) : PlaneR β :=
  if p.st = .ok then k p.s p.val else ⟨p.s, p.st, p.addr, d⟩

/-- Read bytes at an offset of the tile's own SRAM. -/
def State.planeRead (s : State) (n ctx off len : Nat) : PlaneR Bytes :=
  let a := s.read ctx .tile permRead (.sram n off) len
  ⟨a.s, a.st, a.addr, a.data⟩

def State.planeWrite (s : State) (n ctx off : Nat) (d : Bytes) : PlaneR Unit :=
  let a := s.write ctx .tile permWrite (.sram n off) d
  ⟨a.s, a.st, a.addr, ()⟩

/-- The offset of a tile-relative base. -/
def rel (a : Nat) : Nat := a % 2097152

/-- Bytes of one element slot of a block-scaled format (R32). -/
def slotBytes (f : Nat) : Nat := fmtBits f * fmtBlock f / 8

/-- Bytes of one extension record (R56). -/
def recBytes (f : Nat) : Nat := if f = 0x10 then 48 else 16

/-- The number of set bits below bit `b` (R56). -/
def popBelow (v b : Nat) : Nat := ((List.range b).filter fun i => bit v i).length

/-- The scale exponent of each element of a block from its scale entry; nothing when the block decodes as NaN (R33, R34). -/
def scaleOf (f entry : Nat) (esc : Bool) (k : Nat) : Option Int :=
  let c := entry % 256
  if c = 0xFF then none
  else
    let s := if f = 0x0E ∧ !esc then bits entry (8 + 2 * (k / 8)) 2 else 0
    some ((c : Int) - 127 - s)

/-- The values of a block from its element codes and its scale entry. -/
def blockNums (f entry : Nat) (esc : Bool) (codes : List Nat) : List Num :=
  codes.mapIdx fun k c =>
    match scaleOf f entry esc k with
    | none => .nan
    | some x => (elemNum (if esc then 0x03 else f) c).scale x

/-- The full E4M3 codes of an escalated block from its slot and its extension record (R56). -/
def escCodes (f : Nat) (slot ext : Bytes) : List Nat :=
  let hi := unpack 4 0 32 slot
  let lo := unpack 4 0 32 ext
  (List.zipWith (fun h l => 16 * h + l) hi lo) ++ if f = 0x10 then unpack 8 128 32 ext else []

/-- The formats whose blocks can be escalated (R53); a read of a tensor of another one finds no escalated block (R529). -/
def fmtEsc (f : Nat) : Bool := f == 0x0C || f == 0x0E || f == 0x0F || f == 0x10

/-- Read one block of a block-scaled view (R32, R56, R58, R529). -/
def State.blockRead (s : State) (n ctx : Nat) (v : Bytes) (b : Nat) : PlaneR (List Num) :=
  let f := vFormat v
  let sw := fmtScaleBytes f
  (s.planeRead n ctx (rel (vElemBase v) + slotBytes f * b) (slotBytes f)).bind [] fun s slot =>
  (s.planeRead n ctx (rel (vScaleBase v) + sw * b) sw).bind [] fun s sc =>
  if vEmapBase v = 0 then .ok s (blockNums f (leNat sc) false (unpack (fmtBits f) 0 (fmtBlock f) slot))
  else
    (s.planeRead n ctx (rel (vEmapBase v) + 32 + 16 * (b / 64)) 16).bind [] fun s g =>
    let esc := leAt g 0 8
    if !fmtEsc f ∨ !bit esc (b % 64) then .ok s (blockNums f (leNat sc) false (unpack (fmtBits f) 0 (fmtBlock f) slot))
    else
      (s.planeRead n ctx (rel (vExtBase v) + recBytes f * (leAt g 8 4 + popBelow esc (b % 64))) (recBytes f)).bind [] fun s x =>
      .ok s (blockNums f (leNat sc) true (escCodes f slot x))

/-- Read `k` blocks from block `b` on. -/
def State.blocksRead : Nat → State → Nat → Nat → Bytes → Nat → PlaneR (List Num)
  | 0, s, _, _, _, _ => .ok s []
  | k + 1, s, n, ctx, v, b =>
    (s.blockRead n ctx v b).bind [] fun s x =>
    (State.blocksRead k s n ctx v (b + 1)).bind [] fun s y => .ok s (x ++ y)

/-- Read one row of a view: its `dim0` values (R136). -/
def State.rowRead (s : State) (n ctx : Nat) (v : Bytes) (i1 : Nat) : PlaneR (List Num) :=
  let f := vFormat v
  let i := vIndex v 0 i1
  if fmtScaled f then
    (State.blocksRead (cdiv (vDim0 v) (fmtBlock f)) s n ctx v i).bind [] fun s x => .ok s (x.take (vDim0 v))
  else
    let w := fmtBits f
    let lo := i * w / 8
    (s.planeRead n ctx (rel (vElemBase v) + lo) (cdiv (i * w + w * vDim0 v) 8 - lo)).bind [] fun s d =>
    .ok s ((unpack w (i * w % 8) (vDim0 v) d).map (elemNum f))

/-- Read `k` rows of a view from row `i1` on. -/
def State.rowsRead : Nat → State → Nat → Nat → Bytes → Nat → PlaneR (List (List Num))
  | 0, s, _, _, _, _ => .ok s []
  | k + 1, s, n, ctx, v, i1 =>
    (s.rowRead n ctx v i1).bind [] fun s x =>
    (State.rowsRead k s n ctx v (i1 + 1)).bind [] fun s y => .ok s (x :: y)

/-- What the quantizer makes of one block (R45 to R50). -/
structure QBlock where
  entry : Nat
  codes : List Nat
  sat : Nat
  ftz : Nat
  nonfin : Bool
  deriving DecidableEq, Repr

/-- The larger magnitude of two, as `m × 2 ^ e`. -/
def magMax (a b : Nat × Int) : Nat × Int := if magLe a.1 a.2 b.1 b.2 then b else a

/-- The largest magnitude among the finite values (R46). -/
def amaxOf (l : List Num) : Nat × Int :=
  l.foldl (fun a x => match x with
    | .fin _ m e => magMax a (m, e)
    | _ => a) (0, 0)

/-- The shared exponent, clamped by the scale code (R46). -/
def sharedExp (f : Nat) (floorMode : Bool) (a : Nat × Int) : Int :=
  let v := vmaxOf f
  let e0 := flog2 a.1 a.2 - flog2 v.1 v.2
  let e := if floorMode ∨ magLe a.1 a.2 v.1 (v.2 + e0) then e0 else e0 + 1
  max 0 (min 254 (e + 127)) - 127

/-- The sub-scale of one group of a UF4 block (R47). -/
def subScale (e : Int) (l : List Num) : Nat :=
  let a := amaxOf l
  if a.1 = 0 then 3
  else (([3, 2, 1, 0].find? fun s : Nat => magLe a.1 a.2 3 (1 + e - s))).getD 0

/-- Quantize one block to a block-scaled element format (R46 to R50); `r` gives the random value of each element. The exponent that R47 compares with is the clamped one,
that of the scale code (DESIGN CHOICE), and a UF4 block with scale 0xFF has sub-scale bits 0 (DESIGN CHOICE). -/
def quantBlock (f mode : Nat) (floorMode : Bool) (r : Nat → Nat) (l : List Num) : QBlock :=
  if l.any fun x => !x.isFin then ⟨0xFF, l.map fun _ => 0, 0, 0, true⟩
  else
    let a := amaxOf l
    if a.1 = 0 then ⟨0, l.map fun _ => 0, 0, 0, false⟩
    else
      let e := sharedExp f floorMode a
      let subs := if f = 0x0E then (List.range 4).map fun g => subScale e ((l.drop (8 * g)).take 8) else []
      let q := l.mapIdx fun k x => match x with
        | .fin neg m x => quantElem f mode (r k) neg m (x - e + (subs.getD (k / 8) 0 : Nat))
        | _ => ⟨0, false, false⟩
      let entry := (e + 127).toNat + (subs.foldr (fun s v => 4 * v + s) 0) * 256
      ⟨entry, q.map (·.code), (q.filter (·.sat)).length, (q.filter (·.ftz)).length, false⟩

/-- Whether a block escalates (R53): its losses pass a threshold, doubled for UT2; 32 never escalates. -/
def escalates (f satThr ftzThr : Nat) (q : QBlock) : Bool :=
  let k := if f = 0x10 then 2 else 1
  fmtEsc f && !q.nonfin &&
    ((decide (satThr < 32) && decide (q.sat > k * satThr)) || (decide (ftzThr < 32) && decide (q.ftz > k * ftzThr)))

/-- A store's conversion settings: rounding mode, scale mode, thresholds in force (R53, R63), and the random values. -/
structure Conv where
  mode : Nat
  floorMode : Bool
  sat : Nat
  ftz : Nat
  rnd : Nat → Nat

/-- Add the losses of written blocks to the package counts (R54, R62). -/
def State.countQuant (s : State) (sat ftz nonfin : Nat) : State :=
  ((s.bumpBy Obj.quantSatCount sat).bumpBy Obj.quantFtzCount ftz).bumpBy Obj.quantNonfiniteBlocks nonfin

/-- Write one block in its narrow form. -/
def State.writeNarrow (s : State) (n ctx : Nat) (v : Bytes) (b : Nat) (q : QBlock) : PlaneR Unit :=
  let f := vFormat v
  let sw := fmtScaleBytes f
  (s.planeWrite n ctx (rel (vElemBase v) + slotBytes f * b) (pack (fmtBits f) q.codes)).bind () fun s _ =>
  s.planeWrite n ctx (rel (vScaleBase v) + sw * b) (leBytes sw q.entry)

/-- Write one block in FP8: slot, scale entry and extension record (R54, R56). -/
def State.writeEsc (s : State) (n ctx : Nat) (v : Bytes) (b rec : Nat) (q : QBlock) : PlaneR Unit :=
  let f := vFormat v
  let sw := fmtScaleBytes f
  let c := q.codes.take 32
  (s.planeWrite n ctx (rel (vExtBase v) + recBytes f * rec)
    (pack 4 (c.map (· % 16)) ++ if f = 0x10 then pack 8 (q.codes.drop 32) else [])).bind () fun s _ =>
  (s.planeWrite n ctx (rel (vElemBase v) + slotBytes f * b) (pack 4 (c.map (· / 16)))).bind () fun s _ =>
  s.planeWrite n ctx (rel (vScaleBase v) + sw * b) (leBytes sw q.entry)

/-- Add to a 32-bit count of the map header, which stops at its largest value (R55). -/
def State.headerAdd (s : State) (n ctx : Nat) (v : Bytes) (off k : Nat) : PlaneR Unit :=
  if k = 0 then .ok s ()
  else
    (s.planeRead n ctx (rel (vEmapBase v) + off) 4).bind () fun s d =>
    s.planeWrite n ctx (rel (vEmapBase v) + off) (leBytes 4 (min (leNat d + k) 0xFFFFFFFF))

/-- One block to be stored: its number, its narrow form, and its FP8 form where it meets the escalation rule. -/
structure StBlock where
  b : Nat
  q : QBlock
  esc : Option QBlock
  deriving DecidableEq, Repr

/-- Write blocks, escalated ones at records from `base` on in block order (R56). -/
def State.writeBlocks : List StBlock → State → Nat → Nat → Bytes → Nat → PlaneR Unit
  | [], s, _, _, _, _ => .ok s ()
  | k :: l, s, n, ctx, v, base =>
    match k.esc with
    | some e =>
      (s.writeEsc n ctx v k.b base e).bind () fun s _ =>
      State.writeBlocks l ((s.bump Obj.escBlocks).countQuant e.sat e.ftz 0) n ctx v (base + 1)
    | none =>
      (s.writeNarrow n ctx v k.b k.q).bind () fun s _ =>
      State.writeBlocks l (s.countQuant k.q.sat k.q.ftz (ofBool k.q.nonfin)) n ctx v base

/-- Store one group of a tensor with a map (R57, R529). A block that a store covers twice, because its rows overlap, counts twice and takes two extension records in row
order (DESIGN CHOICE). -/
def State.storeGroup (s : State) (n ctx : Nat) (v : Bytes) (g : Nat) (l : List StBlock) : PlaneR Unit :=
  let m := (l.filter fun k => k.esc.isSome).length
  let written : PlaneR (List StBlock) :=
    if m = 0 then (State.writeBlocks l s n ctx v 0).bind [] fun s _ =>
      (s.planeWrite n ctx (rel (vEmapBase v) + 32 + 16 * g) (zeros 16)).bind [] fun s _ => .ok s l
    else
      (s.planeRead n ctx (rel (vEmapBase v)) 8).bind [] fun s h =>
      let base := leAt h 0 4
      (s.headerAdd n ctx v 0 m).bind [] fun s _ =>
      if base + m > leAt h 4 4 then
        let l := l.map fun k => { k with esc := none }
        (s.headerAdd n ctx v 12 m).bind [] fun s _ =>
        (State.writeBlocks l (s.bumpBy Obj.escSuppressed m) n ctx v 0).bind [] fun s _ =>
        (s.planeWrite n ctx (rel (vEmapBase v) + 32 + 16 * g) (zeros 16)).bind [] fun s _ => .ok s l
      else
        let bits_ := (l.filter fun k => k.esc.isSome).foldl (fun x k => setBit x (k.b % 64) true) 0
        (State.writeBlocks l s n ctx v base).bind [] fun s _ =>
        (s.planeWrite n ctx (rel (vEmapBase v) + 32 + 16 * g) (leBytes 8 bits_ ++ leBytes 4 base ++ zeros 4)).bind [] fun s _ => .ok s l
  written.bind () fun s l =>
  let form := fun k : StBlock => k.esc.getD k.q
  (s.headerAdd n ctx v 8 (l.filter fun k => k.esc.isSome).length).bind () fun s _ =>
  (s.headerAdd n ctx v 16 (l.foldl (fun a k => a + (form k).sat) 0)).bind () fun s _ =>
  (s.headerAdd n ctx v 20 (l.foldl (fun a k => a + (form k).ftz) 0)).bind () fun s _ =>
  s.headerAdd n ctx v 24 (l.foldl (fun a k => a + ofBool k.q.nonfin) 0)

def State.storeGroups : List Nat → State → Nat → Nat → Bytes → List StBlock → PlaneR Unit
  | [], s, _, _, _, _ => .ok s ()
  | g :: gs, s, n, ctx, v, l =>
    (s.storeGroup n ctx v g (l.filter fun k => k.b / 64 = g)).bind () fun s _ => State.storeGroups gs s n ctx v l

/-- The first block of row `i1` of a block-scaled view, and how many blocks a row covers. -/
def rowBlock (v : Bytes) (i1 : Nat) : Nat := vIndex v 0 i1
def rowBlocks (v : Bytes) : Nat := vDim0 v / fmtBlock (vFormat v)

/-- Whether a store to a view covers a block. -/
def coversBlock (v : Bytes) (b : Nat) : Bool :=
  (List.range (vDim1 v)).any fun i1 => decide (rowBlock v i1 ≤ b ∧ b < rowBlock v i1 + rowBlocks v)

/-- Every block a store to a view covers, without repeats, in rising order of its rows. -/
def coveredBlocks (v : Bytes) : List Nat :=
  ((List.range (vDim1 v)).map fun i1 => (List.range (rowBlocks v)).map fun j => rowBlock v i1 + j).flatten.dedup

/-- The coverage rule of R57 for a store to a tensor with a map. -/
def coverageOk (v : Bytes) : Bool :=
  let mb := vMapBlocks v
  (coveredBlocks v).all fun b =>
    (decide (mb = 0) || decide (b < mb)) &&
      (List.range 64).all fun i =>
        let c := 64 * (b / 64) + i
        (decide (mb ≠ 0) && decide (mb ≤ c)) || coversBlock v c

/-- Convert the rows of a store into blocks (R45, R53, R54). -/
def convBlocks (v : Bytes) (c : Conv) (rows : List (List Num)) : List StBlock :=
  let f := vFormat v
  let bs := fmtBlock f
  (rows.mapIdx fun i1 row => (List.range (rowBlocks v)).map fun j =>
    let src := (row.drop (bs * j)).take bs
    let at_ := 2 * (i1 * vDim0 v + bs * j)
    let q := quantBlock f c.mode c.floorMode (fun k => c.rnd (at_ + k)) src
    let e := if escalates f c.sat c.ftz q then some (quantBlock 0x08 c.mode false (fun k => c.rnd (at_ + bs + k)) src) else none
    (⟨rowBlock v i1 + j, q, e⟩ : StBlock)).flatten

/-- Quantize one value to an unscaled target (R48 to R50): its code, saturations, flushes, and NaN elements counted. A source of −0 stays −0 in FP32, BF16 and FP16
(DESIGN CHOICE). -/
def quantPlain (f mode r : Nat) (x : Num) : Nat × Nat × Nat × Nat :=
  match x with
  | .fin neg m e =>
    if f = 0x00 ∨ f = 0x01 ∨ f = 0x02 then
      match elemFp f with
      | some p =>
        let c := p.enc mode r 0 (.fin neg m e)
        if m ≠ 0 ∧ c % 2 ^ (p.eb + p.mb) = 0 then (0, 0, 1, 0) else (c, 0, 0, 0)
      | none => (0, 0, 0, 0)
    else
      let q := quantElem f mode r neg m e
      (q.code, ofBool q.sat, ofBool q.ftz, 0)
  | .inf neg =>
    if f = 0x03 then (0x7F + 128 * (r % 2), 0, 0, 0)
    else match elemFp f with
      | some p => (p.sign neg p.infCode, 0, 0, 0)
      | none => (signCode f neg (vmaxCode f), 1, 0, 0)
  | .nan =>
    if f = 0x03 then (0x7F + 128 * (r % 2), 0, 0, 0)
    else match elemFp f with
      | some p => (p.nanCode r, 0, 0, 0)
      | none => (0, 0, 0, 1)

/-- Write the rows of a store to an unscaled target, merging the bits beside a row that does not fill its bytes. -/
def State.storePlain : List (List Num) → State → Nat → Nat → Bytes → Conv → Nat → PlaneR Unit
  | [], s, _, _, _, _, _ => .ok s ()
  | row :: l, s, n, ctx, v, c, i1 =>
    let w := fmtBits (vFormat v)
    let q := row.mapIdx fun k x => quantPlain (vFormat v) c.mode (c.rnd (2 * (i1 * vDim0 v + k))) x
    let at_ := vIndex v 0 i1 * w
    let lo := at_ / 8
    let len := cdiv (at_ + w * row.length) 8 - lo
    let put := fun (s : State) (old : Nat) =>
      let code := q.foldr (fun x a => a * 2 ^ w + x.1 % 2 ^ w) 0
      let hiAt := at_ % 8 + w * row.length
      s.planeWrite n ctx (rel (vElemBase v) + lo) (leBytes len (old % 2 ^ (at_ % 8) + code * 2 ^ (at_ % 8) + old / 2 ^ hiAt * 2 ^ hiAt))
    let r := if at_ % 8 = 0 ∧ w * row.length % 8 = 0 then put s 0
      else (s.planeRead n ctx (rel (vElemBase v) + lo) len).bind () fun s d => put s (leNat d)
    r.bind () fun s _ =>
    let s := s.countQuant (q.foldl (fun a x => a + x.2.1) 0) (q.foldl (fun a x => a + x.2.2.1) 0) (q.foldl (fun a x => a + x.2.2.2) 0)
    State.storePlain l s n ctx v c (i1 + 1)

/-- The settings of a store from its view and the defaults in force at issue (R53, R63, R135); its random values are free (R52). -/
def State.convOf (s : State) (v : Bytes) (satDef ftzDef : Nat) : Conv :=
  ⟨vConv v % 4, bit (vConv v) 2, if vSat v = 0xFF then satDef else vSat v, if vFtz v = 0xFF then ftzDef else vFtz v,
    fun k => Config.freeValue (s.fresh + k)⟩

/-- Store rows into a view through the quantizer (R45 to R58). -/
def State.storeView (s : State) (n ctx : Nat) (v : Bytes) (satDef ftzDef : Nat) (rows : List (List Num)) : PlaneR Unit :=
  let c := s.convOf v satDef ftzDef
  let s := { s with fresh := s.fresh + 2 * vDim0 v * vDim1 v }
  if !fmtScaled (vFormat v) then State.storePlain rows s n ctx v c 0
  else
    let l := convBlocks v c rows
    if vEmapBase v = 0 then
      let m := (l.filter fun k => k.esc.isSome).length
      State.writeBlocks (l.map fun k => { k with esc := none }) (s.bumpBy Obj.escSuppressed m) n ctx v 0
    else State.storeGroups ((l.map fun k => k.b / 64).dedup) s n ctx v l

end Sys2Proof.Machine
end

