-- ==== Sys2Proof/Machine/Array.lean ====
section
/-! DEFINITION. Array operations, drains and conversions: MMA, DRAIN and QCVT with their completions, and shadow checks (R38 to R44, R59, R60, R67 to
R75, R127 to R133). -/

namespace Sys2Proof.Machine

open Sys2Proof

/-- An unscaled integer operand format (R39). -/
def fmtInt (f : Nat) : Bool := f == 0x05 || f == 0x06 || f == 0x07

/-- A format of the 16-bit class (R31). -/
def fmt16 (f : Nat) : Bool := f == 0x01 || f == 0x02

/-- The accumulator format of an operand pair (R39). -/
def pairFmt (fa fb : Nat) : AccFmt := if fmtInt fa ∧ fmtInt fb then .int32 else .fp32

/-- Products summed exactly before one rounding: 4 in the 16-bit class, a 64-element pair for UT2 against UT2, else 32 (R40, R41). -/
def pairGroup (fa fb : Nat) : Nat :=
  if fmt16 fa ∨ fmt16 fb then 4 else if fa = 0x10 ∧ fb = 0x10 then 64 else 32

/-- A list in pieces of `n`. -/
def chunks {α : Type} (n : Nat) (l : List α) : List (List α) :=
  (List.range (cdiv l.length n)).map fun i => (l.drop (n * i)).take n

/-- The 16-element segments that an array skips, from its A rows (R73). -/
def skipMask (rows : List (List Num)) (dim0 : Nat) : List Bool :=
  (List.range (dim0 / 16)).map fun g => rows.all fun r => ((r.drop (16 * g)).take 16).all Num.isZero

/-- The products of a row and a column; those of a skipped segment are +0 (R44). -/
def products (a b : List Num) (skip : List Bool) : List Num :=
  (List.zipWith Num.mul a b).mapIdx fun k p => if skip.getD (k / 16) false then .fin false 0 0 else p

/-- The exact sum of a block of products. -/
def blockSum (l : List Num) : Num := l.foldl Num.add (.fin false 0 0)

/-- An FP32 accumulator over the block sums, with the overflow to count at most once (R40, R41, R43). -/
def accF (acc : Num) (l : List (List Num)) : Num × Nat :=
  l.foldl (fun a p =>
    let t := a.1.add (blockSum p)
    let r := t.r32
    (r, if t.isFin && !r.isFin then 1 else a.2)) (acc, 0)

/-- An integer block sum. -/
def intOf : Num → Int
  | .fin neg m e => sgnMul neg (m * p2 e)
  | _ => 0

/-- An INT32 accumulator over the block sums: saturation is judged once for each block sum (R39). -/
def accI (acc : Int) (l : List (List Num)) : Int × Nat :=
  l.foldl (fun a p =>
    let t := a.1 + intOf (blockSum p)
    if t > 2 ^ 31 - 1 then (2 ^ 31 - 1, a.2 + 1) else if t < -2 ^ 31 then (-2 ^ 31, a.2 + 1) else (t, a.2)) (acc, 0)

/-- The A row, the B column, and the output row and column of cell `(i, j)` of array `a` (R70, R132). -/
def cellRow (cfg a i : Nat) : Nat := if cfg = 2 then i else 8 * a + i
def cellCol (cfg a j : Nat) : Nat := if cfg = 1 then j else 8 * a + j
def outRow (wide : Bool) (a i : Nat) : Nat := if wide then i else 8 * a + i
def outCol (wide : Bool) (a j : Nat) : Nat := if wide then 8 * a + j else j

/-- A cell's value under its set's format. -/
def cellNum (f : Option AccFmt) (c : BitVec 32) : Num :=
  match f with
  | some .int32 => .ofInt c.toInt
  | _ => fp32.dec c.toNat

def AccSet.cell (t : AccSet) (k : Nat) : BitVec 32 := mgetD t.cells k 0

def Tile.accSet (t : Tile) (k : Nat) : AccSet := if k = 0 then t.acc0 else t.acc1
def Tile.setAcc (t : Tile) (k : Nat) (v : AccSet) : Tile := if k = 0 then { t with acc0 := v } else { t with acc1 := v }

/-- A base that an array instruction may not use: a context virtual address (R134, R136). -/
def viewRemote (v : Bytes) : Bool :=
  !bit (vElemBase v) 63 || (fmtScaled (vFormat v) && !bit (vScaleBase v) 63) ||
    (decide (vEmapBase v ≠ 0) && (!bit (vEmapBase v) 63 || !bit (vExtBase v) 63))

/-- A descriptor that is malformed at its use: in itself, or by an `origin0` that is no multiple of the block size (R135, R136). -/
def viewMal (v : Bytes) : Bool := viewBad v || decide (vOrigin0 v % fmtBlock (vFormat v) ≠ 0)

/-- The row ranges of a view's planes as offset and length, checked when an instruction uses it (R136, R388). -/
def viewRanges (v : Bytes) : List (Nat × Nat) :=
  let f := vFormat v
  let rows := (List.range (vDim1 v)).map fun i1 =>
    let i := vIndex v 0 i1
    if fmtScaled f then
      let k := cdiv (vDim0 v) (fmtBlock f)
      [(rel (vElemBase v) + slotBytes f * i, slotBytes f * k), (rel (vScaleBase v) + fmtScaleBytes f * i, fmtScaleBytes f * k)] ++
        if vEmapBase v ≠ 0 ∧ k ≠ 0 then [(rel (vEmapBase v) + 32 + 16 * (i / 64), 16 * ((i + k - 1) / 64 - i / 64 + 1))] else []
    else
      let w := fmtBits f
      [(rel (vElemBase v) + i * w / 8, cdiv (i * w + w * vDim0 v) 8 - i * w / 8)]
  rows.flatten

/-- The first range of a view that fails its window check, as an address (R388). -/
def State.viewWindow (s : State) (n ctx need : Nat) (v : Bytes) : Option Nat :=
  let head := if need = permWrite ∧ vEmapBase v ≠ 0 then [(rel (vEmapBase v), 32)] else []
  (head ++ viewRanges v).findSome? fun p => s.check ctx .tile need (.sram n p.1) p.2

/-- The checks of an array instruction on the views it reads and the view it writes, in the order MALFORMED, NOT_LOCAL, WINDOW. -/
def State.viewsCheck (s : State) (n : Nat) (r : RunTask) (reads : List Bytes) (writes : List Bytes) (shapeBad : Bool) (k : State → State) : State :=
  let all := reads ++ writes
  if (all.any viewMal) || shapeBad then s.faultTask n r causeMalformed 0
  else if all.any viewRemote then s.faultTask n r causeNotLocal 0
  else match (reads.findSome? (s.viewWindow n r.task.ctx permRead)).orElse fun _ => writes.findSome? (s.viewWindow n r.task.ctx permWrite) with
    | some a => s.faultTask n r causeWindow a
    | none => k s

/-- Queued operations of one kind. -/
def Tile.queued (t : Tile) (k : OpKind) : Nat := (t.ops.filter fun o => o.kind == k).length

/-- A full queue holds the sequencer (R127). -/
def State.issue (s : State) (n : Nat) (k : OpKind) (f : State → State) : State :=
  if (s.tile n).queued k ≥ 2 then s.setTile n { s.tile n with waiting := true } else f s

/-- The defaults of the arithmetic objects, kept with an operation from its issue (R63). -/
def State.newOp (s : State) (r : RunTask) (kind : OpKind) (set : Nat) (fmt : Option AccFmt) (wide : Bool) (da db dc : Bytes) (cfg acc : Nat)
    (skip : Bool) : TileOp :=
  ⟨kind, set, fmt, wide, da, db, dc, cfg, acc, skip, s.rd Obj.escSatThreshold, s.rd Obj.escFtzThreshold, s.rd Obj.shadowPeriodLog2, r.task.age⟩

/-- The shapes of MMA (R132, R133). -/
def mmaShapeBad (da db dc : Bytes) (cfg acc : Nat) : Bool :=
  let fa := vFormat da
  let fb := vFormat db
  decide (cfg = 3 ∨ acc = 3) || fa == 0x00 || fa == 0x11 || fb == 0x00 || fb == 0x11 ||
    decide (vDim0 da ≠ vDim0 db) || decide (vDim0 da > 16777216) ||
    decide (vDim0 da % (if fa = 0x10 ∨ fb = 0x10 then 64 else 32) ≠ 0) ||
    decide (vDim1 da ≠ if cfg = 2 then 8 else 64) || decide (vDim1 db ≠ if cfg = 1 then 8 else 64) ||
    (acc == 2 && (vFormat dc != (if pairFmt fa fb = .int32 then 0x11 else 0x00) || decide (vDim0 dc ≠ if cfg = 2 then 64 else 8) ||
      decide (vDim1 dc ≠ if cfg = 2 then 8 else 64)))

/-- MMA issues (R127, R132): its descriptors are copied, the set takes the operation's format and shape, and KEEP on a set of the other format is
malformed. -/
def execMma (t : Nat) (f : FmtT) (s : State) : Host.Outcome State Fault Refusal :=
  .next (s.instr t 0x20 (fun w => wT w = f) fun s r =>
    let x := s.tile t
    let da := x.dr f.da
    let db := x.dr f.db
    let dc := x.dr f.dc
    let pf := pairFmt (vFormat da) (vFormat db)
    let set := x.accSet x.cur
    let other := f.acc == 1 && set.fmt.isSome && set.fmt != some pf
    if f.rsv ≠ 0 ∨ f.cfg = 3 ∨ f.acc = 3 ∨ (f.acc ≠ 2 ∧ f.dc ≠ 0) then s.faultTask t r causeMalformed 0
    else s.viewsCheck t r ([da, db] ++ if f.acc = 2 then [dc] else []) [] (mmaShapeBad da db dc f.cfg f.acc || other) fun s =>
      s.issue t .mma fun s =>
        let acc := if f.acc = 1 ∧ set.fmt.isNone then 0 else f.acc
        let o := s.newOp r .mma x.cur (some pf) (f.cfg == 2) da db dc f.cfg acc (s.rd Obj.zeroSkipEnable == 1 && f.skip == 0)
        s.step1 t fun x => { x.setAcc x.cur { x.accSet x.cur with fmt := some pf, wide := f.cfg == 2 } with ops := x.ops ++ [o] })

/-- DRAIN issues (R129, R133): the current set is taken in its shape, and the other set becomes current. A set that holds no format is zero and drains in
either shape. -/
def execDrain (t : Nat) (f : FmtT) (s : State) : Host.Outcome State Fault Refusal :=
  .next (s.instr t 0x21 (fun w => wT w = f) fun s r =>
    let x := s.tile t
    let dc := x.dr f.dc
    let set := x.accSet x.cur
    let tall := vDim0 dc == 8 && vDim1 dc == 64
    let wide := vDim0 dc == 64 && vDim1 dc == 8
    let shapeBad := !(if set.fmt.isNone then tall || wide else if set.wide then wide else tall)
    let part := fmtScaled (vFormat dc) && decide (vDim0 dc % fmtBlock (vFormat dc) ≠ 0)
    let cover := !part && !shapeBad && fmtScaled (vFormat dc) && decide (vEmapBase dc ≠ 0) && !coverageOk dc
    if f.rsv ≠ 0 ∨ f.da ≠ 0 ∨ f.db ≠ 0 ∨ f.cfg ≠ 0 ∨ f.acc ≠ 0 ∨ f.skip ≠ 0 then s.faultTask t r causeMalformed 0
    else s.viewsCheck t r [] [dc] (shapeBad || part || cover) fun s =>
      s.issue t .drain fun s =>
        let o := s.newOp r .drain x.cur set.fmt wide [] [] dc 0 0 false
        s.step1 t fun x => { x.setAcc x.cur { x.accSet x.cur with fmt := none } with ops := x.ops ++ [o], cur := 1 - x.cur })

/-- QCVT issues (R133). -/
def execQcvt (t : Nat) (f : FmtT) (s : State) : Host.Outcome State Fault Refusal :=
  .next (s.instr t 0x22 (fun w => wT w = f) fun s r =>
    let x := s.tile t
    let da := x.dr f.da
    let dc := x.dr f.dc
    let shapeBad := decide (vDim0 da ≠ vDim0 dc) || decide (vDim1 da ≠ vDim1 dc)
    let part := fmtScaled (vFormat dc) && decide (vDim0 dc % fmtBlock (vFormat dc) ≠ 0)
    let cover := !part && fmtScaled (vFormat dc) && decide (vEmapBase dc ≠ 0) && !coverageOk dc
    if f.rsv ≠ 0 ∨ f.db ≠ 0 ∨ f.cfg ≠ 0 ∨ f.acc ≠ 0 ∨ f.skip ≠ 0 then s.faultTask t r causeMalformed 0
    else s.viewsCheck t r [da] [dc] (shapeBad || part || cover) fun s =>
      s.issue t .qcvt fun s =>
        let o := s.newOp r .qcvt 2 none false da [] dc 0 0 false
        s.step1 t fun x => { x with ops := x.ops ++ [o] })

/-- Whether two queued operations must keep their order (R127): they use one accumulator set, or ranges that overlap. -/
def opsConflict (a b : TileOp) : Bool :=
  (a.set == b.set && a.set != 2) || (opSpan a).any fun p => (opSpan b).any fun q => decide (p.1 < q.1 + q.2) && decide (q.1 < p.1 + p.2)

/-- The first queued operation of a kind, when no earlier one holds it back, and the queue without it. -/
def takeOp (k : OpKind) : List TileOp → List TileOp → Option (TileOp × List TileOp)
  | _, [] => none
  | before, o :: l =>
    if o.kind = k then (if before.any (opsConflict · o) then none else some (o, before ++ l))
    else takeOp k (before ++ [o]) l

/-- The end of an operation that met an error (R79, R137): its task, if it still runs, stops with DATA or WINDOW. -/
def State.opFault (s : State) (n : Nat) (o : TileOp) (st : Status) (addr : Nat) : State :=
  match (s.tile n).run with
  | some r =>
    if r.task.age = o.taskAge then s.faultTask n r (if st = .violation then causeWindow else causeData) addr else s
  | none => s

/-- The cells of a set after an operation that starts from `cells` (R40 to R43): the bit patterns, and the overflows counted. -/
def mmaCell (pf : AccFmt) (grp : Nat) (nanV : Nat) (acc : BitVec 32) (a b : List Num) (skip : List Bool) : BitVec 32 × Nat :=
  let p := chunks grp (products a b skip)
  match pf with
  | .int32 =>
    let r := accI acc.toInt p
    (BitVec.ofInt 32 r.1, r.2)
  | .fp32 =>
    let r := accF (fp32.dec acc.toNat) p
    (BitVec.ofNat 32 (fp32.enc rmRNE 0 nanV r.1), r.2)

/-- The element codes of an accumulator view loaded into cells (R132 LOAD). -/
def loadCells (wide : Bool) (pf : AccFmt) (nanV : Nat → Nat) (rows : List (List Num)) : List (BitVec 32) :=
  (List.range 512).map fun k =>
    let x := ((rows.getD (outRow wide (k / 64) (k / 8 % 8)) []).getD (outCol wide (k / 64) (k % 8)) (.fin false 0 0))
    match pf with
    | .int32 => BitVec.ofInt 32 (intOf x)
    | .fp32 => BitVec.ofNat 32 (fp32.enc rmRNE 0 (nanV k) x)

/-- Cells as a sparse map. -/
def cellsOf (l : List (BitVec 32)) : NMap (BitVec 32) := (l.mapIdx fun k c => (k, c)).filter fun p => p.2 != 0

/-- Whether block pair `p` (cell × blocks + block) of an operation was formed, or was skipped whole (R59, R73). -/
def pairFormed (skips : List (List Bool)) (grp blocks p : Nat) : Bool :=
  let m := skips.getD (p / blocks / 64) []
  (List.range (grp / 16)).any fun i => !(m.getD (p % blocks * (grp / 16) + i) false)

/-- Exact products as integers, in units of the smallest one's last place; nothing where a product is not finite. -/
def alignProds (l : List Num) : List Int :=
  let q := l.foldl (fun q x => match x with
    | .fin _ m e => if m = 0 then q else min q e
    | _ => q) (400 : Int)
  if l.all Num.isFin then l.map fun x => match x with
    | .fin neg m e => if m = 0 then 0 else sgnMul neg (m * p2 (e - q))
    | _ => 0
  else []

/-- The products of block pair `p` (cell × blocks + block) of an operation, as its cell sums them (R40, R59). UF4 sub-scales are in them: of the scales, the shadow comparison
leaves out those of the blocks alone (DESIGN CHOICE: R59 does not say which). -/
def pairProds (cfg grp blocks : Nat) (a b : List (List Num)) (skips : List (List Bool)) (p : Nat) : List Int :=
  let k := p / blocks
  let l := products (a.getD (cellRow cfg (k / 64) (k / 8 % 8)) []) (b.getD (cellCol cfg (k / 64) (k % 8)) []) (skips.getD (k / 64) [])
  alignProds ((l.drop (grp * (p % blocks))).take grp)

/-- Draw samples into the shadow queue of 8; what finds it full is skipped and counted (R59, R86). -/
def State.drawShadow (s : State) (n : Nat) (jobs : List ShadowJob) : State :=
  let t := s.tile n
  let room := 8 - t.shadow.length
  let s := s.setTile n { t with shadow := t.shadow ++ jobs.take room }
  s.bumpBy Obj.shadowSkipped (jobs.length - room)

/-- MMA_DONE: the oldest array operation finishes (R38 to R44, R67 to R75); `drawn` names the block pairs that the tile's draws chose (R59), all of them
where k is 0 and none where shadow checks are off. In SHARE_A the eight arrays skip a segment together, and it counts once (DESIGN CHOICE: R74 does not say). An operation
issued before its tile froze goes on, as R137 has it for issued work; the accumulators that the FROZEN tile keeps for inspection (R98) stand apart from those it works on
(`Freeze`, DEDUCED: both rules hold), and a release discards both. -/
def execMmaDone (t : Nat) (drawn : List Nat) (s : State) : Host.Outcome State Fault Refusal :=
  match takeOp .mma [] (s.tile t).ops with
  | none => .next s
  | some (o, rest) =>
    let ctx := match (s.tile t).run with | some r => r.task.ctx | none => (s.tile t).lastCtx
    let s := s.setTile t { s.tile t with ops := rest }
    let pf := pairFmt (vFormat o.da) (vFormat o.db)
    let grp := pairGroup (vFormat o.da) (vFormat o.db)
    let fr := s.fresh
    let s := { s with fresh := s.fresh + 1024 }
    let got : PlaneR (List (List Num) × List (List Num) × List (List Num)) :=
      (State.rowsRead (vDim1 o.da) s t ctx o.da 0).bind ([], [], []) fun s a =>
      (State.rowsRead (vDim1 o.db) s t ctx o.db 0).bind ([], [], []) fun s b =>
      if o.acc = 2 then (State.rowsRead (vDim1 o.dc) s t ctx o.dc 0).bind ([], [], []) fun s c => .ok s (a, b, c)
      else .ok s (a, b, [])
    let s := got.s
    if got.st ≠ .ok then .next (s.opFault t o got.st got.addr)
    else
      let a := got.val.1
      let b := got.val.2.1
      let x := s.tile t
      let set := x.accSet o.set
      let start : List (BitVec 32) :=
        if o.acc = 1 then (List.range 512).map set.cell
        else if o.acc = 2 then loadCells o.wide pf (fun k => Config.freeValue (fr + 512 + k)) got.val.2.2
        else List.replicate 512 0
      let skips := (List.range 8).map fun k =>
        if o.skip then skipMask ((List.range 8).map fun i => a.getD (cellRow o.cfg k i) []) (vDim0 o.da) else []
      let cells := start.mapIdx fun k acc =>
        mmaCell pf grp (Config.freeValue (fr + k)) acc (a.getD (cellRow o.cfg (k / 64) (k / 8 % 8)) []) (b.getD (cellCol o.cfg (k / 64) (k % 8)) [])
          (skips.getD (k / 64) [])
      let nskip := ((if o.cfg = 2 then skips.take 1 else skips).map fun m => (m.filter id).length).foldl (· + ·) 0
      let s := s.setTile t { x.setAcc o.set { x.accSet o.set with cells := cellsOf (cells.map (·.1)) } with skips := x.skips + nskip }
      let s := s.bumpBy Obj.accOverflowCount (cells.foldl (fun n c => n + c.2) 0)
      let s := s.bumpBy Obj.zeroSkipSegments nskip
      let blocks := vDim0 o.da / grp
      let picked := if grp = 4 ∨ o.shadowK = 0xFF then [] else
        (if o.shadowK = 0 then List.range (512 * blocks) else drawn.dedup.filter (· < 512 * blocks)).filter (pairFormed skips grp blocks)
      .next (s.drawShadow t (picked.map fun p => ⟨p % blocks, ctx, pairProds o.cfg grp blocks a b skips p⟩))

/-- DRAIN_DONE: the drain writes its view and leaves its set cleared (R129, R133). -/
def execDrainDone (t : Nat) (s : State) : Host.Outcome State Fault Refusal :=
  match takeOp .drain [] (s.tile t).ops with
  | none => .next s
  | some (o, rest) =>
    let x := s.tile t
    let ctx := match x.run with | some r => r.task.ctx | none => x.lastCtx
    let set := x.accSet o.set
    let rows := (List.range (vDim1 o.dc)).map fun i => (List.range (vDim0 o.dc)).map fun j =>
      let k := if o.wide then 64 * (j / 8) + 8 * i + j % 8 else 64 * (i / 8) + 8 * (i % 8) + j
      cellNum o.fmt (set.cell k)
    let s := s.setTile t { x.setAcc o.set { x.accSet o.set with cells := [] } with ops := rest }
    let r := s.storeView t ctx o.dc o.satDef o.ftzDef rows
    .next (if r.st = .ok then r.s else r.s.opFault t o r.st r.addr)

/-- QCVT_DONE: the conversion writes its target view (R133). -/
def execQcvtDone (t : Nat) (s : State) : Host.Outcome State Fault Refusal :=
  match takeOp .qcvt [] (s.tile t).ops with
  | none => .next s
  | some (o, rest) =>
    let x := s.tile t
    let ctx := match x.run with | some r => r.task.ctx | none => x.lastCtx
    let s := s.setTile t { x with ops := rest }
    let r := (State.rowsRead (vDim1 o.da) s t ctx o.da 0).bind () fun s rows => s.storeView t ctx o.dc o.satDef o.ftzDef rows
    .next (if r.st = .ok then r.s else r.s.opFault t o r.st r.addr)

/-- The value of a number that is a whole number of units. -/
def wholeOf : Num → Int
  | .fin neg m e => sgnMul neg (if 0 ≤ e then m * p2 e else m / p2 (-e))
  | _ => 0

/-- The vector unit's recomputation of a block sum: the products, exact in FP32, summed in FP32 in ascending order (R59). -/
def shadowSum (l : List Int) : Int := wholeOf (l.foldl (fun a p => (a.add (.ofInt p)).r32) (.fin false 0 0))

/-- Whether a sample shows drift (R59): the recomputed sum and the cell's block sum differ by more than 2^(−19), or for 64 elements 2^(−18), of the sum of the products'
magnitudes. The block sum of a cell without a fault is exact; `fault` is what a faulty cell's sum had besides, in units of the smallest product's last place. The scales, being
powers of two, take no part. -/
def drifts (j : ShadowJob) (fault : Int) : Bool :=
  let exact := j.prods.foldl (· + ·) 0
  let mag := (j.prods.map Int.natAbs).foldl (· + ·) 0
  decide (mag < (shadowSum j.prods - (exact + fault)).natAbs * 2 ^ (if j.prods.length = 64 then 18 else 19))

/-- SHADOW_CHECK_DONE: the oldest sample is recomputed; a drift is counted and recorded (R59, R60). -/
def execShadowCheckDone (t : Nat) (fault : Int) (s : State) : Host.Outcome State Fault Refusal :=
  let x := s.tile t
  match x.shadow with
  | [] => .next s
  | j :: l =>
    let s := (s.setTile t { x with shadow := l }).bump Obj.shadowSamples
    .next (if drifts j fault then ((s.bump Obj.shadowDrift).bumpSat (Obj.tileDrift t) 32).event 0x1001 0x01 t j.ctx j.kblock 0 0 else s)

/-- DRIFT_HOUR_ROLLOVER: the tile's drift count of the hour starts again (R60). -/
def execDriftHourRollover (t : Nat) (s : State) : Host.Outcome State Fault Refusal := .next (s.wr (Obj.tileDrift t) 0)

end Sys2Proof.Machine
end

