-- ==== Sys2Proof/Machine/Dict.lean ====
section
/-! DEFINITION. The dictionary's rows by object number (R445 to R449): the row of an object, the next object of an area, and what FL keeps. -/

namespace Sys2Proof.Machine

/-- Whether a row's table holds an entry. -/
def DictRow.hasEntry (r : DictRow) (entry : Nat) : Bool :=
  decide (r.base ≤ entry) &&
    (if r.outer ≤ 1 then decide (entry - r.base < r.inner)
     else decide ((entry - r.base) / r.stride < r.outer) && decide ((entry - r.base) % r.stride < r.inner))

def DictRow.has (r : DictRow) (entry sub : Nat) : Bool := r.hasEntry entry && decide (r.subLo ≤ sub) && decide (sub ≤ r.subHi)

/-- The row of an object (R445). -/
def rowOf (area entry sub : Nat) : Option DictRow := (dictArea area).find? fun r => r.has entry sub

/-- The row of a key. -/
def rowOfKey (k : Nat) : Option DictRow := rowOf (keyArea k) (keyEntry k) (keySub k)

/-- Whether FL keeps an object across cold resets (R447). -/
def persistent (k : Nat) : Bool := ((rowOfKey k).map (·.pers)).getD false

/-- The smallest entry of a row that is `entry` or more. -/
def DictRow.entryFrom (r : DictRow) (entry : Nat) : Option Nat :=
  if entry ≤ r.base then some r.base
  else
    let d := entry - r.base
    if r.outer ≤ 1 then (if d < r.inner then some entry else none)
    else
      let i := d / r.stride
      if i ≥ r.outer then none
      else if d % r.stride < r.inner then some entry
      else if i + 1 < r.outer then some (r.base + (i + 1) * r.stride) else none

/-- The smallest object of a row after an object of its area. -/
def DictRow.after (r : DictRow) (entry sub : Nat) : Option (Nat × Nat) :=
  match r.entryFrom entry with
  | none => none
  | some e =>
    if e > entry ∨ sub < r.subLo then some (e, r.subLo)
    else if sub < r.subHi then some (e, sub + 1)
    else (r.entryFrom (e + 1)).map fun e => (e, r.subLo)

/-- The bytes of an integer type; 0 for a byte string. -/
def ObjTy.width : ObjTy → Nat
  | .u8 => 1 | .u16 => 2 | .u32 => 4 | .u64 => 8 | .i16 => 2 | _ => 0

/-- The type code of R446. -/
def ObjTy.code : ObjTy → Nat
  | .u8 => 1 | .u16 => 2 | .u32 => 3 | .u64 => 4 | .i16 => 5 | .oct _ => 6 | .octv _ _ => 7

/-- The size that NEXT reports: the greatest of a variable string. -/
def ObjTy.size : ObjTy → Nat
  | .oct n => n
  | .octv _ b => b
  | t => t.width

/-- The values that a row's range admits. -/
def ObjRng.ok (r : ObjRng) (v : Nat) : Bool :=
  match r with
  | .any => true
  | .range lo hi => decide (lo ≤ v) && decide (v ≤ hi)
  | .rangeOr lo hi x => (decide (lo ≤ v) && decide (v ≤ hi)) || v == x
  | .align n => v % n == 0
  | .pow2 lo hi => decide (lo ≤ v) && decide (v ≤ hi) && (2 ^ Nat.log2 v == v)
  | .mask m => v &&& m == v

def Acc.canRead : Acc → Bool
  | .r | .rw => true
  | _ => false

def Acc.canWrite : Acc → Bool
  | .w | .rw => true
  | _ => false

/-- The access of a role to a row (R447). -/
def DictRow.acc (r : DictRow) (role : Nat) : Acc :=
  if role = roleObserver then r.obs else if role = roleTenant then r.ten else if role = roleOperator then r.op
  else if role = roleCustodian then r.cus else if role = roleSteward then r.stw else .no

end Sys2Proof.Machine
end

