-- ==== Sys2Proof/Machine/Crypto.lean ====
section
/-! DEFINITION. Key derivation over SHA-256 (R405, R406): HMAC (RFC 2104), HKDF (RFC 5869), and the private key of a seed. -/

namespace Sys2Proof.Machine

open Sys2Proof

/-- HMAC-SHA-256 (RFC 2104). -/
def hmac (key msg : Bytes) : Bytes :=
  let k := fit 64 (if key.length > 64 then sha256 key else key)
  let x := fun (c : Byte) => k.map fun b => b ^^^ c
  sha256 (x 0x5C ++ sha256 (x 0x36 ++ msg))

/-- The blocks of HKDF-Expand (RFC 5869): `n` blocks from block `i`, after block `prev`. -/
def hkdfBlocks (prk info : Bytes) : Nat → Nat → Bytes → Bytes
  | 0, _, _ => []
  | n + 1, i, prev =>
    let t := hmac prk (prev ++ info ++ [BitVec.ofNat 8 i])
    t ++ hkdfBlocks prk info n (i + 1) t

def hkdfExpand (prk info : Bytes) (len : Nat) : Bytes := (hkdfBlocks prk info (cdiv len 32) 1 []).take len

/-- HKDF-SHA-256 (RFC 5869); an empty salt is 32 zero bytes. -/
def hkdf (ikm salt info : Bytes) (len : Nat) : Bytes := hkdfExpand (hmac (if salt.isEmpty then zeros 32 else salt) ikm) info len

/-- The bytes of an ASCII text given by its codes. -/
def ascii (l : List Nat) : Bytes := l.map fun n => BitVec.ofNat 8 n

/-- The texts that R406 to R424 derive with. -/
def txtP256 : Bytes := ascii [90, 75, 57, 32, 80, 45, 50, 53, 54]
def txtDeviceId : Bytes := ascii [90, 75, 57, 32, 68, 101, 118, 105, 99, 101, 73, 68]
def txtBinding : Bytes := ascii [90, 75, 57, 32, 66, 105, 110, 100, 105, 110, 103]
def txtAlias : Bytes := ascii [90, 75, 57, 32, 65, 108, 105, 97, 115]
def txtCdi : Bytes := ascii [90, 75, 57, 32, 67, 68, 73]
def txtRecord : Bytes := ascii [90, 75, 57, 32, 82, 101, 99, 111, 114, 100]
def txtNxf : Bytes := ascii [90, 75, 57, 32, 78, 88, 70]
def txtJobKey : Bytes := ascii [90, 75, 57, 32, 106, 111, 98, 32, 107, 101, 121]
def txtWeights : Bytes := ascii [90, 75, 57, 32, 119, 101, 105, 103, 104, 116, 115]

/-- The private key of a seed: the first counter, of `n` from `i`, whose expansion is a scalar of the curve (R406). -/
def privFrom (seed : Bytes) : Nat → Nat → Bytes
  | 0, _ => zeros 32
  | n + 1, i =>
    let d := hkdfExpand seed (txtP256 ++ [BitVec.ofNat 8 i]) 32
    if 1 ≤ beNat d ∧ beNat d < p256n then d else privFrom seed n (i + 1)

def privOf (seed : Bytes) : Bytes := privFrom seed 256 0

/-! ## X.509 (R405, R410): the DER of a signed certificate -/

/-- The length of a DER value (X.690). -/
def derLen (n : Nat) : Bytes := if n < 128 then leBytes 1 n else if n < 256 then [0x81] ++ beBytes 1 n else [0x82] ++ beBytes 2 n

def derTlv (tag : Byte) (v : Bytes) : Bytes := [tag] ++ derLen v.length ++ v

/-- An unsigned number as a DER INTEGER: no leading zero byte but one that keeps it positive. -/
def derUint (b : Bytes) : Bytes :=
  let b := b.dropWhile (· == 0)
  derTlv 0x02 (if b.isEmpty || bit (byteAt b 0) 7 then 0 :: b else b)

/-- The algorithm identifier of ecdsa-with-SHA256. -/
def derEcdsaSha256 : Bytes := [0x30, 0x0A, 0x06, 0x08, 0x2A, 0x86, 0x48, 0xCE, 0x3D, 0x04, 0x03, 0x02]

/-- A certificate: the signed part, the algorithm, and its signature under a private key. -/
def certOf (priv tbs : Bytes) : Bytes :=
  let g := ecSign priv (sha256 tbs)
  derTlv 0x30 (tbs ++ derEcdsaSha256 ++ derTlv 0x03 (0 :: derTlv 0x30 (derUint (g.take 32) ++ derUint (g.drop 32))))

/-- The key digest of a public key (R405). -/
def keyDigest (pub : Bytes) : Bytes := sha256 pub

end Sys2Proof.Machine
end

