-- ==== Sys2Proof/Machine/Jitoig.lean ====
section
/-! DEFINITION. Loading Jitoig images (R144 to R146). -/

namespace Sys2Proof.Machine

open Sys2Proof

/-- The tiles of a tile set, in ascending order. -/
def tilesOf (set : Bytes) : List Nat := (List.range 1920).filter (tileIn set)

/-- The fields of an image header. -/
def jSections (b : Bytes) : Nat := leAt b 6 2
def jSize (b : Bytes) : Nat := leAt b 8 4
def jSigned (b : Bytes) : Bool := bit (leAt b 12 4) 0
def jTiles (b : Bytes) : Nat := leAt b 16 4

/-- One section entry: type, target offset, length, file offset, file length, tile stride. -/
structure Section where
  typ : Nat
  off : Nat
  len : Nat
  fileOff : Nat
  fileLen : Nat
  stride : Nat
  rsvOk : Bool
  deriving DecidableEq, Repr

def jSection (b : Bytes) (k : Nat) : Section :=
  let e := 128 + 32 * k
  ⟨byteAt b e, leAt b (e + 4) 4, leAt b (e + 8) 4, leAt b (e + 12) 4, leAt b (e + 16) 4, leAt b (e + 20) 4,
    allZero (slice b (e + 1) 3) && allZero (slice b (e + 24) 8)⟩

def jSectionList (b : Bytes) : List Section := (List.range (jSections b)).map (jSection b)

/-- The header rules of R145 step 1. -/
def jHeaderBad (b : Bytes) : Bool :=
  decide (leAt b 0 4 ≠ 0x3149544A) || decide (leAt b 4 2 ≠ 1) || decide (jSections b < 1 ∨ jSections b > 64) ||
    decide (jSize b > 268435456 ∨ jSize b < 224 + 32 * jSections b) || decide (leAt b 12 4 > 1) || decide (jTiles b < 1 ∨ jTiles b > 1920) ||
    !allZero (slice b 20 12) || !allZero (slice b 64 64)

/-- A section's target is placed in SRAM. -/
def Section.placed (c : Section) : Bool := c.typ == 1 || c.typ == 2 || c.typ == 3 || c.typ == 5

/-- The section rules of R144 and R145 step 1, for an image that needs `n` tiles: file bytes lie before the trailer, and the file length fits the section's
type (DEDUCED from the field rows). -/
def sectionBad (b : Bytes) (n : Nat) (c : Section) : Bool :=
  !c.rsvOk || decide (c.typ < 1 ∨ c.typ > 6) || decide (c.off % 128 ≠ 0) || decide (c.fileOff % 64 ≠ 0) || decide (c.fileOff + c.fileLen > jSize b - 96) ||
    (c.typ != 3 && decide (c.stride ≠ 0)) || ((c.typ == 1 || c.typ == 2) && decide (c.fileLen < c.len)) ||
    (c.typ == 3 && decide (c.stride * (n - 1) + c.len > c.fileLen)) || (c.typ == 5 && decide (c.fileLen ≠ 0)) ||
    (c.typ == 4 && decide (c.fileLen % 72 ≠ 0))

/-- The records of a TASKS section: tile index and descriptor. -/
def taskRecs (b : Bytes) (c : Section) : List (Nat × Bytes) :=
  (List.range (c.fileLen / 72)).map fun k => (leAt b (c.fileOff + 72 * k) 4, slice b (c.fileOff + 72 * k + 8) 64)

/-- A record that names a tile beyond the image's tile set, or whose reserved bytes are not zero, makes the image malformed (R12, R144); that the first is found in step 1 is
the model's reading (DESIGN CHOICE). -/
def taskRecBad (b : Bytes) (n : Nat) (c : Section) : Bool :=
  c.typ == 4 && (List.range (c.fileLen / 72)).any fun k =>
    decide (leAt b (c.fileOff + 72 * k) 4 ≥ n) || !allZero (slice b (c.fileOff + 72 * k + 4) 4)

/-- Whether the signature rules of R145 and R412 hold: an image flagged as signed verifies under the key its context names, and a context that names a key
takes no unsigned image. -/
def State.jSignOk (s : State) (ctx : Nat) (b : Bytes) : Bool :=
  let k := mgetD s.ctxs.imageKey ctx 0xFF
  let body := b.take (jSize b - 96)
  if jSigned b then
    decide (k < 8) && ecVerify (s.rdo (Obj.tenantImageKey k)) (sha256 body) (slice b (jSize b - 64) 64)
  else k == 0xFF && allZero (slice b (jSize b - 64) 64)

/-- The verdict of steps 1 to 3 on an image at a context virtual address, and the image read (R145, R146). -/
def State.jCheck (s : State) (ctx addr : Nat) : State × Status × Bytes :=
  let h := s.read ctx .te permRead (.virt addr) 128
  if h.st ≠ .ok ∨ jHeaderBad h.data then (h.s, .violation, [])
  else
    let a := h.s.read ctx .te permRead (.virt addr) (jSize h.data)
    let b := a.data
    let s := a.s
    let set := tilesOf (s.rdo (Obj.tileSet ctx))
    let secs := jSectionList b
    if a.st ≠ .ok ∨ jTiles b > set.length ∨ (secs.any (sectionBad b (jTiles b))) ∨ (secs.any (taskRecBad b (jTiles b))) then (s, .violation, [])
    else if slice b (jSize b - 96) 32 ≠ sha256 (b.take (jSize b - 96)) ∨ !s.jSignOk ctx b then (s, .violation, [])
    else if (secs.filter Section.placed).any fun c => set.any fun t => (s.check ctx .te permWrite (.sram t c.off) c.len).isSome then
      (s, .violation, [])
    else (s, .ok, b)

/-- JTI_LOAD: a write to `jti_load` by the context's Tenant or the Custodian starts a load; one already LOADING refuses it (R145, R146). A context that is FREE or RETIRING
refuses it too, and while a load runs the low byte of `jti_load_status` reads 0, no status of the load before (DESIGN CHOICE: the spec states neither). -/
def State.jtiBegin (s : State) (ctx addr : Nat) : State × Nat :=
  if (mget s.jti ctx).isSome ∨ s.ctxSt ctx ≠ ctxOpen ∨ ctx ≥ 64 then (s, rRefused)
  else
    let r := s.jCheck ctx addr
    ({ r.1 with jti := mput r.1.jti ctx ⟨r.2.2, 3, r.2.1, 0⟩ }.wr (Obj.jtiLoadStatus ctx) 0x0100, rOk)

def execJtiLoad (w : Who) (ctx addr : Nat) (s : State) : Host.Outcome State Fault Refusal :=
  .next (s.ctl w (isCus w || isTenant w ctx) fun s => s.jtiBegin ctx addr)

/-- The bytes that a section gives tile `i` of the set (R144). -/
def sectionBytes (b : Bytes) (c : Section) (i : Nat) : Bytes :=
  if c.typ = 5 then zeros c.len
  else slice b (c.fileOff + if c.typ = 3 then i * c.stride else 0) c.len

/-- Whether the house channels that place an image on the tiles of a set are in service (R185): one that the Custodian has disabled holds the placement (DESIGN CHOICE, as
for a fill). -/
def State.placeRuns (s : State) (set : List Nat) : Bool := set.all fun t => (s.houseOf (t / 480)).all s.houseRuns

/-- Place the sections on the tiles, under the house context, by the house channel of each tile's die or one that takes its place, which has written the bytes (R145 step 4,
R185, R211): the first copy that fails ends it. With every house channel FAILED the copy is ABORTED_DISABLED (R210; DESIGN CHOICE: no rule speaks of it). -/
def State.placeGo (s : State) (b : Bytes) (l : List (Section × Nat × Nat)) : State × Status :=
  l.foldl (fun a c =>
    if a.2 ≠ .ok then a
    else if (a.1.houseOf (c.2.2 / 480)).isNone then (a.1, .abortedDisabled)
    else
      let w := a.1.write 0 .te permWrite (.sram c.2.2 c.1.off) (sectionBytes b c.1 c.2.1)
      (w.s.bumpBy Obj.teBytes w.done, w.st)) (s, .ok)

/-- The sections of a load are placed: tiles of the set beyond the image's `tile_set_size` take the sections that every tile takes and no PER_TILE bytes (DESIGN CHOICE: R144
says no more of them). The digest becomes a measurement, and the TASKS are posted in record order (R144, R145). -/
def State.jtiPlace (s : State) (ctx : Nat) (j : JtiLoad) : State :=
  let b := j.image
  let set := tilesOf (s.rdo (Obj.tileSet ctx))
  let secs := jSectionList b
  let work := ((secs.filter Section.placed).map fun c =>
    (if c.typ = 3 then set.take (jTiles b) else set).mapIdx fun i t => (c, i, t)).flatten
  let p := s.placeGo b work
  let s := p.1
  if p.2 ≠ .ok then { s with jti := mput s.jti ctx { j with step := 5, status := p.2 } }
  else
    let old := mgetD s.sec.images ctx []
    let m : Meas := ⟨0x10, set.headD 0 / 480 + 1, old.length + 1, slice b (jSize b - 96) 32⟩
    let s := { s with sec := { s.sec with images := mput s.sec.images ctx (old ++ [m]) } }
    let recs := ((secs.filter fun c => c.typ == 4).map (taskRecs b)).flatten
    let posts := recs.map fun r => (⟨.jti ctx, ctx, set.getD r.1 0, r.2⟩ : PostMsg)
    { s with posts := s.posts ++ posts, jti := mput s.jti ctx { j with step := 5, left := posts.length } }

/-- JTI_PLACEMENT_DONE: a load whose checks passed is placed (R145 steps 4 and 5). -/
def execJtiPlacementDone (ctx : Nat) (s : State) : Host.Outcome State Fault Refusal :=
  match mget s.jti ctx with
  | none => .next s
  | some j => .next (if j.step ≠ 3 ∨ j.status ≠ .ok ∨ !s.placeRuns (tilesOf (s.rdo (Obj.tileSet ctx))) then s else s.unlessHeld (s.jtiPlace ctx j))

/-- JTI_LOAD_DONE: the last post has completed, or the load has failed before; the status tells OK or the first failure (R145, R146). -/
def execJtiLoadDone (ctx : Nat) (s : State) : Host.Outcome State Fault Refusal :=
  match mget s.jti ctx with
  | none => .next s
  | some j =>
    if (j.step = 3 ∧ j.status = .ok) ∨ j.left ≠ 0 then .next s
    else .next ({ s with jti := mdel s.jti ctx }.wr (Obj.jtiLoadStatus ctx) (0x0200 + j.status.code))

end Sys2Proof.Machine
end

