-- ==== Sys2Proof/Machine/Sess.lean ====
section
/-! DEFINITION. The end of a session (R437, R438, R448, R453). -/

namespace Sys2Proof.Machine

open Sys2Proof

/-- `sessions_open` counts the open sessions, Steward ones included (R462). -/
def State.countSessions (s : State) : State := s.wr Obj.sessionsOpen (s.mgmt.sessions.filter fun x => x.st == SessState.opened).length

/-- The claims of a session end, each as with MBX_RELEASE (R453). -/
def State.dropClaims (s : State) (id : Nat) : State :=
  (List.range 16).foldl (fun s m =>
    if mbKind (s.bind m) = 2 ∧ s.rd (Obj.mbxClaimant m) = id then
      (s.wr (Obj.mbxClaimant m) 0).receiverGone m .abortedDisabled causeDisabled
    else s) s

/-- A session closes (R438): with a reason, an EVENT CLOSING goes out first; a Steward session, which
carries no EVENT (R439), is closed with CLOSE (DESIGN CHOICE); its session-scoped values, its snapshot and the peer's group key are lost. -/
def State.closeSession (s : State) (id : Nat) (reason : Option Nat) : State :=
  match s.session? id with
  | none => s
  | some x =>
    let s := match reason with
      | some r => if x.st ≠ SessState.opened then s else if x.role = roleSteward then s.frameOut id .close else s.frameOut id (.event 2 r)
      | none => s
    let s := { s with mgmt := { s.mgmt with sessions := s.mgmt.sessions.filter (fun y => y.id != id), peerKeys := s.mgmt.peerKeys.filter fun k => x.peer != some k.1 },
                      rcd := { s.rcd with snapshots := s.rcd.snapshots.filter fun y => y.session != id } }
    (s.countSessions).dropClaims id

/-- Close every session that passes a test. -/
def State.closeSessions (s : State) (p : Session → Bool) (reason : Nat) : State :=
  ((s.mgmt.sessions.filter p).map (·.id)).foldl (fun s id => s.closeSession id (some reason)) s

end Sys2Proof.Machine
end

