-- ==== Sys2Proof/Machine/Paging.lean ====
section
/-! DEFINITION. Page frames, fills by the house channels, the page-map commands and table walks (R166 to R175, R401, R402). -/

namespace Sys2Proof.Machine

open Sys2Proof

/-- The size of a page. -/
def pageSize (big : Bool) : Nat := if big then gib else 2097152

/-- The base and size of the region of a tier (false Shallows) and home die in the interleave mode in force; die 0 stands for the whole tier in PACKAGE
mode (R152). -/
def State.tierRegion (s : State) (deeps : Bool) (die : Nat) : Nat × Nat :=
  if deeps then (if s.pkgMode true then (2 ^ 42, 480 * gib) else (2 ^ 42 + die * 2 ^ 37, 120 * gib))
  else if s.pkgMode false then (0, 1080 * gib) else (die * 2 ^ 39, 270 * gib)

/-- The frames taken within a range. -/
def Mem.taken (m : Mem) (base size : Nat) : List Frame := m.frames.filter fun f => decide (base ≤ f.pa) && decide (f.pa < base + size)

/-- Free aligned pages of a size in a range: a frame takes the page it lies in, and a 1 GiB frame every 2 MiB page within it. -/
def Mem.freePages (m : Mem) (base size : Nat) (big : Bool) : Nat :=
  let l := m.taken base size
  size / pageSize big - (if big then ((l.map fun f => (f.pa - base) / gib).dedup).length else (l.map fun f => if f.big then 512 else 1).foldl (· + ·) 0)

/-- The lowest free aligned page at or above a candidate: each frame in the way moves the candidate past itself. -/
def Mem.firstFree (m : Mem) (big : Bool) (hi : Nat) : Nat → Nat → Option Nat
  | 0, _ => none
  | f + 1, c =>
    let n := pageSize big
    if c + n > hi then none
    else match m.frames.find? fun x => decide (x.pa < c + n) && decide (c < x.pa + pageSize x.big) with
      | none => some c
      | some x => Mem.firstFree m big hi f (cdiv (max (c + 1) (x.pa + pageSize x.big)) n * n)

/-- The lowest free page of a region (DESIGN CHOICE: the spec does not say which free page is taken). -/
def State.freePage (s : State) (deeps : Bool) (die : Nat) (big : Bool) : Option Nat :=
  let r := s.tierRegion deeps die
  s.mem.firstFree big (r.1 + r.2) (s.mem.frames.length + 1) r.1

/-- The homes a page may come from, best first: with ANY, the region with the most free pages, the lowest die number winning a tie (R174). -/
def State.homes (s : State) (deeps : Bool) (die : Nat) (big : Bool) : List Nat :=
  if s.pkgMode deeps then [0]
  else if die < 4 then [die]
  else
    let free := fun d => s.mem.freePages (s.tierRegion deeps d).1 (s.tierRegion deeps d).2 big
    (List.range 4).foldl (fun l d =>
      let before := l.takeWhile fun e => decide (free e ≥ free d)
      before ++ d :: l.drop before.length) []

/-- One free page for a tier code and a die (R174). -/
def State.takePage (s : State) (tier die : Nat) (big : Bool) : Option Nat :=
  let from_ := fun deeps => (s.homes deeps die big).findSome? fun d => s.freePage deeps d big
  if tier = 0 then from_ false
  else if tier = 1 then from_ true
  else (from_ false).orElse fun _ => from_ true

/-- The tier of a physical address: true for the Deeps. -/
def isDeeps (pa : Nat) : Bool := decide (2 ^ 42 ≤ pa)

/-- `mem_free_mib` and `table_store_free` follow the frames and the pages (R167, R184): a context with a page uses one root table, one table for each
512 GiB it touches and one for each 1 GiB it maps by 2 MiB pages. -/
def State.syncMem (s : State) : State :=
  let used := fun d => (((s.mem.frames.filter fun f => isDeeps f.pa == d).map fun f => pageSize f.big / 1048576).foldl (· + ·) 0)
  let p := s.mem.pages
  let tables := (p.map (·.ctx)).dedup.length + (p.map fun e => (e.ctx, e.va / 2 ^ 39)).dedup.length +
    ((p.filter fun e => !e.big).map fun e => (e.ctx, e.va / 2 ^ 30)).dedup.length
  let s := s.wr (Obj.memFreeMib 0) (1105920 - used false)
  let s := s.wr (Obj.memFreeMib 1) (491520 - used true)
  s.wr Obj.tableStoreFree (4096 - tables)

/-- Tables in use by a list of pages. -/
def tablesFor (p : List PageEnt) : Nat :=
  (p.map (·.ctx)).dedup.length + (p.map fun e => (e.ctx, e.va / 2 ^ 39)).dedup.length +
    ((p.filter fun e => !e.big).map fun e => (e.ctx, e.va / 2 ^ 30)).dedup.length

/-- The home die of a physical address, for the choice of a house channel (R150). -/
def State.homeDie (s : State) (pa : Nat) : Nat :=
  match s.regionOf pa with
  | .sram t _ => t / 480
  | .deeps => (s.placeDeeps pa).1 - 24 |>.div 2
  | _ => (s.placeShallows pa).1 / 6

/-- The house channel that takes a fill: the home die's, or the lowest one that has not failed (R402). -/
def State.houseFor (s : State) (pa : Nat) : Option Nat := s.houseOf (s.homeDie pa)

/-- Memory that no house channel can fill is withheld until the next bring-up (R402). -/
def State.withhold (s : State) (f : Fill) : State :=
  let s := (s.bumpSat Obj.pagesWithheld 32).exhausted 0x00 0 7 false
  match f.why with
  | .page pa | .retirePage _ pa =>
    { s with mem := { s.mem with frames := s.mem.frames.map fun x => if x.pa = pa then { x with use := .withheld } else x } }
  | .retireSram _ => { s with mem := { s.mem with sramHeld := ⟨0, bits f.base 21 11, f.base % 2097152, f.len⟩ :: s.mem.sramHeld } }
  | .commitSram c => { s with mem := { s.mem with sramHeld := ⟨c, bits f.base 21 11, f.base % 2097152, f.len⟩ :: s.mem.sramHeld } }

/-- Ask for a fill with zeros under the house context (R402). -/
def State.addFill (s : State) (why : FillWhy) (base len : Nat) : State :=
  match s.houseFor base with
  | some c => { s with mem := { s.mem with fills := s.mem.fills ++ [⟨why, base, len, c⟩] } }
  | none => s.withhold ⟨why, base, len, 0⟩

/-- A fill completes: its whole-granule and whole-row writes replace everything in the range (R160, R402), and its channel has written them (R211). -/
def State.fillDone (s : State) (f : Fill) : State :=
  { s.bumpBy Obj.teBytes f.len with mem := { (s.mem.zeroRange f.base f.len) with fills := s.mem.fills.filter fun x => x != f } }

/-- A fill that its channel can end: a house channel that the Custodian has disabled holds its fills until it is enabled again (DESIGN CHOICE). -/
def State.fillReady (s : State) (p : Fill → Bool) : Option Fill := s.mem.fills.find? fun f => p f && s.houseRuns f.ch

/-- A page goes back to the free pool (R175). -/
def State.freeFrame (s : State) (pa : Nat) : State :=
  ({ s with mem := { s.mem with frames := s.mem.frames.filter fun f => f.pa != pa } }).syncMem

/-- UNMAP_FILL_DONE: the fill of a released page ends, and the page is free (R175). -/
def execUnmapFillDone (pa : Nat) (s : State) : Host.Outcome State Fault Refusal :=
  match s.fillReady fun f => f.why == .page pa with
  | none => .next s
  | some f => .next ((s.fillDone f).freeFrame pa)

/-- The fields of a page-map command (R172). -/
def pmVa (b : Bytes) : Nat := leAt b 0 8
def pmLen (b : Bytes) : Nat := leAt b 8 8
def pmOp (b : Bytes) : Nat := byteAt b 16
def pmBig (b : Bytes) : Bool := byteAt b 17 == 1
def pmTier (b : Bytes) : Nat := byteAt b 18
def pmDie (b : Bytes) : Nat := byteAt b 19

/-- Results of a page-map command (R172). -/
abbrev pmOk : Nat := 0
abbrev pmMalformed : Nat := 1
abbrev pmNoMemory : Nat := 2
abbrev pmOverQuota : Nat := 3
abbrev pmOverlap : Nat := 4
abbrev pmNotMapped : Nat := 5
abbrev pmNoTable : Nat := 6
abbrev pmRetiring : Nat := 7

/-- What makes a command malformed (R172, R174): with PACKAGE interleave of a tier it names, `die` must be 0xFF. One of PACKAGE and DIE among the two tiers of
SHALLOWS_THEN_DEEPS is enough for that, an UNMAP is held to the same rule, and so is a range that passes the end of the 48-bit addresses (DESIGN CHOICE: the rules speak of
neither). -/
def State.pmMalformedCmd (s : State) (b : Bytes) : Bool :=
  let n := pageSize (pmBig b)
  !allZero (slice b 20 12) || decide (pmOp b < 1 ∨ pmOp b > 2) || decide (byteAt b 17 > 1) || decide (pmTier b > 2) ||
    decide (pmDie b > 3 ∧ pmDie b ≠ 0xFF) || decide (pmVa b % n ≠ 0) || decide (pmLen b = 0) || decide (pmLen b % n ≠ 0) ||
    decide (pmVa b + pmLen b > 2 ^ 48) ||
    (decide (pmDie b ≠ 0xFF) && ((decide (pmTier b ≠ 1) && s.pkgMode false) || (decide (pmTier b ≠ 0) && s.pkgMode true)))

/-- The pages of a context that meet a range. -/
def State.pagesIn (s : State) (ctx va len : Nat) : List PageEnt :=
  s.mem.pages.filter fun p => p.ctx == ctx && decide (p.va < va + len) && decide (va < p.va + p.size)

/-- Map pages one by one (R173, R174); nothing when a page is missing. -/
def State.mapGo : Nat → State → Nat → Bytes → Nat → Option State
  | 0, s, _, _, _ => some s
  | k + 1, s, ctx, b, va =>
    match s.takePage (pmTier b) (pmDie b) (pmBig b) with
    | none => none
    | some pa =>
      let s := { s with mem := { s.mem with
        pages := s.mem.pages ++ [⟨ctx, va, pmBig b, pa, false⟩], frames := s.mem.frames ++ [⟨pa, pmBig b, .mapped ctx⟩] } }
      State.mapGo k s ctx b (va + pageSize (pmBig b))

def State.pmDone (s : State) (ctx result : Nat) : State := s.wr (Obj.pageMapStatus ctx) (0x0200 + result)

/-- MiB mapped in a context. -/
def State.mappedMib (s : State) (ctx : Nat) : Nat :=
  ((s.mem.pages.filter fun p => p.ctx == ctx).map fun p => p.size / 1048576).foldl (· + ·) 0

def State.syncMapped (s : State) (ctx : Nat) : State := (s.wr (Obj.memMappedMib ctx) (s.mappedMib ctx)).syncMem

/-- MAP is all or nothing (R173); the first result that applies is reported (R172). -/
def State.pageMapRun (s : State) (ctx : Nat) (b : Bytes) : State :=
  let n := pmLen b / pageSize (pmBig b)
  let more := (List.range n).map fun i => (⟨ctx, pmVa b + i * pageSize (pmBig b), pmBig b, 0, false⟩ : PageEnt)
  if s.pmMalformedCmd b then s.pmDone ctx pmMalformed
  else if s.ctxSt ctx ≠ ctxOpen then s.pmDone ctx pmRetiring
  else if !(s.pagesIn ctx (pmVa b) (pmLen b)).isEmpty then s.pmDone ctx pmOverlap
  else if s.mappedMib ctx + pmLen b / 1048576 > s.rd (Obj.ctxQuotaMib ctx) then s.pmDone ctx pmOverQuota
  else if tablesFor (s.mem.pages ++ more) > 4096 then s.pmDone ctx pmNoTable
  else match State.mapGo n s ctx b (pmVa b) with
    | none => s.pmDone ctx pmNoMemory
    | some s => (s.syncMapped ctx).pmDone ctx pmOk

/-- The translation caches by number (R169): 0 to 3 the compute dies', 4 the fabric's, 5 the manager's, 6 on the tiles' micro caches. -/
def allCaches : List Nat := List.range 1926

/-- Start a shootdown (R170). -/
def State.shoot (s : State) (why : ShootWhy) (frames : List Nat) : State :=
  { s with mem := { s.mem with shoots := s.mem.shoots ++ [⟨why, allCaches, frames⟩] } }

/-- The table store drops the pages, their frames wait for the shootdown (R170, R175). -/
def State.unmapPages (s : State) (ctx : Nat) (l : List PageEnt) : State :=
  let s := { s with mem := { s.mem with
    pages := s.mem.pages.filter fun p => !l.contains p
    frames := s.mem.frames.map fun (f : Frame) => if (l.any fun (p : PageEnt) => p.pa == f.pa) then { f with use := .filling } else f } }
  (s.shoot (.unmap ctx) (l.map (·.pa))).syncMapped ctx

/-- UNMAP (R172, R175): a page whose migration is under way holds the command until the migration ends (R201). -/
def State.pageUnmapRun (s : State) (ctx : Nat) (b : Bytes) : State :=
  let l := s.pagesIn ctx (pmVa b) (pmLen b)
  let split := l.any fun p => decide (p.va < pmVa b) || decide (pmVa b + pmLen b < p.va + p.size)
  if s.pmMalformedCmd b ∨ split then s.pmDone ctx pmMalformed
  else if s.ctxSt ctx ≠ ctxOpen then s.pmDone ctx pmRetiring
  else if (l.map (·.size)).foldl (· + ·) 0 ≠ pmLen b then s.pmDone ctx pmNotMapped
  else if l.any fun p => p.moving then
    { s.wr (Obj.pageMapStatus ctx) 0x0100 with mem := { s.mem with waitUnmap := s.mem.waitUnmap ++ [(ctx, b)] } }
  else (s.unmapPages ctx l).wr (Obj.pageMapStatus ctx) 0x0100

/-- A write of `page_map_cmd` (R172): refused for the house context and while BUSY. -/
def State.pageCmd (s : State) (ctx : Nat) (b : Bytes) : State × Nat :=
  if b.length ≠ 32 then (s, rBadLength)
  else if ctx = 0 ∨ ctx ≥ 64 ∨ s.rd (Obj.pageMapStatus ctx) / 256 = 1 then (s, rRefused)
  else if pmOp b = 2 then (s.pageUnmapRun ctx b, rOk) else (s.pageMapRun ctx b, rOk)

def pageWriter (w : Who) (ctx : Nat) : Bool := isOpCus w || isTenant w ctx

/-- PAGE_MAP and PAGE_UNMAP (R172 to R175). -/
def execPageMap (w : Who) (ctx : Nat) (cmd : Bytes) (s : State) : Host.Outcome State Fault Refusal :=
  .next (if pmOp cmd = 2 then s else s.ctl w (pageWriter w ctx) fun s => s.pageCmd ctx cmd)
def execPageUnmap (w : Who) (ctx : Nat) (cmd : Bytes) (s : State) : Host.Outcome State Fault Refusal :=
  .next (if pmOp cmd ≠ 2 then s else s.ctl w (pageWriter w ctx) fun s => s.pageCmd ctx cmd)

/-- TABLE_WALK_DONE: a walk is counted (R169); one whose read was uncorrectable is recorded and caches nothing, and the access that waited for it completes with
UNCORRECTABLE, whether or not a page maps the address (R168). -/
def execTableWalkDone (ctx va : Nat) (uncorrectable : Bool) (s : State) : Host.Outcome State Fault Refusal :=
  let s := s.bump Obj.tcMissCount
  let k := (ctx, match s.pageOf ctx va with
    | some p => p.va
    | none => va / 2097152 * 2097152)
  let rest := s.mem.walkUe.filter fun x => x != k
  .next (if uncorrectable then { s with mem := { s.mem with walkUe := k :: rest } }.event 0x2005 0x0D ctx ctx va 0 0
    else { s with mem := { s.mem with walkUe := rest } })

end Sys2Proof.Machine
end

