-- ==== Sys2Proof/Machine/Te.lean ====
section
/-! DEFINITION. Transfer-engine channels: rings, descriptors, the modes that move data inside the package, migration, and control of the channels (R185 to
R204, R207, R210). -/

namespace Sys2Proof.Machine

open Sys2Proof

/-- An address of a descriptor with a non-zero reserved bit (R193). -/
def teBadAddr (a : Nat) : Bool := if bit a 63 then decide (bits a 32 31 ≠ 0) else decide (bits a 48 15 ≠ 0)

/-- The place an address names for the owner of a channel (R153, R193). -/
def teLoc (ctx a : Nat) : Loc := if bit a 63 then .sram (bits a 21 11) (a % 2097152) else if ctx = 0 then .phys a else .virt a

/-- The rules of R192, R193, R195 and R201 that a descriptor must keep to start on a channel. -/
def State.teMalformed (s : State) (c : Nat) (b : Bytes) : Bool :=
  let m := dMode b
  let gs := m == 4 || m == 5
  let host := m == 8 || m == 9 || m == 10
  let tier := byteAt (leBytes 8 (dAux b)) 0
  let die := byteAt (leBytes 8 (dAux b)) 1
  !(m == 1 || m == 2 || (m ≥ 3 && m ≤ 6 && !isHte c) || (host && isHte c)) ||
    decide (byteAt b 1 ≥ 8) || decide (byteAt b 3 ≠ 0) || !allZero (slice b 58 6) ||
    (dTallyValid b && decide (dTallyTile b ≥ 1920)) || (dThenValid b && (decide (dThenTile b ≥ 1920) || decide (dThenTask b % 64 ≠ 0) ||
      decide (dThenTask b ≥ 2 ^ 48))) ||
    (if gs then decide (dLen b ≠ 0) || decide (dCount b = 0) || decide (dElem b % 8 ≠ 0) || decide (dElem b < 8) || decide (dElem b > 65536)
     else decide (dLen b = 0) || decide (dElem b ≠ 0) || (if host then decide (dCount b > 15) else decide (dCount b ≠ 0))) ||
    (!host && decide (dAux2 b ≠ 0)) || teBadAddr (dSrc b) || teBadAddr (dDst b) || (gs && teBadAddr (dAux b)) ||
    ((m == 2 || m == 3 || m == 4 || m == 8) && decide (dSrc b ≠ 0)) || ((m == 5 || m == 6 || m == 9 || m == 10) && decide (dDst b ≠ 0)) ||
    ((m == 1 || m == 3) && decide (dAux b ≠ 0)) || (m == 2 && (decide (dLen b % 8 ≠ 0) || decide (dDst b % 8 ≠ 0))) ||
    (m == 6 && (decide (dAux b / 65536 ≠ 0) || decide (tier > 1) || decide (die > 3 ∧ die ≠ 0xFF) ||
      (s.pkgMode (tier == 1) && decide (die ≠ 0xFF))))

def State.updActive (s : State) (c serial : Nat) (f : TeActive → TeActive) : State :=
  let ch := s.chan c
  s.setChan c { ch with active := updFirst (fun a => a.serial == serial) f ch.active }

/-- A channel freezes (R199, R200, R394): work of an earlier epoch freezes nothing (R396). -/
def State.freezeTe (s : State) (c epoch addr : Nat) : State :=
  match s.teOwnerOf c with
  | none => s
  | some ctx =>
    if epoch ≠ s.rd (Obj.protEpoch ctx) then s.protAbort
    else
      let st := s.rd (Obj.teState c)
      if st ≠ ustActive ∧ st ≠ ustQuiescing then s
      else
        let ch := s.chan c
        let s := s.setChan c { ch with wasQuiescing := st == ustQuiescing, frozenCtx := ctx, postQ := [] }
        let s := (s.goState (Obj.teState c) 0x04 c ustFrozen).wr (Obj.teFreezeAddr c) addr
        let s := s.freezeEvent 0x04 c ctx causeWindow addr
        s.postsDone ch.postQ .abortedDisabled causeDisabled

/-- Steps 1 to 3 of R197 for a descriptor whose work has ended with a status: the tally, the post of its then_task, the record. -/
def State.teFinish (s : State) (c : Nat) (a : TeActive) (st : Status) (detail bytes count : Nat) : State :=
  match s.teOwnerOf c with
  | none => s
  | some ctx =>
    let s := s.bumpBy Obj.teBytes (if dMode a.bytes = 3 then 0 else bytes)
    let s := s.descTally c ctx a.bytes st
    let drop := fun (s : State) (post : Nat) =>
      let ch := s.chan c
      (s.setChan c { ch with active := ch.active.filter fun x => x.serial != a.serial }).recordDesc c a.serial (dTag a.bytes) st detail post bytes count
    if dThenValid a.bytes ∧ st = .ok then
      let r := s.read ctx (chanMaster c) permRead (if ctx = 0 then .phys (dThenTask a.bytes) else .virt (dThenTask a.bytes)) 64
      if r.st = .ok then
        let s := r.s.updActive c a.serial fun x => { x with phase := .posting, status := st, detail := detail, bytesDone := bytes, count := count }
        { s with posts := s.posts ++ [⟨.te c a.serial, ctx, dThenTile a.bytes, r.data⟩] }
      else
        let s := drop r.s r.st.code
        if r.st = .violation then s.freezeTe c a.epoch r.addr else s
    else drop s 0xFF

/-- A descriptor that completes without having started: malformed, or ended by a disable, a purge, a failure or a retire (R191, R192). -/
def State.teDrop (s : State) (c : Nat) (d : TeDesc) (st : Status) (detail : Nat) : State :=
  match s.teOwnerOf c with
  | none => s
  | some ctx => (s.descTally c ctx d.bytes st).recordDesc c d.serial (dTag d.bytes) st detail 0xFF 0 0

/-- Every queued descriptor of a channel completes with a status, in queue order. -/
def State.teDropQueue (s : State) (c : Nat) (st : Status) : State :=
  let q := (s.chan c).queue
  q.foldl (fun s d => s.teDrop c d st tdNone) (s.setChan c { s.chan c with queue := [] })

/-- Whether the die of a channel is out of reset: the HTE channels lie on MD (R185, R481). -/
def State.chanUp (s : State) (c : Nat) : Bool := isHte c || s.domUp (c / 16 + 1)

/-- Whether a channel may start its next descriptor (R191, R198). -/
def State.teMayStart (s : State) (c : Nat) (d : TeDesc) : Bool :=
  let ch := s.chan c
  s.chanUp c && s.rd (Obj.teState c) == ustActive && decide (ch.active.length < 4) && !s.cqFull c &&
    (!dFence d.bytes || (ch.active.isEmpty && ch.recs.isEmpty))

/-- The oldest queued descriptor starts when its mode is the one asked for: a malformed one completes at once (R192), any other goes on with `k`. A mode that
no row names counts for COPY's. -/
def State.teStart (s : State) (c : Nat) (want : Nat → Bool) (k : State → TeActive → State) : State :=
  let ch := s.chan c
  match ch.queue with
  | [] => s
  | d :: q =>
    if !want (dMode d.bytes) ∨ !s.teMayStart c d then s
    else s.unlessHeld <|
      let s := s.setChan c { ch with queue := q }
      if s.teMalformed c d.bytes then s.teDrop c d .violation tdMalformed
      else
        let ctx := (s.teOwnerOf c).getD 0
        let a : TeActive := ⟨d.serial, d.bytes, s.rd (Obj.protEpoch ctx), .working, .ok, tdNone, 0, 0, 0xFF, 0, 0, 0⟩
        k (s.setChan c { s.chan c with active := (s.chan c).active ++ [a] }) a

/-- A mode that belongs to none of the rows. -/
def modeUnknown (m : Nat) : Bool := m == 0 || m == 7 || m ≥ 11

def execTeCopy (c : Nat) (s : State) : Host.Outcome State Fault Refusal := .next (s.teStart c (fun m => m == 1 || modeUnknown m) fun s _ => s)
def execTeFill (c : Nat) (s : State) : Host.Outcome State Fault Refusal := .next (s.teStart c (· == 2) fun s _ => s)
def execTeScrub (c : Nat) (s : State) : Host.Outcome State Fault Refusal := .next (s.teStart c (· == 3) fun s _ => s)
def execTeGather (c : Nat) (s : State) : Host.Outcome State Fault Refusal := .next (s.teStart c (· == 4) fun s _ => s)
def execTeScatter (c : Nat) (s : State) : Host.Outcome State Fault Refusal := .next (s.teStart c (· == 5) fun s _ => s)

/-- What the movement of a descriptor came to: status, detail, bytes written (or checked), count, and the address of a failed window check. -/
structure MoveR where
  s : State
  st : Status
  detail : Nat
  bytes : Nat
  count : Nat
  addr : Nat

def MoveR.of (a : AccR) (bytes count : Nat) : MoveR := ⟨a.s, a.st, if a.win then tdWindow else tdNone, bytes, count, a.addr⟩

/-- SCRUB granule by granule (R196). -/
def State.scrubGo : Nat → State → Nat → Master → Loc → Nat → Nat → MoveR
  | 0, s, _, _, _, bytes, bad => ⟨s, .ok, tdNone, bytes, bad, 0⟩
  | k + 1, s, ctx, m, l, bytes, bad =>
    let r := s.resolve ctx m (permRead ||| permWrite) l 128
    if r.2.1 = .violation then ⟨r.1, .violation, tdWindow, bytes, bad, l.report⟩
    else if r.2.1 ≠ .ok then ⟨r.1, r.2.1, tdNone, bytes, bad, l.report⟩
    else
      let b := r.1.readBlock r.2.2 128
      State.scrubGo k b.1 ctx m (l.adv 128) (bytes + 128) (bad + if b.2.1 = .ok then 0 else 1)

/-- An index word that may not stand for an element (R195): a reserved bit, or an element that crosses a 2 MiB page or a tile. -/
def elemBad (a n : Nat) : Bool := teBadAddr a || decide (a % 2097152 + n > 2097152)

/-- Granules of the destination that a part of a transfer lies in, and how many of its bytes lie in the first `v` of them (R207: work stops at a granule boundary). -/
def pieces (dst n : Nat) : Nat := cdiv (dst % 128 + n) 128
def cutAt (dst n v : Nat) : Nat := min n (128 * v - dst % 128)

/-- An element's two addresses are checked when its index word is read (R195): the failing one, if any. -/
def State.elemCheck (s : State) (ctx : Nat) (m : Master) (src dst : Loc) (n : Nat) : Option Nat :=
  (s.check ctx m permRead src n).orElse fun _ => s.check ctx m permWrite dst n

/-- GATHER element by element (R195, R199), within the first `v` granules of what it writes. -/
def State.gatherGo : Nat → State → Nat → Master → Bytes → Nat → Nat → MoveR
  | 0, s, _, _, b, k, _ => ⟨s, .ok, tdNone, k * dElem b, k, 0⟩
  | f + 1, s, ctx, m, b, k, v =>
    let n := dElem b
    let d := dDst b + k * n
    if v = 0 then ⟨s, .ok, tdNone, k * n, k, 0⟩
    else
      let w := s.read ctx m permRead ((teLoc ctx (dAux b)).adv (8 * k)) 8
      if w.st ≠ .ok then .of w (k * n) k
      else if elemBad (leNat w.data) n then ⟨w.s, .violation, tdMalformed, k * n, k, 0⟩
      else
        let src := teLoc ctx (leNat w.data)
        let dst := (teLoc ctx (dDst b)).adv (k * n)
        match w.s.elemCheck ctx m src dst n with
        | some a => ⟨w.s, .violation, tdWindow, k * n, k, a⟩
        | none =>
          let c := w.s.copy ctx m src dst (cutAt d n v)
          if c.st ≠ .ok then .of c (k * n + c.done) k
          else if v < pieces d n then .of c (k * n + cutAt d n v) k
          else State.gatherGo f c.s ctx m b (k + 1) (v - pieces d n)

/-- SCATTER, first part: the elements and their targets are read and checked in order up to the first failure (R194, R195), within the first `v` granules of what it
writes; of an element with an uncorrectable granule what lies before that granule counts (R199). -/
def State.scatterRead : Nat → State → Nat → Master → Bytes → Nat → Nat → List (Nat × Bytes) → MoveR × List (Nat × Bytes)
  | 0, s, _, _, _, k, _, l => (⟨s, .ok, tdNone, 0, k, 0⟩, l)
  | f + 1, s, ctx, m, b, k, v, l =>
    let n := dElem b
    if v = 0 then (⟨s, .ok, tdNone, 0, k, 0⟩, l)
    else
      let w := s.read ctx m permRead ((teLoc ctx (dAux b)).adv (8 * k)) 8
      let t := leNat w.data
      if w.st ≠ .ok then (.of w 0 k, l)
      else if elemBad t n then (⟨w.s, .violation, tdMalformed, 0, k, 0⟩, l)
      else
        let src := (teLoc ctx (dSrc b)).adv (k * n)
        match w.s.elemCheck ctx m src (teLoc ctx t) n with
        | some a => (⟨w.s, .violation, tdWindow, 0, k, a⟩, l)
        | none =>
          let d := w.s.read ctx m permRead src (cutAt t n v)
          if d.st ≠ .ok then (.of d 0 k, l ++ [(t, d.data)])
          else if v < pieces t n then (.of d 0 k, l ++ [(t, d.data)])
          else State.scatterRead f d.s ctx m b (k + 1) (v - pieces t n) (l ++ [(t, d.data)])

/-- SCATTER, second part: the elements read are written. -/
def State.scatterWrite : List (Nat × Bytes) → State → Nat → Master → Nat → Nat → MoveR
  | [], s, _, _, bytes, k => ⟨s, .ok, tdNone, bytes, k, 0⟩
  | e :: l, s, ctx, m, bytes, k =>
    let w := s.write ctx m permWrite (teLoc ctx e.1) e.2
    if w.st ≠ .ok then .of w (bytes + w.done) k else State.scatterWrite l w.s ctx m (bytes + e.2.length) (k + 1)

/-- The 8-byte pattern repeated. -/
def fillBytes (pat len : Nat) : Bytes := (List.replicate (len / 8) (leBytes 8 pat)).flatten

/-- Perform the data movement of a descriptor (R193 to R196), in at most the first `v` granules of what it writes or, for SCRUB, checks. -/
def State.teMove (s : State) (c ctx : Nat) (b : Bytes) (v : Nat) : MoveR :=
  let m := chanMaster c
  match dMode b with
  | 1 =>
    let r := s.copy ctx m (teLoc ctx (dSrc b)) (teLoc ctx (dDst b)) (cutAt (dDst b) (dLen b) v)
    .of r r.done 0
  | 2 =>
    let r := s.write ctx m permWrite (teLoc ctx (dDst b)) (fillBytes (dAux b) (cutAt (dDst b) (dLen b) v))
    .of r r.done 0
  | 3 =>
    let lo := dDst b % 128
    State.scrubGo (min v (pieces (dDst b) (dLen b))) s ctx m (teLoc ctx (dDst b - lo)) 0 0
  | 4 => State.gatherGo (dCount b) s ctx m b 0 v
  | 5 =>
    let r := State.scatterRead (dCount b) s ctx m b 0 v []
    let w := State.scatterWrite r.2 r.1.s ctx m 0 0
    if w.st ≠ .ok then w else { r.1 with s := w.s, bytes := w.bytes }
  | _ => ⟨s, .ok, tdNone, 0, 0, 0⟩

/-- Granules of the longest movement. -/
abbrev allGranules : Nat := 2 ^ 32

/-- TE_DESCRIPTOR_COMPLETE: the movement of a descriptor in progress is performed, or the ended work of a MIGRATE or a host transfer is taken, and the
descriptor completes (R194 to R199). -/
def execTeDescriptorComplete (c serial : Nat) (s : State) : Host.Outcome State Fault Refusal :=
  match (s.chan c).active.find? fun a => a.serial = serial, s.teOwnerOf c with
  | some a, some ctx =>
    .next (s.unlessHeld <| match a.phase with
      | .working =>
        if dMode a.bytes < 6 then
          let r := s.teMove c ctx a.bytes allGranules
          let s := r.s.teFinish c a r.st r.detail r.bytes r.count
          if r.st = .violation ∧ r.detail = tdWindow then s.freezeTe c a.epoch r.addr else s
        else s
      | .ended =>
        let s := s.teFinish c a a.status a.detail a.bytesDone a.count
        if a.status = .violation ∧ a.detail = tdWindow then s.freezeTe c a.epoch a.failAddr else s
      | _ => s)
  | _, _ => .next s

/-- The key of a migration among the shootdowns. -/
def moveKey (c serial : Nat) : Nat := 72 * serial + c

/-- Granules of a page. -/
def granulesOf (big : Bool) : Nat := pageSize big / 128

/-- A descriptor's work ends with a status. -/
def State.teEnd (s : State) (c serial : Nat) (st : Status) (detail bytes : Nat) : State :=
  s.updActive c serial fun x => { x with phase := .ended, status := st, detail := detail, bytesDone := bytes }

/-- Whether a page lies where a MIGRATE asks (R201). -/
def State.alreadyThere (s : State) (pa tier die : Nat) : Bool :=
  isDeeps pa == (tier == 1) && (die == 0xFF || s.homeDie pa == die)

/-- A MIGRATE goes as far as it can (R201, R202 step 1). -/
def State.migrateTry (s : State) (c : Nat) (a : TeActive) : State :=
  let ctx := (s.teOwnerOf c).getD 0
  let tier := dAux a.bytes % 256
  let die := dAux a.bytes / 256 % 256
  match s.check ctx .te permRead (teLoc ctx (dSrc a.bytes)) 1, s.pageOf ctx (dSrc a.bytes) with
  | none, some p =>
    if p.moving then s.updActive c a.serial fun x => { x with phase := .waitMove }
    else if s.alreadyThere p.pa tier die then s.teEnd c a.serial .ok tdNotMoved 0
    else match s.takePage tier die p.big with
      | none => s.updActive c a.serial fun x => { x with phase := .waitPage }
      | some pa =>
        let mv : Move := ⟨c, a.serial, ctx, p.va, p.big, p.pa, pa, 0, false, false⟩
        let s := { s with mem := { s.mem with
          pages := s.mem.pages.map fun (q : PageEnt) => if q = p then { q with moving := true } else q
          frames := s.mem.frames ++ [(⟨pa, p.big, .reserved⟩ : Frame)]
          moves := s.mem.moves ++ [mv] } }
        ((s.syncMem).shoot (.migrateStart (moveKey c a.serial)) []).updActive c a.serial fun x => { x with phase := .working }
  | _, _ =>
    let s := s.teFinish c a .violation tdWindow 0 0
    s.freezeTe c a.epoch (dSrc a.bytes)

/-- TE_MIGRATE: every MIGRATE of the channel that waits tries again, in queue order, and the next descriptor, if it is a MIGRATE, starts (R198, R201, R202). -/
def execTeMigrate (c : Nat) (s : State) : Host.Outcome State Fault Refusal :=
  let waits := (s.chan c).active.filter fun a => a.phase == .waitPage || a.phase == .waitMove
  .next ((waits.foldl (fun s a => s.migrateTry c a) s).teStart c (· == 6) fun s a => s.migrateTry c a)

/-- MIGRATE_WAIT_EXPIRY: no page has become free in time (R201). -/
def execMigrateWaitExpiry (c serial : Nat) (s : State) : Host.Outcome State Fault Refusal :=
  .next (match (s.chan c).active.find? fun a => a.serial = serial ∧ a.phase = .waitPage with
    | some _ => s.teEnd c serial .timeout tdNoPage 0
    | none => s)

def State.moveOf (s : State) (c serial : Nat) : Option Move := s.mem.moves.find? fun m => m.ch = c ∧ m.serial = serial

def State.setMove (s : State) (m : Move) : State :=
  { s with mem := { s.mem with moves := updFirst (fun x => x.ch == m.ch && x.serial == m.serial) (fun _ => m) s.mem.moves } }

/-- MIGRATION_GRANULE_COPIED: the granule at the cursor is read, corrected and written to the destination; an uncorrectable one is written as unwritten
(R202 to R204). -/
def execMigrationGranuleCopied (c serial : Nat) (s : State) : Host.Outcome State Fault Refusal :=
  match s.moveOf c serial with
  | none => .next s
  | some m =>
    if !m.started ∨ m.cursor ≥ granulesOf m.big then .next s
    else
      let g := m.src + 128 * m.cursor
      let d := m.dst + 128 * m.cursor
      let r := s.readBlock g 128
      let s := r.1.clearMark d
      let s := if r.2.1 = .ok then { s with mem := s.mem.put d r.2.2 } else { s with mem := { s.mem with marks := mput s.mem.marks d .unwritten } }
      .next (s.setMove { m with cursor := m.cursor + 1, ue := m.ue || r.2.1 != .ok })

/-- The UNMAPs that waited for migrations of their pages (R201). -/
def State.wakeUnmaps (s : State) : State :=
  let l := s.mem.waitUnmap
  l.foldl (fun s u => s.pageUnmapRun u.1 u.2) { s with mem := { s.mem with waitUnmap := [] } }

def State.dropMove (s : State) (m : Move) : State :=
  { s with mem := { s.mem with moves := s.mem.moves.filter fun x => !(x.ch == m.ch && x.serial == m.serial) } }

/-- A frame leaves use and waits for its fill (R202 step 4, R204). -/
def State.releaseFrame (s : State) (pa : Nat) (big : Bool) : State :=
  let s := { s with mem := { s.mem with frames := s.mem.frames.map fun (f : Frame) => if f.pa = pa then { f with use := .filling } else f } }
  s.addFill (.page pa) pa (pageSize big)

/-- MIGRATION_COPY_DONE: the entry points to the destination, and the source is filled (R202 steps 3 and 4, R204). -/
def execMigrationCopyDone (c serial : Nat) (s : State) : Host.Outcome State Fault Refusal :=
  match s.moveOf c serial with
  | none => .next s
  | some m =>
    if m.cursor < granulesOf m.big then .next s
    else
      let s := s.dropMove m
      let s := { s with mem := { s.mem with
        pages := s.mem.pages.map fun (p : PageEnt) => if p.ctx = m.ctx ∧ p.va = m.va then { p with pa := m.dst, moving := false } else p
        frames := s.mem.frames.map fun (f : Frame) => if f.pa = m.dst then { f with use := .mapped m.ctx } else f } }
      let s := (s.releaseFrame m.src m.big).bump Obj.migrations
      let s := s.teEnd c serial (if m.ue then .uncorrectable else .ok) tdNone (pageSize m.big)
      .next s.wakeUnmaps

/-- A migration is abandoned: the entry stays on the source (R204). -/
def State.abandonMove (s : State) (c serial : Nat) : State :=
  match s.moveOf c serial with
  | none => s
  | some m =>
    let s := s.dropMove m
    let s := { s with mem := { s.mem with
      pages := s.mem.pages.map fun (p : PageEnt) => if p.ctx = m.ctx ∧ p.va = m.va then { p with moving := false } else p
      shoots := s.mem.shoots.filter fun (x : Shootdown) => x.why != ShootWhy.migrateStart (moveKey c serial) } }
    (s.releaseFrame m.dst m.big).wakeUnmaps

/-- The end of a descriptor that is stopped with a status, where its own failure on the way tells more (R23); a failed window check freezes a channel that is in service
(R199). -/
def State.teStopEnd (s : State) (c : Nat) (a : TeActive) (own : Status) (detail : Nat) (st : Status) (bytes count addr : Nat) : State :=
  let s := s.teFinish c a (own.first st) (if own.first st = own then detail else tdNone) bytes count
  if own = .violation ∧ detail = tdWindow then s.freezeTe c a.epoch addr else s

/-- A descriptor whose then_task is on its way is stopped (R208, R210): its tally has been decremented, and its record carries the status for the descriptor and for the
post, which tells nobody any more how it ends. -/
def State.teStopPost (s : State) (c : Nat) (a : TeActive) (st : Status) : State :=
  let ch := s.chan c
  (s.setChan c { ch with active := ch.active.filter fun b => b.serial != a.serial }).recordDesc c a.serial (dTag a.bytes) (a.status.first st) a.detail
    st.code a.bytesDone a.count

/-- A descriptor in progress is stopped (R207, R208, R210): what it had moved by then is a free number of granules, no then_task is posted, and each ends with one
record. -/
def State.teStop (s : State) (c : Nat) (a : TeActive) (st : Status) : State :=
  let ctx := (s.teOwnerOf c).getD 0
  match a.phase with
  | .working =>
    if dMode a.bytes < 6 then
      let v := s.free 25
      let r := v.2.teMove c ctx a.bytes v.1
      r.s.teStopEnd c a r.st r.detail st r.bytes r.count r.addr
    else if dMode a.bytes = 6 then (s.abandonMove c a.serial).teStopEnd c a .ok tdNone st 0 0 0
    else s.teStopEnd c a a.status a.detail st a.bytesDone 0 a.failAddr
  | .waitPage | .waitMove => s.teStopEnd c a .ok tdNone st 0 0 0
  | .ended => s.teStopEnd c a a.status a.detail st a.bytesDone a.count a.failAddr
  | .posting => s.teStopPost c a st

/-- Outstanding RDMA work of a channel's stopped descriptors leaves its queue pairs in the error state (R207). -/
def State.qpsError (s : State) (c : Nat) : State :=
  if !isHte c then s
  else (List.range 16).foldl (fun s q =>
    let p := s.qp (c - 64) q
    if p.unacked.isEmpty then s else (s.setQp (c - 64) q { p with unacked := [] }).wr (Obj.hteQpState (c - 64) q) 2) s

/-- Stop everything in progress on a channel. -/
def State.teStopAll (s : State) (c : Nat) (st : Status) : State :=
  (((s.chan c).active.foldl (fun s a => s.teStop c a st) s).qpsError c)

/-- A channel enters QUIESCING (R24, R207). -/
def State.quiesceTe (s : State) (c : Nat) : State :=
  let s := s.goState (Obj.teState c) 0x04 c ustQuiescing
  let w := (s.chan c).postQ
  let s := (s.setChan c { s.chan c with postQ := [], heldDisable := false }).postsDone w .abortedDisabled causeDisabled
  s.teDropQueue c .abortedDisabled

/-- A disable command for a channel (R27, R207): a house channel only by the Custodian. -/
def State.disableTe (s : State) (w : Who) (c : Nat) : State × Nat :=
  let st := s.rd (Obj.teState c)
  if isHouse c ∧ !isCus w then (s, rNoAccess)
  else if st = ustActive then (s.quiesceTe c, rOk)
  else if st = ustFrozen then (s.setChan c { s.chan c with heldDisable := true }, rOk)
  else (s, rOk)

def execTeDisable (w : Who) (c : Nat) (s : State) : Host.Outcome State Fault Refusal :=
  .next (s.ctl w (isOpCus w) fun s => if c ≥ 72 then (s, rNoObject) else s.disableTe w c)

/-- The end of the grace of a channel (R24, R207): one that freezes on what a descriptor met stays FROZEN (R199). -/
def State.graceEndTe (s : State) (c : Nat) : State :=
  let s := s.teStopAll c .abortedDisabled
  let ch := s.chan c
  if s.rd (Obj.teState c) = ustQuiescing ∧ ch.active.isEmpty ∧ ch.recs.isEmpty then s.goState (Obj.teState c) 0x04 c ustDisabled else s

def TeChan.drained (ch : TeChan) : Bool := ch.queue.isEmpty && ch.active.isEmpty && ch.recs.isEmpty && ch.postQ.isEmpty

/-- An enable command for a channel (R27, R186, R210). -/
def State.enableTe (s : State) (c : Nat) : State × Nat :=
  let st := s.rd (Obj.teState c)
  if st = ustActive then (s, rOk)
  else if st ≠ ustDisabled ∨ (s.teOwnerOf c).isNone ∨ (!isHte c ∧ !s.mastersMay) then (s, rRefused)
  else (s.goState (Obj.teState c) 0x04 c ustActive, rOk)

def execTeEnable (w : Who) (c : Nat) (s : State) : Host.Outcome State Fault Refusal :=
  .next (s.ctl w (isOpCus w) fun s => if c ≥ 72 then (s, rNoObject) else s.enableTe c)

/-- A FROZEN channel is released (R200): it is ACTIVE, and a held disable takes effect at once (R27). -/
def State.unfreezeTe (s : State) (c : Nat) (purge : Bool) : State :=
  let ch := s.chan c
  let s := if purge then s.teDropQueue c .abortedDisabled else s
  let s := (s.setChan c { s.chan c with heldDisable := false, wasQuiescing := false }).goState (Obj.teState c) 0x04 c ustActive
  if ch.heldDisable then s.quiesceTe c else s

/-- TE_RELEASE and TE_PURGE, by the Custodian, refused unless FROZEN (R200, R211). -/
def State.releaseTe (s : State) (w : Who) (c : Nat) (purge : Bool) : State × Nat :=
  if !isCus w then (s, rNoAccess) else if s.rd (Obj.teState c) ≠ ustFrozen then (s, rRefused) else (s.unfreezeTe c purge, rOk)

def execTeRelease (w : Who) (c : Nat) (s : State) : Host.Outcome State Fault Refusal :=
  .next (s.ctl w (isOpCus w) fun s => if c ≥ 72 then (s, rNoObject) else s.releaseTe w c false)
def execTePurge (w : Who) (c : Nat) (s : State) : Host.Outcome State Fault Refusal :=
  .next (s.ctl w (isOpCus w) fun s => if c ≥ 72 then (s, rNoObject) else s.releaseTe w c true)

/-- Fills of a failed house channel move to another, or their memory is withheld (R402). -/
def State.moveFills (s : State) (c : Nat) : State :=
  let mine := s.mem.fills.filter fun f => f.ch == c
  mine.foldl (fun s f =>
    let rest := s.mem.fills.filter fun x => x != f
    match s.houseFor f.base with
    | some h => { s with mem := { s.mem with fills := rest ++ [{ f with ch := h }] } }
    | none => { s with mem := { s.mem with fills := rest } }.withhold f) s

/-- The copies of an evacuation go on by another house channel, while there is one (DESIGN CHOICE after R402). -/
def State.moveEvacs (s : State) (c : Nat) : State :=
  { s with mem := { s.mem with evacs := s.mem.evacs.map fun (e : Evac) => if e.ch = c then { e with ch := (s.houseOf (stackHome e.stack)).getD c } else e } }

/-- A channel fails (R210). -/
def State.failTe (s : State) (c : Nat) : State :=
  let s := (s.goState (Obj.teState c) 0x04 c ustFailed).addFail 0x04 c
  let w := (s.chan c).postQ
  let s := (s.setChan c { s.chan c with postQ := [], heldDisable := false, wasQuiescing := false }).postsDone w .abortedDisabled causeDisabled
  let s := (s.teStopAll c .abortedDisabled).teDropQueue c .abortedDisabled
  if isHouse c then (s.moveFills c).moveEvacs c else s

/-- TE_CHANNEL_FAIL: a channel fails while it runs (R210). -/
def execTeChannelFail (c : Nat) (s : State) : Host.Outcome State Fault Refusal :=
  .next (if c ≥ 72 ∨ s.rd (Obj.teState c) = ustFailed ∨ s.rd (Obj.teState c) = ustDisabled then s else s.failTe c)

/-- The owner of a channel alone writes its ring indices (R211). -/
def State.teWriter (s : State) (w : Who) (c : Nat) : Bool := w.role == roleTenant && s.teOwnerOf c == some w.ctx

/-- TE_SQ_TAIL_WRITE submits ring descriptors (R188). An index at or above the number of entries is out of range and keeps the index (DESIGN CHOICE: the row states no
range). -/
def State.sqTail (s : State) (c v : Nat) : State × Nat :=
  if v ≥ s.rd (Obj.teSqEntries c) then (s, rOutOfRange) else (s.wr (Obj.teSqTail c) v, rOk)

def execTeSqTailWrite (w : Who) (c v : Nat) (s : State) : Host.Outcome State Fault Refusal :=
  .next (s.ctl w (s.teWriter w c) fun s => s.sqTail c v)

/-- TE_CQ_HEAD_WRITE frees completion entries, and records that wait are written (R188, R191); an index at or above the number of entries is out of range, as for the
tail (DESIGN CHOICE). -/
def State.cqHead (s : State) (c v : Nat) : State × Nat :=
  if v ≥ s.rd (Obj.teCqEntries c) then (s, rOutOfRange) else ((s.wr (Obj.teCqHead c) v).flushRecords c, rOk)

def execTeCqHeadWrite (w : Who) (c v : Nat) (s : State) : Host.Outcome State Fault Refusal :=
  .next (s.ctl w (s.teWriter w c) fun s => s.cqHead c v)

/-- The ring descriptor at the head index is fetched into the channel queue (R188, R190); a failed check ends the fetch with VIOLATION, WINDOW, and freezes the channel
(R390). A descriptor that cannot be read is received all the same and completes with its status (DEDUCED: R191). -/
def State.teFetch (s : State) (c ctx : Nat) : State :=
  let head := s.rd (Obj.teSqHead c)
  let base := s.rd (Obj.teSqBase c) + 64 * head
  let a := s.read ctx (chanMaster c) permRead (if ctx = 0 then .phys base else .virt base) 64
  let s := a.s.wr (Obj.teSqHead c) ((head + 1) % s.rd (Obj.teSqEntries c))
  let ch := s.chan c
  if a.st = .ok then s.setChan c (ch.push a.data false)
  else
    let s := (s.setChan c { ch with nextSerial := ch.nextSerial + 1 }).recordDesc c ch.nextSerial (zeros 4) a.st (if a.win then tdWindow else tdNone) 0xFF 0 0
    if a.win then s.freezeTe c (s.rd (Obj.protEpoch ctx)) a.addr else s

/-- TE_RING_FETCH: the next ring descriptor enters the channel queue (R188, R190). -/
def execTeRingFetch (c : Nat) (s : State) : Host.Outcome State Fault Refusal :=
  match s.teOwnerOf c with
  | none => .next s
  | some ctx =>
    if s.rd (Obj.teState c) ≠ ustActive ∨ !s.chanUp c ∨ s.rd (Obj.teSqHead c) = s.rd (Obj.teSqTail c) then .next s else .next (s.unlessHeld (s.teFetch c ctx))

/-- TE_OWNER_WRITE: refused unless the channel is DISABLED, or FAILED and so treated (R186, R210); house channels keep their owner. -/
def State.setTeOwner (s : State) (c v : Nat) : State × Nat :=
  if isHouse c then (s, rNoAccess)
  else if v ≠ 0xFF ∧ (v = 0 ∨ v > 63) then (s, rOutOfRange)
  else if s.rd (Obj.teState c) ≠ ustDisabled ∧ s.rd (Obj.teState c) ≠ ustFailed then (s, rRefused)
  else (s.wr (Obj.teOwner c) v, rOk)

def execTeOwnerWrite (w : Who) (c v : Nat) (s : State) : Host.Outcome State Fault Refusal :=
  .next (s.ctl w (isOpCus w) fun s => if c ≥ 72 then (s, rNoObject) else s.setTeOwner c v)

end Sys2Proof.Machine
end

