-- ==== Sys2Proof/Machine/Tiles.lean ====
section
/-! DEFINITION. Tile control, quiescing, failure, substitution, freeze release, patrol and the tile clock (R80, R92, R96 to R103, R139 to R142). -/

namespace Sys2Proof.Machine

open Sys2Proof

/-- The compute die of a tile. -/
def dieOf (n : Nat) : Nat := n / 480

/-- The free spare site of a die with the lowest index that no substitution has reserved (R100). -/
def State.freeSpare (s : State) (die : Nat) : Option Nat :=
  ((List.range 512).map (512 * die + ·)).find? fun k => s.rd (Obj.siteState k) == ustSpare &&
    !(s.tiles.any fun t => match t.2.subst with | some b => b.spare == k | none => false)

/-- Start a substitution with a reserved site (R100 step 1, R99). -/
def State.reserve (s : State) (n spare step : Nat) (now failed : Bool) : State :=
  let s := s.setTile n { s.tile n with subst := some ⟨step, spare, now, failed⟩ }
  s.wr (Obj.spareTilesFree (dieOf n)) (s.rd (Obj.spareTilesFree (dieOf n)) - 1)

/-- The running task of a tile and everything queued for it end with ABORTED_DISABLED (R96, R99): accumulators are discarded, and tasks given to the tile that it
has not started go back to their pools where those can take them (R124). -/
def State.clearTile (s : State) (n : Nat) : State :=
  let s := match (s.tile n).run with
    | some r => s.endTask n r .abortedDisabled causeDisabled
    | none => s
  let s := s.abortPool n (fun _ => true) .abortedDisabled causeDisabled
  let s := s.abortPosts n (fun _ => true) .abortedDisabled causeDisabled
  let s := s.giveAllBack n
  s.setTile n { s.tile n with ops := [], acc0 := .empty, acc1 := .empty, cur := 0, shadow := [], freezeNext := none }

/-- A copy of a tile ends early with a status (R21, R22): its first `64 k` bytes, for a free `k`, had been written, and they stay (R25). What that part met tells more
than the reason it ends (R23), and a failed window check freezes the tile (R135). -/
def State.endXfer (s : State) (n : Nat) (q : Xfer) (st : Status) : State :=
  let v := s.free 16
  let a := v.2.copy q.ctx .tile (xferLoc n q.src) (xferLoc n q.dst) (64 * (v.1 % (q.len / 64 + 1)))
  let s := a.s.sendDec ⟨.tile n, n, q.tally, 1, a.st.first st, causeNone, q.ctx⟩
  if a.st = .violation then s.offend n q.ctx q.taskAge q.epoch causeWindow a.addr else s

/-- Every copy of a tile that satisfies a test ends early. -/
def State.endXfers (s : State) (n : Nat) (p : Xfer → Bool) (st : Status) : State :=
  let t := s.tile n
  (t.xfers.filter p).foldl (fun s q => s.endXfer n q st) (s.setTile n { t with xfers := t.xfers.filter fun q => !p q })

/-- Every copy of a tile under way is performed and completes with its own status (R25). -/
def State.finishXfers (s : State) (n : Nat) : State :=
  let t := s.tile n
  t.xfers.foldl (fun s q =>
    let a := s.copy q.ctx .tile (xferLoc n q.src) (xferLoc n q.dst) q.len
    a.s.sendDec ⟨.tile n, n, q.tally, 1, a.st, causeNone, q.ctx⟩) (if t.xfers.isEmpty then s else s.setTile n { t with xfers := [] })

/-- The copies and posts of a task that has been stopped which it had not yet sent into the mesh complete with ABORTED_DISABLED, and no byte of them moves (R141). Which they
are is open: a free bit tells for each. -/
def State.unsent (s : State) (n age : Nat) : State :=
  let t := s.tile n
  let v := s.free 4096
  let gone := fun (i : Nat) => bit v.1 i
  let xs : List (Xfer × Bool) := t.xfers.mapIdx fun i q => (q, gone i && q.taskAge == age)
  let s := v.2.setTile n { t with xfers := (xs.filter fun x => !x.2).map (·.1) }
  let s := (xs.filter fun x => x.2).foldl (fun s x => s.sendDec ⟨.tile n, n, x.1.tally, 1, .abortedDisabled, causeNone, x.1.ctx⟩) s
  let mine := fun (o : Origin) => o.ofTile n && o.age == age
  let ps : List (PostMsg × Bool) := s.posts.mapIdx fun i p => (p, gone (2048 + i) && mine p.origin)
  let stay := (ps.filter fun (x : PostMsg × Bool) => !x.2).map (·.1)
  let s : State := { s with posts := stay }
  s.postsDone ((ps.filter fun (x : PostMsg × Bool) => x.2).map (·.1)) .abortedDisabled causeDisabled

/-- The posts of a tile that have left it and have not completed, in the mesh or in a post queue, complete with ABORTED_DISABLED, and no task comes of them (R28). One that an
NI or a mailbox has taken is theirs, and completes with their status. -/
def State.endPosts (s : State) (n : Nat) : State :=
  let mine := fun (p : PostMsg) => p.origin.ofTile n
  let gone := s.ownPosts n
  let s : State := { s with
    posts := s.posts.filter fun p => !mine p
    tiles := s.tiles.map fun t => (t.1, { t.2 with postQ := t.2.postQ.filter fun p => !mine p })
    chans := s.chans.map fun c => (c.1, { c.2 with postQ := c.2.postQ.filter fun p => !mine p })
    ni := { s.ni with queues := s.ni.queues.map fun q => (q.1, { q.2 with postQ := q.2.postQ.filter fun p => !mine p }) } }
  s.postsDone gone .abortedDisabled causeDisabled

/-- What a freeze left to read is gone once the tile is not FROZEN any more (R147). -/
def State.clearFreeze (s : State) (n : Nat) : State :=
  (((s.wr (Obj.freezeCause n) 0).wr (Obj.freezeCtx n) 0).wr (Obj.freezePc n) 0).wr (Obj.freezeAddr n) 0

/-- What a tile holds when it fails or trips completes with ABORTED_DISABLED, its copies and posts under way among it (R21, R28, R99); it is FAILED, and its site's fail
count rises (R473). -/
def State.tileFails (s : State) (n : Nat) : State :=
  let site := s.siteOf n
  let s := (s.clearTile n).goState (Obj.tileState n) 0x01 n ustFailed
  let s := (s.endXfers n (fun _ => true) .abortedDisabled).endPosts n
  let s := (s.setTile n { s.tile n with frozen := none, heldDisable := false, graceOver := false, waiting := false }).clearFreeze n
  (s.bumpSat (Obj.siteFailCount site) 8).mapNote 0x02 site

/-- A tile fails (R28, R99), and it is substituted where a site is free. -/
def State.failTile (s : State) (n : Nat) : State :=
  let site := s.siteOf n
  let s := s.tileFails n
  match (s.tile n).subst with
  | some b => s.setTile n { s.tile n with subst := some { b with step := max b.step 3, failed := true } }
  | none =>
    match s.freeSpare (dieOf n) with
    | some k => s.reserve n k 3 true true
    | none => (s.goState (Obj.siteState site) 0x02 site ustFailed).exhausted 0x01 n 0 true

/-- TILE_PARITY_FAIL (R99). -/
def execTileParityFail (n : Nat) (s : State) : Host.Outcome State Fault Refusal :=
  .next (if s.rd (Obj.tileState n) = ustFailed ∨ n ≥ 1920 then s else s.failTile n)

/-- SEQUENCER_WATCHDOG_EXPIRY: a running task that does not wait has retired no instruction for 1 ms (R99, R139). -/
def execSequencerWatchdogExpiry (n : Nat) (s : State) : Host.Outcome State Fault Refusal :=
  .next (if (s.tile n).run.isNone ∨ (s.tile n).waiting ∨ s.rd (Obj.tileState n) = ustFailed then s
    else (s.bump Obj.watchdogFailures).failTile n)

/-- A tile enters QUIESCING (R24, R96): posts that wait complete with ABORTED_DISABLED. -/
def State.quiesceTile (s : State) (n : Nat) : State :=
  let s := s.setTile n { s.tile n with graceOver := false }
  (s.goState (Obj.tileState n) 0x01 n ustQuiescing).abortPosts n (fun _ => true) .abortedDisabled causeDisabled

/-- A disable command for a tile (R24, R27, R102). One received by a FAILED tile in steps 3 to 5 of its failure substitution takes effect after step 5, as R102 has it, and not
as R27 has it for FAILED (DESIGN CHOICE: both speak of it). -/
def State.disableTile (s : State) (n : Nat) : State :=
  let st := s.rd (Obj.tileState n)
  let t := s.tile n
  match t.subst with
  | some b => if 3 ≤ b.step then s.setTile n { t with disableAfterSubst := true } else if st = ustActive then s.quiesceTile n
    else if st = ustFrozen then s.setTile n { t with heldDisable := true } else s
  | none => if st = ustActive then s.quiesceTile n else if st = ustFrozen then s.setTile n { t with heldDisable := true } else s

/-- TILE_DISABLE (R96, R105). -/
def execTileDisable (w : Who) (n : Nat) (s : State) : Host.Outcome State Fault Refusal :=
  .next (s.ctl w (isOpCus w) fun s => if n ≥ 1920 then (s, rNoObject) else (s.disableTile n, rOk))

/-- An enable command for a tile (R27): refused while QUIESCING, FAILED or FROZEN (R20). For an ACTIVE tile the spec states no answer: OK, with no effect (DESIGN CHOICE). -/
def State.enableTile (s : State) (n : Nat) : State × Nat :=
  let st := s.rd (Obj.tileState n)
  if st = ustDisabled ∧ s.mastersMay then (s.goState (Obj.tileState n) 0x01 n ustActive, rOk)
  else if st = ustActive then (s, rOk) else (s, rRefused)

/-- TILE_ENABLE (R105). -/
def execTileEnable (w : Who) (n : Nat) (s : State) : Host.Outcome State Fault Refusal :=
  .next (s.ctl w (isOpCus w) fun s => if n ≥ 1920 then (s, rNoObject) else s.enableTile n)

/-- A request for a substitution (R100 step 1, R102, R103); the site with the lowest index is taken (DESIGN CHOICE). With a substitution pending a second one has no
effect, a SWAP_NOW after a SWAP neither (DESIGN CHOICE: R102 names only a second SWAP). -/
def State.swapTile (s : State) (n : Nat) (now : Bool) : State × Nat :=
  if (s.tile n).subst.isSome then (s, rOk)
  else
    let failed := s.rd (Obj.tileState n) == ustFailed
    match s.freeSpare (dieOf n) with
    | some k => (s.reserve n k (if failed then 3 else 1) now failed, rOk)
    | none =>
      let v := s.free 16
      ((v.2.event 0x1003 0x01 n noCtx (s.siteOf n) v.1 0).exhausted 0x01 n 0 failed, rRefused)

/-- TILE_SWAP and TILE_SWAP_NOW (R100). -/
def execTileSwap (w : Who) (n : Nat) (s : State) : Host.Outcome State Fault Refusal :=
  .next (s.ctl w (isOpCus w) fun s => if n ≥ 1920 then (s, rNoObject) else s.swapTile n false)
def execTileSwapNow (w : Who) (n : Nat) (s : State) : Host.Outcome State Fault Refusal :=
  .next (s.ctl w (isOpCus w) fun s => if n ≥ 1920 then (s, rNoObject) else s.swapTile n true)

/-- A context boundary of a tile: nothing runs, its accumulators are empty, and a selection made now would yield no task of the last context. -/
def State.ctxBoundary (s : State) (n : Nat) : Bool :=
  let t := s.tile n
  t.run.isNone && t.ops.isEmpty &&
    (match s.wouldSelect n with
     | none => true
     | some e => e.ctx != t.lastCtx)

/-- SUBSTITUTION_HOLD: steps 2 and 3 begin at the trigger (R100, R102). -/
def execSubstitutionHold (n : Nat) (s : State) : Host.Outcome State Fault Refusal :=
  let t := s.tile n
  let st := s.rd (Obj.tileState n)
  .next (match t.subst with
    | none => s
    | some b =>
      if b.step ≠ 1 then s
      else if st = ustQuiescing ∨ st = ustDisabled ∨ (st = ustActive ∧ (if b.swapNow then t.run.isNone && t.ops.isEmpty else s.ctxBoundary n)) then
        s.setTile n { t with subst := some { b with step := 3 } }
      else s)

/-- The SRAM rows of a tile that hold a word the copy cannot correct (R101). -/
def State.deadRows (s : State) (n : Nat) : List Nat :=
  let base := tilePa n 0
  ((s.mem.marks.filter fun m => m.2 != .ce && decide (base ≤ m.1) && decide (m.1 < base + 2097152)).map fun m => m.1 / 128 * 128) ++
    ((s.mem.unwRows.filter fun m => decide (base ≤ m.1) && decide (m.1 < base + 2097152)).map (·.1))

/-- The copy to the new site (R100 step 3, R101): rows that could not be read become unwritten, each with an event. -/
def State.copySite (s : State) (n : Nat) : State :=
  let rows := (s.deadRows n).dedup
  let base := tilePa n 0
  let m := s.mem
  let marks := m.marks.filter fun k => decide (k.1 < base) || decide (base + 2097152 ≤ k.1)
  let s := { s with mem := { m with marks := marks, unwRows := rows.foldl (fun u r => mput u r 0) m.unwRows } }
  rows.foldl (fun s r => s.event 0x1004 0x01 n noCtx (bits r 7 4) (bits r 11 10) 0) s

/-- Spare rows in use at a site. -/
def State.sparedAt (s : State) (site : Nat) : Nat := (s.mem.spared.filter fun k => k / 16384 = site).length

/-- Release every tally of a tile (R142 after a failure). -/
def State.dropTallies (s : State) (n : Nat) : State := s.setTile n { s.tile n with tallies := [] }

/-- Completion records that a held tile has kept waiting are written (R100 step 4). -/
def State.admitRecords (s : State) : State :=
  let s := s.chans.foldl (fun s c => if c.2.recs.isEmpty then s else s.flushRecords c.1) s
  s.ni.queues.foldl (fun s q => if q.2.recs.isEmpty then s else s.niFlush (q.1 / 64) (q.1 % 64)) s

/-- SUBSTITUTION_COPY_DONE: steps 4 and 5 (R100, R102, R142). A tile that was QUIESCING or DISABLED keeps that state on its new site (DESIGN CHOICE: step 5 calls the site
ACTIVE, and R102 lets such a tile be substituted without being enabled). The decrements that were held are applied in the order of their arrival, and
records that met the tile are written. -/
def execSubstitutionCopyDone (n : Nat) (s : State) : Host.Outcome State Fault Refusal :=
  match (s.tile n).subst with
  | none => .next s
  | some b =>
    if b.step < 3 then .next s
    else
      let old := s.siteOf n
      let new := b.spare
      let s := s.copySite n
      let s := s.wr Obj.sramSpareRowsFree (s.rd Obj.sramSpareRowsFree + s.sparedAt old - s.sparedAt new)
      let s := ((s.wr (Obj.siteLogical old) 0xFFFF).goState (Obj.siteState old) 0x02 old (if b.failed then ustFailed else ustRetired)).mapNote 0x02 old
      let s := ((s.wr (Obj.siteLogical new) n).goState (Obj.siteState new) 0x02 new ustActive).mapNote 0x02 new
      let s := s.wr (Obj.tileSite n) (512 * (new / 512) + 32 * (new % 16) + new % 512 / 16)
      let s := s.wr (Obj.tileRowsSpared n) (s.sparedAt new)
      let late := (s.tile n).disableAfterSubst
      let s := s.setTile n { s.tile n with subst := none, disableAfterSubst := false }
      let s := if b.failed then s.dropTallies n else s
      let s := if s.rd (Obj.tileState n) = ustFailed then s.goState (Obj.tileState n) 0x01 n ustActive else s
      let s := ((s.event 0x1003 0x01 n noCtx old new 0).releaseDecs n).admitRecords
      .next (if late then s.disableTile n else s)

/-- Abandon the substitutions still in step 1 or 2 (R102, on entry to STOPPING). -/
def State.abandonSwaps (s : State) : State :=
  s.tiles.foldl (fun s t => match (s.tile t.1).subst with
    | some b => if b.step < 3 then
        (s.setTile t.1 { s.tile t.1 with subst := none }).wr (Obj.spareTilesFree (dieOf t.1)) (s.rd (Obj.spareTilesFree (dieOf t.1)) + 1) else s
    | none => s) s

/-- The end of the grace of a QUIESCING tile (R24, R96): what remains completes with ABORTED_DISABLED, and so do the copies and posts of the stopped task that are not yet
sent; those already issued complete with their own statuses, and the tile is DISABLED after the last of them (R24 step 4, R141). -/
def State.graceEndTile (s : State) (n : Nat) : State :=
  let s := match (s.tile n).run with
    | some r => s.unsent n r.task.age
    | none => s
  let s := s.clearTile n
  let s := s.setTile n { s.tile n with graceOver := true }
  if (s.tile n).xfers.isEmpty ∧ !s.postsOut n then s.goState (Obj.tileState n) 0x01 n ustDisabled else s

/-- Whether nothing in flight remains at a tile (R24 step 4): no work, and no copy or post whose completion is not delivered. -/
def State.tileDrained (s : State) (n : Nat) : Bool :=
  let t := s.tile n
  t.run.isNone && t.pool.isEmpty && t.postQ.isEmpty && t.xfers.isEmpty && t.ops.isEmpty && t.stealGiven.isEmpty && !s.postsOut n

/-- A FROZEN tile is released (R140): the kept state is discarded, pending counts are applied, and the tile goes back to the state it left; a disable held
while FROZEN takes effect (R27). Where the tile was QUIESCING when it froze, a disable held besides has no effect and the grace counts from the original entry, as R140 has
it; R27 would count it from the release (DESIGN CHOICE). -/
def State.unfreeze (s : State) (n : Nat) (purge : Bool) : State :=
  match (s.tile n).frozen with
  | none => s
  | some f =>
    let t := s.tile n
    let s := s.setTile n { t with
      frozen := none, heldDisable := false, x := [], d := [], v := [], pc := 0, acc0 := .empty, acc1 := .empty,
      tallies := t.tallies.map fun y => (y.1, y.2.settle) }
    let s := s.clearFreeze n
    let s := if purge then s.abortPool n (fun e => e.ctx == f.ctx) .abortedDisabled causeDisabled else s
    if f.wasQuiescing then
      let s := s.goState (Obj.tileState n) 0x01 n ustQuiescing
      if (s.tile n).graceOver then s.graceEndTile n else s
    else
      let s := s.goState (Obj.tileState n) 0x01 n ustActive
      if t.heldDisable then s.quiesceTile n else s

/-- FREEZE_RELEASE_KEEP and FREEZE_RELEASE_PURGE: by the Custodian, refused unless the tile is FROZEN (R140, R147). -/
def execFreezeReleaseKeep (w : Who) (n : Nat) (s : State) : Host.Outcome State Fault Refusal :=
  .next (s.ctl w (isCus w) fun s =>
    if n ≥ 1920 then (s, rNoObject) else if s.rd (Obj.tileState n) ≠ ustFrozen then (s, rRefused) else (s.unfreeze n false, rOk))
def execFreezeReleasePurge (w : Who) (n : Nat) (s : State) : Host.Outcome State Fault Refusal :=
  .next (s.ctl w (isCus w) fun s =>
    if n ≥ 1920 then (s, rNoObject) else if s.rd (Obj.tileState n) ≠ ustFrozen then (s, rRefused) else (s.unfreeze n true, rOk))

/-- A word of SRAM whose check is not clean any more; an uncorrectable one stays so until it is written whole (R79), and only a substitution leaves words unwritten
(R82, R101). -/
def State.plantWord (s : State) (a : Nat) (m : EccMark) : State :=
  match mget s.mem.marks a with
  | some .ue | some .unwritten => s
  | _ => { s with mem := { s.mem with marks := mput s.mem.marks a (if m = .ce then .ce else .ue) } }

/-- SRAM_PATROL: patrol reads a row (R79, R80); `found` names the words whose check is not clean. -/
def execSramPatrol (n bank row : Nat) (found : List WordErr) (s : State) : Host.Outcome State Fault Refusal :=
  let base := 2048 * row + 128 * bank
  let s := found.foldl (fun s e => s.plantWord (tilePa n (base + 8 * (e.word % 16))) e.mark) s
  .next ((List.range 16).foldl (fun s k => (s.readBlock (tilePa n (base + 8 * k)) 8).1) s)

/-- Tile clocks counted up to now for a running task, before its die's clock changes (R92). -/
def State.settleClocks (s : State) (n : Nat) : State :=
  match (s.tile n).run with
  | none => s
  | some r => s.setTile n { s.tile n with run := some { r with clocks := s.runClocks n r, sinceNs := s.now } }

/-- A die's tile clock changes without touching any work (R91, R92). -/
def State.setClock (s : State) (die mhz : Nat) : State :=
  let s := s.tiles.foldl (fun s t => if dieOf t.1 = die then s.settleClocks t.1 else s) s
  s.wr (Obj.tileClockMhz die) mhz

end Sys2Proof.Machine
end

