-- ==== Sys2Proof/Machine/Context.lean ====
section
/-! DEFINITION. Contexts: open, protection commits, retire, shootdowns and the hold of a job number (R381 to R403). -/

namespace Sys2Proof.Machine

open Sys2Proof

/-! ## Open -/

/-- Results of `ctx_status` and `prot_status` (R382, R395). -/
abbrev cxOk : Nat := 0
abbrev cxMalformed : Nat := 1
abbrev cxNotFree : Nat := 2
abbrev cxNotOpen : Nat := 3
/-- RNG_FAIL of an OPEN, whose exchange key needs fresh randomness (R407); the table of R382 has no code for it, and the model takes that of R419 (DESIGN CHOICE). -/
abbrev cxRngFail : Nat := 9
abbrev pcOverlap : Nat := 2
abbrev pcExclusive : Nat := 3
abbrev pcNotOpen : Nat := 4

/-- The state of a context changes, and `ctx_open_mask` and `confidential_resident` follow (R404). -/
def State.setCtxState (s : State) (c v : Nat) : State :=
  let s := s.wr (Obj.ctxState c) v
  let s := s.wr Obj.ctxOpenMask (setBit (s.rd Obj.ctxOpenMask) c (v != ctxFree))
  s.wr Obj.confidentialResident (ofBool ((List.range 64).any s.confidential))

/-- What makes an OPEN malformed (R382): a reserved bit, a field out of range, or the index of an empty tenant key (R413). -/
def State.openMalformed (s : State) (b : Bytes) : Bool :=
  let k := byteAt b 8
  decide (byteAt b 0 ≠ 1) || decide (byteAt b 1 ≥ 2) || decide (byteAt b 2 = 0) || decide (byteAt b 3 < 1 ∨ byteAt b 3 > 64) ||
    decide (leAt b 4 4 > 1597440) || decide (k > 7 ∧ k ≠ 0xFF) || (decide (k ≤ 7) && allZero (s.rdo (Obj.tenantImageKey k))) ||
    !allZero (slice b 9 7)

/-- The exchange key of a context that opens (R409, R423). -/
def State.makeXkey (s : State) (c : Nat) : State :=
  let k := privOf (Config.random s.fresh 32)
  let s := { s with fresh := s.fresh + 1, sec := { s.sec with xPriv := mput s.sec.xPriv c k } }
  (s.wro (Obj.ctxXkeyPub c) (ecPub k)).bump Obj.keysGenerated

/-- The test access port enters Test-Logic-Reset and releases what it drives (R522). -/
def State.tapReset (s : State) : State := { s with boot := { s.boot with tapInstr := 0, tapDrive := false, tapFloat := false } }

/-! ## Retire -/

/-- Put an object back to its default. -/
def State.clr (s : State) (o : Obj) : State := s.wr o o.dflt
def State.clro (s : State) (o : Oct) : State := s.wro o o.dflt

/-- Apply every decrement of a context that is on its way or held by a substitution (R143: completions are delivered before the tallies are released). -/
def State.deliverDecs (s : State) (c : Nat) : State :=
  let held := (s.tiles.map fun t => t.2.heldDecs.filter fun d => d.ctx == c).flatten
  let mine := s.decs.filter fun d => d.ctx == c
  let s := { s with decs := s.decs.filter fun d => d.ctx != c, tiles := s.tiles.map fun t => (t.1, { t.2 with heldDecs := t.2.heldDecs.filter fun d => d.ctx != c }) }
  (held ++ mine).foldl (fun s d => s.applyDec d) s

/-- A context's work on a tile ends (R29, R143): its running task, its tasks in the pool and the post queue, its copies under way and the tasks it was given, each with
ABORTED_RETIRED. A tile that the context froze leaves FROZEN after that, as with RELEASE_KEEP (R140). -/
def State.retireTile (s : State) (n c : Nat) : State :=
  let t := s.tile n
  let s := match t.freezeNext with
    | some f => if f.ctx = c then s.setTile n { t with freezeNext := none } else s
    | none => s
  let s := match (s.tile n).run with
    | some r => if r.task.ctx = c then s.stopTask n r .abortedRetired causeRetired else s
    | none => s
  let s := s.abortPool n (fun e => e.ctx == c) .abortedRetired causeRetired
  let s := (s.retirePosts n c).endXfers n (fun q => q.ctx == c) .abortedRetired
  let given := (s.tile n).stealGiven.filter fun e => e.ctx == c
  let s := s.setTile n { s.tile n with stealGiven := (s.tile n).stealGiven.filter fun e => e.ctx != c }
  let s := given.foldl (fun s e => s.completeTask e .abortedRetired causeRetired n true 0) s
  match (s.tile n).frozen with
  | some f => if f.ctx = c then s.unfreeze n false else s
  | none => s

/-- A channel whose owner retires (R208, R209): every item completes, records that find no room are counted, and the channel has no owner. -/
def State.retireTe (s : State) (c : Nat) : State :=
  let w := (s.chan c).postQ
  let s := (s.setChan c { s.chan c with postQ := [] }).postsDone w .abortedRetired causeRetired
  let s := s.teStopAll c .abortedRetired
  let s := (s.teDropQueue c .abortedRetired).flushRecords c
  let s := s.bumpBy Obj.teRetireRecordsDropped (s.chan c).recs.length
  let s := s.setChan c { TeChan.init with nextSerial := (s.chan c).nextSerial }
  let s := if s.rd (Obj.teState c) = ustFailed then s else s.goState (Obj.teState c) 0x04 c ustDisabled
  let s := (s.wr (Obj.teOwner c) 0xFF).clr (Obj.teFreezeAddr c)
  let s := (((s.clr (Obj.teSqBase c)).clr (Obj.teSqEntries c)).clr (Obj.teSqTail c)).clr (Obj.teSqHead c)
  (((s.clr (Obj.teCqBase c)).clr (Obj.teCqEntries c)).clr (Obj.teCqHead c)).clr (Obj.teCqTail c)

/-! ### The context opens -/

/-- What a FREE context was given is taken back, so that it opens with no channel and no rank table (R383). -/
def State.openClean (s : State) (c : Nat) : State :=
  let s := (List.range 72).foldl (fun s k => if s.teOwnerOf k = some c then s.retireTe k else s) s
  { s with ni := { s.ni with ranks := s.ni.ranks.filter fun (p : Nat × Nat) => decide (p.1 / 4096 ≠ c) } }

/-- A context opens (R383, R399). -/
def State.openCtx (s : State) (c : Nat) (b : Bytes) : State :=
  let conf := byteAt b 1 % 2
  let s := s.openClean c
  let s := s.wr (Obj.ctxFlagsInForce c) conf
  let s := ((s.wr (Obj.ctxWeight c) (byteAt b 2)).wr (Obj.ctxPoolLimit c) (byteAt b 3)).wr (Obj.ctxQuotaMib c) (leAt b 4 4)
  let s := (s.wr (Obj.protEpoch c) 0).wr (Obj.niJob c) 0
  let s := { s with ctxs := { s.ctxs with imageKey := mput s.ctxs.imageKey c (byteAt b 8) },
                    sec := { s.sec with images := mdel s.sec.images c, chains := mdel s.sec.chains c, commits := mdel s.sec.commits c } }
  let s := if conf = 1 then (s.wr (Obj.niEncRequired c) 1).tapReset else s
  ((s.makeXkey c).setCtxState c ctxOpen).wr (Obj.ctxStatus c) (0x0200 + cxOk)

/-- A write of `ctx_cmd` that carries no RETIRE (R382). -/
def State.openCmd (s : State) (c : Nat) (b : Bytes) : State × Nat :=
  if c ≥ 64 then (s, rNoObject)
  else if b.length ≠ 16 then (s, rBadLength)
  else if c = 0 ∨ s.rd (Obj.ctxStatus c) / 256 = 1 then (s, rRefused)
  else if s.openMalformed b then (s.wr (Obj.ctxStatus c) (0x0200 + cxMalformed), rOk)
  else if s.ctxSt c ≠ ctxFree then (s.wr (Obj.ctxStatus c) (0x0200 + cxNotFree), rOk)
  else if s.rd Obj.rngHealth ≠ 0 then (s.wr (Obj.ctxStatus c) (0x0200 + cxRngFail), rOk)
  else (s.openCtx c b, rOk)

/-- CONTEXT_OPEN (R382, R383): every write of `ctx_cmd` but a RETIRE. -/
def execContextOpen (w : Who) (ctx : Nat) (cmd : Bytes) (s : State) : Host.Outcome State Fault Refusal :=
  .next (if byteAt cmd 0 = 2 then s else s.ctl w (isOpCus w) fun s => s.openCmd ctx cmd)

/-! ### What else a retire ends -/

/-- The mailboxes of a retiring context (R453): a receiver that goes, and messages its senders queued. -/
def State.retireMbx (s : State) (m c : Nat) : State :=
  let mine := fun (g : MbxMsg) => match g.sender with
    | .session _ _ role ctx _ => role == roleTenant && ctx == c
    | .tile _ _ ctx _ _ => ctx == c
  let b := s.mbox m
  let gone := b.queue.filter mine
  let s := (s.putMbox m { b with queue := b.queue.filter fun g => !mine g })
  let s := gone.foldl (fun s g => s.sendDone g.sender .abortedRetired causeRetired) s
  if mbKind (s.bind m) = 1 ∧ mbCtx (s.bind m) = c then s.receiverGone m .abortedRetired causeRetired else s

/-- An ACTIVATE that waits for its time is cancelled (R422). -/
def State.cancelActivate (s : State) (c : Nat) : State :=
  if s.rd (Obj.activatePending c) = 0 then s
  else
    let e := mgetD s.sec.slotEpochs (4 * c + mgetD s.sec.actSlot c 0) 0
    let s := { s with sec := { s.sec with actSlot := mdel s.sec.actSlot c } }
    (s.wr (Obj.activatePending c) 0).event 0x6802 0x0D c c e 2 0

/-- A security command under way when a retire is accepted completes with RETIRED (R423). -/
def State.scRetire (s : State) (c : Nat) : State :=
  match mget s.sec.scRuns c with
  | none => s
  | some _ => { s with sec := { s.sec with scRuns := mdel s.sec.scRuns c } }.wr (Obj.scStatus c) (0x0200 + 0x0A)

/-- Step 1 of a retire (R400). -/
def State.retireBegin (s : State) (c : Nat) : State :=
  let job := s.rd (Obj.niJob c)
  let s := { s with ctxs := { s.ctxs with retireJob := mput s.ctxs.retireJob c job } }
  let s := ((s.setCtxState c ctxRetiring).wr (Obj.ctxStatus c) 0x0100).event 0x6003 0x0D c c 1 job 0
  let s := s.closeSessions (fun x => x.role == roleTenant && x.ctx == c) 4
  let mine := s.posts.filter fun p => p.ctx == c
  let s := { s with posts := s.posts.filter fun p => p.ctx != c }.postsDone mine .abortedRetired causeRetired
  let tiles := s.tiles.map (·.1)
  let s := tiles.foldl (fun s n => s.retireTile n c) s
  let s := (List.range 72).foldl (fun s k => if s.teOwnerOf k = some c then s.retireTe k else s) s
  let s := s.niRetire c
  let s := (List.range 4).foldl (fun s i => if s.rd (Obj.niqState i c) = ustFrozen then
      (s.goState (Obj.niqState i c) 0x0B (64 * i + c) ustActive).wr (Obj.niqFreezeAddr i c) 0 else s) s
  let s := (List.range 16).foldl (fun s m => s.retireMbx m c) s
  let s := match mget s.jti c with
    | some _ => { s with jti := mdel s.jti c }.wr (Obj.jtiLoadStatus c) (0x0200 + Status.abortedRetired.code)
    | none => s
  let s := ((s.cancelActivate c).scRetire c).deliverDecs c
  let s := tiles.foldl (fun s n => s.releaseTallies n c) s
  s.wr (Obj.retireStep c) 2

/-- A RETIRE (R382, R398): of a RETIRING context it has no further effect; a commit under way delays it. One of ctx 0 is refused, with NOT_OPEN in its
status. -/
def State.retireCmd (s : State) (c : Nat) (b : Bytes) : State × Nat :=
  if c ≥ 64 then (s, rNoObject)
  else if b.length ≠ 16 then (s, rBadLength)
  else if c = 0 then (s.wr (Obj.ctxStatus 0) (0x0200 + cxNotOpen), rRefused)
  else if !allZero (slice b 1 15) then
    (if s.rd (Obj.ctxStatus c) / 256 = 1 then s else s.wr (Obj.ctxStatus c) (0x0200 + cxMalformed), rOk)
  else if s.ctxSt c = ctxFree then (s.wr (Obj.ctxStatus c) (0x0200 + cxNotOpen), rOk)
  else if s.ctxSt c = ctxRetiring ∨ s.ctxs.retireAfter.contains c then (s, rOk)
  else if s.ctxs.prots.any fun p => p.ctx == c then
    ({ s with ctxs := { s.ctxs with retireAfter := s.ctxs.retireAfter ++ [c] } }.wr (Obj.ctxStatus c) 0x0100, rOk)
  else (s.retireBegin c, rOk)

/-- CONTEXT_RETIRE (R382, R400). -/
def execContextRetire (w : Who) (ctx : Nat) (cmd : Bytes) (s : State) : Host.Outcome State Fault Refusal :=
  .next (if byteAt cmd 0 ≠ 2 then s else s.ctl w (isOpCus w) fun s => s.retireCmd ctx cmd)

/-- Step 3 of a retire (R400, R401, R423). -/
def State.retireKeys (s : State) (c : Nat) : State :=
  let s := (List.range 4).foldl (fun s k => s.zeroSlot c k) s
  let job := s.rd (Obj.niJob c)
  let n := s.ni
  let keep := fun (p : Nat × Nat) => decide (p.1 / 4096 ≠ c)
  let s := { s with ni := { n with
    heldJobs := if job = 0 ∨ n.heldJobs.contains job then n.heldJobs else n.heldJobs ++ [job]
    ranks := n.ranks.filter keep
    dests := n.dests.filter keep
    inboxes := n.inboxes.filter fun b => b.ctx != c } }
  let s := (((s.clr (Obj.niJob c)).clr (Obj.rankReadSel c)).clro (Obj.landingMap c)).clr (Obj.keyTxSlot c)
  let s := (((s.clr (Obj.notifyBase c)).clr (Obj.notifyEntries c)).clr (Obj.notifyHead c)).clr (Obj.notifyTail c)
  let s := { s with sec := { s.sec with xPriv := mdel s.sec.xPriv c } }
  (s.clro (Obj.ctxXkeyPub c)).clr (Obj.keyEpochHigh c)

/-- Whether a frame is mapped in a context. -/
def Frame.ofCtx (f : Frame) (c : Nat) : Bool := f.use == .mapped c

/-- Step 5 of a retire (R400): pages go back to the free pool but for those withheld, and every trace is cleared. SRAM withheld from a commit of the context
stays withheld from whoever has its number next (R402). -/
def State.retireEnd (s : State) (c : Nat) : State :=
  let job := mgetD s.ctxs.retireJob c 0
  let m := s.mem
  let s := { s with mem := { m with pages := m.pages.filter (fun p => p.ctx != c), frames := m.frames.filter (fun f => !f.ofCtx c),
                                    walkUe := m.walkUe.filter (fun x => x.1 != c),
                                    sramHeld := m.sramHeld.map fun (h : SramHold) => if h.ctx = c then { h with ctx := 0 } else h } }
  let s := s.syncMapped c
  let s := (List.range 64).foldl (fun s w => (s.clro (Obj.window c w)).clro (Obj.windowStaged c w)) s
  let s := s.clro (Obj.tileSet c)
  let x := s.ctxs
  let s := { s with
    ctxs := { x with imageKey := mdel x.imageKey c, stagedTiles := mdel x.stagedTiles c, retireJob := mdel x.retireJob c,
                     frozenReads := x.frozenReads.filter fun p => decide (p.1 % 64 ≠ c) }
    sec := { s.sec with images := mdel s.sec.images c, chains := mdel s.sec.chains c, commits := mdel s.sec.commits c } }
  let s := ((s.clro (Obj.tenantSessionKey c)).wr (Obj.protEpoch c) 0).clr (Obj.ctxFlagsInForce c)
  let s := (s.clr (Obj.niEncRequired c)).wr (Obj.retireStep c) 0
  let s := ((s.bump Obj.retires).setCtxState c ctxFree).event 0x6003 0x0D c c 2 job 0
  s.wr (Obj.ctxStatus c) (0x0200 + cxOk)

/-- RETIRE_QUIET_END: the quiet period is over; step 3 and the shootdown of step 4 follow (R400). -/
def execRetireQuietEnd (ctx : Nat) (s : State) : Host.Outcome State Fault Refusal :=
  .next (if ctx = 0 ∨ s.ctxSt ctx ≠ ctxRetiring ∨ s.rd (Obj.retireStep ctx) ≠ 2 then s
    else ((s.retireKeys ctx).wr (Obj.retireStep ctx) 4).shoot (.retire ctx) [])

/-- Whether a fill belongs to the retire of a context. -/
def Fill.ofRetire (f : Fill) (c : Nat) : Bool :=
  match f.why with
  | .retirePage k _ => k == c
  | .retireSram k => k == c
  | _ => false

/-- The valid SRAM windows of a list of entries, as offset and length. -/
def sramRanges (wins : List Bytes) : List (Nat × Nat) :=
  (wins.filter fun e => bit (byteAt e 16) 0 && bit (leAt e 0 8) 63).map fun e => (leAt e 0 8 % 2097152, leAt e 8 8)

/-- The committed windows of a context. -/
def State.windowsOf (s : State) (c : Nat) : List Bytes := (List.range 64).map fun w => s.rdo (Obj.window c w)

/-- The fills of step 4 (R400): every page of the context, and every SRAM window range on every tile of its set. -/
def State.retireFills (s : State) (c : Nat) : State :=
  let pages := s.mem.frames.filter fun f => f.ofCtx c
  let ranges := sramRanges (s.windowsOf c)
  let tiles := if ranges.isEmpty then [] else tilesOf (s.rdo (Obj.tileSet c))
  let s := pages.foldl (fun s f => s.addFill (.retirePage c f.pa) f.pa (pageSize f.big)) s
  tiles.foldl (fun s n => ranges.foldl (fun s r => s.addFill (.retireSram c) (tilePa n r.1) r.2) s) s

/-- Step 4's fills are over (R400). -/
def State.retireCheck (s : State) (c : Nat) : State := if s.mem.fills.any (·.ofRetire c) then s else s.retireEnd c

/-- RETIRE_FILL_DONE: a fill of the retire ends; the last one leads to step 5 (R400, R402). One that no ready house channel
carries waits. -/
def execRetireFillDone (ctx : Nat) (s : State) : Host.Outcome State Fault Refusal :=
  match s.fillReady (·.ofRetire ctx) with
  | none => .next (if s.rd (Obj.retireStep ctx) = 4 ∧ !(s.mem.shoots.any fun h => h.why == .retire ctx) then s.retireCheck ctx else s)
  | some f => .next ((s.fillDone f).retireCheck ctx)

/-- JOB_HOLD_EXPIRY: a job number may be given again (R401). -/
def execJobHoldExpiry (job : Nat) (s : State) : Host.Outcome State Fault Refusal :=
  .next { s with ni := { s.ni with heldJobs := s.ni.heldJobs.filter fun j => j != job } }

/-- A commit under way is given up, as its context ends with the memory (R403). One that waits at step 1 has changed nothing and ends with NOT_OPEN; of any
other the new set is in force (R395). -/
def State.abandonProt (s : State) (c : Nat) : State :=
  let x := s.ctxs
  let waits := x.prots.any fun (p : ProtRun) => p.ctx == c && p.step == 1
  let s := { s with ctxs := { x with prots := x.prots.filter (fun (p : ProtRun) => p.ctx != c), retireAfter := x.retireAfter.filter fun (k : Nat) => k != c } }
  if s.rd (Obj.protStatus c) / 256 = 1 then s.wr (Obj.protStatus c) (0x0200 + if waits then pcNotOpen else cxOk) else s

/-- The shootdown and fills of a retire are left out (R403). -/
def State.skipStep4 (s : State) (c : Nat) : State :=
  let m := s.mem
  { s with mem := { m with shoots := m.shoots.filter (fun (h : Shootdown) => h.why != ShootWhy.retire c), fills := m.fills.filter fun (f : Fill) => !f.ofRetire c } }

/-- One context is retired on entry to STOPPING, from whatever step it stands at (R403). -/
def State.retireNow (s : State) (c : Nat) : State :=
  if c = 0 ∨ s.ctxSt c = ctxFree then s
  else
    let s := s.abandonProt c
    let s := if s.ctxSt c = ctxOpen then s.retireBegin c else s
    let s := if s.rd (Obj.retireStep c) = 2 then s.retireKeys c else s
    (s.skipStep4 c).retireEnd c

/-- Every tenant context is retired on entry to STOPPING; step 4 is left out, since the memory's rails fall (R403). -/
def State.retireAll (s : State) : State := (List.range 64).foldl (fun s c => s.retireNow c) s

/-- What follows once every cache has acknowledged a shootdown (R170, R175, R201, R400). -/
def State.shootDone (s : State) (h : Shootdown) : State :=
  match h.why with
  | .unmap c =>
    let s := h.frames.foldl (fun s pa =>
      match s.mem.frames.find? fun f => f.pa = pa with
      | some f => s.addFill (.page pa) pa (pageSize f.big)
      | none => s) s
    s.pmDone c pmOk
  | .migrateStart k =>
    { s with mem := { s.mem with moves := s.mem.moves.map fun (m : Move) => if moveKey m.ch m.serial = k then { m with started := true } else m } }
  | .migrateEnd _ => s
  | .retire c => (s.retireFills c).retireCheck c

/-- SHOOTDOWN_ACK: one translation cache has dropped what it held (R170). -/
def execShootdownAck (k cache : Nat) (s : State) : Host.Outcome State Fault Refusal :=
  match s.mem.shoots[k]? with
  | none => .next s
  | some h =>
    let h := { h with waiting := h.waiting.filter fun x => x != cache }
    if h.waiting.isEmpty then .next ({ s with mem := { s.mem with shoots := s.mem.shoots.eraseIdx k } }.shootDone h)
    else .next { s with mem := { s.mem with shoots := s.mem.shoots.set k h } }

/-! ## Protection commits -/

/-- Whether a staged window entry breaks R385: a reserved bit, EXEC outside SRAM or REMOTE without NI in any entry, and the rest of its table in a valid one. -/
def windowBad (e : Bytes) : Bool :=
  let base := leAt e 0 8
  let len := leAt e 8 8
  let perm := byteAt e 16
  let sram := bit base 63
  let lo := base % 2 ^ 63
  decide (perm ≥ 64) || decide (byteAt e 17 ≥ 16) || !allZero (slice e 18 14) || decide (lo ≥ if sram then 2097152 else 2 ^ 48) ||
  (bit perm 4 && !sram) || (bit perm 5 && !bit (byteAt e 17) 3) || (bit perm 0 &&
    (decide (len = 0) ||
      (if sram then decide (lo % 128 ≠ 0) || decide (len % 128 ≠ 0) || decide (lo + len > 2097152)
       else decide (lo % 4096 ≠ 0) || decide (len % 4096 ≠ 0) || decide (lo + len > 2 ^ 48))))

/-- Whether two lists of ranges meet. -/
def rangesMeet (a b : List (Nat × Nat)) : Bool := a.any fun x => b.any fun y => decide (x.1 < y.1 + y.2) && decide (y.1 < x.1 + x.2)

/-- Whether two tile sets share a tile. -/
def setsMeet (a b : Bytes) : Bool := (a.zip b).any fun p => (p.1 &&& p.2) != 0

/-- The parts of a range that no range of a list covers. -/
def rangeMinus (r : Nat × Nat) (l : List (Nat × Nat)) : List (Nat × Nat) :=
  l.foldl (fun out y => (out.map fun (x : Nat × Nat) =>
    (if x.1 < y.1 ∧ y.1 < x.1 + x.2 then [(x.1, y.1 - x.1)] else []) ++
    (if x.1 < y.1 + y.2 ∧ y.1 + y.2 < x.1 + x.2 then [(y.1 + y.2, x.1 + x.2 - (y.1 + y.2))] else []) ++
    (if x.1 + x.2 ≤ y.1 ∨ y.1 + y.2 ≤ x.1 then [x] else [])).flatten) [r]

/-- The commit of a context that has passed its step 1 (R389). -/
def State.runOf (s : State) (c : Nat) : Option ProtRun := s.ctxs.prots.find? fun p => p.ctx == c && decide (2 ≤ p.step)

/-- The SRAM that a commit under way takes from a context on a tile, and has still to be filled (R395, R397). -/
def ProtRun.left (p : ProtRun) (n : Nat) : List (Nat × Nat) :=
  let new := if tileIn p.newTiles n then sramRanges p.newWins else []
  if tileIn p.oldTiles n then ((sramRanges p.oldWins).map fun r => rangeMinus r new).flatten else []

/-- Whether the new set of context `c` overlaps what another context holds (R389), or memory withheld from it (R397, R402). -/
def State.protOverlap (s : State) (c : Nat) (tiles : Bytes) (wins : List Bytes) : Bool :=
  let mine := sramRanges wins
  ((List.range 64).any fun k => k != 0 && k != c && s.ctxSt k != ctxFree &&
    (match s.runOf k with
     | some p => setsMeet tiles p.newTiles && rangesMeet mine (sramRanges p.newWins)
     | none => setsMeet tiles (s.rdo (Obj.tileSet k)) && rangesMeet mine (sramRanges (s.windowsOf k)))) ||
    s.mem.sramHeld.any fun h => (h.ctx != c) && tileIn tiles h.tile && rangesMeet mine [(h.off, h.len)]

/-- Whether the new set would share a tile with a confidential context, or would let one share (R399). -/
def State.protExclusive (s : State) (c : Nat) (tiles : Bytes) : Bool :=
  (List.range 64).any fun k => k != 0 && k != c && s.ctxSt k != ctxFree && (s.confidential k || s.confidential c) &&
    (setsMeet tiles (s.rdo (Obj.tileSet k)) ||
      (match s.runOf k with
       | some p => setsMeet tiles p.newTiles || setsMeet tiles p.oldTiles
       | none => false))

/-- Whether the new set takes SRAM that another context's commit has still to fill (R397). -/
def State.protWaits (s : State) (c : Nat) (tiles : Bytes) (wins : List Bytes) : Bool :=
  s.ctxs.prots.any fun p => p.ctx != c && decide (2 ≤ p.step) && !p.oldWins.isEmpty &&
    (tilesOf p.oldTiles).any fun n => tileIn tiles n && rangesMeet (sramRanges wins) (p.left n)

/-- The per-tile readings that R399 keeps from view, as they stand. -/
def State.tileLive (s : State) (n : Nat) : List (Nat × Nat) :=
  let t := s.tile n
  [((Obj.poolUsed n).key, t.pool.length), ((Obj.poolReady n).key, (t.pool.filter t.ready).length),
   ((Obj.talliesOwned n).key, (t.tallies.filter fun y => y.2.owner.isSome).length)] ++
  [((Obj.tileBusyCycles n).key, s.rd (Obj.tileBusyCycles n) + ((t.run.map fun r => s.runClocks n r - r.busyCut).getD 0))] ++
  [Obj.tileDrift n, Obj.tileSramCe n, Obj.tileRowsSpared n, Obj.tasksRun n].map fun o => (o.key, s.rd o)

/-- The readings of a tile that comes into a confidential context are kept as they stand (R399). -/
def State.freezeReads (s : State) (c n : Nat) : State :=
  { s with ctxs := { s.ctxs with frozenReads := (s.tileLive n).foldl (fun m p =>
      if (mget m (64 * p.1 + c)).isSome then m else mput m (64 * p.1 + c) p.2) s.ctxs.frozenReads } }

def State.setProt (s : State) (p : ProtRun) : State :=
  { s with ctxs := { s.ctxs with prots := updFirst (fun x => x.ctx == p.ctx) (fun _ => p) s.ctxs.prots } }

def State.dropProt (s : State) (c : Nat) : State := { s with ctxs := { s.ctxs with prots := s.ctxs.prots.filter fun p => p.ctx != c } }

/-- A commit ends with a result; a RETIRE that waited for it starts (R398). -/
def State.protDone (s : State) (c result : Nat) : State :=
  let s := (s.dropProt c).wr (Obj.protStatus c) (0x0200 + result)
  if s.ctxs.retireAfter.contains c then
    ({ s with ctxs := { s.ctxs with retireAfter := s.ctxs.retireAfter.filter fun k => k != c } }).retireBegin c
  else s

/-- Steps 1 and 2 of a commit (R395): the staged copy is checked, and the new set and epoch take effect at every checker. -/
def State.protTry (s : State) (p : ProtRun) : State :=
  let c := p.ctx
  if p.newWins.any windowBad then s.protDone c cxMalformed
  else if s.protOverlap c p.newTiles p.newWins then s.protDone c pcOverlap
  else if s.protExclusive c p.newTiles then s.protDone c pcExclusive
  else if s.protWaits c p.newTiles p.newWins then s
  else
    let s := s.setProt { p with step := 2, oldTiles := s.rdo (Obj.tileSet c), oldWins := s.windowsOf c }
    let old := s.rdo (Obj.tileSet c)
    let s := s.wr (Obj.protEpoch c) ((s.rd (Obj.protEpoch c) + 1) % 2 ^ 32)
    let s := (p.newWins.mapIdx fun i e => (i, e)).foldl (fun s e => s.wro (Obj.window c e.1) e.2) (s.wro (Obj.tileSet c) p.newTiles)
    if s.confidential c then ((tilesOf p.newTiles).filter fun n => !tileIn old n).foldl (fun s n => s.freezeReads c n) s else s

/-- Commits that wait at step 1 try again (R397). -/
def State.protRetry (s : State) : State :=
  (s.ctxs.prots.filter fun p => p.step == 1).foldl (fun s p => if s.ctxs.prots.contains p then s.protTry p else s) s

/-- Step 5 of a commit (R395): the event, and a confidential context's chain (R425). -/
def State.protEnd (s : State) (p : ProtRun) : State :=
  let c := p.ctx
  let s := if s.confidential c then
      let d := sha256 (mgetD s.sec.chains c (zeros 32) ++ sha256 (bytesOf p.newWins ++ p.newTiles))
      { s with sec := { s.sec with chains := mput s.sec.chains c d, commits := mput s.sec.commits c (mgetD s.sec.commits c 0 + 1) } }
    else s
  ((s.event 0x6002 0x0D c c (s.rd (Obj.protEpoch c)) 0 0).protDone c cxOk).protRetry

/-- The staged tile set of a context (R395). -/
def State.staged (s : State) (c : Nat) : Bytes := mgetD s.ctxs.stagedTiles c (zeros 240)

/-- A write of COMMIT (R395): refused for a context that is not OPEN, with NOT_OPEN in its status. -/
def State.protCommit (s : State) (w : Who) (c : Nat) : State × Nat :=
  if c ≥ 64 then (s, rNoObject)
  else if c = 0 then (s, rRefused)
  else if s.confidential c ∧ !isCus w then (s, rRefused)
  else if s.rd (Obj.protStatus c) / 256 = 1 then (s, rRefused)
  else if s.ctxSt c ≠ ctxOpen then (s.wr (Obj.protStatus c) (0x0200 + pcNotOpen), rRefused)
  else
    let p : ProtRun := ⟨c, 1, s.staged c, (List.range 64).map fun w => s.rdo (Obj.windowStaged c w), [], []⟩
    let s := { s with ctxs := { s.ctxs with prots := s.ctxs.prots ++ [p] } }.wr (Obj.protStatus c) 0x0100
    (s.protTry p, rOk)

/-- PROT_COMMIT (R395). -/
def execProtCommit (w : Who) (ctx : Nat) (s : State) : Host.Outcome State Fault Refusal :=
  .next (s.ctl w (isOpCus w) fun s => s.protCommit w ctx)

/-- A write of DISCARD: the staged copy becomes the committed one (R395). -/
def State.protDiscard (s : State) (w : Who) (c : Nat) : State × Nat :=
  if c ≥ 64 then (s, rNoObject)
  else if c = 0 ∨ (s.confidential c ∧ !isCus w) ∨ s.ctxSt c ≠ ctxOpen ∨ s.rd (Obj.protStatus c) / 256 = 1 then (s, rRefused)
  else
    let s := { s with ctxs := { s.ctxs with stagedTiles := mput s.ctxs.stagedTiles c (s.rdo (Obj.tileSet c)) } }
    ((List.range 64).foldl (fun s w => s.wro (Obj.windowStaged c w) (s.rdo (Obj.window c w))) s, rOk)

/-- PROT_DISCARD (R395). -/
def execProtDiscard (w : Who) (ctx : Nat) (s : State) : Host.Outcome State Fault Refusal :=
  .next (s.ctl w (isOpCus w) fun s => s.protDiscard w ctx)

/-- A tile that has left the tile set (R395 step 4): the context's tasks end with VIOLATION, cause WINDOW, freeze nothing and are counted (R396); its
tallies there are released. -/
def State.protLeave (s : State) (n c : Nat) : State :=
  let s := match (s.tile n).run with
    | some r => if r.task.ctx = c then (s.stopTask n r .violation causeWindow).protAbort else s
    | none => s
  let k := ((s.tile n).pool.filter fun e => e.ctx == c).length
  ((s.abortPool n (fun e => e.ctx == c) .violation causeWindow).bumpBy Obj.protChangeAborts k)

/-- PROT_OLD_REQUESTS_DRAINED: step 3 is over, and step 4 runs (R395). -/
def execProtOldRequestsDrained (ctx : Nat) (s : State) : Host.Outcome State Fault Refusal :=
  match s.ctxs.prots.find? fun p => p.ctx == ctx && p.step == 2 with
  | none => .next s
  | some p =>
    let gone := (tilesOf p.oldTiles).filter fun n => !tileIn p.newTiles n
    let s := gone.foldl (fun s n => s.protLeave n ctx) s
    let s := gone.foldl (fun s n => s.releaseTallies n ctx) (s.deliverDecs ctx)
    let s := s.setProt { p with step := 4 }
    let s := (tilesOf p.oldTiles).foldl (fun s n => (p.left n).foldl (fun s r => s.addFill (.commitSram ctx) (tilePa n r.1) r.2) s) s
    .next (if s.mem.fills.any fun f => f.why == .commitSram ctx then s else s.protEnd p)

/-- PROT_FILL_DONE: a fill of step 4 ends; the last one leads to step 5 (R395). -/
def execProtFillDone (ctx : Nat) (s : State) : Host.Outcome State Fault Refusal :=
  let s := match s.fillReady fun f => f.why == .commitSram ctx with
    | none => s
    | some f => s.fillDone f
  if s.mem.fills.any fun f => f.why == .commitSram ctx then .next s
  else match s.ctxs.prots.find? fun p => p.ctx == ctx && p.step == 4 with
    | some p => .next (s.protEnd p)
    | none => .next s

end Sys2Proof.Machine
end

