-- ==== Sys2Proof/Machine/Fw.lean ====
section
/-! DEFINITION. Firmware elements: images, staging, compatibility, activation and fallback (R455 to R460). -/

namespace Sys2Proof.Machine

open Sys2Proof

/-- States of an inactive slot, and staging results (R455, R463). -/
abbrev fwNone : Nat := 0
abbrev fwLoading : Nat := 1
abbrev fwStaged : Nat := 2
abbrev fwFailed : Nat := 3
abbrev frMalformed : Nat := 1
abbrev frSignature : Nat := 2
abbrev frRollback : Nat := 3
abbrev frIncompatible : Nat := 4
abbrev frTooLarge : Nat := 5
abbrev frFlash : Nat := 6
abbrev frNoImage : Nat := 7

/-- The image a package is made with, of which the spec gives no byte (DESIGN CHOICE: zeros). -/
def FwElem.init : FwElem := ⟨⟨zeros 128, zeros 32⟩, none, [], 0, none, false⟩

def State.fwOf (s : State) (e : Nat) : FwElem := mgetD s.mgmt.fw e FwElem.init
def State.setFw (s : State) (e : Nat) (v : FwElem) : State := { s with mgmt := { s.mgmt with fw := mput s.mgmt.fw e v } }

/-- The fields of an image header (R455). -/
def fwElement (h : Bytes) : Nat := byteAt h 6
def fwVersion (h : Bytes) : Nat := leAt h 8 4
def fwSvn (h : Bytes) : Nat := leAt h 12 4
def fwLevel (h : Bytes) : Nat := leAt h 16 2
def fwBodyLen (h : Bytes) : Nat := leAt h 20 4
def fwCompat (h : Bytes) (f : Nat) : Bytes := slice h (24 + 6 * (f - 1)) 6

/-- The slot size of an element. -/
def fwSlot (e : Nat) : Nat := (if e = 1 then 1 else if e = 2 then 16 else 8) * 1048576

def isElem (e : Nat) : Bool := decide (1 ≤ e) && decide (e ≤ 4)

/-- The bytes staged, absent ones reading 0. -/
def FwElem.image (x : FwElem) : Bytes := (List.range x.loadEnd).map fun i => mgetD x.loading i 0

/-- What breaks the header rules of R455. -/
def fwMalformed (e : Nat) (b : Bytes) : Bool :=
  let body := fwBodyLen b
  let cert := leAt b (224 + body) 2
  decide (b.length < 226) || decide (leAt b 0 4 ≠ 0x31574655) || decide (leAt b 4 2 ≠ 1) || decide (fwElement b ≠ e) || decide (byteAt b 7 ≠ 0) ||
    decide (leAt b 18 2 ≠ 0) || !allZero (slice b 48 80) || decide (b.length ≠ 226 + body + cert) ||
    [1, 2, 3, 4].any fun f =>
      if f = e then !allZero (fwCompat b f) else decide (byteAt (fwCompat b f) 0 ≠ f) || decide (byteAt (fwCompat b f) 1 ≠ 0)

/-- The digest and signature of an image (R412, R455). -/
def fwSigned (b : Bytes) : Bool :=
  let n := 128 + fwBodyLen b
  let cert := b.drop (n + 98)
  slice b n 32 == sha256 (b.take n) && Config.fwSignerOk cert && ecVerify (Config.certKey cert) (slice b n 32) (slice b (n + 32) 64)

/-- Whether image `y` of element `f` and image `x` of element `e` admit each other's level (R456). -/
def fwPair (e : Nat) (x : Bytes) (f : Nat) (y : Bytes) : Bool :=
  let inRange := fun (c : Bytes) (l : Nat) => decide (leAt c 2 2 ≤ l) && decide (l ≤ leAt c 4 2)
  inRange (fwCompat x f) (fwLevel y) && inRange (fwCompat y e) (fwLevel x)

/-- R456: the image goes with the running and the staged image of every other element. -/
def State.fwCompatible (s : State) (e : Nat) (x : Bytes) : Bool :=
  [1, 2, 3, 4].all fun f => f == e ||
    (fwPair e x f (s.fwOf f).running.hdr && (if s.rd (Obj.fwState f) = fwStaged then
      (match (s.fwOf f).staged with
       | some y => fwPair e x f y.hdr
       | none => true) else true))

/-- A write to the staging objects of an element by the Operator or the Custodian; refused while `fw_stage_result` reads BUSY (R463). -/
def State.fwCtl (s : State) (w : Who) (e : Nat) (f : State → State × Nat) : State :=
  s.ctl w (isOpCus w) fun s => if !isElem e then (s, rNoObject) else if s.rd (Obj.fwStageResult e) / 256 = 1 then (s, rRefused) else f s

/-- A staging step runs (R455): `fw_stage_result` reads BUSY, and what it reads then follows. The step's effects stand at once (DESIGN CHOICE). -/
def State.fwBusy (s : State) (e v : Nat) : State :=
  ({ s with mgmt := { s.mgmt with fwDue := mput s.mgmt.fwDue e v } } : State).wr (Obj.fwStageResult e) 0x0100

/-- The staging steps under way end (R455). -/
def State.fwFinish (s : State) : State :=
  s.mgmt.fwDue.foldl (fun s p => s.wr (Obj.fwStageResult p.1) p.2) { s with mgmt := { s.mgmt with fwDue := [] } }

def State.fwResult (s : State) (e code : Nat) : State := s.wr (Obj.fwStageResult e) (0x0200 + code)

/-- What an element holds staged is dropped. -/
def State.fwDrop (s : State) (e st : Nat) : State :=
  ((s.setFw e { s.fwOf e with staged := none, loading := [], loadEnd := 0 }).wr (Obj.fwState e) st).wr (Obj.fwStagedVersion e) 0

/-- FW_BEGIN (R455 staging step 1): what the inactive slot held, the previous image among it, is erased, and `fw_stage_result` is IDLE again after that (DESIGN CHOICE: DONE_OK
says that an image is staged). -/
def execFwBegin (w : Who) (e : Nat) (s : State) : Host.Outcome State Fault Refusal :=
  .next (s.fwCtl w e fun s =>
    let s := s.fwDrop e fwLoading
    ((s.setFw e { s.fwOf e with previous := none }).fwBusy e 0, rOk))

/-- FW_STAGE_DATA (R455 staging step 2, R463): bytes 0 to 3 are the offset. -/
def State.fwData (s : State) (e : Nat) (v : Bytes) : State × Nat :=
  if v.length < 5 ∨ v.length > 1028 then (s, rBadLength)
  else if s.rd (Obj.fwState e) ≠ fwLoading then (s, rRefused)
  else
    let x := s.fwOf e
    let off := leAt v 0 4
    let d := v.drop 4
    let l := (List.range d.length).foldl (fun m i => mput m (off + i) (d.getD i 0)) x.loading
    (s.setFw e { x with loading := l, loadEnd := max x.loadEnd (off + d.length) }, rOk)

def execFwStageData (w : Who) (e : Nat) (v : Bytes) (s : State) : Host.Outcome State Fault Refusal :=
  .next (s.fwCtl w e fun s => s.fwData e v)

/-- The first result that a COMMIT meets (R455, R456, R459), in an order of the model's own (DESIGN CHOICE). -/
def State.fwVerdict (s : State) (e : Nat) : Nat :=
  let x := s.fwOf e
  if s.rd (Obj.fwState e) ≠ fwLoading ∨ x.loadEnd = 0 then frNoImage
  else if x.loadEnd > fwSlot e then frTooLarge
  else
    let b := x.image
    if fwMalformed e b then frMalformed
    else if !fwSigned b then frSignature
    else if fwSvn b < s.rd (Obj.fwSvnFloor e) then frRollback
    else if !s.fwCompatible e b then frIncompatible else 0

/-- The image in the inactive slot becomes STAGED. -/
def State.fwStage (s : State) (e : Nat) : State :=
  let x := s.fwOf e
  let b := x.image
  let img : FwImage := ⟨b.take 128, slice b (128 + fwBodyLen b) 32⟩
  let s := (s.setFw e { x with staged := some img, loading := [], loadEnd := 0 }).wr (Obj.fwState e) fwStaged
  ((s.wr (Obj.fwStagedVersion e) (fwVersion b)).event 0x7C01 0x12 e noCtx 1 (fwVersion b) 0).fwBusy e 0x0200

/-- FW_COMMIT (R455 staging step 3, R457). Whether FL took what staging wrote is a free value, told here as FLASH (DESIGN CHOICE: the spec says neither when nor why a write
fails). -/
def State.fwCommit (s : State) (e : Nat) : State :=
  let r := s.fwVerdict e
  if r = frNoImage then s.fwBusy e (0x0200 + r)
  else if r ≠ 0 then (s.wr (Obj.fwState e) fwFailed).fwBusy e (0x0200 + r)
  else
    let w := s.free 1
    if w.1 = 1 then (w.2.wr (Obj.fwState e) fwFailed).fwBusy e (0x0200 + frFlash) else w.2.fwStage e

def execFwCommit (w : Who) (e : Nat) (s : State) : Host.Outcome State Fault Refusal := .next (s.fwCtl w e fun s => (s.fwCommit e, rOk))

/-- FW_ABANDON (R457). -/
def execFwAbandon (w : Who) (e : Nat) (s : State) : Host.Outcome State Fault Refusal :=
  .next (s.fwCtl w e fun s => ((s.fwDrop e fwNone).fwResult e 0, rOk))

/-- FW_SVN_FLOOR_WRITE: the floor rises alone, and no higher than the running image's version (R459); the answer waits for FL (R447). -/
def State.fwFloor (s : State) (w : Who) (e v : Nat) : State × Nat :=
  if !isElem e then (s, rNoObject)
  else if v < s.toBe (Obj.fwSvnFloor e) ∨ s.rd (Obj.fwRunningSvn e) < v then (s, rRefused)
  else s.storeReg w (Obj.fwSvnFloor e) v

def execFwSvnFloorWrite (w : Who) (e v : Nat) (s : State) : Host.Outcome State Fault Refusal :=
  .next (s.ctl w (isCus w) fun s => s.fwFloor w e v)

/-! ## Activation -/

/-- The measurement kind and domains of an element (R425). -/
def fwKind (e : Nat) : Nat := e + 1
def fwDomains (e : Nat) : List Nat := if e = 3 then [5] else if e = 4 then [1, 2, 3, 4] else [0]

def State.measure (s : State) (m : Meas) : State :=
  { s with sec := { s.sec with pkg := s.sec.pkg.map fun (x : Meas) => if x.kind = m.kind ∧ x.domain = m.domain then m else x } }

/-- The running image of an element is measured in one domain; one that is held in reset keeps the last digest measured before (R425, R427). -/
def State.measureIn (s : State) (e d : Nat) : State :=
  let i := (s.fwOf e).running
  if s.domUp d then s.measure ⟨fwKind e, d, fwSvn i.hdr, i.digest⟩ else s

/-- The running image of an element is measured (R425). -/
def State.measureFw (s : State) (e : Nat) : State := (fwDomains e).foldl (fun s d => s.measureIn e d) s

/-- A domain that leaves reset is measured again (R427). -/
def State.measureDomain (s : State) (d : Nat) : State := [1, 2, 3, 4].foldl (fun s e => if (fwDomains e).contains d then s.measureIn e d else s) s

/-- The running objects follow the running image. -/
def State.fwSync (s : State) (e : Nat) : State :=
  let h := (s.fwOf e).running.hdr
  ((s.wr (Obj.fwRunningVersion e) (fwVersion h)).wr (Obj.fwRunningSvn e) (fwSvn h)).wr (Obj.fwRunningLevel e) (fwLevel h)

/-- A STAGED image becomes the running image at its element's activation point (R457). -/
def State.activateFw (s : State) (e : Nat) : State :=
  let x := s.fwOf e
  match x.staged with
  | none => s.measureFw e
  | some i =>
    let s := s.setFw e { x with running := i, previous := some x.running, staged := none, fresh := true }
    let s := ((s.wr (Obj.fwState e) fwNone).wr (Obj.fwStagedVersion e) 0).wr (Obj.fwActiveSlot e) (1 - s.rd (Obj.fwActiveSlot e))
    ((s.fwSync e).measureFw e).event 0x7C01 0x12 e noCtx 2 (fwVersion i.hdr) 0

/-- The previous slot starts in place of a newly activated image that failed, once and not below the floor (R459): none where that cannot be. -/
def State.fallback (s : State) (e : Nat) : Option State :=
  let x := s.fwOf e
  match x.previous with
  | none => none
  | some p =>
    if !x.fresh ∨ fwSvn p.hdr < s.rd (Obj.fwSvnFloor e) then none
    else
      let s := s.setFw e { x with running := p, previous := some x.running, fresh := false }
      let s := (s.wr (Obj.fwState e) fwFailed).wr (Obj.fwActiveSlot e) (1 - s.rd (Obj.fwActiveSlot e))
      some ((((s.bumpSat (Obj.fwFallbacks e) 32).fwSync e).measureFw e).event 0x7C01 0x12 e noCtx 3 (fwVersion p.hdr) 0)

/-- Images that started are no longer new (R459). -/
def State.settleFw (s : State) (l : List Nat) : State := l.foldl (fun s e => s.setFw e { s.fwOf e with fresh := false }) s

/-! ## The keys of the package -/

/-- The seed of a key of R409. -/
def State.seed (s : State) (info : Bytes) : Bytes := hkdf s.sec.uds [] info 32

/-- The compound device identifier (R409). -/
def State.cdi (s : State) : Bytes :=
  let i := (s.fwOf 1).running
  hkdf s.sec.uds i.digest (txtCdi ++ leBytes 4 (fwSvn i.hdr)) 32

/-- The boot ROM derives the keys and issues the Alias certificate (R406, R408 to R410, R465), again when another security-core image starts (R459). -/
def State.deriveKeys (s : State) : State :=
  let dev := privOf (s.seed txtDeviceId)
  let bind := privOf (s.seed txtBinding)
  let al := privOf (hkdf s.cdi [] txtAlias 32)
  let i := (s.fwOf 1).running
  let s := { s with sec := { s.sec with bindingPriv := bind, aliasPriv := al, recordKey := s.seed txtRecord } }
  ((s.wro Obj.deviceIdPub (ecPub dev)).wro Obj.bindingPub (ecPub bind)).wro Obj.aliasCert
    ((certOf dev (Config.aliasTbs (ecPub al) i.digest (fwSvn i.hdr))).take 2048)

end Sys2Proof.Machine
end

