-- ==== Sys2Proof/Machine/Dram.lean ====
section
/-! DEFINITION. The base dies and DRAM dies: reads, writes and atomics of a base die, patrol, refresh, temperature and evacuation (R156 to R166, R176 to
R182). -/

namespace Sys2Proof.Machine

open Sys2Proof

/-- Bytes of a granule come to differ from what was written. One already uncorrectable or unwritten stays so until a whole-granule write (R158, R162). Of an error in
more than 6 bytes the check may see nothing (R157); what the granule then reads as is free. -/
def State.plant (s : State) (pa : Nat) (l : List CellErr) : State :=
  let g := pa / 128 * 128
  let m := l.foldl (fun m c => msetD m c.byte 0 (mgetD m c.byte 0 ^^^ c.flip)) (mgetD s.mem.flips g [])
  match s.markOf g with
  | some .ue | some .unwritten => s
  | _ =>
    if m.length > 6 ∧ !Config.eccSees g m then
      { s with mem := { (s.mem.put g (fit 128 (Config.eccReads g m))) with flips := mdel s.mem.flips g } }
    else { s with mem := { s.mem with flips := if m = [] then mdel s.mem.flips g else mput s.mem.flips g m } }

/-- A command of a base die reaches the tiers and their holes; tile SRAM and control space are not its own (R152). -/
def State.tierAddr (s : State) (pa : Nat) : Bool :=
  match s.regionOf pa with
  | .sram _ _ | .control => false
  | _ => true

/-- A read of one whole granule by its base die (R157 to R159): a read of another granule is an uncorrectable one where the check sees it, and leaves the granule as
it is. Of a die that has failed nothing is read (R181). -/
def State.granuleRead (s : State) (g : Nat) (e : ReadErr) : State × Status × Bytes :=
  if s.regionOf g = .hole then s.readBlock g 128
  else match e with
    | .cells l => (s.plant g l).readBlock g 128
    | .wrongGranule o => if s.deadGranule g ∨ Config.eccSeesOther g o then (s.dramUe g, .uncorrectable, []) else (s, .ok, s.mem.get (o / 128 * 128) 128)

/-- MEM_READ: a base die reads a granule and answers with its data, UNCORRECTABLE, or VIOLATION for a hole (R152, R158, R159). -/
def execMemRead (pa : Nat) (found : ReadErr) (s : State) : Host.Outcome State Fault Refusal :=
  .next (if !s.tierAddr pa then s
    else
      let r := s.granuleRead (pa / 128 * 128) found
      r.1.emit (.memReply r.2.1 r.2.2))

/-- MEM_WRITE: a whole granule is replaced; a part of one is read, merged and written (R160). -/
def execMemWrite (pa : Nat) (data : Bytes) (s : State) : Host.Outcome State Fault Refusal :=
  .next (if !s.tierAddr pa ∨ data.length = 0 ∨ pa % 128 + data.length > 128 then s
    else
      let r := s.writeBlock pa data
      r.1.emit (.memAck r.2))

/-- MEM_ATOMIC (R161). -/
def execMemAtomic (pa fn : Nat) (wide : Bool) (operand compare : Nat) (s : State) : Host.Outcome State Fault Refusal :=
  .next (if !s.tierAddr pa then s
    else
      let r := s.atomic pa fn wide operand compare
      r.1.emit (.memOld r.2.1 r.2.2))

/-- PATROL_SCRUB: a base die reads a granule with idle time and writes a correctable one back; an uncorrectable one is recorded and left (R164). The last
granule of a pass of the package is counted. -/
def execPatrolScrub (pa : Nat) (found : ReadErr) (lastOfPass : Bool) (s : State) : Host.Outcome State Fault Refusal :=
  .next (if !s.tierAddr pa ∨ s.regionOf pa = .hole then s
    else
      let s := (s.granuleRead (pa / 128 * 128) found).1
      if lastOfPass then s.bumpSat Obj.scrubPasses 32 else s)

/-- DRAM_REFRESH: a controller refreshes one bank, or sends it a refresh management command; contents and objects stay (R165). When the standard asks for either is
timing. -/
def execDramRefresh (stack pos bank : Nat) (management : Bool) (s : State) : Host.Outcome State Fault Refusal :=
  .next (s.emit (if management then .refreshMgmt stack pos bank else .refresh stack pos bank))

/-- The key under which the steward keeps the report of a DRAM die (R165), beside the supervised dies of R380. -/
def dramTempKey (stack pos : Nat) : Nat := 64 + 32 * stack + pos

/-- DRAM_TEMP_REPORT: the last temperature of a die (R184). Above 95 °C the die is reported to the steward, until a later report is not (R165); the halved activation
rate is a matter of timing. -/
def execDramTempReport (stack pos : Nat) (temp : Int) (s : State) : Host.Outcome State Fault Refusal :=
  let t := s.steward.temps
  let k := dramTempKey stack pos
  .next { s.wr (Obj.dramTempC stack pos) (ofInt 16 temp) with steward := { s.steward with temps := if 95 < temp then mput t k temp else mdel t k } }

/-- EVACUATE written to `dram_control` (R176, R184). -/
def State.beginEvac (s : State) (stack pos : Nat) : State × Nat :=
  if s.rd (Obj.dramState stack pos) ≠ ustActive ∨ (s.spareDie stack).isNone ∨ (s.mem.evacs.any fun e => e.stack = stack) then (s, rRefused)
  else (s.evacuate stack pos, rOk)

def execDramEvacuate (w : Who) (stack pos : Nat) (s : State) : Host.Outcome State Fault Refusal :=
  .next (s.ctl w (isOpCus w) fun s => if stack ≥ 32 ∨ pos ≥ 17 then (s, rNoObject) else s.beginEvac stack pos)

/-- ECC groups in one die channel (R148, R156). -/
def groupsOf (stack : Nat) : Nat := if stack < 24 then 786432 else 1048576

def State.evacOf (s : State) (stack : Nat) : Option Evac := s.mem.evacs.find? fun e => e.stack = stack

def State.setEvac (s : State) (e : Evac) : State :=
  let s := { s with mem := { s.mem with evacs := updFirst (fun x => x.stack == e.stack) (fun _ => e) s.mem.evacs } }
  s.wr (Obj.evacProgress e.stack e.old) (100 * (e.cur0 + e.cur1) / (2 * groupsOf e.stack))

def State.dropEvac (s : State) (e : Evac) : State :=
  let s := { s with mem := { s.mem with evacs := s.mem.evacs.filter fun x => x.stack != e.stack } }
  s.wr (Obj.evacProgress e.stack e.old) 0xFF

/-- Step 3 of an evacuation: the channel switch serves the logical die from the spare position (R177). -/
def State.evacDone (s : State) (e : Evac) : State :=
  let s := s.dropEvac e
  let s := s.wr (Obj.dramLogical e.stack e.old) 0xFF
  let s := s.wr (Obj.dramLogical e.stack e.spare) e.logical
  let s := s.goState (Obj.dramState e.stack e.old) 0x03 (32 * e.stack + e.old) (if e.oldFailed then ustFailed else ustRetired)
  let s := if e.oldFailed then s.addFail 0x03 (32 * e.stack + e.old) else s.mapNote 0x03 (32 * e.stack + e.old)
  let s := (s.goState (Obj.dramState e.stack e.spare) 0x03 (32 * e.stack + e.spare) ustActive).mapNote 0x03 (32 * e.stack + e.spare)
  s.event 0x2003 0x03 (32 * e.stack + e.old) noCtx 2 e.unwritten 0

/-- Granules of a group whose check is not clean. -/
def State.badGranules (s : State) (e : Evac) (chan group : Nat) : List Nat :=
  (s.mem.marks.map (·.1) ++ s.mem.flips.map (·.1)).dedup.filter fun g =>
    decide (g / 2 ^ 42 < 2) && s.place g == (e.stack, e.logical, chan) && s.groupOf g == group

/-- Copy one granule of a group: a correctable one is corrected, an uncorrectable one becomes unwritten and its physical address is recorded (R177, R179); one that is
unwritten already is uncorrectable too. -/
def State.evacGranule (s : State) (e : Evac) (g : Nat) : State × Evac :=
  match s.markOf g with
  | some .ce => (s.dramCe g, e)
  | some .ue | some .unwritten =>
    let s := s.dramUe g
    ({ s with mem := { s.mem with marks := mput s.mem.marks g .unwritten, flips := mdel s.mem.flips g } }, { e with unwritten := e.unwritten + 1 })
  | none => (s, e)

/-- The bytes of data that a copied group writes: 15 granules (R177). `te_bytes` counts these, and not the check bytes beside them (DESIGN CHOICE: R211 says bytes
written). -/
abbrev groupBytes : Nat := 15 * 128

/-- EVAC_GROUP_COPIED: the group at a die channel's cursor is on the spare, and the cursor advances; after the last group the spare serves (R177 to R179). The copies
are descriptors of a house channel, which must be in service to make them (R24, R185). -/
def execEvacGroupCopied (stack chan : Nat) (s : State) : Host.Outcome State Fault Refusal :=
  match s.evacOf stack with
  | none => .next s
  | some e =>
    let cur := if chan = 0 then e.cur0 else e.cur1
    if cur ≥ groupsOf stack ∨ !s.houseRuns e.ch then .next s
    else
      let r := (s.badGranules e chan cur).foldl (fun a g => a.1.evacGranule a.2 g) (s, e)
      let e := if chan = 0 then { r.2 with cur0 := cur + 1 } else { r.2 with cur1 := cur + 1 }
      let s := (r.1.bumpBy Obj.teBytes groupBytes).setEvac e
      .next (if e.cur0 ≥ groupsOf stack ∧ e.cur1 ≥ groupsOf stack then s.evacDone e else s)

/-- The part of a logical die's channel between two groups is unwritten from now on (R162, R180). -/
def State.loseGroups (s : State) (e : Evac) (chan lo hi : Nat) : State :=
  if lo ≥ hi then s
  else
    let inPart := fun g : Nat => decide (g / 2 ^ 42 < 2) && s.place g == (e.stack, e.logical, chan) && decide (lo ≤ s.groupOf g) && decide (s.groupOf g < hi)
    { s with mem := { s.mem with
        lost := ⟨e.stack, e.logical, chan, lo, hi, []⟩ :: s.mem.lost
        marks := s.mem.marks.filter fun m => !inPart m.1 } }

/-- OLD_DIE_UNRESPONSIVE: the groups not yet copied are written as unwritten granules, and step 3 follows with the old die FAILED (R180). -/
def execOldDieUnresponsive (stack : Nat) (s : State) : Host.Outcome State Fault Refusal :=
  match s.evacOf stack with
  | none => .next s
  | some e =>
    let n := groupsOf stack
    let s := (s.loseGroups e 0 e.cur0 n).loseGroups e 1 e.cur1 n
    .next (s.evacDone { e with oldFailed := true, unwritten := e.unwritten + 15 * (2 * n - e.cur0 - e.cur1) })

/-- The spare of an evacuation stops answering (R180): the evacuation is abandoned, and groups below the cursors are unwritten in the old die; an old die that has
failed too stays mapped and FAILED (R181). -/
def State.evacAbandon (s : State) (e : Evac) : State :=
  let s := (s.dropEvac e).loseGroups e 0 0 e.cur0
  let s := s.loseGroups e 1 0 e.cur1
  let unit := fun k => 32 * e.stack + k
  let s := (s.goState (Obj.dramState e.stack e.spare) 0x03 (unit e.spare) ustFailed).addFail 0x03 (unit e.spare)
  let s := s.event 0x2003 0x03 (unit e.old) noCtx 3 (15 * (e.cur0 + e.cur1)) 0
  let s := if e.oldFailed then (s.goState (Obj.dramState e.stack e.old) 0x03 (unit e.old) ustFailed).addFail 0x03 (unit e.old) else s
  s.exhausted 0x03 (unit e.old) 2 e.oldFailed

/-- SPARE_DIE_UNRESPONSIVE (R180). -/
def execSpareDieUnresponsive (stack : Nat) (s : State) : Host.Outcome State Fault Refusal :=
  .next (match s.evacOf stack with
    | none => s
    | some e => s.evacAbandon e)

/-- DRAM_DIE_FAIL: a data die that fails is evacuated when a spare is free, and otherwise stays mapped and FAILED (R180, R181), as does one that fails while the
spare serves another die's evacuation; a spare die that fails leaves its stack without a spare. -/
def execDramDieFail (stack pos : Nat) (s : State) : Host.Outcome State Fault Refusal :=
  let st := s.rd (Obj.dramState stack pos)
  let unit := 32 * stack + pos
  let fail := fun (s : State) (short : Bool) => ((s.goState (Obj.dramState stack pos) 0x03 unit ustFailed).addFail 0x03 unit).exhausted 0x03 unit 2 short
  .next (if stack ≥ 32 ∨ pos ≥ 17 then s
    else match s.evacOf stack with
      | some e =>
        if pos = e.old then s.setEvac { e with oldFailed := true }
        else if pos = e.spare then s.evacAbandon e
        else if st = ustActive then fail s true else s
      | none =>
        if st = ustSpare then fail s false
        else if st ≠ ustActive then s
        else if (s.spareDie stack).isSome then
          let s := s.evacuate stack pos
          match s.evacOf stack with
          | some e => s.setEvac { e with oldFailed := true }
          | none => s
        else fail s true)

end Sys2Proof.Machine
end

