-- ==== Sys2Proof/Machine/Links.lean ====
section
/-! DEFINITION. In-package links, the link layer, loss and salvage, training, lanes, lasers and the control of ports (R212 to R247). -/

namespace Sys2Proof.Machine

open Sys2Proof

/-! ## In-package links -/

/-- The in-package links (R213). -/
def d2dExists (l : Nat) : Bool := decide (l < 14) || decide (16 ≤ l ∧ l < 53)

/-- The reset domain of the end of an in-package link that lies farther from MD (R213, R481). -/
def d2dDomain (l : Nat) : Nat :=
  if l < 3 then 1 else if l < 5 then 2 else if l = 5 then 3
  else if l < 10 then l - 5
  else if l < 14 then l - 9
  else if l < 40 then (l - 16) / 6 + 1
  else if l < 48 then (l - 40) / 2 + 1
  else 5

def State.d2dOf (s : State) (l : Nat) : D2dLink := mgetD s.d2d l ⟨(0, 0), (0, 0), (false, false), []⟩
def State.setD2d (s : State) (l : Nat) (v : D2dLink) : State := { s with d2d := mput s.d2d l v }

/-- Modules per direction of an in-package link (R213). -/
def d2dModules (l : Nat) : Nat :=
  if l < 10 then 4 else if l < 14 then 1 else if l < 40 then 3 else if l < 48 then 2 else if l = 48 then 1 else 2

/-- One direction's component. -/
def dirOf {α : Type} (x : α × α) (dir : Nat) : α := if dir = 0 then x.1 else x.2
def setDir {α : Type} (x : α × α) (dir : Nat) (v : α) : α × α := if dir = 0 then (v, x.2) else (x.1, v)

/-- Whether a 256-byte protocol unit passes its CRC-32C (R213), which stands in its last 4 bytes, over the others (DESIGN CHOICE: R213 gives the unit no layout). -/
def d2dUnitOk (u : Bytes) : Bool := u.length == 256 && leAt u 252 4 == crc32c (u.take 252)

/-- D2D_UNIT_RECEIVE (R213, R482): the receiver of one direction. A unit of a generation that is not confirmed is discarded; one that fails its CRC, or that is
ahead of the next expected, makes the direction's transmitter send again every unit it holds from there on, each of which is counted; an earlier one is a copy. What was under
way behind the failed unit is discarded without a further request, until the number expected comes, or comes and fails again. -/
def execD2dUnitReceive (l dir seq gen : Nat) (unit : Bytes) (s : State) : Host.Outcome State Fault Refusal :=
  let d := s.d2dOf l
  let ok := d2dUnitOk unit
  let next := dirOf d.rxNext dir
  let top := max (dirOf d.sent dir) (seq + 1)
  let d := { d with sent := setDir d.sent dir top }
  .next (if !d2dExists l ∨ s.rd (Obj.d2dState l) ≠ ustActive ∨ some gen ≠ mget s.boot.confirmed (d2dDomain l) then s
    else if ok ∧ seq = next then s.setD2d l { d with rxNext := setDir d.rxNext dir (next + 1), asked := setDir d.asked dir false }
    else if ok ∧ seq < next then s
    else if (dirOf d.asked dir : Bool) = true ∧ seq ≠ next then s.setD2d l d
    else ((s.setD2d l { d with asked := setDir d.asked dir true }).bumpBy (Obj.d2dReplays l) (top - next)).emit (.d2dReplay l dir next))

/-- Redundant lanes of a module (the UCIe advanced package's four). -/
abbrev redundantLanes : Nat := 4

/-- Every channel of a stack fails (R181, R213). -/
def State.failStack (s : State) (stack : Nat) : State :=
  let s := match s.evacOf stack with
    | some e => s.dropEvac e
    | none => s
  (List.range 17).foldl (fun s k =>
    let st := s.rd (Obj.dramState stack k)
    if st = ustActive ∨ st = ustSpare then (s.goState (Obj.dramState stack k) 0x03 (32 * stack + k) ustFailed).addFail 0x03 (32 * stack + k) else s) s

/-! ## Lanes -/

/-- A direction's position as a unit (R501). -/
def laneUnit (p i : Nat) : Nat := 32 * p + i

def State.setLane (s : State) (p dir i st : Nat) : State :=
  let s' := s.goState (Obj.laneState p i dir) 0x06 (laneUnit p i) st
  if s.rd (Obj.laneState p i dir) = st then s'
  else if st = ustFailed then s'.addFail 0x06 (laneUnit p i) else s'.mapNote 0x06 (laneUnit p i)

def State.setLogical (s : State) (p dir i k : Nat) : State := s.wr (Obj.laneLogical p i dir) k

/-- The position that carries a logical lane. -/
def State.carrier (s : State) (p dir k : Nat) : Option Nat := (List.range 18).find? fun i => s.rd (Obj.laneLogical p i dir) = k

/-- SPARE positions of a direction that no substitution has reserved. -/
def State.freeLanes (s : State) (p dir : Nat) : List Nat :=
  let l := s.link p
  (List.range 18).filter fun i => s.rd (Obj.laneState p i dir) == ustSpare &&
    !(if dir = 1 then (l.subs.any fun x => x.new == i) else ((l.copies.any fun c => c.2 == i) || l.relock.contains i)) &&
    !(l.switches.any fun x => x.dir == dir && x.new == i)

/-- `spares_free` follows the lanes (R247). -/
def State.syncSpares (s : State) (p : Nat) : State :=
  let n := fun d => min 3 ((List.range 18).filter fun i => s.rd (Obj.laneState p i d) == ustSpare).length
  s.wr (Obj.sparesFree p) (4 * n 1 + n 0)

/-- A logical lane moves from one position to another (R236 step 5, R237): the old position takes a state unless it has failed. -/
def State.moveLane (s : State) (p dir k old new oldTo : Nat) (abrupt : Bool) : State :=
  let s := (s.setLane p dir new ustActive).setLogical p dir new k
  let s := s.setLogical p dir old 0xFF
  let s := if s.rd (Obj.laneState p old dir) = ustFailed then s else s.setLane p dir old oldTo
  let s := (s.bump Obj.laneSubstitutions).event 0x3004 0x06 (laneUnit p old) noCtx k new (if abrupt then 2 else 1)
  s.syncSpares p

/-- The next trailer's acknowledgement, as a control flit carries it. -/
def LinkPort.ackNum (l : LinkPort) : Nat := (l.rxNext + 2 ^ 24 - 1) % 2 ^ 24

/-- Send a control flit (R222). -/
def State.sendCtl (s : State) (p : Nat) (f : CtlFlit) : State := s.sendFlits p f.bytes

/-- A control flit without credits. -/
def LinkPort.flit (l : LinkPort) (op replay logical position after : Nat) : CtlFlit := ⟨op, l.ackNum, replay, logical, position, after, [], 0⟩

/-- The spare policy learns that a lane has no spare (R238, R486). -/
def State.noLaneSpare (s : State) (p i k : Nat) : State := (s.event 0x3008 0x06 (laneUnit p i) noCtx k 0 0).exhausted 0x06 (laneUnit p i) 3 false

/-- Start a planned substitution of a receive position (R236 step 1); without a free SPARE position it is not started (R238). -/
def State.startSub (s : State) (p i oldTo : Nat) : State :=
  let k := s.rd (Obj.laneLogical p i 1)
  let l := s.link p
  if k = 0xFF ∨ (l.subs.any fun x => x.logical == k) then s
  else match (s.freeLanes p 1).head? with
    | none => s.noLaneSpare p i k
    | some n => (s.setLink p { l with subs := l.subs ++ [⟨k, i, n, 1, oldTo⟩] }).sendCtl p (l.flit 4 0 k 0xFF 0)

/-! ## Loss and salvage -/

/-- A CL packet discarded at a loss is counted there and at its session (R230, R306). -/
def State.dropCl (s : State) : State := (s.bump Obj.clPacketsDropped).bump Obj.clUnexpected

/-- A packet kept by the link layer goes back to the router with its header as it was before this hop (R230, R262); a probe cannot be sent on a lost link (R263). -/
def State.salvageOne (s : State) (h : HeldPkt) : State :=
  if h.pkt.cls = clsCL then s.dropCl
  else
    let s := s.bump Obj.packetsSalvaged
    if h.pkt.probe then s.bump Obj.dropNoRoute
    else
      let n := (s.resident h.pkt.parity true).newId
      n.2.enter n.1 23 h.arrNs [] false { h.pkt with level := h.pkt.level - 1, pool := false }

/-- The jobs queued for a port. -/
def State.queuedFor (s : State) (p : Nat) : List Packet := s.router.bufs.flatMap fun e => (e.jobs.filter fun j => j.1 == p).map fun j => j.2

/-- The packets queued for a port are handed back: CL is discarded and counted, the others are routed again (R229 step 2, R230). -/
def State.salvageQueued (s : State) (p : Nat) : State :=
  let q := s.queuedFor p
  let cl := q.filter fun k => k.cls == clsCL
  let s := cl.foldl (fun (s : State) _ => s.dropCl) s
  let s := s.bumpBy Obj.packetsSalvaged (q.length - cl.length)
  let s := s.router.bufs.foldl (fun (s : State) e =>
    if e.jobs.any fun j => j.1 == p && j.2.cls == clsCL then s.setJobs e (e.jobs.filter fun j => !(j.1 == p && j.2.cls == clsCL)) else s) s
  s.reroute p

/-- Everything queued for a port or kept by its link layer goes back to the router, and how much that is; credits are reset (R229 step 2, R240). -/
def State.salvage (s : State) (p : Nat) : State × Nat :=
  let l := s.link p
  let held := l.held
  let back := (held.filter fun h => h.pkt.cls != clsCL).length + ((s.queuedFor p).filter fun k => k.cls != clsCL).length
  let l := { l with
    rxFlits := [], txSeq := 0, rxNext := 0, held := [], asked := false, reqNum := 0, reqCount := 0, timeouts := 0, ackDue := false, spentVc := [], spentPool := 0,
    retVc := [], retPool := 0, subs := [], copies := [], switches := [], rxQ := l.rxQ.map fun w => { w with owed := false } }
  let s := s.setLink p l
  let s := { s with router := { s.router with bufs := s.router.bufs.map fun (e : RtEntry) => if e.inPort = p then { e with owed := false } else e } }
  let s := s.salvageQueued p
  (held.foldl (fun s h => s.salvageOne h) s, back)

/-- A port whose link trains (R232, R241). -/
def State.trains (s : State) (p : Nat) : Bool :=
  (s.rd (Obj.portState p) == ustActive || s.rd (Obj.portState p) == ustFenced) && (decide (p < 14) || s.rd (Obj.d2dState (49 + (p - 14))) == ustActive)

/-- Training starts at step 1 on a port that trains. -/
def State.startTraining (s : State) (p : Nat) : State :=
  if s.trains p then (s.wr (Obj.linkState p) linkDown).setLink p { s.link p with train := 1 } else s.setLink p { s.link p with train := 0 }

/-- A link is lost (R228, R229): cause 1 signal, 2 alignment, 3 restart. -/
def State.linkLoss (s : State) (p cause : Nat) : State :=
  if s.rd (Obj.linkState p) ≠ linkUp then s
  else
    let s := ((s.wr (Obj.linkState p) linkDown).wr (Obj.rtAdmit p) 0).emit (.idle p)
    let s := s.bump Obj.linkLosses
    let r := s.salvage p
    let s := r.1.event 0x3001 0x05 p noCtx (r.1.rd (Obj.farEnd p)) cause r.2
    (s.agentLinkLost p).startTraining p

/-- Training under way in steps 2 to 5 fails: the link is DOWN until the interval starts training again (R229 step 4). -/
def State.trainingFails (s : State) (p : Nat) : State :=
  if (s.link p).train < 2 then s else (s.setLink p { s.link p with train := 0 }).wr (Obj.linkState p) linkDown

/-- LINK_LOSS (R228, R229): of a link that is UP, or of one that trains, whose training fails by it. -/
def execLinkLoss (p cause : Nat) (s : State) : Host.Outcome State Fault Refusal :=
  .next (if p < 18 ∧ (cause = 1 ∨ cause = 2) then (if s.rd (Obj.linkState p) = linkUp then s.linkLoss p cause else s.trainingFails p) else s)

/-- D2D_LANE_FAIL: the link retrains onto a redundant lane of its module, or becomes FAILED with the consequence of its row (R213, R214). -/
def execD2dLaneFail (l module : Nat) (s : State) : Host.Outcome State Fault Refusal :=
  let d := s.d2dOf l
  let used := mgetD d.used module 0
  if !d2dExists l ∨ s.rd (Obj.d2dState l) ≠ ustActive ∨ module ≥ d2dModules l then .next s
  else if used < redundantLanes then
    let s := (s.setD2d l { d with used := mput d.used module (used + 1) }).wr (Obj.d2dLanesRepaired l) (s.rd (Obj.d2dLanesRepaired l) + 1)
    .next ((s.event 0x3006 0x09 l noCtx (s.rd (Obj.d2dLanesRepaired l)) 0 0).mapNote 0x09 l)
  else
    let s := ((s.goState (Obj.d2dState l) 0x09 l ustFailed).addFail 0x09 l).exhausted 0x09 l 6 true
    .next (if 16 ≤ l ∧ l < 48 then s.failStack (l - 16)
      else if 49 ≤ l then (s.linkLoss (14 + (l - 49)) 1).startTraining (14 + (l - 49))
      else s)

/-! ## The link layer -/

/-- Corrected symbols are counted on the receive positions whose lanes carried them (R221, R235). -/
def State.countFixed (s : State) (p : Nat) (lanes : List Nat) : State :=
  lanes.foldl (fun s k => match s.carrier p 1 k with
    | none => s
    | some i => s.setLink p { s.link p with fixed := mput (s.link p).fixed i (mgetD (s.link p).fixed i 0 + 1) }) s

/-- What a receive position gives of the levels that arrived (R217, R218): training has put a reversed order and an inverted polarity right, and the levels are decoded and
descrambled. -/
def State.fromPosition (s : State) (p i : Nat) (levels : List (List Nat)) : List Nat × Nat :=
  let l := s.link p
  let raw := levels.getD (if l.reversed then 17 - i else i) []
  let raw := if bit l.inverted i then raw.map (3 - ·) else raw
  scrLane (rsOf p).runs (mgetD l.rxScr i (Config.scrambleSeed i).toNat) (raw.map gray)

/-- The symbols of the codeword that the levels of 18 receive positions carry (R216, R220): each logical lane by the position that serves it. -/
def State.lineIn (s : State) (p : Nat) (levels : List (List Nat)) : List Nat :=
  (rsOf p).gather ((List.range 16).map fun k => match s.carrier p 1 k with
    | some i => (s.fromPosition p i levels).1
    | none => List.replicate (17 * (rsOf p).runs) 0)

/-- The scramblers of the receive positions move on with a codeword. -/
def State.lineTaken (s : State) (p : Nat) (levels : List (List Nat)) : State :=
  s.setLink p { s.link p with rxScr := (List.range 18).foldl (fun m i => mput m i (s.fromPosition p i levels).2) (s.link p).rxScr }

/-- CODEWORD_RECEIVE (R217, R220, R221): the PAM4 levels of one codeword, by the position on which they arrive. Its flits are taken, with what was corrected counted; those
of a codeword that cannot be corrected are discarded, and the link layer recovers them by replay. -/
def execCodewordReceive (p : Nat) (levels : List (List Nat)) (s : State) : Host.Outcome State Fault Refusal :=
  let c := rsOf p
  .next (if p ≥ 18 ∨ s.rd (Obj.linkState p) ≠ linkUp then s
    else match c.receive (s.lineIn p levels) with
      | some (flits, n, lanes) =>
        let s := ((s.lineTaken p levels).bumpBy (Obj.fecCorrected p) n).countFixed p lanes
        s.setLink p { s.link p with rxFlits := (s.link p).rxFlits ++ flits.map some }
      | none =>
        let s := (s.lineTaken p levels).bump (Obj.fecUncorrected p)
        s.setLink p { s.link p with rxFlits := (s.link p).rxFlits ++ List.replicate (c.k * c.w / 512) none })

/-- Distance between two 24-bit packet numbers. -/
def seqDist (a b : Nat) : Nat := (b + 2 ^ 24 - a) % 2 ^ 24

/-- A cumulative acknowledgement (R224). -/
def LinkPort.ack (l : LinkPort) (n : Nat) : LinkPort :=
  let rest := l.held.filter fun h => decide (seqDist h.tr.seq n ≥ 2 ^ 23)
  { l with held := rest, timeouts := if rest.length < l.held.length then 0 else l.timeouts }

/-- Returned credits of one virtual channel and of the pool (R226). -/
def LinkPort.credit (l : LinkPort) (vc n pool : Nat) : LinkPort :=
  { l with spentVc := if vc < 40 then msetD l.spentVc vc 0 (mgetD l.spentVc vc 0 - n) else l.spentVc, spentPool := l.spentPool - pool }

/-- Ask once for a resend from the number expected; when that number itself has come again and is discarded, ask again (R225). -/
def State.askReplay (s : State) (p : Nat) (seq : Option Nat) : State :=
  let l := s.link p
  if l.asked ∧ seq ≠ some l.rxNext then s else (s.setLink p { l with asked := true }).sendCtl p (l.flit 2 l.rxNext 0 0 0)

/-- A packet whose checks pass and whose number is expected is accepted, with its acknowledgement and credits; an earlier number is a duplicate, a later one is
discarded and the expected one asked for (R223 to R226). A packet of an optical port takes this package's parity (R274). -/
def State.packetIn (s : State) (p : Nat) (pkt : Packet) (tr : Trailer) : State :=
  let l := s.link p
  if tr.seq = l.rxNext then
    let k := if p ≥ 14 then { pkt with parity := s.rd Obj.injectParity } else pkt
    let n := s.newId
    let l := { l with rxNext := (l.rxNext + 1) % 2 ^ 24, asked := false, ackDue := true, rxQ := l.rxQ ++ [(⟨n.1, s.now, true, k⟩ : RxWait)] }
    let l := if tr.ackValid then l.ack tr.ack else l
    (n.2.setLink p (l.credit tr.creditVc tr.creditFlits tr.poolCredit)).resident k.parity true
  else if seqDist tr.seq l.rxNext < 2 ^ 23 then s
  else s.askReplay p (some tr.seq)

/-- LINK_PACKET_RECEIVE (R222 to R226): the packet at the front of the received flits, or what is treated as one that fails its CRC. -/
def execLinkPacketReceive (p : Nat) (s : State) : Host.Outcome State Fault Refusal :=
  if p ≥ 18 ∨ s.rd (Obj.linkState p) ≠ linkUp then .next s
  else
    let l := s.link p
    let x := frameOf l.rxFlits
    let t := s.setLink p { l with rxFlits := x.2 }
    match x.1 with
    | .pkt k tr => .next (t.packetIn p k tr)
    | .bad q => .next (t.askReplay p q)
    | .badCtl => .next t
    | .wait => .next s
    | .ctl _ => .next s

/-- The credits of a control flit, byte by byte (R222). -/
def LinkPort.credits : List Nat → Nat → LinkPort → LinkPort
  | [], _, l => l
  | n :: r, vc, l => LinkPort.credits r (vc + 1) (l.credit vc n 0)

/-- What every control flit brings: an acknowledgement and credits (R222). -/
def State.flitIn (s : State) (p : Nat) (f : CtlFlit) : State :=
  s.setLink p (LinkPort.credits f.credits 0 (((s.link p).ack f.ack).credit 0xFF 0 f.poolCredit))

/-- A row that takes a control flit: the flit at the front of the received flits where it is one of this op, and the state with it taken (R222). -/
def State.takeCtl (s : State) (p op : Nat) : Option (CtlFlit × State) :=
  if p ≥ 18 ∨ s.rd (Obj.linkState p) ≠ linkUp then none
  else
    let x := frameOf (s.link p).rxFlits
    match x.1 with
    | .ctl f => if f.op = op then some (f, (s.setLink p { s.link p with rxFlits := x.2 }).flitIn p f) else none
    | _ => none

/-- ACK_CREDIT (R224, R226). -/
def execAckCredit (p : Nat) (s : State) : Host.Outcome State Fault Refusal :=
  .next (match s.takeCtl p 1 with
    | none => s
    | some x => x.2)

/-- ACK_DEADLINE: an acknowledgement or freed flits that no trailer has carried leave in an ACK_CREDIT flit (R224, R226). -/
def execAckDeadline (p : Nat) (s : State) : Host.Outcome State Fault Refusal :=
  let l := s.link p
  .next (if p ≥ 18 ∨ s.rd (Obj.linkState p) ≠ linkUp ∨ (!l.ackDue ∧ l.retVc.isEmpty ∧ l.retPool = 0) then s
    else
      let cr := (List.range 40).map fun v => min 255 (mgetD l.retVc v 0)
      let pool := min l.retPool (2 ^ 32 - 1)
      let f : CtlFlit := ⟨1, l.ackNum, 0, 0, 0, 0, cr, pool⟩
      let more := l.retVc.filterMap fun e => if e.2 > 255 then some (e.1, e.2 - 255) else none
      (s.setLink p { l with ackDue := false, retVc := more, retPool := l.retPool - pool }).sendCtl p f)

/-- Resend held packets from a number on, in order (R225). -/
def State.resendFrom (s : State) (p : Nat) (f : HeldPkt → Bool) : State :=
  let l := s.link p
  let s := (s.bump Obj.linkReplays).bump (Obj.portReplays p)
  (l.held.filter f).foldl (fun s h => s.sendFlits p (h.pkt.bytes { h.tr with ack := l.ackNum })) s

/-- REPLAY_REQ (R225, R229): the eighth request in a row for one number declares a restart. -/
def execReplayReq (p : Nat) (s : State) : Host.Outcome State Fault Refusal :=
  match s.takeCtl p 2 with
  | none => .next s
  | some (f, s) =>
    let l := s.link p
    let n := if l.reqCount > 0 ∧ l.reqNum = f.replayFrom then l.reqCount + 1 else 1
    let s := s.setLink p { l with reqNum := f.replayFrom, reqCount := n }
    .next (if n ≥ 8 then s.linkLoss p 3 else s.resendFrom p fun h => decide (seqDist f.replayFrom h.tr.seq < 2 ^ 23))

/-- REPLAY_TIMEOUT (R225, R229): the fourth in a row declares a restart. -/
def execReplayTimeout (p : Nat) (s : State) : Host.Outcome State Fault Refusal :=
  let l := s.link p
  .next (if p ≥ 18 ∨ s.rd (Obj.linkState p) ≠ linkUp ∨ l.held.isEmpty then s
    else
      let s := s.setLink p { l with timeouts := l.timeouts + 1 }
      if l.timeouts + 1 ≥ 4 then s.linkLoss p 3 else s.resendFrom p fun _ => true)

/-! ## Lane substitution -/

/-- LANE_REQ: the transmitter copies the logical lane onto the position that the receiver has reserved (R236 step 2): a free SPARE position, or for a lane that goes
back to its own position (R242) that one. LANE_REQ does not carry the position, and the spec does not say how the transmitter learns it: it is an operand (DESIGN
CHOICE). -/
def execLaneReq (p position : Nat) (s : State) : Host.Outcome State Fault Refusal :=
  match s.takeCtl p 4 with
  | none => .next s
  | some (f, s) =>
    let l := s.link p
    let k := f.mapLogical
    let back := position = k ∧ s.rd (Obj.laneState p k 0) = ustDisabled
    match s.carrier p 0 k with
    | none => .next s
    | some i =>
      if k ≥ 16 ∨ l.copies.any (fun c => c.1 == k) then .next s
      else if back ∨ (s.freeLanes p 0).contains position then .next (s.setLink p { l with copies := l.copies ++ [(k, position)] })
      else if (s.freeLanes p 0).isEmpty then .next (s.noLaneSpare p i k)
      else .next s

/-- Arm a switch at a codeword to come (R236 step 4). -/
def State.armSwitch (s : State) (p : Nat) (x : LaneSwitch) : State :=
  let l := s.link p
  s.setLink p { l with switches := (l.switches.filter fun y => !(y.dir == x.dir && y.logical == x.logical)) ++ [x] }

/-- What becomes of a transmit position that lane `k` leaves: it relocks as SPARE where laser 9 now feeds its pair (R237, R239), and it is SPARE again where the lane
goes back to its own position (R242). -/
def State.txOldTo (s : State) (p i k new : Nat) : Nat :=
  if (s.link p).laser9 = some (i / 2) ∧ p ≥ 14 ∨ new = k then ustSpare else ustDisabled

/-- LANE_MAP: for a lane that this receiver has asked to be copied it names the switch of the receive side (R236 step 4); any other one is the far receiver's
demand that the transmitter move the lane at once (R237). -/
def execLaneMap (p : Nat) (s : State) : Host.Outcome State Fault Refusal :=
  match s.takeCtl p 3 with
  | none => .next s
  | some (f, s) =>
    let l := s.link p
    if f.mapLogical ≥ 16 ∨ f.mapPosition ≥ 18 ∨ f.mapAfter < 1 ∨ f.mapAfter > 1024 then .next s
    else match l.subs.find? fun x => x.logical = f.mapLogical ∧ x.new = f.mapPosition with
    | some x => .next (s.armSwitch p ⟨1, x.logical, x.new, x.oldTo, false⟩)
    | none =>
      if s.rd (Obj.laneState p f.mapPosition 0) ≠ ustSpare then .next s
      else match s.carrier p 0 f.mapLogical with
        | none => .next s
        | some i => .next (s.armSwitch p ⟨0, f.mapLogical, f.mapPosition, s.txOldTo p i f.mapLogical f.mapPosition, true⟩)

/-- A copy that this receiver has not asked for, on a SPARE position of an optical port: the far engine moves the lane off a worn laser (R239), and the position it leaves
relocks as SPARE. -/
def State.strangeCopy (s : State) (p logical position : Nat) : Option LaneSub :=
  if p ≥ 14 ∧ (s.freeLanes p 1).contains position ∧ !((s.link p).subs.any fun x => x.logical == logical) ∧ !((s.link p).copies.any fun c => c.1 == logical) then
    (s.carrier p 1 logical).map fun i => ⟨logical, i, position, 3, ustSpare⟩
  else none

/-- LANE_COPY_ALIGNED: the receiver of a substitution has aligned and confirmed the copy on a position (R236 step 3); at the transmitter's end the confirmed copy is followed
by LANE_MAP (step 4), with a `map_after` that is free between 1 and 1,024. -/
def execLaneCopyAligned (p logical position : Nat) (s : State) : Host.Outcome State Fault Refusal :=
  let l := s.link p
  if p ≥ 18 ∨ s.rd (Obj.linkState p) ≠ linkUp then .next s
  else if l.subs.any fun x => x.logical == logical && decide (x.step < 3) then
    .next (s.setLink p { l with subs := updFirst (fun x => x.logical == logical) (fun x => { x with step := 3 }) l.subs })
  else match s.strangeCopy p logical position with
  | some x => .next (s.setLink p { l with subs := l.subs ++ [x] })
  | none => match l.copies.find? fun c => c.1 = logical, s.carrier p 0 logical with
    | some c, some i =>
      if l.switches.any fun x => x.dir == 0 && x.logical == logical then .next s
      else
        let v := s.free 10
        let s := v.2.armSwitch p ⟨0, logical, c.2, s.txOldTo p i logical c.2, false⟩
        .next (s.sendCtl p (l.flit 3 0 logical c.2 (v.1 + 1)))
    | _, _ => .next s

/-- Laser 9 is switched in for the pair of a laser that wears or has failed (R239): the pair's positions that carry no lane relock on it and wait for the check of
training step 4. -/
def State.swapLaser (s : State) (e j : Nat) : State :=
  let p := 14 + e
  let s := if s.rd (Obj.laserState e j) = ustActive then s.goState (Obj.laserState e j) 0x07 (16 * e + j) ustRetired else s
  let s := ((s.goState (Obj.laserState e 9) 0x07 (16 * e + 9) ustActive).mapNote 0x07 (16 * e + j)).mapNote 0x07 (16 * e + 9)
  let l := s.link p
  let again := [2 * j, 2 * j + 1].filter fun i => s.rd (Obj.laneLogical p i 0) = 0xFF ∧ (s.rd (Obj.laneState p i 0) = ustSpare ∨ s.rd (Obj.laneState p i 0) = ustDisabled)
  let s := s.setLink p { l with laser9 := some j, laserAtTrain := none, relock := again }
  s.event 0x3005 0x07 (16 * e + j) noCtx (s.rd (Obj.laserBias e j)) 0 0

/-- A laser in use whose bias is past the limit (R239). -/
def State.laserWorn (s : State) (e j : Nat) : Bool :=
  s.rd (Obj.laserState e j) == ustActive && decide (s.rd (Obj.laserBias e j) > 100 * s.rd Obj.laserBiasLimitMa)

/-- LANE_SWITCH: both ends switch at the codeword named (R236 steps 4 and 5, R237); the last lane that leaves a worn laser's pair lets laser 9 take it over
(R239). -/
def execLaneSwitch (p dir logical : Nat) (s : State) : Host.Outcome State Fault Refusal :=
  let l := s.link p
  match l.switches.find? fun x => x.dir = dir ∧ x.logical = logical, s.carrier p dir logical with
  | some x, some old =>
    let l := { l with
      switches := l.switches.filter fun y => !(y.dir == dir && y.logical == logical)
      subs := if dir = 1 then l.subs.filter fun y => y.logical != logical else l.subs
      copies := if dir = 0 then l.copies.filter fun y => y.1 != logical else l.copies }
    let s := (s.setLink p l).moveLane p dir logical old x.new x.oldTo x.abrupt
    let pairFree := s.rd (Obj.laneLogical p (old / 2 * 2) 0) = 0xFF ∧ s.rd (Obj.laneLogical p (old / 2 * 2 + 1) 0) = 0xFF
    .next (if dir = 0 ∧ p ≥ 14 ∧ pairFree ∧ s.laserWorn (p - 14) (old / 2) ∧ s.rd (Obj.laserState (p - 14) 9) = ustSpare then s.swapLaser (p - 14) (old / 2) else s)
  | _, _ => .next s

/-- Lost receive positions move to free SPARE positions at once, and the transmitter is asked to follow (R237). -/
def State.abruptMove (s : State) (p : Nat) : List Nat → List Nat → State
  | i :: is, n :: ns =>
    let k := s.rd (Obj.laneLogical p i 1)
    let s := s.moveLane p 1 k i n ustDisabled true
    let l := s.link p
    let s := s.setLink p { l with subs := l.subs.filter fun x => x.logical != k, switches := l.switches.filter fun x => !(x.dir == 1 && x.logical == k) }
    State.abruptMove (s.sendCtl p ((s.link p).flit 3 0 k n 1)) p is ns
  | _, _ => s

/-- An abrupt loss of receive positions: moved to spares, or a loss of the link when there are not as many (R228, R237, R238). -/
def State.abruptLoss (s : State) (p : Nat) (positions : List Nat) : State :=
  let data := positions.dedup.filter fun i => decide (i < 18) && s.rd (Obj.laneLogical p i 1) != 0xFF
  let spare := positions.dedup.filter fun i => decide (i < 18) && s.rd (Obj.laneState p i 1) == ustSpare
  let free := (s.freeLanes p 1).filter fun i => !spare.contains i
  if data.length > free.length then s.linkLoss p 1
  else ((spare.foldl (fun s i => s.setLane p 1 i ustDisabled) s).abruptMove p data free).syncSpares p

def execLaneAbruptLoss (p : Nat) (positions : List Nat) (s : State) : Host.Outcome State Fault Refusal :=
  .next (if p ≥ 18 ∨ s.rd (Obj.linkState p) ≠ linkUp then s else s.abruptLoss p positions)

/-! ## Training -/

/-- TRAINING_SIGNAL_DETECTED (training step 1 to 2): a laser swap that waited for training is made first (R239). -/
def execTrainingSignalDetected (p positions : Nat) (s : State) : Host.Outcome State Fault Refusal :=
  let l := s.link p
  if p ≥ 18 ∨ l.train ≠ 1 ∨ !s.trains p ∨ positions < 16 then .next s
  else
    let s := (s.setLink p { l with train := 2 }).wr (Obj.linkState p) linkTraining
    match l.laserAtTrain with
    | some j => .next (if s.rd (Obj.laserState (p - 14) 9) = ustSpare then s.swapLaser (p - 14) j else s)
    | none => .next s

/-- EQUALISATION_DONE (step 2 to 3): training frames are exchanged. -/
def execEqualisationDone (p : Nat) (s : State) : Host.Outcome State Fault Refusal :=
  let l := s.link p
  .next (if p ≥ 18 ∨ l.train ≠ 2 then s else (s.setLink p { l with train := 3 }).emit (.train p s.pos (s.rd Obj.ownCatchment)))

/-- A far end in the form of `far_end` (R247). -/
def farWord (cat port pos : Nat) : Nat := cat % 65536 * 65536 + port % 32 * 256 + pos % 64

/-- Whether the far end is the one the wiring gives (R234, R243). -/
def State.wiringOk (s : State) (p farPos farCat farPrt : Nat) : Bool :=
  if p < 14 then farPos == farPosition s.pos p && farPrt == farPort s.pos p
  else farPos == s.pos && (match s.railExpect (p - 14) s.pos with
    | some c => c == farCat
    | none => true)

/-- The far end that the wiring gives. -/
def State.wiringWord (s : State) (p farCat : Nat) : Nat :=
  if p < 14 then farWord (s.rd Obj.ownCatchment) (farPort s.pos p) (farPosition s.pos p)
  else farWord ((s.railExpect (p - 14) s.pos).getD farCat) p s.pos

/-- Whether the positions that the frames name, by the position they arrive on, keep an order: a position that is not in service sends no frame, and its entry is 18 or above;
training needs frames of 16 (R218, R232). -/
def inOrder (want order : List Nat) : Bool :=
  order.length == 18 && decide (16 ≤ (order.filter (· < 18)).length) && (List.zip want order).all fun x => decide (18 ≤ x.2) || x.1 == x.2

/-- The order of positions is kept, or reversed as a whole (R218). -/
def keptOrder (order : List Nat) : Bool := inOrder (List.range 18) order
def reversedOrder (order : List Nat) : Bool := inOrder (List.range 18).reverse order

/-- TRAINING_FRAMES_CHECKED (step 3, R218, R234): the far end that the frames name, the far position that each arrives from, and the positions whose polarity is
inverted, which training corrects as it corrects a reversal of the whole order. -/
def execTrainingFramesChecked (p farPos farCatchment farPort : Nat) (order : List Nat) (inverted : Nat) (s : State) : Host.Outcome State Fault Refusal :=
  let l := s.link p
  if p ≥ 18 ∨ l.train ≠ 3 then .next s
  else
    let w := farWord farCatchment farPort farPos
    let s := s.wr (Obj.farEnd p) w
    if (keptOrder order ∨ reversedOrder order) ∧ s.wiringOk p farPos farCatchment farPort then
      .next (s.setLink p { l with train := 4, reversed := reversedOrder order, inverted := inverted })
    else
      let s := (s.setLink p { l with train := 0 }).wr (Obj.linkState p) linkMiswired
      .next (s.event 0x3003 0x05 p noCtx (s.wiringWord p farCatchment) w 0)

/-- Positions of a direction that pass step 4 of training. -/
def State.passing (s : State) (p dir : Nat) (bad : List Nat) : List Nat :=
  (List.range 18).filter fun i => (s.rd (Obj.laneState p i dir) == ustActive || s.rd (Obj.laneState p i dir) == ustSpare) && !bad.contains i

/-- Logical lanes of positions that are not ACTIVE move to SPARE positions. -/
def remapGo : List Nat → State → Nat → Nat → State
  | [], s, _, _ => s
  | k :: ks, s, p, dir =>
    let old := s.carrier p dir k
    let okOld := match old with
      | some i => s.rd (Obj.laneState p i dir) == ustActive
      | none => false
    if okOld then remapGo ks s p dir
    else match (List.range 18).find? fun i => s.rd (Obj.laneState p i dir) = ustSpare with
      | none => remapGo ks s p dir
      | some n =>
        let s := match old with
          | some i => s.setLogical p dir i 0xFF
          | none => s
        remapGo ks ((s.setLane p dir n ustActive).setLogical p dir n k) p dir

/-- Mark the positions that fail step 4 and map the logical lanes (training step 4). -/
def State.mapLanes (s : State) (p dir : Nat) (bad : List Nat) : State :=
  let s := (bad.filter fun i => decide (i < 18) && (s.rd (Obj.laneState p i dir) == ustActive || s.rd (Obj.laneState p i dir) == ustSpare)).foldl
    (fun s i => s.setLane p dir i ustDisabled) s
  remapGo (List.range 16) s p dir

/-- Step 5 of training: the link is UP with every credit returned (R223, R257). -/
def State.linkUpNow (s : State) (p : Nat) : State :=
  let l := s.link p
  let s := s.setLink p { LinkPort.init with
    rxQ := l.rxQ, relock := l.relock, enabling := l.enabling, laser9 := l.laser9, wornTold := l.wornTold, reversed := l.reversed, inverted := l.inverted, fixed := l.fixed, fixedLast := l.fixedLast,
    rxPower := l.rxPower }
  let s := { s with router := { s.router with poolDebt := msetD s.router.poolDebt p 0 (248 * s.lostBanks p) } }
  let s := (s.wr (Obj.linkState p) linkUp).event 0x3002 0x05 p noCtx (s.rd (Obj.farEnd p)) 0 0
  s.agentLinkUp p

/-- The check of positions that relock on laser 9 (R239): those that pass are SPARE, the others DISABLED. -/
def State.relocked (s : State) (p : Nat) (bad : List Nat) : State :=
  let l := s.link p
  (l.relock.foldl (fun (s : State) i => s.setLane p 0 i (if bad.contains i then ustDisabled else ustSpare)) (s.setLink p { l with relock := [] })).syncSpares p

/-- A retrained position that passes (R242): with its link UP it takes its logical lane back by a substitution, and with the link down in the recorded map; the spare
that served the lane becomes SPARE. A position whose lane nothing else serves becomes SPARE. -/
def State.returnLane (s : State) (p i : Nat) : State :=
  match (if i < 16 then s.carrier p 1 i else none) with
  | none => (s.setLane p 1 i ustSpare).syncSpares p
  | some j =>
    let l := s.link p
    if s.rd (Obj.linkState p) = linkUp then
      (s.setLink p { l with subs := (l.subs.filter fun x => x.logical != i) ++ [⟨i, j, i, 1, ustSpare⟩] }).sendCtl p (l.flit 4 0 i 0xFF 0)
    else s.moveLane p 1 i j i ustSpare false

/-- The check of positions that an ENABLE retrains (R242): one that fails stays DISABLED. -/
def State.retrained (s : State) (p : Nat) (bad : List Nat) : State :=
  let l := s.link p
  (l.enabling.filter fun i => !bad.contains i && s.rd (Obj.laneState p i 1) == ustDisabled).foldl (fun s i => s.returnLane p i) (s.setLink p { l with enabling := [] })

/-- The error ratio that `lane_ber_limit` sets for a port, in errors per 10^12 bits (R247). -/
def State.berLimit (s : State) (p : Nat) : Nat := 10 ^ (12 - s.rd (Obj.laneBerLimit (if p < 14 then 0 else 1)))

/-- The positions whose measured error ratio is above the limit, or of which none was measured (training step 4). -/
def State.overLimit (s : State) (p : Nat) (ratios : List Nat) : List Nat :=
  (List.range 18).filter fun i => (ratios[i]?).all fun r => decide (s.berLimit p < r)

/-- BER_MEASURE_DONE (steps 4 and 5, R233): the pre-FEC error ratios of the transmit positions, as the far end reports them, and of the receive positions, held against
`lane_ber_limit`. With fewer than 16 passing positions in a direction the link stays DOWN and the positions keep their states. Outside training it is the check of positions
that relock or are enabled (R239, R242). This package's limit serves for both directions (DESIGN CHOICE). -/
def execBerMeasureDone (p : Nat) (tx rx : List Nat) (s : State) : Host.Outcome State Fault Refusal :=
  let badTx := s.overLimit p tx
  let badRx := s.overLimit p rx
  if p ≥ 18 then .next s
  else if (s.link p).train ≠ 4 then .next ((s.relocked p badTx).retrained p badRx)
  else
    let u := (s.relocked p badTx).retrained p badRx
    let tx := (u.passing p 0 badTx).length
    let rx := (u.passing p 1 badRx).length
    if tx < 16 ∨ rx < 16 then
      .next (((s.setLink p { s.link p with train := 0 }).wr (Obj.linkState p) linkDown).event 0x3007 0x05 p noCtx tx rx 0)
    else .next ((((u.mapLanes p 0 badTx).mapLanes p 1 badRx).syncSpares p).linkUpNow p)

/-- RETRAIN_INTERVAL_EXPIRY (R229, R233, R234): training that has not brought the link UP in an interval has failed, whatever its step, and starts again. -/
def execRetrainIntervalExpiry (p : Nat) (s : State) : Host.Outcome State Fault Refusal :=
  .next (if p < 18 ∧ s.rd (Obj.linkState p) ≠ linkUp ∧ s.trains p then s.startTraining p else s)

/-! ## Margins and lasers -/

/-- A worn laser (R239). Case 2 runs the steps of R236 for each lane of the pair: the copy starts here, and LANE_COPY_ALIGNED, LANE_MAP and LANE_SWITCH follow. The
spec names no message by which a transmitter asks for it: the copy stands for the request (DESIGN CHOICE). -/
def State.wornLaser (s : State) (e j : Nat) : State :=
  let p := 14 + e
  let l := s.link p
  let carrying := [2 * j, 2 * j + 1].filter fun i => s.rd (Obj.laneLogical p i 0) != 0xFF
  let todo := carrying.filter fun i => !(l.copies.any fun c => c.1 == s.rd (Obj.laneLogical p i 0))
  let free := (s.freeLanes p 0).filter fun i => i / 2 != j
  if s.rd (Obj.laserState e 9) ≠ ustSpare then
    if l.wornTold.contains j then s else (s.setLink p { l with wornTold := l.wornTold ++ [j] }).exhausted 0x07 (16 * e + j) 4 false
  else if carrying.isEmpty then s.swapLaser e j
  else if free.length ≥ todo.length ∧ s.rd (Obj.linkState p) = linkUp then
    s.setLink p { l with copies := l.copies ++ (todo.zip free).map fun c => (s.rd (Obj.laneLogical p c.1 0), c.2), laserAtTrain := none }
  else s.setLink p { l with laserAtTrain := some j }

/-- One position's reading, of an ACTIVE or SPARE position (R235, R236, R247). -/
def State.laneReading (s : State) (p : Nat) (r : LaneRead) : State :=
  let st := s.rd (Obj.laneState p r.pos 1)
  if r.pos ≥ 18 ∨ (st ≠ ustActive ∧ st ≠ ustSpare) then s
  else
    let s := (s.wr (Obj.laneBerEst p r.pos) (min r.ber (2 ^ 32 - 1))).wr (Obj.laneEyeMv p r.pos) r.eye
    if r.ber > s.berLimit p ∧ st = ustActive ∧ s.rd (Obj.linkState p) = linkUp then s.startSub p r.pos ustDisabled else s

/-- One laser's bias (R239): a swap follows at each measurement that finds the bias past the limit, so that one abandoned or a lowered limit is taken up (R247). -/
def State.biasReading (s : State) (e j v : Nat) : State :=
  let s := s.wr (Obj.laserBias e j) v
  if s.laserWorn e j then s.wornLaser e j
  else
    let l := s.link (14 + e)
    s.setLink (14 + e) { l with wornTold := l.wornTold.filter (· != j) }

/-- MARGIN_MEASURE (R235, R236, R239): the error ratios and eyes of the positions, with the corrected symbols counted in the second that ends; an optical engine's bias
currents and received power. -/
def execMarginMeasure (p : Nat) (lanes : List LaneRead) (bias : List Nat) (power : Int) (s : State) : Host.Outcome State Fault Refusal :=
  if p ≥ 18 then .next s
  else
    let l := s.link p
    let kept := l.fixed.filter fun c => s.rd (Obj.laneState p c.1 1) == ustActive || s.rd (Obj.laneState p c.1 1) == ustSpare
    let s := s.setLink p { l with fixed := [], fixedLast := kept, rxPower := if p < 14 then l.rxPower else power }
    let s := lanes.foldl (fun s r => s.laneReading p r) s
    .next (if p < 14 then s else ((List.range 10).zip bias).foldl (fun s b => s.biasReading (p - 14) b.1 b.2) s)

/-- LASER_FAIL: the lanes of the pair are lost, and laser 9 is switched in when it is SPARE (R239); without it the pair's SPARE positions are dark, and DISABLED
(DESIGN CHOICE). -/
def execLaserFail (e j : Nat) (s : State) : Host.Outcome State Fault Refusal :=
  if e ≥ 4 ∨ j ≥ 10 ∨ s.rd (Obj.laserState e j) = ustFailed ∨ s.rd (Obj.laserState e j) = ustRetired then .next s
  else
    let was := s.rd (Obj.laserState e j)
    let s := (s.goState (Obj.laserState e j) 0x07 (16 * e + j) ustFailed).addFail 0x07 (16 * e + j)
    let dark := if j = 9 then ((s.link (14 + e)).laser9.map fun k => [2 * k, 2 * k + 1]).getD [] else [2 * j, 2 * j + 1]
    let idle := dark.filter fun i => s.rd (Obj.laneState (14 + e) i 0) == ustSpare
    let unlit := fun (s : State) => (idle.foldl (fun s i => s.setLane (14 + e) 0 i ustDisabled) s).syncSpares (14 + e)
    .next (if j = 9 then (if was = ustSpare then s else (unlit s).exhausted 0x07 (16 * e + j) 4 false)
      else if s.rd (Obj.laserState e 9) = ustSpare then s.swapLaser e j else (unlit s).exhausted 0x07 (16 * e + j) 4 false)

/-! ## Control of ports and lanes -/

/-- A port's link goes down with the port itself: what remains is salvaged, and electrical idle is sent (R240, R241). -/
def State.portDown (s : State) (p : Nat) : State :=
  let up := s.rd (Obj.linkState p) = linkUp
  let s := ((s.wr (Obj.linkState p) linkDown).wr (Obj.rtAdmit p) 0).emit (.idle p)
  let s := (s.salvage p).1
  let s := s.setLink p { s.link p with train := 0 }
  if up then s.agentLinkLost p else s

/-- PORT_SERDES_FAIL (R241). -/
def State.failPort (s : State) (p : Nat) : State := ((s.goState (Obj.portState p) 0x05 p ustFailed).addFail 0x05 p).portDown p

def execPortSerdesFail (p : Nat) (s : State) : Host.Outcome State Fault Refusal :=
  .next (if p ≥ 18 ∨ s.rd (Obj.portState p) = ustFailed then s else s.failPort p)

/-- LANE_SERDES_FAIL (R242): a receive position that carried a lane is lost abruptly; a transmit position's lane is moved when the far receiver asks. -/
def execLaneSerdesFail (p dir i : Nat) (s : State) : Host.Outcome State Fault Refusal :=
  if p ≥ 18 ∨ dir ≥ 2 ∨ i ≥ 18 ∨ s.rd (Obj.laneState p i dir) = ustFailed then .next s
  else
    let carried := s.rd (Obj.laneLogical p i dir) ≠ 0xFF
    let s := (s.setLane p dir i ustFailed).syncSpares p
    .next (if dir = 1 ∧ carried ∧ s.rd (Obj.linkState p) = linkUp then s.abruptLoss p [i] else s)

/-- A disable command for a port (R27, R240, R241): packets already queued go on, and none is routed to it any more. -/
def State.disablePort (s : State) (p : Nat) : State × Nat :=
  let st := s.rd (Obj.portState p)
  if st = ustActive ∨ st = ustFenced then ((s.goState (Obj.portState p) 0x05 p ustQuiescing).wr (Obj.rtAdmit p) 0, rOk) else (s, rOk)

def execPortDisable (w : Who) (p : Nat) (s : State) : Host.Outcome State Fault Refusal :=
  .next (s.ctl w (isOpCus w) fun s => if p ≥ 18 then (s, rNoObject) else s.disablePort p)

/-- Nothing is queued for a port or kept by its link layer. -/
def State.portDrained (s : State) (p : Nat) : Bool := (s.link p).held.isEmpty && !(s.router.bufs.any fun e => e.jobs.any fun j => j.1 == p)

/-- The end of a port's grace, or of its work (R240). -/
def State.endPort (s : State) (p : Nat) : State := (s.goState (Obj.portState p) 0x05 p ustDisabled).portDown p

/-- An enable command for a port (R27, R241). -/
def State.enablePort (s : State) (p : Nat) : State × Nat :=
  let st := s.rd (Obj.portState p)
  if st = ustActive then (s, rOk)
  else if st ≠ ustDisabled then (s, rRefused)
  else (((s.goState (Obj.portState p) 0x05 p ustActive).wr (Obj.rtAdmit p) 0).startTraining p, rOk)

def execPortEnable (w : Who) (p : Nat) (s : State) : Host.Outcome State Fault Refusal :=
  .next (s.ctl w (isOpCus w) fun s => if p ≥ 18 then (s, rNoObject) else s.enablePort p)

/-- RETRAIN: a loss under R228 followed by training (R247). -/
def State.retrainPort (s : State) (p : Nat) : State × Nat :=
  if !s.trains p then (s, rRefused) else if s.rd (Obj.linkState p) = linkUp then (s.linkLoss p 3, rOk) else (s.startTraining p, rOk)

def execPortRetrain (w : Who) (p : Nat) (s : State) : Host.Outcome State Fault Refusal :=
  .next (s.ctl w (isOpCus w) fun s => if p ≥ 18 then (s, rNoObject) else s.retrainPort p)

/-- DISABLE of a receive position (R242): with the link down the lane moves in the recorded map, which the next training takes up. -/
def State.disableLane (s : State) (p i : Nat) : State × Nat :=
  let st := s.rd (Obj.laneState p i 1)
  if st = ustSpare then ((s.setLane p 1 i ustDisabled).syncSpares p, rOk)
  else if st ≠ ustActive then (s, rOk)
  else match (s.freeLanes p 1).head? with
    | none => (s.noLaneSpare p i (s.rd (Obj.laneLogical p i 1)), rRefused)
    | some n =>
      if s.rd (Obj.linkState p) = linkUp then (s.startSub p i ustDisabled, rOk)
      else (s.moveLane p 1 (s.rd (Obj.laneLogical p i 1)) i n ustDisabled false, rOk)

def execLaneDisable (w : Who) (p i : Nat) (s : State) : Host.Outcome State Fault Refusal :=
  .next (s.ctl w (isOpCus w) fun s => if p ≥ 18 ∨ i ≥ 18 then (s, rNoObject) else s.disableLane p i)

/-- ENABLE of a DISABLED receive position (R242): it is retrained, and waits for the check of training step 4. -/
def State.enableLane (s : State) (p i : Nat) : State × Nat :=
  let st := s.rd (Obj.laneState p i 1)
  let l := s.link p
  if st = ustActive ∨ st = ustSpare then (s, rOk)
  else if st ≠ ustDisabled then (s, rRefused)
  else (s.setLink p { l with enabling := l.enabling.filter (· != i) ++ [i] }, rOk)

def execLaneEnable (w : Who) (p i : Nat) (s : State) : Host.Outcome State Fault Refusal :=
  .next (s.ctl w (isOpCus w) fun s => if p ≥ 18 ∨ i ≥ 18 then (s, rNoObject) else s.enableLane p i)

end Sys2Proof.Machine
end

