-- ==== Sys2Proof/Machine/Power.lean ====
section
/-! DEFINITION. Rails, reset domains, known-answer outcomes, the effective cap, and the ways into STOPPING, FABRIC, PARKED and OFF (R345 to R353, R470, R473, R481 to
R484, R512). -/

namespace Sys2Proof.Machine

open Sys2Proof

/-! ## Rails and reset domains -/

/-- The rails raised at fabric start and on entry to STARTING, in the order of raising, by the subs of `rail_telemetry` (R512). -/
abbrev fabricRails : List Nat := [4, 6, 7, 12, 13]
abbrev computeRails : List Nat := [5, 8, 9, 10, 11, 0, 1, 2, 3]

/-- A rail is raised; the rails of AVS2 and AVS3 are set to their trim values (R362). -/
def State.raiseRail (s : State) (r : Nat) : State :=
  if s.boot.rails.contains r then s
  else
    let s := if 4 ≤ r ∧ r ≤ 7 then s.emit (.avs r (Config.trimSet r)) else s
    { s with boot := { s.boot with rails := s.boot.rails ++ [r] } }.emit (.rail r true)

def State.lowerRail (s : State) (r : Nat) : State :=
  if s.boot.rails.contains r then { s with boot := { s.boot with rails := s.boot.rails.filter fun (x : Nat) => x != r } }.emit (.rail r false) else s

def State.raiseRails (s : State) (l : List Nat) : State := l.foldl (fun s r => s.raiseRail r) s

/-- Rails are lowered in the reverse of the order in which they were raised (R512). -/
def State.lowerRails (s : State) (l : List Nat) : State := l.reverse.foldl (fun s r => s.lowerRail r) s

/-- A domain leaves reset: its generation rises and is confirmed, and its in-package links start anew (R482). -/
def State.leaveReset (s : State) (d : Nat) : State :=
  let g := (s.rd (Obj.resetGeneration d) + 1) % 65536
  let s := s.wr (Obj.resetGeneration d) g
  ({ s with boot := { s.boot with inReset := s.boot.inReset.filter (fun (x : Nat) => x != d), confirmed := mput s.boot.confirmed d g }
            d2d := s.d2d.filter fun p => d2dDomain p.1 != d } : State).measureDomain d

/-- A domain enters reset (R481, R483). -/
def State.enterReset (s : State) (d : Nat) : State :=
  if s.boot.inReset.contains d then s
  else { s with boot := { s.boot with inReset := s.boot.inReset ++ [d], confirmed := mdel s.boot.confirmed d } }

/-! ## Known-answer outcomes -/

/-- The outcome of one unit's known-answer run (R473): a RETIRED unit, and one that has failed twice, is not run; a FAILED unit that passes takes the state `back`. -/
def State.katUnit (s : State) (o : Obj) (cls unit back : Nat) (failed : Bool) : State :=
  let st := s.rd o
  if st = ustRetired ∨ (st = ustFailed ∧ 2 ≤ s.failsOf cls unit) then s
  else if failed then (s.goState o cls unit ustFailed).addFail cls unit
  else if st = ustFailed then (s.goState o cls unit back).mapNote cls unit else s

/-- Bring-up ends without reaching ice-out (R470). -/
def State.halt (s : State) (code result : Nat) : State :=
  let s := (s.wr Obj.bringupState 0x30).wr Obj.bringupResult (0x0200 + result)
  let s := (s.wr Obj.bringupElapsedMs s.upMs).event 0x0801 0x00 0 noCtx code result 0
  { s with boot := { s.boot with step := 0x30, held := false, runAll := false, retest := false, dead := s.boot.dead || decide (code ≤ 2) } }

/-! ## The effective cap -/

/-- Order sources (R350) by the codes of `cap_reason`. -/
abbrev crNone : Nat := 0
abbrev crSafety : Nat := 1
abbrev crSteward : Nat := 2
abbrev crHost : Nat := 3
abbrev crOrphan : Nat := 4
abbrev crFloor : Nat := 5

def State.host (s : State) : Nat := s.rd Obj.hostPowerRequest
def State.lowFlow (s : State) : Bool := s.steward.lowFlowTray || s.steward.lowFlowWh

/-- The limits in force, highest rank first (R350, R351). -/
def State.limits (s : State) : List (Nat × Nat) :=
  let w := s.steward
  let l := if s.lowFlow then [(crSafety, 1040)] else []
  let l := match w.orphanCap with
    | some c => l ++ [(crOrphan, c)]
    | none => if w.granted then l ++ [(crSteward, w.stewardCap)] else l
  if s.host = 0 then l else l ++ [(crHost, s.host)]

/-- The effective cap (R351). -/
def State.effCap (s : State) : Nat := s.limits.foldl (fun c l => min c l.2) 2600

/-- The source that `cap_reason` names (R351): orders that take the package down before caps, FLOOR while the latch is set, none where nothing lies below 2,600 W. -/
def State.capWhy (s : State) : Nat :=
  let w := s.steward
  if w.parkOrder ∨ w.thermalFabric then crSafety
  else if s.rd Obj.floorLatched = 1 then crFloor
  else if w.fabricOrder then crSteward
  else if s.host = 0 then crHost
  else if s.effCap = 2600 then crNone
  else match s.limits.find? fun l => l.2 == s.effCap with
    | some l => l.1
    | none => crNone

/-- The cap objects follow the orders; a fall is followed at once (R353), and the averages of R355 begin anew under a new cap. -/
def State.recap (s : State) : State :=
  let new := decide (s.rd Obj.capInForceW ≠ s.effCap)
  let s := (s.wr Obj.capInForceW s.effCap).wr Obj.capReason s.capWhy
  { s with steward := { s.steward with ramp := min s.steward.ramp s.effCap, msMw := if new then [] else s.steward.msMw } }

/-! ## Clocks and VTILE -/

def State.stepsOff (s : State) (die : Nat) : Nat := mgetD s.steward.thermalSteps die 0

/-- The clock of a die under a common clock, by its own temperature (R356, R359). -/
def State.dieClock (s : State) (die common : Nat) : Nat := max 600 (common - 25 * s.stepsOff die)

/-- The control point of a die, Tj,max − 5 °C (R359). -/
def controlPoint (die : Nat) : Int := if die = 5 then 90 else if die = 42 then 85 else if 6 ≤ die ∧ die ≤ 9 then 75 else 95

/-- Whether a die is above its control point (R359). -/
def State.hot (s : State) (die : Nat) : Bool :=
  match mget s.steward.temps die with
  | some t => decide (controlPoint die < t)
  | none => false

/-- A die's clock falls: it moves first, and VTILE follows to the value for that clock (R92, R358); a raise that waits is given up. -/
def State.lowerClock (s : State) (die mhz : Nat) : State :=
  ({ s with steward := { s.steward with raising := mdel s.steward.raising die } }.setClock die mhz).emit (.avs die mhz)

/-- A die's clock is to rise: VTILE first, and the clock moves when the regulator reports the value reached (R358). -/
def State.raiseClock (s : State) (die mhz : Nat) : State :=
  { s with steward := { s.steward with raising := mput s.steward.raising die mhz } }.emit (.avs die mhz)

/-- Lower the common clock. -/
def State.lowerClocks (s : State) (common : Nat) : State :=
  (List.range 4).foldl (fun s d => s.lowerClock d (min (s.rd (Obj.tileClockMhz d)) (s.dieClock d common))) s

/-- Raise the common clock; that of a die above its control point does not rise (R359). -/
def State.raiseClocks (s : State) (common : Nat) : State :=
  (List.range 4).foldl (fun s d => if s.hot d ∨ s.dieClock d common ≤ s.rd (Obj.tileClockMhz d) then s else s.raiseClock d (s.dieClock d common)) s

/-- The common clock: the highest of the four, each without the steps its own temperature takes, and as it will be once its VTILE is reached (R356). -/
def State.commonClock (s : State) : Nat :=
  (List.range 4).foldl (fun m d => max m (max (s.rd (Obj.tileClockMhz d)) (mgetD s.steward.raising d 0) + 25 * s.stepsOff d)) 600

/-- TILE_CLOCK_CHANGE (R91, R92, R356, R358 to R360): a die's clock falls to a step its own temperature or current requires, or rises, under R358, to at most its clock
under the common one; it does not rise while the floor latch is set, nor above the die's control point. -/
def execTileClockChange (die mhz : Nat) (s : State) : Host.Outcome State Fault Refusal :=
  .next (if 4 ≤ die ∨ mhz % 25 ≠ 0 ∨ mhz < 600 ∨ 1500 < mhz then s
    else if mhz ≤ s.rd (Obj.tileClockMhz die) then s.lowerClock die mhz
    else if s.rd Obj.pkgPowerState = pwrOn ∧ s.rd Obj.floorLatched ≠ 1 ∧ !s.hot die ∧ mhz ≤ s.dieClock die s.commonClock then s.raiseClock die mhz else s)

/-- The floor clock (R357). -/
def State.floorClocks (s : State) : State :=
  let s := s.lowerClocks 600
  { s with steward := { s.steward with ramp := min s.effCap 880 } }

/-! ## POWER_REPORT -/

/-- The lead of this package's tray (R376). -/
def State.trayOf (q : Nat) : Nat := 2 * (q / 8) + q % 8 / 4
def State.leadPos (s : State) : Nat := 8 * (s.pos / 8) + 4 * (s.pos % 8 / 4) + s.steward.leadCol % 4

def State.hottest (s : State) : Nat := s.steward.temps.foldl (fun m p => max m p.2.toNat) 0

/-- The payload of a POWER_REPORT (R370); the demand is a free value of the package (R368). -/
def State.powerBytes (s : State) (demand : Nat) : Bytes :=
  let w := s.steward
  let f := s.rd Obj.floorLatched % 2 + 2 * ofBool s.lowFlow + 4 * ofBool (w.thermalSteps.any fun p => p.2 != 0) + 8 * ofBool (!s.boot.pfailN)
  bytesOf [leBytes 2 (s.rd Obj.pkgPowerW), leBytes 2 demand, leBytes 2 s.host, leBytes 1 (s.rd Obj.pkgPowerState), leBytes 1 f, leBytes 1 s.hottest, zeros 7]

abbrev mgCapTable : Nat := 0x20
abbrev mgPowerReport : Nat := 0x21
abbrev mgSafety : Nat := 0x22
abbrev mgTraySensors : Nat := 0x23
abbrev mgTrayAlarm : Nat := 0x24

/-- Send a POWER_REPORT to the Wellhead and to the tray lead on both paths (R370). -/
def State.sendPower (s : State) : State :=
  if s.rd Obj.agentState = agStarting then s
  else
    let d := s.free 16
    let r := d.2.mkMsg mgPowerReport (d.2.rd Obj.capSequence) 0 (d.2.powerBytes (d.1 % 3101))
    let w := r.1.rd Obj.agentWellhead
    let s := if w = 0xFF then r.1 else r.1.sendBoth w r.2
    if s.leadPos = w then s else s.sendBoth s.leadPos r.2

/-! ## Stopping -/

/-- Every unit quiesces (R347): the tiles, the channels and the NIs, and the ports too where the package is to be PARKED. -/
def State.quiesceAll (s : State) (ports : Bool) : State :=
  let s := (List.range 1920).foldl (fun s n => (s.disableTile n).pace) s
  let s := (List.range 72).foldl (fun s c => if s.rd (Obj.teState c) = ustActive then (s.quiesceTe c).pace else s) s
  let s := (List.range 4).foldl (fun s i => if s.rd (Obj.niState i) = ustActive then s.quiesceNi i else s) s
  if ports then (List.range 18).foldl (fun s p => (s.disablePort p).1) s else s

/-- A package in STARTING or ON enters STOPPING (R345, R347, R403, R470); one already stopping goes on to PARKED where that is asked (R349). -/
def State.stop (s : State) (dest : Nat) : State :=
  let st := s.rd Obj.pkgPowerState
  if st = pwrStopping then
    if dest = pwrParked ∧ s.steward.stopTo ≠ pwrParked then
      let s := { s with steward := { s.steward with stopTo := pwrParked } }
      (List.range 18).foldl (fun s p => (s.disablePort p).1) s
    else s
  else if st = pwrStarting ∨ st = pwrOn then
    let s := if st = pwrStarting ∧ s.boot.step ≠ 0x30 then s.halt s.boot.step 8 else s
    let s := { s.wr Obj.pkgPowerState pwrStopping with steward := { s.steward with stopTo := dest, raising := [] } }
    let s := s.wr Obj.resourcesComplete 0
    (s.retireAll.abandonSwaps).quiesceAll (dest == pwrParked)
  else s

/-- Whatever still runs at the end of the grace ends, and every unit is DISABLED (R24, R347). Copies of tiles already issued are performed and complete with their own
statuses (R22, R25, R141), posts on their way find units that are DISABLED, and an image load ends with what it asked for. -/
def State.endAll (s : State) (ports : Bool) : State :=
  let off := fun (s : State) (o : Obj) (cls unit : Nat) => if s.rd o = ustFailed then s else s.goState o cls unit ustDisabled
  let s := (List.range 1920).foldl (fun s n =>
    let s := if s.rd (Obj.tileState n) = ustQuiescing then s.graceEndTile n
      else if s.rd (Obj.tileState n) = ustFrozen then ((s.clearTile n).setTile n { (s.clearTile n).tile n with frozen := none, heldDisable := false }).clearFreeze n else s
    (off (s.finishXfers n) (Obj.tileState n) 0x01 n).pace) s
  let s := (List.range 72).foldl (fun s c =>
    let s := if s.rd (Obj.teState c) = ustQuiescing then s.graceEndTe c
      else if s.rd (Obj.teState c) = ustFrozen then (s.teStopAll c .abortedDisabled).teDropQueue c .abortedDisabled else s
    (off s (Obj.teState c) 0x04 c).pace) s
  let s := (List.range 4).foldl (fun s i =>
    let s := if s.rd (Obj.niState i) = ustQuiescing then s.graceEndNi i else s
    off s (Obj.niState i) 0x0A i) s
  let s := ({ s with posts := [] } : State).postsDone s.posts .abortedDisabled causeDisabled
  let s := s.decs.foldl State.applyDec ({ s with decs := [] } : State)
  if ports then (List.range 18).foldl (fun s p => if s.rd (Obj.portState p) = ustQuiescing then s.endPort p else s) s else s

/-- Objects of the DRAM dies while their rails are down (R181, R184): no evacuation runs and no die has reported a temperature. -/
def State.dramOff (s : State) : State :=
  let s := s.mem.evacs.foldl (fun s e => s.wr (Obj.evacProgress e.stack e.old) 0xFF) s
  let s := (List.range 32).foldl (fun s st => (List.range 17).foldl (fun s k => s.clr (Obj.dramTempC st k)) s) s
  { s with steward := { s.steward with temps := s.steward.temps.filter fun p => decide (p.1 < 64) } }

/-- Page-map commands that still run end with the pages they release (R175). -/
def State.pageCmdsEnd (s : State) : State :=
  (List.range 64).foldl (fun s c => if s.rd (Obj.pageMapStatus c) / 256 = 1 then s.wr (Obj.pageMapStatus c) 0x0200 else s) s

/-- Tile SRAM and both tiers lose their contents, and the compute dies all their state (R347); rows given to spares stay so, and the errors of the last hour and day go on
counting (R176). -/
def State.loseCompute (s : State) : State :=
  let s := s.dramOff.pageCmdsEnd
  let s := { s with
    mem := { Mem.init with spared := s.mem.spared, ceTimes := s.mem.ceTimes, ueSeen := s.mem.ueSeen }
    tiles := [], posts := [], decs := [], jti := []
    chans := s.chans.filter fun p => decide (64 ≤ p.1) }
  let s := (List.range 64).foldl (fun s c =>
    let s := ((((s.clr (Obj.teSqBase c)).clr (Obj.teSqEntries c)).clr (Obj.teSqTail c)).clr (Obj.teSqHead c)).clr (Obj.teFreezeAddr c)
    (((s.clr (Obj.teCqBase c)).clr (Obj.teCqEntries c)).clr (Obj.teCqHead c)).clr (Obj.teCqTail c)) s
  [1, 2, 3, 4].foldl (fun s d => s.enterReset d) s

/-- FD and the optical engines lose their state: the router, the link layers and the NIs (R481). -/
def State.loseFabric (s : State) : State :=
  let jobs := s.ni.heldJobs
  let s := (List.range 18).foldl (fun s p => s.portDown p) s
  let worn := s.router.worn
  let s := { s with router := { s.router with bufs := [] } }
  let s := (List.range 23).foldl (fun s p => s.syncDepth p) (worn.foldl (fun s u => s.retireBank u) s)
  let s := { s with router := Router.init, links := [], ni := { NiSys.init with heldJobs := jobs }, mEgress := [] }
  let s := (List.range 2).foldl (fun s b => ((s.clr (Obj.routeBankState b)).clr (Obj.routeBankEpoch b)).clr (Obj.routeBankResident b)) s
  ((s.clr Obj.injectParity).clr Obj.clBufferFreeKib).enterReset 5

/-- H0 and H1 run in FABRIC, STARTING, ON and STOPPING alone (R431, R462): 2 while they do not, and down when they begin to. -/
def State.hostPorts (s : State) (v : Nat) : State := (List.range 2).foldl (fun s p => s.wr (Obj.mportLink p) v) s

/-- The rails of FABRIC fall, and the package is PARKED or OFF (R349, R512); an FD activation under way ends with them. -/
def State.fabricDown (s : State) (st : Nat) : State :=
  let s := { s with boot := { s.boot with fdReset := false, fdNew := false } }
  (((s.loseFabric).lowerRails fabricRails).hostPorts 2).wr Obj.pkgPowerState st

/-- STARTING is entered from FABRIC on a granted cap with a host request, whichever of the two comes last (R345, R353); bring-up begins at RAILS (R468), and a staged
compute-die image becomes the running one (R457). -/
def State.starting (s : State) : State :=
  if s.rd Obj.pkgPowerState ≠ pwrFabric ∨ !s.steward.granted ∨ s.steward.fabricOrder ∨ s.host = 0 ∨ s.steward.parkOrder ∨ s.steward.thermalFabric ∨
    s.rd Obj.agentState = agOrphan then s
  else
    let s := (s.wr Obj.pkgPowerState pwrStarting).wr Obj.bringupResult 0x0100
    { s with boot := { s.boot with step := 0x10, held := false, runAll := false, retest := false } }.activateFw 4

/-- The last unit is DISABLED or the grace is over (R347): the rails of the target state. -/
def State.stopDone (s : State) : State :=
  let park := s.steward.stopTo = pwrParked
  let s := ((s.endAll (decide park)).loseCompute).lowerRails computeRails
  let s := (List.range 4).foldl (fun s d => s.setClock d 600) s
  let s := if s.rd Obj.bringupState = 0x30 then s else s.wr Obj.bringupState 0x03
  let s := { s with boot := { s.boot with step := 3, held := false, runAll := false } }
  if park then (s.fabricDown pwrParked).recap else (s.wr Obj.pkgPowerState pwrFabric).recap.starting

/-- Whether a substitution is in steps 3 to 5, for which the rails wait (R102). -/
def State.substRuns (s : State) : Bool := s.tiles.any fun t => t.2.subst.any fun b => decide (3 ≤ b.step)

/-- STOP_COMPLETE (R347): the stop ends with its target's rails; a package in FABRIC that is ordered to park lowers the rest of its own (R349). -/
def execStopComplete (s : State) : Host.Outcome State Fault Refusal :=
  .next (if s.rd Obj.pkgPowerState = pwrStopping ∧ s.substRuns = false then s.stopDone
    else if s.rd Obj.pkgPowerState = pwrFabric ∧ s.steward.parkOrder then s.fabricDown pwrParked else s)

/-- Causes of a park, as `parkWhy` holds them. -/
abbrev pkLeak : Nat := 1
abbrev pkHub : Nat := 2
abbrev pkFlow : Nat := 3
abbrev pkRail : Nat := 4
abbrev pkTrip : Nat := 5
abbrev pkFd : Nat := 6

/-- A park in force is carried out (R349). In FABRIC the departing REPORT goes out first, and the rails fall at STOP_COMPLETE. -/
def State.parkGo (s : State) : State :=
  let known := s.steward.parkOrder
  let s := { s with steward := { s.steward with parkOrder := true } }.recap
  let st := s.rd Obj.pkgPowerState
  if st = pwrOff then s.wr Obj.pkgPowerState pwrParked
  else if st = pwrFabric then (if known then s else s.sendReport true)
  else s.stop pwrParked

/-- An order for PARKED with its cause (R349). -/
def State.park (s : State) (why : Nat) : State :=
  let l := s.steward.parkWhy
  { s with steward := { s.steward with parkWhy := if l.contains why then l else l ++ [why] } }.parkGo

/-- The orders in force are carried out (R351): a park, an order for FABRIC, or a cap. -/
def State.applyOrders (s : State) : State :=
  let s := s.recap
  if s.steward.parkOrder then s.parkGo
  else if s.steward.fabricOrder ∨ s.steward.thermalFabric ∨ s.host = 0 then s.stop pwrFabric else s

/-- Whether a cause of a park is over (R349, R359, R363, R377). -/
def State.causeOver (s : State) (why : Nat) : Bool :=
  if why = pkHub then !bit (s.rd Obj.trayStatus) 3
  else if why = pkFlow then !bit (s.rd Obj.trayStatus) 2
  else if why = pkRail then s.steward.railBad.isEmpty
  else if why = pkTrip then s.steward.temps.all fun p => decide (p.2 < controlPoint p.1)
  else true

/-- Whether a park may be released (R377, R380): its own causes are over, and every loop of the tray reads DRY. -/
def State.parkCleared (s : State) : Bool := s.rd Obj.trayStatus % 4 == 0 && s.steward.parkWhy.all s.causeOver

/-- PARK_RELEASE (R349, R377, R380): refused unless 1 is written to a PARKED package whose park may be released. After a halt at ROOT or MANAGER the fabric does not start
from OFF (R466, R470). -/
def State.releasePark (s : State) (v : Nat) : State × Nat :=
  if v ≠ 1 ∨ s.rd Obj.pkgPowerState ≠ pwrParked ∨ !s.parkCleared then (s, rRefused)
  else
    let s := { s with steward := { s.steward with parkOrder := false, parkWhy := [] }, boot := { s.boot with step := if s.boot.dead then 0x30 else 2 } }
    let s := if s.rd Obj.bringupState = 0x30 then s else s.wr Obj.bringupState 0x02
    ((s.wr Obj.pkgPowerState pwrOff).recap, rOk)

def execParkRelease (w : Who) (v : Nat) (s : State) : Host.Outcome State Fault Refusal :=
  .next (s.ctl w (isOpCus w) fun s => s.releasePark v)

/-- HOST_POWER_REQUEST (R351): 0 for FABRIC, or a ceiling of 900 to 2,600 W. -/
def State.hostOrder (s : State) (v : Nat) : State × Nat :=
  if v ≠ 0 ∧ (v < 900 ∨ 2600 < v) then (s, rOutOfRange) else ((s.wr Obj.hostPowerRequest v).applyOrders.starting, rOk)

def execHostPowerRequest (w : Who) (v : Nat) (s : State) : Host.Outcome State Fault Refusal :=
  .next (s.ctl w (isOpCus w) fun s => s.hostOrder v)

/-! ## FABRIC and STARTING -/

/-- Whether a reference clock is present (R477). -/
def State.hasRef (s : State) : Bool := s.boot.refA || s.boot.refB

/-- Ports of a package that starts its fabric are ACTIVE and train (R241, R468); at a bring-up a FAILED one that has failed once
alone is tried again (R473). -/
def State.startPorts (s : State) (bringup : Bool) : State :=
  (List.range 18).foldl (fun s p =>
    let s := if s.rd (Obj.portState p) = ustFailed ∧ (!bringup ∨ 2 ≤ s.failsOf 0x05 p) then s else s.goState (Obj.portState p) 0x05 p ustActive
    s.startTraining p) s

/-- The known-answer runs of FD and the optical engines (R472 to R474): a failed bank of a router input is replaced by the input's spare bank. -/
def State.fabricKat (s : State) (r : StepRes) : State :=
  let s := (List.range 184).foldl (fun s k => s.wr (Obj.rtBankCe (k / 8) (k % 8)) 0) s
  let s := (List.range 184).foldl (fun s k => s.katUnit (Obj.rtBankState (k / 8) (k % 8)) 0x08 k ustSpare (r.banks.contains k)) s
  let s := (List.range 23).foldl (fun s p =>
    let live := (List.range 8).filter fun b => s.rd (Obj.rtBankState p b) == ustActive
    if live.length < 7 then
      match (List.range 8).find? fun b => s.rd (Obj.rtBankState p b) == ustSpare with
      | some b => (s.goState (Obj.rtBankState p b) 0x08 (8 * p + b) ustActive).mapNote 0x08 (8 * p + b)
      | none => s
    else s) s
  let s := (List.range 64).foldl (fun s k => if k % 16 < 10 then s.katUnit (Obj.laserState (k / 16) (k % 16)) 0x07 k ustSpare (r.lasers.contains k) else s) s
  (List.range 4).foldl (fun s i => s.katUnit (Obj.niState i) 0x0A i ustActive (r.nis.contains i)) s

/-- The router inputs that hold fewer than seven passing banks (R476). -/
def State.banksShort (s : State) : Bool :=
  (List.range 23).any fun p => decide (((List.range 8).filter fun b => s.rd (Obj.rtBankState p b) == ustActive).length < 7)

/-- In FABRIC no master of the package works (R346). -/
def State.idleMasters (s : State) : State :=
  let s := (List.range 1920).foldl (fun s n => if s.rd (Obj.tileState n) = ustActive then (s.goState (Obj.tileState n) 0x01 n ustDisabled).pace else s) s
  (List.range 4).foldl (fun s i => if s.rd (Obj.niState i) = ustActive then s.goState (Obj.niState i) 0x0A i ustDisabled else s) s

/-- The test access port drives and floats lands in OFF and PARKED alone (R521). -/
def State.tapIdle (s : State) : State := { s with boot := { s.boot with tapDrive := false, tapFloat := false } }

/-- FD is up: its known-answer outcomes, the ports train and discovery begins; a router input short of banks halts the step (R468, R476). -/
def State.fabricUp (s : State) (r : StepRes) : State :=
  let s := (s.leaveReset 5).fabricKat r
  if s.banksShort then (((s.wr Obj.resourcesComplete 0).enterReset 5).lowerRails fabricRails).halt 3 7
  else
    let s := ((s.wr Obj.bringupState 0x03).wr Obj.bringupResult 0x0200).wr Obj.pkgPowerState pwrFabric
    let s := (s.hostPorts 0).idleMasters
    let s := if s.rd Obj.agentState = agStarting then s.wr Obj.agentState agDiscovering else s
    ((s.settleFw [1, 2]).startPorts true).recap

/-- Step FABRIC (R364 step 2, R468, R470): the fabric rails rise, FD leaves reset with its firmware, a staged image first becoming the running one (R457). A
failure leaves the package OFF; a new image that fails gives way to the previous slot, with which the step runs again (R459). -/
def State.fabricStep (s : State) (r : StepRes) : State :=
  let s := ({ s with boot := { s.boot with step := 3, held := false } }.tapIdle.raiseRails fabricRails).activateFw 3
  if !r.pass then (s.lowerRails fabricRails).halt 3 5
  else if r.fwOk then (s.settleFw [3]).fabricUp r
  else match s.fallback 3 with
    | none => (s.lowerRails fabricRails).halt 3 2
    | some s => { s.lowerRails fabricRails with boot := { (s.lowerRails fabricRails).boot with step := 2 } }

/-- The fabric starts from OFF once the always-on domain is up and a reference is present; without one the package waits in OFF (R364, R470). -/
def State.fabricStart (s : State) (r : StepRes) : State :=
  if s.rd Obj.pkgPowerState ≠ pwrOff ∨ s.steward.parkOrder ∨ s.boot.step ≠ 2 then s
  else if !s.hasRef then { s with boot := { s.boot with held := true } }
  else s.fabricStep r

/-- FABRIC_START_TIMER (R364 step 2). -/
def execFabricStartTimer (r : StepRes) (s : State) : Host.Outcome State Fault Refusal := .next (s.fabricStart r)

/-- A step in which everything passes. -/
def StepRes.good : StepRes := ⟨true, true, [], [], [], [], [], [], false⟩

/-! ## Readings -/

/-- One rail's telemetry (R380): mV, 0.1 A, °C and STATUS_WORD. -/
def railBytes (r : RailRead) : Bytes := bytesOf [leBytes 2 r.mv, leBytes 2 (r.ma / 100), leBytes 2 (ofInt 16 r.temp), leBytes 2 r.status]

/-- A regulator fault (R363): a bit of STATUS_WORD that tells of a fault (every bit but BUSY and OFF; PRESUMED from PMBus), no answer, or a rail out of tolerance. -/
def railFault (up : Bool) (r : RailRead) : Bool := !r.answered || (up && !r.inTol) || decide (r.status &&& 0xFF3F ≠ 0)

/-- A regulator fault places an order for PARKED, and in STARTING ends the step with RAIL (R363, R513). -/
def State.regFault (s : State) (rail status : Nat) : State :=
  let known := s.steward.railBad.contains rail
  let s := if known then s else (s.event 0x5003 0x0F rail noCtx status 0 0)
  let s := { s with steward := { s.steward with railBad := if known then s.steward.railBad else s.steward.railBad ++ [rail] } }
  let s := if s.rd Obj.pkgPowerState = pwrStarting ∧ s.boot.step ≠ 0x30 then s.halt s.boot.step 5 else s
  s.park pkRail

def execRegulatorFault (rail status : Nat) (s : State) : Host.Outcome State Fault Refusal :=
  .next (if rail < 16 then s.regFault rail status else s)

/-- Take one rail's reading. -/
def State.takeRail (s : State) (r : RailRead) : State :=
  if r.rail ≥ 16 then s
  else
    let s := if r.answered then
        { s.wro (Obj.railTelemetry r.rail) (railBytes r) with steward := { s.steward with railMw := mput s.steward.railMw r.rail (r.mv * r.ma / 1000) } }
      else s
    if railFault (s.boot.rails.contains r.rail) r then s.regFault r.rail r.status
    else { s with steward := { s.steward with railBad := s.steward.railBad.filter fun (x : Nat) => x != r.rail } }

/-- Package power now, in mW: the sum over all rails (R354). -/
def State.powerMw (s : State) : Nat := s.steward.railMw.foldl (fun a p => a + p.2) 0

/-- T_in (R378), in 0.01 °C: the higher of the tray's inlet sensor and the CDU supply temperature of the last CAP_TABLE. -/
def State.inletTemp (s : State) : Int :=
  let a := sext s.steward.inlet 16
  if s.steward.cduSupply = 0xFFFF then a else max a (sext s.steward.cduSupply 16)

/-- The model of a sensor, T_in + θ × P_die (R378). -/
def State.sensorModel (s : State) (k : Nat) : Int := s.inletTemp + Config.theta k * Config.dieShare (Config.sensorDie k) s.steward.railMw

/-- The neighbours of a sensor (R378): the others of its die, or the sensors of FD for an optical engine. -/
def neighbours (k : Nat) (l : List SensorRead) : List SensorRead :=
  let d := Config.sensorDie k
  if 6 ≤ d ∧ d ≤ 9 then l.filter fun t => Config.sensorDie t.sensor == 4 else l.filter fun t => t.sensor != k && Config.sensorDie t.sensor == d

/-- The value used for a sensor: its reading, or the highest of its neighbours and the model while it is SUSPECT and reads no more than the model (R378). -/
def State.sensorUsed (s : State) (l : List SensorRead) (t : SensorRead) : Int :=
  if s.steward.suspect.contains t.sensor ∧ t.temp ≤ s.sensorModel t.sensor then (neighbours t.sensor l).foldl (fun m x => max m x.temp) (s.sensorModel t.sensor) else t.temp

/-- The supervised temperatures of one poll (R359, R380): for each die of which a sensor was read, the hottest value used, in whole °C. -/
def State.dieTemps (s : State) (l : List SensorRead) : NMap Int :=
  l.foldl (fun m t =>
    let d := Config.sensorDie t.sensor
    let v := s.sensorUsed l t / 100
    mput m d (match mget m d with
      | some x => max x v
      | none => v)) []

/-- A die's supervised temperature; a die back at its control point takes back one step (R356). -/
def State.takeTemp (s : State) (die : Nat) (temp : Int) : State :=
  let s := if die < 6 then s.wr (Obj.dieTempC die) (ofInt 16 temp) else s
  let k := s.stepsOff die
  let w := s.steward
  { s with steward := { w with
    temps := mput w.temps die temp
    thermalSteps := if temp ≤ controlPoint die ∧ 0 < k then mput w.thermalSteps die (k - 1) else w.thermalSteps } }

/-- A trip order to FABRIC clears once every die reads below its control point (R359). -/
def State.thermalClear (s : State) : State :=
  if s.steward.thermalFabric ∧ s.steward.temps.all (fun p => decide (p.2 < controlPoint p.1)) then
    { s with steward := { s.steward with thermalFabric := false } }.recap.starting
  else s

/-- The mean of some readings, 0 of none. -/
def meanOf (l : List Nat) : Nat := l.foldl (· + ·) 0 / l.length

/-- The readings of one VTILE rail. -/
def State.ampsOf (s : State) (die : Nat) : List Nat := s.steward.msAmp.map fun a => a.getD die 0

/-- Whether an average of R355 is above its limit, taken over what has been read of its window so far: 3,100 W in 100 µs, 500 W above the cap and 3,100 W in 10 ms, the cap
in 100 ms, and 900 A in 10 ms and 700 A in 100 ms on a VTILE rail. -/
def State.overPower (s : State) : Bool :=
  let w := s.steward
  let c := 1000 * w.ramp
  decide (3100000 < meanOf w.polls) || decide (min (c + 500000) 3100000 < meanOf (w.msMw.take 10)) || decide (c < meanOf w.msMw) ||
    (List.range 4).any fun d => decide (9000 < meanOf ((s.ampsOf d).take 10) ∨ 7000 < meanOf (s.ampsOf d))

/-- The highest step that the cap followed and the VTILE limits allow, as the steward expects power and current to follow the clock (R355, R356); the floor clock meets
every cap (R357). -/
def State.topClock (s : State) : Nat :=
  (((List.range 37).map (1500 - 25 * ·)).find? fun c =>
    decide (Config.powerAt s.steward.railMw c ≤ 1000 * s.steward.ramp) && (List.range 4).all fun d => decide (Config.ampsAt s.steward.railMw d c ≤ 7000)).getD 600

/-- The common clock that the steward asks for (R355, R356): the highest that is allowed, none above the present one while package power is above the cap, and a step less
than that while an average is above its limit (DESIGN CHOICE: the rules give the limits, and no control law). -/
def State.wantClock (s : State) : Nat :=
  let cur := s.commonClock
  if s.overPower then max 600 (min s.topClock (cur - 25))
  else if 1000 * s.steward.ramp < s.powerMw then min s.topClock cur else s.topClock

/-- The steward holds the package to the cap it follows through the common clock and VTILE alone (R354 to R356). -/
def State.control (s : State) : State :=
  if s.rd Obj.pkgPowerState ≠ pwrOn ∨ s.rd Obj.floorLatched = 1 then s
  else
    let cur := s.commonClock
    let want := s.wantClock
    if want < cur then s.lowerClocks want else s.raiseClocks want

/-- AVS_TELEMETRY_POLL (R354, R359, R362, R378). -/
def execAvsTelemetryPoll (rails : List RailRead) (temps : List SensorRead) (s : State) : Host.Outcome State Fault Refusal :=
  let s := rails.foldl (fun s r => s.takeRail r) s
  let s := ((s.dieTemps temps).foldl (fun s t => s.takeTemp t.1 t.2) s).thermalClear
  let w := s.steward
  .next { s with steward := { w with pwrSum := w.pwrSum + s.powerMw, pwrN := w.pwrN + 1, polls := (s.powerMw :: w.polls).take 5 } }.control

/-- A millisecond that a die spends within 10 °C of its control point; a whole hour counts (R487) and lies in FL (R447). -/
def State.countHot (s : State) (die : Nat) : State :=
  match mget s.steward.temps die with
  | none => s
  | some t =>
    if t < controlPoint die - 10 then s
    else
      let n := mgetD s.steward.hotMs die 0 + 1
      if n < 3600000 then { s with steward := { s.steward with hotMs := mput s.steward.hotMs die n } }
      else
        let o := Obj.wearHoursHot die
        let s := { s with steward := { s.steward with hotMs := mput s.steward.hotMs die 0 } }.bumpSat o 32
        { s with boot := { s.boot with flReg := mput s.boot.flReg o.key (s.rd o) } }

/-- The key under which one reading of a rail is summed, by its place in `rail_telemetry`: 0 mV, 1 current, 2 temperature (raised by 1,000). -/
def railSum (rail i : Nat) : Nat := (Obj.railTelemetry rail).key * 4 + i

def State.addSum (s : State) (k v : Nat) : State := { s with ctxs := { s.ctxs with sums := mput s.ctxs.sums k (mgetD s.ctxs.sums k 0 + v) } }

/-- Readings of the present 100 ms, for their means (R399). -/
def State.sumUp (s : State) (watts : Nat) : State :=
  let s := (s.addSum 0 1).addSum Obj.pkgPowerW.key watts
  (List.range 16).foldl (fun s r =>
    let b := s.rdo (Obj.railTelemetry r)
    ((s.addSum (railSum r 0) (leAt b 0 2)).addSum (railSum r 1) (leAt b 2 2)).addSum (railSum r 2) (sext (leAt b 4 2) 16 + 1000).toNat) s

/-- PMBUS_POLL (R354, R362): every rail is read; the mean of the last millisecond is `pkg_power_w`, the energy grows by it, and the cap followed rises by its rate
(R353), not while the floor latch is set (R360). -/
def execPmbusPoll (rails : List RailRead) (s : State) : Host.Outcome State Fault Refusal :=
  let s := rails.foldl (fun s r => s.takeRail r) s
  let w := s.steward
  let mw := if w.pwrN = 0 then s.powerMw else w.pwrSum / w.pwrN
  let amps := (List.range 4).map fun d => leAt (s.rdo (Obj.railTelemetry d)) 2 2
  let s := { s with steward := { w with pwrSum := 0, pwrN := 0, msMw := (mw :: w.msMw).take 100, msAmp := (amps :: w.msAmp).take 100
                                        ramp := min s.effCap (if s.rd Obj.floorLatched = 1 then w.ramp else w.ramp + s.rd Obj.riseRateWPerMs) } }
  let s := (List.range 6).foldl (fun s d => s.countHot d) s
  .next (((s.wr Obj.pkgPowerW (mw / 1000)).bumpBy Obj.pkgEnergyMj (mw / 1000)).sumUp (mw / 1000))

/-- VTILE_REACHED (R358): the clock moves, unless the die has come above its control point meanwhile (R359). -/
def execVtileReached (die : Nat) (s : State) : Host.Outcome State Fault Refusal :=
  match mget s.steward.raising die with
  | none => .next s
  | some c =>
    let s := { s with steward := { s.steward with raising := mdel s.steward.raising die } }
    .next (if die < 4 ∧ s.rd Obj.pkgPowerState = pwrOn ∧ !s.hot die then s.setClock die c else s)

/-- THERMAL_STEP (R359): one step of 25 MHz down while the die is above its control point. -/
def execThermalStep (die : Nat) (s : State) : Host.Outcome State Fault Refusal :=
  match mget s.steward.temps die with
  | none => .next s
  | some t =>
    if die < 4 ∧ controlPoint die < t ∧ s.rd Obj.pkgPowerState = pwrOn then
      let c := max 600 (s.rd (Obj.tileClockMhz die) - 25)
      let s := { s with steward := { s.steward with thermalSteps := mput s.steward.thermalSteps die (min 36 (s.stepsOff die + 1)) } }
      .next (s.lowerClock die c)
    else .next s

/-- A tile of a compute die that trips (R99, R359): FAILED, without substitution. -/
def State.tripTile (s : State) (n : Nat) : State := if s.rd (Obj.tileState n) = ustFailed then s else (s.tileFails n).pace

/-- THERMAL_TRIP (R359, R523). A trip of MD or of FL, for which R359 states no action, is recorded alone. -/
def State.trip (s : State) (die reading : Nat) : State :=
  let s := s.event 0x5002 0x10 die noCtx reading 0 0
  let s := { s with steward := { s.steward with temps := mput s.steward.temps die ((reading / 100 : Nat) : Int) } }
  if die < 4 then
    let s := (List.range 480).foldl (fun s k => s.tripTile (480 * die + k)) (s.lowerRail die)
    { s with steward := { s.steward with thermalFabric := true } }.applyOrders
  else if die = 5 ∨ die = 42 then s
  else if die ≥ 10 then { s with steward := { s.steward with thermalFabric := true } }.applyOrders
  else s.park pkTrip

def execThermalTrip (die reading : Nat) (s : State) : Host.Outcome State Fault Refusal :=
  .next (if reading ≥ 100 * (controlPoint die + 15).toNat ∧ die < 43 then s.trip die reading else s)

/-! ## THROTTLE_N, PFAIL_N, TRAY_PRES_N and PMBUS_ALERT_N -/

/-- The floor latch is set (R360, R361): every tile clock falls to 600 MHz, VTILE follows, and a POWER_REPORT is sent; cause 1 is THROTTLE_N, 2 PFAIL_N. -/
def State.setFloor (s : State) (cause : Nat) : State :=
  let s := ((s.wr Obj.floorLatched 1).bump Obj.throttleEvents).floorClocks
  let s := { s with steward := { s.steward with floorSetNs := s.now } }.recap
  let s := (s.event 0x5001 0x00 0 noCtx cause 0 0).sendPower
  if s.isWh then s.beginAlert else s

/-- The floor latch clears, and clocks rise under the effective cap (R353, R360). -/
def State.clearFloor (s : State) : State := (s.wr Obj.floorLatched 0).recap

def execThrottleAssert (s : State) : Host.Outcome State Fault Refusal :=
  .next (if s.boot.throttleN then { s with boot := { s.boot with throttleN := false } }.setFloor 1 else s)

def execThrottleDeassert (s : State) : Host.Outcome State Fault Refusal := .next { s with boot := { s.boot with throttleN := true } }

/-- FLOOR_LATCH_TIMEOUT: no Wellhead is followed, and THROTTLE_N has been high for 100 ms (R360). -/
def execFloorLatchTimeout (s : State) : Host.Outcome State Fault Refusal :=
  .next (if s.boot.throttleN ∧ (s.rd Obj.agentWellhead = 0xFF ∨ s.rd Obj.agentState = agOrphan) then s.clearFloor else s)

/-- PFAIL_ASSERT (R361, R334, R499). -/
def execPfailAssert (s : State) : Host.Outcome State Fault Refusal :=
  .next (if s.boot.pfailN then
    let s := { s with boot := { s.boot with pfailN := false }, steward := { s.steward with pfailPend := true } }
    (((s.bump Obj.pfailEvents).setFloor 2).sendReport true).startFlush 1
  else s)

def execPfailDeassert (s : State) : Host.Outcome State Fault Refusal := .next { s with boot := { s.boot with pfailN := true } }

/-- PFAIL_CLEAR_TIMER (R361 step 3). -/
def execPfailClearTimer (s : State) : Host.Outcome State Fault Refusal :=
  .next (if s.steward.pfailPend ∧ s.boot.pfailN ∧ s.steward.railBad.isEmpty then
    { s with steward := { s.steward with pfailPend := false } }.stop pwrFabric
  else s)

/-- TRAY_PRES_DEASSERT (R334, R499). -/
def execTrayPresDeassert (s : State) : Host.Outcome State Fault Refusal :=
  .next (if s.boot.trayPresN then s
    else
      let s := { s with boot := { s.boot with trayPresN := true } }
      ((s.event 0x5005 0x14 (State.trayOf s.pos) noCtx 0 0 0).sendReport true).startFlush 2)

/-- PMBUS_ALERT: the line is an input; while it is low the package reads the status of every rail (R510). -/
def execPmbusAlert (asserted : Bool) (s : State) : Host.Outcome State Fault Refusal :=
  let s := { s with boot := { s.boot with pmbusAlertN := !asserted } }
  .next (if asserted then (List.range 16).foldl (fun s r => s.emit (.pmbus r)) s else s)

end Sys2Proof.Machine
end

