-- ==== Sys2Proof/Machine/Fd.lean ====
section
/-! DEFINITION. Quiescing to DISABLED, FD activation in FABRIC, fallback of firmware that does not start, and faults of dies and domains (R24, R28, R458, R459, R483,
R484). -/

namespace Sys2Proof.Machine

open Sys2Proof

/-! ## FD activation (R458) -/

/-- Work of FD's own masters ends with ABORTED_DISABLED, and FD is held in reset (R458 step 2, R483, R484). -/
def State.resetFd (s : State) : State :=
  let s := (List.range 4).foldl (fun s i => ((s.niStopAll i .abortedDisabled).niDropAll i .abortedDisabled causeDisabled).dropEgress i) s
  s.loseFabric

/-- Step 2 of R458, once every port has quiesced; the image that is loaded in step 3 stays STAGED (R505). -/
def State.fdNext (s : State) : State :=
  if s.boot.fdReset ∧ s.domUp 5 ∧ !((List.range 18).any fun p => s.rd (Obj.portState p) == ustQuiescing) then s.resetFd else s

/-- ACTIVATE_NOW (R458): accepted for FD firmware with an image staged, in FABRIC. -/
def State.activateNow (s : State) (e : Nat) : State :=
  if e ≠ 3 ∨ s.rd (Obj.fwState 3) ≠ fwStaged ∨ s.rd Obj.pkgPowerState ≠ pwrFabric ∨ s.boot.fdReset then s.fwResult e frNoImage
  else
    let s := ({ s with boot := { s.boot with fdReset := true, fdNew := true } }.fwResult e 0).sendReport true
    ((List.range 18).foldl (fun s p => (s.disablePort p).1) s).fdNext

def execFwActivateNow (w : Who) (e : Nat) (s : State) : Host.Outcome State Fault Refusal := .next (s.fwCtl w e fun s => (s.activateNow e, rOk))

/-- The image whose self-test has passed is the running one from now on (R505). -/
def State.fdStarts (s : State) : State := (if s.boot.fdNew then s.activateFw 3 else s).settleFw [3]

/-- FD leaves reset and is measured again, and the ports train (R458 step 4). -/
def State.fdBack (s : State) : State := ({ s with boot := { s.boot with fdReset := false, fdNew := false } }.leaveReset 5).startPorts false

/-- The image whose self-test has failed gives way to the previous slot, once and not below the floor (R459): a staged one to the image that still counts as running
(R505). -/
def State.fdFallback (s : State) : Option State :=
  let x := s.fwOf 3
  match x.staged with
  | some i =>
    if s.boot.fdNew then
      if fwSvn x.running.hdr < s.rd (Obj.fwSvnFloor 3) then none
      else
        let s := { s.setFw 3 { x with staged := none, previous := some i, fresh := false } with boot := { s.boot with fdNew := false } }
        some ((((s.wr (Obj.fwState 3) fwFailed).wr (Obj.fwStagedVersion 3) 0).bumpSat (Obj.fwFallbacks 3) 32).event 0x7C01 0x12 3 noCtx 3 (fwVersion x.running.hdr) 0)
    else s.fallback 3
  | none => s.fallback 3

/-- FD_SELFTEST_DONE (R458 steps 3 and 4, R459, R505): a new image that fails gives way to the previous slot, whose self-test follows; with none left the package goes OFF
and bring-up is halted. -/
def execFdSelftestDone (pass : Bool) (s : State) : Host.Outcome State Fault Refusal :=
  .next (if !s.boot.fdReset ∨ s.domUp 5 then s
    else if pass then s.fdStarts.fdBack
    else match s.fdFallback with
      | some s => s
      | none =>
        let s := { s with boot := { s.boot with fdReset := false, fdNew := false } }
        let st := s.rd Obj.pkgPowerState
        if st = pwrFabric then (s.fabricDown pwrOff).halt 3 2 else s.park pkFd)

/-- FD_FAULT (R484): FD is reset and started again; a second fault within an hour takes the package to PARKED. -/
def State.fdFault (s : State) : State :=
  let s := s.event 0x0840 0x00 0 noCtx 4 4 0
  let again := match s.boot.fdFaultNs with
    | some t => decide (s.now < t + 3600000000000)
    | none => false
  let s := { s with boot := { s.boot with fdFaultNs := some s.now } }
  if again then s.park pkFd else { s with boot := { s.boot with fdReset := true } }.resetFd

def execFdFault (s : State) : Host.Outcome State Fault Refusal := .next (if s.domUp 5 then s.fdFault else s)

/-- FW_START_TIMEOUT (R459, R470): security-core or manager firmware has not started 10 s after a cold reset. With another
security-core image the Alias key is another (R409). -/
def execFwStartTimeout (e : Nat) (s : State) : Host.Outcome State Fault Refusal :=
  .next (if (e = 1 ∨ e = 2) ∧ s.rd Obj.pkgPowerState = pwrOff ∧ s.boot.step ≤ 2 then
    match s.fallback e with
    | some s => if e = 1 then s.deriveKeys else s
    | none => s.halt e 2
  else s)

/-! ## Domain and die faults -/

/-- DOMAIN_FAULT_RESET: a domain enters reset because of a fault; accesses to it end with ABORTED_DISABLED from now on (R25, R483). -/
def execDomainFaultReset (d : Nat) (s : State) : Host.Outcome State Fault Refusal :=
  .next (if d = 0 ∨ d > 5 ∨ !s.domUp d then s else if d = 5 then s.resetFd else s.enterReset d)

/-- COMPUTE_DIE_FAULT (R481, R484): unit 1 is a mesh station, 2 a die cache, 3 the PLL. The SAFETY order ends as it is carried
out: no rule says what would clear it (DESIGN CHOICE). -/
def execComputeDieFault (die unit : Nat) (s : State) : Host.Outcome State Fault Refusal :=
  .next (if die ≥ 4 ∨ unit = 0 ∨ unit > 3 ∨ !s.domUp (die + 1) then s
    else ((s.event 0x0840 0x00 0 noCtx die unit 0).enterReset (die + 1)).stop pwrFabric)

/-! ## The end of quiescing -/

/-- QUIESCE_GRACE_END (R24 step 3, R96, R207, R240, R310, R453): a tile frozen while it quiesced notes the end, which acts when it is released (R27). -/
def State.graceEnd (s : State) (u : UnitRef) : State :=
  match u with
  | .tile n =>
    if s.rd (Obj.tileState n) = ustQuiescing then s.graceEndTile n
    else if ((s.tile n).frozen.map (·.wasQuiescing)).getD false then s.setTile n { s.tile n with graceOver := true } else s
  | .te c => if s.rd (Obj.teState c) = ustQuiescing then s.graceEndTe c else s
  | .ni i => if s.rd (Obj.niState i) = ustQuiescing then s.graceEndNi i else s
  | .port p => if s.rd (Obj.portState p) = ustQuiescing then (s.endPort p).fdNext else s
  | .mbx m =>
    if s.rd (Obj.mbxState m) = ustQuiescing then (s.receiverGone m .abortedDisabled causeDisabled).goState (Obj.mbxState m) 0x0C m ustDisabled else s

def execQuiesceGraceEnd (u : UnitRef) (s : State) : Host.Outcome State Fault Refusal := .next (s.graceEnd u)

/-- QUIESCE_DRAINED (R24 step 4): the last completion has been delivered, and the unit is DISABLED. -/
def State.drained (s : State) (u : UnitRef) : State :=
  match u with
  | .tile n => if s.rd (Obj.tileState n) = ustQuiescing ∧ s.tileDrained n then s.goState (Obj.tileState n) 0x01 n ustDisabled else s
  | .te c => if s.rd (Obj.teState c) = ustQuiescing ∧ (s.chan c).drained then s.goState (Obj.teState c) 0x04 c ustDisabled else s
  | .ni i => if s.rd (Obj.niState i) = ustQuiescing then s.endNi i else s
  | .port p => if s.rd (Obj.portState p) = ustQuiescing ∧ s.portDrained p then (s.endPort p).fdNext else s
  | .mbx m => if s.rd (Obj.mbxState m) = ustQuiescing ∧ (s.mbox m).queue.isEmpty then s.goState (Obj.mbxState m) 0x0C m ustDisabled else s

def execQuiesceDrained (u : UnitRef) (s : State) : Host.Outcome State Fault Refusal := .next (s.drained u)

/-- QUIESCE_FAIL_ABORT (R28): a unit fails while QUIESCING; a mailbox has no failed state. -/
def State.failQuiescing (s : State) (u : UnitRef) : State :=
  match u with
  | .tile n => if s.rd (Obj.tileState n) = ustQuiescing then s.failTile n else s
  | .te c => if s.rd (Obj.teState c) = ustQuiescing then s.failTe c else s
  | .ni i => if s.rd (Obj.niState i) = ustQuiescing then s.failNi i else s
  | .port p => if s.rd (Obj.portState p) = ustQuiescing then (s.failPort p).fdNext else s
  | .mbx _ => s

def execQuiesceFailAbort (u : UnitRef) (s : State) : Host.Outcome State Fault Refusal := .next (s.failQuiescing u)

end Sys2Proof.Machine
end

