-- ==== Sys2Proof/Machine/Trust.lean ====
section
/-! DEFINITION. The security core: job keys, activation, sealed weights, reports, and the records and keys that may be written (R407, R412 to R428). -/

namespace Sys2Proof.Machine

open Sys2Proof

/-- RNG_HEALTH_FAIL (R407). -/
def execRngHealthFail (s : State) : Host.Outcome State Fault Refusal :=
  .next (if s.rd Obj.rngHealth = 1 then s else (s.wr Obj.rngHealth 1).event 0x6801 0x00 0 noCtx 0 0 0)

/-- `n` fresh random bytes (R407). -/
def State.random (s : State) (n : Nat) : Bytes × State := (Config.random s.fresh n, { s with fresh := s.fresh + 1 })

/-- Whether the package has an identity: its keys exist (R408). -/
def State.hasIdentity (s : State) : Bool := s.rd Obj.identityState == 0

/-! ## Security commands (R419 to R424) -/

abbrev scOk : Nat := 0
abbrev scMalformed : Nat := 1
abbrev scEvidence : Nat := 2
abbrev scPolicy : Nat := 3
abbrev scNoSlot : Nat := 4
abbrev scStale : Nat := 5
abbrev scNotSynced : Nat := 6
abbrev scNotBound : Nat := 7
abbrev scAuth : Nat := 8
abbrev scRng : Nat := 9
abbrev scRetired : Nat := 0xA
abbrev scWindow : Nat := 0xB

/-- A session on SB of an unowned package may write the authority record alone of area 68 (R414). -/
def State.sbUnowned (s : State) (session : Nat) : Bool :=
  allZero (slice s.sec.arForce 8 64) && ((s.session? session).map fun x => x.port == 2).getD false

/-- A command that meets a tile in steps 2 to 4 of a substitution waits, BUSY, until step 4 admits its accesses (R100). -/
abbrev scHeld : Nat := 0x100

/-- The address check of a context address (R193). -/
def scBadAddr (a : Nat) : Bool := teBadAddr a

/-- Read context memory as a TE master; a failed check ends the command with WINDOW (R419), and so does data that cannot be read (DESIGN CHOICE). -/
def State.scRead (s : State) (c a n : Nat) : Except Nat Bytes :=
  let r := s.read c .te permRead (teLoc c a) n
  if s.heldHit < r.s.heldHit then .error scHeld else if r.st = .ok then .ok r.data else .error scWindow

/-- Write context memory as a TE master (R419). -/
def State.scWrite (s : State) (c a : Nat) (d : Bytes) : State × Nat :=
  let r := s.write c .te permWrite (teLoc c a) d
  (r.s, if s.heldHit < r.s.heldHit then scHeld else if r.st = .ok then scOk else scWindow)

/-- An EMPTY key slot of a context (R299). -/
def State.emptySlot (s : State) (c : Nat) : Option Nat := (List.range 4).find? fun k => s.slotSt c k == slotEmpty

/-- A key is loaded into a slot as RX_ONLY; the message counters of the slot start at 0 (R291, R420). -/
def State.loadKey (s : State) (c k epoch : Nat) (key : Bytes) : State :=
  let s := s.setSlot c k slotRxOnly
  let i := 4 * c + k
  let s := { s with sec := { s.sec with slotKeys := mput s.sec.slotKeys i key, slotEpochs := mput s.sec.slotEpochs i epoch }
                    ni := { s.ni with msgIds := (List.range 4).foldl (fun m n => mdel m (4 * (64 * n + c) + k)) s.ni.msgIds } }
  s.wr (Obj.keyEpochHigh c) epoch

/-- The tenant image key that a context names (R412). -/
def State.tenantKey (s : State) (c : Nat) : Option Bytes :=
  match mget s.ctxs.imageKey c with
  | some k => if k < 8 then some (s.rdo (Obj.tenantImageKey k)) else none
  | none => none

/-- Its digest: zero when the context names none (R426). -/
def State.tenantDigest (s : State) (c : Nat) : Bytes :=
  match s.tenantKey c with
  | some k => keyDigest k
  | none => zeros 32

/-- `rpt_code_digest` of a context (R426). -/
def State.codeDigest (s : State) (c : Nat) : Bytes :=
  sha256 (((mgetD s.sec.images c []).map (·.digest)).flatten ++ s.tenantDigest c ++ [BitVec.ofNat 8 (ofBool (s.confidential c))])

/-- The parts of evidence (R418): the report and the certificates that follow it. -/
def evReport (e : Bytes) : Bytes := e.take (leAt e 6 2)
def evCerts (e : Bytes) : Bytes := e.drop (leAt e 6 2)

/-- Peer check 1: the chain and the report's signature (R418, R426). -/
def evSigned (e : Bytes) : Bool :=
  let r := evReport e
  let n := r.length - 64
  decide (288 ≤ r.length) && decide (leAt r 0 4 = 0x31545052) && Config.certOk (evCerts e) &&
    ecVerify (Config.certKey (evCerts e)) (sha256 (r.take n)) (r.drop n)

/-- Peer checks 2 and 3 (R418). -/
def State.evPolicy (s : State) (c : Nat) (e : Bytes) : Bool :=
  bit (byteAt e 11) 0 == s.confidential c && (!s.confidential c || (slice e 160 32 == s.codeDigest c && decide (byteAt e 8 ≠ 2)))

def evKey (e : Bytes) : Bytes := slice e 64 64

def State.peerCheck (s : State) (c : Nat) (e : Bytes) : Nat := if !evSigned e then scEvidence else if !s.evPolicy c e then scPolicy else scOk

/-- The key that wraps a job key for a recipient: ECDH, then HKDF (Key bundle). -/
def jobKek (secret recipient jobEpoch : Bytes) : Bytes := hkdf secret recipient (txtJobKey ++ jobEpoch) 32

/-- One key bundle (264 bytes). -/
def State.bundle (s : State) (c epoch : Nat) (key : Bytes) (e : Bytes) : State × Bytes :=
  let r1 := s.random 32
  let eph := privOf r1.1
  let r2 := r1.2.random 12
  let s := r2.2
  let to_ := keyDigest (evKey e)
  let je := leBytes 2 (s.rd (Obj.niJob c)) ++ leBytes 4 epoch
  let head := leBytes 2 1 ++ je ++ ecPub eph ++ to_ ++ keyDigest (s.rdo (Obj.ctxXkeyPub c))
  let sealed := gcmSeal (jobKek (ecdh eph (evKey e)) to_ je) r2.1 (fit 136 head) key
  let body := fit 136 head ++ r2.1 ++ fit 48 sealed ++ zeros 4
  (s, body ++ fit 64 (ecSign s.sec.aliasPriv (sha256 body)))

/-- The evidence of each recipient in list order: the first failure, or all of it (R420). -/
def State.recipients (s : State) (c list : Nat) : Nat → Nat → Except Nat (List Bytes)
  | 0, _ => .ok []
  | n + 1, i =>
    match s.scRead c (list + 16 * i) 16 with
    | .error x => .error x
    | .ok r =>
      if leAt r 12 4 ≠ 0 ∨ scBadAddr (leAt r 0 8) then .error scMalformed
      else match s.scRead c (leAt r 0 8) (leAt r 8 4) with
        | .error x => .error x
        | .ok e =>
          let p := s.peerCheck c e
          if p ≠ scOk then .error p
          else match State.recipients s c list n (i + 1) with
            | .ok l => .ok (e :: l)
            | .error x => .error x

/-- KEYGEN (R420): the checks, then one key, one bundle for each recipient, and the key in a local slot. -/
def State.keygen (s : State) (c : Nat) (b : Bytes) : State × Nat :=
  let n := byteAt b 1
  let out := leAt b 16 8
  let epoch := leAt b 24 4
  if n < 1 ∨ n > 63 ∨ !allZero (slice b 2 6) ∨ !allZero (slice b 28 36) ∨ scBadAddr (leAt b 8 8) ∨ scBadAddr out then (s, scMalformed)
  else if s.rd (Obj.niJob c) = 0 then (s, scPolicy)
  else if epoch ≤ s.rd (Obj.keyEpochHigh c) then (s, scStale)
  else if s.rd Obj.rngHealth ≠ 0 then (s, scRng)
  else match s.emptySlot c with
    | none => (s, scNoSlot)
    | some k =>
      match State.recipients s c (leAt b 8 8) n 0 with
      | .error x => (s, x)
      | .ok l =>
        if (s.check c .te permWrite (teLoc c out) (264 * n)).isSome then (s, scWindow)
        else
          let r := s.random 32
          let m := l.foldl (fun (a : State × Bytes) e =>
            let x := a.1.bundle c epoch r.1 e
            (x.1, a.2 ++ x.2)) (r.2, [])
          let w := m.1.scWrite c out m.2
          if w.2 ≠ scOk then w else ((w.1.loadKey c k epoch r.1).bump Obj.keysGenerated, scOk)

/-- The key that signed a bundle, by its source (R421). -/
def State.bundleSigner (s : State) (c : Nat) (k : Bytes) (evAddr evLen : Nat) : Except Nat Bytes :=
  if evLen = 0 then
    match s.tenantKey c with
    | none => .error scPolicy
    | some t => if slice k 104 32 = keyDigest t then .ok t else .error scPolicy
  else match s.scRead c evAddr evLen with
    | .error x => .error x
    | .ok e =>
      let p := s.peerCheck c e
      if p ≠ scOk then .error p
      else if keyDigest (evKey e) ≠ slice k 104 32 then .error scPolicy else .ok (Config.certKey (evCerts e))

/-- IMPORT (R421). -/
def State.importKey (s : State) (c : Nat) (b : Bytes) : State × Nat :=
  if !allZero (slice b 1 7) ∨ !allZero (slice b 28 36) ∨ scBadAddr (leAt b 8 8) ∨ scBadAddr (leAt b 16 8) then (s, scMalformed)
  else match s.scRead c (leAt b 8 8) 264 with
    | .error x => (s, x)
    | .ok k =>
      let epoch := leAt k 4 4
      if leAt k 0 2 ≠ 1 ∨ !allZero (slice k 196 4) then (s, scMalformed)
      else if slice k 72 32 ≠ keyDigest (s.rdo (Obj.ctxXkeyPub c)) ∨ leAt k 2 2 ≠ s.rd (Obj.niJob c) then (s, scPolicy)
      else if epoch ≤ s.rd (Obj.keyEpochHigh c) then (s, scStale)
      else match s.emptySlot c with
        | none => (s, scNoSlot)
        | some n =>
          match s.bundleSigner c k (leAt b 16 8) (leAt b 24 4) with
          | .error x => (s, x)
          | .ok signer =>
            if !ecVerify signer (sha256 (k.take 200)) (slice k 200 64) then (s, scEvidence)
            else
              let kek := jobKek (ecdh (mgetD s.sec.xPriv c []) (slice k 8 64)) (slice k 72 32) (slice k 2 6)
              match gcmOpen kek (slice k 136 12) (k.take 136) (slice k 148 48) with
              | none => (s, scAuth)
              | some key => (s.loadKey c n epoch key, scOk)

/-- ACTIVATE (R422): accepted with PTP locked within 20 µs and T between 1 ms and 10 s ahead; an epoch that no RX_ONLY slot holds is POLICY (DESIGN CHOICE). -/
def State.activateKey (s : State) (c : Nat) (b : Bytes) : State × Nat :=
  let t := leAt b 8 8
  let epoch := leAt b 24 4
  if !allZero (slice b 1 7) ∨ !allZero (slice b 16 8) ∨ !allZero (slice b 28 36) then (s, scMalformed)
  else match (List.range 4).find? fun k => s.slotSt c k == slotRxOnly && mgetD s.sec.slotEpochs (4 * c + k) 0 == epoch with
    | none => (s, scPolicy)
    | some k =>
      let now := s.pkgTime
      if s.rd Obj.ptpState ≠ 1 ∨ 20000 < s.rd Obj.ptpOffsetAbsNs ∨ t < now + 1000000 ∨ now + 10000000000 < t then (s, scNotSynced)
      else ({ s with sec := { s.sec with actSlot := mput s.sec.actSlot c k } }.wr (Obj.activatePending c) t, scOk)

/-- KEY_ACTIVATION_TIME (R301, R422): package time has reached T. -/
def execKeyActivationTime (ctx : Nat) (s : State) : Host.Outcome State Fault Refusal :=
  .next (if ctx ≥ 64 ∨ s.rd (Obj.activatePending ctx) = 0 ∨ s.pkgTime < s.rd (Obj.activatePending ctx) then s
    else match mget s.sec.actSlot ctx with
      | none => s
      | some k =>
        let e := mgetD s.sec.slotEpochs (4 * ctx + k) 0
        let s := { s with sec := { s.sec with actSlot := mdel s.sec.actSlot ctx } }.switchSlot ctx k
        (s.wr (Obj.activatePending ctx) 0).event 0x6802 0x0D ctx ctx e 1 0)

/-! ## Weight bundles (R424) -/

def wbDevices (b : Bytes) : Nat := leAt b 6 2
def wbPayload (b : Bytes) : Nat := leAt b 8 8
def wbChunk (b : Bytes) : Nat := leAt b 16 4
def wbHead (b : Bytes) : Nat := 128 + 160 * wbDevices b

/-- What makes a weight bundle malformed. -/
def wbBad (b : Bytes) : Bool :=
  let c := wbChunk b
  decide (b.length < 192) || decide (leAt b 0 4 ≠ 0x31425755) || decide (leAt b 4 2 ≠ 1) || decide (wbDevices b < 1 ∨ 4096 < wbDevices b) ||
    decide (c < 65536 ∨ 4194304 < c ∨ 2 ^ Nat.log2 c ≠ c) || decide (1 < leAt b 20 4) || !allZero (slice b 88 40) ||
    ((List.range (wbDevices b)).any fun i => !allZero (slice b (128 + 160 * i + 156) 4)) || decide (b.length ≠ wbHead b + wbPayload b + 16 * cdiv (wbPayload b) c + 64)

/-- The device entry for a Binding key digest. -/
def wbEntry (b digest : Bytes) : Option Bytes :=
  ((List.range (wbDevices b)).map fun i => slice b (128 + 160 * i) 160).find? fun e => e.take 32 == digest

/-- Chunk `i` opened under the content key. -/
def wbOpen (b key : Bytes) (i : Nat) : Option Bytes :=
  let c := wbChunk b
  let n := min c (wbPayload b - c * i)
  gcmOpen key (zeros 4 ++ beBytes 8 i) (sha256 (b.take (wbHead b))) (slice b (wbHead b + (c + 16) * i) (n + 16))

/-- Write the chunks that the payload range covers; a chunk whose tag fails stops the command with AUTH (R424). -/
def State.unsealGo (s : State) (c : Nat) (b key : Bytes) : Nat → Nat → Nat → Nat → State × Nat
  | 0, _, _, _ => (s, scOk)
  | f + 1, i, dst, left =>
    if left = 0 then (s, scOk)
    else match wbOpen b key i with
      | none => (s, scAuth)
      | some p =>
        let d := p.take left
        let w := s.scWrite c dst d
        if w.2 ≠ scOk then w else State.unsealGo w.1 c b key f (i + 1) (dst + d.length) (left - d.length)

/-- UNSEAL (R424). -/
def State.unsealCmd (s : State) (c : Nat) (cmd : Bytes) : State × Nat :=
  let dst := leAt cmd 32 8
  let off := leAt cmd 40 8
  let len := leAt cmd 48 8
  if !allZero (slice cmd 1 7) ∨ !allZero (slice cmd 24 8) ∨ !allZero (slice cmd 56 8) ∨ scBadAddr (leAt cmd 8 8) ∨ scBadAddr dst then (s, scMalformed)
  else match s.scRead c (leAt cmd 8 8) (leAt cmd 16 8) with
    | .error x => (s, x)
    | .ok b =>
      if wbBad b ∨ off % wbChunk b ≠ 0 ∨ wbPayload b < off + len then (s, scMalformed)
      else match s.tenantKey c with
        | none => (s, scPolicy)
        | some t =>
          let n := b.length - 64
          if slice b 56 32 ≠ keyDigest t then (s, scPolicy)
          else if !ecVerify t (sha256 (b.take n)) (b.drop n) then (s, scEvidence)
          else if (bit (leAt b 20 4) 0 && !s.confidential c) || (!allZero (slice b 24 32) && slice b 24 32 != s.codeDigest c) then (s, scPolicy)
          else
            let me := keyDigest (s.rdo Obj.bindingPub)
            match (if s.hasIdentity then wbEntry b me else none) with
            | none => (s, scNotBound)
            | some e =>
              let kek := hkdf (ecdh s.sec.bindingPriv (slice e 32 64)) me txtWeights 32
              match gcmOpen kek (slice e 96 12) [] (slice e 108 48) with
              | none => (s, scAuth)
              | some key => State.unsealGo s c b key (cdiv len (wbChunk b) + 1) (off / wbChunk b) dst len

/-! ## A write of `sc_cmd` (R419, R423) -/

/-- What a command does, and its result. -/
def State.scPerform (s : State) (c : Nat) (b : Bytes) : State × Nat :=
  let op := byteAt b 0
  if op = 1 then s.keygen c b else if op = 2 then s.importKey c b else s.unsealCmd c b

/-- A command runs: `sc_status` reads BUSY until its result follows. Its effects stand at once (DESIGN CHOICE); one that meets a held tile has none yet. -/
def State.scStart (s : State) (c : Nat) (b : Bytes) : State :=
  let r := s.scPerform c b
  let t := if r.2 = scHeld then s else r.1
  { t with sec := { t.sec with scRuns := mput t.sec.scRuns c ⟨b, if r.2 = scHeld then none else some r.2⟩ } }.wr (Obj.scStatus c) 0x0100

/-- A write of `sc_cmd` with an op (R419, R430): by the context's Tenant or the Custodian; refused for sub 0, for a FREE context (DESIGN CHOICE), and while BUSY; of a context
that is being retired it completes with RETIRED at once. -/
def State.scCmd (s : State) (w : Who) (c op : Nat) (b : Bytes) (f : State → State) : State :=
  if byteAt b 0 ≠ op then s
  else s.ctl w ((isCus w || isTenant w c) && !s.sbUnowned w.session) fun s =>
    if c ≥ 64 then (s, rNoObject)
    else if b.length ≠ 64 then (s, rBadLength)
    else if c = 0 ∨ s.ctxSt c = ctxFree ∨ s.rd (Obj.scStatus c) / 256 = 1 then (s, rRefused)
    else if s.ctxSt c = ctxRetiring then (s.wr (Obj.scStatus c) (0x0200 + scRetired), rOk)
    else (f s, rOk)

/-- KEYGEN (R420). -/
def execKeygen (w : Who) (ctx : Nat) (cmd : Bytes) (s : State) : Host.Outcome State Fault Refusal :=
  .next (s.scCmd w ctx 1 cmd fun s => s.scStart ctx cmd)

/-- IMPORT (R421). -/
def execImport (w : Who) (ctx : Nat) (cmd : Bytes) (s : State) : Host.Outcome State Fault Refusal :=
  .next (s.scCmd w ctx 2 cmd fun s => s.scStart ctx cmd)

/-- ACTIVATE (R422) completes on acceptance. -/
def execActivate (w : Who) (ctx : Nat) (cmd : Bytes) (s : State) : Host.Outcome State Fault Refusal :=
  .next (s.scCmd w ctx 3 cmd fun s =>
    let r := s.activateKey ctx cmd
    r.1.wr (Obj.scStatus ctx) (0x0200 + r.2))

/-- UNSEAL (R424). -/
def execUnseal (w : Who) (ctx : Nat) (cmd : Bytes) (s : State) : Host.Outcome State Fault Refusal :=
  .next (s.scCmd w ctx 4 cmd fun s => s.scStart ctx cmd)

/-- The commands under way end with their results; one that waits for a tile is tried again (R100, R419). -/
def State.scFinish (s : State) : State :=
  s.sec.scRuns.foldl (fun s p => match p.2.due with
    | some k => { s with sec := { s.sec with scRuns := mdel s.sec.scRuns p.1 } }.wr (Obj.scStatus p.1) (0x0200 + k)
    | none => s.scStart p.1 p.2.cmd) s

/-! ## Records and keys -/

/-- The fields of an authority record (R414). -/
def arMode (r : Bytes) : Nat := byteAt r 2
def arCount (r : Bytes) : Nat := byteAt r 3
def arOwner (r : Bytes) : Bytes := slice r 8 64
def arDigest (r : Bytes) (i : Nat) : Bytes := slice r (72 + 32 * i) 32

/-- Whether the package is unowned (R414). -/
def State.unowned (s : State) : Bool := allZero (arOwner s.sec.arForce)

/-- What makes a record acceptable (R414). -/
def State.arOk (s : State) (r : Bytes) : Bool :=
  decide (leAt r 0 2 = 1) && decide (arMode r ≤ 1) && decide (arCount r ≤ 4) && ((List.range 4).all fun i => decide (i < arCount r) || allZero (arDigest r i)) &&
    allZero (slice r 200 56) && decide (leAt s.sec.arForce 4 4 < leAt r 4 4) &&
    ecVerify (if s.unowned then arOwner r else arOwner s.sec.arForce) (sha256 (r.take 256)) (slice r 256 64)

/-- AUTHORITY_RECORD_WRITE (R414): by the Custodian, or, while unowned, by any session on SB; it takes effect at the next cold reset. -/
def State.writeAr (s : State) (w : Who) (v : Bytes) : State × Nat :=
  if v.length ≠ 320 then (s, rBadLength)
  else if !s.arOk v then (s, rRefused)
  else
    let r := s.storeOct w Obj.authorityRecord v
    ({ r.1 with sec := { r.1.sec with arStored := v } }.wr Obj.authorityPending (if allZero (arOwner v) then 0 else arMode v), r.2)

def execAuthorityRecordWrite (w : Who) (v : Bytes) (s : State) : Host.Outcome State Fault Refusal :=
  let sb := ((s.session? w.session).map fun x => x.port == 2).getD false
  .next (s.ctl w (isCus w || (s.unowned && sb)) fun s => s.writeAr w v)

/-- TENANT_IMAGE_KEY_WRITE (R413). -/
def State.writeImageKey (s : State) (w : Who) (k : Nat) (v : Bytes) : State × Nat :=
  if k ≥ 8 then (s, rNoObject)
  else if v.length ≠ 64 then (s, rBadLength)
  else if (List.range 64).any fun c => s.ctxSt c != ctxFree && mget s.ctxs.imageKey c == some k then (s, rRefused)
  else s.storeOct w (Obj.tenantImageKey k) v

def execTenantImageKeyWrite (w : Who) (idx : Nat) (v : Bytes) (s : State) : Host.Outcome State Fault Refusal :=
  .next (s.ctl w (isOpCus w && !s.sbUnowned w.session) fun s => s.writeImageKey w idx v)

/-! ## Reports (R425 to R428) -/

/-- `rpt_state` (R427). -/
def State.rptState (s : State) : Nat :=
  if !s.boot.inReset.isEmpty then 2 else if [1, 2, 3, 4].any fun e => s.rd (Obj.fwState e) == fwStaged then 1 else 0

/-- A measurement entry (R425, R427). -/
def State.measBytes (s : State) (pending : Bool) (m : Meas) : Bytes :=
  bytesOf [leBytes 1 m.kind, leBytes 1 m.domain, leBytes 1 (ofBool pending + 2 * ofBool (!pending && !s.domUp m.domain)), [0], leBytes 4 m.svn, zeros 8, fit 32 m.digest]

/-- A pending entry for each domain of each staged image (R426, R427). -/
def State.pendingMeas (s : State) : List Meas :=
  ([1, 2, 3, 4].filter fun e => s.rd (Obj.fwState e) == fwStaged).flatMap fun e =>
    match (s.fwOf e).staged with
    | some i => (fwDomains e).map fun d => ⟨fwKind e, d, fwSvn i.hdr, i.digest⟩
    | none => []

/-- The entries of a context report after the package's (R426). -/
def State.ctxMeas (s : State) (c : Nat) : List Meas :=
  mgetD s.sec.images c [] ++ (if s.confidential c then [⟨0x11, 0, mgetD s.sec.commits c 0, mgetD s.sec.chains c (zeros 32)⟩] else [])

/-- A vendor report of a context, or of the package (R426). -/
def State.report (s : State) (ctx : Option Nat) (nonce : Bytes) : Bytes :=
  let run := s.sec.pkg
  let entries := (run.map (s.measBytes false)) ++ (s.pendingMeas.map (s.measBytes true)) ++ (match ctx with
    | some c => (s.ctxMeas c).map (s.measBytes false)
    | none => [])
  let n := entries.length
  let flags := match ctx with
    | some c => ofBool (s.confidential c) + 2 * ofBool (s.ctxSt c == ctxRetiring)
    | none => 0
  let code := match ctx with
    | some c => s.codeDigest c
    | none => sha256 ((run.map (·.digest)).flatten)
  let head := bytesOf [leBytes 4 0x31545052, leBytes 2 1, leBytes 2 (288 + 48 * n), leBytes 1 s.rptState, leBytes 1 (s.rd Obj.authorityMode), leBytes 1 (ctx.getD 0xFF),
    leBytes 1 flags, leBytes 2 n, zeros 2, leBytes 8 (s.rd Obj.serialNumber), leBytes 4 (s.rd Obj.bootCount),
    leBytes 4 ((ctx.map fun c => s.rd (Obj.protEpoch c)).getD 0), fit 32 nonce,
    fit 64 (match ctx with | some c => s.rdo (Obj.ctxXkeyPub c) | none => s.rdo Obj.bindingPub),
    fit 32 ((ctx.map s.tenantDigest).getD (zeros 32)), fit 32 code, zeros 32]
  let body := head ++ entries.flatten
  body ++ fit 64 (ecSign s.sec.aliasPriv (sha256 body))

/-- The package report of a session (R428). -/
def State.pkgAttest (s : State) (session : Nat) (nonce : Bytes) : State :=
  match s.session? session with
  | none => s
  | some x =>
    if !s.hasIdentity then s.setSession { x with pkgStatus := 0x0204 }
    else (s.setSession { x with pkgReport := s.report none nonce, pkgStatus := 0x0200 }).bump Obj.attestRequests

/-- A request for a report joins the queue. -/
def State.attestAsk (s : State) (r : AttReq) : State := { s with sec := { s.sec with attest := s.sec.attest ++ [r] } }

/-- PKG_ATTEST_REQUEST (R428): in a session of any role, which alone sees the report. -/
def State.pkgAsk (s : State) (w : Who) (nonce : Bytes) : State × Nat :=
  if nonce.length ≠ 32 then (s, rBadLength)
  else match s.session? w.session with
    | none => (s, rOk)
    | some x => ((s.setSession { x with pkgStatus := 0x0100 }).attestAsk (.pkg w.session nonce), rOk)

def execPkgAttestRequest (w : Who) (nonce : Bytes) (s : State) : Host.Outcome State Fault Refusal :=
  .next (s.ctl w (decide (1 ≤ w.role) && decide (w.role ≤ 4)) fun s => s.pkgAsk w nonce)

/-- A context report, and its result (R427, R428). -/
def State.ctxAttest (s : State) (c : Nat) (v : Bytes) : State × Nat :=
  let a := leAt v 32 8
  if !allZero (slice v 40 8) then (s, 1)
  else if s.ctxSt c = ctxFree then (s, 2)
  else if !s.hasIdentity then (s, 4)
  else
    let r := s.report (some c) (v.take 32)
    if scBadAddr a ∨ (s.check c .te permWrite (teLoc c a) r.length).isSome then (s, 3)
    else
      let w := s.scWrite c a r
      if w.2 = scHeld then w else if w.2 ≠ scOk then (w.1, 3) else (w.1.bump Obj.attestRequests, 0)

/-- CTX_ATTEST_REQUEST (R428): each context queues 4, and a fifth write is refused. -/
def State.ctxAsk (s : State) (c : Nat) (v : Bytes) : State × Nat :=
  if c ≥ 64 then (s, rNoObject)
  else if v.length ≠ 48 then (s, rBadLength)
  else if 4 ≤ (s.sec.attest.filter fun r => match r with | .ctx k _ => k == c | _ => false).length then (s, rRefused)
  else ((s.attestAsk (.ctx c v)).wr (Obj.ctxAttestStatus c) 0x0100, rOk)

def execCtxAttestRequest (w : Who) (ctx : Nat) (v : Bytes) (s : State) : Host.Outcome State Fault Refusal :=
  .next (s.ctl w (isOpCus w || isTenant w ctx) fun s => s.ctxAsk ctx v)

/-- A request at the head of its queue is answered (R427); one whose report meets a held tile waits (R100). -/
def State.attestDo (s : State) (r : AttReq) : Option State :=
  match r with
  | .pkg sid nonce => some (s.pkgAttest sid nonce)
  | .ctx c v =>
    let x := s.ctxAttest c v
    if x.2 = scHeld then none else some (x.1.wr (Obj.ctxAttestStatus c) (0x0200 + x.2))

/-- The context that a request names. -/
def AttReq.ctx? : AttReq → Option Nat
  | .pkg _ _ => none
  | .ctx c _ => some c

/-- The first request that can be answered, with those before it, is answered; behind one that waits, the same context's wait too. -/
def State.attestFrom (s : State) (before : List AttReq) : List AttReq → State
  | [] => s
  | r :: rest =>
    match (if before.any fun b => b.ctx?.isSome && b.ctx? == r.ctx? then none else s.attestDo r) with
    | none => s.attestFrom (before ++ [r]) rest
    | some t => { t with sec := { t.sec with attest := before ++ rest } }

/-- One report is made (R427). -/
def State.attestServe (s : State) : State := s.attestFrom [] s.sec.attest

end Sys2Proof.Machine
end

