-- ==== Sys2Proof/Machine/Manage.lean ====
section
/-! DEFINITION. READ, WRITE and NEXT over the dictionary (R440 to R449), with the coarsened readings of R399 and the aliases of R461. -/

namespace Sys2Proof.Machine

open Sys2Proof

/-! ## Objects by number -/

/-- The integer object that a row holds at an entry and sub; defaults that depend on the unit are those of the named objects. -/
def objAt (r : DictRow) (e sub : Nat) : Obj :=
  let d := e - r.base
  if r.area = 0x10 ∧ r.base = 0x4000 ∧ sub = 2 then Obj.tileSite d
  else if r.area = 0x10 ∧ r.base = 0x5000 then (if sub = 0 then Obj.siteState d else Obj.siteLogical d)
  else if r.area = 0x20 ∧ r.base = 0x40 then Obj.memFreeMib sub
  else if r.area = 0x20 ∧ r.base = 0x4000 ∧ sub = 0 then Obj.dramState (d / 32) (d % 32)
  else if r.area = 0x20 ∧ r.base = 0x4000 ∧ sub = 1 then Obj.dramLogical (d / 32) (d % 32)
  else if r.area = 0x28 ∧ r.base = 0x4000 ∧ sub = 2 then Obj.teOwner d
  else if r.area = 0x30 ∧ r.base = 0x11 then Obj.laneBerLimit sub
  else if r.area = 0x30 ∧ r.base = 0x4100 ∧ sub < 2 then Obj.laneState (d / 32) (d % 32) sub
  else if r.area = 0x30 ∧ r.base = 0x4100 ∧ sub < 4 then Obj.laneLogical (d / 32) (d % 32) (sub - 2)
  else if r.area = 0x30 ∧ r.base = 0x4400 ∧ sub = 0 then Obj.laserState (d / 16) (d % 16)
  else if r.area = 0x38 ∧ r.base = 0x4000 ∧ sub = 8 then Obj.rtAdmit d
  else if r.area = 0x38 ∧ r.base = 0x4400 ∧ sub = 0 then Obj.rtBankState (d / 8) (d % 8)
  else if r.area = 0x60 ∧ r.base = 0x102 then Obj.ctxState sub
  else ⟨objKey r.area e sub, r.dflt⟩

/-- The byte-string object likewise. -/
def octAt (r : DictRow) (e sub : Nat) : Oct :=
  if r.area = 0 ∧ e = 0 then Obj.partNumber
  else if r.area = 0 ∧ e = 1 then Obj.productName
  else ⟨objKey r.area e sub, match r.ty with | .oct n => zeros n | _ => []⟩

/-- Whether the row's sub is a context number (R404, R430, R462). -/
def DictRow.perCtx (r : DictRow) : Bool := r.subHi == 63

/-- The state that the Wellhead's objects read from (R344): this package's at the Wellhead, the replica's at the standby; elsewhere they read as their defaults. -/
def State.whView (s : State) : State :=
  if s.isWh then s
  else if s.rd Obj.agentState = agStandby ∧ s.agent.replicaFull then
    (s.useReplica.wr Obj.whPosition (s.rd Obj.agentWellhead)).wr Obj.whTerm (s.rd Obj.agentTerm)
  else { s with reg := s.reg.filter (fun p => decide (keyArea p.1 ≠ 0x4C ∧ keyArea p.1 ≠ 0x58)),
                oct := s.oct.filter (fun p => decide (keyArea p.1 ≠ 0x4C ∧ keyArea p.1 ≠ 0x58)) }

/-- Whether a Tenant reaches an object (R447): the subs and units of its own context, and its own job's slice (R344). -/
def State.tenantReaches (s : State) (ctx : Nat) (r : DictRow) (e sub : Nat) : Bool :=
  let d := e - r.base
  if r.perCtx then sub == ctx
  else if (r.area = 0x10 ∨ r.area = 0x18) ∧ r.base = 0x4000 then tileIn (s.rdo (Obj.tileSet ctx)) d
  else if r.area = 0x28 ∧ r.base = 0x4000 then s.rd (Obj.teOwner d) == ctx
  else if r.area = 0x28 ∧ r.base = 0x4100 then s.rd (Obj.teOwner (64 + d / 16)) == ctx
  else if r.area = 0x40 ∧ r.base = 0x4000 then d % 64 == ctx
  else if r.area = 0x60 ∧ r.base = 0x4000 then d / 64 == ctx
  else if r.area = 0x78 ∧ r.base = 0x6000 then mbKind (s.bind d) != 0 && mbCtx (s.bind d) == ctx
  else if r.area = 0x4C ∧ r.base = 0x6000 then s.whView.rd (Obj.sliceJob d) != 0 && s.whView.rd (Obj.sliceJob d) == s.rd (Obj.niJob ctx)
  else true

/-- Whether a session reaches an object with an access. -/
def State.reaches (s : State) (role ctx : Nat) (r : DictRow) (e sub : Nat) (f : Acc → Bool) : Bool :=
  f (r.acc role) && (role != roleTenant || s.tenantReaches ctx r e sub)

/-- The row of an object that answers at all: the aliases only while they are enabled (R461). -/
def State.rowFor (s : State) (area e sub : Nat) : Option DictRow :=
  if (area = 0x84 ∨ area = 0x88) ∧ s.rd Obj.zk7CompatEnable ≠ 1 then none else rowOf area e sub

/-! ## READ -/

/-- Whether a row is a counter that R399 coarsens for the package: the package-wide ones, and those of ports and in-package links, which belong to no context and which
R247 and R279 coarsen in the same way. -/
def DictRow.pkgCounter (r : DictRow) : Bool :=
  [0x10, 0x18, 0x20, 0x28, 0x30, 0x38, 0x40].contains r.area && (decide (r.base < 0x4000) || r.area == 0x30 || r.area == 0x38) &&
    ((r.ty == .u64 && r.cus == .rw) || (r.area == 0x20 && r.base == 0x33))

/-- A reading at the last whole 100 ms or second (R399). -/
def State.coarseAt (s : State) (k : Nat) : Nat := mgetD s.ctxs.coarse k 0

/-- The confidential context that a tile has come into. -/
def State.confOfTile (s : State) (n : Nat) : Option Nat := (List.range 64).find? fun c => s.confidential c && tileIn (s.rdo (Obj.tileSet c)) n

/-- The state of a site (R95): while it serves a logical tile, that tile's. -/
def State.siteStateNow (s : State) (k : Nat) : Nat :=
  let st := s.rd (Obj.siteState k)
  let n := s.rd (Obj.siteLogical k)
  if st = ustActive ∧ n < 1920 then s.rd (Obj.tileState n) else st

/-- Whether a logical unit of the package is FAILED (R20, R461): a tile, a channel, an NI, a port, a DRAM die that a logical die is mapped to, or a position that carries a
logical lane. -/
def State.unitFailed (s : State) : Bool :=
  ((List.range 1920).any fun n => s.rd (Obj.tileState n) == ustFailed) || ((List.range 72).any fun c => s.rd (Obj.teState c) == ustFailed) ||
    ((List.range 4).any fun i => s.rd (Obj.niState i) == ustFailed) || ((List.range 18).any fun p => s.rd (Obj.portState p) == ustFailed) ||
    ((List.range 32).any fun st => (List.range 17).any fun k => s.rd (Obj.dramState st k) == ustFailed && s.rd (Obj.dramLogical st k) != 0xFF) ||
    (List.range 18).any fun p => (List.range 18).any fun i => (List.range 2).any fun d => s.rd (Obj.laneState p i d) == ustFailed && s.rd (Obj.laneLogical p i d) != 0xFF

/-- The present value of an integer object as a session sees it (R395, R399, R443). -/
def State.readInt (s : State) (x : Session) (r : DictRow) (e sub : Nat) : Nat :=
  let d := e - r.base
  let o := objAt r e sub
  let conf := s.rd Obj.confidentialResident = 1
  if r.area = 0x6C ∧ e = 0 then s.rptState
  else if r.area = 0x6C ∧ e = 0x12 then x.pkgStatus
  else if r.area = 0x40 ∧ e = 0x104 then mgetD s.ni.ranks (4096 * sub + s.rd (Obj.rankReadSel sub)) 0
  else if r.area = 0x38 ∧ e = 0x17 then
    let sel := s.rd Obj.routeReadSel
    s.routeEnt (bits sel 24 1) (bits sel 16 1) (bits sel 0 16)
  else if r.area = 0x60 ∧ e = 0x107 then
    let v := s.rd o
    if (s.runOf sub).isSome then (v + 2 ^ 32 - 1) % 2 ^ 32 else v
  else if r.area = 0x84 ∧ e = 1 then
    if s.rd Obj.pkgPowerState ≠ pwrOn then 2
    else ofBool s.unitFailed
  else if r.area = 0x84 ∧ e = 2 then
    ofInt 16 ((List.range 6).foldl (fun m k => max m (sext (s.rd (Obj.dieTempC k)) 16)) (sext (s.rd (Obj.dieTempC 0)) 16))
  else if r.area = 0x88 ∧ e = 1 then s.host
  else if (r.area = 0x50 ∧ e = 1) ∨ (r.area = 0x88 ∧ e = 0) then
    if conf then (s.coarseAt Obj.pkgPowerW.key + 25) / 50 * 50 else s.rd Obj.pkgPowerW
  else if r.area = 0x50 ∧ e = 2 then if conf then s.coarseAt Obj.pkgEnergyMj.key else s.rd Obj.pkgEnergyMj
  else if conf ∧ r.pkgCounter then s.coarseAt o.key / 1024 * 1024
  else if r.area = 0x10 ∧ r.base = 0x5000 ∧ sub = 0 then s.siteStateNow d
  else if r.area = 0x20 ∧ r.base = 0x4000 ∧ sub = 4 then min (s.ceHour d) 0xFFFFFFFF
  else if r.area = 0x20 ∧ r.base = 0x4000 ∧ sub = 5 then min (s.ueDay d) 0xFFFF
  else if (r.area = 0x10 ∨ r.area = 0x18) ∧ r.base = 0x4000 then
    if r.area = 0x18 ∧ (sub = 6 ∨ sub = 7) then (if s.confidential (s.rd (Obj.freezeCtx d)) then 0 else s.rd o)
    else
      match (s.confOfTile d).bind fun c => mget s.ctxs.frozenReads (64 * o.key + c) with
      | some v => v
      | none => mgetD (s.tileLive d) o.key (s.rd o)
  else if r.area = 0x28 ∧ r.base = 0x4000 ∧ sub = 11 then if s.confidential (s.rd (Obj.teOwner d)) then 0 else s.rd o
  else if r.area = 0x40 ∧ r.base = 0x4000 ∧ sub = 10 then if s.confidential (d % 64) then 0 else s.rd o
  else if r.area = 0x4C ∨ r.area = 0x58 then s.whView.rd o
  else if r.area = 0x48 ∧ r.base = 0x4000 ∧ sub = 0 ∧ s.rd Obj.agentState ≠ agStarting then s.verdict d
  else s.rd o

/-- The sixteen decimal digits of a number. -/
def digits16 (v : Nat) : Bytes := (List.range 16).map fun i => BitVec.ofNat 8 (48 + v / 10 ^ (15 - i) % 10)

/-- The open sessions (R462). -/
def State.sessionBytes (s : State) : Bytes :=
  ((s.mgmt.sessions.filter fun (x : Session) => x.st == SessState.opened).map fun (x : Session) => bytesOf [leBytes 4 x.id, leBytes 1 x.port, leBytes 1 x.role, leBytes 1 x.ctx, [0]]).flatten.take 1024

/-- One rail's telemetry as a session sees it: over the last whole 100 ms while a confidential context is resident (R399). -/
def State.railRead (s : State) (k : Nat) : Bytes :=
  let b := s.rdo (Obj.railTelemetry k)
  if s.rd Obj.confidentialResident ≠ 1 then b
  else
    let c := fun (i : Nat) => s.coarseAt ((Obj.railTelemetry k).key * 4 + i)
    bytesOf [leBytes 2 ((c 0 + 5) / 10 * 10), leBytes 2 ((c 1 + 50) / 100 * 100), leBytes 2 (c 2), slice b 6 2]

/-- The present value of a byte-string object as a session sees it. -/
def State.readOct (s : State) (x : Session) (r : DictRow) (e sub : Nat) : Bytes :=
  if r.area = 0x78 ∧ e = 0x14 then s.sessionBytes
  else if r.area = 0x6C ∧ e = 0x11 then x.pkgReport
  else if r.area = 0x84 then digits16 (s.rd Obj.serialNumber)
  else if r.area = 0x50 ∧ e = 0x50 then s.railRead sub
  else if r.area = 0x4C ∨ r.area = 0x58 then s.whView.rdo (octAt r e sub)
  else s.rdo (octAt r e sub)

def State.readObj (s : State) (x : Session) (r : DictRow) (e sub : Nat) : Bytes :=
  if r.ty.width = 0 then s.readOct x r e sub else leBytes r.ty.width (s.readInt x r e sub)

/-- READ (R440, R443): `length` bytes at most of the value from `offset`; an offset past the value's end is MALFORMED (DESIGN CHOICE). `er_snapshot_read` has a row of
its own. -/
def execRead (q : NxReq) (s : State) : Host.Outcome State Fault Refusal :=
  .next (if q.area = 0x70 ∧ q.entry = 0x11 then s
  else s.request opRead q fun s x =>
    let ans := fun (r : Nat) => s.answer x.id q.reqId opRead r [] 0 0
    match s.rowFor q.area q.entry q.sub with
    | none => ans rNoObject
    | some r =>
      if !s.reaches x.role x.ctx r q.entry q.sub Acc.canRead then ans rNoAccess
      else if q.area = 0x78 ∧ q.entry = 0x100 ∧ q.sub = 0 then ans rRefused
      else
        let v := s.readObj x r q.entry q.sub
        if v.length < q.offset then ans rMalformed
        else s.answer x.id q.reqId opRead rOk ((v.drop q.offset).take q.length) q.offset v.length)

/-! ## NEXT -/

/-- The first object of an area after one that a session may read or write, skipping those it may not. -/
def State.nextGo (s : State) (x : Session) (rows : List DictRow) : Nat → Nat → Nat → Option (DictRow × Nat × Nat)
  | 0, _, _ => none
  | f + 1, e, sub =>
    let best := rows.foldl (fun (b : Option (DictRow × Nat × Nat)) r =>
      match r.after e sub with
      | none => b
      | some (e', u') =>
        match b with
        | none => some (r, e', u')
        | some (_, be, bu) => if 256 * e' + u' < 256 * be + bu then some (r, e', u') else b) none
    match best with
    | none => none
    | some (r, e', u') =>
      if s.reaches x.role x.ctx r e' u' (fun a => a.canRead || a.canWrite) then some (r, e', u') else State.nextGo s x rows f e' u'

/-- NEXT (R440): nine bytes that describe the object found. -/
def execNextObj (q : NxReq) (s : State) : Host.Outcome State Fault Refusal :=
  .next (s.request opNext q fun s x =>
    let rows := if (q.area = 0x84 ∨ q.area = 0x88) ∧ s.rd Obj.zk7CompatEnable ≠ 1 then [] else
      (dictArea q.area).filter fun r => (r.acc x.role).canRead || (r.acc x.role).canWrite
    match s.nextGo x rows 65536 q.entry q.sub with
    | none => s.answer x.id q.reqId opNext rNoObject [] 0 0
    | some (r, e, u) =>
      let a := r.acc x.role
      let d := bytesOf [leBytes 1 q.area, leBytes 2 e, leBytes 1 u, leBytes 1 r.ty.code, leBytes 2 r.ty.size, leBytes 1 (ofBool a.canRead + 2 * ofBool a.canWrite),
        leBytes 1 (ofBool r.pers)]
      s.answer x.id q.reqId opNext rOk d 0 9)

/-! ## WRITE -/

/-- Whether a write has a row of its own in the command table, and is not a WRITE. -/
def ownRow (area e sub v : Nat) : Bool :=
  let unit := decide (0x4000 ≤ e)
  (area == 0x08 && ((e == 1 && decide (1 ≤ v ∧ v ≤ 4)) || (e == 0x10 && v == 1))) ||
  (area == 0x10 && unit && decide (e < 0x5000) && sub == 1 && decide (1 ≤ v ∧ v ≤ 4)) ||
  (area == 0x18 && (e == 0x100 || (unit && sub == 8 && decide (1 ≤ v ∧ v ≤ 2)))) ||
  (area == 0x20 && (e == 0x100 || (unit && sub == 2 && v == 1))) ||
  (area == 0x28 && ((decide (0x4000 ≤ e ∧ e < 0x4100) && ((sub == 1 && decide (1 ≤ v ∧ v ≤ 4)) || sub == 2 || sub == 5 || sub == 9)) || (decide (0x4100 ≤ e) && sub == 0))) ||
  (area == 0x30 && ((decide (0x4000 ≤ e ∧ e < 0x4100) && sub == 1 && decide (1 ≤ v ∧ v ≤ 3)) ||
    (decide (0x4100 ≤ e ∧ e < 0x4400) && sub == 6 && decide (1 ≤ v ∧ v ≤ 2)))) ||
  (area == 0x38 && (e == 0x11 || (e == 0x12 && decide (1 ≤ v ∧ v ≤ 2)) || e == 0x15 || (decide (0x4000 ≤ e ∧ e < 0x4400) && sub == 8))) ||
  (area == 0x40 && (e == 0x100 || e == 0x102 || e == 0x105 || e == 0x108 ||
    (decide (0x4000 ≤ e ∧ e < 0x4400) && ((sub == 1 && decide (3 ≤ v ∧ v ≤ 4)) || sub == 4 || sub == 8)) ||
    (decide (0x4400 ≤ e) && sub == 1 && decide (1 ≤ v ∧ v ≤ 2)))) ||
  (area == 0x4C && (e == 0x20 || e == 0x21 || e == 0x30)) ||
  (area == 0x50 && (e == 0x10 || e == 0x12)) ||
  (area == 0x60 && (e == 0x100 || (e == 0x108 && decide (1 ≤ v ∧ v ≤ 2)))) ||
  (area == 0x68 && (e == 0x10 || e == 0x20 || (e == 0x100 && decide (1 ≤ v % 256 ∧ v % 256 ≤ 4)))) ||
  (area == 0x6C && (e == 0x10 || e == 0x100)) ||
  (area == 0x70 && (e == 0x10 || e == 0x20)) ||
  (area == 0x78 && (e == 0x12 || e == 0x15 || e == 0x16 || e == 0x100 || (decide (0x6000 ≤ e) && ((sub == 1 && decide (1 ≤ v ∧ v ≤ 2)) || sub == 3)))) ||
  (area == 0x7C && unit && (sub == 6 || (sub == 7 && decide (1 ≤ v ∧ v ≤ 4)) || sub == 8))

/-- Whether a value of `k` bytes fits a type (R446). -/
def ObjTy.fits (t : ObjTy) (k : Nat) : Bool :=
  match t with
  | .oct n => k == n
  | .octv a b => decide (a ≤ k) && decide (k ≤ b)
  | t => k == t.width

/-- Whether a WRITE is one of a row of its own: its object and value have one, and its body keeps the length and offset rules and fits the object's type (R440, R446). Any other
is answered as a WRITE. -/
def ownWrite (q : NxReq) : Bool :=
  ownRow q.area q.entry q.sub (leNat q.value) && !reqBad opWrite q &&
    (match rowOf q.area q.entry q.sub with
     | none => true
     | some r => r.ty.fits q.value.length)

/-- What breaks an `mbx_bind` value (R450): 1 a reserved field, 2 a field out of range. -/
def bindBad (b : Bytes) : Nat :=
  if byteAt b 3 ≠ 0 ∨ byteAt b 17 ≥ 2 ∨ !allZero (slice b 18 2) ∨ byteAt b 28 ≥ 16 ∨ !allZero (slice b 29 3) then rMalformed
  else
    let n := mbRingEntries b
    if mbKind b > 2 ∨
        (mbKind b = 1 ∧ (mbCtx b < 1 ∨ mbCtx b > 63 ∨ mbRingBase b % 4096 ≠ 0 ∨ mbRingBase b ≥ 2 ^ 48 ∨ n < 16 ∨ n > 4096 ∨ 2 ^ Nat.log2 n ≠ n ∨ mbTallyTile b ≥ 1920)) ∨
        (mbKind b = 2 ∧ (mbMinRole b < 1 ∨ mbMinRole b > 4 ∨ mbCtx b > 63)) then rOutOfRange else rOk

/-- A mailbox is bound (R450): it begins with no claimant, no bells and an empty ring (DESIGN CHOICE). -/
def State.bindMbx (s : State) (m : Nat) (b : Bytes) : State :=
  let s := (s.wro (Obj.mbxBind m) b).wr (Obj.mbxClaimant m) 0
  ((s.wr (Obj.mbxRingHead m) 0).wr (Obj.mbxRingTail m) 0).wr (Obj.mbxBellsPending m) 0

/-- The rules that a byte-string value meets beside its length: `rOk` where it may be stored. -/
def State.octRule (s : State) (w : Who) (r : DictRow) (e sub : Nat) (v : Bytes) : Nat :=
  if r.area = 0x60 then
    let c := if e = 0x10A then sub else (e - r.base) / 64
    if c = 0 ∨ (s.confidential c ∧ !isCus w) then rRefused else rOk
  else if r.area = 0x68 ∧ e = 0x100 then if sub = 0 ∨ s.ctxSt sub = ctxFree then rRefused else rOk
  else if r.area = 0x78 ∧ r.base = 0x6000 then if s.rd (Obj.mbxState (e - r.base)) ≠ ustDisabled then rRefused else bindBad v
  else if r.area = 0x78 ∧ r.base = 0x4000 then if !allZero (slice v 17 3) then rMalformed else if byteAt v 16 > 128 then rOutOfRange else rOk
  else if r.area = 0x58 then
    if !s.isWh then rRefused
    else if byteAt v 21 ≠ 0 ∨ !allZero (slice v 28 4) then rMalformed
    else if byteAt v 17 > 2 ∨ (byteAt v 17 ≠ 0 ∧ byteAt v 20 ≠ 3 ∧ byteAt v 20 ≠ 4) then rOutOfRange else rOk
  else if r.area = 0x40 ∧ e = 0x106 then
    if (List.range 16).any fun k => decide (byteAt v (4 * k + 3) ≥ 2) then rMalformed else rOk
  else rOk

/-- Whether an object is a ring object other than a producer's or consumer's index (R211, R312). -/
def DictRow.ring (r : DictRow) (sub : Nat) : Bool :=
  r.base == 0x4000 && ((r.area == 0x28 && [3, 4, 7, 8].contains sub) || (r.area == 0x40 && [2, 3, 6, 7].contains sub))

/-- The state of the channel, or of the NI, that a ring object belongs to. A command queue is ACTIVE or FROZEN alone, so that the DISABLED that R312 takes from R211 is
its NI's (DEDUCED). -/
def State.ringState (s : State) (r : DictRow) (e : Nat) : Nat :=
  let d := e - r.base
  if r.area = 0x28 then s.rd (Obj.teState d) else s.rd (Obj.niState (d / 64))

/-- The state rules of an integer object. Ring objects are written only while their unit is DISABLED, or FAILED and so treated (R210, R211). -/
def State.intRule (s : State) (w : Who) (r : DictRow) (e sub v : Nat) : Nat :=
  if r.ring sub ∧ s.ringState r e ≠ ustDisabled ∧ s.ringState r e ≠ ustFailed then rRefused
  else if (r.area = 0x4C ∨ r.area = 0x58) ∧ !s.isWh then rRefused
  else if r.area = 0x40 ∧ e = 0x101 ∧ s.confidential sub ∧ v = 0 then rRefused
  else if r.area = 0x60 ∧ (e = 0x104 ∨ e = 0x105 ∨ e = 0x106) ∧ sub = 0 then rRefused
  else if r.area = 0x60 ∧ (e = 0x104 ∨ e = 0x106) ∧ s.confidential sub ∧ !isCus w then rRefused
  else rOk

/-- A byte string is stored: the staged copy takes a tile set (R395), an equipment entry is UNUSED or polled anew. -/
def State.putOct (s : State) (w : Who) (r : DictRow) (e sub : Nat) (v : Bytes) : State × Nat :=
  if r.area = 0x60 ∧ e = 0x10A then ({ s with ctxs := { s.ctxs with stagedTiles := mput s.ctxs.stagedTiles sub v } }, rOk)
  else if r.area = 0x78 ∧ r.base = 0x6000 then (s.bindMbx (e - r.base) v, rOk)
  else if r.area = 0x58 then (({ s with steward := { s.steward with eqs := mdel s.steward.eqs sub } }.wr (Obj.equipmentState sub) 0).storeOct w (octAt r e sub) v)
  else if r.area = 0x68 ∧ e = 0x100 then (s.wr (Obj.scStatus sub) (0x0200 + if s.ctxSt sub = ctxRetiring then scRetired else scMalformed), rOk)
  else if r.pers then s.storeOct w (octAt r e sub) v else (s.wro (octAt r e sub) v, rOk)

/-- `tile_busy_cycles` is cleared (R104): the running task's clocks so far go with it. -/
def State.cutBusy (s : State) (n : Nat) : State :=
  let t := s.tile n
  let s := s.wr (Obj.tileBusyCycles n) 0
  match t.run with
  | none => s
  | some r => s.setTile n { t with run := some { r with busyCut := s.runClocks n r } }

/-- The value of a WRITE that the row and the access admit (R443, R446, R447, R462). A value that a control object does not name is refused, as its row says. -/
def State.writeVal (s : State) (w : Who) (r : DictRow) (e sub : Nat) (v : Bytes) : State × Nat :=
  match r.ty with
  | .oct n =>
    if v.length ≠ n then (s, rBadLength)
    else
      let k := s.octRule w r e sub v
      if k ≠ rOk then (s, k) else s.putOct w r e sub v
  | .octv a b =>
    if v.length < a ∨ b < v.length then (s, rBadLength) else s.putOct w r e sub v
  | t =>
    let n := leNat v
    if v.length ≠ t.width then (s, rBadLength)
    else if !r.rng.ok n then (s, if r.cus == .w then rRefused else rOutOfRange)
    else
      let k := s.intRule w r e sub n
      if k ≠ rOk then (s, k)
      else if r.area = 0x88 then s.hostOrder n
      else if r.pers then s.storeReg w (objAt r e sub) n
      else if r.area = 0x10 ∧ r.base = 0x4000 ∧ sub = 3 then (s.cutBusy (e - r.base), rOk)
      else (s.wr (objAt r e sub) n, rOk)

/-- WRITE (R443): to an object, or with a value, that has no row of its own. -/
def execWrite (q : NxReq) (s : State) : Host.Outcome State Fault Refusal :=
  .next (if ownWrite q then s
  else s.request opWrite q fun s x =>
    let w : Who := ⟨x.role, x.ctx, x.id, q.reqId⟩
    let ans := fun (s : State) (r : Nat) => s.answer x.id q.reqId opWrite r [] 0 0
    match s.rowFor q.area q.entry q.sub with
    | none => ans s rNoObject
    | some r =>
      if !s.reaches x.role x.ctx r q.entry q.sub Acc.canWrite ∨ (q.area = 0x68 ∧ s.sbUnowned x.id) then ans s rNoAccess
      else
        let p := s.writeVal w r q.entry q.sub q.value
        if p.2 = rLater then p.1 else ans p.1 p.2)

end Sys2Proof.Machine
end

