-- ==== Sys2Proof/Machine/Sessions.lean ====
section
/-! DEFINITION. Opening, proving and closing sessions, agent traffic on the management path, persistence, and the management ports (R415 to R417, R431 to R439, R447). -/

namespace Sys2Proof.Machine

open Sys2Proof

/-! ## OPEN and PROVE -/

/-- Results of opening and proof (R436). -/
abbrev opMalformed : Nat := 1
abbrev opPortRole : Nat := 2
abbrev opNoSession : Nat := 3
abbrev opKeyNotListed : Nat := 4
abbrev opBadProof : Nat := 5
abbrev opIdentity : Nat := 6
abbrev opRng : Nat := 7

/-- Whether a port admits a role in the mode in force (R415): Steward sessions belong to SB. -/
def State.admitsRole (s : State) (port role : Nat) : Bool :=
  if role = roleSteward then port == 2
  else if s.rd Obj.authorityMode = 0 then true
  else if port < 2 then role == roleObserver || role == roleTenant
  else s.rd (Obj.mportMacsec 2) == 1

/-- Whether one more session fits (R437): 16 management sessions a port, one Steward session with each other position. -/
def State.sessionFits (s : State) (port src role : Nat) : Bool :=
  if role = roleSteward then decide (src < 64) && src != s.pos && !(s.mgmt.sessions.any fun (x : Session) => x.role == roleSteward && x.peer == some src)
  else decide (((s.mgmt.sessions.filter fun (x : Session) => x.port == port && x.role != roleSteward).length) < 16)

/-- A refusal is counted by its result and recorded (R436). -/
def State.refuseOpen (s : State) (id result role : Nat) : State :=
  (if result = opKeyNotListed ∨ result = opBadProof then s.bump Obj.nxfProofFailed else s.bump Obj.nxfOpenRefused).event 0x7801 0x11 id noCtx 2 result role

/-- The two keys of a session (R417): traffic from the opener, and from the opened. -/
def sessionKeys (z ours theirs : Bytes) : Bytes × Bytes := (hkdf z (ours ++ theirs) (txtNxf ++ [1]) 32, hkdf z (ours ++ theirs) (txtNxf ++ [2]) 32)

/-- What an OPEN_REQ meets first, in the order of the codes (R436); 0 where it opens a session. -/
def State.openVerdict (s : State) (port src : Nat) (b : Bytes) : Nat :=
  let role := byteAt b 96
  let ctx := byteAt b 97
  if role < 1 ∨ role > 5 ∨ (role ≠ roleTenant ∧ ctx ≠ 0) ∨ ctx ≥ 64 ∨ !allZero (slice b 98 2) then opMalformed
  else if !s.admitsRole port role then opPortRole
  else if !s.sessionFits port src role then opNoSession
  else if !s.hasIdentity then opIdentity
  else if s.rd Obj.rngHealth ≠ 0 then opRng else 0

/-- An OPEN_RESP goes to the source of the OPEN_REQ that it answers, unprotected, as frame 1 (R433; DESIGN CHOICE for the number: no session counts it yet). -/
def State.openAnswer (s : State) (port : Nat) (f : NxFrame) (id : Nat) (body : Bytes) : State :=
  s.emit (.nxf port f.addr f.sport (nxHeader ntOpenResp id 1 body.length ++ body))

/-- A session begins (opening step 1): the answer carries the package's ephemeral key and nonce, signed under the Alias key with both nonces (R417). -/
def State.openSession (s : State) (port : Nat) (f : NxFrame) (b : Bytes) : State :=
  let r1 := s.random 32
  let r2 := r1.2.random 32
  let s := r2.2
  let eph := privOf r1.1
  let nonce := fit 32 r2.1
  let id := s.mgmt.nextId
  let pub := fit 64 (ecPub eph)
  let sig := fit 64 (ecSign s.sec.aliasPriv (sha256 (pub ++ nonce ++ slice b 64 34)))
  let resp := bytesOf [zeros 4, leBytes 4 id, pub, nonce, sig]
  let k := sessionKeys (ecdh eph (b.take 64)) nonce (slice b 64 32)
  let role := byteAt b 96
  let x : Session :=
    { id := id, port := port, role := role, ctx := byteAt b 97, st := .proving, peer := if role = roleSteward then some f.peer else none, weOpened := false
      openReq := b, openResp := resp, addr := f.addr, udp := f.sport, peerId := id, keyIn := k.1, keyOut := k.2, keyDigest := [], win := ⟨0, 0⟩, txSeq := 0, segs := [], segCount := 0
      openReqs := [], kept := [], pkgReport := [], pkgStatus := 0, spdm := none, spdmVca := [], spdmCert := [], spdmMeas := [] }
  { s with mgmt := { s.mgmt with nextId := id + 1, sessions := s.mgmt.sessions ++ [x] } }.openAnswer port f id resp

/-- Whether NXF is served: from step MANAGER on, and not after a halt of ROOT or MANAGER for want of firmware, which leaves the package without it until a cold reset
(R470). -/
def State.nxfUp (s : State) : Bool := decide (2 ≤ s.boot.step) && !(s.boot.dead && s.rd Obj.bringupResult == 0x0202)

/-- OPEN_REQ (opening step 1): its header names session 0 (R433), and its body has 100 bytes. -/
def execOpenReq (port : Nat) (f : NxFrame) (body : Bytes) (s : State) : Host.Outcome State Fault Refusal :=
  .next (if port ≥ 3 ∨ !s.nxfUp ∨ !s.portRuns port ∨ f.dport ≠ udpNxf then s
    else if !f.legal body.length ∨ f.session ≠ 0 ∨ body.length ≠ 100 then s.bump Obj.nxfFramesBad
    else if f.typ ≠ ntOpenReq then s
    else
      let v := s.openVerdict port f.peer body
      if v = 0 then s.openSession port f body
      else (s.refuseOpen 0 v (byteAt body 96)).openAnswer port f 0 (leBytes 1 v ++ zeros 167))

/-- The role digest conditions of R436; `sig` says whether the proof's signature verifies under its own key. -/
def State.roleVerdict (s : State) (x : Session) (digest : Bytes) (sig : Bool) : Nat :=
  let listed :=
    if x.role = roleTenant then s.ctxSt x.ctx == ctxOpen && !allZero (s.rdo (Obj.tenantSessionKey x.ctx)) && digest == s.rdo (Obj.tenantSessionKey x.ctx)
    else if x.role = roleOperator then
      s.unowned || (List.range 4).any fun i =>
        let k := slice (s.rdo Obj.operatorKeys) (32 * i) 32
        !allZero k && k == digest
    else !s.unowned && (List.range (min 4 (arCount s.sec.arForce))).any fun i => arDigest s.sec.arForce i == digest
  if !listed then opKeyNotListed else if !sig then opBadProof else 0

/-- The digest of the owner key in force, all zeros while unowned (R435). -/
def State.ownerDigest (s : State) : Bytes := if s.unowned then zeros 32 else sha256 (arOwner s.sec.arForce)

/-- A complete proof is verified (R435, R436). -/
def State.proofVerdict (s : State) (x : Session) (p : Bytes) : Nat :=
  let said := x.openReq ++ x.openResp
  if x.role = roleSteward then
    let a := leAt p 160 2
    let alias_ := slice p 162 a
    let d := leAt p (162 + a) 2
    let certs := alias_ ++ slice p (164 + a) d
    if p.length ≠ 164 + a + d ∨ !Config.certOk certs ∨ !ecVerify (Config.certKey certs) (sha256 (said ++ slice p 64 32)) (slice p 96 64) ∨
      slice p 64 32 ≠ s.ownerDigest then opBadProof else 0
  else if x.role = roleObserver ∧ p.isEmpty then 0
  else
    let sig := decide (p.length = 128) && ecVerify (p.take 64) (sha256 said) (p.drop 64)
    if x.role = roleObserver then (if sig then 0 else opBadProof) else s.roleVerdict x (keyDigest (p.take 64)) sig

/-- The proof has ended: the session is open, or it is freed (opening step 3). -/
def State.proveDone (s : State) (x : Session) (p : Bytes) (v : Nat) : State :=
  if v = 0 then
    let s := s.setSession { x with st := .opened, keyDigest := keyDigest (p.take 64), segs := [] }
    let s := ((s.countSessions).event 0x7801 0x11 x.id noCtx 1 0 x.role).frameOut x.id (.proveResp 0 x.role)
    if x.role = roleSteward then s.frameOut x.id (.groupKey s.mgmt.groupKey) else s
  else ((s.refuseOpen x.id v x.role).frameOut x.id (.proveResp v 0)).closeSession x.id none

/-- PROVE (R435): one segment; a segment number or count that does not fit ends the proof. -/
def State.takeSeg (s : State) (x : Session) (b : Bytes) : State :=
  let i := byteAt b 0
  let n := byteAt b 1
  if b.length < 4 ∨ n < 1 ∨ n > 8 ∨ n ≤ i ∨ leAt b 2 2 ≠ b.length - 4 ∨ (x.segCount ≠ 0 ∧ n ≠ x.segCount) then s.proveDone x [] opMalformed
  else
    let x := { x with segs := mput x.segs i (b.drop 4), segCount := n }
    if x.segs.length < n then s.setSession x
    else
      let p := (x.segs.map (·.2)).flatten
      s.proveDone x p (s.proofVerdict x p)

def execProve (f : NxFrame) (body : Bytes) (s : State) : Host.Outcome State Fault Refusal :=
  .next (match s.frameIn f ntProve body with
    | (s, none) => s
    | (s, some x) => if x.st ≠ .proving ∨ x.weOpened then s else s.takeSeg x body)

/-- PROVE_TIMEOUT (opening step 2): freed without answer. -/
def execProveTimeout (sid : Nat) (s : State) : Host.Outcome State Fault Refusal :=
  .next (match s.session? sid with
    | none => s
    | some x => if x.st = .proving then s.closeSession sid none else s)

/-! ## Closing -/

/-- SESSION_IDLE_EXPIRY (R437, R438). -/
def execSessionIdleExpiry (sid : Nat) (s : State) : Host.Outcome State Fault Refusal :=
  .next (match s.session? sid with
    | none => s
    | some x => if x.st = .opened then s.closeSession sid (some 1) else s)

/-- CLOSE (R438): nothing is sent. -/
def execClose (f : NxFrame) (s : State) : Host.Outcome State Fault Refusal :=
  .next (match s.frameIn f ntClose [] with
    | (s, none) => s
    | (s, some x) => s.closeSession x.id none)

/-- SESSION_CLOSE_WRITE (R438, R462). -/
def State.writeClose (s : State) (sid : Nat) : State × Nat :=
  match s.session? sid with
  | none => (s, rRefused)
  | some x => if x.st = .opened then (s.closeSession sid (some 2), rOk) else (s, rRefused)

def execSessionCloseWrite (w : Who) (sid : Nat) (s : State) : Host.Outcome State Fault Refusal :=
  .next (s.ctl w (isCus w) fun s => s.writeClose sid)

/-- Whether a key digest is a non-zero entry of an `operator_keys` value. -/
def keyListed (v d : Bytes) : Bool := !allZero d && (List.range 4).any fun i => slice v (32 * i) 32 == d

/-- OPERATOR_KEYS_WRITE (R438, R447). -/
def State.writeOpKeys (s : State) (w : Who) (v : Bytes) : State × Nat := if v.length ≠ 128 then (s, rBadLength) else s.storeOct w Obj.operatorKeys v

/-- A new list of Operator keys takes effect (R438): sessions whose key leaves it close. -/
def State.opKeysChange (s : State) (v : Bytes) : State :=
  let old := s.rdo Obj.operatorKeys
  s.closeSessions (fun x => x.role == roleOperator && x.st == SessState.opened && keyListed old x.keyDigest && !keyListed v x.keyDigest) 3

def execOperatorKeysWrite (w : Who) (v : Bytes) (s : State) : Host.Outcome State Fault Refusal :=
  .next (s.ctl w (isCus w) fun s => s.writeOpKeys w v)

/-- TENANT_SESSION_KEY_WRITE (R438, R462): a change closes the context's Tenant sessions. -/
def State.writeTenantKey (s : State) (ctx : Nat) (v : Bytes) : State × Nat :=
  if ctx ≥ 64 then (s, rNoObject)
  else if v.length ≠ 32 then (s, rBadLength)
  else if ctx = 0 then (s, rRefused)
  else
    let same := s.rdo (Obj.tenantSessionKey ctx) == v
    let s := s.wro (Obj.tenantSessionKey ctx) v
    (if same then s else s.closeSessions (fun x => x.role == roleTenant && x.ctx == ctx) 3, rOk)

def execTenantSessionKeyWrite (w : Who) (ctx : Nat) (v : Bytes) (s : State) : Host.Outcome State Fault Refusal :=
  .next (s.ctl w (isOpCus w) fun s => s.writeTenantKey ctx v)

/-! ## Agent traffic (R439) -/

/-- AGENT: an agent message in a Steward session. -/
def execAgent (f : NxFrame) (m : AgentMsg) (s : State) : Host.Outcome State Fault Refusal :=
  .next (match s.frameIn f ntAgent m.body with
    | (s, none) => s
    | (s, some x) => if x.role ≠ roleSteward ∨ x.st ≠ .opened then s.bump Obj.nxfFramesBad else s.toAgent .mgmt 0 true m)

/-- Whether a Steward session with a position stands, open or being proved. -/
def State.hasSteward (s : State) (q : Nat) : Bool := s.mgmt.sessions.any fun (x : Session) => x.role == roleSteward && x.peer == some q

/-- Ask a position for a Steward session (R439): an OPEN_REQ to the source address of its group frame, from port 30840 to port 30840 (R433). One that has had no answer
for 1 s is asked anew (DESIGN CHOICE). -/
def State.askSession (s : State) (q : Nat) (addr : Bytes) : State :=
  if (s.mgmt.opening.any fun (o : Opening) => o.pos == q && decide (s.now < o.time + 1000000000)) ∨ !s.hasIdentity ∨ s.rd Obj.rngHealth ≠ 0 then s
  else
    let r1 := s.random 32
    let r2 := r1.2.random 32
    let s := r2.2
    let eph := privOf r1.1
    let b := bytesOf [fit 64 (ecPub eph), fit 32 r2.1, leBytes 1 roleSteward, zeros 3]
    { s with mgmt := { s.mgmt with opening := upsert (·.pos) ⟨q, eph, b, s.now⟩ s.mgmt.opening } }.emit
      (.nxf 2 addr udpNxf (nxHeader ntOpenReq 0 1 b.length ++ b))

/-- A group frame of a position with which a Steward session stands is checked under its group key and window (R434, R439). -/
def State.groupIn (s : State) (f : NxFrame) (m : AgentMsg) : State :=
  match s.mgmt.peerKeys.find? fun k => k.1 = f.sender with
  | none => s.bump Obj.nxfGroupNokey
  | some (q, key, win) =>
    if !f.tagOk key m.body then s.bump Obj.nxfFramesBad
    else if !win.accepts f.seq then s.bump Obj.nxfReplayDrop
    else { s with mgmt := { s.mgmt with peerKeys := upsert (·.1) (q, key, win.take f.seq) s.mgmt.peerKeys } }.toAgent .mgmt 0 true m

/-- AGENT_GROUP: its header first (R434); without a Steward session it is discarded and counted, and the lower position opens one. -/
def execAgentGroup (f : NxFrame) (m : AgentMsg) (s : State) : Host.Outcome State Fault Refusal :=
  .next (if f.dport ≠ udpNxf then s
    else if !f.legal m.body.length ∨ f.session < 0xFFFFFF00 ∨ 64 ≤ f.sender then s.bump Obj.nxfFramesBad
    else if f.typ ≠ ntAgentGroup ∨ f.sender = s.pos then s
    else if (s.stewardSess f.sender).isNone then
      let s := s.bump Obj.nxfGroupNokey
      if s.pos < f.sender ∧ !s.hasSteward f.sender then s.askSession f.sender f.addr else s
    else s.groupIn f m)

/-- GROUP_KEY: the peer's group key, with a new window. -/
def execGroupKey (f : NxFrame) (key : Bytes) (s : State) : Host.Outcome State Fault Refusal :=
  .next (match s.frameIn f ntGroupKey key with
    | (s, none) => s
    | (s, some x) =>
      match x.peer with
      | none => s.bump Obj.nxfFramesBad
      | some q =>
        if x.st ≠ .opened ∨ key.length ≠ 32 then s.bump Obj.nxfFramesBad
        else { s with mgmt := { s.mgmt with peerKeys := upsert (·.1) (q, key, ⟨0, 0⟩) s.mgmt.peerKeys } })

/-- Cut a proof into PROVE segments of at most 1,196 bytes (R433, R435). -/
def proofSegs (n total : Nat) : Nat → Bytes → List Bytes
  | 0, _ => []
  | f + 1, p =>
    let d := p.take 1196
    bytesOf [leBytes 1 n, leBytes 1 total, leBytes 2 d.length, d] :: proofSegs (n + 1) total f (p.drop 1196)

/-- The package's own Steward proof (R435): its Alias key, its owner digest, a signature, and its certificates. -/
def State.stewardProof (s : State) (said : Bytes) : Bytes :=
  let a := s.rdo Obj.aliasCert
  let d := s.rdo Obj.deviceIdCert
  bytesOf [fit 64 (ecPub s.sec.aliasPriv), s.ownerDigest, fit 64 (ecSign s.sec.aliasPriv (sha256 (said ++ s.ownerDigest))),
    leBytes 2 a.length, a, leBytes 2 d.length, d]

/-- OPEN_RESP: keys are derived and the proof is sent, each segment in a frame of its own. The session is known here by an identifier of this package, and its frames
carry the one that the peer gave it (DESIGN CHOICE: R437 gives one identifier, and each side assigns its own). The peer's certificate does not travel in OPEN_RESP, so that
its signature is not checked (DEDUCED). -/
def State.openedBy (s : State) (f : NxFrame) (eph b resp : Bytes) : State :=
  let id := s.mgmt.nextId
  let k := sessionKeys (ecdh eph (slice resp 8 64)) (slice resp 72 32) (slice b 64 32)
  let x : Session :=
    { id := id, port := 2, role := roleSteward, ctx := 0, st := .proving, peer := some f.peer, weOpened := true
      openReq := b, openResp := resp, addr := f.addr, udp := f.sport, peerId := leAt resp 4 4, keyIn := k.1, keyOut := k.2, keyDigest := [], win := ⟨0, 0⟩, txSeq := 0
      segs := [], segCount := 0, openReqs := [], kept := [], pkgReport := [], pkgStatus := 0, spdm := none, spdmVca := [], spdmCert := [], spdmMeas := [] }
  let p := s.stewardProof (b ++ resp)
  let n := cdiv p.length 1196
  (proofSegs 0 n n p).foldl (fun s g => s.frameOut id (.prove g)) { s with mgmt := { s.mgmt with nextId := id + 1, sessions := s.mgmt.sessions ++ [x] } }

/-- OPEN_RESP (R436, R439): of a position that was asked; where a Steward session with it stands already it opens no second one (R437). -/
def execOpenResp (f : NxFrame) (body : Bytes) (s : State) : Host.Outcome State Fault Refusal :=
  .next (if f.dport ≠ udpNxf then s
    else if !f.legal body.length then s.bump Obj.nxfFramesBad
    else match s.mgmt.opening.find? fun (o : Opening) => o.pos = f.peer with
    | none => s
    | some o =>
      if f.typ ≠ ntOpenResp then s
      else if body.length ≠ 168 then s.bump Obj.nxfFramesBad
      else
        let s := { s with mgmt := { s.mgmt with opening := s.mgmt.opening.filter fun (o : Opening) => o.pos != f.peer } }
        if byteAt body 0 ≠ 0 ∨ s.hasSteward f.peer then s else s.openedBy f o.priv o.body body)

/-- PROVE_RESP: on success the session is open and the GROUP_KEY is sent (R439); otherwise the session is freed. -/
def execProveResp (f : NxFrame) (body : Bytes) (s : State) : Host.Outcome State Fault Refusal :=
  .next (match s.frameIn f ntProveResp body with
    | (s, none) => s
    | (s, some x) =>
      if !x.weOpened ∨ x.st ≠ .proving then s
      else if body.length ≠ 2 then s.bump Obj.nxfFramesBad
      else if byteAt body 0 ≠ 0 then s.closeSession x.id none
      else ((s.setSession { x with st := .opened }).countSessions).frameOut x.id (.groupKey s.mgmt.groupKey))

/-! ## Persistence (R447) -/

/-- PERSIST_RESET: 0x01 returns persistent objects to their defaults at the next cold reset; other values are refused (R462). -/
def execPersistReset (w : Who) (v : Nat) (s : State) : Host.Outcome State Fault Refusal :=
  .next (s.ctl w (isCus w) fun s => if v ≠ 1 then (s, rRefused) else ({ s with mgmt := { s.mgmt with persistReset := true } }, rOk))

/-- Whether a key names an integer object. -/
def keyIsInt (k : Nat) : Bool := ((rowOfKey k).map fun r => decide (r.ty.width ≠ 0)).getD false

/-- A value reaches FL and takes effect (R447). -/
def State.flPut (s : State) (k : Nat) (v : Bytes) : State :=
  let b := s.boot
  if keyIsInt k then { s with reg := mput s.reg k (leNat v), boot := { b with flReg := mput b.flReg k (leNat v) } }
  else { s with oct := mput s.oct k v, boot := { b with flOct := mput b.flOct k v } }

/-- PERSIST_STORE_DONE: the oldest waiting value lies in FL and takes effect, and its write is answered. -/
def execPersistStoreDone (s : State) : Host.Outcome State Fault Refusal :=
  .next (match s.mgmt.storing with
    | [] => s
    | (sid, req, k, v) :: rest =>
      let s : State := { s with mgmt := { s.mgmt with storing := rest } }
      let s := if k = Obj.operatorKeys.key then s.opKeysChange v else s
      (s.flPut k v).answer sid req opWrite rOk [] 0 0)

/-! ## Ports -/

/-- MPORT_LINK_CHANGE (R431, R462). -/
def execMportLinkChange (p : Nat) (up : Bool) (s : State) : Host.Outcome State Fault Refusal :=
  .next (if p ≥ 3 ∨ !s.portRuns p then s else s.wr (Obj.mportLink p) (ofBool up))

/-- MKA_STATE_CHANGE (R415, R462). -/
def execMkaStateChange (secured : Bool) (s : State) : Host.Outcome State Fault Refusal := .next (s.wr (Obj.mportMacsec 2) (ofBool secured))

/-- The IPv6 link-local address of a port, from its MAC address in modified EUI-64 form (R432). -/
def State.linkLocal (s : State) (p : Nat) : Bytes :=
  let m := s.rdo (Obj.macAddress p)
  [0xFE, 0x80] ++ zeros 6 ++ [m.getD 0 0 ^^^ 2, m.getD 1 0, m.getD 2 0, 0xFF, 0xFE, m.getD 3 0, m.getD 4 0, m.getD 5 0]

/-- The configured address of a port, IPv4 mapped; all zeros for none (R432). -/
def State.ownIp (s : State) (p : Nat) : Bytes := (s.rdo (Obj.mportIp p)).take 16

/-- Whether an address is an IPv4 address, as it is mapped. -/
def ipv4 (a : Bytes) : Bool := a.take 12 == zeros 10 ++ [0xFF, 0xFF]

/-- Whether a port answers for an address: ARP (0) for an IPv4 address, neighbour discovery (1) for an IPv6 one, echo (2) for either (R432). -/
def State.answersFor (s : State) (p kind : Nat) (a : Bytes) : Bool :=
  (a == s.linkLocal p || (a == s.ownIp p && !allZero a)) && (kind == 2 || (kind == 0) == ipv4 a) && decide (kind < 3)

/-- ARP_ND_ECHO (R432): ARP, neighbour discovery and echo for an address of the port are answered, and everything else is discarded. SB takes untagged frames alone; a
port that is not up hears none. -/
def execArpNdEcho (p kind : Nat) (dst : Bytes) (tagged : Bool) (s : State) : Host.Outcome State Fault Refusal :=
  .next (if p < 3 ∧ s.rd (Obj.mportLink p) = 1 ∧ !(tagged && p == 2) ∧ s.answersFor p kind dst then s.emit (.netReply p kind dst) else s)

/-- PFC_PAUSE (R432): transmission on the priority pauses or goes on. -/
def execPfcPause (p prio : Nat) (pause : Bool) (s : State) : Host.Outcome State Fault Refusal :=
  .next (if p < 2 ∧ prio < 8 then
      { s with mgmt := { s.mgmt with paused := msetD s.mgmt.paused p 0 (setBit (mgetD s.mgmt.paused p 0) prio pause) } }
    else s)

end Sys2Proof.Machine
end

