-- ==== Sys2Proof/Machine/Bringup.lean ====
section
/-! DEFINITION. Cold reset, the steps of bring-up, the field map, clocks and package time, the spare policy, flushes and the test access port (R364, R447, R464 to R487,
R499, R520 to R522). -/

namespace Sys2Proof.Machine

open Sys2Proof

/-! ## The field map (R464 to R467) -/

/-- Whether the field map holds an object: the states and mapping of sites, DRAM dies, lanes, lasers, banks and in-package links, the fail counts of sites, and the
FAILED state of the units that have no spare. -/
def mapHolds (k v : Nat) : Bool :=
  let a := keyArea k
  let e := keyEntry k
  let b := keySub k
  (a == 0x10 && (decide (0x5000 ≤ e) || (decide (0x4000 ≤ e) && (b == 2 || b == 6)))) ||
  (a == 0x20 && decide (0x4000 ≤ e) && decide (b < 2)) ||
  (a == 0x30 && ((decide (0x4100 ≤ e ∧ e < 0x4400) && decide (b < 4)) || (decide (0x4400 ≤ e ∧ e < 0x4800) && b == 0) || (decide (0x4800 ≤ e) && decide (b < 2)))) ||
  (a == 0x38 && decide (0x4400 ≤ e) && b == 0) ||
  (a == 0x08 && decide (0x5000 ≤ e) && b == 1) ||
  (v == ustFailed && b == 0 && ((a == 0x28 && decide (0x4000 ≤ e ∧ e < 0x4100)) || (a == 0x30 && decide (0x4000 ≤ e ∧ e < 0x4100)) || (a == 0x40 && decide (0x4400 ≤ e))))

/-- The bytes of a copy of the field map, which the spec lays out nowhere. -/
def MapCopy.bytes (m : MapCopy) : Bytes := Config.fieldMap m.seq m.states m.rows m.fails

/-- The measurement of the defect map: the factory map followed by the field map (R425, R464). -/
def MapCopy.digest (m : MapCopy) : Bytes := sha256 (Config.factoryMap ++ m.bytes)

/-- Write the field map to the older copy with the next sequence number (R465, R467). -/
def State.writeMap (s : State) : State :=
  let q := (s.rd Obj.defectMapSequence + 1) % 2 ^ 32
  let m : MapCopy := ⟨q, s.reg.filter fun p => mapHolds p.1 p.2, s.mem.spared, s.boot.failCounts, []⟩
  let m := { m with mac := hmac s.sec.recordKey m.bytes }
  let s := { s with boot := { s.boot with mapOld := s.boot.mapNew, mapNew := m, mapDirty := [] } }
  (s.wr Obj.defectMapSequence q).measure ⟨6, 0, 0, m.digest⟩

/-- FIELD_MAP_WRITE: a unit's state, mapping or fail count changed (R467, R473). -/
def execFieldMapWrite (s : State) : Host.Outcome State Fault Refusal := .next (if s.boot.mapDirty.isEmpty then s else s.writeMap)

/-- The counts that follow from the mapping: SPARE sites of each die, and free spare rows (R81, R104). The rows counted are those of sites that serve a tile, 256 for each of
1,920: rows of SPARE sites come into service only with their site (DESIGN CHOICE: R104 gives no number). -/
def State.mapCounts (s : State) : State :=
  let sites := s.reg.filter fun p => keyArea p.1 == 0x10 && decide (0x5000 ≤ keyEntry p.1) && keySub p.1 == 0
  let s := (List.range 4).foldl (fun s d =>
    let mine := sites.filter fun p => (keyEntry p.1 - 0x5000) / 512 == d
    let more := (mine.filter fun p => decide ((keyEntry p.1 - 0x5000) % 512 < 480) && p.2 == ustSpare).length
    let less := (mine.filter fun p => decide (480 ≤ (keyEntry p.1 - 0x5000) % 512) && p.2 != ustSpare).length
    s.wr (Obj.spareTilesFree d) (32 + more - less)) s
  s.wr Obj.sramSpareRowsFree (491520 - (s.mem.spared.filter fun k => s.rd (Obj.siteLogical (k / 16384)) != 0xFFFF).length)

/-- The field map that verifies comes into force (R467). -/
def State.loadMap (s : State) (m : MapCopy) : State :=
  let s := m.states.foldl (fun s p => { s with reg := mput s.reg p.1 p.2 }) s
  let s := { s with mem := { s.mem with spared := m.rows }, boot := { s.boot with failCounts := m.fails } }
  (s.wr Obj.defectMapSequence m.seq).mapCounts

/-- Whether a copy of the field map verifies under the record key, so that no other package's does (R465). -/
def State.mapVerifies (s : State) (m : MapCopy) : Bool := m.mac == hmac s.sec.recordKey m.bytes

/-- The newest copy that verifies, read whole; with none the map is rebuilt from the factory map, which marks no unit (R466, R467). -/
def State.takeMap (s : State) (newOk oldOk : Bool) : State :=
  if newOk && s.mapVerifies s.boot.mapNew then s.loadMap s.boot.mapNew
  else if oldOk && s.mapVerifies s.boot.mapOld then s.loadMap s.boot.mapOld
  else ({ s with boot := { s.boot with failCounts := [] } }.wr Obj.defectMapState 1).event 0x0820 0x00 0 noCtx 0 0 0

/-! ## Cold reset (R447, R481) -/

/-- Whether `persist_reset` leaves a persistent object as it is: areas 00, 68 and 7C, and the objects that have no default (R447): the boot count, the serial number's alias,
the sequence of the field map, and the newest and oldest record. -/
def keptByReset (k : Nat) : Bool :=
  [0x00, 0x68, 0x6C, 0x7C, 0x84].contains (keyArea k) || [Obj.defectMapSequence.key, Obj.erNewestSeq.key, Obj.erOldestSeq.key].contains k

/-- The fail count of a site, which the field map keeps. -/
def isSiteFails (k : Nat) : Bool := keyArea k == 0x08 && decide (0x5000 ≤ keyEntry k)

/-- A copy of the field map with the fail counts of sites at their default, 0 (R447). -/
def MapCopy.clearFails (m : MapCopy) (key : Bytes) : MapCopy :=
  let m := { m with states := m.states.filter fun p => !isSiteFails p.1 }
  { m with mac := hmac key m.bytes }

/-- Whether an object's value outlives a cold reset in FL; fail counts of sites come back with the field map. -/
def keptInFl (pr : Bool) (k : Nat) : Bool :=
  persistent k && !isSiteFails k && (!pr || keptByReset k)

/-- Give an object, named by its key, the value that FL holds. -/
def State.flBack (s : State) (k : Nat) : State :=
  if keyIsInt k then { s with reg := match mget s.boot.flReg k with | some v => mput s.reg k v | none => mdel s.reg k }
  else { s with oct := match mget s.boot.flOct k with | some v => mput s.oct k v | none => mdel s.oct k }

/-- A store under way ends with the old value or with the new one (R447). -/
def State.flSettle (s : State) : State :=
  let s' := s.mgmt.storing.foldl (fun s e => s.flBack e.2.2.1) s
  s.mgmt.storing.foldl (fun s e =>
    let f := s.free 1
    if f.1 = 1 then f.2.flPut e.2.2.1 e.2.2.2 else f.2) s'

/-- What a cold reset leaves of bring-up: the pins, the references, and what FL holds. -/
def Boot.afterReset (b : Boot) (pr : Bool) : Boot :=
  { Boot.init with
    resetN := b.resetN, throttleN := b.throttleN, pfailN := b.pfailN, trayPresN := b.trayPresN, pmbusAlertN := b.pmbusAlertN, straps := b.straps
    refA := b.refA, refB := b.refB, rails := b.rails, mapNew := b.mapNew, mapOld := b.mapOld
    flReg := b.flReg.filter fun p => !pr || keptByReset p.1
    flOct := b.flOct.filter fun p => !pr || keptByReset p.1 }

/-- The same with `persist_reset` carried out: a copy of the field map that verifies holds the fail counts of sites at their default (R447). -/
def State.bootAfter (s : State) (pr : Bool) : Boot :=
  let b := s.boot.afterReset pr
  let f := fun (m : MapCopy) => if pr && s.mapVerifies m then m.clearFails s.sec.recordKey else m
  { b with mapNew := f b.mapNew, mapOld := f b.mapOld }

/-- Staging that was under way is lost (R460). -/
def State.resetFw (s : State) : State :=
  [1, 2, 3, 4].foldl (fun s e =>
    let s := s.setFw e { s.fwOf e with loading := [], loadEnd := 0 }
    if s.rd (Obj.fwState e) = fwLoading then s.wr (Obj.fwState e) fwNone else s) s

/-- A cold reset (R181, R348, R403, R447, R460, R481): every domain and volatile object returns to its default, work ends without completion, every context is FREE,
and the package is OFF. What the package has put on its boundary, its free values and the waiting commands are the model's own and stay. -/
def State.coldReset (s : State) : State :=
  let s := s.flSettle
  let pr := s.mgmt.persistReset
  let r := State.reset
  let t := { r with
    reg := s.reg.filter fun p => keptInFl pr p.1
    oct := s.oct.filter fun p => keptInFl pr p.1
    sec := { r.sec with uds := s.sec.uds, arForce := s.sec.arForce, arStored := s.rdo Obj.authorityRecord }
    mgmt := { r.mgmt with fw := s.mgmt.fw } }
  let t := { t with
    boot := s.bootAfter pr
    rcd := { r.rcd with mark := s.rcd.mark, nextSeq := s.rcd.mark, flCirc := s.rcd.flCirc, flFound := s.rcd.flFound }
    now := s.now, fresh := s.fresh, sent := s.sent, pending := s.pending }
  (t.resetFw.lowerRails computeRails).lowerRails fabricRails

/-- A cold reset is due: while a flush that PFAIL_N started goes on, the always-on domain waits for it, and every other domain is reset at once (R481). -/
def State.coldOrder (s : State) : State :=
  if s.rcd.flush = some 1 then { s.loseCompute.loseFabric with boot := { s.boot with resetWaits := true, inReset := [1, 2, 3, 4, 5] } }
  else s.coldReset

/-- RESET_ASSERT (R481, R515): a low shorter than 1 µs does nothing, and one shorter than 10 µs is recorded. -/
def execResetAssert (lowNs : Nat) (s : State) : Host.Outcome State Fault Refusal :=
  .next (if lowNs < 1000 then s
  else if lowNs < 10000 then s.event 0x0803 0x00 0 noCtx lowNs 0 0
  else { s with boot := { s.boot with resetN := false } }.coldOrder)

/-- RESET_COLD_CMD (R481, R487, R499): the flush runs first. -/
def State.resetCmd (s : State) (v : Nat) : State × Nat :=
  if v ≠ 1 then (s, rRefused) else ({ s.startFlush 3 with boot := { s.boot with resetWaits := true } }, rOk)

def execResetColdCmd (w : Who) (v : Nat) (s : State) : Host.Outcome State Fault Refusal := .next (s.ctl w (isCus w) fun s => s.resetCmd v)

/-- SC_WATCHDOG_EXPIRY (R481). -/
def execScWatchdogExpiry (s : State) : Host.Outcome State Fault Refusal := .next s.coldOrder

/-- FLUSH_DONE: everything lies in FL, and a cold reset that waited for it follows (R481, R499). -/
def execFlushDone (s : State) : Host.Outcome State Fault Refusal :=
  match s.rcd.flush with
  | none => .next s
  | some c =>
    let s := s.endFlush c
    .next (if s.boot.resetWaits then s.coldReset else s)

/-- RAILS_FALL_WITHOUT_STOPPING (R25, R181, R348): every rail falls, and the package comes back by power-on. -/
def execRailsFallWithoutStopping (s : State) : Host.Outcome State Fault Refusal := .next { s with boot := { s.boot with rails := [] } }.coldReset

/-! ## Steps ROOT and MANAGER -/

/-- The straps are sampled, and the counts of a new run begin (R8, R364, R425, R477, R516). -/
def State.atRoot (s : State) (r : RootRes) : State :=
  let p := r.straps % 64
  let s := { s with now := 0, boot := { s.boot with resetN := true, straps := p, refA := r.refA, refB := r.refB } }
  let s := (s.wr Obj.position p).wr Obj.trayNumber (State.trayOf p)
  let lead := decide (p % 4 = 0)
  let s := { s with steward := { s.steward with lead := lead } }.wr Obj.trayStatus (16 * ofBool lead)
  let s := s.wr Obj.refState (if r.refA then 1 else if r.refB then 2 else 0)
  (s.wr Obj.bootCount ((s.rd Obj.bootCount + 1) % 2 ^ 32)).leaveReset 0

/-- The images of the recorder are loaded from FL (R489, R494). -/
def State.loadRecords (s : State) (bad : List Nat) : State :=
  let ok := fun (l : List EvRec) => l.filter fun (r : EvRec) => !bad.contains r.seq
  let lost := ((s.rcd.flCirc ++ s.rcd.flFound).map (·.seq)).dedup.filter bad.contains
  let circ := ok s.rcd.flCirc
  let newest : Nat := (circ.head?.map fun (r : EvRec) => r.seq).getD 0
  let s := { s with rcd := { s.rcd with loaded := true, circ := circ, found := ok s.rcd.flFound } }
  let s := ((s.wr Obj.erNewestSeq newest).erSync).bumpBy Obj.erRecordsLost lost.length
  let gap : Bool := decide (newest + 1 < s.rcd.nextSeq)
  if gap ∨ !lost.isEmpty then
    s.makeRec ⟨0x7003, 0x00, 0, noCtx, lost.length, if gap then newest + 1 else 0, if gap then s.rcd.nextSeq else 0, s.pkgTime, s.upMs⟩
  else s

/-- The authority record of FL comes into force (R414, R416). -/
def State.loadAuthority (s : State) : State :=
  let new := s.sec.arStored
  let gone := decide (new ≠ s.sec.arForce)
  let s := { s with sec := { s.sec with arForce := new } }
  let mode := if s.unowned then 0 else arMode new
  let s := (s.wr Obj.authorityMode mode).wr Obj.authorityPending mode
  if gone ∧ s.unowned then
    let ks := Obj.sbCak.key :: (List.range 8).map fun k => (Obj.tenantImageKey k).key
    { s with oct := s.oct.filter fun p => !ks.contains p.1, boot := { s.boot with flOct := s.boot.flOct.filter fun p => !ks.contains p.1 } }
  else s

/-- The eleven measurements of the package (R425). -/
def State.measureAll (s : State) (m : MapCopy) : State :=
  let fw := fun (e d : Nat) => (⟨fwKind e, d, fwSvn (s.fwOf e).running.hdr, (s.fwOf e).running.digest⟩ : Meas)
  { s with sec := { s.sec with pkg := [⟨1, 0, 0, Config.romDigest⟩, fw 1 0, fw 2 0, fw 3 5, fw 4 1, fw 4 2, fw 4 3, fw 4 4, ⟨6, 0, 0, m.digest⟩,
    ⟨7, 0, 0, Config.trimDigest⟩, ⟨8, 0, 0, sha256 s.sec.arForce⟩] } }

/-- The field map in force, as a copy. -/
def State.mapNow (s : State) : MapCopy := ⟨s.rd Obj.defectMapSequence, s.reg.filter fun p => mapHolds p.1 p.2, s.mem.spared, s.boot.failCounts, []⟩

/-- The rest of step MANAGER (R154, R313, R407, R439, R466): the random-number generator, the group key, the interleave, the rail map, and the end of the step. -/
def State.atManager (s : State) (r : RootRes) : State :=
  let s := s.takeMap r.fieldMapOk r.olderMapOk
  let s := if r.rngOk then
      let k := s.random 32
      { k.2 with mgmt := { k.2.mgmt with groupKey := k.1 } }
    else (s.wr Obj.rngHealth 1).event 0x6801 0x00 0 noCtx 0 0 0
  let s := s.wr Obj.interleaveInForce (s.rd Obj.shallowsInterleave % 2 + 2 * (s.rd Obj.deepsInterleave % 2))
  let s := { s with agent := { s.agent with railMap := mgetD s.boot.flOct Obj.railMapLoad.key [] } }
  let s := ((s.measureAll s.mapNow).hostPorts 2).wr Obj.pkgPowerState pwrOff
  let s := ((s.wr Obj.bringupState 2).wr Obj.bringupResult 0x0200).recap
  { s with boot := { s.boot with step := 2 } }

/-- RESET_RELEASE: steps ROOT and MANAGER (R364, R408 to R410, R412, R416, R466, R468, R494). It follows a cold reset, and nothing else. -/
def State.release (s : State) (r : RootRes) : State :=
  let s := s.atRoot r
  if !r.identityOk then (s.wr Obj.identityState 1).halt 1 1
  else if !r.firmwareOk then s.halt 1 2
  else
    let s := ((s.activateFw 1).deriveKeys).activateFw 2
    let s := ([1, 2, 3, 4].foldl (fun s e => s.fwSync e) s).loadRecords r.badRecs
    let s := s.loadAuthority
    if !r.recordsOk then s.halt 2 3 else s.atManager r

def execResetRelease (r : RootRes) (s : State) : Host.Outcome State Fault Refusal := .next (if s.boot.step = 0 then s.release r else s)

/-! ## Steps RAILS to ICE_OUT -/

/-- A step fails: bring-up is halted, and the package goes through STOPPING to FABRIC (R470). -/
def State.stepFails (s : State) (result : Nat) : State := ((s.wr Obj.resourcesComplete 0).halt s.boot.step result).stop pwrFabric

/-- The outcome of a site's run (R473). -/
def State.katSite (s : State) (k : Nat) (failed : Bool) : State :=
  let st := s.rd (Obj.siteState k)
  if st = ustRetired ∨ (st = ustFailed ∧ 2 ≤ s.rd (Obj.siteFailCount k)) then s
  else if failed then ((s.goState (Obj.siteState k) 0x02 k ustFailed).bumpSat (Obj.siteFailCount k) 8).mapNote 0x02 k
  else if st = ustFailed then (s.goState (Obj.siteState k) 0x02 k ustSpare).mapNote 0x02 k else s

/-- Whether a unit may serve. -/
def State.serves (s : State) (o : Obj) : Bool := s.rd o == ustActive || s.rd o == ustSpare

/-- A failing row takes a spare row of its bank (R474). -/
def State.katRow (s : State) (k : Nat) : State :=
  if s.mem.spared.contains k then s
  else { s with mem := { s.mem with spared := s.mem.spared ++ [k] } }.mapNote 0x02 (k / 16384)

/-- Whether a bank has more failing rows than its 16 spare rows (R476). -/
def State.rowsShort (s : State) : Bool :=
  s.mem.spared.any fun k => s.serves (Obj.siteState (k / 16384)) && decide (16 < (s.mem.spared.filter fun j => j / 1024 == k / 1024).length)

/-- TILE_KAT (R472 to R474, R476). -/
def State.tileKat (s : State) (r : StepRes) : State :=
  let s := (List.range 2048).foldl (fun s k => (s.katSite k (r.sites.contains k)).pace) s
  r.rows.foldl (fun s k => s.katRow k) s

def State.tilesShort (s : State) : Bool :=
  s.rowsShort || (List.range 4).any fun d => decide (((List.range 512).filter fun k => s.serves (Obj.siteState (512 * d + k))).length < 480)

/-- MEMORY_KAT (R472, R473, R476). -/
def State.memoryKat (s : State) (r : StepRes) : State :=
  (List.range 1024).foldl (fun s u =>
    if u % 32 < 17 then (s.katUnit (Obj.dramState (u / 32) (u % 32)) 0x03 u ustSpare (r.dies.contains u)).pace else s) s

def State.memoryShort (s : State) : Bool :=
  (List.range 32).any fun st => decide (((List.range 17).filter fun k => s.serves (Obj.dramState st k)).length < 16)

/-- A logical tile takes a site (R475). -/
def State.mapTile (s : State) (n new : Nat) : State :=
  let old := s.siteOf n
  let s := if s.rd (Obj.siteLogical old) = n then (s.wr (Obj.siteLogical old) 0xFFFF).mapNote 0x02 old else s
  let s := ((s.wr (Obj.siteLogical new) n).goState (Obj.siteState new) 0x02 new ustActive).mapNote 0x02 new
  s.wr (Obj.tileSite n) (512 * (new / 512) + 32 * (new % 16) + new % 512 / 16)

/-- The tiles whose site did not pass take the SPARE site with the lowest index of their die (R65, R475). -/
def State.mapTiles (s : State) : State :=
  (List.range 1920).foldl (fun s n =>
    if s.rd (Obj.siteState (s.siteOf n)) = ustActive ∧ s.rd (Obj.siteLogical (s.siteOf n)) = n then s
    else match (List.range 512).find? fun k => s.rd (Obj.siteState (512 * dieOf n + k)) == ustSpare with
      | some k => (s.mapTile n (512 * dieOf n + k)).pace
      | none => s) s

/-- A rebuilt map assigns the tiles of each die afresh, in ascending site order (R65, R466, R475). -/
def State.mapAfresh (s : State) : State :=
  (List.range 4).foldl (fun s d =>
    let good := (List.range 512).filter fun k => s.serves (Obj.siteState (512 * d + k))
    let s := good.foldl (fun s k =>
      (s.wr (Obj.siteLogical (512 * d + k)) 0xFFFF).goState (Obj.siteState (512 * d + k)) 0x02 (512 * d + k) ustSpare) s
    ((good.take 480).mapIdx fun i k => (i, k)).foldl (fun s p => (s.mapTile (480 * d + p.1) (512 * d + p.2)).pace) s) s

/-- Logical DRAM dies whose position did not pass take their stack's SPARE position (R475). -/
def State.mapDram (s : State) : State :=
  (List.range 1024).foldl (fun s u =>
    let st := u / 32
    let k := u % 32
    let l := s.rd (Obj.dramLogical st k)
    if k ≥ 17 ∨ l = 0xFF ∨ s.rd (Obj.dramState st k) = ustActive then s
    else match s.spareDie st with
      | some n =>
        let s := ((s.wr (Obj.dramLogical st k) 0xFF).mapNote 0x03 u).wr (Obj.dramLogical st n) l
        (s.goState (Obj.dramState st n) 0x03 (32 * st + n) ustActive).mapNote 0x03 (32 * st + n)
      | none => s) s

/-- Whether every port maps its sixteen lanes to ACTIVE positions both ways, and whether every engine has nine ACTIVE lasers. -/
def State.lanesWhole (s : State) : Bool :=
  (List.range 18).all fun p => (List.range 2).all fun d => (List.range 16).all fun k =>
    match s.carrier p d k with
    | some i => s.rd (Obj.laneState p i d) == ustActive
    | none => false
def State.lasersWhole (s : State) : Bool := (List.range 4).all fun e => decide (((List.range 10).filter fun j => s.rd (Obj.laserState e j) == ustActive).length ≥ 9)

/-- MAP (R467, R475, R486): the mapping is formed and written, and the classes that are complete again are no longer exhausted. -/
def State.mapStep (s : State) : State :=
  let s := (if s.rd Obj.defectMapState = 1 then s.mapAfresh else s.mapTiles).mapDram
  let s := (List.range 1920).foldl (fun s n => if s.rd (Obj.tileRowsSpared n) = 0 then s else s.wr (Obj.tileRowsSpared n) 0) s
  let s := (s.mem.spared.map fun k => s.rd (Obj.siteLogical (k / 16384))).dedup.foldl
    (fun s n => if n < 1920 then s.wr (Obj.tileRowsSpared n) (s.sparedAt (s.siteOf n)) else s) s
  let m := s.rd Obj.spareExhausted
  let m := m &&& (8 * ofBool (!s.lanesWhole) + 16 * ofBool (!s.lasersWhole) + 128)
  ((s.wr Obj.spareExhausted m).mapCounts).writeMap

/-- ZERO (R166, R402): tile SRAM and both tiers hold zeros with a valid check, and no page is withheld. What is counted by the hour and the day goes on (R176), and so does
an evacuation (R181). -/
def State.zeroStep (s : State) : State :=
  let s := { s with mem := { Mem.init with spared := s.mem.spared, ceTimes := s.mem.ceTimes, ueSeen := s.mem.ueSeen, evacs := s.mem.evacs } }
  let s := ((s.wr Obj.scrubPasses 0).wr Obj.pagesWithheld 0).wr Obj.spareExhausted (s.rd Obj.spareExhausted % 128)
  (s.clr (Obj.memFreeMib 0)).clr (Obj.memFreeMib 1)

/-- ICE_OUT (R17, R208, R345, R471): units take their default states; a unit that stays FAILED under R473 stays so. The house channels, which have an owner and carry
the package's own fills and copies from here on (R185), come into service (DESIGN CHOICE: `te_state` gives one default for all channels). -/
def State.iceOut (s : State) : State :=
  let s := (List.range 1920).foldl (fun s n => (s.goState (Obj.tileState n) 0x01 n ustActive).pace) s
  let s := (List.range 72).foldl (fun s c => if s.rd (Obj.teState c) = ustFailed ∧ 2 ≤ s.failsOf 0x04 c then s else s.goState (Obj.teState c) 0x04 c (if isHouse c then ustActive else ustDisabled)) s
  let s := (List.range 4).foldl (fun s i => if s.rd (Obj.niState i) = ustFailed then s else s.goState (Obj.niState i) 0x0A i ustActive) s
  let s := ((s.wr Obj.resourcesComplete 1).wr Obj.bringupState 0x20).wr Obj.bringupResult 0x0200
  let s := (s.wr Obj.bringupElapsedMs s.upMs).wr Obj.pkgPowerState pwrOn
  let s := s.event 0x0802 0x00 0 noCtx s.upMs 0 0
  { s with boot := { s.boot with step := 0x20, held := false, runAll := false, retest := false }, steward := { s.steward with ramp := min s.effCap 880 } }.recap

/-- In-package links that have no lane left (R214, R476). -/
def State.linksShort (s : State) : Bool := (List.range 53).any fun l => s.rd (Obj.d2dState l) == ustFailed

/-- A step that succeeded: the next one runs, or the package holds (R469). In a re-test MEMORY_KAT follows TILE_KAT without a hold. -/
def State.stepGood (s : State) : State :=
  let k := s.boot.step
  let s := s.wr Obj.bringupState k
  let go := { s.wr Obj.bringupResult 0x0100 with boot := { s.boot with step := k + 1, held := false } }
  let hold := { s.wr Obj.bringupResult 0x0200 with boot := { s.boot with step := k + 1, held := true, retest := false } }
  if s.boot.retest ∧ k = 0x13 then go
  else if s.rd Obj.bringupAuto = 1 ∨ s.boot.runAll then { go with boot := { go.boot with retest := false } } else hold

/-- Firmware of the compute dies is loaded in step LINKS; a new image that fails gives way to the previous slot, with which the step runs again, and the step fails when no
slot starts (R459). -/
def State.linksStep (s : State) (r : StepRes) : State :=
  if !r.pass then s.stepFails 6
  else if r.d2dOut ∨ s.linksShort then s.stepFails 7
  else if r.fwOk then (s.settleFw [4]).stepGood
  else match s.fallback 4 with
    | none => s.stepFails 2
    | some s => s

/-- BRINGUP_STEP_DONE: the step that runs in STARTING is over (R468 to R476). A failure the step has no cause of its own for is reported as NO_SPARE, and one of the PLLs
as RAIL (DESIGN CHOICE). -/
def State.stepDone (s : State) (r : StepRes) : State :=
  if s.boot.step = 0x10 then
    if r.pass then
      ((List.range 4).foldl (fun s d => s.emit (.avs d 600)) (s.raiseRails computeRails)).stepGood
    else s.stepFails 5
  else if s.boot.step = 0x11 then
    if r.pass then
      let s := (List.range 4).foldl (fun s d => s.setClock d 600) s
      ([1, 2, 3, 4].foldl (fun s d => if s.domUp d then s else s.leaveReset d) s).stepGood
    else s.stepFails 5
  else if s.boot.step = 0x12 then s.linksStep r
  else if !r.pass then s.stepFails 7
  else if s.boot.step = 0x13 then
    let s := s.tileKat r
    if s.tilesShort then s.stepFails 7 else s.stepGood
  else if s.boot.step = 0x14 then
    let s := s.memoryKat r
    if s.memoryShort then s.stepFails 7 else s.stepGood
  else if s.boot.step = 0x15 then s.mapStep.stepGood
  else if s.boot.step = 0x16 then s.zeroStep.stepGood
  else s.iceOut

/-- Whether a step of STARTING runs. -/
def State.stepRuns (s : State) : Bool :=
  s.rd Obj.pkgPowerState == pwrStarting && decide (0x10 ≤ s.boot.step) && decide (s.boot.step ≤ 0x17) && !s.boot.held

def execBringupStepDone (r : StepRes) (s : State) : Host.Outcome State Fault Refusal := .next (if s.stepRuns then s.stepDone r else s)

/-! ## Holding (R469, R470) -/

/-- Whether the package holds before a step of STARTING. -/
def State.holds (s : State) : Bool := s.rd Obj.pkgPowerState == pwrStarting && s.boot.held

/-- The next step runs. -/
def State.goOn (s : State) (all : Bool) : State :=
  { s.wr Obj.bringupResult 0x0100 with boot := { s.boot with held := false, runAll := all } }

/-- A write of `bringup_cmd`: one that does not fit the present hold is refused. -/
def State.bringupCtl (s : State) (w : Who) (ok : Bool) (f : State → State) : State :=
  s.ctl w (isOpCus w) fun s => if ok then (f s, rOk) else (s, rRefused)

def execBringupNext (w : Who) (s : State) : Host.Outcome State Fault Refusal := .next (s.bringupCtl w s.holds fun s => s.goOn false)
def execBringupRun (w : Who) (s : State) : Host.Outcome State Fault Refusal := .next (s.bringupCtl w s.holds fun s => s.goOn true)

/-- BRINGUP_RETEST: TILE_KAT and MEMORY_KAT run again, while held after one of them. -/
def State.again (s : State) : State :=
  { s.wr Obj.bringupResult 0x0100 with boot := { s.boot with step := 0x13, held := false, retest := true } }

def execBringupRetest (w : Who) (s : State) : Host.Outcome State Fault Refusal :=
  .next (s.bringupCtl w (s.holds && (s.boot.step == 0x14 || s.boot.step == 0x15)) State.again)

def execBringupAbort (w : Who) (s : State) : Host.Outcome State Fault Refusal := .next (s.bringupCtl w s.holds fun s => s.stepFails 8)

def execBringupHoldTimeout (s : State) : Host.Outcome State Fault Refusal := .next (if s.holds then s.stepFails 9 else s)

/-- NO_REFERENCE_TIMEOUT: the package stays OFF, and starts FABRIC when a reference appears (R470). -/
def execNoReferenceTimeout (s : State) : Host.Outcome State Fault Refusal :=
  .next (if s.boot.step = 2 ∧ s.boot.held ∧ s.rd Obj.pkgPowerState = pwrOff ∧ !s.hasRef then
      let s := s.halt 3 4
      { s with boot := { s.boot with step := 2, held := true } }
    else s)

/-! ## Reference clocks (R477, R478) -/

/-- The `ref_state` of a reference: RCLK_A, or RCLK_B when `b`. -/
def refCode (b : Bool) : Nat := if b then 2 else 1

/-- REFCLK_LOSS: the reference in use is lost, and the package switches to the other one, or holds over. -/
def State.refLost (s : State) (b : Bool) : State :=
  let s := { s with boot := if b then { s.boot with refB := false } else { s.boot with refA := false } }
  if s.rd Obj.refState ≠ refCode b then s
  else if (if b then s.boot.refA else s.boot.refB) then
    ((s.wr Obj.refState (refCode (!b))).bump Obj.refSwitches).event 0x0810 0x00 0 noCtx (refCode (!b)) 0 0
  else (s.wr Obj.refState 3).event 0x0810 0x00 0 noCtx 3 0 0

def execRefclkLoss (b : Bool) (s : State) : Host.Outcome State Fault Refusal := .next (s.refLost b)

/-- REFCLK_RETURN: without a reference, or in holdover, the package locks to it; one that waits in OFF for a reference starts FABRIC (R470). -/
def State.refBack (s : State) (b : Bool) : State :=
  let s := { s with boot := if b then { s.boot with refB := true } else { s.boot with refA := true } }
  let s := if s.rd Obj.refState = 0 ∨ s.rd Obj.refState = 3 then s.wr Obj.refState (refCode b) else s
  if s.boot.held ∧ s.boot.step = 2 then s.fabricStart StepRes.good else s

def execRefclkReturn (b : Bool) (s : State) : Host.Outcome State Fault Refusal := .next (s.refBack b)

/-! ## Package time (R479) -/

/-- Synchronization is lost: package time reads 0, and every switch that waits for its time is cancelled (R422). -/
def State.unlock (s : State) : State :=
  if s.rd Obj.ptpState = 0 then s else (List.range 64).foldl (fun s c => s.cancelActivate c) (s.wr Obj.ptpState 0)

/-- PTP_SYNC: an offset estimate, package time less the source's, from the selected source: more than 1 ms is stepped, less is slewed as time passes. -/
def State.ptpSync (s : State) (offset : Int) : State :=
  let s := s.wr Obj.ptpOffsetAbsNs (min offset.natAbs 0xFFFFFFFF)
  let s := if offset.natAbs > 1000000 then
      { s with boot := { s.boot with ptpHeard := true, ptpOffset := 0, ptpDelta := s.boot.ptpDelta - offset } }.event 0x0812 0x00 0 noCtx (ofInt 64 (-offset)) 0 0
    else { s with boot := { s.boot with ptpHeard := true, ptpOffset := offset } }
  if offset.natAbs > 20000 then s.unlock else s

def execPtpSync (source : Nat) (offset : Int) (s : State) : Host.Outcome State Fault Refusal :=
  .next (if source = s.boot.ptpSource then s.ptpSync offset else s)

/-- PTP_LOCK_TIMER: the estimate has stayed within 20 µs for 10 s. -/
def execPtpLockTimer (s : State) : Host.Outcome State Fault Refusal :=
  .next (if s.boot.ptpHeard ∧ s.rd Obj.ptpOffsetAbsNs ≤ 20000 then s.wr Obj.ptpState 1 else s)

/-- PTP_SYNC_TIMEOUT: 10 s without Sync. -/
def execPtpSyncTimeout (s : State) : Host.Outcome State Fault Refusal := .next { s with boot := { s.boot with ptpHeard := false } }.unlock

/-- PTP_ANNOUNCE: a source that the best-master algorithm ranks higher is selected; whether it does is the message's own (R479). -/
def execPtpAnnounce (source : Nat) (better : Bool) (s : State) : Host.Outcome State Fault Refusal :=
  .next (if better then { s with boot := { s.boot with ptpSource := source } } else s)

/-! ## The spare policy (R485, R486) -/

/-- One request of the policy, recorded with its unit. -/
def State.asks (s : State) (cls unit action : Nat) : State := (s.bump Obj.spareRequests).event 0x0830 cls unit noCtx action 0 0

/-- The policy requests SWAP of a logical tile; one already under way is not asked for again. -/
def State.asksSwap (s : State) (n : Nat) : State :=
  if n ≥ 1920 ∨ (s.tile n).subst.isSome then s else ((s.asks 0x01 n 1).swapTile n false).1

/-- Whether some bank of a tile's site has no free spare row (R81). -/
def State.bankFull (s : State) (n : Nat) : Bool :=
  (List.range 16).any fun b => decide (16 ≤ (s.mem.spared.filter fun k => k / 1024 == 16 * s.siteOf n + b).length)

/-- What a reading beyond its limit asks for; its ageing readings are taken whatever the enable (R485, R487). -/
def State.policy (s : State) (r : WearRead) : State :=
  let on := s.rd Obj.sparePolicyEnable = 1
  match r with
  | .siteAge k v =>
    if k ≥ 2048 then s
    else
      let s := s.wr (Obj.siteAge k) (min v 0xFFFF)
      let s := s.wr (Obj.wearAge (k / 512)) (max (s.rd (Obj.wearAge (k / 512))) (min v 0xFFFF))
      if on ∧ s.rd Obj.tileAgeLimit < v then s.asksSwap (s.rd (Obj.siteLogical k)) else s
  | .drift n => if on ∧ s.rd Obj.shadowDriftLimit < s.rd (Obj.tileDrift n) then s.asksSwap n else s
  | .noRow n => if on ∧ s.bankFull n then s.asksSwap n else s
  | .dieErrors st k =>
    if !on ∨ st ≥ 32 ∨ k ≥ 17 ∨ !s.ceSteady (32 * st + k) ∨ s.rd (Obj.dramState st k) ≠ ustActive ∨ s.mem.evacs.any (fun e => e.stack == st && e.old == k) then s
    else (s.asks 0x03 (32 * st + k) 2).evacuate st k
  | .eye p dir i =>
    if !on ∨ p ≥ 18 ∨ dir ≠ 1 ∨ i ≥ 18 ∨ s.rd Obj.laneEyeMinMv ≤ s.rd (Obj.laneEyeMv p i) ∨ s.rd (Obj.laneState p i 1) ≠ ustActive ∨
      s.rd (Obj.linkState p) ≠ linkUp then s
    else (s.asks 0x06 (laneUnit p i) 3).startSub p i ustRetired

def execSparePolicyRequest (r : WearRead) (s : State) : Host.Outcome State Fault Refusal := .next (s.policy r)

/-! ## The test access port (R520 to R522) -/

/-- The codes of `tapInstr`: 0 after Test-Logic-Reset. -/
abbrev tapBypass : Nat := 1
abbrev tapIdcode : Nat := 2
abbrev tapSample : Nat := 3
abbrev tapPreload : Nat := 4
abbrev tapExtest : Nat := 5
abbrev tapHighz : Nat := 6

/-- The port takes an instruction; while a confidential context is resident it is held in reset with TDO high impedance (R522). -/
def State.tap (s : State) (instr : Nat) (drive float : Bool) (out : Option Nat) : State :=
  if s.rd Obj.confidentialResident = 1 then s
  else
    let s := { s with boot := { s.boot with tapInstr := instr, tapDrive := drive, tapFloat := float } }
    match out with
    | some v => s.emit (.tdo v)
    | none => s

def execBypass (tdi : Bool) (s : State) : Host.Outcome State Fault Refusal := .next (s.tap tapBypass false false (some (ofBool tdi)))
def execIdcode (s : State) : Host.Outcome State Fault Refusal := .next (s.tap tapIdcode false false (some 0x0C919A6B))

/-- The captured signals of R515, in an order of the model's own (DESIGN CHOICE). -/
def State.pins (s : State) : Nat :=
  let b := s.boot
  b.straps + 64 * ofBool b.resetN + 128 * ofBool b.throttleN + 256 * ofBool b.pfailN + 512 * ofBool b.trayPresN + 1024 * ofBool b.pmbusAlertN

def execSample (s : State) : Host.Outcome State Fault Refusal :=
  .next (if s.rd Obj.confidentialResident = 1 then s else { s with boot := { s.boot with bsr := s.pins } }.tap tapSample false false (some s.pins))
def execPreload (v : Nat) (s : State) : Host.Outcome State Fault Refusal :=
  .next (if s.rd Obj.confidentialResident = 1 then s else { s with boot := { s.boot with bsr := v } }.tap tapPreload false false none)

/-- Whether lands may be driven or floated (R521). -/
def State.tapFree (s : State) : Bool := s.rd Obj.pkgPowerState == pwrOff || s.rd Obj.pkgPowerState == pwrParked

def execExtest (s : State) : Host.Outcome State Fault Refusal :=
  .next (if s.tapFree then s.tap tapExtest true false none else s.tap tapBypass false false none)
def execHighz (s : State) : Host.Outcome State Fault Refusal :=
  .next (if s.tapFree then s.tap tapHighz false true none else s.tap tapBypass false false none)

end Sys2Proof.Machine
end

