-- ==== Sys2Proof/Machine/Hte.lean ====
section
/-! DEFINITION. Host transfers over RoCEv2: queue pairs, requests, responses and their failures (R205, R206). -/

namespace Sys2Proof.Machine

open Sys2Proof

/-- Queue-pair states (R211). -/
abbrev qpUnset : Nat := 0
abbrev qpReady : Nat := 1
abbrev qpError : Nat := 2

/-- The path MTU of a queue pair (R211). -/
def State.qpMtu (s : State) (h q : Nat) : Nat := if byteAt (s.rdo (Obj.hteQp h q)) 21 = 1 then 4096 else 1024

/-- The port of a queue pair (R211). -/
def State.qpPort (s : State) (h q : Nat) : Nat := byteAt (s.rdo (Obj.hteQp h q)) 20

/-- The packets of an RDMA WRITE: `k` chunks of the data from sequence number `psn` on; the immediate data goes with the last. -/
def writePkts : Nat → Nat → Nat → Nat → Nat → Bytes → Option Nat → List RdmaPkt
  | 0, _, _, _, _, _, _ => []
  | k + 1, mtu, psn, addr, serial, d, imm =>
    let c := d.take mtu
    ⟨psn, 0x0A, addr, c.length, serial, c, if k = 0 then imm else none⟩ :: writePkts k mtu ((psn + 1) % 2 ^ 24) (addr + c.length) serial (d.drop mtu) imm

/-- Packets are sent and kept until acknowledged (R206). -/
def State.sendRdma (s : State) (h q : Nat) (l : List RdmaPkt) (next : Nat) : State :=
  let p := s.qp h q
  l.foldl (fun s x => s.emit (.rdma h q x)) (s.setQp h q { p with psn := next, unacked := p.unacked ++ l })

/-- Packets of the acknowledged or returned data of one request. -/
def pktCount (mtu len : Nat) : Nat := max 1 (cdiv len mtu)

/-- A descriptor in progress that uses a queue pair. -/
def usesQp (q : Nat) (a : TeActive) : Bool := decide (8 ≤ dMode a.bytes) && dCount a.bytes == q && decide (a.phase = .working)

/-- A host descriptor's work ends with a status; a failure it met before tells more, where R23 puts it first (R199). -/
def TeActive.hostEnds (a : TeActive) (st : Status) (detail : Nat) : TeActive :=
  if a.status ≠ .ok ∧ a.status.first st = a.status then { a with phase := .ended } else { a with phase := .ended, status := st, detail := detail }

/-- A queue pair enters the error state (R206): the descriptor that failed ends with its own status, every other one in progress on the queue pair with
DEST_LOST, PORT_DOWN. -/
def State.qpFail (s : State) (h q : Nat) (own : Nat → Bool) (st : Status) (detail : Nat) : State :=
  let c := 64 + h
  let s := (s.setQp h q { s.qp h q with unacked := [], retries := 0 }).wr (Obj.hteQpState h q) qpError
  let ch := s.chan c
  let end_ := fun (a : TeActive) =>
    if usesQp q a then (if own a.serial then a.hostEnds st detail else a.hostEnds .destLost tdPortDown) else a
  s.setChan c { ch with active := ch.active.map end_ }

/-- A host descriptor whose work is over: with another status than OK the queue pair enters the error state (R206). -/
def State.hostEnd (s : State) (h q serial : Nat) (st : Status) (detail : Nat) : State :=
  if st = .ok then s.updActive (64 + h) serial fun a => { a with phase := .ended }
  else s.qpFail h q (· == serial) st detail

/-- A host descriptor starts (R206): on a queue pair that is not READY it ends with DEST_LOST, PORT_DOWN. A READ is one request. A WRITE's source is read, up
to a granule or address that fails (R199), and sent in packets of the path MTU. -/
def State.hostStart (s : State) (c : Nat) (a : TeActive) : State :=
  let h := c - 64
  let q := dCount a.bytes
  let ctx := (s.teOwnerOf c).getD 0
  let mtu := s.qpMtu h q
  let psn := (s.qp h q).psn
  if s.rd (Obj.hteQpState h q) ≠ qpReady then s.teEnd c a.serial .destLost tdPortDown 0
  else if dMode a.bytes = 8 then
    s.sendRdma h q [⟨psn, 0x0C, dAux a.bytes, dLen a.bytes, a.serial, [], none⟩] ((psn + pktCount mtu (dLen a.bytes)) % 2 ^ 24)
  else
    let r := s.read ctx .hte permRead (teLoc ctx (dSrc a.bytes)) (dLen a.bytes)
    let detail := if r.win then tdWindow else tdNone
    let s := r.s.updActive c a.serial fun x => { x with status := r.st, detail := detail, failAddr := r.addr }
    if r.data.isEmpty then s.hostEnd h q a.serial r.st detail
    else
      let n := cdiv r.data.length mtu
      let imm := if dMode a.bytes = 10 ∧ r.st = .ok then some (leNat (dTag a.bytes)) else none
      s.sendRdma h q (writePkts n mtu psn (dAux a.bytes) a.serial r.data imm) ((psn + n) % 2 ^ 24)

/-- Whether priority flow control has paused a queue pair's traffic (R206, R432): its priority is the precedence of its traffic class (PRESUMED). -/
def State.qpPaused (s : State) (h q : Nat) : Bool :=
  bit (mgetD s.mgmt.paused (s.qpPort h q) 0) (byteAt (s.rdo (Obj.hteQp h q)) 22 / 32)

/-- Start a host descriptor of a mode; while its priority is paused it waits. -/
def State.hostGo (s : State) (c mode : Nat) : State :=
  if (s.chan c).queue.head?.any fun d => s.qpPaused (c - 64) (dCount d.bytes) then s else s.teStart c (· == mode) fun s a => s.hostStart c a

def execHostRead (c : Nat) (s : State) : Host.Outcome State Fault Refusal := .next (s.hostGo c 8)
def execHostWrite (c : Nat) (s : State) : Host.Outcome State Fault Refusal := .next (s.hostGo c 9)
def execHostWriteImm (c : Nat) (s : State) : Host.Outcome State Fault Refusal := .next (s.hostGo c 10)

/-- Distance from one 24-bit sequence number to another. -/
def psnDist (a b : Nat) : Nat := (b + 2 ^ 24 - a) % 2 ^ 24

/-- The packets at the front of the unacknowledged ones that are WRITEs not after `psn`. -/
def ackedWrites (psn : Nat) : List RdmaPkt → List RdmaPkt
  | [] => []
  | p :: l => if p.op = 0x0A ∧ psnDist p.psn psn < 2 ^ 23 then p :: ackedWrites psn l else []

/-- Acknowledge WRITE packets up to `psn`: their bytes are written, and a descriptor whose last packet is acknowledged ends (R206). -/
def State.ackWrites (s : State) (h q psn : Nat) : State :=
  let p := s.qp h q
  let done := ackedWrites psn p.unacked
  if done.isEmpty then s
  else
    let s := s.setQp h q { p with unacked := p.unacked.drop done.length, retries := 0 }
    done.foldl (fun s x =>
      let s := s.updActive (64 + h) x.serial fun a => { a with bytesDone := a.bytesDone + x.len, pktsAcked := a.pktsAcked + 1 }
      if (s.qp h q).unacked.any fun y => y.serial == x.serial then s
      else match (s.chan (64 + h)).active.find? fun a => a.serial = x.serial ∧ a.phase = .working with
        | some a => s.hostEnd h q x.serial a.status a.detail
        | none => s) s

/-- Send again everything not acknowledged, a READ from its first missing response packet on (go-back-N, R206). -/
def State.resend (s : State) (h q : Nat) : State :=
  let p := s.qp h q
  let mtu := s.qpMtu h q
  (if s.qpPaused h q then [] else p.unacked).foldl (fun s x =>
    let got := if x.op = 0x0C then (((s.chan (64 + h)).active.find? fun a => a.serial = x.serial).map (·.pktsAcked)).getD 0 else 0
    (s.bump Obj.rdmaRetransmits).emit (.rdma h q { x with psn := (x.psn + got) % 2 ^ 24, addr := x.addr + got * mtu, len := x.len - got * mtu })) s

/-- A READ response packet: taken in order, written at the destination (R206); one out of order makes the requester go back. -/
def State.readResponse (s : State) (h q psn : Nat) (d : Bytes) : State :=
  let c := 64 + h
  match (s.qp h q).unacked.find? fun x => x.op = 0x0C with
  | none => s
  | some x =>
    match (s.chan c).active.find? fun a => a.serial = x.serial ∧ a.phase = .working with
    | none => s
    | some a =>
      if psn ≠ (x.psn + a.pktsAcked) % 2 ^ 24 then
        if psnDist x.psn psn < pktCount (s.qpMtu h q) x.len ∧ a.pktsAcked < psnDist x.psn psn then s.resend h q else s
      else
        let s := s.ackWrites h q ((x.psn + 2 ^ 24 - 1) % 2 ^ 24)
        let ctx := (s.teOwnerOf c).getD 0
        let off := a.pktsAcked * s.qpMtu h q
        let d := d.take (min (s.qpMtu h q) (x.len - off))
        let w := s.write ctx .hte permWrite ((teLoc ctx (dDst a.bytes)).adv off) d
        let s := w.s.updActive c a.serial fun a => { a with bytesDone := a.bytesDone + w.done, pktsAcked := a.pktsAcked + 1, failAddr := w.addr }
        if w.st ≠ .ok then s.hostEnd h q a.serial w.st (if w.win then tdWindow else tdNone)
        else if off + d.length ≥ x.len then
          let p := s.qp h q
          (s.setQp h q { p with unacked := p.unacked.filter fun y => y.psn != x.psn, retries := 0 }).hostEnd h q a.serial .ok tdNone
        else s.setQp h q { s.qp h q with retries := 0 }

/-- RDMA_RESPONSE: an acknowledgement, a negative acknowledgement (code 0 sequence error, 32 and above receiver not ready, any other one the request's own
refusal) or a READ response arrives (R206); one for a queue pair that is not READY is discarded (R207). -/
def execRdmaResponse (h q : Nat) (r : RdmaResp) (s : State) : Host.Outcome State Fault Refusal :=
  .next (if s.rd (Obj.hteQpState h q) ≠ qpReady then s
    else if r.kind = 0 then s.ackWrites h q r.psn
    else if r.kind = 2 then s.unlessHeld (s.readResponse h q r.psn r.data)
    else if r.kind ≠ 1 then s
    else
      let s := s.ackWrites h q ((r.psn + 2 ^ 24 - 1) % 2 ^ 24)
      if r.code = 0 ∨ r.code ≥ 32 then s.resend h q
      else match (s.qp h q).unacked.head? with
        | none => s
        | some x => s.qpFail h q (· == x.serial) .violation tdRemoteAccess)

/-- RDMA_ACK_TIMEOUT: 4 ms without an acknowledgement; after 7 retries the transfer ends with TIMEOUT, RETRY_EXCEEDED (R206). -/
def execRdmaAckTimeout (h q : Nat) (s : State) : Host.Outcome State Fault Refusal :=
  let p := s.qp h q
  match p.unacked.head? with
  | none => .next s
  | some x =>
    if p.retries ≥ 7 then .next (s.qpFail h q (· == x.serial) .timeout tdRetryExceeded)
    else .next ((s.setQp h q { p with retries := p.retries + 1 }).resend h q)

/-- RDMA_ECN_MARK: the queue pair reduces its rate. -/
def execRdmaEcnMark (h q : Nat) (s : State) : Host.Outcome State Fault Refusal :=
  let p := s.qp h q
  .next (s.setQp h q { p with slowed := p.slowed + 1 })

/-- HTE_PORT_DOWN_TIMEOUT: the port has had no link for 50 µs, and the queue pair's transfers end (R206). -/
def execHtePortDownTimeout (h q : Nat) (s : State) : Host.Outcome State Fault Refusal :=
  .next (if s.rd (Obj.mportLink (s.qpPort h q)) ≠ 1 ∧ ((s.chan (64 + h)).active.any (usesQp q)) then s.qpFail h q (fun _ => true) .destLost tdPortDown else s)

/-- RDMA_REQUEST_REFUSED: an incoming request is answered with a NAK, counted and acted on in no part (R205). -/
def execRdmaRequestRefused (port qpn : Nat) (s : State) : Host.Outcome State Fault Refusal :=
  .next ((s.bump Obj.rdmaRequestsRefused).emit (.rdmaNak port qpn))

/-- A write of `hte_qp`, while the channel is DISABLED and not FAILED (R205, R206, R211). -/
def State.setQpCfg (s : State) (h q : Nat) (v : Bytes) : State × Nat :=
  if v.length ≠ 32 then (s, rBadLength)
  else if byteAt v 19 ≠ 0 ∨ byteAt v 23 > 1 ∨ !allZero (slice v 24 8) then (s, rMalformed)
  else if byteAt v 20 > 1 ∨ byteAt v 21 > 1 then (s, rOutOfRange)
  else if s.rd (Obj.teState (64 + h)) ≠ ustDisabled then (s, rRefused)
  else (((s.wro (Obj.hteQp h q) v).setQp h q HteQp.init).wr (Obj.hteQpState h q) (if bit (byteAt v 23) 0 then qpReady else qpUnset), rOk)

/-- HTE_QP_WRITE. -/
def execHteQpWrite (w : Who) (h q : Nat) (v : Bytes) (s : State) : Host.Outcome State Fault Refusal :=
  .next (s.ctl w (isOpCus w) fun s => if h ≥ 8 ∨ q ≥ 16 then (s, rNoObject) else s.setQpCfg h q v)

end Sys2Proof.Machine
end

