-- ==== Sys2Proof/Machine/Rack.lean ====
section
/-! DEFINITION. The catchment steward: polling, budget and caps; SAFETY; and the supervision of a tray (R364 to R379). -/

namespace Sys2Proof.Machine

open Sys2Proof

/-! ## Orders as a package receives them -/

/-- A CAP_TABLE (R351, R360, R368, R369, R374): a sequence not above the one in force is ignored; the entry of this position is a cap, no grant, or ignored with an
event, which leaves the cap in force as it is. -/
def State.takeCaps (s : State) (seq arg : Nat) (table : Bytes) : State :=
  if seq ≤ s.rd Obj.capSequence then s
  else
    let e := leAt table (2 * s.pos) 2
    let s := s.wr Obj.capSequence seq
    let s := { s with steward := { s.steward with cduSupply := arg / 65536 % 65536 } }
    let s := if bit arg 0 ∧ s.rd Obj.floorLatched = 1 ∧ s.steward.floorSetNs + 500000 ≤ s.now then s.clearFloor else s
    if e ≤ 1 then
      let s := { s with steward := { s.steward with orphanCap := none, granted := false, fabricOrder := true } }.applyOrders
      if e = 1 then s.fabricStart StepRes.good else s
    else if 900 ≤ e ∧ e ≤ 2600 then
      ({ s with steward := { s.steward with orphanCap := none, granted := true, fabricOrder := false, stewardCap := e } }.applyOrders).starting
    else (s.event 0x5805 0x0E s.pos noCtx e seq 0).recap

/-- SAFETY (R370, R372): park and low-flow masks by tray, with the reason of the change. -/
def State.takeSafety (s : State) (seq park low reason : Nat) : State :=
  if seq ≤ s.steward.safetyRx then s
  else
    let t := State.trayOf s.pos
    let s := { s with steward := { s.steward with safetyRx := seq, lowFlowWh := bit low t } }.recap
    if !bit park t then s else if reason = 3 then (s.park pkLeak).park pkHub else s.park pkFlow

/-! ## Budget and caps (R368) -/

def eqKind (e : Bytes) : Nat := byteAt e 17
def State.eqState (s : State) (k : Nat) : Nat := s.rd (Obj.equipmentState k)

/-- A shelf that counts toward the budget (R366). -/
def State.counts (s : State) (k : Nat) : Bool := eqKind (s.rdo (Obj.equipment k)) == 1 && s.eqState k == 1 && !(s.eqOf k).lost

/-- Every used entry is SILENT at once (R366). -/
def State.allSilent (s : State) : Bool := !s.usedEq.isEmpty && s.usedEq.all fun k => s.eqState k == 3

/-- What the shelves that answer allow (R368). -/
def State.shelfBudget (s : State) : Nat :=
  let r := (s.usedEq.filter s.counts).foldl (fun a k => a + (s.eqOf k).rated) 0
  min (s.rd Obj.catchmentLimitW) (r * (100 - s.rd Obj.budgetMarginPct) / 100)

def State.powerOf (s : State) (q : Nat) : Option PowerRep := s.steward.reports.find? fun r => r.pos = q

/-- A position that may hold a grant: populated, with a host request, not OFF or PARKED, and its tray not parked. -/
def State.mayGrant (s : State) (q : Nat) : Bool :=
  s.rd (Obj.posState q) != ustFailed && !bit (s.rd Obj.parkMask) (State.trayOf q) && (match s.powerOf q with
    | some r => r.host != 0 && r.state != pwrOff && r.state != pwrParked
    | none => false)

/-- A start candidate (R368). -/
def State.candidate (s : State) (q : Nat) : Bool := s.mayGrant q && ((s.powerOf q).map (·.state)).getD 0 == pwrFabric

/-- B before the caps: 250 W for each package in FABRIC without a grant, 40 W for each that is OFF, PARKED or not populated. -/
def State.budget (s : State) (granted : List Nat) : Nat :=
  let gross := if s.allSilent then s.steward.keptBudget else s.shelfBudget
  gross - ((List.range 64).map fun q =>
    if granted.contains q then 0
    else match s.powerOf q with
      | some r => if s.rd (Obj.posState q) = ustFailed ∨ r.state = pwrOff ∨ r.state = pwrParked then 40 else if r.state = pwrFabric then 250 else 0
      | none => 40).foldl (· + ·) 0

/-- Drop the highest granted tray while 900 W for each granted package exceed the budget. -/
def ungrant : Nat → List Nat → Nat → List Nat
  | 0, g, _ => g
  | f + 1, g, b =>
    if 900 * g.length > b then
      let t := g.foldl (fun m q => max m (State.trayOf q)) 0
      ungrant f (g.filter fun q => State.trayOf q != t) b
    else g

def State.want (s : State) (q : Nat) : Nat :=
  match s.powerOf q with
  | none => 900
  | some r => min (max (r.demand + 50) 900) (min (if r.host = 0 then 2600 else r.host) (if bit (s.rd Obj.lowFlowMask) (State.trayOf q) then 1040 else 2600))

/-- The sum of the caps at a level. -/
def levelSum (wants : List Nat) (l : Nat) : Nat := wants.foldl (fun a w => a + min w (max 900 l)) 0

/-- L: the largest level whose caps fit the budget; none where every level does (`catchment_level_w` 0xFFFF). -/
def levelGo (wants : List Nat) (b : Nat) : Nat → Nat
  | 0 => 0
  | l + 1 => if levelSum wants (l + 1) ≤ b then l + 1 else levelGo wants b l

def levelOf (wants : List Nat) (b : Nat) : Option Nat := if levelSum wants 2600 ≤ b then none else some (levelGo wants b 2600)

/-- The CDU supply temperature that a CAP_TABLE carries. -/
def State.cduNow (s : State) : Nat :=
  match s.usedEq.find? fun k => eqKind (s.rdo (Obj.equipment k)) == 2 && s.eqState k == 1 with
  | some k => (s.eqOf k).supply % 65536
  | none => 0xFFFF

/-- A granted package that bring-up has not yet taken to ice-out holds `start_grant_w` (R364 steps 4 and 5). -/
def State.startsNow (s : State) (q : Nat) : Bool :=
  match s.powerOf q with
  | some r => r.state == pwrFabric || r.state == pwrStarting
  | none => false

/-- The caps of the granted positions within B (R368): those that start hold their grant while B has room for it beside 900 W for each other; otherwise the grant is what
they want, and every cap follows the level. -/
def State.capsFor (s : State) (g : List Nat) (b : Nat) : Option Nat × (Nat → Nat) :=
  let st := g.filter s.startsNow
  let rest := g.filter fun q => !s.startsNow q
  let grant := s.rd Obj.startGrantW
  if levelSum (rest.map s.want) 900 + grant * st.length ≤ b then
    let l := levelOf (rest.map s.want) (b - grant * st.length)
    (l, fun q => if s.startsNow q then grant else min (s.want q) (max 900 (l.getD 2600)))
  else
    let want := fun q => if s.startsNow q then grant else s.want q
    let l := levelOf (g.map want) b
    (l, fun q => min (want q) (max 900 (l.getD 2600)))

/-- A CAP_TABLE goes out with the next sequence (R368, R370), with release unless an alert is held. -/
def State.sendTable (s : State) (table : Bytes) : State :=
  let seq := (max s.steward.txSeq (s.rd Obj.capSequence) + 1) % 2 ^ 32
  let arg := ofBool (!s.steward.alert) + 65536 * s.cduNow
  let s := { s with steward := { s.steward with txSeq := seq, lastCaps := table } }
  let r := s.mkMsg mgCapTable seq arg table
  (r.1.sendAll r.2).takeCaps seq arg table

/-- Compute the caps and send a CAP_TABLE (R368); while every entry is SILENT no cap rises (R366). -/
def State.sendCaps (s : State) : State :=
  let held := s.steward.grantedPos.filter s.mayGrant
  let b := s.budget held
  let g := ungrant 17 held b
  let c := s.capsFor g b
  let cap := fun q =>
    let last := leAt s.steward.lastCaps (2 * q) 2
    if s.allSilent && decide (900 ≤ last) then min (c.2 q) last else c.2 q
  let off := fun q => ((s.powerOf q).map (·.state)).getD pwrParked == pwrOff && !bit (s.rd Obj.parkMask) (State.trayOf q)
  let entry := fun q => if g.contains q then cap q else if off q then 1 else 0
  let s := { s with steward := { s.steward with grantedPos := g } }
  ((s.wr Obj.catchmentBudgetW b).wr Obj.catchmentLevelW (c.1.getD 0xFFFF)).sendTable ((List.range 64).map fun q => leBytes 2 (entry q)).flatten

/-- The positions that have acknowledged over both paths in the newest period, this one among them (R329). -/
def State.ackedBoth (s : State) : Nat :=
  let a := s.wh.acksMgmt.headD []
  let b := s.wh.acksData.headD []
  1 + (a.filter fun q => q != s.pos && b.contains q).length

/-- A new heartbeat period begins (R319): this position's own acknowledgement stands in it, and every generation is a period older. -/
def State.newPeriod (s : State) : State :=
  { s with wh := { s.wh with
    acksMgmt := ([s.pos] :: s.wh.acksMgmt).take 5, acksData := ([s.pos] :: s.wh.acksData).take 5
    genAge := (List.range 64).foldl (fun m q => mput m q (min 5 (mgetD m q 0 + 1))) s.wh.genAge } }

/-- What a change of a position's state asks of the caps: a CAP_TABLE within 2 ms (R368), sent with the next heartbeat. -/
def State.capsIfDue (s : State) : State := if s.wh.capsDue then { s with wh := { s.wh with capsDue := false } }.sendCaps else s

/-- HEARTBEAT_INTERVAL (R321, R324, R325, R329, R368). -/
def execHeartbeatInterval (s : State) : Host.Outcome State Fault Refusal :=
  if !s.isWh then .next s
  else
    let few := decide (s.ackedBoth < s.rd Obj.whQuorum) && !s.wh.acksMgmt.isEmpty
    let s := { s with wh := { s.wh with noQuorum := if few then s.wh.noQuorum + 1 else 0 } }
    if s.wh.noQuorum ≥ 5 ∨ (s.wh.mapFormed ∧ s.rd (Obj.posState s.pos) = ustFenced) then .next s.stepDown
    else
      let s := (s.evaluate.newPeriod.nameStandby).sendHeartbeat
      .next ((s.epochAcked s.pos (s.rd Obj.agentEpoch)).capsIfDue).replicate

def execCapTableInterval (s : State) : Host.Outcome State Fault Refusal := .next (if s.isWh then s.sendCaps else s)

/-- CAP_TABLE (R329, R368): only of the term followed; R329 names the messages that are counted otherwise, and this is none of them. -/
def execCapTable (s : State) : Host.Outcome State Fault Refusal :=
  .next (s.onMsg mgCapTable fun s i => if s.follows i.msg then s.takeCaps i.msg.gen i.msg.arg i.msg.payload else s)

/-- TRAY_START_INTERVAL (R364 step 4): the next tray in ascending order with a start candidate, where the budget allows it and none is SILENT or on alert. -/
def State.startTray (s : State) : State :=
  match ((List.range 16).map fun i => (s.steward.nextTray + i) % 16).find? fun t =>
      (List.range 64).any fun q => State.trayOf q == t && s.candidate q && !s.steward.grantedPos.contains q with
  | none => s
  | some t =>
    let new := (List.range 64).filter fun q => State.trayOf q == t && s.candidate q && !s.steward.grantedPos.contains q
    let held := s.steward.grantedPos.filter s.mayGrant
    let b := s.budget (held ++ new)
    if s.allSilent ∨ s.steward.alert ∨ b < levelSum (held.map s.want) 900 + s.rd Obj.startGrantW * new.length then s
    else { s with steward := { s.steward with grantedPos := held ++ new, nextTray := (t + 1) % 16 } }.sendCaps

def execTrayStartInterval (s : State) : Host.Outcome State Fault Refusal := .next (if s.isWh then s.startTray else s)

/-! ## POWER_REPORT -/

/-- A tray whose park has been released leaves `park_mask`, which is a change of a SAFETY order (R350, R368, R372): the Wellhead sees it by the first POWER_REPORT of one of
its packages that shows another state after PARKED (DEDUCED). -/
def State.unparkTray (s : State) (t : Nat) : State :=
  if bit (s.rd Obj.parkMask) t then (s.wr Obj.parkMask (setBit (s.rd Obj.parkMask) t false)).sendCaps else s

def execPowerReportInterval (s : State) : Host.Outcome State Fault Refusal := .next s.sendPower

/-- POWER_REPORT (R366, R370): kept by the Wellhead and the tray lead; a throttle flag that a position's report raises is an alert. It is taken under any term, as the
messages of a tray are: R373, R377 and R504 need them across an election (DEDUCED). -/
def execPowerReport (s : State) : Host.Outcome State Fault Refusal :=
  .next (s.onMsg mgPowerReport fun s i =>
    let m := i.msg
    let p := m.payload
    let was := ((s.powerOf m.origin).map fun r => bit r.flags 0).getD false
    let risen := ((s.powerOf m.origin).map fun r => r.state == pwrStarting).getD false && byteAt p 6 == pwrOn
    let s := if m.origin < 64 ∧ risen then s.cameBack m.origin else s
    let r : PowerRep := ⟨m.origin, leAt p 0 2, leAt p 2 2, leAt p 4 2, byteAt p 6, byteAt p 7⟩
    let left := ((s.powerOf m.origin).map fun r => r.state == pwrParked).getD false && byteAt p 6 != pwrParked
    let s := { s with steward := { s.steward with reports := upsert (fun (x : PowerRep) => x.pos) r s.steward.reports } }
    if !s.isWh then s
    else
      let s := if left then s.unparkTray (State.trayOf m.origin) else s
      let s := s.wr Obj.catchmentPowerW (s.steward.reports.foldl (fun a x => a + x.power) 0)
      if bit r.flags 0 ∧ !was then s.beginAlert else s)

/-! ## SAFETY -/

/-- Send the SAFETY masks with a reason, and the caps that follow (R368, R370). -/
def State.sendSafety (s : State) (reason : Nat) : State :=
  let seq := (max s.steward.safetySeq s.steward.safetyRx + 1) % 2 ^ 32
  let park := s.rd Obj.parkMask
  let low := s.rd Obj.lowFlowMask
  let s := { s with steward := { s.steward with safetySeq := seq } }
  let r := s.mkMsg mgSafety seq 0 (bytesOf [leBytes 2 park, leBytes 2 low, leBytes 1 reason, zeros 11])
  ((r.1.sendAll r.2).takeSafety seq park low reason).sendCaps

/-- SAFETY (R329, R370): only of the term followed. -/
def execSafety (s : State) : Host.Outcome State Fault Refusal :=
  .next (s.onMsg mgSafety fun s i =>
    if s.follows i.msg then s.takeSafety i.msg.gen (leAt i.msg.payload 0 2) (leAt i.msg.payload 2 2) (byteAt i.msg.payload 4) else s)

/-- The Wellhead parks a tray (R372, R377). -/
def State.parkTray (s : State) (t reason : Nat) : State :=
  if bit (s.rd Obj.parkMask) t then s
  else ((s.wr Obj.parkMask (setBit (s.rd Obj.parkMask) t true)).event 0x5803 0x14 t noCtx reason 0 0).sendSafety reason

/-- Whether a CDU has shown that it does not pump, and not since that it does (R367, R372); one that is SILENT or FAULT shows neither. -/
def State.cduStopped (s : State) : Bool := s.usedEq.any fun k => eqKind (s.rdo (Obj.equipment k)) == 2 && (s.eqOf k).stopped

/-- A pump loss is declared, or is over (R367, R372). -/
def State.checkPump (s : State) : State :=
  let lost := s.cduStopped || decide (s.rd Obj.pumpLossTrays ≤ s.steward.trayLow.length)
  if lost && !s.steward.pumpLoss then
    let s := { s with steward := { s.steward with pumpLoss := true } }.bump Obj.pumpLosses
    ((s.event 0x5802 0x00 0 noCtx s.steward.trayLow.length 0 0).wr Obj.lowFlowMask 0xFFFF).sendSafety 1
  else if !lost && s.steward.pumpLoss then { s with steward := { s.steward with pumpLoss := false } } else s

/-- The trays in LOW_FLOW that are not parked and whose used flow is still below the limit (R372). -/
def State.parkable (s : State) : List Nat :=
  s.steward.trayLow.filter fun t => !bit (s.rd Obj.parkMask) t && decide (mgetD s.steward.trayUsed t 0 < s.rd Obj.flowMinClpm)

/-- PUMP_PARK_TIMER (R372): one tray whose used flow is still below the limit, the one with the highest outlet temperature first. -/
def execPumpParkTimer (s : State) : Host.Outcome State Fault Refusal :=
  let hot := fun t => sext (mgetD s.steward.trayOut t 0) 16
  .next (if !s.isWh ∨ !s.steward.pumpLoss then s
    else match s.parkable with
      | [] => s
      | a :: rest => s.parkTray (rest.foldl (fun m t => if hot m < hot t then t else m) a) 1)

/-! ## Equipment (R365, R366) -/

def execEquipmentPoll (k : Nat) (s : State) : Host.Outcome State Fault Refusal := .next (if s.isWh ∧ s.usedEq.contains k then s.pollEq k else s)

/-- A shelf loss is learned: caps are sent with release (R366, R371 step 3). -/
def State.learnLoss (s : State) (k : Nat) : State :=
  let s := (s.bump Obj.shelfLosses).event 0x5801 0x13 k noCtx (s.eqOf k).status 0 0
  { s with steward := { s.steward with alert := false } }.sendCaps

/-- The poll of an alert is over for an entry; once every entry has answered or timed out, and every shelf is OK, the caps in force go out with release (R371). -/
def State.alertSeen (s : State) (k : Nat) : State :=
  if !s.steward.alert then { s with steward := { s.steward with alertWait := s.steward.alertWait.filter fun (x : Nat) => x != k } }
  else
    let l := s.steward.alertWait.filter fun (x : Nat) => x != k
    let s := { s with steward := { s.steward with alertWait := l } }
    if !l.isEmpty then s
    else
      let s := { s with steward := { s.steward with alert := false } }
      let ok := s.usedEq.all fun k => eqKind (s.rdo (Obj.equipment k)) != 1 || s.counts k
      if ok ∧ !s.steward.lastCaps.isEmpty then s.sendTable s.steward.lastCaps else s.sendCaps

/-- EQUIPMENT_RESPONSE (R365 to R367). -/
def State.eqAnswer (s : State) (k status regB regC : Nat) : State :=
  let kind := eqKind (s.rdo (Obj.equipment k))
  let was := s.counts k
  let ok := if kind = 2 then decide (status ≤ 1) else status == 0
  let e := s.eqOf k
  let s := s.setEq k { e with waiting := false, misses := 0, lost := false, status := status
                              rated := if kind = 1 then 10 * regB else e.rated, supply := if kind = 2 then regB else e.supply
                              regC := regC, stopped := if kind = 2 ∧ status ≤ 1 then status == 0 else e.stopped }
  let s := s.wr (Obj.equipmentState k) (if ok then 1 else 2)
  let s := { s with steward := { s.steward with keptBudget := s.shelfBudget } }
  let s := if was ∧ !s.counts k then s.learnLoss k else s
  (s.alertSeen k).checkPump

def execEquipmentResponse (k status regB regC : Nat) (s : State) : Host.Outcome State Fault Refusal :=
  .next (if s.isWh ∧ (s.eqOf k).waiting ∧ s.usedEq.contains k then s.eqAnswer k status regB regC else s)

/-- POLL_TIMEOUT (R365, R366): three in a row make an entry SILENT, and one during an alert counts a shelf as lost. -/
def State.eqMiss (s : State) (k : Nat) : State :=
  let e := s.eqOf k
  let was := s.counts k
  let silentBefore := s.allSilent
  let s := s.setEq k { e with waiting := false, misses := e.misses + 1, lost := e.lost || s.steward.alertWait.contains k }
  let s := if 3 ≤ e.misses + 1 then s.wr (Obj.equipmentState k) 3 else s
  let s := if s.allSilent then (if silentBefore then s else s.event 0x5804 0x00 0 noCtx s.usedEq.length 0 0)
    else if was ∧ !s.counts k then s.learnLoss k else s
  s.alertSeen k

def execPollTimeout (k : Nat) (s : State) : Host.Outcome State Fault Refusal :=
  .next (if s.isWh ∧ (s.eqOf k).waiting ∧ s.usedEq.contains k then s.eqMiss k else s)

/-! ## Trays (R373, R376 to R379) -/

/-- The packages of a tray. -/
def trayMembers (t : Nat) : List Nat := (List.range 64).filter fun q => State.trayOf q == t

/-- A message of the lead to the Wellhead and its tray peers on both paths (R370). -/
def State.toTray (s : State) (typ arg : Nat) (pay : Bytes) : State :=
  let r := s.mkMsg typ 0 arg pay
  let w := r.1.rd Obj.agentWellhead
  let l := (trayMembers (State.trayOf s.pos)).filter (· != s.pos)
  let l := if w < 64 ∧ !l.contains w then l ++ [w] else l
  l.foldl (fun s q => s.sendBoth q r.2) r.1

/-- Loop classes (R376): 0 DRY, 1 WET, 2 FAULT. -/
def loopClassOf (ohm : Nat) : Nat := if 50000 < ohm then 2 else if 3000 ≤ ohm then 0 else if 200 ≤ ohm then 1 else 2

/-- The used flow (R379), from the flow that the rise over T_in of R378 implies, in 0.01 L/min. -/
def State.usedFlow (s : State) (h : HubRead) : Nat :=
  let p := ((trayMembers (State.trayOf s.pos)).filterMap s.powerOf).foldl (fun a r => a + r.power) 0
  let d := h.outlet - s.inletTemp
  if d < 50 then h.flow else min h.flow (600000 * p / (s.rd Obj.coolantCv * d.toNat))

/-- Bit `b` of the tray status. -/
def State.setTray (s : State) (b : Nat) (v : Bool) : State := s.wr Obj.trayStatus (setBit (s.rd Obj.trayStatus) b v)

/-- A tray alarm acts on a package of the tray (R373, R377): 1 LEAK, 2 LOOP_FAULT, 3 LOW_FLOW, 4 FLOW_RESTORED, 5 HUB_LOST. -/
def State.alarmed (s : State) (a : Nat) : State :=
  if a = 1 ∨ a = 2 then s.park pkLeak
  else if a = 5 then s.park pkHub
  else if a = 3 then { s with steward := { s.steward with lowFlowSaid := true } }
  else if a = 4 then { s with steward := { s.steward with lowFlowSaid := false, lowFlowTray := false } }.recap else s

/-- A tray alarm at the Wellhead (R372, R377). -/
def State.alarmWh (s : State) (t a : Nat) : State :=
  if !s.isWh then s
  else if a = 1 ∨ a = 2 ∨ a = 5 then s.parkTray t 3
  else if a = 3 then
    let s := { s with steward := { s.steward with trayLow := if s.steward.trayLow.contains t then s.steward.trayLow else s.steward.trayLow ++ [t] } }
    (if bit (s.rd Obj.lowFlowMask) t then s else (s.wr Obj.lowFlowMask (setBit (s.rd Obj.lowFlowMask) t true)).sendSafety 2).checkPump
  else if a = 4 then { s with steward := { s.steward with trayLow := s.steward.trayLow.filter fun (x : Nat) => x != t } }.checkPump else s

/-- The lead raises an alarm (R373, R377). -/
def State.raiseAlarm (s : State) (a : Nat) : State :=
  let t := State.trayOf s.pos
  ((s.toTray mgTrayAlarm (t + 256 * a) []).alarmed a).alarmWh t a

def execTrayAlarm (s : State) : Host.Outcome State Fault Refusal :=
  .next (s.onMsg mgTrayAlarm fun s i =>
    let t := i.msg.arg % 256
    let a := i.msg.arg / 256 % 256
    (if t = State.trayOf s.pos then s.alarmed a else s).alarmWh t a)

/-- Readings of a tray reach the Wellhead (R372, R379): a tray whose used flow has been at 110% for 1 s, with the CDU pumping, leaves the low-flow mask. -/
def State.trayAt (s : State) (t : Nat) (outlet used status : Nat) : State :=
  if !s.isWh then s
  else
    let w := s.steward
    let low := bit status 2
    let good := decide (110 * s.rd Obj.flowMinClpm ≤ 100 * used)
    let s := { s with steward := { w with
      trayUsed := mput w.trayUsed t used
      trayOut := mput w.trayOut t outlet
      trayStat := mput w.trayStat t status
      trayOk := if good then (if (mget w.trayOk t).isSome then w.trayOk else mput w.trayOk t s.now) else mdel w.trayOk t
      trayLow := if low then (if w.trayLow.contains t then w.trayLow else w.trayLow ++ [t]) else w.trayLow.filter fun (x : Nat) => x != t } }.checkPump
    match mget s.steward.trayOk t with
    | none => s
    | some since =>
      if bit (s.rd Obj.lowFlowMask) t ∧ !s.cduStopped ∧ since + 1000000000 ≤ s.now then
        (s.wr Obj.lowFlowMask (setBit (s.rd Obj.lowFlowMask) t false)).sendSafety 2
      else s

/-- A loop reading as TRAY_SENSORS carries it, in 10 Ω (R370). -/
def loopWord (ohm : Nat) : Nat := if ohm ≥ 655350 then 0xFFFF else ohm / 10

/-- A loop's class is acted on after two equal readings in a row (R376). -/
def State.takeLoop (s : State) (k ohm : Nat) : State :=
  let c := loopClassOf ohm
  let w := s.steward
  let same := decide (mgetD w.loopPrev k 0 = c)
  let s := s.wr (Obj.leakLoopOhms k) (if ohm ≥ 655350 then 0xFFFFFFFF else ohm)
  { s with steward := { w with loopPrev := mput w.loopPrev k c, loopClass := if same then mput w.loopClass k c else w.loopClass } }

/-- The lead sends TRAY_SENSORS, with the readings and the status as they stand, and takes them as the Wellhead does (R370). -/
def State.sendSensors (s : State) : State :=
  let w := s.steward
  let t := State.trayOf s.pos
  let st := s.rd Obj.trayStatus % 16
  let used := s.rd (Obj.flowClpm 1)
  let loops := ((List.range 4).map fun k => leBytes 2 (loopWord (s.rd (Obj.leakLoopOhms k)))).flatten
  let pay := bytesOf [leBytes 2 w.inlet, leBytes 2 w.outlet, leBytes 2 (s.rd (Obj.flowClpm 0)), leBytes 2 used, leBytes 2 w.pressure, loops, leBytes 1 st, zeros 13]
  (s.toTray mgTraySensors t pay).trayAt t w.outlet used st

/-- HUB_READ by the tray lead (R376 to R379): loops, temperatures and flow; TRAY_SENSORS go out, and alarms where a condition begins. -/
def State.hub (s : State) (h : HubRead) : State :=
  let old := s.rd Obj.trayStatus
  let s := ((List.range 4).zip h.loops).foldl (fun s x => s.takeLoop x.1 x.2) s
  let s : State := { s with steward := { s.steward with inlet := ofInt 16 h.inlet, outlet := ofInt 16 h.outlet, pressure := h.pressure } }
  let used := s.usedFlow h
  let s := (s.wr (Obj.flowClpm 0) h.flow).wr (Obj.flowClpm 1) used
  let any := fun c => s.steward.loopClass.any fun p => p.2 == c
  let low := bit old 2 || decide (used < s.rd Obj.flowMinClpm)
  let st := ofBool (any 1) + 2 * ofBool (any 2) + 4 * ofBool low + 16
  let s := s.wr Obj.trayStatus st
  let s := s.sendSensors
  let s := if any 1 && !bit old 0 then s.raiseAlarm 1 else s
  let s := if any 2 && !bit old 1 then s.raiseAlarm 2 else s
  if low && !bit old 2 then s.raiseAlarm 3 else s

def execHubRead (h : HubRead) (s : State) : Host.Outcome State Fault Refusal := .next (if s.steward.lead then s.hub h else s)

/-- TRAY_SENSORS (R370): a peer of the tray takes the readings, and the package that sends them is its lead. -/
def execTraySensors (s : State) : Host.Outcome State Fault Refusal :=
  .next (s.onMsg mgTraySensors fun s i =>
    let p := i.msg.payload
    let t := i.msg.arg % 256
    let st := byteAt p 18 % 16
    let s := s.trayAt t (leAt p 2 2) (leAt p 6 2) st
    if t ≠ State.trayOf s.pos then s
    else
      let s := { s with steward := { s.steward with inlet := leAt p 0 2, outlet := leAt p 2 2, leadCol := i.msg.origin % 4, lead := decide (i.msg.origin = s.pos) } }
      let s := (s.wr (Obj.flowClpm 0) (leAt p 4 2)).wr (Obj.flowClpm 1) (leAt p 6 2)
      let s := (List.range 4).foldl (fun s k =>
        let v := leAt p (10 + 2 * k) 2
        s.wr (Obj.leakLoopOhms k) (if v = 0xFFFF then 0xFFFFFFFF else 10 * v)) s
      s.wr Obj.trayStatus (st + 16 * ofBool s.steward.lead))

/-- HUB_UNREADABLE_TIMEOUT (R370, R377): the tray and the Wellhead learn of it by the status, which a later read clears, and by the alarm. -/
def execHubUnreadableTimeout (s : State) : Host.Outcome State Fault Refusal :=
  .next (if !s.steward.lead ∨ bit (s.rd Obj.trayStatus) 3 then s else (s.setTray 3 true).sendSensors.raiseAlarm 5)

/-- LEAD_HANDOFF (R376): the next column of the tray takes over the hub. -/
def execLeadHandoff (s : State) : Host.Outcome State Fault Refusal :=
  let c := (s.steward.leadCol + 1) % 4
  let me := decide (s.pos % 4 = c)
  let s := { s with steward := { s.steward with leadCol := c, lead := me } }.setTray 4 me
  .next (if me then s.emit (.hub 1) else s)

/-- LOW_FLOW_CAP_TIMER: 50 ms after the lead's report the cap of 1,040 W is in force (R373). -/
def execLowFlowCapTimer (s : State) : Host.Outcome State Fault Refusal :=
  .next (if s.steward.lowFlowSaid then { s with steward := { s.steward with lowFlowTray := true } }.recap else s)

/-- LOW_FLOW_PARK_TIMER (R373): at 5 s with no Wellhead followed, at 9 s with one. -/
def execLowFlowParkTimer (s : State) : Host.Outcome State Fault Refusal := .next (if s.steward.lowFlowSaid then s.park pkFlow else s)

/-- LOW_FLOW_EXIT_TIMER (R379): one second at 110% or more. -/
def execLowFlowExitTimer (s : State) : Host.Outcome State Fault Refusal :=
  .next (if s.steward.lead ∧ bit (s.rd Obj.trayStatus) 2 ∧ 110 * s.rd Obj.flowMinClpm ≤ 100 * s.rd (Obj.flowClpm 1) then (s.setTray 2 false).raiseAlarm 4 else s)

/-- ORPHAN_CAP_TIMER (R374). -/
def execOrphanCapTimer (s : State) : Host.Outcome State Fault Refusal :=
  .next (if s.rd Obj.agentState ≠ agOrphan then s
    else { s with steward := { s.steward with orphanCap := some (if s.steward.granted then min s.steward.stewardCap 1600 else 1600) } }.recap)

/-- SENSOR_SUSPECT_TIMER (R378): a sensor that has read more than 15 °C below its model for 1 s becomes SUSPECT; one that has read no more than 5 °C below it for 10 s is
no longer so. -/
def execSensorSuspectTimer (sensor : Nat) (reading : Int) (s : State) : Host.Outcome State Fault Refusal :=
  let l := s.steward.suspect
  let model := s.sensorModel sensor
  .next (if reading < model - 1500 ∧ !l.contains sensor then
    let s := { s with steward := { s.steward with suspect := l ++ [sensor] } }
    (s.wr Obj.sensorsSuspect (l.length + 1)).event 0x5004 0x10 sensor noCtx (ofInt 64 reading) (ofInt 64 model) 0
  else if model - 500 ≤ reading ∧ l.contains sensor then
    let l := l.filter fun (x : Nat) => x != sensor
    { s with steward := { s.steward with suspect := l } }.wr Obj.sensorsSuspect l.length
  else s)

end Sys2Proof.Machine
end

