-- ==== Sys2Proof/Machine/Spdm.lean ====
section
/-! DEFINITION. SPDM 1.3 in a management session (R427, R429, R444). Message layouts are those of DMTF DSP0274 1.3 (PRESUMED where R429 names no byte). -/

namespace Sys2Proof.Machine

open Sys2Proof

/-- SPDM (R444): in a session of any management role, one message at a time; a second one before the answer is discarded. -/
def execSpdm (f : NxFrame) (body : Bytes) (s : State) : Host.Outcome State Fault Refusal :=
  .next (match s.frameIn f ntSpdm body with
    | (s, none) => s
    | (s, some x) =>
      if x.st ≠ .opened ∨ x.role = roleSteward then s.bump Obj.nxfFramesBad
      else if x.spdm.isSome then s else s.setSession { x with spdm := some body })

/-- The message that a session waits to have answered, where it carries a request code and the version of R429; another version is answered with ERROR
VersionMismatch. -/
def State.spdmDo (s : State) (sid code : Nat) (k : State → Session → Bytes → State × Bytes) : State :=
  match s.session? sid with
  | none => s
  | some x =>
    match x.spdm with
    | none => s
    | some m =>
      if byteAt m 1 ≠ code then s
      else
        let x := { x with spdm := none }
        let r := if byteAt m 0 ≠ (if code = 0x84 then 0x10 else 0x13) then (s.setSession x, ([0x13, 0x7F, 0x41, 0] : Bytes)) else k (s.setSession x) x m
        r.1.frameOut sid (.spdm r.2)

/-- ERROR with a code. -/
def spdmErr (c : Nat) : Bytes := [0x13, 0x7F, BitVec.ofNat 8 c, 0]
abbrev seInvalid : Nat := 0x01
abbrev seUnspecified : Nat := 0x05
abbrev seUnsupported : Nat := 0x07

/-- GET_VERSION: version 1.3 alone (R429); the transcripts begin anew. -/
def execGetVersion (sid : Nat) (s : State) : Host.Outcome State Fault Refusal :=
  .next (s.spdmDo sid 0x84 fun s x m =>
    let r : Bytes := [0x10, 0x04, 0, 0, 0, 1, 0, 0x13]
    (s.setSession { x with spdmVca := m ++ r, spdmCert := [], spdmMeas := [] }, r))

/-- GET_CAPABILITIES: certificates, challenges and signed measurements. -/
def execGetCapabilities (sid : Nat) (s : State) : Host.Outcome State Fault Refusal :=
  .next (s.spdmDo sid 0xE1 fun s x m =>
    let r := bytesOf [[0x13, 0x61, 0, 0, 0, 15, 0, 0], leBytes 4 0x16, leBytes 4 1200, leBytes 4 1200]
    (s.setSession { x with spdmVca := x.spdmVca ++ m ++ r }, r))

/-- NEGOTIATE_ALGORITHMS: ECDSA over P-256 and SHA-256 alone (R429), each where the request names it. -/
def execNegotiateAlgorithms (sid : Nat) (s : State) : Host.Outcome State Fault Refusal :=
  .next (s.spdmDo sid 0xE3 fun s x m =>
    let r := bytesOf [[0x13, 0x63, 0, 0], leBytes 2 36, [1, 0], leBytes 4 2, leBytes 4 (leAt m 8 4 &&& 0x10), leBytes 4 (leAt m 12 4 &&& 1), zeros 16]
    (s.setSession { x with spdmVca := x.spdmVca ++ m ++ r }, r))

/-- The certificate chain of slot 0 (R410, R429). -/
def State.spdmChain (s : State) : Bytes :=
  let c := Config.rootHash ++ Config.productCert ++ s.rdo Obj.deviceIdCert ++ s.rdo Obj.aliasCert
  bytesOf [leBytes 2 (4 + c.length), [0, 0], c]

def execGetDigests (sid : Nat) (s : State) : Host.Outcome State Fault Refusal :=
  .next (s.spdmDo sid 0x81 fun s x m =>
    let r : Bytes := [0x13, 0x01, 1, 1] ++ fit 32 (sha256 s.spdmChain)
    (s.setSession { x with spdmCert := x.spdmCert ++ m ++ r }, r))

/-- GET_CERTIFICATE: a portion of the chain of slot 0. -/
def execGetCertificate (sid : Nat) (s : State) : Host.Outcome State Fault Refusal :=
  .next (s.spdmDo sid 0x82 fun s x m =>
    let c := s.spdmChain
    let off := leAt m 4 2
    if byteAt m 2 ≠ 0 ∨ c.length ≤ off then (s, spdmErr seInvalid)
    else
      let p := (c.drop off).take (min (leAt m 6 2) 1184)
      let r := bytesOf [[0x13, 0x02, 0, 0], leBytes 2 p.length, leBytes 2 (c.length - off - p.length), p]
      (s.setSession { x with spdmCert := x.spdmCert ++ m ++ r }, r))

/-- The texts of DSP0274: the signing prefix and the two contexts. -/
def txtSpdm : Bytes := ascii [100, 109, 116, 102, 45, 115, 112, 100, 109, 45, 118, 49, 46, 51, 46, 42]
def txtChallenge : Bytes := ascii [114, 101, 115, 112, 111, 110, 100, 101, 114, 45, 99, 104, 97, 108, 108, 101, 110, 103, 101, 95, 97, 117, 116, 104, 32, 115, 105, 103, 110, 105, 110, 103]
def txtMeasure : Bytes := ascii [114, 101, 115, 112, 111, 110, 100, 101, 114, 45, 109, 101, 97, 115, 117, 114, 101, 109, 101, 110, 116, 115, 32, 115, 105, 103, 110, 105, 110, 103]

/-- A signature of a transcript under the Alias key (R429). -/
def State.spdmSign (s : State) (ctx transcript : Bytes) : Bytes :=
  let head := txtSpdm ++ txtSpdm ++ txtSpdm ++ txtSpdm ++ zeros (36 - ctx.length) ++ ctx
  fit 64 (ecSign s.sec.aliasPriv (sha256 (head ++ sha256 transcript)))

/-- The DMTF value type of a measured kind: immutable ROM, mutable firmware, hardware configuration, firmware configuration. -/
def spdmType (kind : Nat) : Nat := if kind = 1 then 0 else if kind ≤ 5 then 1 else if kind ≤ 7 then 2 else 3

/-- A DMTF measurement block. -/
def spdmBlock (idx typ : Nat) (v : Bytes) : Bytes := bytesOf [leBytes 1 idx, [1], leBytes 2 (3 + v.length), leBytes 1 typ, leBytes 2 v.length, v]

/-- Index 0xF0: bytes 8 to 11 of the package report's header, and the flags of every entry in report order (R429). -/
def State.spdmVendor (s : State) : Bytes :=
  let flags := (s.sec.pkg.map (s.measBytes false) ++ s.pendingMeas.map (s.measBytes true)).map fun b => leBytes 1 (byteAt b 2)
  bytesOf [leBytes 1 s.rptState, leBytes 1 (s.rd Obj.authorityMode), [0xFF, 0]] ++ flags.flatten

/-- The measurement blocks: index i is entry i of the package report (R429). -/
def State.spdmBlocks (s : State) : List (Nat × Bytes) :=
  (s.sec.pkg.mapIdx fun i m => (i + 1, spdmBlock (i + 1) (spdmType m.kind) (fit 32 m.digest))) ++ [(0xF0, spdmBlock 0xF0 0x84 s.spdmVendor)]

/-- CHALLENGE, answered under the Alias key (R429). -/
def execChallenge (sid : Nat) (s : State) : Host.Outcome State Fault Refusal :=
  .next (s.spdmDo sid 0x83 fun s x m =>
    let t := byteAt m 3
    if byteAt m 2 ≠ 0 ∨ m.length < 44 ∨ (t ≠ 0 ∧ t ≠ 1 ∧ t ≠ 0xFF) then (s, spdmErr seInvalid)
    else if s.rd Obj.rngHealth ≠ 0 then (s, spdmErr seUnspecified)
    else
      let n := s.random 32
      let sum := if t = 0 then [] else fit 32 (sha256 ((s.spdmBlocks.map fun b => b.2.drop 4).flatten))
      let r := bytesOf [[0x13, 0x03, 0, 1], fit 32 (sha256 s.spdmChain), fit 32 n.1, sum, [0, 0], slice m 36 8]
      let r := r ++ s.spdmSign txtChallenge (x.spdmVca ++ x.spdmCert ++ m ++ r)
      (n.2.setSession { x with spdmCert := [] }, r))

/-- GET_MEASUREMENTS: how many, one block, or all; signed where asked (R429). -/
def execGetMeasurements (sid : Nat) (s : State) : Host.Outcome State Fault Refusal :=
  .next (s.spdmDo sid 0xE0 fun s x m =>
    let signed := bit (byteAt m 2) 0
    let op := byteAt m 3
    let all := s.spdmBlocks
    let blocks := if op = 0 then [] else if op = 0xFF then all else all.filter fun b => b.1 == op
    let ctx := if signed then slice m 37 8 else slice m 4 8
    if (op ≠ 0 ∧ blocks.isEmpty) ∨ (signed ∧ byteAt m 36 ≠ 0) then (s, spdmErr seInvalid)
    else if s.rd Obj.rngHealth ≠ 0 then (s, spdmErr seUnspecified)
    else
      let n := s.random 32
      let rec_ := (blocks.map (·.2)).flatten
      let r := bytesOf [[0x13, 0x60], leBytes 1 (if op = 0 then all.length else 0), [0], leBytes 1 blocks.length, leBytes 3 rec_.length, rec_, fit 32 n.1, [0, 0], ctx]
      let l1 := x.spdmMeas ++ m ++ r
      if signed then (n.2.setSession { x with spdmMeas := [] }, r ++ s.spdmSign txtMeasure (x.spdmVca ++ l1))
      else (n.2.setSession { x with spdmMeas := l1 }, r))

/-- The requests of R429. -/
def spdmKnown (code : Nat) : Bool := [0x84, 0xE1, 0xE3, 0x81, 0x82, 0x83, 0xE0].contains code

/-- SPDM_UNSUPPORTED: every other request is answered with ERROR UnsupportedRequest, whose data is the request code (R429). -/
def execSpdmUnsupported (sid : Nat) (s : State) : Host.Outcome State Fault Refusal :=
  .next (match s.session? sid with
    | none => s
    | some x =>
      match x.spdm with
      | none => s
      | some m =>
        if spdmKnown (byteAt m 1) then s
        else (s.setSession { x with spdm := none }).frameOut sid (.spdm [0x13, 0x7F, 0x07, BitVec.ofNat 8 (byteAt m 1)]))

end Sys2Proof.Machine
end

