-- ==== Sys2Proof/Machine/Transc.lean ====
section
/-! DEFINITION. Exponential, logarithm, reciprocal square root, tanh and sigmoid of FP32 numbers (R61, R84): fixed-point values whose errors lie far below an ulp,
and the codes that the bounds admit around them. -/

namespace Sys2Proof.Machine

open Sys2Proof

/-- The unit of the fixed-point values of this file. -/
abbrev fxOne : Int := 2 ^ 128

/-- ln 2 in that unit. -/
abbrev fxLn2 : Int := 235865763225513294137944142764154484399

/-- The sum of `y ^ k / k!` over `n` terms that follow the term `t` of index `k - 1`. -/
def expSeries (y : Int) : Nat → Int → Int → Int
  | 0, _, _ => 0
  | n + 1, k, t => let u := t * y / (fxOne * k); u + expSeries y n (k + 1) u

/-- The sum of `p / k + p z² / (k + 2) + …` over `n` terms. -/
def atanhSeries (zz : Int) : Nat → Int → Int → Int
  | 0, _, _ => 0
  | n + 1, k, p => p / k + atanhSeries zz n (k + 2) (p * zz / fxOne)

/-- A finite number in fixed point, rounded down. -/
def fxOf (neg : Bool) (m : Nat) (e : Int) : Int :=
  let v := if 0 ≤ e + 128 then m * p2 (e + 128) else m / p2 (-(e + 128))
  sgnMul neg v

/-- exp of a fixed-point number as a magnitude `m × 2 ^ e` (R84): the argument is reduced by multiples of ln 2. Past 256 a magnitude stands for it that no FP32 code tells
from it. -/
def expMag (x : Int) : Nat × Int :=
  if x < -256 * fxOne then (1, -400) else if 256 * fxOne < x then (1, 300)
  else
    let k := (2 * x + fxLn2) / (2 * fxLn2)
    ((fxOne + expSeries (x - k * fxLn2) 34 1 fxOne).toNat, k - 128)

/-- log of a positive finite number, in fixed point (R84). -/
def logFx (m : Nat) (e : Int) : Int :=
  let b := Nat.log2 m
  let y : Int := m * p2 (128 - b)
  let big := decide (fxOne * fxOne * 2 < y * y)
  let y := if big then y / 2 else y
  let z := (y - fxOne) * fxOne / (y + fxOne)
  2 * atanhSeries (z * z / fxOne) 26 1 z + (e + b + if big then 1 else 0) * fxLn2

/-- The reciprocal square root of a positive finite number as a magnitude (R84). -/
def rsqrtMag (m : Nat) (e : Int) : Nat × Int :=
  let d := if e % 2 = 0 then m else 2 * m
  let h := if e % 2 = 0 then e else e - 1
  (2 ^ 300 / Nat.sqrt (d * 2 ^ 256), -172 - h / 2)

/-- The magnitude of tanh of a finite number (R84): near zero by its series, elsewhere from the exponential of twice the argument. -/
def tanhMag (m : Nat) (e : Int) : Nat × Int :=
  let x := fxOf false m e
  if x < fxOne / 4096 then
    let q := x * x / fxOne
    (m * (fxOne - q / 3 + 2 * (q * q / fxOne) / 15).toNat, e - 128)
  else if 40 * fxOne < x then ((fxOne - 1).toNat, -128)
  else
    let v := expMag (2 * x)
    let a : Int := if 0 ≤ v.2 + 128 then v.1 * p2 (v.2 + 128) else v.1 / p2 (-(v.2 + 128))
    (((a - fxOne) * fxOne / (a + fxOne)).toNat, -128)

/-- The sigmoid of a finite number as a magnitude (R84). -/
def sigmMag (neg : Bool) (m : Nat) (e : Int) : Nat × Int :=
  let v := expMag (-(fxOf false m e))
  let a : Int := if 0 ≤ v.2 + 128 then v.1 * p2 (v.2 + 128) else v.1 / p2 (-(v.2 + 128))
  if neg then (((v.1 : Int) * fxOne / (fxOne + a)).toNat, v.2) else ((fxOne * fxOne / (fxOne + a)).toNat, -128)

/-- Whether an FP32 code without sign lies within `n` steps of `2 ^ q` of a magnitude, with room for the magnitude's own error of 2^(−80) of itself. -/
def nearMag (n : Nat) (q : Int) (a : Nat × Int) (c : Nat) : Bool :=
  match fp32.dec c with
  | .fin _ u w =>
    let lo := min (min w a.2) q - 80
    let v := u * p2 (w - lo)
    let x := a.1 * p2 (a.2 - lo)
    decide (v ≤ x + n * p2 (q - lo) - x / 2 ^ 80) && decide (x + x / 2 ^ 80 ≤ v + n * p2 (q - lo))
  | _ => false

/-- Whether an FP32 code without sign keeps the bound of R84 on results in the subnormal range, beside a magnitude: one subnormal step. -/
def subOk (a : Nat × Int) (c : Nat) : Bool := decide (0x00800000 ≤ c) || nearMag 1 (-149) a c

/-- A code within 2 ulp of a magnitude that is not zero, a subnormal one within one subnormal step of it (R61, R84): a free value picks among them. -/
def ulpPick (v : Nat) (a : Nat × Int) : Nat :=
  let q := fp32.grid a.1 a.2
  let c := fp32.mag rmRNE 0 a.1 a.2
  let ok := [c, c + 1, c - 1, c + 2, c - 2].filter fun c => nearMag 2 q a c && subOk a c
  ok.getD (v % ok.length) c

/-- A finite code for a magnitude outside the domains of R84, free but for the bound on subnormal results. -/
def openPick (v : Nat) (a : Nat × Int) : Nat :=
  let c := v % 0x7F800000
  if subOk a c then c else 0x00800000 + c

end Sys2Proof.Machine
end

