-- ==== Sys2Proof/Machine/Vector.lean ====
section
/-! DEFINITION. The vector functions (R61, R83 to R85, R133). -/

namespace Sys2Proof.Machine

open Sys2Proof

/-- Lane `i` of `w` bytes of a vector register. -/
def lane (w : Nat) (v : Bytes) (i : Nat) : Nat := leAt v (w * i) w

/-- A vector register from its lanes. -/
def ofLanes (w : Nat) (l : List Nat) : Bytes := (l.map (leBytes w)).flatten

/-- A lane operation: it takes two free values and the lanes of va, vb and vc. -/
abbrev LaneFn := (Nat → Nat) → Nat → Nat → Nat → Nat

/-- A VOP instruction on lanes of `w` bytes: every lane is computed on its own and takes its own free values. -/
def State.vop (s : State) (n func w : Nat) (f : FmtV) (g : LaneFn) : State :=
  s.instr n 0x2A (fun x => wV x = f && wFunc x = func) fun s _ =>
    let t := s.tile n
    let fr := s.fresh
    let out := (List.range (256 / w)).map fun i =>
      g (fun k => Config.freeValue (fr + 4 * i + k)) (lane w (t.vr f.va) i) (lane w (t.vr f.vb) i) (lane w (t.vr f.vc) i)
    ({ s with fresh := fr + 1024 }).step1 n fun t => t.setV f.vd (ofLanes w out)

/-- An exact function of numbers, rounded once to nearest-even (R61). -/
def rounded (p : Fp) (g : Num → Num → Num → Num) : LaneFn := fun r a b c => p.enc rmRNE 0 (r 0) (g (p.dec a) (p.dec b) (p.dec c))

def execFadd (t : Nat) (f : FmtV) (s : State) : Host.Outcome State Fault Refusal :=
  .next (s.vop t 0x00 4 f (rounded fp32 fun a b _ => a.add b))
def execFsub (t : Nat) (f : FmtV) (s : State) : Host.Outcome State Fault Refusal :=
  .next (s.vop t 0x01 4 f (rounded fp32 fun a b _ => a.add b.neg))
def execFmul (t : Nat) (f : FmtV) (s : State) : Host.Outcome State Fault Refusal :=
  .next (s.vop t 0x02 4 f (rounded fp32 fun a b _ => a.mul b))
/-- FFMA: `va × vb + vc`, rounded once. -/
def execFfma (t : Nat) (f : FmtV) (s : State) : Host.Outcome State Fault Refusal :=
  .next (s.vop t 0x03 4 f (rounded fp32 fun a b c => (a.mul b).add c))

/-- The lesser (or greater) of two lanes. Where the spec states no choice, a free value makes it: between equal numbers, the two zeros among them, and
where an operand is NaN, between the other operand and a NaN. -/
def pickLane (greater : Bool) (r : Nat → Nat) (a b : Nat) : Nat :=
  let x := fp32.dec a
  let y := fp32.dec b
  if x = .nan then (if y ≠ .nan ∧ r 0 % 2 = 0 then b else fp32.nanCode (r 1))
  else if y = .nan then (if r 0 % 2 = 0 then a else fp32.nanCode (r 1))
  else if x.lt y then (if greater then b else a)
  else if y.lt x then (if greater then a else b)
  else if r 0 % 2 = 0 then a else b

def execFmin (t : Nat) (f : FmtV) (s : State) : Host.Outcome State Fault Refusal :=
  .next (s.vop t 0x04 4 f fun r a b _ => pickLane false r a b)
def execFmax (t : Nat) (f : FmtV) (s : State) : Host.Outcome State Fault Refusal :=
  .next (s.vop t 0x05 4 f fun r a b _ => pickLane true r a b)

/-- The lane masks: the spec names a lane mask and no pattern, so the patterns are free, and they differ. -/
def maskOff : Nat := Config.maskFalse.toNat
def maskOn : Nat := if Config.maskTrue = Config.maskFalse then (Config.maskFalse + 1).toNat else Config.maskTrue.toNat

/-- FCMPLT: the lane mask of `va < vb`; a comparison with NaN is false. -/
def execFcmplt (t : Nat) (f : FmtV) (s : State) : Host.Outcome State Fault Refusal :=
  .next (s.vop t 0x06 4 f fun _ a b _ => if (fp32.dec a).lt (fp32.dec b) then maskOn else maskOff)

/-- SEL: `vc ? va : vb`; a lane of vc that no comparison wrote selects by a free value. -/
def execSel (t : Nat) (f : FmtV) (s : State) : Host.Outcome State Fault Refusal :=
  .next (s.vop t 0x07 4 f fun r a b c => if c = maskOn then a else if c = maskOff then b else if r 0 % 2 = 0 then a else b)

/-- FP32 patterns of +Inf, −Inf, 1 and −1. -/
abbrev cInf : Nat := 0x7F800000
abbrev cNegInf : Nat := 0xFF800000
abbrev cOne : Nat := 0x3F800000
abbrev cNegOne : Nat := 0xBF800000

/-- Whether `m × 2 ^ e` is at most a number of hundredths. -/
def leCent (m : Nat) (e : Int) (k : Nat) : Bool := magLe (100 * m) e k 0

/-- EXP (R84): within 2 ulp from −87.33 to 88.72 and within one step where the result is subnormal. It overflows above 0x42B17217, the largest input whose exponential
rounds below infinity. Between the domain and these ranges the spec bounds a subnormal result alone, and the finite result is free but for that. -/
def expLane (r : Nat → Nat) (a : Nat) : Nat :=
  match fp32.dec a with
  | .nan => fp32.nanCode (r 0)
  | .inf neg => if neg then 0 else cInf
  | .fin neg m e =>
    let v := expMag (fxOf neg m e)
    if !neg && (fp32.dec 0x42B17217).lt (.fin neg m e) then cInf
    else if (if neg then leCent m e 8733 || decide (v.2 + Nat.log2 v.1 < -126) else leCent m e 8872) then ulpPick (r 1) v
    else openPick (r 1) v

/-- LOG (R84); the logarithm of 1 is exactly 0. -/
def logLane (r : Nat → Nat) (a : Nat) : Nat :=
  match fp32.dec a with
  | .nan => fp32.nanCode (r 0)
  | .inf neg => if neg then fp32.nanCode (r 0) else cInf
  | .fin neg m e =>
    if m = 0 then cNegInf
    else if neg then fp32.nanCode (r 0)
    else
      let v := logFx m e
      if v = 0 then 0 else fp32.sign (decide (v < 0)) (ulpPick (r 1) (v.natAbs, -128))

/-- RSQRT (R84); IEEE 754-2019 gives rSqrt(−0) = −Inf and rSqrt(+Inf) = +0. -/
def rsqrtLane (r : Nat → Nat) (a : Nat) : Nat :=
  match fp32.dec a with
  | .nan => fp32.nanCode (r 0)
  | .inf neg => if neg then fp32.nanCode (r 0) else 0
  | .fin neg m e => if m = 0 then (if neg then cNegInf else cInf) else if neg then fp32.nanCode (r 0) else ulpPick (r 1) (rsqrtMag m e)

/-- TANH (R84); IEEE 754-2019 gives tanh(±0) = ±0 and tanh(±Inf) = ±1. -/
def tanhLane (r : Nat → Nat) (a : Nat) : Nat :=
  match fp32.dec a with
  | .nan => fp32.nanCode (r 0)
  | .inf neg => if neg then cNegOne else cOne
  | .fin neg m e => if m = 0 then a else fp32.sign neg (ulpPick (r 1) (tanhMag m e))

/-- SIGM (R84): the spec states no result at the infinities, which is free. -/
def sigmLane (r : Nat → Nat) (a : Nat) : Nat :=
  match fp32.dec a with
  | .nan => fp32.nanCode (r 0)
  | .inf _ => r 1 % 2 ^ 32
  | .fin neg m e => ulpPick (r 1) (sigmMag neg m e)

def execExp (t : Nat) (f : FmtV) (s : State) : Host.Outcome State Fault Refusal := .next (s.vop t 0x08 4 f fun r a _ _ => expLane r a)
def execLog (t : Nat) (f : FmtV) (s : State) : Host.Outcome State Fault Refusal := .next (s.vop t 0x09 4 f fun r a _ _ => logLane r a)
def execRsqrt (t : Nat) (f : FmtV) (s : State) : Host.Outcome State Fault Refusal := .next (s.vop t 0x0A 4 f fun r a _ _ => rsqrtLane r a)
def execTanh (t : Nat) (f : FmtV) (s : State) : Host.Outcome State Fault Refusal := .next (s.vop t 0x0B 4 f fun r a _ _ => tanhLane r a)
def execSigm (t : Nat) (f : FmtV) (s : State) : Host.Outcome State Fault Refusal := .next (s.vop t 0x0C 4 f fun r a _ _ => sigmLane r a)

/-- A magnitude within 1 ulp of an exact result whose code rounded toward zero is `c` (R61): a free value picks among the codes that the bound allows. -/
def within (exact : Bool) (c v : Nat) : Nat :=
  min 0x7F800000 (if exact then (if c = 0 then c + v % 2 else c - 1 + v % 3) else c + v % 2)

/-- Whether an FP32 code holds a magnitude exactly. -/
def exactCode (c m : Nat) (e : Int) : Bool :=
  match fp32.dec c with
  | .fin _ u w => magLe m e u w && magLe u w m e
  | _ => false

/-- DIV: within 1 ulp of the quotient (R61), special operands as IEEE 754 has them. -/
def divLane (r : Nat → Nat) (a b : Nat) : Nat :=
  match fp32.dec a, fp32.dec b with
  | .nan, _ => fp32.nanCode (r 0)
  | _, .nan => fp32.nanCode (r 0)
  | .inf _, .inf _ => fp32.nanCode (r 0)
  | .inf x, .fin y _ _ => fp32.sign (xor x y) cInf
  | .fin x _ _, .inf y => fp32.sign (xor x y) 0
  | .fin x m e, .fin y n k =>
    if n = 0 then (if m = 0 then fp32.nanCode (r 0) else fp32.sign (xor x y) cInf)
    else if m = 0 then fp32.sign (xor x y) 0
    else
      let q := m * 2 ^ 400 / n
      let sticky := m * 2 ^ 400 % n
      let mm := 2 * q + ofBool (sticky ≠ 0)
      let ee := e - k - 401
      let c := fp32.mag rmRTZ 0 mm ee
      fp32.sign (xor x y) (within (sticky = 0 && exactCode c mm ee) c (r 1))

def execDiv (t : Nat) (f : FmtV) (s : State) : Host.Outcome State Fault Refusal := .next (s.vop t 0x0D 4 f fun r a b _ => divLane r a b)

/-- SQRT: within 1 ulp of the root (R61); the root of −0 is −0 and of a negative number NaN. -/
def sqrtLane (r : Nat → Nat) (a : Nat) : Nat :=
  match fp32.dec a with
  | .nan => fp32.nanCode (r 0)
  | .inf neg => if neg then fp32.nanCode (r 0) else cInf
  | .fin neg m e =>
    if m = 0 then fp32.sign neg 0
    else if neg then fp32.nanCode (r 0)
    else
      let d := if e % 2 = 0 then m else 2 * m
      let h := if e % 2 = 0 then e else e - 1
      let q := Nat.sqrt (d * 2 ^ 64)
      let c := fp32.mag rmRTZ 0 (2 * q + ofBool (q * q ≠ d * 2 ^ 64)) (h / 2 - 33)
      within (q * q = d * 2 ^ 64 && exactCode c q (h / 2 - 32)) c (r 1)

def execSqrt (t : Nat) (f : FmtV) (s : State) : Host.Outcome State Fault Refusal := .next (s.vop t 0x0E 4 f fun r a _ _ => sqrtLane r a)

/-- One level of the pairwise tree (R85). -/
def pairUp (g : Nat → Nat → Nat) : List Nat → List Nat
  | a :: b :: l => g a b :: pairUp g l
  | l => l

/-- Six levels reduce 64 lanes to one. -/
def tree (g : Nat → Nat → Nat) (l : List Nat) : Nat :=
  ((List.range 6).foldl (fun l _ => pairUp g l) l).headD 0

/-- A lane reduction: one result per register (R83, R85). It stands in lane 0 (DEDUCED); the spec states nothing of the other lanes, which take free
values. -/
def State.reduce (s : State) (n func : Nat) (f : FmtV) (g : (Nat → Nat) → Nat → Nat → Nat) : State :=
  s.instr n 0x2A (fun x => wV x = f && wFunc x = func) fun s _ =>
    let t := s.tile n
    let fr := s.fresh
    let v := tree (g fun k => Config.freeValue (fr + k)) ((List.range 64).map (lane 4 (t.vr f.va)))
    let rest := (List.range 63).map fun i => Config.freeValue (fr + 8 + i) % 2 ^ 32
    ({ s with fresh := fr + 128 }).step1 n fun t => t.setV f.vd (ofLanes 4 (v :: rest))

def execRsum (t : Nat) (f : FmtV) (s : State) : Host.Outcome State Fault Refusal :=
  .next (s.reduce t 0x0F f fun r a b => rounded fp32 (fun x y _ => x.add y) r a b 0)
def execRmax (t : Nat) (f : FmtV) (s : State) : Host.Outcome State Fault Refusal := .next (s.reduce t 0x10 f (pickLane true))
def execRmin (t : Nat) (f : FmtV) (s : State) : Host.Outcome State Fault Refusal := .next (s.reduce t 0x11 f (pickLane false))

/-- An INT32 lane operation. -/
def intLane (g : BitVec 32 → BitVec 32 → BitVec 32) : LaneFn := fun _ a b _ => (g (BitVec.ofNat 32 a) (BitVec.ofNat 32 b)).toNat

def execIadd (t : Nat) (f : FmtV) (s : State) : Host.Outcome State Fault Refusal := .next (s.vop t 0x12 4 f (intLane (· + ·)))
def execIsub (t : Nat) (f : FmtV) (s : State) : Host.Outcome State Fault Refusal := .next (s.vop t 0x13 4 f (intLane (· - ·)))
def execIand (t : Nat) (f : FmtV) (s : State) : Host.Outcome State Fault Refusal := .next (s.vop t 0x14 4 f (intLane (· &&& ·)))
def execIor (t : Nat) (f : FmtV) (s : State) : Host.Outcome State Fault Refusal := .next (s.vop t 0x15 4 f (intLane (· ||| ·)))
def execIxor (t : Nat) (f : FmtV) (s : State) : Host.Outcome State Fault Refusal := .next (s.vop t 0x16 4 f (intLane (· ^^^ ·)))

/-- ISHL: the spec states no result for counts of 32 and more, which take a free value. -/
def execIshl (t : Nat) (f : FmtV) (s : State) : Host.Outcome State Fault Refusal :=
  .next (s.vop t 0x17 4 f fun r a b _ => if b < 32 then (BitVec.ofNat 32 a <<< b).toNat else r 0 % 2 ^ 32)

/-- ISHR: arithmetic or logical as the implementation has it. -/
def execIshr (t : Nat) (f : FmtV) (s : State) : Host.Outcome State Fault Refusal :=
  .next (s.vop t 0x18 4 f fun r a b _ =>
    if b < 32 then (if Config.ishrSigned then ((BitVec.ofNat 32 a).sshiftRight b).toNat else (BitVec.ofNat 32 a >>> b).toNat)
    else r 0 % 2 ^ 32)

/-- CVT: to the IEEE format whose code stands in field vc, rounded to nearest-even (R61, R83). The spec names the target alone: the source lanes are FP32, and a 16-bit result
stands in the low half of its lane, the high half being free (DESIGN CHOICE). A field that names no IEEE format is malformed. -/
def execCvt (t : Nat) (f : FmtV) (s : State) : Host.Outcome State Fault Refusal :=
  .next (if f.vc = 0 ∨ f.vc = 1 ∨ f.vc = 2 then
      s.vop t 0x19 4 f fun r a _ _ =>
        if f.vc = 0 then fp32.enc rmRNE 0 (r 0) (fp32.dec a)
        else (if f.vc = 1 then bf16 else fp16).enc rmRNE 0 (r 0) (fp32.dec a) % 65536 + r 1 % 65536 * 65536
    else s.instr t 0x2A (fun x => wV x = f && wFunc x = 0x19) fun s r => s.faultTask t r causeMalformed 0)

def execBadd (t : Nat) (f : FmtV) (s : State) : Host.Outcome State Fault Refusal :=
  .next (s.vop t 0x20 2 f (rounded bf16 fun a b _ => a.add b))
def execBsub (t : Nat) (f : FmtV) (s : State) : Host.Outcome State Fault Refusal :=
  .next (s.vop t 0x21 2 f (rounded bf16 fun a b _ => a.add b.neg))
def execBmul (t : Nat) (f : FmtV) (s : State) : Host.Outcome State Fault Refusal :=
  .next (s.vop t 0x22 2 f (rounded bf16 fun a b _ => a.mul b))
def execBfma (t : Nat) (f : FmtV) (s : State) : Host.Outcome State Fault Refusal :=
  .next (s.vop t 0x23 2 f (rounded bf16 fun a b c => (a.mul b).add c))

end Sys2Proof.Machine
end

