-- ==== Sys2Proof/Machine/Dispatch.lean ====
section
/-! DEFINITION. The dispatch of a command to its meaning: one arm per row of the command table. -/

namespace Sys2Proof.Machine

open Sys2Proof

/-- A command's effect on everything but the queue. -/
def exec (i : Instr) (s : State) : Host.Outcome State Fault Refusal :=
  match i with
  | .write q => Sys2Proof.Machine.execWrite q s
  | .read q => Sys2Proof.Machine.execRead q s
  | .nextObj q => Sys2Proof.Machine.execNextObj q s
  | .keepalive q => Sys2Proof.Machine.execKeepalive q s
  | .quiesceGraceEnd u => Sys2Proof.Machine.execQuiesceGraceEnd u s
  | .quiesceDrained u => Sys2Proof.Machine.execQuiesceDrained u s
  | .quiesceFailAbort u => Sys2Proof.Machine.execQuiesceFailAbort u s
  | .add t f => Sys2Proof.Machine.execAdd t f s
  | .sub t f => Sys2Proof.Machine.execSub t f s
  | .and_ t f => Sys2Proof.Machine.execAnd t f s
  | .or_ t f => Sys2Proof.Machine.execOr t f s
  | .xor_ t f => Sys2Proof.Machine.execXor t f s
  | .shl t f => Sys2Proof.Machine.execShl t f s
  | .shr t f => Sys2Proof.Machine.execShr t f s
  | .mul t f => Sys2Proof.Machine.execMul t f s
  | .slt t f => Sys2Proof.Machine.execSlt t f s
  | .addi t f => Sys2Proof.Machine.execAddi t f s
  | .ori t f => Sys2Proof.Machine.execOri t f s
  | .lui t f => Sys2Proof.Machine.execLui t f s
  | .ldx t f => Sys2Proof.Machine.execLdx t f s
  | .stx t f => Sys2Proof.Machine.execStx t f s
  | .beq t f => Sys2Proof.Machine.execBeq t f s
  | .bne t f => Sys2Proof.Machine.execBne t f s
  | .blt t f => Sys2Proof.Machine.execBlt t f s
  | .bge t f => Sys2Proof.Machine.execBge t f s
  | .jal t f => Sys2Proof.Machine.execJal t f s
  | .jr t f => Sys2Proof.Machine.execJr t f s
  | .dld t f => Sys2Proof.Machine.execDld t f s
  | .dst t f => Sys2Proof.Machine.execDst t f s
  | .dsetw t f => Sys2Proof.Machine.execDsetw t f s
  | .dadv t f => Sys2Proof.Machine.execDadv t f s
  | .mma t f => Sys2Proof.Machine.execMma t f s
  | .mmaDone t drawn => Sys2Proof.Machine.execMmaDone t drawn s
  | .shadowCheckDone t fault => Sys2Proof.Machine.execShadowCheckDone t fault s
  | .driftHourRollover t => Sys2Proof.Machine.execDriftHourRollover t s
  | .drain t f => Sys2Proof.Machine.execDrain t f s
  | .drainDone t => Sys2Proof.Machine.execDrainDone t s
  | .qcvt t f => Sys2Proof.Machine.execQcvt t f s
  | .qcvtDone t => Sys2Proof.Machine.execQcvtDone t s
  | .vld t f => Sys2Proof.Machine.execVld t f s
  | .vst t f => Sys2Proof.Machine.execVst t f s
  | .fadd t f => Sys2Proof.Machine.execFadd t f s
  | .fsub t f => Sys2Proof.Machine.execFsub t f s
  | .fmul t f => Sys2Proof.Machine.execFmul t f s
  | .ffma t f => Sys2Proof.Machine.execFfma t f s
  | .fmin t f => Sys2Proof.Machine.execFmin t f s
  | .fmax t f => Sys2Proof.Machine.execFmax t f s
  | .fcmplt t f => Sys2Proof.Machine.execFcmplt t f s
  | .sel t f => Sys2Proof.Machine.execSel t f s
  | .exp t f => Sys2Proof.Machine.execExp t f s
  | .log t f => Sys2Proof.Machine.execLog t f s
  | .rsqrt t f => Sys2Proof.Machine.execRsqrt t f s
  | .tanh t f => Sys2Proof.Machine.execTanh t f s
  | .sigm t f => Sys2Proof.Machine.execSigm t f s
  | .div t f => Sys2Proof.Machine.execDiv t f s
  | .sqrt t f => Sys2Proof.Machine.execSqrt t f s
  | .rsum t f => Sys2Proof.Machine.execRsum t f s
  | .rmax t f => Sys2Proof.Machine.execRmax t f s
  | .rmin t f => Sys2Proof.Machine.execRmin t f s
  | .iadd t f => Sys2Proof.Machine.execIadd t f s
  | .isub t f => Sys2Proof.Machine.execIsub t f s
  | .iand t f => Sys2Proof.Machine.execIand t f s
  | .ior t f => Sys2Proof.Machine.execIor t f s
  | .ixor t f => Sys2Proof.Machine.execIxor t f s
  | .ishl t f => Sys2Proof.Machine.execIshl t f s
  | .ishr t f => Sys2Proof.Machine.execIshr t f s
  | .cvt t f => Sys2Proof.Machine.execCvt t f s
  | .badd t f => Sys2Proof.Machine.execBadd t f s
  | .bsub t f => Sys2Proof.Machine.execBsub t f s
  | .bmul t f => Sys2Proof.Machine.execBmul t f s
  | .bfma t f => Sys2Proof.Machine.execBfma t f s
  | .xfer t f => Sys2Proof.Machine.execXfer t f s
  | .xferComplete t k => Sys2Proof.Machine.execXferComplete t k s
  | .postTask t f => Sys2Proof.Machine.execPostTask t f s
  | .postRemoteTask t f => Sys2Proof.Machine.execPostRemoteTask t f s
  | .postTeDirect t f => Sys2Proof.Machine.execPostTeDirect t f s
  | .postNiDirect t f => Sys2Proof.Machine.execPostNiDirect t f s
  | .postMailbox t f => Sys2Proof.Machine.execPostMailbox t f s
  | .postBell t f => Sys2Proof.Machine.execPostBell t f s
  | .tset t f => Sys2Proof.Machine.execTset t f s
  | .tdec t f => Sys2Proof.Machine.execTdec t f s
  | .twait t f => Sys2Proof.Machine.execTwait t f s
  | .trd t f => Sys2Proof.Machine.execTrd t f s
  | .tfree t f => Sys2Proof.Machine.execTfree t f s
  | .fence t f => Sys2Proof.Machine.execFence t f s
  | .end_ t f => Sys2Proof.Machine.execEnd t f s
  | .illegalInstruction t => Sys2Proof.Machine.execIllegalInstruction t s
  | .taskSelect t => Sys2Proof.Machine.execTaskSelect t s
  | .tallyDecrement k => Sys2Proof.Machine.execTallyDecrement k s
  | .postArrival k => Sys2Proof.Machine.execPostArrival k s
  | .postQueueAdmit q => Sys2Proof.Machine.execPostQueueAdmit q s
  | .postWaitExpiry q k => Sys2Proof.Machine.execPostWaitExpiry q k s
  | .taskBudgetExpiry t => Sys2Proof.Machine.execTaskBudgetExpiry t s
  | .sequencerWatchdogExpiry t => Sys2Proof.Machine.execSequencerWatchdogExpiry t s
  | .stealPoll t => Sys2Proof.Machine.execStealPoll t s
  | .stealRequest victim thief => Sys2Proof.Machine.execStealRequest victim thief s
  | .stealReply t => Sys2Proof.Machine.execStealReply t s
  | .tileDisable w n => Sys2Proof.Machine.execTileDisable w n s
  | .tileEnable w n => Sys2Proof.Machine.execTileEnable w n s
  | .tileSwap w n => Sys2Proof.Machine.execTileSwap w n s
  | .tileSwapNow w n => Sys2Proof.Machine.execTileSwapNow w n s
  | .substitutionHold n => Sys2Proof.Machine.execSubstitutionHold n s
  | .substitutionCopyDone n => Sys2Proof.Machine.execSubstitutionCopyDone n s
  | .tileParityFail n => Sys2Proof.Machine.execTileParityFail n s
  | .freezeReleaseKeep w n => Sys2Proof.Machine.execFreezeReleaseKeep w n s
  | .freezeReleasePurge w n => Sys2Proof.Machine.execFreezeReleasePurge w n s
  | .sramPatrol n bank row found => Sys2Proof.Machine.execSramPatrol n bank row found s
  | .tileClockChange die mhz => Sys2Proof.Machine.execTileClockChange die mhz s
  | .jtiLoad w ctx addr => Sys2Proof.Machine.execJtiLoad w ctx addr s
  | .jtiPlacementDone ctx => Sys2Proof.Machine.execJtiPlacementDone ctx s
  | .jtiLoadDone ctx => Sys2Proof.Machine.execJtiLoadDone ctx s
  | .memRead pa found => Sys2Proof.Machine.execMemRead pa found s
  | .memWrite pa data => Sys2Proof.Machine.execMemWrite pa data s
  | .memAtomic pa fn wide operand compare => Sys2Proof.Machine.execMemAtomic pa fn wide operand compare s
  | .patrolScrub pa found lastOfPass => Sys2Proof.Machine.execPatrolScrub pa found lastOfPass s
  | .dramRefresh stack pos bank management => Sys2Proof.Machine.execDramRefresh stack pos bank management s
  | .dramTempReport stack pos temp => Sys2Proof.Machine.execDramTempReport stack pos temp s
  | .tableWalkDone ctx va uncorrectable => Sys2Proof.Machine.execTableWalkDone ctx va uncorrectable s
  | .shootdownAck k cache => Sys2Proof.Machine.execShootdownAck k cache s
  | .pageMap w ctx cmd => Sys2Proof.Machine.execPageMap w ctx cmd s
  | .pageUnmap w ctx cmd => Sys2Proof.Machine.execPageUnmap w ctx cmd s
  | .unmapFillDone pa => Sys2Proof.Machine.execUnmapFillDone pa s
  | .dramEvacuate w stack pos => Sys2Proof.Machine.execDramEvacuate w stack pos s
  | .evacGroupCopied stack chan => Sys2Proof.Machine.execEvacGroupCopied stack chan s
  | .oldDieUnresponsive stack => Sys2Proof.Machine.execOldDieUnresponsive stack s
  | .spareDieUnresponsive stack => Sys2Proof.Machine.execSpareDieUnresponsive stack s
  | .teSqTailWrite w c v => Sys2Proof.Machine.execTeSqTailWrite w c v s
  | .teCqHeadWrite w c v => Sys2Proof.Machine.execTeCqHeadWrite w c v s
  | .teRingFetch c => Sys2Proof.Machine.execTeRingFetch c s
  | .teOwnerWrite w c v => Sys2Proof.Machine.execTeOwnerWrite w c v s
  | .teCopy c => Sys2Proof.Machine.execTeCopy c s
  | .teFill c => Sys2Proof.Machine.execTeFill c s
  | .teScrub c => Sys2Proof.Machine.execTeScrub c s
  | .teGather c => Sys2Proof.Machine.execTeGather c s
  | .teScatter c => Sys2Proof.Machine.execTeScatter c s
  | .teMigrate c => Sys2Proof.Machine.execTeMigrate c s
  | .hostRead c => Sys2Proof.Machine.execHostRead c s
  | .hostWrite c => Sys2Proof.Machine.execHostWrite c s
  | .hostWriteImm c => Sys2Proof.Machine.execHostWriteImm c s
  | .teDescriptorComplete c serial => Sys2Proof.Machine.execTeDescriptorComplete c serial s
  | .migrateWaitExpiry c serial => Sys2Proof.Machine.execMigrateWaitExpiry c serial s
  | .migrationCopyDone c serial => Sys2Proof.Machine.execMigrationCopyDone c serial s
  | .teDisable w c => Sys2Proof.Machine.execTeDisable w c s
  | .teEnable w c => Sys2Proof.Machine.execTeEnable w c s
  | .teRelease w c => Sys2Proof.Machine.execTeRelease w c s
  | .tePurge w c => Sys2Proof.Machine.execTePurge w c s
  | .teChannelFail c => Sys2Proof.Machine.execTeChannelFail c s
  | .rdmaRequestRefused port qpn => Sys2Proof.Machine.execRdmaRequestRefused port qpn s
  | .rdmaResponse h q r => Sys2Proof.Machine.execRdmaResponse h q r s
  | .rdmaAckTimeout h q => Sys2Proof.Machine.execRdmaAckTimeout h q s
  | .rdmaEcnMark h q => Sys2Proof.Machine.execRdmaEcnMark h q s
  | .htePortDownTimeout h q => Sys2Proof.Machine.execHtePortDownTimeout h q s
  | .hteQpWrite w h q v => Sys2Proof.Machine.execHteQpWrite w h q v s
  | .d2dUnitReceive l dir seq gen unit => Sys2Proof.Machine.execD2dUnitReceive l dir seq gen unit s
  | .d2dLaneFail l module => Sys2Proof.Machine.execD2dLaneFail l module s
  | .codewordReceive p levels => Sys2Proof.Machine.execCodewordReceive p levels s
  | .linkPacketReceive p => Sys2Proof.Machine.execLinkPacketReceive p s
  | .ackCredit p => Sys2Proof.Machine.execAckCredit p s
  | .ackDeadline p => Sys2Proof.Machine.execAckDeadline p s
  | .replayReq p => Sys2Proof.Machine.execReplayReq p s
  | .replayTimeout p => Sys2Proof.Machine.execReplayTimeout p s
  | .laneReq p position => Sys2Proof.Machine.execLaneReq p position s
  | .laneMap p => Sys2Proof.Machine.execLaneMap p s
  | .laneCopyAligned p logical position => Sys2Proof.Machine.execLaneCopyAligned p logical position s
  | .laneSwitch p dir logical => Sys2Proof.Machine.execLaneSwitch p dir logical s
  | .laneAbruptLoss p positions => Sys2Proof.Machine.execLaneAbruptLoss p positions s
  | .linkLoss p cause => Sys2Proof.Machine.execLinkLoss p cause s
  | .trainingSignalDetected p positions => Sys2Proof.Machine.execTrainingSignalDetected p positions s
  | .equalisationDone p => Sys2Proof.Machine.execEqualisationDone p s
  | .trainingFramesChecked p farPos farCatchment farPort order inverted => Sys2Proof.Machine.execTrainingFramesChecked p farPos farCatchment farPort order inverted s
  | .berMeasureDone p tx rx => Sys2Proof.Machine.execBerMeasureDone p tx rx s
  | .retrainIntervalExpiry p => Sys2Proof.Machine.execRetrainIntervalExpiry p s
  | .marginMeasure p lanes bias power => Sys2Proof.Machine.execMarginMeasure p lanes bias power s
  | .laserFail e j => Sys2Proof.Machine.execLaserFail e j s
  | .portSerdesFail p => Sys2Proof.Machine.execPortSerdesFail p s
  | .laneSerdesFail p dir ix => Sys2Proof.Machine.execLaneSerdesFail p dir ix s
  | .portDisable w p => Sys2Proof.Machine.execPortDisable w p s
  | .portEnable w p => Sys2Proof.Machine.execPortEnable w p s
  | .portRetrain w p => Sys2Proof.Machine.execPortRetrain w p s
  | .laneDisable w p ix => Sys2Proof.Machine.execLaneDisable w p ix s
  | .laneEnable w p ix => Sys2Proof.Machine.execLaneEnable w p ix s
  | .routerPacketIn p bank err => Sys2Proof.Machine.execRouterPacketIn p bank err s
  | .routerInject p err => Sys2Proof.Machine.execRouterInject p err s
  | .routerPacketSend out => Sys2Proof.Machine.execRouterPacketSend out s
  | .residenceLimitExpiry id => Sys2Proof.Machine.execResidenceLimitExpiry id s
  | .routerBankFail p b => Sys2Proof.Machine.execRouterBankFail p b s
  | .wornBankEmptied p b => Sys2Proof.Machine.execWornBankEmptied p b s
  | .routeBankLoading w b => Sys2Proof.Machine.execRouteBankLoading w b s
  | .routeBankValid w b => Sys2Proof.Machine.execRouteBankValid w b s
  | .routeLoad w v => Sys2Proof.Machine.execRouteLoad w v s
  | .injectParityWrite w v => Sys2Proof.Machine.execInjectParityWrite w v s
  | .rtAdmitWrite w p v => Sys2Proof.Machine.execRtAdmitWrite w p v s
  | .niqSqTailWrite w ix c v => Sys2Proof.Machine.execNiqSqTailWrite w ix c v s
  | .niqCqHeadWrite w ix c v => Sys2Proof.Machine.execNiqCqHeadWrite w ix c v s
  | .niRingFetch ix c => Sys2Proof.Machine.execNiRingFetch ix c s
  | .put ix c => Sys2Proof.Machine.execPut ix c s
  | .get ix c => Sys2Proof.Machine.execGet ix c s
  | .atomic ix c => Sys2Proof.Machine.execAtomic ix c s
  | .notify ix c => Sys2Proof.Machine.execNotify ix c s
  | .task ix c => Sys2Proof.Machine.execTask ix c s
  | .copyTo ix c => Sys2Proof.Machine.execCopyTo ix c s
  | .dispatch ix c => Sys2Proof.Machine.execDispatch ix c s
  | .inboxArm ix c => Sys2Proof.Machine.execInboxArm ix c s
  | .clOpen ix c => Sys2Proof.Machine.execClOpen ix c s
  | .clRun ix c => Sys2Proof.Machine.execClRun ix c s
  | .clInvocationStart ctx num => Sys2Proof.Machine.execClInvocationStart ctx num s
  | .clClose ix c => Sys2Proof.Machine.execClClose ix c s
  | .niCommandComplete ix c serial => Sys2Proof.Machine.execNiCommandComplete ix c serial s
  | .rxPut ix => Sys2Proof.Machine.execRxPut ix s
  | .rxGet ix => Sys2Proof.Machine.execRxGet ix s
  | .rxAtomic ix => Sys2Proof.Machine.execRxAtomic ix s
  | .rxNotify ix => Sys2Proof.Machine.execRxNotify ix s
  | .rxTask ix => Sys2Proof.Machine.execRxTask ix s
  | .rxCopyTo ix => Sys2Proof.Machine.execRxCopyTo ix s
  | .rxFwd ix => Sys2Proof.Machine.execRxFwd ix s
  | .rxToken ix => Sys2Proof.Machine.execRxToken ix s
  | .rxDone ix => Sys2Proof.Machine.execRxDone ix s
  | .rxAck ix => Sys2Proof.Machine.execRxAck ix s
  | .rxData ix => Sys2Proof.Machine.execRxData ix s
  | .rxContrib ix => Sys2Proof.Machine.execRxContrib ix s
  | .rxResult ix => Sys2Proof.Machine.execRxResult ix s
  | .quarantineExpiry rx k => Sys2Proof.Machine.execQuarantineExpiry rx k s
  | .rxPartialExpiry id => Sys2Proof.Machine.execRxPartialExpiry id s
  | .niOpTimeout ix ctx slot msgId => Sys2Proof.Machine.execNiOpTimeout ix ctx slot msgId s
  | .suspectTimeout pos => Sys2Proof.Machine.execSuspectTimeout pos s
  | .keyDrainExpiry ctx slot => Sys2Proof.Machine.execKeyDrainExpiry ctx slot s
  | .clTimeout ctx num => Sys2Proof.Machine.execClTimeout ctx num s
  | .rankLoad w ctx v => Sys2Proof.Machine.execRankLoad w ctx v s
  | .dispatchLoad w ctx v => Sys2Proof.Machine.execDispatchLoad w ctx v s
  | .niJobWrite w ctx v => Sys2Proof.Machine.execNiJobWrite w ctx v s
  | .keyTxSlotWrite w ctx v => Sys2Proof.Machine.execKeyTxSlotWrite w ctx v s
  | .niDisable w ix => Sys2Proof.Machine.execNiDisable w ix s
  | .niEnable w ix => Sys2Proof.Machine.execNiEnable w ix s
  | .niqRelease w ix c => Sys2Proof.Machine.execNiqRelease w ix c s
  | .niqPurge w ix c => Sys2Proof.Machine.execNiqPurge w ix c s
  | .probe => Sys2Proof.Machine.execProbe s
  | .probeEcho => Sys2Proof.Machine.execProbeEcho s
  | .probeInterval => Sys2Proof.Machine.execProbeInterval s
  | .hello => Sys2Proof.Machine.execHello s
  | .helloInterval => Sys2Proof.Machine.execHelloInterval s
  | .report => Sys2Proof.Machine.execReport s
  | .reportInterval => Sys2Proof.Machine.execReportInterval s
  | .claim => Sys2Proof.Machine.execClaim s
  | .grant => Sys2Proof.Machine.execGrant s
  | .heartbeat => Sys2Proof.Machine.execHeartbeat s
  | .heartbeatInterval => Sys2Proof.Machine.execHeartbeatInterval s
  | .hbAck => Sys2Proof.Machine.execHbAck s
  | .heartbeatMissLimit => Sys2Proof.Machine.execHeartbeatMissLimit s
  | .claimRetryTimer => Sys2Proof.Machine.execClaimRetryTimer s
  | .claimStaggerTimer => Sys2Proof.Machine.execClaimStaggerTimer s
  | .discoveryClaimTimer => Sys2Proof.Machine.execDiscoveryClaimTimer s
  | .discoveryReportTimeout => Sys2Proof.Machine.execDiscoveryReportTimeout s
  | .linkDown => Sys2Proof.Machine.execLinkDown s
  | .lossNotice => Sys2Proof.Machine.execLossNotice s
  | .reprobe => Sys2Proof.Machine.execReprobe s
  | .fenceReprobeInterval => Sys2Proof.Machine.execFenceReprobeInterval s
  | .prepare => Sys2Proof.Machine.execPrepare s
  | .bankDrained => Sys2Proof.Machine.execBankDrained s
  | .ready => Sys2Proof.Machine.execReady s
  | .commit => Sys2Proof.Machine.execCommit s
  | .epochReadyTimeout => Sys2Proof.Machine.execEpochReadyTimeout s
  | .epochAckTimeout => Sys2Proof.Machine.execEpochAckTimeout s
  | .slice => Sys2Proof.Machine.execSlice s
  | .sliceAck => Sys2Proof.Machine.execSliceAck s
  | .sliceAckTimeout n => Sys2Proof.Machine.execSliceAckTimeout n s
  | .sliceCreate w cmd => Sys2Proof.Machine.execSliceCreate w cmd s
  | .sliceRepair w cmd => Sys2Proof.Machine.execSliceRepair w cmd s
  | .sliceRetire w cmd => Sys2Proof.Machine.execSliceRetire w cmd s
  | .replica => Sys2Proof.Machine.execReplica s
  | .railMap => Sys2Proof.Machine.execRailMap s
  | .railMapLoad w v => Sys2Proof.Machine.execRailMapLoad w v s
  | .railMapCommit w v => Sys2Proof.Machine.execRailMapCommit w v s
  | .fabricStartTimer r => Sys2Proof.Machine.execFabricStartTimer r s
  | .stopComplete => Sys2Proof.Machine.execStopComplete s
  | .parkRelease w v => Sys2Proof.Machine.execParkRelease w v s
  | .hostPowerRequest w v => Sys2Proof.Machine.execHostPowerRequest w v s
  | .avsTelemetryPoll rails temps => Sys2Proof.Machine.execAvsTelemetryPoll rails temps s
  | .pmbusPoll rails => Sys2Proof.Machine.execPmbusPoll rails s
  | .vtileReached die => Sys2Proof.Machine.execVtileReached die s
  | .thermalStep die => Sys2Proof.Machine.execThermalStep die s
  | .thermalTrip die reading => Sys2Proof.Machine.execThermalTrip die reading s
  | .throttleAssert => Sys2Proof.Machine.execThrottleAssert s
  | .throttleDeassert => Sys2Proof.Machine.execThrottleDeassert s
  | .floorLatchTimeout => Sys2Proof.Machine.execFloorLatchTimeout s
  | .pfailAssert => Sys2Proof.Machine.execPfailAssert s
  | .pfailDeassert => Sys2Proof.Machine.execPfailDeassert s
  | .pfailClearTimer => Sys2Proof.Machine.execPfailClearTimer s
  | .trayPresDeassert => Sys2Proof.Machine.execTrayPresDeassert s
  | .regulatorFault rail status => Sys2Proof.Machine.execRegulatorFault rail status s
  | .pmbusAlert asserted => Sys2Proof.Machine.execPmbusAlert asserted s
  | .equipmentPoll k => Sys2Proof.Machine.execEquipmentPoll k s
  | .equipmentResponse k status regB regC => Sys2Proof.Machine.execEquipmentResponse k status regB regC s
  | .pollTimeout k => Sys2Proof.Machine.execPollTimeout k s
  | .capTableInterval => Sys2Proof.Machine.execCapTableInterval s
  | .capTable => Sys2Proof.Machine.execCapTable s
  | .powerReportInterval => Sys2Proof.Machine.execPowerReportInterval s
  | .powerReport => Sys2Proof.Machine.execPowerReport s
  | .safety => Sys2Proof.Machine.execSafety s
  | .traySensors => Sys2Proof.Machine.execTraySensors s
  | .trayAlarm => Sys2Proof.Machine.execTrayAlarm s
  | .hubRead r => Sys2Proof.Machine.execHubRead r s
  | .hubUnreadableTimeout => Sys2Proof.Machine.execHubUnreadableTimeout s
  | .leadHandoff => Sys2Proof.Machine.execLeadHandoff s
  | .lowFlowCapTimer => Sys2Proof.Machine.execLowFlowCapTimer s
  | .lowFlowParkTimer => Sys2Proof.Machine.execLowFlowParkTimer s
  | .lowFlowExitTimer => Sys2Proof.Machine.execLowFlowExitTimer s
  | .pumpParkTimer => Sys2Proof.Machine.execPumpParkTimer s
  | .orphanCapTimer => Sys2Proof.Machine.execOrphanCapTimer s
  | .trayStartInterval => Sys2Proof.Machine.execTrayStartInterval s
  | .sensorSuspectTimer sensor reading => Sys2Proof.Machine.execSensorSuspectTimer sensor reading s
  | .contextOpen w ctx cmd => Sys2Proof.Machine.execContextOpen w ctx cmd s
  | .contextRetire w ctx cmd => Sys2Proof.Machine.execContextRetire w ctx cmd s
  | .retireQuietEnd ctx => Sys2Proof.Machine.execRetireQuietEnd ctx s
  | .retireFillDone ctx => Sys2Proof.Machine.execRetireFillDone ctx s
  | .jobHoldExpiry job => Sys2Proof.Machine.execJobHoldExpiry job s
  | .protCommit w ctx => Sys2Proof.Machine.execProtCommit w ctx s
  | .protDiscard w ctx => Sys2Proof.Machine.execProtDiscard w ctx s
  | .protOldRequestsDrained ctx => Sys2Proof.Machine.execProtOldRequestsDrained ctx s
  | .protFillDone ctx => Sys2Proof.Machine.execProtFillDone ctx s
  | .rngHealthFail => Sys2Proof.Machine.execRngHealthFail s
  | .keygen w ctx cmd => Sys2Proof.Machine.execKeygen w ctx cmd s
  | .import_ w ctx cmd => Sys2Proof.Machine.execImport w ctx cmd s
  | .activate w ctx cmd => Sys2Proof.Machine.execActivate w ctx cmd s
  | .keyActivationTime ctx => Sys2Proof.Machine.execKeyActivationTime ctx s
  | .unseal w ctx cmd => Sys2Proof.Machine.execUnseal w ctx cmd s
  | .authorityRecordWrite w v => Sys2Proof.Machine.execAuthorityRecordWrite w v s
  | .tenantImageKeyWrite w idx v => Sys2Proof.Machine.execTenantImageKeyWrite w idx v s
  | .pkgAttestRequest w nonce => Sys2Proof.Machine.execPkgAttestRequest w nonce s
  | .ctxAttestRequest w ctx v => Sys2Proof.Machine.execCtxAttestRequest w ctx v s
  | .getVersion sid => Sys2Proof.Machine.execGetVersion sid s
  | .getCapabilities sid => Sys2Proof.Machine.execGetCapabilities sid s
  | .negotiateAlgorithms sid => Sys2Proof.Machine.execNegotiateAlgorithms sid s
  | .getDigests sid => Sys2Proof.Machine.execGetDigests sid s
  | .getCertificate sid => Sys2Proof.Machine.execGetCertificate sid s
  | .challenge sid => Sys2Proof.Machine.execChallenge sid s
  | .getMeasurements sid => Sys2Proof.Machine.execGetMeasurements sid s
  | .spdmUnsupported sid => Sys2Proof.Machine.execSpdmUnsupported sid s
  | .openReq port f body => Sys2Proof.Machine.execOpenReq port f body s
  | .prove f body => Sys2Proof.Machine.execProve f body s
  | .proveTimeout sid => Sys2Proof.Machine.execProveTimeout sid s
  | .sessionIdleExpiry sid => Sys2Proof.Machine.execSessionIdleExpiry sid s
  | .close f => Sys2Proof.Machine.execClose f s
  | .sessionCloseWrite w sid => Sys2Proof.Machine.execSessionCloseWrite w sid s
  | .operatorKeysWrite w v => Sys2Proof.Machine.execOperatorKeysWrite w v s
  | .tenantSessionKeyWrite w ctx v => Sys2Proof.Machine.execTenantSessionKeyWrite w ctx v s
  | .agent f m => Sys2Proof.Machine.execAgent f m s
  | .agentGroup f m => Sys2Proof.Machine.execAgentGroup f m s
  | .groupKey f key => Sys2Proof.Machine.execGroupKey f key s
  | .spdm f body => Sys2Proof.Machine.execSpdm f body s
  | .mbxSend q => Sys2Proof.Machine.execMbxSend q s
  | .mbxRecv q => Sys2Proof.Machine.execMbxRecv q s
  | .mbxClaim q => Sys2Proof.Machine.execMbxClaim q s
  | .mbxRelease q => Sys2Proof.Machine.execMbxRelease q s
  | .bellRing q => Sys2Proof.Machine.execBellRing q s
  | .bellFetch q => Sys2Proof.Machine.execBellFetch q s
  | .bellEventRepeat m => Sys2Proof.Machine.execBellEventRepeat m s
  | .mbxTtlExpiry m k => Sys2Proof.Machine.execMbxTtlExpiry m k s
  | .mbxRingHeadWrite w m v => Sys2Proof.Machine.execMbxRingHeadWrite w m v s
  | .mbxDisable w m => Sys2Proof.Machine.execMbxDisable w m s
  | .mbxEnable w m => Sys2Proof.Machine.execMbxEnable w m s
  | .persistReset w v => Sys2Proof.Machine.execPersistReset w v s
  | .persistStoreDone => Sys2Proof.Machine.execPersistStoreDone s
  | .fwBegin w e => Sys2Proof.Machine.execFwBegin w e s
  | .fwStageData w e v => Sys2Proof.Machine.execFwStageData w e v s
  | .fwCommit w e => Sys2Proof.Machine.execFwCommit w e s
  | .fwAbandon w e => Sys2Proof.Machine.execFwAbandon w e s
  | .fwActivateNow w e => Sys2Proof.Machine.execFwActivateNow w e s
  | .fdSelftestDone pass => Sys2Proof.Machine.execFdSelftestDone pass s
  | .fwSvnFloorWrite w e v => Sys2Proof.Machine.execFwSvnFloorWrite w e v s
  | .fwStartTimeout e => Sys2Proof.Machine.execFwStartTimeout e s
  | .resetRelease r => Sys2Proof.Machine.execResetRelease r s
  | .resetAssert lowNs => Sys2Proof.Machine.execResetAssert lowNs s
  | .resetColdCmd w v => Sys2Proof.Machine.execResetColdCmd w v s
  | .scWatchdogExpiry => Sys2Proof.Machine.execScWatchdogExpiry s
  | .bringupStepDone r => Sys2Proof.Machine.execBringupStepDone r s
  | .bringupNext w => Sys2Proof.Machine.execBringupNext w s
  | .bringupRun w => Sys2Proof.Machine.execBringupRun w s
  | .bringupRetest w => Sys2Proof.Machine.execBringupRetest w s
  | .bringupAbort w => Sys2Proof.Machine.execBringupAbort w s
  | .bringupHoldTimeout => Sys2Proof.Machine.execBringupHoldTimeout s
  | .noReferenceTimeout => Sys2Proof.Machine.execNoReferenceTimeout s
  | .refclkLoss b => Sys2Proof.Machine.execRefclkLoss b s
  | .refclkReturn b => Sys2Proof.Machine.execRefclkReturn b s
  | .ptpSync source offset => Sys2Proof.Machine.execPtpSync source offset s
  | .ptpLockTimer => Sys2Proof.Machine.execPtpLockTimer s
  | .ptpSyncTimeout => Sys2Proof.Machine.execPtpSyncTimeout s
  | .domainFaultReset d => Sys2Proof.Machine.execDomainFaultReset d s
  | .computeDieFault die unit => Sys2Proof.Machine.execComputeDieFault die unit s
  | .fdFault => Sys2Proof.Machine.execFdFault s
  | .sparePolicyRequest r => Sys2Proof.Machine.execSparePolicyRequest r s
  | .fieldMapWrite => Sys2Proof.Machine.execFieldMapWrite s
  | .eventTaken => Sys2Proof.Machine.execEventTaken s
  | .eventQueueFull e => Sys2Proof.Machine.execEventQueueFull e s
  | .repeatWindowExpiry seq => Sys2Proof.Machine.execRepeatWindowExpiry seq s
  | .recorderFlWrite flOk => Sys2Proof.Machine.execRecorderFlWrite flOk s
  | .recorderFlRetry flOk => Sys2Proof.Machine.execRecorderFlRetry flOk s
  | .snapshotTake w v => Sys2Proof.Machine.execSnapshotTake w v s
  | .snapshotRead w => Sys2Proof.Machine.execSnapshotRead w s
  | .recorderClear w v => Sys2Proof.Machine.execRecorderClear w v s
  | .clearWriteDone => Sys2Proof.Machine.execClearWriteDone s
  | .flushDone => Sys2Proof.Machine.execFlushDone s
  | .bypass tdi => Sys2Proof.Machine.execBypass tdi s
  | .idcode => Sys2Proof.Machine.execIdcode s
  | .sample => Sys2Proof.Machine.execSample s
  | .preload v => Sys2Proof.Machine.execPreload v s
  | .extest => Sys2Proof.Machine.execExtest s
  | .highz => Sys2Proof.Machine.execHighz s
  | .railsFallWithoutStopping => Sys2Proof.Machine.execRailsFallWithoutStopping s
  | .dramDieFail stack pos => Sys2Proof.Machine.execDramDieFail stack pos s
  | .niFail ix => Sys2Proof.Machine.execNiFail ix s
  | .migrationGranuleCopied c serial => Sys2Proof.Machine.execMigrationGranuleCopied c serial s
  | .openResp f body => Sys2Proof.Machine.execOpenResp f body s
  | .proveResp f body => Sys2Proof.Machine.execProveResp f body s
  | .mportLinkChange p up => Sys2Proof.Machine.execMportLinkChange p up s
  | .mkaStateChange secured => Sys2Proof.Machine.execMkaStateChange secured s
  | .arpNdEcho p kind addr tagged => Sys2Proof.Machine.execArpNdEcho p kind addr tagged s
  | .ptpAnnounce source better => Sys2Proof.Machine.execPtpAnnounce source better s
  | .pfcPause p prio pause => Sys2Proof.Machine.execPfcPause p prio pause s

end Sys2Proof.Machine
end

