-- ==== Sys2Proof/Machine/Tick.lean ====
section
/-! DEFINITION. What passes with time alone: the clock, the slewing of package time, and the coarsened readings (R399, R479). -/

namespace Sys2Proof.Machine

open Sys2Proof

/-- A correction of package time moves at 500 ppm at most: 1 ns in every 2 µs (R479). -/
def State.slew (s : State) : State :=
  if s.now % 2000 ≠ 0 ∨ s.boot.ptpOffset = 0 then s
  else
    let d : Int := if 0 < s.boot.ptpOffset then 1 else -1
    { s with boot := { s.boot with ptpOffset := s.boot.ptpOffset - d, ptpDelta := s.boot.ptpDelta - d } }

/-- The readings of a whole 100 ms: package counters as they stand, power and rails as means (R399). -/
def State.coarsen (s : State) : State :=
  let n := max 1 (mgetD s.ctxs.sums 0 0)
  let mean := fun (k : Nat) => mgetD s.ctxs.sums k 0 / n
  let c := s.reg.foldl (fun c p => if ((rowOfKey p.1).map (·.pkgCounter)).getD false then mput c p.1 p.2 else c) s.ctxs.coarse
  let c := mput c Obj.pkgPowerW.key (mean Obj.pkgPowerW.key)
  let c := (List.range 16).foldl (fun c r =>
    mput (mput (mput c (railSum r 0) (mean (railSum r 0))) (railSum r 1) (mean (railSum r 1))) (railSum r 2) (ofInt 16 ((mean (railSum r 2) : Nat) - 1000))) c
  { s with ctxs := { s.ctxs with coarse := c, sums := [] } }

/-- The energy of a whole second (R399). -/
def State.coarsenEnergy (s : State) : State :=
  { s with ctxs := { s.ctxs with coarse := mput s.ctxs.coarse Obj.pkgEnergyMj.key (s.rd Obj.pkgEnergyMj) } }

/-- What was started and takes time ends: security commands (R419), the report at the head of the queue (R427, R428), and staging steps (R455). -/
def State.finish (s : State) : State := s.scFinish.attestServe.fwFinish

/-- A microsecond passes with no command (DESIGN CHOICE): every expiry is a command of its own; what runs under BUSY ends, within the bounds that its rule gives; the router's
stalled outputs count its clocks (R279). -/
def State.tick (s : State) : State :=
  let s := s.finish
  let s := ({ s with now := s.now + 1000 } : State).slew.countStalls
  let s := if s.now % 100000000 = 0 then s.coarsen else s
  if s.now % 1000000000 = 0 then s.coarsenEnergy else s

end Sys2Proof.Machine
end

