-- ==== Sys2Proof/Safety.lean ====
section
/-! DEFINITION. The terms in which claims about the package are stated: what a command does, when a tile fetches a word, and the form that memory keeps. The package has
no stop: a run is safe when every step answers a next state whose memory is in canonical form. -/

namespace Sys2Proof.Machine

open Sys2Proof

/-- A command answers a next state of which `P` holds. -/
def Gives (c : Instr) (s : State) (P : State → Prop) : Prop := ∃ t, exec c s = .next t ∧ P t

/-- A command leaves the state as it is: its event has not happened, or its request changes nothing. -/
def Idles (c : Instr) (s : State) : Prop := exec c s = .next s

/-- A running tile fetches word `w` at its program counter for task `r` (R126, R388), where no queued operation has it still to write (R127), and `s'` is the state
after the fetch. -/
def Fetches (s : State) (n w : Nat) (r : RunTask) (s' : State) : Prop :=
  s.running n = some r ∧ (s.tile n).busyRange opWrites (s.tile n).pc 4 = false ∧
    (s.read r.task.ctx .tile permExec (.sram n (s.tile n).pc) 4).st = .ok ∧
    (s.read r.task.ctx .tile permExec (.sram n (s.tile n).pc) 4).s = s' ∧
    leNat (s.read r.task.ctx .tile permExec (.sram n (s.tile n).pc) 4).data = w

/-- The bytes that a vector instruction computes: lane function `g` on each lane of `w` bytes, with the free values of that lane (R61, R133). -/
def State.lanesOf (s : State) (n w : Nat) (f : FmtV) (g : LaneFn) : Bytes :=
  ofLanes w ((List.range (256 / w)).map fun i =>
    g (fun k => Config.freeValue (s.fresh + 4 * i + k)) (lane w ((s.tile n).vr f.va) i) (lane w ((s.tile n).vr f.vb) i) (lane w ((s.tile n).vr f.vc) i))

/-- A tile wrote vector register `vd` and went to the next instruction, with `k` free values taken; nothing else changed. -/
def State.wroteV (s : State) (n vd k : Nat) (v : Bytes) : State :=
  ({ s with fresh := s.fresh + k }).setTile n (((s.tile n).setV vd v).next)

/-- A POST of one form issues (R113, R119): its task owns the tally it names and the 64 bytes at `x[ra]` are read; `u` is the state in which the form's own
effect begins, `o` the origin that waits for the post, `rb` and `rc` the two registers that give the form, `d` the 64 bytes. -/
def Posts (s : State) (n : Nat) (f : FmtX) (form : PostForm) (r : RunTask) (u : State) (o : Origin) (rb rc : Nat) (d : Bytes) : Prop :=
  FmtX.wf f = true ∧ f.rsv = 0 ∧ ∃ s' a, Fetches s n (eX 0x31 f) r s' ∧ rb = ((s'.tile n).xr f.rb).toNat ∧ rc = ((s'.tile n).xr f.rc).toNat ∧
    postForm rb rc = form ∧ form ≠ .bell ∧ ((s'.tile n).tally f.tally).owner = some r.task.ctx ∧
    (s'.tile n).busyRange opSpan ((s'.tile n).xr f.ra).toNat 64 = false ∧
    s'.read r.task.ctx .tile permRead (.sram n ((s'.tile n).xr f.ra).toNat) 64 = a ∧ a.st = .ok ∧ d = a.data ∧
    u = a.s.step1 n (fun t => { t with outstanding := t.outstanding + 1 }) ∧ o = .tile n f.tally r.task.ctx r.task.age r.epoch

/-- The first frame of the flits received on an UP link is `x`, and `u` is the state in which its flits are taken (R222, R223). -/
def Fronts (s : State) (p : Nat) (x : LinkFrame) (u : State) : Prop :=
  p < 18 ∧ s.rd (Obj.linkState p) = linkUp ∧ ∃ rest, frameOf (s.link p).rxFlits = (x, rest) ∧ u = s.setLink p { s.link p with rxFlits := rest }

/-- The oldest descriptor in a channel's queue has a mode, keeps the rules of R192 and may start (R191, R198): `a` is the descriptor in progress and `u` the state with
it in progress. -/
def Starts (s : State) (c mode : Nat) (a : TeActive) (u : State) : Prop :=
  ∃ d q, (s.chan c).queue = d :: q ∧ dMode d.bytes = mode ∧ s.teMayStart c d = true ∧ s.teMalformed c d.bytes = false ∧
    a = ⟨d.serial, d.bytes, s.rd (Obj.protEpoch ((s.teOwnerOf c).getD 0)), .working, .ok, tdNone, 0, 0, 0xFF, 0, 0, 0⟩ ∧
    u = s.setChan c { s.chan c with queue := q, active := (s.chan c).active ++ [a] }

/-- A write to a control object by a session that may write, under a new request identifier with fewer than 16 requests in progress (R441), is answered OK, and leaves `u`
besides (R442, R447). -/
def Accepted (w : Who) (c : Instr) (s u : State) : Prop := s.admits w = true → exec c s = .next (u.answer w.session w.reqId opWrite rOk [] 0 0)

/-- Such a write that is answered later (R447): its request stays in progress, and `u` is left besides. -/
def Kept (w : Who) (c : Instr) (s u : State) : Prop := s.admits w = true → exec c s = .next (u.keepOpen w)

/-- Such a write is answered with a result other than OK, and changes nothing besides. -/
def Denied (w : Who) (c : Instr) (s : State) (code : Nat) : Prop := s.admits w = true → exec c s = .next (s.answer w.session w.reqId opWrite code [] 0 0)

/-- The oldest command in an NI queue has an operation code, keeps the rules of R285, may start and may send (R280, R283, R285, R297): `a` is the command in progress
and `u` the state with it in progress. -/
def NiStarts (s : State) (i c op : Nat) (a : NiActive) (u : State) : Prop :=
  ∃ d q, (s.niq i c).queue = d :: q ∧ nOp d.bytes = op ∧ s.niMayStart i c d = true ∧ s.outsAt i + msgsOf d.bytes ≤ 8192 ∧ s.niMalformed d.bytes = false ∧
    (op < 8 → s.mustKey c = false) ∧ a = ⟨d.serial, d.bytes, s.rd (Obj.protEpoch c), d.origin, d.task, .ok, ndNone, 0, 0, 0, [], true, 0, [], []⟩ ∧
    u = s.setNiq i c { s.niq i c with queue := q, active := (s.niq i c).active ++ [a] }

/-- The oldest packet at an NI is of class RQ, FW or RP, keeps its field rules and passes its check (R284, R290, R299, R300): `d` is its payload in the clear, `c` the
context of its job and `u` the state without the packet. -/
def Receives (s : State) (i c : Nat) (p : Packet) (d : Bytes) (u : State) : Prop :=
  ∃ rest, (s.niOf i).rxQ = p :: rest ∧ p.cls ≠ clsCL ∧ p.niOk = true ∧ u = s.setNi i { s.niOf i with rxQ := rest } ∧ s.rd (Obj.niState i) ≠ ustDisabled ∧
    s.rd (Obj.niState i) ≠ ustFailed ∧ u.ctxOfJob p.job = some c ∧ u.openPkt i c p (p.nonce (if p.cls = clsRP then u.fabAddr i else p.src)) = .ok d

/-- The packet is the first of a new message at an NI that takes requests (R292, R310): `r` is the message's entry and `v` the state that holds it. -/
def NewRequest (s : State) (i c : Nat) (p : Packet) (d : Bytes) (r : RxMsg) (v : State) : Prop :=
  ∃ u, Receives s i c p d u ∧ u.rxOf i c p = none ∧ u.rd (Obj.niState i) ≠ ustQuiescing ∧ v = (u.newRx i c p).1 ∧ r = (u.newRx i c p).2

/-- The oldest packet at an NI is a CL packet of a kind for a session of a present or next invocation (R303, R306). -/
def ReceivesCl (s : State) (i kind : Nat) (x : ClSession) (p : Packet) (d : Bytes) (next : Bool) (u : State) : Prop :=
  ∃ rest c, (s.niOf i).rxQ = p :: rest ∧ p.cls = clsCL ∧ p.clKind = kind ∧ u = s.setNi i { s.niOf i with rxQ := rest } ∧ s.rd (Obj.niState i) ≠ ustDisabled ∧
    s.rd (Obj.niState i) ≠ ustFailed ∧ u.ctxOfJob p.job = some c ∧ u.openPkt i c p (p.nonceCl p.clInv p.clSess (byteAt p.ni 0) p.clOff) = .ok d ∧
    p.clOk = true ∧ u.clSess c p.clSess = some x ∧ x.broken = none ∧
    (p.clStage = 1 → x.line1.isSome = true) ∧ 256 * p.clOff < x.len ∧ p.clInv = (if next then (x.inv + 1) % 2 ^ 32 else x.inv) ∧ (next = true → p.clInv ≠ x.inv)

/-- The oldest message of a type in the agent's ring is `i` (R315, R316); it is no flooded message of its own or seen before, and `u` is the state in which it is acted upon. -/
def Takes (s : State) (typ : Nat) (i : InMsg) (u : State) : Prop :=
  ∃ rest v, takeFirst (fun (i : InMsg) => i.msg.typ == typ) s.agent.inbox = some (i, rest) ∧
    v = { s with agent := { s.agent with inbox := rest, maxTerm := max s.agent.maxTerm i.msg.term } } ∧
    ((i.path = .mgmt ∧ u = v) ∨ (∃ port, i.path = .data port ∧ bit i.msg.flags 7 = false ∧ u = v) ∨
      (∃ port w, i.path = .data port ∧ bit i.msg.flags 7 = true ∧ i.msg.origin ≠ s.pos ∧ s.agent.seen.contains (i.msg.origin, i.msg.typ, i.msg.seq) = false ∧
        w = { v with agent := { v.agent with seen := (i.msg.origin, i.msg.typ, i.msg.seq) :: s.agent.seen } } ∧
        u = (if i.msg.ttl = 0 then w else w.floodOn { i.msg with ttl := i.msg.ttl - 1 } (some port))))

/-- A group frame that passes the checks of its header (R433, R434). -/
def GroupFrame (f : NxFrame) (m : AgentMsg) : Prop :=
  f.dport = udpNxf ∧ f.legal m.body.length = true ∧ 0xFFFFFF00 ≤ f.session ∧ f.sender < 64 ∧ f.typ = ntAgentGroup

/-- A session's request is performed (R434, R440, R441): its frame is taken, the session is open and no Steward session, the identifier is new, fewer than 16 requests are
open and the fields keep the rules of R440; `u` is the state with the request open. -/
def Asks (s : State) (op : Nat) (q : NxReq) (x : Session) (u : State) : Prop :=
  ∃ v, q.op = op ∧ s.frameIn q.frame ntRequest q.body = (v, some x) ∧ x.st = SessState.opened ∧ x.role ≠ roleSteward ∧ (x.kept.find? fun r => r.reqId = q.reqId) = none ∧
    (x.openReqs.any fun o => o.reqId == q.reqId) = false ∧ (x.kept ≠ [] → ∃ r ∈ x.kept, r.reqId ≤ q.reqId) ∧ x.openReqs.length < 16 ∧ reqBad op q = false ∧
    u = v.setSession { x with openReqs := x.openReqs ++ [⟨q.reqId, op⟩] }

/-- A session's waiting SPDM request has a code and the version of R429; `u` is the state in which nothing waits in the session, `x` the session then. -/
def Speaks (s : State) (sid code : Nat) (x : Session) (m : Bytes) (u : State) : Prop :=
  ∃ y, s.session? sid = some y ∧ y.spdm = some m ∧ byteAt m 1 = code ∧ byteAt m 0 = (if code = 0x84 then 0x10 else 0x13) ∧ x = { y with spdm := none } ∧ u = s.setSession x

/-- A security command of an op is taken up (R419, R430): its context's Tenant or the Custodian wrote 64 bytes for an open context with no command under way. -/
def ScTakes (s : State) (w : Who) (c op : Nat) (b : Bytes) : Prop :=
  byteAt b 0 = op ∧ (isCus w || isTenant w c) = true ∧ s.sbUnowned w.session = false ∧ 0 < c ∧ c < 64 ∧ b.length = 64 ∧ s.ctxSt c ≠ ctxFree ∧ s.ctxSt c ≠ ctxRetiring ∧
    s.rd (Obj.scStatus c) / 256 ≠ 1

/-- A finite number of exactly `k` halves. -/
def Num.isHalves (x : Num) (k : Int) : Bool :=
  match x with
  | .fin neg m e => if 0 ≤ e + 1 then decide (sgnMul neg m * p2 (e + 1) = k) else decide (sgnMul neg m = k * p2 (-(e + 1)))
  | _ => false

/-- The rows of the first view of an array operation, read by a tile whose queue no longer holds it (R133). -/
def readsA (s : State) (n ctx : Nat) (o : TileOp) (rest : List TileOp) : PlaneR (List (List Num)) :=
  State.rowsRead (vDim1 o.da) { s.setTile n { s.tile n with ops := rest } with fresh := s.fresh + 1024 } n ctx o.da 0

/-- The rows of the second view of an array operation, read after those of the first (R133). -/
def readsB (s : State) (n ctx : Nat) (o : TileOp) (rest : List TileOp) : PlaneR (List (List Num)) :=
  State.rowsRead (vDim1 o.db) (readsA s n ctx o rest).s n ctx o.db 0

/-- A state whose memory is in canonical form. -/
def State.safe (s : State) : Prop := s.mem.wf = true

end Sys2Proof.Machine
end

