-- ==== Sys2Proof/Certificates/Slice0/Obligations.lean ====
section
/-! DEFINITION. The statements about the package, by the rules of the spec that they formalise. In every statement a request of a session or an event of the environment is a
command, and `exec` of it answers a next state: an equation names all that the command changes. -/

open Sys2Proof Sys2Proof.Machine

/-! ### Narrow numbers, partial writes and partial messages -/

/-- R35, R36: every 4-bit and 2-bit element code has the value of its table (a value `k` halves is `± k × 2 ^ −1`), negative zero has its sign, and the quantizer never
emits code 10 of UT2 or INT2. -/
def Obligations.ElementCodes : Prop :=
  (∀ f, f = 0x0C ∨ f = 0x0E → ∀ c, c < 16 → (elemNum f c).isHalves ([0, 1, 2, 3, 4, 6, 8, 12, 0, -1, -2, -3, -4, -6, -8, -12].getD c 0) = true) ∧
  (∀ f, f = 0x0C ∨ f = 0x0E → ∃ e, elemNum f 8 = .fin true 0 e) ∧
  (∀ f, f = 0x06 ∨ f = 0x0F → ∀ c, c < 16 → (elemNum f c).isHalves ([0, 2, 4, 6, 8, 10, 12, 14, -16, -14, -12, -10, -8, -6, -4, -2].getD c 0) = true) ∧
  (∀ c, c < 4 → (elemNum 0x10 c).isHalves ([0, 2, 0, -2].getD c 0) = true) ∧
  (∀ c, c < 4 → (elemNum 0x07 c).isHalves ([0, 2, -4, -2].getD c 0) = true) ∧
  (∀ mode floorMode r l k, k ∈ (quantBlock 0x10 mode floorMode r l).codes → k = 0 ∨ k = 1 ∨ k = 3) ∧
  (∀ mode r x, (quantPlain 0x07 mode r x).1 = 0 ∨ (quantPlain 0x07 mode r x).1 = 1 ∨ (quantPlain 0x07 mode r x).1 = 3)

/-- R160: of a die that answers, a write of a whole aligned granule replaces it and clears its error; a write of part of a granule whose read is good merges its bytes
into it; and when that read is uncorrectable the write answers UNCORRECTABLE and contents and check stay. -/
def Obligations.GranuleWrites : Prop :=
  (∀ s pa d, s.regionOf pa = .shallows ∨ s.regionOf pa = .deeps → pa % 128 = 0 → d.length = 128 → s.deadGranule pa = false → s.mem.moves = [] →
    ∃ t : State, exec (.memWrite pa d) s = .next (t.emit (.memAck .ok)) ∧ t.mem.get pa 128 = d ∧ t.markOf pa = none ∧ ∀ a, a < pa ∨ pa + 128 ≤ a → t.mem.get a 1 = s.mem.get a 1) ∧
  (∀ s pa d, s.regionOf pa = .shallows ∨ s.regionOf pa = .deeps → d ≠ [] → pa % 128 + d.length ≤ 128 → s.deadGranule pa = false → s.mem.moves = [] →
    s.markOf (pa / 128 * 128) = none ∨ s.markOf (pa / 128 * 128) = some .ce →
    ∃ t : State, exec (.memWrite pa d) s = .next (t.emit (.memAck .ok)) ∧ t.mem.get pa d.length = d ∧ t.markOf (pa / 128 * 128) = none ∧
      ∀ a, a < pa ∨ pa + d.length ≤ a → t.mem.get a 1 = s.mem.get a 1) ∧
  (∀ s pa d, s.regionOf pa = .shallows ∨ s.regionOf pa = .deeps → d ≠ [] → pa % 128 + d.length ≤ 128 → d.length < 128 → s.deadGranule pa = false →
    s.markOf (pa / 128 * 128) = some .ue ∨ s.markOf (pa / 128 * 128) = some .unwritten →
    ∃ t : State, exec (.memWrite pa d) s = .next (t.emit (.memAck .uncorrectable)) ∧ t.mem.bytes = s.mem.bytes ∧ t.markOf (pa / 128 * 128) = s.markOf (pa / 128 * 128))

/-- R294: a receive entry that is still incomplete when its time ends is freed without reply and counted, and the bytes that it has written stay written. -/
def Obligations.PartialReceipt : Prop :=
  ∀ s id r, (s.ni.rxs.find? fun r => r.id = id ∧ !r.quarantined ∧ r.got < r.len) = some r →
    ∃ t, exec (.rxPartialExpiry id) s = .next t ∧ t.rd Obj.rxPartialExpired = (s.rd Obj.rxPartialExpired + 1) % 2 ^ 64 ∧ (∀ x ∈ t.ni.rxs, x.id ≠ id) ∧ t.mem = s.mem ∧
      t.sent = s.sent ∧ (∀ i, (t.niOf i).egress = (s.niOf i).egress) ∧ t.decs = s.decs ∧ t.posts = s.posts

/-! ### Tile programs: scalar, memory and branch instructions (R126 to R131, R530) -/

/-- R130, R131: a scalar instruction of format R that a tile fetches writes its destination and goes to the next instruction, and changes nothing else; x0 takes no write.
ADDI sign-extends its immediate, ORI zero-extends it, and LUI writes `imm16 << 16`, sign-extended, with ra 0. -/
def Obligations.ScalarInstructions : Prop :=
  (∀ s n f r s', FmtR.wf f = true → f.rsv = 0 → Fetches s n (eR 0x01 f) r s' →
    exec (.add n f) s = .next (s'.setTile n ((s'.tile n).setX f.rd ((s'.tile n).xr f.ra + (s'.tile n).xr f.rb)).next)) ∧
  (∀ s n f r s', FmtR.wf f = true → f.rsv = 0 → Fetches s n (eR 0x02 f) r s' →
    exec (.sub n f) s = .next (s'.setTile n ((s'.tile n).setX f.rd ((s'.tile n).xr f.ra - (s'.tile n).xr f.rb)).next)) ∧
  (∀ s n f r s', FmtR.wf f = true → f.rsv = 0 → Fetches s n (eR 0x03 f) r s' →
    exec (.and_ n f) s = .next (s'.setTile n ((s'.tile n).setX f.rd ((s'.tile n).xr f.ra &&& (s'.tile n).xr f.rb)).next)) ∧
  (∀ s n f r s', FmtR.wf f = true → f.rsv = 0 → Fetches s n (eR 0x04 f) r s' →
    exec (.or_ n f) s = .next (s'.setTile n ((s'.tile n).setX f.rd ((s'.tile n).xr f.ra ||| (s'.tile n).xr f.rb)).next)) ∧
  (∀ s n f r s', FmtR.wf f = true → f.rsv = 0 → Fetches s n (eR 0x05 f) r s' →
    exec (.xor_ n f) s = .next (s'.setTile n ((s'.tile n).setX f.rd ((s'.tile n).xr f.ra ^^^ (s'.tile n).xr f.rb)).next)) ∧
  (∀ s n f r s', FmtR.wf f = true → f.rsv = 0 → Fetches s n (eR 0x06 f) r s' →
    exec (.shl n f) s = .next (s'.setTile n ((s'.tile n).setX f.rd ((s'.tile n).xr f.ra <<< (((s'.tile n).xr f.rb).toNat % 64))).next)) ∧
  (∀ s n f r s', FmtR.wf f = true → f.rsv = 0 → Fetches s n (eR 0x07 f) r s' →
    exec (.shr n f) s = .next (s'.setTile n ((s'.tile n).setX f.rd ((s'.tile n).xr f.ra >>> (((s'.tile n).xr f.rb).toNat % 64))).next)) ∧
  (∀ s n f r s', FmtR.wf f = true → f.rsv = 0 → Fetches s n (eR 0x08 f) r s' →
    exec (.mul n f) s = .next (s'.setTile n ((s'.tile n).setX f.rd ((s'.tile n).xr f.ra * (s'.tile n).xr f.rb)).next)) ∧
  (∀ s n f r s', FmtR.wf f = true → f.rsv = 0 → Fetches s n (eR 0x09 f) r s' →
    exec (.slt n f) s = .next (s'.setTile n ((s'.tile n).setX f.rd (if ((s'.tile n).xr f.ra).toInt < ((s'.tile n).xr f.rb).toInt then 1 else 0)).next)) ∧
  (∀ s n f r s', FmtI.wf f = true → Fetches s n (eI 0x0A f) r s' →
    exec (.addi n f) s = .next (s'.setTile n ((s'.tile n).setX f.rd ((s'.tile n).xr f.ra + BitVec.ofInt 64 (sext f.imm 16))).next)) ∧
  (∀ s n f r s', FmtI.wf f = true → Fetches s n (eI 0x0B f) r s' →
    exec (.ori n f) s = .next (s'.setTile n ((s'.tile n).setX f.rd ((s'.tile n).xr f.ra ||| BitVec.ofNat 64 f.imm)).next)) ∧
  (∀ s n f r s', FmtI.wf f = true → f.ra = 0 → Fetches s n (eI 0x0C f) r s' →
    exec (.lui n f) s = .next (s'.setTile n ((s'.tile n).setX f.rd (BitVec.ofInt 64 (sext f.imm 16) <<< 16)).next))

/-- R131, R386, R388, R530: a load from own SRAM at an aligned offset that no queued operation touches and a window grants writes its register with what the offset holds;
DLD needs EXEC and a descriptor that R136 admits. A store to own SRAM at an aligned offset that no queued operation touches and a window grants writes the register's
bytes there, through the write of memory that every master uses. Rests on the model's choices of log entries 21, 23. -/
def Obligations.OwnMemoryAccess : Prop :=
  (∀ s n f r s' a, FmtI.wf f = true → Fetches s n (eI 0x0D f) r s' → (s'.tile n).offset f.ra f.imm % 8 = 0 →
    (s'.tile n).busyRange opSpan ((s'.tile n).offset f.ra f.imm) 8 = false →
    s'.read r.task.ctx .tile permRead (.sram n ((s'.tile n).offset f.ra f.imm)) 8 = a → a.st = .ok →
    exec (.ldx n f) s = .next (a.s.setTile n ((a.s.tile n).setX f.rd (BitVec.ofNat 64 (leNat a.data))).next)) ∧
  (∀ s n f r s' a, FmtI.wf f = true → Fetches s n (eI 0x28 f) r s' → (s'.tile n).offset f.ra f.imm % 256 = 0 →
    (s'.tile n).busyRange opSpan ((s'.tile n).offset f.ra f.imm) 256 = false →
    s'.read r.task.ctx .tile permRead (.sram n ((s'.tile n).offset f.ra f.imm)) 256 = a → a.st = .ok →
    exec (.vld n f) s = .next (a.s.setTile n ((a.s.tile n).setV f.rd a.data).next)) ∧
  (∀ s n f r s' a, FmtD.wf f = true → f.rsv = 0 → Fetches s n (eD 0x18 f) r s' → (s'.tile n).offset f.ra f.imm % 64 = 0 →
    (s'.tile n).busyRange opSpan ((s'.tile n).offset f.ra f.imm) 64 = false →
    s'.read r.task.ctx .tile permExec (.sram n ((s'.tile n).offset f.ra f.imm)) 64 = a → a.st = .ok → viewBad a.data = false →
    exec (.dld n f) s = .next (a.s.setTile n ((a.s.tile n).setD f.dn a.data).next)) ∧
  (∀ s n f r s' a, FmtI.wf f = true → Fetches s n (eI 0x0E f) r s' → (s'.tile n).offset f.ra f.imm % 8 = 0 →
    (s'.tile n).busyRange opSpan ((s'.tile n).offset f.ra f.imm) 8 = false →
    s'.write r.task.ctx .tile permWrite (.sram n ((s'.tile n).offset f.ra f.imm)) (leBytes 8 ((s'.tile n).xr f.rd).toNat) = a → a.st = .ok →
    exec (.stx n f) s = .next (a.s.setTile n (a.s.tile n).next)) ∧
  (∀ s n f r s' a, FmtI.wf f = true → Fetches s n (eI 0x29 f) r s' → (s'.tile n).offset f.ra f.imm % 256 = 0 →
    (s'.tile n).busyRange opSpan ((s'.tile n).offset f.ra f.imm) 256 = false →
    s'.write r.task.ctx .tile permWrite (.sram n ((s'.tile n).offset f.ra f.imm)) ((s'.tile n).vr f.rd) = a → a.st = .ok →
    exec (.vst n f) s = .next (a.s.setTile n (a.s.tile n).next)) ∧
  (∀ s n f r s' a, FmtD.wf f = true → f.rsv = 0 → Fetches s n (eD 0x19 f) r s' → (s'.tile n).offset f.ra f.imm % 64 = 0 →
    (s'.tile n).busyRange opSpan ((s'.tile n).offset f.ra f.imm) 64 = false →
    s'.write r.task.ctx .tile permWrite (.sram n ((s'.tile n).offset f.ra f.imm)) ((s'.tile n).dr f.dn) = a → a.st = .ok →
    exec (.dst n f) s = .next (a.s.setTile n (a.s.tile n).next))

/-- R130, R131, R530: a branch goes to `pc + 4 × off` when its test holds and to the next instruction otherwise; JAL links and jumps; JR jumps to a register. A target is
a multiple of 4 below 2 MiB, and a branch faults MISALIGNED at a target above whether or not it is taken. -/
def Obligations.Branches : Prop :=
  (∀ s n f r s', FmtB.wf f = true → Fetches s n (eB 0x10 f) r s' → (s'.tile n).xr f.ra = (s'.tile n).xr f.rb →
    0 ≤ ((s'.tile n).pc : Int) + 4 * sext f.off 16 → ((s'.tile n).pc : Int) + 4 * sext f.off 16 < 2097152 → (s'.tile n).pc % 4 = 0 →
    exec (.beq n f) s = .next (s'.setTile n { s'.tile n with pc := (((s'.tile n).pc : Int) + 4 * sext f.off 16).toNat, waiting := false })) ∧
  (∀ s n f r s', FmtB.wf f = true → Fetches s n (eB 0x10 f) r s' → (s'.tile n).xr f.ra ≠ (s'.tile n).xr f.rb →
    badTarget (((s'.tile n).pc : Int) + 4 * sext f.off 16) = false → exec (.beq n f) s = .next (s'.setTile n (s'.tile n).next)) ∧
  (∀ s n f r s', FmtB.wf f = true → Fetches s n (eB 0x10 f) r s' → badTarget (((s'.tile n).pc : Int) + 4 * sext f.off 16) = true →
    exec (.beq n f) s = .next (s'.faultTask n r causeMisaligned (ofInt 32 (((s'.tile n).pc : Int) + 4 * sext f.off 16)))) ∧
  (∀ s n f r s', FmtB.wf f = true → Fetches s n (eB 0x11 f) r s' → (s'.tile n).xr f.ra ≠ (s'.tile n).xr f.rb →
    0 ≤ ((s'.tile n).pc : Int) + 4 * sext f.off 16 → ((s'.tile n).pc : Int) + 4 * sext f.off 16 < 2097152 → (s'.tile n).pc % 4 = 0 →
    exec (.bne n f) s = .next (s'.setTile n { s'.tile n with pc := (((s'.tile n).pc : Int) + 4 * sext f.off 16).toNat, waiting := false })) ∧
  (∀ s n f r s', FmtB.wf f = true → Fetches s n (eB 0x12 f) r s' → ((s'.tile n).xr f.ra).toInt < ((s'.tile n).xr f.rb).toInt →
    0 ≤ ((s'.tile n).pc : Int) + 4 * sext f.off 16 → ((s'.tile n).pc : Int) + 4 * sext f.off 16 < 2097152 → (s'.tile n).pc % 4 = 0 →
    exec (.blt n f) s = .next (s'.setTile n { s'.tile n with pc := (((s'.tile n).pc : Int) + 4 * sext f.off 16).toNat, waiting := false })) ∧
  (∀ s n f r s', FmtB.wf f = true → Fetches s n (eB 0x13 f) r s' → ((s'.tile n).xr f.rb).toInt ≤ ((s'.tile n).xr f.ra).toInt →
    0 ≤ ((s'.tile n).pc : Int) + 4 * sext f.off 16 → ((s'.tile n).pc : Int) + 4 * sext f.off 16 < 2097152 → (s'.tile n).pc % 4 = 0 →
    exec (.bge n f) s = .next (s'.setTile n { s'.tile n with pc := (((s'.tile n).pc : Int) + 4 * sext f.off 16).toNat, waiting := false })) ∧
  (∀ s n f r s', FmtJ.wf f = true → Fetches s n (eJ 0x14 f) r s' →
    0 ≤ ((s'.tile n).pc : Int) + 4 * sext f.off 21 → ((s'.tile n).pc : Int) + 4 * sext f.off 21 < 2097152 → (s'.tile n).pc % 4 = 0 →
    exec (.jal n f) s = .next (s'.setTile n
      { (s'.tile n).setX f.rd (BitVec.ofNat 64 ((s'.tile n).pc + 4)) with pc := (((s'.tile n).pc : Int) + 4 * sext f.off 21).toNat, waiting := false })) ∧
  (∀ s n f r s', FmtR.wf f = true → f.rsv = 0 → Fetches s n (eR 0x15 f) r s' → ((s'.tile n).xr f.ra).toNat < 2097152 → ((s'.tile n).xr f.ra).toNat % 4 = 0 →
    exec (.jr n f) s = .next (s'.setTile n { s'.tile n with pc := ((s'.tile n).xr f.ra).toNat, waiting := false }))

/-- R131: DSETW replaces one 64-bit word of a descriptor register, and DADV adds the low 32 bits of a register to origin0 or origin1. -/
def Obligations.DescriptorWrites : Prop :=
  (∀ s n f r s', FmtD.wf f = true → f.rsv = 0 → f.imm < 8 → Fetches s n (eD 0x1A f) r s' →
    exec (.dsetw n f) s = .next (s'.setTile n ((s'.tile n).setD f.dn (patch ((s'.tile n).dr f.dn) (8 * f.imm) (leBytes 8 ((s'.tile n).xr f.ra).toNat))).next)) ∧
  (∀ s n f r s', FmtD.wf f = true → f.rsv = 0 → f.imm < 2 → Fetches s n (eD 0x1B f) r s' →
    exec (.dadv n f) s = .next (s'.setTile n ((s'.tile n).setD f.dn
      (if f.imm = 0 then patch ((s'.tile n).dr f.dn) 48 (leBytes 4 (vOrigin0 ((s'.tile n).dr f.dn) + ((s'.tile n).xr f.ra).toNat))
       else patch ((s'.tile n).dr f.dn) 44 (leBytes 4 (vOrigin1 ((s'.tile n).dr f.dn) + ((s'.tile n).xr f.ra).toNat)))).next))

/-! ### Vector functions (R61, R83 to R85, R133) -/

/-- R61, R133: the vector arithmetic writes vd alone: every lane is the exact result of its operation rounded once to nearest-even (DIV and SQRT: within 1 ulp), and the B
forms work on 128 BF16 lanes. Free values stand for the choices the spec leaves open (log entry 17). Rests on the model's choices of log entry 16. -/
def Obligations.VectorArithmetic : Prop :=
  (∀ s n f r s', FmtV.wf f = true → Fetches s n (eV 0x2A 0x00 f) r s' →
    exec (.fadd n f) s = .next (s'.wroteV n f.vd 1024 (s'.lanesOf n 4 f (fun r a b _ => fp32.enc rmRNE 0 (r 0) ((fp32.dec a).add (fp32.dec b)))))) ∧
  (∀ s n f r s', FmtV.wf f = true → Fetches s n (eV 0x2A 0x01 f) r s' →
    exec (.fsub n f) s = .next (s'.wroteV n f.vd 1024 (s'.lanesOf n 4 f (fun r a b _ => fp32.enc rmRNE 0 (r 0) ((fp32.dec a).add (fp32.dec b).neg))))) ∧
  (∀ s n f r s', FmtV.wf f = true → Fetches s n (eV 0x2A 0x02 f) r s' →
    exec (.fmul n f) s = .next (s'.wroteV n f.vd 1024 (s'.lanesOf n 4 f (fun r a b _ => fp32.enc rmRNE 0 (r 0) ((fp32.dec a).mul (fp32.dec b)))))) ∧
  (∀ s n f r s', FmtV.wf f = true → Fetches s n (eV 0x2A 0x03 f) r s' →
    exec (.ffma n f) s = .next (s'.wroteV n f.vd 1024 (s'.lanesOf n 4 f (fun r a b c => fp32.enc rmRNE 0 (r 0) (((fp32.dec a).mul (fp32.dec b)).add (fp32.dec c)))))) ∧
  (∀ s n f r s', FmtV.wf f = true → Fetches s n (eV 0x2A 0x20 f) r s' →
    exec (.badd n f) s = .next (s'.wroteV n f.vd 1024 (s'.lanesOf n 2 f (fun r a b _ => bf16.enc rmRNE 0 (r 0) ((bf16.dec a).add (bf16.dec b)))))) ∧
  (∀ s n f r s', FmtV.wf f = true → Fetches s n (eV 0x2A 0x21 f) r s' →
    exec (.bsub n f) s = .next (s'.wroteV n f.vd 1024 (s'.lanesOf n 2 f (fun r a b _ => bf16.enc rmRNE 0 (r 0) ((bf16.dec a).add (bf16.dec b).neg))))) ∧
  (∀ s n f r s', FmtV.wf f = true → Fetches s n (eV 0x2A 0x22 f) r s' →
    exec (.bmul n f) s = .next (s'.wroteV n f.vd 1024 (s'.lanesOf n 2 f (fun r a b _ => bf16.enc rmRNE 0 (r 0) ((bf16.dec a).mul (bf16.dec b)))))) ∧
  (∀ s n f r s', FmtV.wf f = true → Fetches s n (eV 0x2A 0x23 f) r s' →
    exec (.bfma n f) s = .next (s'.wroteV n f.vd 1024 (s'.lanesOf n 2 f (fun r a b c => bf16.enc rmRNE 0 (r 0) (((bf16.dec a).mul (bf16.dec b)).add (bf16.dec c)))))) ∧
  (∀ s n f r s', FmtV.wf f = true → Fetches s n (eV 0x2A 0x0D f) r s' →
    exec (.div n f) s = .next (s'.wroteV n f.vd 1024 (s'.lanesOf n 4 f (fun r a b _ => divLane r a b)))) ∧
  (∀ s n f r s', FmtV.wf f = true → Fetches s n (eV 0x2A 0x0E f) r s' →
    exec (.sqrt n f) s = .next (s'.wroteV n f.vd 1024 (s'.lanesOf n 4 f (fun r a _ _ => sqrtLane r a))))

/-- R84, R133: FMIN, FMAX, FCMPLT and SEL on 64 lanes; a comparison with NaN is false and the masks of a comparison differ. The INT32 lane functions wrap in 32 bits;
shifts by 32 and more take free values (log entry 17). Rests on the model's choices of log entries 19, 20. -/
def Obligations.VectorSelectionAndIntegers : Prop :=
  (∀ s n f r s', FmtV.wf f = true → Fetches s n (eV 0x2A 0x04 f) r s' →
    exec (.fmin n f) s = .next (s'.wroteV n f.vd 1024 (s'.lanesOf n 4 f (fun r a b _ => pickLane false r a b)))) ∧
  (∀ s n f r s', FmtV.wf f = true → Fetches s n (eV 0x2A 0x05 f) r s' →
    exec (.fmax n f) s = .next (s'.wroteV n f.vd 1024 (s'.lanesOf n 4 f (fun r a b _ => pickLane true r a b)))) ∧
  (∀ s n f r s', FmtV.wf f = true → Fetches s n (eV 0x2A 0x06 f) r s' →
    exec (.fcmplt n f) s = .next (s'.wroteV n f.vd 1024 (s'.lanesOf n 4 f (fun _ a b _ => if (fp32.dec a).lt (fp32.dec b) then maskOn else maskOff)))) ∧
  (∀ s n f r s', FmtV.wf f = true → Fetches s n (eV 0x2A 0x07 f) r s' →
    exec (.sel n f) s = .next (s'.wroteV n f.vd 1024 (s'.lanesOf n 4 f (fun r a b c => if c = maskOn then a else if c = maskOff then b else if r 0 % 2 = 0 then a else b)))) ∧
  maskOn ≠ maskOff ∧ (∀ a b, fp32.dec a = .nan ∨ fp32.dec b = .nan → (fp32.dec a).lt (fp32.dec b) = false) ∧
  (∀ s n f r s', FmtV.wf f = true → Fetches s n (eV 0x2A 0x12 f) r s' →
    exec (.iadd n f) s = .next (s'.wroteV n f.vd 1024 (s'.lanesOf n 4 f (fun _ a b _ => (BitVec.ofNat 32 a + BitVec.ofNat 32 b).toNat)))) ∧
  (∀ s n f r s', FmtV.wf f = true → Fetches s n (eV 0x2A 0x13 f) r s' →
    exec (.isub n f) s = .next (s'.wroteV n f.vd 1024 (s'.lanesOf n 4 f (fun _ a b _ => (BitVec.ofNat 32 a - BitVec.ofNat 32 b).toNat)))) ∧
  (∀ s n f r s', FmtV.wf f = true → Fetches s n (eV 0x2A 0x14 f) r s' →
    exec (.iand n f) s = .next (s'.wroteV n f.vd 1024 (s'.lanesOf n 4 f (fun _ a b _ => (BitVec.ofNat 32 a &&& BitVec.ofNat 32 b).toNat)))) ∧
  (∀ s n f r s', FmtV.wf f = true → Fetches s n (eV 0x2A 0x15 f) r s' →
    exec (.ior n f) s = .next (s'.wroteV n f.vd 1024 (s'.lanesOf n 4 f (fun _ a b _ => (BitVec.ofNat 32 a ||| BitVec.ofNat 32 b).toNat)))) ∧
  (∀ s n f r s', FmtV.wf f = true → Fetches s n (eV 0x2A 0x16 f) r s' →
    exec (.ixor n f) s = .next (s'.wroteV n f.vd 1024 (s'.lanesOf n 4 f (fun _ a b _ => (BitVec.ofNat 32 a ^^^ BitVec.ofNat 32 b).toNat)))) ∧
  (∀ s n f r s', FmtV.wf f = true → Fetches s n (eV 0x2A 0x17 f) r s' →
    exec (.ishl n f) s = .next (s'.wroteV n f.vd 1024 (s'.lanesOf n 4 f (fun r a b _ => if b < 32 then (BitVec.ofNat 32 a <<< b).toNat else r 0 % 2 ^ 32)))) ∧
  (∀ s n f r s', FmtV.wf f = true → Fetches s n (eV 0x2A 0x18 f) r s' →
    exec (.ishr n f) s = .next (s'.wroteV n f.vd 1024 (s'.lanesOf n 4 f (fun r a b _ => if b < 32 then (if Config.ishrSigned then ((BitVec.ofNat 32 a).sshiftRight b).toNat else (BitVec.ofNat 32 a >>> b).toNat)
      else r 0 % 2 ^ 32))))

/-- R61, R84, R133: EXP, LOG, RSQRT, TANH and SIGM write vd alone, lane by lane; NaN gives NaN, and infinities, zeros, negative numbers and an exponential past the
largest number give the special results the spec names. Any other result is a code within 2 ulp of the value that the package computes (within one step where it is
subnormal), wherever that value's own nearest code lies as near. Rests on the model's choices of log entries 15, 17. -/
def Obligations.VectorTranscendentals : Prop :=
  (∀ s n f r s', FmtV.wf f = true → Fetches s n (eV 0x2A 0x08 f) r s' →
    exec (.exp n f) s = .next (s'.wroteV n f.vd 1024 (s'.lanesOf n 4 f (fun r a _ _ => expLane r a)))) ∧
  (∀ s n f r s', FmtV.wf f = true → Fetches s n (eV 0x2A 0x09 f) r s' →
    exec (.log n f) s = .next (s'.wroteV n f.vd 1024 (s'.lanesOf n 4 f (fun r a _ _ => logLane r a)))) ∧
  (∀ s n f r s', FmtV.wf f = true → Fetches s n (eV 0x2A 0x0A f) r s' →
    exec (.rsqrt n f) s = .next (s'.wroteV n f.vd 1024 (s'.lanesOf n 4 f (fun r a _ _ => rsqrtLane r a)))) ∧
  (∀ s n f r s', FmtV.wf f = true → Fetches s n (eV 0x2A 0x0B f) r s' →
    exec (.tanh n f) s = .next (s'.wroteV n f.vd 1024 (s'.lanesOf n 4 f (fun r a _ _ => tanhLane r a)))) ∧
  (∀ s n f r s', FmtV.wf f = true → Fetches s n (eV 0x2A 0x0C f) r s' →
    exec (.sigm n f) s = .next (s'.wroteV n f.vd 1024 (s'.lanesOf n 4 f (fun r a _ _ => sigmLane r a)))) ∧
  (∀ r a, fp32.dec a = .nan → expLane r a = fp32.nanCode (r 0) ∧ logLane r a = fp32.nanCode (r 0) ∧ rsqrtLane r a = fp32.nanCode (r 0) ∧
    tanhLane r a = fp32.nanCode (r 0) ∧ sigmLane r a = fp32.nanCode (r 0)) ∧
  (∀ r a, fp32.dec a = .inf false → expLane r a = 0x7F800000 ∧ logLane r a = 0x7F800000 ∧ rsqrtLane r a = 0 ∧ tanhLane r a = 0x3F800000) ∧
  (∀ r a, fp32.dec a = .inf true → expLane r a = 0 ∧ logLane r a = fp32.nanCode (r 0) ∧ rsqrtLane r a = fp32.nanCode (r 0) ∧ tanhLane r a = 0xBF800000) ∧
  (∀ r a m e, fp32.dec a = .fin false m e → (fp32.dec 0x42B17217).lt (.fin false m e) = true → expLane r a = 0x7F800000) ∧
  (∀ r a neg e, fp32.dec a = .fin neg 0 e → logLane r a = 0xFF800000 ∧ rsqrtLane r a = (if neg then 0xFF800000 else 0x7F800000) ∧ tanhLane r a = a) ∧
  (∀ r a m e, fp32.dec a = .fin true m e → m ≠ 0 → logLane r a = fp32.nanCode (r 0) ∧ rsqrtLane r a = fp32.nanCode (r 0)) ∧
  (∀ r a m e, fp32.dec a = .fin false m e → m ≠ 0 → rsqrtLane r a = ulpPick (r 1) (rsqrtMag m e) ∧
    (logFx m e ≠ 0 → logLane r a = fp32.sign (decide (logFx m e < 0)) (ulpPick (r 1) ((logFx m e).natAbs, -128)))) ∧
  (∀ r a neg m e, fp32.dec a = .fin neg m e → sigmLane r a = ulpPick (r 1) (sigmMag neg m e) ∧ (m ≠ 0 → tanhLane r a = fp32.sign neg (ulpPick (r 1) (tanhMag m e)))) ∧
  (∀ r a m e, fp32.dec a = .fin false m e → (fp32.dec 0x42B17217).lt (.fin false m e) = false → leCent m e 8872 = true → expLane r a = ulpPick (r 1) (expMag (fxOf false m e))) ∧
  (∀ r a m e, fp32.dec a = .fin true m e → leCent m e 8733 = true → expLane r a = ulpPick (r 1) (expMag (fxOf true m e))) ∧
  (∀ v (a : Nat × Int) n, n = (if a.2 + (Nat.log2 a.1 : Int) < -126 then 1 else 2) → nearMag n (fp32.grid a.1 a.2) a (fp32.mag rmRNE 0 a.1 a.2) = true →
    nearMag n (fp32.grid a.1 a.2) a (ulpPick v a) = true)

/-- R83, R85, R133: RSUM, RMAX and RMIN reduce 64 lanes by the pairwise tree, with one rounding at each node; CVT converts FP32 lanes to the format whose code stands in
vc. That the result stands in lane 0 and what the other lanes hold is the model's choice (log entry 18). Rests on the model's choices of log entry 132. -/
def Obligations.VectorReductions : Prop :=
  (∀ s n f r s', FmtV.wf f = true → Fetches s n (eV 0x2A 0x0F f) r s' →
    exec (.rsum n f) s = .next (s'.wroteV n f.vd 128 (ofLanes 4 (tree (fun a b => fp32.enc rmRNE 0 (Config.freeValue s'.fresh) ((fp32.dec a).add (fp32.dec b)))
      ((List.range 64).map (lane 4 ((s'.tile n).vr f.va))) :: (List.range 63).map fun i => Config.freeValue (s'.fresh + 8 + i) % 2 ^ 32)))) ∧
  (∀ s n f r s', FmtV.wf f = true → Fetches s n (eV 0x2A 0x10 f) r s' →
    exec (.rmax n f) s = .next (s'.wroteV n f.vd 128 (ofLanes 4 (tree (pickLane true fun k => Config.freeValue (s'.fresh + k))
      ((List.range 64).map (lane 4 ((s'.tile n).vr f.va))) :: (List.range 63).map fun i => Config.freeValue (s'.fresh + 8 + i) % 2 ^ 32)))) ∧
  (∀ s n f r s', FmtV.wf f = true → Fetches s n (eV 0x2A 0x11 f) r s' →
    exec (.rmin n f) s = .next (s'.wroteV n f.vd 128 (ofLanes 4 (tree (pickLane false fun k => Config.freeValue (s'.fresh + k))
      ((List.range 64).map (lane 4 ((s'.tile n).vr f.va))) :: (List.range 63).map fun i => Config.freeValue (s'.fresh + 8 + i) % 2 ^ 32)))) ∧
  (∀ s n f r s', FmtV.wf f = true → f.vc = 0 → Fetches s n (eV 0x2A 0x19 f) r s' →
    exec (.cvt n f) s = .next (s'.wroteV n f.vd 1024 (s'.lanesOf n 4 f (fun r a _ _ => fp32.enc rmRNE 0 (r 0) (fp32.dec a))))) ∧
  (∀ s n f r s', FmtV.wf f = true → f.vc = 1 → Fetches s n (eV 0x2A 0x19 f) r s' →
    exec (.cvt n f) s = .next (s'.wroteV n f.vd 1024 (s'.lanesOf n 4 f (fun r a _ _ => bf16.enc rmRNE 0 (r 0) (fp32.dec a) % 65536 + r 1 % 65536 * 65536)))) ∧
  (∀ s n f r s', FmtV.wf f = true → f.vc = 2 → Fetches s n (eV 0x2A 0x19 f) r s' →
    exec (.cvt n f) s = .next (s'.wroteV n f.vd 1024 (s'.lanesOf n 4 f (fun r a _ _ => fp16.enc rmRNE 0 (r 0) (fp32.dec a) % 65536 + r 1 % 65536 * 65536))))

/-! ### Tallies, transfers and the end of a task (R108 to R113, R126 to R131, R135 to R138) -/

/-- R109 to R113, R131, R138: the tally instructions of a task that owns its tally. TSET claims an unowned tally too; TDEC decrements with status OK; TWAIT passes once
the tally has fired and waits before; TRD reads count, status and cause; TFREE releases. A task that names a tally of another context in a tally instruction stops with
VIOLATION and cause TALLY_FOREIGN, an unowned tally with the cause of its own. Rests on the model's choices of log entry 136. -/
def Obligations.Tallies : Prop :=
  (∀ s n f r s', FmtS.wf f = true → f.rsv = 0 → Fetches s n (eS 0x34 f) r s' →
    ((s'.tile n).tally f.tally).owner = none ∨ ((s'.tile n).tally f.tally).owner = some r.task.ctx →
    exec (.tset n f) s = .next ((s'.setTally n f.tally { (s'.tile n).tally f.tally with
      owner := some r.task.ctx, count := sext ((s'.tile n).xr f.r).toNat 32, status := .ok, cause := causeNone }).step1 n id)) ∧
  (∀ s n f r s', FmtS.wf f = true → f.rsv = 0 → f.imm ≠ 0 → Fetches s n (eS 0x35 f) r s' →
    ((s'.tile n).tally f.tally).owner = some r.task.ctx →
    exec (.tdec n f) s = .next ((s'.setTally n f.tally { (s'.tile n).tally f.tally with
      count := sext (ofInt 32 (((s'.tile n).tally f.tally).count - f.imm)) 32 }).step1 n id)) ∧
  (∀ s n f r s', FmtS.wf f = true → f.rsv = 0 → Fetches s n (eS 0x36 f) r s' → ((s'.tile n).tally f.tally).owner = some r.task.ctx →
    ((s'.tile n).tally f.tally).count ≤ 0 →
    exec (.twait n f) s = .next (s'.step1 n fun t => t.setX f.r (BitVec.ofNat 64 ((s'.tile n).tally f.tally).status.code))) ∧
  (∀ s n f r s', FmtS.wf f = true → f.rsv = 0 → Fetches s n (eS 0x36 f) r s' → ((s'.tile n).tally f.tally).owner = some r.task.ctx →
    0 < ((s'.tile n).tally f.tally).count →
    exec (.twait n f) s = .next (s'.setTile n { s'.tile n with waiting := true })) ∧
  (∀ s n f r s', FmtS.wf f = true → f.rsv = 0 → Fetches s n (eS 0x37 f) r s' → ((s'.tile n).tally f.tally).owner = some r.task.ctx →
    exec (.trd n f) s = .next (s'.step1 n fun t => t.setX f.r (BitVec.ofNat 64 (ofInt 32 ((s'.tile n).tally f.tally).count +
      ((s'.tile n).tally f.tally).status.code * 2 ^ 32 + ((s'.tile n).tally f.tally).cause * 2 ^ 40)))) ∧
  (∀ s n f r s', FmtS.wf f = true → f.rsv = 0 → Fetches s n (eS 0x38 f) r s' → ((s'.tile n).tally f.tally).owner = some r.task.ctx →
    exec (.tfree n f) s = .next ((s'.setTally n f.tally ⟨0, .ok, causeNone, none, 0, .ok, causeNone⟩).step1 n id)) ∧
  (∀ s n f r s' c, FmtS.wf f = true → f.rsv = 0 → Fetches s n (eS 0x35 f) r s' → ((s'.tile n).tally f.tally).owner = some c → c ≠ r.task.ctx →
    exec (.tdec n f) s = .next (s'.faultTask n r causeTallyForeign f.tally)) ∧
  (∀ s n f r s', FmtS.wf f = true → f.rsv = 0 → Fetches s n (eS 0x36 f) r s' → ((s'.tile n).tally f.tally).owner = none →
    exec (.twait n f) s = .next (s'.faultTask n r causeTallyUnowned f.tally)) ∧
  (∀ s n f r s' c, FmtS.wf f = true → f.rsv = 0 → Fetches s n (eS 0x34 f) r s' → ((s'.tile n).tally f.tally).owner = some c → c ≠ r.task.ctx →
    exec (.tset n f) s = .next (s'.faultTask n r causeTallyForeign f.tally))

/-- R127, R128, R135: an XFER between own SRAM and a context virtual address, 64-aligned and of 64 bytes to 2 MiB, and whose own bytes no queued operation uses, queues
one copy that its tally waits for, and the sequencer goes on; its completion performs the copy and sends the tally one decrement with the copy's status. FENCE passes when
nothing is outstanding. Rests on the model's choices of log entries 90, 127. -/
def Obligations.TileTransfers : Prop :=
  (∀ s n f r s', FmtX.wf f = true → f.rsv = 0 → Fetches s n (eX 0x30 f) r s' →
    badAddr ((s'.tile n).xr f.ra).toNat = false → badAddr ((s'.tile n).xr f.rb).toNat = false →
    ((s'.tile n).xr f.rc).toNat % 64 = 0 → 64 ≤ ((s'.tile n).xr f.rc).toNat → ((s'.tile n).xr f.rc).toNat ≤ 2097152 →
    (bit ((s'.tile n).xr f.ra).toNat 63 = true ∨ bit ((s'.tile n).xr f.rb).toNat 63 = true) →
    (bit ((s'.tile n).xr f.ra).toNat 63 = true → (s'.tile n).busyRange opSpan (((s'.tile n).xr f.ra).toNat % 2097152) ((s'.tile n).xr f.rc).toNat = false) →
    (bit ((s'.tile n).xr f.rb).toNat 63 = true → (s'.tile n).busyRange opSpan (((s'.tile n).xr f.rb).toNat % 2097152) ((s'.tile n).xr f.rc).toNat = false) →
    ((s'.tile n).xr f.ra).toNat % 64 = 0 → ((s'.tile n).xr f.rb).toNat % 64 = 0 →
    ((s'.tile n).tally f.tally).owner = some r.task.ctx →
    exec (.xfer n f) s = .next (s'.step1 n fun x => { x with
      xfers := x.xfers ++ [⟨f.tally, r.task.ctx, r.epoch, r.task.age, ((s'.tile n).xr f.ra).toNat, ((s'.tile n).xr f.rb).toNat, ((s'.tile n).xr f.rc).toNat⟩],
      outstanding := x.outstanding + 1 })) ∧
  (∀ s n k q a r, (s.tile n).xfers[k]? = some q →
    (s.setTile n { s.tile n with xfers := (s.tile n).xfers.eraseIdx k }).copy q.ctx .tile (xferLoc n q.src) (xferLoc n q.dst) q.len = a →
    (a.s.tile n).run = some r → r.task.age = q.taskAge → a.st ≠ .violation →
    exec (.xferComplete n k) s = .next ((a.s.setTile n { a.s.tile n with outstanding := (a.s.tile n).outstanding - 1 }).sendDec
      ⟨.tile n, n, q.tally, 1, a.st, causeNone, q.ctx⟩)) ∧
  (∀ s n f r s', FmtS.wf f = true → f.rsv = 0 → Fetches s n (eS 0x3C f) r s' → (s'.tile n).outstanding = 0 →
    exec (.fence n f) s = .next (s'.step1 n id)) ∧
  (∀ s n f r s', FmtS.wf f = true → f.rsv = 0 → Fetches s n (eS 0x3C f) r s' → (s'.tile n).outstanding ≠ 0 →
    exec (.fence n f) s = .next (s'.setTile n { s'.tile n with waiting := true }))

/-- R108, R111, R128, R131, R138: END with nothing outstanding or queued completes the task with the status in its register: the tile runs nothing, the context is charged
the time, `tasks_completed` counts, and the done tally's decrement leaves; an opcode outside the table stops the task with cause ILLEGAL. Rests on the model's choices of
log entry 91. -/
def Obligations.TaskEnd : Prop :=
  (∀ s n f r s' st, FmtS.wf f = true → f.rsv = 0 → Fetches s n (eS 0x3D f) r s' → Status.ofCode? (((s'.tile n).xr f.r).toNat % 256) = some st →
    (s'.tile n).outstanding = 0 → (s'.tile n).ops = [] →
    exec (.end_ n f) s = .next ((s'.endTask n r st causeNone).freezeHeld n)) ∧
  (∀ s n w r s', Fetches s n w r s' → legalOps.contains (wOp w) = false →
    exec (.illegalInstruction n) s = .next (s'.faultTask n r causeIllegal (s.tile n).pc)) ∧
  (∀ (s : State) n (r : RunTask) st cause, kRecord r.task.desc = false →
    ((s.endTask n r st cause).tile n).run = none ∧
    mgetD ((s.endTask n r st cause).tile n).credit r.task.ctx 0 = mgetD (s.tile n).credit r.task.ctx 0 - ((s.now - r.startNs : Nat) : Int) ∧
    (s.endTask n r st cause).decs = s.decs ++
      (if kDoneValid r.task.desc then [⟨.tile n, kDoneTile r.task.desc, kDoneTally r.task.desc, 1, st, cause, r.task.ctx⟩] else []) ∧
    (s.endTask n r st cause).mem = s.mem ∧
    (∀ k, k ≠ n → (s.endTask n r st cause).tile k = s.tile k))

/-! ### Array operations (R38 to R44, R59, R60, R67 to R75, R127 to R133) -/

/-- R59, R60, R127, R129, R132, R133: MMA, DRAIN and QCVT that pass the checks of their views and find room in their queue of two copy their descriptors into the queue
and the sequencer goes on. MMA gives the current set the operation's format; DRAIN takes the set and makes the other one current. A drain writes its set's cells into its
view and clears them; a conversion writes what it read into its target; a shadow check counts its sample, and a drift, which the recomputed sum shows, is counted against
the package and the tile and recorded; the hour's count starts again at 0. Rests on the model's choices of log entries 14, 23, 92, 98, 99, 100. -/
def Obligations.ArrayOperations : Prop :=
  (∀ s n f r s', FmtT.wf f = true → f.rsv = 0 → f.cfg ≠ 3 → f.acc = 0 → f.dc = 0 → Fetches s n (eT 0x20 f) r s' →
    viewMal ((s'.tile n).dr f.da) = false → viewMal ((s'.tile n).dr f.db) = false → mmaShapeBad ((s'.tile n).dr f.da) ((s'.tile n).dr f.db) ((s'.tile n).dr 0) f.cfg 0 = false →
    viewRemote ((s'.tile n).dr f.da) = false → viewRemote ((s'.tile n).dr f.db) = false →
    s'.viewWindow n r.task.ctx permRead ((s'.tile n).dr f.da) = none → s'.viewWindow n r.task.ctx permRead ((s'.tile n).dr f.db) = none →
    (s'.tile n).queued .mma < 2 →
    exec (.mma n f) s = .next (s'.step1 n fun x =>
      { x.setAcc x.cur { x.accSet x.cur with
          fmt := some (pairFmt (vFormat ((s'.tile n).dr f.da)) (vFormat ((s'.tile n).dr f.db))), wide := f.cfg == 2 } with
        ops := x.ops ++ [⟨.mma, x.cur, some (pairFmt (vFormat ((s'.tile n).dr f.da)) (vFormat ((s'.tile n).dr f.db))), f.cfg == 2, (s'.tile n).dr f.da,
          (s'.tile n).dr f.db, (s'.tile n).dr 0, f.cfg, 0, s'.rd Obj.zeroSkipEnable == 1 && f.skip == 0, s'.rd Obj.escSatThreshold, s'.rd Obj.escFtzThreshold,
          s'.rd Obj.shadowPeriodLog2, r.task.age⟩] })) ∧
  (∀ s n f r s', FmtT.wf f = true → f.rsv = 0 → f.da = 0 → f.db = 0 → f.cfg = 0 → f.acc = 0 → f.skip = 0 → Fetches s n (eT 0x21 f) r s' →
    vDim0 ((s'.tile n).dr f.dc) = 8 → vDim1 ((s'.tile n).dr f.dc) = 64 → fmtScaled (vFormat ((s'.tile n).dr f.dc)) = false →
    ((s'.tile n).accSet (s'.tile n).cur).wide = false →
    viewMal ((s'.tile n).dr f.dc) = false → viewRemote ((s'.tile n).dr f.dc) = false → s'.viewWindow n r.task.ctx permWrite ((s'.tile n).dr f.dc) = none →
    (s'.tile n).queued .drain < 2 →
    exec (.drain n f) s = .next (s'.step1 n fun x =>
      { x.setAcc x.cur { x.accSet x.cur with fmt := none } with
        ops := x.ops ++ [⟨.drain, x.cur, (x.accSet x.cur).fmt, false, [], [], (s'.tile n).dr f.dc, 0, 0, false, s'.rd Obj.escSatThreshold,
          s'.rd Obj.escFtzThreshold, s'.rd Obj.shadowPeriodLog2, r.task.age⟩],
        cur := 1 - x.cur })) ∧
  (∀ s n f r s', FmtT.wf f = true → f.rsv = 0 → f.db = 0 → f.cfg = 0 → f.acc = 0 → f.skip = 0 → Fetches s n (eT 0x22 f) r s' →
    vDim0 ((s'.tile n).dr f.da) = vDim0 ((s'.tile n).dr f.dc) → vDim1 ((s'.tile n).dr f.da) = vDim1 ((s'.tile n).dr f.dc) →
    fmtScaled (vFormat ((s'.tile n).dr f.dc)) = false →
    viewMal ((s'.tile n).dr f.da) = false → viewMal ((s'.tile n).dr f.dc) = false → viewRemote ((s'.tile n).dr f.da) = false → viewRemote ((s'.tile n).dr f.dc) = false →
    s'.viewWindow n r.task.ctx permRead ((s'.tile n).dr f.da) = none → s'.viewWindow n r.task.ctx permWrite ((s'.tile n).dr f.dc) = none →
    (s'.tile n).queued .qcvt < 2 →
    exec (.qcvt n f) s = .next (s'.step1 n fun x =>
      { x with ops := x.ops ++ [⟨.qcvt, 2, none, false, (s'.tile n).dr f.da, [], (s'.tile n).dr f.dc, 0, 0, false, s'.rd Obj.escSatThreshold,
        s'.rd Obj.escFtzThreshold, s'.rd Obj.shadowPeriodLog2, r.task.age⟩] })) ∧
  (∀ s n o rest r a, takeOp .drain [] (s.tile n).ops = some (o, rest) → (s.tile n).run = some r → o.wide = false →
    (s.setTile n { (s.tile n).setAcc o.set { (s.tile n).accSet o.set with cells := [] } with ops := rest }).storeView n r.task.ctx o.dc o.satDef o.ftzDef
      ((List.range (vDim1 o.dc)).map fun i => (List.range (vDim0 o.dc)).map fun j =>
        cellNum o.fmt (((s.tile n).accSet o.set).cell (64 * (i / 8) + 8 * (i % 8) + j))) = a → a.st = .ok →
    exec (.drainDone n) s = .next a.s) ∧
  (∀ s n o rest r a b, takeOp .qcvt [] (s.tile n).ops = some (o, rest) → (s.tile n).run = some r →
    State.rowsRead (vDim1 o.da) (s.setTile n { s.tile n with ops := rest }) n r.task.ctx o.da 0 = a → a.st = .ok →
    a.s.storeView n r.task.ctx o.dc o.satDef o.ftzDef a.val = b → b.st = .ok →
    exec (.qcvtDone n) s = .next b.s) ∧
  (∀ s n fault j l, (s.tile n).shadow = j :: l → drifts j fault = false →
    exec (.shadowCheckDone n fault) s = .next ((s.setTile n { s.tile n with shadow := l }).bump Obj.shadowSamples)) ∧
  (∀ s n fault j l, (s.tile n).shadow = j :: l → drifts j fault = true →
    exec (.shadowCheckDone n fault) s = .next (((((s.setTile n { s.tile n with shadow := l }).bump Obj.shadowSamples).bump Obj.shadowDrift).bumpSat
      (Obj.tileDrift n) 32).event 0x1001 0x01 n j.ctx j.kblock 0 0)) ∧
  (∀ s n, exec (.driftHourRollover n) s = .next (s.wr (Obj.tileDrift n) 0))

/-- R40 to R44, R72, R73, R133: when the oldest MMA of a running task ends with its rows read, every cell of its set holds its row by its column, added to what the set
held (KEEP) or to zero, block by block, and the overflows are counted; the array of 64 cells of every 8 rows or columns is the one that R132 names. Rests on the model's
choices of log entry 131. -/
def Obligations.MatrixProduct : Prop :=
  ∀ s n drawn o rest r k, takeOp .mma [] (s.tile n).ops = some (o, rest) → (s.tile n).run = some r → o.acc < 2 → o.set < 2 → k < 512 →
    (readsA s n r.task.ctx o rest).st = .ok → (readsB s n r.task.ctx o rest).st = .ok →
    ∃ t, exec (.mmaDone n drawn) s = .next t ∧
      ((t.tile n).accSet o.set).cell k =
        (mmaCell (pairFmt (vFormat o.da) (vFormat o.db)) (pairGroup (vFormat o.da) (vFormat o.db)) (Config.freeValue (s.fresh + k))
          (if o.acc = 1 then (((readsB s n r.task.ctx o rest).s.tile n).accSet o.set).cell k else 0)
          ((readsA s n r.task.ctx o rest).val.getD (cellRow o.cfg (k / 64) (k / 8 % 8)) [])
          ((readsB s n r.task.ctx o rest).val.getD (cellCol o.cfg (k / 64) (k % 8)) [])
          (if o.skip then skipMask ((List.range 8).map fun i => (readsA s n r.task.ctx o rest).val.getD (cellRow o.cfg (k / 64) i) []) (vDim0 o.da) else [])).1 ∧
      ((t.tile n).accSet (1 - o.set)).cells = (((readsB s n r.task.ctx o rest).s.tile n).accSet (1 - o.set)).cells ∧
      (t.tile n).x = ((readsB s n r.task.ctx o rest).s.tile n).x ∧ t.mem = (readsB s n r.task.ctx o rest).s.mem

/-! ### Posts, pools, selection and stealing (R106 to R125, R139, R189, R281, R451, R454) -/

/-- R119, R189, R281, R451: a POST goes where its registers say. To a pool it leaves as a post on its way; to a transfer-engine channel, an NI queue, a rank or a mailbox
it is handed over with the 64 bytes it read; the sequencer goes on with one more operation outstanding. -/
def Obligations.PostInstructions : Prop :=
  (∀ s n f r u o rb rc d, Posts s n f .pool r u o rb rc d →
    exec (.postTask n f) s = .next { u with posts := u.posts ++ [⟨o, r.task.ctx, rb, d⟩] }) ∧
  (∀ s n f r u o rb rc d, Posts s n f .te r u o rb rc d → bits rb 0 7 < 72 → u.teOwnerOf (bits rb 0 7) = some r.task.ctx → u.ctxSt r.task.ctx = ctxOpen →
    u.rd (Obj.teState (bits rb 0 7)) = ustActive → directCount (u.chan (bits rb 0 7)).queue < 16 →
    exec (.postTeDirect n f) s = .next ((u.setChan (bits rb 0 7) ((u.chan (bits rb 0 7)).push d true)).postDone o .ok causeNone)) ∧
  (∀ s n f r u o rb rc d, Posts s n f .ni r u o rb rc d → u.ctxSt r.task.ctx = ctxOpen → u.niqActive (bits rb 0 2) r.task.ctx = true →
    niDirectCount (u.niq (bits rb 0 2) r.task.ctx).queue < 16 →
    exec (.postNiDirect n f) s = .next ((u.setNiq (bits rb 0 2) r.task.ctx ((u.niq (bits rb 0 2) r.task.ctx).push d true none [])).postDone o .ok causeNone)) ∧
  (∀ s n f r u o rb rc d, Posts s n f .remote r u o rb rc d → u.ctxSt r.task.ctx = ctxOpen → u.niqActive (n / 480) r.task.ctx = true →
    niDirectCount (u.niq (n / 480) r.task.ctx).queue < 16 →
    exec (.postRemoteTask n f) s = .next (u.setNiq (n / 480) r.task.ctx
      ((u.niq (n / 480) r.task.ctx).push (remoteTaskCmd (bits rc 0 12) rb) true (some o) d))) ∧
  (∀ s n f r u o rb rc d, Posts s n f .mailbox r u o rb rc d → mbSendCtx (u.bind (bits rb 0 4)) r.task.ctx = true →
    u.rd (Obj.mbxState (bits rb 0 4)) = ustActive → u.noReceiver (bits rb 0 4) = false → (u.mbox (bits rb 0 4)).queue.length < 32 →
    exec (.postMailbox n f) s = .next ((u.putMbox (bits rb 0 4)
      { u.mbox (bits rb 0 4) with
        queue := (u.mbox (bits rb 0 4)).queue ++ [⟨.tile n f.tally r.task.ctx r.task.age r.epoch, (u.mbox (bits rb 0 4)).seq + 1, u.pkgTime, d⟩],
        seq := (u.mbox (bits rb 0 4)).seq + 1 }).deliver (bits rb 0 4))) ∧
  (∀ s n f r s' u, FmtX.wf f = true → f.rsv = 0 → Fetches s n (eX 0x31 f) r s' →
    postForm ((s'.tile n).xr f.rb).toNat ((s'.tile n).xr f.rc).toNat = .bell → ((s'.tile n).tally f.tally).owner = some r.task.ctx →
    u = s'.step1 n (fun t => { t with outstanding := t.outstanding + 1 }) → mbSendCtx (u.bind (bits ((s'.tile n).xr f.rb).toNat 0 4)) r.task.ctx = true →
    (u.ringBell (bits ((s'.tile n).xr f.rb).toNat 0 4) (bits ((s'.tile n).xr f.rc).toNat 0 6)).2 = .ok →
    exec (.postBell n f) s = .next ((u.ringBell (bits ((s'.tile n).xr f.rb).toNat 0 4) (bits ((s'.tile n).xr f.rc).toNat 0 6)).1.postDone
      (.tile n f.tally r.task.ctx r.task.age r.epoch) .ok causeNone))

/-- R88, R107, R109 to R113, R119 to R121, R142, R147: a post that no check refuses enters a pool of fewer than 64 entries with the next age and the stealing settings in
force, waits in the post queue of 8 while the pool is full or an earlier post of its source waits there, and is turned away with TIMEOUT and POST_FULL when that is full
too; it times out only while the pool is full. Decrements of one source to one tile keep their order, and those that reach a tile under substitution are kept in arrival
order; a decrement that reaches its owner's tally takes the first error in the order of R23, and one that does not is counted and recorded. Rests on the model's choices
of log entries 25, 26, 89, 102, 134, 136. -/
def Obligations.PostArrival : Prop :=
  (∀ s k p, s.posts[k]? = some p → s.holdsPosts p.target = false → (s.posts.take k).all (fun q => !(sameSource q.origin p.origin && q.target == p.target)) = true →
    State.postCheck { s with posts := s.posts.eraseIdx k } p = none → (s.tile p.target).pool.length < 64 →
    ((s.tile p.target).postQ.any fun q => sameSource q.origin p.origin) = false →
    exec (.postArrival k) s = .next ({ s.setTile p.target { s.tile p.target with
        pool := (s.tile p.target).pool ++ [(⟨s.stamp p.target p.desc, p.ctx, s.nextAge, p.target, false, s.rd Obj.stealEnable == 1, s.rd Obj.stealKeep⟩ : PoolTask)] } with
      posts := s.posts.eraseIdx k, nextAge := s.nextAge + 1 }.postDone p.origin .ok causeNone)) ∧
  (∀ s k p, s.posts[k]? = some p → s.holdsPosts p.target = false → (s.posts.take k).all (fun q => !(sameSource q.origin p.origin && q.target == p.target)) = true →
    State.postCheck { s with posts := s.posts.eraseIdx k } p = none →
    64 ≤ (s.tile p.target).pool.length ∨ ((s.tile p.target).postQ.any fun q => sameSource q.origin p.origin) = true → (s.tile p.target).postQ.length < 8 →
    exec (.postArrival k) s = .next { s.setTile p.target { s.tile p.target with postQ := (s.tile p.target).postQ ++ [p] } with posts := s.posts.eraseIdx k }) ∧
  (∀ s k p, s.posts[k]? = some p → s.holdsPosts p.target = false → (s.posts.take k).all (fun q => !(sameSource q.origin p.origin && q.target == p.target)) = true →
    State.postCheck { s with posts := s.posts.eraseIdx k } p = none →
    64 ≤ (s.tile p.target).pool.length ∨ ((s.tile p.target).postQ.any fun q => sameSource q.origin p.origin) = true → 8 ≤ (s.tile p.target).postQ.length →
    exec (.postArrival k) s = .next ({ s with posts := s.posts.eraseIdx k }.postDone p.origin .timeout causePostFull)) ∧
  (∀ s n p q, s.holdsPosts n = false → (s.tile n).postQ = p :: q → (s.tile n).pool.length < 64 → p.target = n →
    (s.setTile n { s.tile n with postQ := q }).postCheck p = none →
    exec (.postQueueAdmit (.pool n)) s = .next ((s.setTile n { s.tile n with postQ := q }).enterPool p)) ∧
  (∀ s c p q, (s.chan c).postQ = p :: q → directCount (s.chan c).queue < 16 →
    exec (.postQueueAdmit (.te c)) s = .next ((s.setChan c { s.chan c with postQ := q }).teDirect c p.ctx p.origin p.desc)) ∧
  (∀ s n k p, (s.tile n).postQ[k]? = some p → 64 ≤ (s.tile n).pool.length →
    exec (.postWaitExpiry (.pool n) k) s = .next ((s.setTile n { s.tile n with postQ := (s.tile n).postQ.eraseIdx k }).postDone p.origin .timeout causePostFull)) ∧
  (∀ s k d, s.decs[k]? = some d → (s.decs.take k).all (fun e => !(e.src == d.src && e.tile == d.tile)) = true → (s.tile d.tile).held = false → d.tile < 1920 → ((s.tile d.tile).tally d.tally).owner = some d.ctx → s.rd (Obj.tileState d.tile) ≠ ustFrozen →
    exec (.tallyDecrement k) s = .next ({ s with decs := s.decs.eraseIdx k }.setTally d.tile d.tally { (s.tile d.tile).tally d.tally with
      count := sext (ofInt 32 (((s.tile d.tile).tally d.tally).count - d.n)) 32
      status := ((s.tile d.tile).tally d.tally).status.first d.status
      cause := if ((s.tile d.tile).tally d.tally).status.first d.status = ((s.tile d.tile).tally d.tally).status then ((s.tile d.tile).tally d.tally).cause
        else d.cause })) ∧
  (∀ s k d, s.decs[k]? = some d → (s.decs.take k).any (fun e => e.src == d.src && e.tile == d.tile) = true → exec (.tallyDecrement k) s = .next s) ∧
  (∀ s k d, s.decs[k]? = some d → (s.decs.take k).all (fun e => !(e.src == d.src && e.tile == d.tile)) = true → (s.tile d.tile).held = true →
    exec (.tallyDecrement k) s = .next ({ s with decs := s.decs.eraseIdx k }.setTile d.tile { s.tile d.tile with heldDecs := (s.tile d.tile).heldDecs ++ [d] })) ∧
  (∀ s k d, s.decs[k]? = some d → (s.decs.take k).all (fun e => !(e.src == d.src && e.tile == d.tile)) = true → (s.tile d.tile).held = false → ((s.tile d.tile).tally d.tally).owner ≠ some d.ctx →
    exec (.tallyDecrement k) s = .next (({ s with decs := s.decs.eraseIdx k }.bump Obj.tallyMisdirected).event 0x1801 0x01 d.tile d.ctx d.tally d.ctx 0))

/-- R88, R114 to R118, R123 to R125, R139, R392: an idle tile starts the entry that its selection gives: registers x1 to x7 carry the arguments, the tile, the pool's tile
and whether the task was stolen, the sequencer stands at the entry point with its other registers and accumulators cleared. A task past its budget stops with TIMEOUT and
cause BUDGET; a tile with no READY task asks its next neighbour, whatever it runs; a request does not overtake a post of the thief to the victim; a victim gives a task or
none, one that is stealable, READY and within the settings kept at its entry, and an idle thief starts what it was given. Rests on the model's choices of log entries 2,
3, 142. -/
def Obligations.TaskSelection : Prop :=
  (∀ s n u e, s.canStart n = true → State.selectGo (s.order n).2 (s.setTile n { s.tile n with credit := (s.order n).1 }) n = (u, some e) → u.rd Obj.rngHealth = 0 →
    exec (.taskSelect n) s = .next (u.startTask n e)) ∧
  (∀ (s : State) n (e : PoolTask),
    ((s.startTask n e).tile n).xr 1 = BitVec.ofNat 64 (kArg e.desc 0) ∧ ((s.startTask n e).tile n).xr 4 = BitVec.ofNat 64 (kArg e.desc 3) ∧
    ((s.startTask n e).tile n).xr 5 = BitVec.ofNat 64 n ∧ ((s.startTask n e).tile n).xr 6 = BitVec.ofNat 64 e.poolTile ∧
    ((s.startTask n e).tile n).xr 7 = (if e.stolen then 1 else 0) ∧ (∀ k, 7 < k → ((s.startTask n e).tile n).xr k = 0) ∧
    (∀ k, ((s.startTask n e).tile n).vr k = zeros 256 ∧ ((s.startTask n e).tile n).dr k = zeros 64) ∧
    ((s.startTask n e).tile n).pc = kEntry e.desc ∧ ((s.startTask n e).tile n).acc0 = AccSet.empty ∧ ((s.startTask n e).tile n).acc1 = AccSet.empty ∧
    (s.startTask n e).mem = s.mem ∧ (∀ k, k ≠ n → (s.startTask n e).tile k = s.tile k)) ∧
  (∀ s n r, (s.tile n).run = some r → kBudget r.task.desc * 1000 ≤ s.now - r.startNs →
    exec (.taskBudgetExpiry n) s = .next ((s.endTask n r .timeout causeBudget).freezeHeld n)) ∧
  (∀ s n d, n < 1920 → s.domUp (n / 480 + 1) = true → s.rd (Obj.tileState n) = ustActive → (s.tile n).held = false → s.pollsAt d.2 = true →
    (s.tile n).stealGiven = [] → (s.tile n).pool.any (s.tile n).ready = false → nextNeighbour n (s.tile n).stealDir = some d →
    exec (.stealPoll n) s = .next ((s.setTile n { s.tile n with stealDir := d.1, stealAsked := (s.tile n).stealAsked ++ [d.2] }).emit (.steal n d.2))) ∧
  (∀ s v n e, v ∈ (s.tile n).stealAsked → s.postAhead n v = false → s.give v n = some e → v ≠ n →
    exec (.stealRequest v n) s = .next ((s.setTile v { s.tile v with pool := (s.tile v).pool.filter fun x => x.age != e.age }).setTile n
      { s.tile n with stealGiven := (s.tile n).stealGiven ++ [{ e with stolen := true }], stealAsked := (s.tile n).stealAsked.erase v })) ∧
  (∀ s v n, v ∈ (s.tile n).stealAsked → s.postAhead n v = true → Idles (.stealRequest v n) s) ∧
  (∀ s v n, v ∈ (s.tile n).stealAsked → s.postAhead n v = false → s.give v n = none →
    exec (.stealRequest v n) s = .next (s.setTile n { s.tile n with stealAsked := (s.tile n).stealAsked.erase v })) ∧
  (∀ s n e l, (s.tile n).stealGiven = e :: l → s.canStart n = true → s.rd Obj.rngHealth = 0 →
    exec (.stealReply n) s = .next ((s.setTile n { s.tile n with stealGiven := l }).startTask n e)) ∧
  (∀ (s : State) (v n : Nat) (e : PoolTask), s.give v n = some e → e.stealOn = true ∧ kStealable e.desc = true ∧ (s.tile v).ready e = true ∧ e ∈ (s.tile v).pool ∧
    e.keep < ((s.tile v).pool.filter (s.tile v).ready).length ∧ tileIn (s.rdo (Obj.tileSet e.ctx)) n = true)

/-! ### Tile states, substitution and the tile clock (R91, R92, R96 to R103, R140, R142) -/

/-- R20, R24, R27, R96, R140, R346: an Operator or the Custodian disables an ACTIVE tile, which quiesces, and enables a DISABLED one while the package is STARTING or ON;
a disable of a FROZEN tile is held; the Custodian releases a FROZEN tile, which goes back to ACTIVE with its registers and freeze objects cleared and its pending counts
applied. Rests on the model's choices of log entries 6, 91, 93, 94, 95, 143, 155. -/
def Obligations.TileControl : Prop :=
  (∀ s w n, isOpCus w = true → n < 1920 → (s.tile n).subst = none → s.rd (Obj.tileState n) = ustActive →
    Accepted w (.tileDisable w n) s (((s.setTile n { s.tile n with graceOver := false }).goState (Obj.tileState n) 0x01 n ustQuiescing).abortPosts n (fun _ => true)
      .abortedDisabled causeDisabled)) ∧
  (∀ s w n, isOpCus w = true → n < 1920 → (s.tile n).subst = none → s.rd (Obj.tileState n) = ustFrozen →
    Accepted w (.tileDisable w n) s (s.setTile n { s.tile n with heldDisable := true })) ∧
  (∀ s w n, isOpCus w = true → n < 1920 → s.rd (Obj.tileState n) = ustDisabled → s.mastersMay = true →
    Accepted w (.tileEnable w n) s ((s.wr (Obj.tileState n) ustActive).unitEvent 0x01 n ustDisabled ustActive)) ∧
  (∀ s w n, isOpCus w = true → n < 1920 → s.rd (Obj.tileState n) = ustFrozen → Denied w (.tileEnable w n) s rRefused) ∧
  (∀ s w n, isOpCus w = false → Denied w (.tileEnable w n) s rNoAccess) ∧
  (∀ s w n f, isCus w = true → n < 1920 → s.rd (Obj.tileState n) = ustFrozen → (s.tile n).frozen = some f → f.wasQuiescing = false → (s.tile n).heldDisable = false →
    Accepted w (.freezeReleaseKeep w n) s (((((((s.setTile n { s.tile n with
      frozen := none, heldDisable := false, x := [], d := [], v := [], pc := 0, acc0 := .empty, acc1 := .empty,
      tallies := (s.tile n).tallies.map fun y => (y.1, y.2.settle) }).wr (Obj.freezeCause n) 0).wr (Obj.freezeCtx n) 0).wr (Obj.freezePc n) 0).wr
      (Obj.freezeAddr n) 0).goState (Obj.tileState n) 0x01 n ustActive))) ∧
  (∀ s w n f, isCus w = true → n < 1920 → s.rd (Obj.tileState n) = ustFrozen → (s.tile n).frozen = some f → f.wasQuiescing = false → (s.tile n).heldDisable = false →
    Accepted w (.freezeReleasePurge w n) s ((((((((s.setTile n { s.tile n with
      frozen := none, heldDisable := false, x := [], d := [], v := [], pc := 0, acc0 := .empty, acc1 := .empty,
      tallies := (s.tile n).tallies.map fun y => (y.1, y.2.settle) }).wr (Obj.freezeCause n) 0).wr (Obj.freezeCtx n) 0).wr (Obj.freezePc n) 0).wr
      (Obj.freezeAddr n) 0).abortPool n (fun e => e.ctx == f.ctx) .abortedDisabled causeDisabled).goState (Obj.tileState n) 0x01 n ustActive))) ∧
  (∀ s w n, isCus w = true → n < 1920 → s.rd (Obj.tileState n) ≠ ustFrozen → Denied w (.freezeReleaseKeep w n) s rRefused)

/-- R79, R80, R91, R92, R99 to R102, R356, R358 to R360: a parity failure or an expired watchdog fails the tile; a swap reserves a free spare site and waits for its
trigger, a hold at the trigger takes the substitution to its copy; when the copy is done the new site serves the tile, the old one is retired, and completion records that
met the tile are written. Patrol marks the words that it found, one that is uncorrectable already staying so, and reads every word of the row through the checks; the tile
clock of a die moves in steps of 25 MHz between 600 and 1,500 MHz: it falls with what every running task of the die has used counted to now, and rises only under the
common clock, after its VTILE, while the floor latch is clear and the die below its control point. Rests on the model's choices of log entries 27, 29, 96, 97, 143. -/
def Obligations.TileSubstitution : Prop :=
  (∀ s n, n < 1920 → s.rd (Obj.tileState n) ≠ ustFailed → exec (.tileParityFail n) s = .next (s.failTile n)) ∧
  (∀ s n r, (s.tile n).run = some r → (s.tile n).waiting = false → s.rd (Obj.tileState n) ≠ ustFailed →
    exec (.sequencerWatchdogExpiry n) s = .next ((s.bump Obj.watchdogFailures).failTile n)) ∧
  (∀ s w n k, isOpCus w = true → n < 1920 → (s.tile n).subst = none → s.rd (Obj.tileState n) ≠ ustFailed → s.freeSpare (n / 480) = some k →
    Accepted w (.tileSwap w n) s ((s.setTile n { s.tile n with subst := some ⟨1, k, false, false⟩ }).wr (Obj.spareTilesFree (n / 480))
      (s.rd (Obj.spareTilesFree (n / 480)) - 1))) ∧
  (∀ s w n k, isOpCus w = true → n < 1920 → (s.tile n).subst = none → s.rd (Obj.tileState n) ≠ ustFailed → s.freeSpare (n / 480) = some k →
    Accepted w (.tileSwapNow w n) s ((s.setTile n { s.tile n with subst := some ⟨1, k, true, false⟩ }).wr (Obj.spareTilesFree (n / 480))
      (s.rd (Obj.spareTilesFree (n / 480)) - 1))) ∧
  (∀ s n b, (s.tile n).subst = some b → b.step = 1 → s.rd (Obj.tileState n) = ustQuiescing ∨ s.rd (Obj.tileState n) = ustDisabled →
    exec (.substitutionHold n) s = .next (s.setTile n { s.tile n with subst := some { b with step := 3 } })) ∧
  (∀ s n b, (s.tile n).subst = some b → 3 ≤ b.step → b.spare ≠ s.siteOf n → n < 1920 → b.spare < 2048 → s.siteOf n < 2048 →
    (s.tile n).disableAfterSubst = false → ∃ t : State, exec (.substitutionCopyDone n) s = .next t.admitRecords ∧
    t.rd (Obj.siteLogical b.spare) = n ∧ t.rd (Obj.siteState b.spare) = ustActive ∧ t.rd (Obj.siteLogical (s.siteOf n)) = 0xFFFF ∧
    t.rd (Obj.siteState (s.siteOf n)) = (if b.failed then ustFailed else ustRetired) ∧ t.mem.bytes = s.mem.bytes) ∧
  (∀ s n bank row found, ∃ u, u = found.foldl (fun t (e : WordErr) => t.plantWord (tilePa n (2048 * row + 128 * bank + 8 * (e.word % 16))) e.mark) s ∧
    u.mem.bytes = s.mem.bytes ∧ u.reg = s.reg ∧
    exec (.sramPatrol n bank row found) s = .next ((List.range 16).foldl (fun s k => (s.readBlock (tilePa n (2048 * row + 128 * bank + 8 * k)) 8).1) u)) ∧
  (∀ (s : State) a m, mget s.mem.marks a = some .ue → s.plantWord a m = s) ∧
  (∀ s die mhz, die < 4 → mhz % 25 = 0 → 600 ≤ mhz → mhz ≤ 1500 → mhz ≤ s.rd (Obj.tileClockMhz die) →
    ∃ t, exec (.tileClockChange die mhz) s = .next t ∧ t.rd (Obj.tileClockMhz die) = mhz ∧ mget t.steward.raising die = none ∧ t.mem = s.mem ∧ t.decs = s.decs) ∧
  (∀ s die mhz, die < 4 → mhz % 25 = 0 → 600 ≤ mhz → mhz ≤ 1500 → s.rd (Obj.tileClockMhz die) < mhz → s.rd Obj.pkgPowerState = pwrOn → s.rd Obj.floorLatched ≠ 1 →
    s.hot die = false → mhz ≤ s.dieClock die s.commonClock →
    exec (.tileClockChange die mhz) s = .next (State.emit { s with steward := { s.steward with raising := mput s.steward.raising die mhz } } (.avs die mhz))) ∧
  (∀ s : State, (∀ p ∈ s.chans, p.2.recs = []) → (∀ p ∈ s.ni.queues, p.2.recs = []) → s.admitRecords = s)

/-- R144 to R146, R185: a load checks its image and reads LOADING; a load whose checks passed places the sections where the house channels of its tiles are in service,
keeps the digest as a measurement and posts its tasks; the last post's completion ends it with OK, or its first failure. Rests on the model's choices of log entries 26,
103, 137, 138. -/
def Obligations.ImageLoad : Prop :=
  (∀ s w ctx addr, (isCus w || isTenant w ctx) = true → mget s.jti ctx = none → s.ctxSt ctx = ctxOpen → ctx < 64 →
    Accepted w (.jtiLoad w ctx addr) s ({ (s.jCheck ctx addr).1 with
      jti := mput (s.jCheck ctx addr).1.jti ctx ⟨(s.jCheck ctx addr).2.2, 3, (s.jCheck ctx addr).2.1, 0⟩ }.wr (Obj.jtiLoadStatus ctx) 0x0100)) ∧
  (∀ s ctx j u, mget s.jti ctx = some j → j.step = 3 → j.status = .ok → s.placeRuns (tilesOf (s.rdo (Obj.tileSet ctx))) = true →
    s.placeGo j.image ((((jSectionList j.image).filter Section.placed).map fun c =>
      (if c.typ = 3 then (tilesOf (s.rdo (Obj.tileSet ctx))).take (jTiles j.image) else tilesOf (s.rdo (Obj.tileSet ctx))).mapIdx fun i t => (c, i, t)).flatten) = (u, .ok) → u.heldHit = s.heldHit →
    ∃ t, exec (.jtiPlacementDone ctx) s = .next t ∧ t.mem = u.mem ∧
      t.posts = u.posts ++ ((((jSectionList j.image).filter fun c => c.typ == 4).map (taskRecs j.image)).flatten).map fun r =>
        (⟨.jti ctx, ctx, (tilesOf (s.rdo (Obj.tileSet ctx))).getD r.1 0, r.2⟩ : PostMsg)) ∧
  (∀ s ctx j, mget s.jti ctx = some j → j.step ≠ 3 → j.left = 0 →
    exec (.jtiLoadDone ctx) s = .next ({ s with jti := mdel s.jti ctx }.wr (Obj.jtiLoadStatus ctx) (0x0200 + j.status.code)))

/-! ### The memory of the package (R152 to R166, R176 to R182) -/

/-- R79, R155 to R158, R160, R162, R166, R180: what is stored at one physical address is what it reads; every other address reads as before; memory that nothing has
written reads as zero. No two granules of a tier share a cell of a die, and no granule has one in the last 8 bytes of a group, which hold zeros; the check of an unwritten
granule is formed over the complement of its address. A granule of which up to 2 stored bytes differ is correctable, one of which more do is uncorrectable, and one that
was lost reads as unwritten. Rests on the model's choices of log entry 9. -/
def Obligations.MemoryReadsBack : Prop :=
  (∀ (m : Mem) pa d k, k < d.length → (m.put pa d).get (pa + k) 1 = [d.getD k 0]) ∧
  (∀ (m : Mem) pa d a, a < pa ∨ pa + d.length ≤ a → (m.put pa d).get a 1 = m.get a 1) ∧
  (∀ (m : Mem) base len a, base ≤ a → a < base + len → (m.zeroRange base len).get a 1 = [0]) ∧
  (∀ (m : Mem) base len a, a < base ∨ base + len ≤ a → (m.zeroRange base len).get a 1 = m.get a 1) ∧
  (∀ a n, Mem.get State.reset.mem a n = List.replicate n 0) ∧
  (∀ (s : State) p q i j, (s.regionOf p = .shallows ∧ s.regionOf q = .shallows) ∨ (s.regionOf p = .deeps ∧ s.regionOf q = .deeps) → p % 128 = 0 → q % 128 = 0 →
    i < 136 → j < 136 → s.place p = s.place q → s.cellOf p i = s.cellOf q j → p = q ∧ i = j) ∧
  (∀ (s : State) p i, i < 136 → s.cellOf p i % 2048 < 2040 ∧ s.cellOf p i / 2048 = s.groupOf p ∧ s.slotOf p < 15) ∧
  (∀ (s : State) p, s.regionOf p = .shallows ∨ s.regionOf p = .deeps → s.slotGranule p (s.slotOf p) = p / 128 * 128 ∧ (s.storedGroup p).length = 2048 ∧
    (s.storedGroup p).drop 2040 = zeros 8) ∧
  (∀ (s : State) g, s.markOf g = some .unwritten → s.checkAddr g = 2 ^ 44 - 1 - g) ∧ (∀ (s : State) g, s.markOf g ≠ some .unwritten → s.checkAddr g = g) ∧
  (∀ (s : State) g, s.lostGranule g = false → mget s.mem.marks g ≠ some .unwritten →
    s.markOf g = if mgetD s.mem.flips g [] = [] then none else if (mgetD s.mem.flips g []).length ≤ 2 then some .ce else some .ue) ∧
  (∀ (s : State) e c lo hi g, s.place g = (e.stack, e.logical, c) → lo ≤ s.groupOf g → s.groupOf g < hi → (s.loseGroups e c lo hi).markOf g = some .unwritten)

/-- R152, R157 to R161, R164, R165, R176 to R181, R185, R211: commands of a base die to a granule of a tier. A read meets the cells that have come to differ: with the
check clean it answers with what is stored, with a correctable error it writes it back and counts it, and otherwise it answers UNCORRECTABLE; a read of another granule
that the check sees is uncorrectable, and so is every read of a die that has failed. A write stores its bytes; an atomic of either width answers the old value and stores
what its function gives; patrol reads and counts a pass; a refresh or its management command leaves the contents alone, and a report above 95 °C stays with the steward. A
hole answers VIOLATION and records an event. EVACUATE starts the evacuation of an ACTIVE die of a stack with a spare and none under way; a group whose granules are clean
advances its cursor while the house channel that carries the copies is in service, its 1,920 bytes of data counted in `te_bytes`, below the cursor the spare serves, and
the last group puts the spare in service and retires the die; a data die that fails is evacuated where a spare is free and else stays mapped and FAILED; a die that stops
answering loses the groups not yet copied, and a spare that stops gives up the evacuation. Rests on the model's choices of log entries 27, 29, 88, 103, 104. -/
def Obligations.DramCommands : Prop :=
  (∀ s pa g l p, g = pa / 128 * 128 → p = s.plant g l → s.regionOf pa = .shallows ∨ s.regionOf pa = .deeps → s.regionOf g = s.regionOf pa → s.deadGranule g = false →
    (p.markOf g = none → exec (.memRead pa (.cells l)) s = .next (p.emit (.memReply .ok (p.mem.get g 128)))) ∧
    (p.markOf g = some .ce → exec (.memRead pa (.cells l)) s = .next ((p.dramCe g).emit (.memReply .ok (p.mem.get g 128)))) ∧
    (p.markOf g = some .ue ∨ p.markOf g = some .unwritten → exec (.memRead pa (.cells l)) s = .next ((p.dramUe g).emit (.memReply .uncorrectable [])))) ∧
  (∀ s pa o, s.regionOf pa = .shallows ∨ s.regionOf pa = .deeps → s.regionOf (pa / 128 * 128) = s.regionOf pa → Config.eccSeesOther (pa / 128 * 128) o = true →
    exec (.memRead pa (.wrongGranule o)) s = .next ((s.dramUe (pa / 128 * 128)).emit (.memReply .uncorrectable []))) ∧
  (∀ s pa f, s.regionOf pa = .shallows ∨ s.regionOf pa = .deeps → s.regionOf (pa / 128 * 128) = s.regionOf pa →
    s.deadGranule (pa / 128 * 128) = true → ∃ t : State, exec (.memRead pa f) s = .next (t.emit (.memReply .uncorrectable []))) ∧
  (∀ s pa d, s.regionOf pa = .shallows ∨ s.regionOf pa = .deeps → d ≠ [] → d.length < 128 → pa % 128 + d.length ≤ 128 → s.deadGranule pa = false → s.markOf (pa / 128 * 128) = none → s.mem.moves = [] →
    exec (.memWrite pa d) s = .next ({ s with mem := s.mem.put pa d }.emit (.memAck .ok))) ∧
  (∀ s pa fn (wide : Bool) x c n, n = (if wide then 8 else 4) → s.regionOf pa = .shallows ∨ s.regionOf pa = .deeps → pa % n = 0 → fn ≤ 9 → s.deadGranule pa = false →
    s.markOf (pa / 128 * 128) = none → s.mem.moves = [] →
    exec (.memAtomic pa fn wide x c) s = .next ({ s with mem := s.mem.put pa (leBytes n (atomicFn fn (8 * n) (leNat (s.mem.get pa n)) x c)) }.emit
      (.memOld .ok (leNat (s.mem.get pa n))))) ∧
  (∀ s pa f, s.regionOf pa = .hole → s.regionOf (pa / 128 * 128) = .hole →
    exec (.memRead pa f) s = .next ((s.event 0x2004 0x00 0 noCtx (pa / 128 * 128) 0 0).emit (.memReply .violation []))) ∧
  (∀ s pa g l p (last : Bool), g = pa / 128 * 128 → p = s.plant g l → s.regionOf pa = .shallows ∨ s.regionOf pa = .deeps → s.regionOf g = s.regionOf pa → s.deadGranule g = false →
    (p.markOf g = none → exec (.patrolScrub pa (.cells l) last) s = .next (if last then p.bumpSat Obj.scrubPasses 32 else p)) ∧
    (p.markOf g = some .ce → exec (.patrolScrub pa (.cells l) last) s = .next (if last then (p.dramCe g).bumpSat Obj.scrubPasses 32 else p.dramCe g)) ∧
    (p.markOf g = some .ue → exec (.patrolScrub pa (.cells l) last) s = .next (if last then (p.dramUe g).bumpSat Obj.scrubPasses 32 else p.dramUe g))) ∧
  (∀ s st p b, exec (.dramRefresh st p b false) s = .next (s.emit (.refresh st p b)) ∧ exec (.dramRefresh st p b true) s = .next (s.emit (.refreshMgmt st p b))) ∧
  (∀ s st p t, ∃ u, exec (.dramTempReport st p t) s = .next u ∧ u.rd (Obj.dramTempC st p) = ofInt 16 t ∧ u.mem = s.mem ∧
    mget u.steward.temps (dramTempKey st p) = (if 95 < t then some t else none) ∧ (∀ k, k ≠ dramTempKey st p → mget u.steward.temps k = mget s.steward.temps k)) ∧
  (∀ (s : State) g l, s.markOf (g / 128 * 128) = some .ue ∨ s.markOf (g / 128 * 128) = some .unwritten → s.plant g l = s) ∧
  (∀ s w st p sp, isOpCus w = true → st < 32 → p < 17 → s.rd (Obj.dramState st p) = ustActive → s.spareDie st = some sp → s.mem.evacs.any (fun e => decide (e.stack = st)) = false →
    Accepted w (.dramEvacuate w st p) s (({ s with mem := { s.mem with evacs := s.mem.evacs ++ [(⟨st, s.rd (Obj.dramLogical st p), p, sp, 0, 0, 0, false, (s.houseOf (stackHome st)).getD (16 * stackHome st + 15)⟩ : Evac)] } }.wr
      (Obj.evacProgress st p) 0).event 0x2003 0x03 (32 * st + p) noCtx 1 0 0)) ∧
  (∀ s st e, s.evacOf st = some e → s.houseRuns e.ch = true → e.cur0 + 1 < groupsOf st → s.badGranules e 0 e.cur0 = [] →
    exec (.evacGroupCopied st 0) s = .next ((s.bumpBy Obj.teBytes 1920).setEvac { e with cur0 := e.cur0 + 1 })) ∧
  (∀ s st e, s.evacOf st = some e → s.houseRuns e.ch = true → e.cur0 = groupsOf st → e.cur1 + 1 = groupsOf st → s.badGranules e 1 e.cur1 = [] →
    exec (.evacGroupCopied st 1) s = .next (((s.bumpBy Obj.teBytes 1920).setEvac { e with cur1 := e.cur1 + 1 }).evacDone { e with cur1 := e.cur1 + 1 })) ∧
  (∀ (s : State) e, e.stack < 32 → e.old < 17 → e.spare < 17 → e.old ≠ e.spare → e.oldFailed = false →
    (s.evacDone e).rd (Obj.dramLogical e.stack e.spare) = e.logical ∧ (s.evacDone e).rd (Obj.dramLogical e.stack e.old) = 0xFF ∧
    (s.evacDone e).rd (Obj.dramState e.stack e.spare) = ustActive ∧ (s.evacDone e).rd (Obj.dramState e.stack e.old) = ustRetired ∧
    (s.evacDone e).mem.bytes = s.mem.bytes) ∧
  (∀ s st e, s.evacOf st = some e → s.houseRuns e.ch = false → exec (.evacGroupCopied st 0) s = .next s ∧ exec (.evacGroupCopied st 1) s = .next s) ∧
  (∀ (s : State) e pa, s.mem.evacs = [e] → s.place pa = (e.stack, e.logical, 0) → s.servePos pa = some (if s.groupOf pa < e.cur0 then e.spare else e.old)) ∧
  (∀ s st e, s.evacOf st = some e →
    exec (.oldDieUnresponsive st) s = .next (((s.loseGroups e 0 e.cur0 (groupsOf st)).loseGroups e 1 e.cur1 (groupsOf st)).evacDone
      { e with oldFailed := true, unwritten := e.unwritten + 15 * (2 * groupsOf st - e.cur0 - e.cur1) })) ∧
  (∀ s st e, s.evacOf st = some e → e.stack = st → e.cur0 = 0 → e.cur1 = 0 → e.oldFailed = false →
    exec (.spareDieUnresponsive st) s = .next (((((s.dropEvac e).goState (Obj.dramState st e.spare) 0x03 (32 * st + e.spare) ustFailed).addFail 0x03 (32 * st + e.spare)).event
      0x2003 0x03 (32 * st + e.old) noCtx 3 0 0).exhausted 0x03 (32 * st + e.old) 2 false)) ∧
  (∀ s st p, st < 32 → p < 17 → s.evacOf st = none → s.rd (Obj.dramState st p) = ustActive → s.spareDie st = none →
    exec (.dramDieFail st p) s = .next ((((s.wr (Obj.dramState st p) ustFailed).unitEvent 0x03 (32 * st + p) ustActive ustFailed).addFail 0x03 (32 * st + p)).exhausted
      0x03 (32 * st + p) 2 true)) ∧
  (∀ s st p sp, st < 32 → p < 17 → s.mem.evacs.any (fun e => decide (e.stack = st)) = false → s.rd (Obj.dramState st p) = ustActive → s.spareDie st = some sp →
    ∃ t e, exec (.dramDieFail st p) s = .next t ∧ t.evacOf st = some e ∧ e.old = p ∧ e.spare = sp ∧ e.oldFailed = true ∧ e.cur0 = 0 ∧ e.cur1 = 0) ∧
  (∀ s st p e, st < 32 → p < 17 → s.evacOf st = some e → p ≠ e.old → p ≠ e.spare → s.rd (Obj.dramState st p) = ustActive →
    exec (.dramDieFail st p) s = .next ((((s.wr (Obj.dramState st p) ustFailed).unitEvent 0x03 (32 * st + p) ustActive ustFailed).addFail 0x03 (32 * st + p)).exhausted
      0x03 (32 * st + p) 2 true))

/-- R168, R169, R172 to R175: a well-formed MAP of an OPEN context that meets no page, stays within the quota and the table store and finds its pages maps them all, each
from the free pool; an UNMAP of whole pages takes them out and shoots them down; a released page is free once its fill has ended. A walk whose read was uncorrectable is
recorded, and the access that waited for it completes with UNCORRECTABLE, whether or not a page maps the address. A command of a Tenant of another context is refused.
Rests on the model's choices of log entries 28, 103, 125, 139, 140. -/
def Obligations.Paging : Prop :=
  (∀ s w c b t, pageWriter w c = true → pmOp b = 1 → b.length = 32 → c ≠ 0 → c < 64 → s.rd (Obj.pageMapStatus c) / 256 ≠ 1 → s.pmMalformedCmd b = false → s.ctxSt c = ctxOpen →
    s.pagesIn c (pmVa b) (pmLen b) = [] → s.mappedMib c + pmLen b / 1048576 ≤ s.rd (Obj.ctxQuotaMib c) →
    tablesFor (s.mem.pages ++ (List.range (pmLen b / pageSize (pmBig b))).map fun i => (⟨c, pmVa b + i * pageSize (pmBig b), pmBig b, 0, false⟩ : PageEnt)) ≤ 4096 →
    State.mapGo (pmLen b / pageSize (pmBig b)) s c b (pmVa b) = some t →
    Accepted w (.pageMap w c b) s ((t.syncMapped c).wr (Obj.pageMapStatus c) 0x0200)) ∧
  (∀ n (s t : State) c b va, State.mapGo n s c b va = some t → ∀ i, i < n → ∃ pa, (⟨c, va + i * pageSize (pmBig b), pmBig b, pa, false⟩ : PageEnt) ∈ t.mem.pages ∧
    (⟨pa, pmBig b, .mapped c⟩ : Frame) ∈ t.mem.frames) ∧
  (∀ s w c b, pageWriter w c = true → pmOp b = 2 → b.length = 32 → c ≠ 0 → c < 64 → s.rd (Obj.pageMapStatus c) / 256 ≠ 1 → s.pmMalformedCmd b = false → s.ctxSt c = ctxOpen →
    (s.pagesIn c (pmVa b) (pmLen b)).any (fun p => decide (p.va < pmVa b) || decide (pmVa b + pmLen b < p.va + p.size)) = false →
    ((s.pagesIn c (pmVa b) (pmLen b)).map (·.size)).foldl (· + ·) 0 = pmLen b → (s.pagesIn c (pmVa b) (pmLen b)).any (·.moving) = false →
    Accepted w (.pageUnmap w c b) s ((s.unmapPages c (s.pagesIn c (pmVa b) (pmLen b))).wr (Obj.pageMapStatus c) 0x0100)) ∧
  (∀ s w c b, pageWriter w c = false → pmOp b = 1 → Denied w (.pageMap w c b) s rNoAccess) ∧
  (∀ s pa f, s.fillReady (fun f => f.why == .page pa) = some f → ∃ t, exec (.unmapFillDone pa) s = .next t ∧
    t.mem.frames = s.mem.frames.filter (fun f => f.pa != pa) ∧ t.mem.fills = s.mem.fills.filter (fun x => x != f) ∧
    (∀ a, f.base ≤ a → a < f.base + f.len → t.mem.get a 1 = [0])) ∧
  (∀ s c va p k, (s.pageOf c va = some p ∧ k = p.va) ∨ (s.pageOf c va = none ∧ k = va / 2097152 * 2097152) →
    exec (.tableWalkDone c va false) s = .next { s.bump Obj.tcMissCount with mem := { s.mem with walkUe := s.mem.walkUe.filter fun x => x != (c, k) } }) ∧
  (∀ s c va p k, (s.pageOf c va = some p ∧ k = p.va) ∨ (s.pageOf c va = none ∧ k = va / 2097152 * 2097152) →
    exec (.tableWalkDone c va true) s = .next ({ s.bump Obj.tcMissCount with
      mem := { s.mem with walkUe := (c, k) :: s.mem.walkUe.filter fun x => x != (c, k) } }.event 0x2005 0x0D c c va 0 0)) ∧
  (∀ (s : State) c m need va n, s.winOk c m need (.virt va) n = true → s.pageOf c va = none → s.mem.walkUe.contains (c, va / 2097152 * 2097152) = true →
    s.resolve c m need (.virt va) n = ({ s with mem := { s.mem with walkUe := s.mem.walkUe.filter fun x => x != (c, va / 2097152 * 2097152) } }, .uncorrectable, 0))

/-! ### Contexts and protection (R170, R381 to R403) -/

/-- R170, R175, R381 to R383, R399 to R402, R407: OPEN of a FREE context with a well-formed command opens it with the command's weight, pool limit and quota, epoch 0, no
job and no rank table, and fails while the random generator has FAILED; RETIRE of an OPEN context takes its step 1, and of a RETIRING one has no further effect, and of
ctx 0 is refused with result NOT_OPEN. After the quiet period keys and jobs go and the shootdown of step 4 starts; the last acknowledgement of a shootdown leads to the
fills, and the last fill of a retire frees the context, not before, with what SRAM it withholds kept from the next; a job number is held until its time has passed. Rests
on the model's choices of log entries 2, 55. -/
def Obligations.ContextLife : Prop :=
  (∀ s w c b, isOpCus w = true → byteAt b 0 ≠ 2 → c < 64 → b.length = 16 → c ≠ 0 → s.rd (Obj.ctxStatus c) / 256 ≠ 1 → s.openMalformed b = false → s.ctxSt c = ctxFree → s.rd Obj.rngHealth = 0 →
    Accepted w (.contextOpen w c b) s (s.openCtx c b)) ∧
  (∀ s w c b, isOpCus w = true → byteAt b 0 ≠ 2 → c < 64 → b.length = 16 → c ≠ 0 → s.rd (Obj.ctxStatus c) / 256 ≠ 1 → s.openMalformed b = false → s.ctxSt c = ctxFree → s.rd Obj.rngHealth ≠ 0 →
    Accepted w (.contextOpen w c b) s (s.wr (Obj.ctxStatus c) 0x0209)) ∧
  (∀ (s : State) c b, 0 < c → c < 64 → byteAt b 1 < 2 →
    (s.openCtx c b).ctxSt c = ctxOpen ∧ (s.openCtx c b).rd (Obj.ctxWeight c) = byteAt b 2 ∧ (s.openCtx c b).rd (Obj.ctxPoolLimit c) = byteAt b 3 ∧
    (s.openCtx c b).rd (Obj.ctxQuotaMib c) = leAt b 4 4 ∧ (s.openCtx c b).rd (Obj.protEpoch c) = 0 ∧ (s.openCtx c b).rd (Obj.niJob c) = 0 ∧
    (s.openCtx c b).confidential c = (byteAt b 1 == 1) ∧ (∀ k, k < 4096 → mget (s.openCtx c b).ni.ranks (4096 * c + k) = none) ∧
    ((∀ k, k < 72 → s.teOwnerOf k ≠ some c) → (s.openCtx c b).mem = s.mem ∧ (s.openCtx c b).tiles = s.tiles)) ∧
  (∀ s w c b, isOpCus w = true → byteAt b 0 = 2 → c < 64 → b.length = 16 → c ≠ 0 → allZero (slice b 1 15) = true → s.ctxSt c = ctxOpen → s.ctxs.retireAfter.contains c = false →
    s.ctxs.prots.any (fun p => p.ctx == c) = false → Accepted w (.contextRetire w c b) s (s.retireBegin c)) ∧
  (∀ s w c b, isOpCus w = true → byteAt b 0 = 2 → c < 64 → b.length = 16 → c ≠ 0 → allZero (slice b 1 15) = true → s.ctxSt c = ctxRetiring →
    Accepted w (.contextRetire w c b) s s) ∧
  (∀ (s : State) w b, isOpCus w = true → byteAt b 0 = 2 → b.length = 16 → s.admits w = true →
    exec (.contextRetire w 0 b) s = .next ((s.wr (Obj.ctxStatus 0) 0x0203).answer w.session w.reqId opWrite rRefused [] 0 0)) ∧
  (∀ s w c b, isOpCus w = false → byteAt b 0 ≠ 2 → Denied w (.contextOpen w c b) s rNoAccess) ∧
  (∀ s c, c ≠ 0 → s.ctxSt c = ctxRetiring → s.rd (Obj.retireStep c) = 2 →
    exec (.retireQuietEnd c) s = .next (((s.retireKeys c).wr (Obj.retireStep c) 4).shoot (.retire c) [])) ∧
  (∀ s k cache h, s.mem.shoots[k]? = some h → h.waiting.filter (fun x => x != cache) = [] →
    exec (.shootdownAck k cache) s = .next ({ s with mem := { s.mem with shoots := s.mem.shoots.eraseIdx k } }.shootDone { h with waiting := [] })) ∧
  (∀ s k cache h, s.mem.shoots[k]? = some h → h.waiting.filter (fun x => x != cache) ≠ [] →
    exec (.shootdownAck k cache) s = .next { s with mem := { s.mem with shoots := s.mem.shoots.set k { h with waiting := h.waiting.filter fun x => x != cache } } }) ∧
  (∀ s c f, s.fillReady (·.ofRetire c) = some f → (s.fillDone f).mem.fills.any (·.ofRetire c) = false →
    exec (.retireFillDone c) s = .next ((s.fillDone f).retireEnd c)) ∧
  (∀ s c f, s.fillReady (·.ofRetire c) = some f → (s.fillDone f).mem.fills.any (·.ofRetire c) = true → exec (.retireFillDone c) s = .next (s.fillDone f)) ∧
  (∀ s c, s.fillReady (·.ofRetire c) = none → s.mem.fills.any (·.ofRetire c) = true → Idles (.retireFillDone c) s) ∧
  (∀ (s : State) c, 0 < c → c < 64 → (s.retireEnd c).ctxSt c = ctxFree ∧ (s.retireEnd c).rd (Obj.protEpoch c) = 0 ∧ (s.retireEnd c).rd (Obj.retireStep c) = 0 ∧
    (∀ p ∈ (s.retireEnd c).mem.pages, p.ctx ≠ c) ∧ (∀ h ∈ (s.retireEnd c).mem.sramHeld, h.ctx ≠ c) ∧ (s.retireEnd c).mem.bytes = s.mem.bytes) ∧
  (∀ s j, exec (.jobHoldExpiry j) s = .next { s with ni := { s.ni with heldJobs := s.ni.heldJobs.filter fun k => k != j } })

/-- R389, R395 to R399: COMMIT of a context that is not OPEN is refused with result NOT_OPEN; of an OPEN one it copies the staged set and, when it breaks no rule and
waits for nothing, puts it in force with the next epoch; when the old requests have drained with nothing to fill, and when the last fill has ended, the commit ends;
DISCARD makes the staged copy the committed one. Rests on the model's choices of log entry 6. -/
def Obligations.ProtectionCommit : Prop :=
  (∀ s w c, isOpCus w = true → c < 64 → c ≠ 0 → (s.confidential c = true → isCus w = true) → s.ctxSt c = ctxOpen → s.rd (Obj.protStatus c) / 256 ≠ 1 →
    Accepted w (.protCommit w c) s (({ s with ctxs := { s.ctxs with prots := s.ctxs.prots ++
      [(⟨c, 1, s.staged c, (List.range 64).map fun w => s.rdo (Obj.windowStaged c w), [], []⟩ : ProtRun)] } }.wr (Obj.protStatus c) 0x0100).protTry
        ⟨c, 1, s.staged c, (List.range 64).map fun w => s.rdo (Obj.windowStaged c w), [], []⟩)) ∧
  (∀ (s : State) w c, isOpCus w = true → c < 64 → c ≠ 0 → (s.confidential c = true → isCus w = true) → s.ctxSt c ≠ ctxOpen → s.rd (Obj.protStatus c) / 256 ≠ 1 → s.admits w = true →
    exec (.protCommit w c) s = .next ((s.wr (Obj.protStatus c) 0x0204).answer w.session w.reqId opWrite rRefused [] 0 0)) ∧
  (∀ (s : State) (p : ProtRun), 0 < p.ctx → p.ctx < 64 → p.newWins.any windowBad = false → s.protOverlap p.ctx p.newTiles p.newWins = false → s.protExclusive p.ctx p.newTiles = false →
    s.protWaits p.ctx p.newTiles p.newWins = false → p.newWins.length = 64 →
    (s.protTry p).rd (Obj.protEpoch p.ctx) = (s.rd (Obj.protEpoch p.ctx) + 1) % 2 ^ 32 ∧ (s.protTry p).rdo (Obj.tileSet p.ctx) = p.newTiles ∧
    (∀ k, k < 64 → (s.protTry p).rdo (Obj.window p.ctx k) = p.newWins.getD k []) ∧ (s.protTry p).mem = s.mem) ∧
  (∀ s c p, s.ctxs.prots.find? (fun p => p.ctx == c && p.step == 2) = some p → tilesOf p.oldTiles = [] → s.mem.fills = [] →
    exec (.protOldRequestsDrained c) s = .next (((s.deliverDecs c).setProt { p with step := 4 }).protEnd p)) ∧
  (∀ s c f p, s.fillReady (fun f => f.why == .commitSram c) = some f → (s.fillDone f).mem.fills.any (fun f => f.why == .commitSram c) = false →
    s.ctxs.prots.find? (fun p => p.ctx == c && p.step == 4) = some p →
    exec (.protFillDone c) s = .next ((s.fillDone f).protEnd p)) ∧
  (∀ s w c, isOpCus w = true → c < 64 → c ≠ 0 → (s.confidential c = true → isCus w = true) → s.ctxSt c = ctxOpen → s.rd (Obj.protStatus c) / 256 ≠ 1 →
    ∃ t, Accepted w (.protDiscard w c) s t ∧ t.staged c = s.rdo (Obj.tileSet c) ∧ (∀ k, k < 64 → t.rdo (Obj.windowStaged c k) = s.rdo (Obj.window c k)) ∧ t.reg = s.reg ∧ t.mem = s.mem)

/-! ### Transfer engines (R185 to R204, R207, R210, R211) -/

/-- R100, R153, R188, R190 to R199, R207, R211, R390: the oldest queued descriptor of a channel starts as one more in progress; when its movement has ended with OK it
completes with what the movement came to, and a window check that fails freezes the channel; one that meets a tile under substitution waits, and changes nothing yet. A
descriptor that is malformed completes at once with VIOLATION and MALFORMED. The owner of a channel writes its ring indices below the ring's size; a fetch takes the
descriptor at the head into the channel queue and moves the head, and one whose window check fails completes with VIOLATION, WINDOW and freezes the channel. A COPY moves
its bytes through the copy of memory that every master uses and a FILL stores its 8-byte pattern over its length, both by the channel's own kind of master and under its
owner's windows; a GATHER checks an element's index word and addresses before it moves any of it; work that is stopped after some granules has moved just those. Rests on
the model's choices of log entries 32, 33, 34, 88, 89, 141. -/
def Obligations.TransferQueues : Prop :=
  (∀ s c a u, Starts s c 1 a u → exec (.teCopy c) s = .next u) ∧ (∀ s c a u, Starts s c 2 a u → exec (.teFill c) s = .next u) ∧
  (∀ s c a u, Starts s c 3 a u → exec (.teScrub c) s = .next u) ∧ (∀ s c a u, Starts s c 4 a u → exec (.teGather c) s = .next u) ∧
  (∀ s c a u, Starts s c 5 a u → exec (.teScatter c) s = .next u) ∧
  (∀ s c d q, (s.chan c).queue = d :: q → dMode d.bytes = 2 → s.teMayStart c d = true → s.teMalformed c d.bytes = true →
    exec (.teFill c) s = .next (s.unlessHeld ((s.setChan c { s.chan c with queue := q }).teDrop c d .violation tdMalformed))) ∧
  (∀ s c k a ctx r, (s.chan c).active.find? (fun a => decide (a.serial = k)) = some a → s.teOwnerOf c = some ctx → a.phase = .working → dMode a.bytes < 6 →
    s.teMove c ctx a.bytes allGranules = r → r.st ≠ .violation → (r.s.teFinish c a r.st r.detail r.bytes r.count).heldHit = s.heldHit →
    exec (.teDescriptorComplete c k) s = .next (r.s.teFinish c a r.st r.detail r.bytes r.count)) ∧
  (∀ s c k a ctx r, (s.chan c).active.find? (fun a => decide (a.serial = k)) = some a → s.teOwnerOf c = some ctx → a.phase = .working → dMode a.bytes < 6 →
    s.teMove c ctx a.bytes allGranules = r → r.st ≠ .violation → s.heldHit < (r.s.teFinish c a r.st r.detail r.bytes r.count).heldHit →
    exec (.teDescriptorComplete c k) s = .next s) ∧
  (∀ s c k a ctx r, (s.chan c).active.find? (fun a => decide (a.serial = k)) = some a → s.teOwnerOf c = some ctx → a.phase = .working → dMode a.bytes < 6 →
    s.teMove c ctx a.bytes allGranules = r → r.st = .violation → r.detail = tdWindow →
    ((r.s.teFinish c a .violation tdWindow r.bytes r.count).freezeTe c a.epoch r.addr).heldHit = s.heldHit →
    exec (.teDescriptorComplete c k) s = .next ((r.s.teFinish c a .violation tdWindow r.bytes r.count).freezeTe c a.epoch r.addr)) ∧
  (∀ s w c v, s.teWriter w c = true → v < s.rd (Obj.teSqEntries c) → Accepted w (.teSqTailWrite w c v) s (s.wr (Obj.teSqTail c) v)) ∧
  (∀ s w c v, s.teWriter w c = true → v < s.rd (Obj.teCqEntries c) → Accepted w (.teCqHeadWrite w c v) s ((s.wr (Obj.teCqHead c) v).flushRecords c)) ∧
  (∀ s w c v, s.teWriter w c = false → Denied w (.teSqTailWrite w c v) s rNoAccess) ∧
  (∀ s c ctx a, s.teOwnerOf c = some ctx → ctx ≠ 0 → s.rd (Obj.teState c) = ustActive → s.chanUp c = true → s.rd (Obj.teSqHead c) ≠ s.rd (Obj.teSqTail c) →
    s.read ctx (chanMaster c) permRead (.virt (s.rd (Obj.teSqBase c) + 64 * s.rd (Obj.teSqHead c))) 64 = a → a.st = .ok → a.s.heldHit = s.heldHit →
    ∃ t, exec (.teRingFetch c) s = .next t ∧ t.rd (Obj.teSqHead c) = (s.rd (Obj.teSqHead c) + 1) % s.rd (Obj.teSqEntries c) ∧
      t.chan c = (a.s.chan c).push a.data false ∧ t.mem = a.s.mem ∧ t.tiles = a.s.tiles) ∧
  (∀ s c ctx a u t, s.teOwnerOf c = some ctx → ctx ≠ 0 → s.rd (Obj.teState c) = ustActive → s.chanUp c = true → s.rd (Obj.teSqHead c) ≠ s.rd (Obj.teSqTail c) →
    s.read ctx (chanMaster c) permRead (.virt (s.rd (Obj.teSqBase c) + 64 * s.rd (Obj.teSqHead c))) 64 = a → a.st = .violation → a.win = true →
    u = a.s.wr (Obj.teSqHead c) ((s.rd (Obj.teSqHead c) + 1) % s.rd (Obj.teSqEntries c)) →
    t = (u.setChan c { u.chan c with nextSerial := (u.chan c).nextSerial + 1 }).recordDesc c (u.chan c).nextSerial (zeros 4) .violation tdWindow 0xFF 0 0 →
    exec (.teRingFetch c) s = .next (s.unlessHeld (t.freezeTe c (t.rd (Obj.protEpoch ctx)) a.addr))) ∧
  (∀ (ch : TeChan) b, (ch.push b false).queue = ch.queue ++ [⟨ch.nextSerial, b, false⟩] ∧ (ch.push b false).active = ch.active ∧ (ch.push b false).recs = ch.recs) ∧
  (∀ (s : State) c ctx b, dMode b = 1 → s.teMove c ctx b allGranules = .of (s.copy ctx (chanMaster c) (teLoc ctx (dSrc b)) (teLoc ctx (dDst b)) (dLen b))
    (s.copy ctx (chanMaster c) (teLoc ctx (dSrc b)) (teLoc ctx (dDst b)) (dLen b)).done 0) ∧
  (∀ (s : State) c ctx b, dMode b = 2 → s.teMove c ctx b allGranules = .of (s.write ctx (chanMaster c) permWrite (teLoc ctx (dDst b)) (fillBytes (dAux b) (dLen b)))
    (s.write ctx (chanMaster c) permWrite (teLoc ctx (dDst b)) (fillBytes (dAux b) (dLen b))).done 0) ∧
  (∀ (s : State) c ctx b, dMode b = 3 → s.teMove c ctx b allGranules =
    State.scrubGo (cdiv (dDst b % 128 + dLen b) 128) s ctx (chanMaster c) (teLoc ctx (dDst b - dDst b % 128)) 0 0) ∧
  (∀ (s : State) c ctx b, dMode b = 4 → s.teMove c ctx b allGranules = State.gatherGo (dCount b) s ctx (chanMaster c) b 0 allGranules) ∧
  (∀ f (s : State) ctx m b k v w, 0 < v → s.read ctx m permRead ((teLoc ctx (dAux b)).adv (8 * k)) 8 = w → w.st = .ok → elemBad (leNat w.data) (dElem b) = true →
    State.gatherGo (f + 1) s ctx m b k v = ⟨w.s, .violation, tdMalformed, k * dElem b, k, 0⟩) ∧
  (∀ f (s : State) ctx m b k v w a, 0 < v → s.read ctx m permRead ((teLoc ctx (dAux b)).adv (8 * k)) 8 = w → w.st = .ok → elemBad (leNat w.data) (dElem b) = false →
    w.s.elemCheck ctx m (teLoc ctx (leNat w.data)) ((teLoc ctx (dDst b)).adv (k * dElem b)) (dElem b) = some a →
    State.gatherGo (f + 1) s ctx m b k v = ⟨w.s, .violation, tdWindow, k * dElem b, k, a⟩) ∧
  (∀ (s : State) c ctx b v, dMode b = 2 → v * 128 ≤ dLen b → dDst b % 128 = 0 → s.teMove c ctx b v = .of (s.write ctx (chanMaster c) permWrite (teLoc ctx (dDst b)) (fillBytes (dAux b) (128 * v)))
    (s.write ctx (chanMaster c) permWrite (teLoc ctx (dDst b)) (fillBytes (dAux b) (128 * v))).done 0)

/-- R201 to R204: a MIGRATE of a mapped page that lies elsewhere, with a free page where it asks, reserves that page and starts a shootdown; every granule is copied with
its check, the copy's end moves the entry to the destination and releases the source; a wait for a free page that runs out ends with TIMEOUT and NO_PAGE, and another wait
does not. Rests on the model's choices of log entries 28, 30. -/
def Obligations.Migration : Prop :=
  (∀ s c a u p pa, (s.chan c).active.filter (fun a => a.phase == .waitPage || a.phase == .waitMove) = [] → Starts s c 6 a u →
    u.check ((u.teOwnerOf c).getD 0) .te permRead (teLoc ((u.teOwnerOf c).getD 0) (dSrc a.bytes)) 1 = none → u.pageOf ((u.teOwnerOf c).getD 0) (dSrc a.bytes) = some p →
    p.moving = false → u.alreadyThere p.pa (dAux a.bytes % 256) (dAux a.bytes / 256 % 256) = false →
    u.takePage (dAux a.bytes % 256) (dAux a.bytes / 256 % 256) p.big = some pa →
    exec (.teMigrate c) s = .next ((({ u with mem := { u.mem with
      pages := u.mem.pages.map fun (q : PageEnt) => if q = p then { q with moving := true } else q
      frames := u.mem.frames ++ [(⟨pa, p.big, .reserved⟩ : Frame)]
      moves := u.mem.moves ++ [(⟨c, a.serial, (u.teOwnerOf c).getD 0, p.va, p.big, p.pa, pa, 0, false, false⟩ : Move)] } }.syncMem).shoot
        (.migrateStart (moveKey c a.serial)) []).updActive c a.serial fun x => { x with phase := .working })) ∧
  (∀ s c k a, (s.chan c).active.find? (fun a => decide (a.serial = k ∧ a.phase = .waitPage)) = some a →
    exec (.migrateWaitExpiry c k) s = .next (s.updActive c k fun x => { x with phase := .ended, status := .timeout, detail := tdNoPage, bytesDone := 0 })) ∧
  (∀ s c k, (s.chan c).active.find? (fun a => decide (a.serial = k ∧ a.phase = .waitPage)) = none → exec (.migrateWaitExpiry c k) s = .next s) ∧
  (∀ s c k m r, s.moveOf c k = some m → m.started = true → m.cursor < granulesOf m.big → s.readBlock (m.src + 128 * m.cursor) 128 = r → r.2.1 = .ok →
    exec (.migrationGranuleCopied c k) s = .next ({ r.1.clearMark (m.dst + 128 * m.cursor) with
      mem := (r.1.clearMark (m.dst + 128 * m.cursor)).mem.put (m.dst + 128 * m.cursor) r.2.2 }.setMove { m with cursor := m.cursor + 1 })) ∧
  (∀ s c k m, s.moveOf c k = some m → m.cursor = granulesOf m.big → s.mem.waitUnmap = [] → ∃ t, exec (.migrationCopyDone c k) s = .next t ∧
    t.mem.pages = s.mem.pages.map (fun (p : PageEnt) => if p.ctx = m.ctx ∧ p.va = m.va then { p with pa := m.dst, moving := false } else p) ∧ t.mem.bytes = s.mem.bytes)

/-- R24, R27, R186, R199, R200, R207, R210, R211, R346: a disable quiesces an ACTIVE channel, and the Custodian alone disables a house channel; an enable takes an owner,
and on a compute die a package that is STARTING or ON; release and purge by the Custodian take a FROZEN channel back to ACTIVE, where a disable held meanwhile takes
effect; a channel fails only while it runs; a new owner is written while the channel is DISABLED or FAILED. Rests on the model's choices of log entries 6, 105, 144, 155.
-/
def Obligations.TransferControl : Prop :=
  (∀ s w c, isOpCus w = true → c < 72 → isHouse c = false → s.rd (Obj.teState c) = ustActive → Accepted w (.teDisable w c) s (s.quiesceTe c)) ∧
  (∀ s w c, isOpCus w = true → c < 72 → isHouse c = true → isCus w = false → Denied w (.teDisable w c) s rNoAccess) ∧
  (∀ s w c o, isOpCus w = true → c < 72 → s.rd (Obj.teState c) = ustDisabled → s.teOwnerOf c = some o → isHte c = true ∨ s.mastersMay = true →
    Accepted w (.teEnable w c) s ((s.wr (Obj.teState c) ustActive).unitEvent 0x04 c ustDisabled ustActive)) ∧
  (∀ s w c, isOpCus w = true → c < 72 → s.rd (Obj.teState c) = ustDisabled → s.teOwnerOf c = none → Denied w (.teEnable w c) s rRefused) ∧
  (∀ s w c, isCus w = true → c < 72 → s.rd (Obj.teState c) = ustFrozen → (s.chan c).heldDisable = false →
    Accepted w (.teRelease w c) s (((s.setChan c { s.chan c with heldDisable := false, wasQuiescing := false }).wr (Obj.teState c) ustActive).unitEvent 0x04 c ustFrozen ustActive)) ∧
  (∀ s w c, isCus w = true → c < 72 → s.rd (Obj.teState c) = ustFrozen → (s.chan c).heldDisable = true →
    Accepted w (.teRelease w c) s ((((s.setChan c { s.chan c with heldDisable := false, wasQuiescing := false }).wr (Obj.teState c) ustActive).unitEvent 0x04 c ustFrozen ustActive).quiesceTe c)) ∧
  (∀ s w c, isCus w = true → c < 72 → s.rd (Obj.teState c) = ustFrozen → (s.chan c).heldDisable = false → (s.chan c).queue = [] →
    Accepted w (.tePurge w c) s (((s.setChan c { s.chan c with queue := [], heldDisable := false, wasQuiescing := false }).wr (Obj.teState c) ustActive).unitEvent 0x04 c ustFrozen ustActive)) ∧
  (∀ s w c, isCus w = true → c < 72 → s.rd (Obj.teState c) ≠ ustFrozen → Denied w (.teRelease w c) s rRefused) ∧
  (∀ s c, c < 72 → s.rd (Obj.teState c) ≠ ustFailed → s.rd (Obj.teState c) ≠ ustDisabled → exec (.teChannelFail c) s = .next (s.failTe c)) ∧
  (∀ s c, s.rd (Obj.teState c) = ustDisabled → exec (.teChannelFail c) s = .next s) ∧
  (∀ s w c v, isOpCus w = true → c < 72 → isHouse c = false → s.rd (Obj.teState c) = ustDisabled ∨ s.rd (Obj.teState c) = ustFailed → 0 < v → v < 64 → Accepted w (.teOwnerWrite w c v) s (s.wr (Obj.teOwner c) v))

/-! ### Host transfers (R205, R206) -/

/-- R205, R206, R211: a host descriptor on a READY queue pair sends its requests: a READ one request, a WRITE its source in packets of the path MTU, with the tag as
immediate data in the mode that carries it; acknowledgements, refusals, timeouts and a port that stays down end the transfer as R206 says; an incoming request is refused
and counted; a queue pair is configured while its channel is DISABLED. Rests on the model's choices of log entries 35, 36. -/
def Obligations.HostTransfers : Prop :=
  (∀ s c a u, Starts s c 8 a u → s.qpPaused (c - 64) (dCount a.bytes) = false → u.rd (Obj.hteQpState (c - 64) (dCount a.bytes)) = qpReady →
    exec (.hostRead c) s = .next (u.sendRdma (c - 64) (dCount a.bytes) [⟨(u.qp (c - 64) (dCount a.bytes)).psn, 0x0C, dAux a.bytes, dLen a.bytes, a.serial, [], none⟩]
      (((u.qp (c - 64) (dCount a.bytes)).psn + pktCount (u.qpMtu (c - 64) (dCount a.bytes)) (dLen a.bytes)) % 2 ^ 24))) ∧
  (∀ s c a u r, Starts s c 9 a u → s.qpPaused (c - 64) (dCount a.bytes) = false → u.rd (Obj.hteQpState (c - 64) (dCount a.bytes)) = qpReady →
    u.read ((u.teOwnerOf c).getD 0) .hte permRead (teLoc ((u.teOwnerOf c).getD 0) (dSrc a.bytes)) (dLen a.bytes) = r → r.st = .ok → r.win = false → r.s.heldHit = s.heldHit → r.data ≠ [] →
    exec (.hostWrite c) s = .next ((r.s.updActive c a.serial fun x => { x with status := .ok, detail := tdNone, failAddr := r.addr }).sendRdma (c - 64) (dCount a.bytes)
      (writePkts (cdiv r.data.length (u.qpMtu (c - 64) (dCount a.bytes))) (u.qpMtu (c - 64) (dCount a.bytes)) (u.qp (c - 64) (dCount a.bytes)).psn (dAux a.bytes) a.serial r.data none)
      (((u.qp (c - 64) (dCount a.bytes)).psn + cdiv r.data.length (u.qpMtu (c - 64) (dCount a.bytes))) % 2 ^ 24))) ∧
  (∀ s c a u r, Starts s c 10 a u → s.qpPaused (c - 64) (dCount a.bytes) = false → u.rd (Obj.hteQpState (c - 64) (dCount a.bytes)) = qpReady →
    u.read ((u.teOwnerOf c).getD 0) .hte permRead (teLoc ((u.teOwnerOf c).getD 0) (dSrc a.bytes)) (dLen a.bytes) = r → r.st = .ok → r.win = false → r.s.heldHit = s.heldHit → r.data ≠ [] →
    exec (.hostWriteImm c) s = .next ((r.s.updActive c a.serial fun x => { x with status := .ok, detail := tdNone, failAddr := r.addr }).sendRdma (c - 64) (dCount a.bytes)
      (writePkts (cdiv r.data.length (u.qpMtu (c - 64) (dCount a.bytes))) (u.qpMtu (c - 64) (dCount a.bytes)) (u.qp (c - 64) (dCount a.bytes)).psn (dAux a.bytes) a.serial r.data
        (some (leNat (dTag a.bytes))))
      (((u.qp (c - 64) (dCount a.bytes)).psn + cdiv r.data.length (u.qpMtu (c - 64) (dCount a.bytes))) % 2 ^ 24))) ∧
  (∀ s p q, exec (.rdmaRequestRefused p q) s = .next ((s.bump Obj.rdmaRequestsRefused).emit (.rdmaNak p q))) ∧
  (∀ s h q r, s.rd (Obj.hteQpState h q) = qpReady → r.kind = 0 → exec (.rdmaResponse h q r) s = .next (s.ackWrites h q r.psn)) ∧
  (∀ s h q r, s.rd (Obj.hteQpState h q) = qpReady → r.kind = 2 → exec (.rdmaResponse h q r) s = .next (s.unlessHeld (s.readResponse h q r.psn r.data))) ∧
  (∀ s h q r x l, s.rd (Obj.hteQpState h q) = qpReady → r.kind = 1 → 0 < r.code → r.code < 32 → (s.qp h q).unacked = x :: l → x.op = 0x0C →
    exec (.rdmaResponse h q r) s = .next (s.qpFail h q (· == x.serial) .violation tdRemoteAccess)) ∧
  (∀ s h q x l, (s.qp h q).unacked = x :: l → 7 ≤ (s.qp h q).retries → exec (.rdmaAckTimeout h q) s = .next (s.qpFail h q (· == x.serial) .timeout tdRetryExceeded)) ∧
  (∀ s h q x l, (s.qp h q).unacked = x :: l → (s.qp h q).retries < 7 →
    exec (.rdmaAckTimeout h q) s = .next ((s.setQp h q { s.qp h q with retries := (s.qp h q).retries + 1 }).resend h q)) ∧
  (∀ s h q, exec (.rdmaEcnMark h q) s = .next (s.setQp h q { s.qp h q with slowed := (s.qp h q).slowed + 1 })) ∧
  (∀ s h q, s.rd (Obj.mportLink (s.qpPort h q)) ≠ 1 → (s.chan (64 + h)).active.any (usesQp q) = true →
    exec (.htePortDownTimeout h q) s = .next (s.qpFail h q (fun _ => true) .destLost tdPortDown)) ∧
  (∀ s w h q v, isOpCus w = true → h < 8 → q < 16 → v.length = 32 → byteAt v 19 = 0 → byteAt v 23 = 1 → allZero (slice v 24 8) = true → byteAt v 20 ≤ 1 → byteAt v 21 ≤ 1 →
    s.rd (Obj.teState (64 + h)) = ustDisabled →
    Accepted w (.hteQpWrite w h q v) s (((s.wro (Obj.hteQp h q) v).setQp h q HteQp.init).wr (Obj.hteQpState h q) qpReady))

/-! ### Links, lanes and lasers (R212 to R247) -/

/-- R213, R214, R217, R221 to R226, R228, R229, R482: a packet in sequence that passes its check is accepted with its acknowledgement and credits, an earlier number is
dropped, one that fails is asked for again once; a control flit brings its acknowledgement and credits, one that fails its check is dropped; an acknowledgement is sent
when one is due. A replay request below the eighth in a row and a timeout below the fourth send the held packets again; the eighth and the fourth declare the link lost; a
loss takes an UP link down, stops its admission, counts and records it and returns what is queued; a link that loses its signal or alignment while it trains is DOWN until
training starts again. Each direction of an in-package link takes the units of the confirmed generation in order, discards those of another one and copies of earlier
ones, and has every unit held from the expected one on sent again, each counted, when one fails its CRC or comes too early, once until the expected one comes or comes and
fails again; a lane failure retrains onto a redundant lane of its module, and a link that has none left fails. R220, R221: a word within the reach of the code is
corrected, counted and its flits taken; a word beyond it loses its flits. A lane's scrambler and its Gray code give back what was sent through them. Rests on the model's
choices of log entries 39, 108, 110, 145, 146. -/
def Obligations.LinkLayer : Prop :=
  (∀ s p k tr u l, Fronts s p (.pkt k tr) u → p < 14 → l = s.link p → tr.seq = l.rxNext →
    exec (.linkPacketReceive p) s = .next (({ u with router := { u.router with nextId := u.router.nextId + 1 } }.setLink p
      (LinkPort.credit (if tr.ackValid then LinkPort.ack { u.link p with rxNext := (l.rxNext + 1) % 2 ^ 24, asked := false, ackDue := true, rxQ := l.rxQ ++ [(⟨u.router.nextId, s.now, true, k⟩ : RxWait)] } tr.ack
        else { u.link p with rxNext := (l.rxNext + 1) % 2 ^ 24, asked := false, ackDue := true, rxQ := l.rxQ ++ [(⟨u.router.nextId, s.now, true, k⟩ : RxWait)] })
        tr.creditVc tr.creditFlits tr.poolCredit)).resident k.parity true)) ∧
  (∀ s p k tr u, Fronts s p (.pkt k tr) u → tr.seq ≠ (s.link p).rxNext → seqDist tr.seq (s.link p).rxNext < 2 ^ 23 → exec (.linkPacketReceive p) s = .next u) ∧
  (∀ s p q u, Fronts s p (.bad q) u → (s.link p).asked = false →
    exec (.linkPacketReceive p) s = .next ((u.setLink p { u.link p with asked := true }).sendFlits p (CtlFlit.bytes ((s.link p).flit 2 (s.link p).rxNext 0 0 0)))) ∧
  (∀ s p q u, Fronts s p (.bad q) u → (s.link p).asked = true → q ≠ some (s.link p).rxNext → exec (.linkPacketReceive p) s = .next u) ∧
  (∀ s p u, Fronts s p .badCtl u → exec (.linkPacketReceive p) s = .next u) ∧
  (∀ s p u, Fronts s p .wait u → exec (.linkPacketReceive p) s = .next s) ∧
  (∀ s p f u, Fronts s p (.ctl f) u → f.op = 1 →
    exec (.ackCredit p) s = .next (u.setLink p (LinkPort.credits f.credits 0 (((u.link p).ack f.ack).credit 0xFF 0 f.poolCredit)))) ∧
  (∀ s p, p < 18 → s.rd (Obj.linkState p) = linkUp → (s.link p).ackDue = true → (s.link p).retVc = [] → (s.link p).retPool = 0 →
    exec (.ackDeadline p) s = .next ((s.setLink p { s.link p with ackDue := false }).sendFlits p (CtlFlit.bytes ⟨1, (s.link p).ackNum, 0, 0, 0, 0, List.replicate 40 0, 0⟩))) ∧
  (∀ s p f v u, Fronts s p (.ctl f) v → f.op = 2 → u = v.flitIn p f → (u.link p).reqCount = 0 →
    exec (.replayReq p) s = .next ((u.setLink p { u.link p with reqNum := f.replayFrom, reqCount := 1 }).resendFrom p
      fun h => decide (seqDist f.replayFrom h.tr.seq < 2 ^ 23))) ∧
  (∀ s p f v u, Fronts s p (.ctl f) v → f.op = 2 → u = v.flitIn p f → (u.link p).reqCount = 7 → (u.link p).reqNum = f.replayFrom →
    exec (.replayReq p) s = .next ((u.setLink p { u.link p with reqNum := f.replayFrom, reqCount := 8 }).linkLoss p 3)) ∧
  (∀ s p, p < 18 → s.rd (Obj.linkState p) = linkUp → (s.link p).held ≠ [] → (s.link p).timeouts < 3 →
    exec (.replayTimeout p) s = .next ((s.setLink p { s.link p with timeouts := (s.link p).timeouts + 1 }).resendFrom p fun _ => true)) ∧
  (∀ s p, p < 18 → s.rd (Obj.linkState p) = linkUp → (s.link p).held ≠ [] → 3 ≤ (s.link p).timeouts →
    exec (.replayTimeout p) s = .next ((s.setLink p { s.link p with timeouts := (s.link p).timeouts + 1 }).linkLoss p 3)) ∧
  (∀ s p c, p < 18 → c = 1 ∨ c = 2 → s.rd (Obj.linkState p) = linkUp → ∀ u, u = ((((s.wr (Obj.linkState p) linkDown).wr (Obj.rtAdmit p) 0).emit (.idle p)).bump Obj.linkLosses).salvage p →
    exec (.linkLoss p c) s = .next (((u.1.event 0x3001 0x05 p noCtx (u.1.rd (Obj.farEnd p)) c u.2).agentLinkLost p).startTraining p)) ∧
  (∀ s p c, p < 18 → c = 1 ∨ c = 2 → s.rd (Obj.linkState p) ≠ linkUp → 2 ≤ (s.link p).train →
    exec (.linkLoss p c) s = .next ((s.setLink p { s.link p with train := 0 }).wr (Obj.linkState p) linkDown)) ∧
  (∀ s l dir seq gen unit d, d2dExists l = true → s.rd (Obj.d2dState l) = ustActive → mget s.boot.confirmed (d2dDomain l) = some gen → d2dUnitOk unit = true →
    seq = dirOf (s.d2dOf l).rxNext dir → d = { s.d2dOf l with sent := setDir (s.d2dOf l).sent dir (max (dirOf (s.d2dOf l).sent dir) (seq + 1)) } →
    exec (.d2dUnitReceive l dir seq gen unit) s = .next (s.setD2d l { d with rxNext := setDir d.rxNext dir (seq + 1), asked := setDir d.asked dir false })) ∧
  (∀ s l dir seq gen unit d, d2dExists l = true → s.rd (Obj.d2dState l) = ustActive → mget s.boot.confirmed (d2dDomain l) = some gen →
    d2dUnitOk unit = false ∨ dirOf (s.d2dOf l).rxNext dir < seq → dirOf (s.d2dOf l).asked dir = false ∨ seq = dirOf (s.d2dOf l).rxNext dir →
    d = { s.d2dOf l with sent := setDir (s.d2dOf l).sent dir (max (dirOf (s.d2dOf l).sent dir) (seq + 1)) } →
    exec (.d2dUnitReceive l dir seq gen unit) s = .next (((s.setD2d l { d with asked := setDir d.asked dir true }).bumpBy (Obj.d2dReplays l)
      (max (dirOf (s.d2dOf l).sent dir) (seq + 1) - dirOf (s.d2dOf l).rxNext dir)).emit (.d2dReplay l dir (dirOf (s.d2dOf l).rxNext dir)))) ∧
  (∀ s l dir seq gen unit d, d2dExists l = true → s.rd (Obj.d2dState l) = ustActive → mget s.boot.confirmed (d2dDomain l) = some gen →
    d2dUnitOk unit = false ∨ dirOf (s.d2dOf l).rxNext dir < seq → dirOf (s.d2dOf l).asked dir = true → seq ≠ dirOf (s.d2dOf l).rxNext dir →
    d = { s.d2dOf l with sent := setDir (s.d2dOf l).sent dir (max (dirOf (s.d2dOf l).sent dir) (seq + 1)) } → exec (.d2dUnitReceive l dir seq gen unit) s = .next (s.setD2d l d)) ∧
  (∀ s l dir seq gen unit, mget s.boot.confirmed (d2dDomain l) ≠ some gen ∨ d2dUnitOk unit = true ∧ seq < dirOf (s.d2dOf l).rxNext dir →
    exec (.d2dUnitReceive l dir seq gen unit) s = .next s) ∧
  (∀ s l m, d2dExists l = true → s.rd (Obj.d2dState l) = ustActive → m < d2dModules l → mgetD (s.d2dOf l).used m 0 < 4 → ∃ t, exec (.d2dLaneFail l m) s = .next t ∧
    t.rd (Obj.d2dState l) = ustActive ∧ mgetD (t.d2dOf l).used m 0 = mgetD (s.d2dOf l).used m 0 + 1 ∧ t.mem = s.mem ∧ t.links = s.links) ∧
  (∀ s l m, l < 14 → s.rd (Obj.d2dState l) = ustActive → m < d2dModules l → 4 ≤ mgetD (s.d2dOf l).used m 0 → ∃ t, exec (.d2dLaneFail l m) s = .next t ∧
    t.rd (Obj.d2dState l) = ustFailed ∧ t.mem = s.mem ∧ t.links = s.links) ∧
  (∀ s p w flits n lanes, p < 18 → s.rd (Obj.linkState p) = linkUp → (rsOf p).receive (s.lineIn p w) = some (flits, n, lanes) → ∃ t, exec (.codewordReceive p w) s = .next t ∧
    (t.link p).rxFlits = (s.link p).rxFlits ++ flits.map some ∧ t.rd (Obj.fecUncorrected p) = s.rd (Obj.fecUncorrected p) ∧ t.mem = s.mem) ∧
  (∀ s p w, p < 18 → s.rd (Obj.linkState p) = linkUp → (rsOf p).receive (s.lineIn p w) = none → ∃ t, exec (.codewordReceive p w) s = .next t ∧
    (t.link p).rxFlits = (s.link p).rxFlits ++ List.replicate ((rsOf p).k * (rsOf p).w / 512) none ∧ t.rd (Obj.fecCorrected p) = s.rd (Obj.fecCorrected p) ∧ t.mem = s.mem) ∧
  (∀ n st d, d.length = 17 * n → (∀ v ∈ d, v < 4) → scrLane n st (scrLane n st d).1 = (d, (scrLane n st d).2)) ∧ (∀ v, v < 4 → gray (gray v) = v ∧ gray v < 4) ∧
  (∀ (c : RsCode) r v, c.decode r = some v → c.isWord v = true ∧ ((List.zip r v).filter fun p => p.1 != p.2).length ≤ c.t) ∧
  (∀ (c : RsCode) r, c.isWord r = true → c.decode r = some r) ∧ rsElectrical.t = 4 ∧ rsOptical.t = 16

/-- R236 to R239, R242: a lane request copies the lane onto the position that the receiver has reserved, a free SPARE one or the lane's own that comes back; an aligned
copy takes the receiver's substitution to its step 3, and at the transmitter is followed by a map that arms the switch. A map arms the switch at its receiver, or at the
transmitter whose far receiver has lost the lane. The switch moves the lane, the new position ACTIVE and the old one freed, and counts; the last lane that leaves a worn
laser's pair lets laser 9 take it. Positions lost abruptly move to free SPARE positions with the link UP, and more lost lanes than those are a loss of the link. A failed
SerDes of a position is recorded, and its receive lane is lost abruptly. A receive position is disabled and enabled by an Operator or the Custodian: one that carries a
lane gives it to a SPARE position, and one that is enabled is retrained, and takes its lane back by a substitution, or in the recorded map while the link is down, or
becomes SPARE once it has passed. Rests on the model's choices of log entries 27, 38, 109. -/
def Obligations.LaneSubstitution : Prop :=
  (∀ s p f v u i n, Fronts s p (.ctl f) v → f.op = 4 → f.mapLogical < 16 → u = v.flitIn p f → (u.link p).copies.any (fun c => c.1 == f.mapLogical) = false →
    n ∈ u.freeLanes p 0 ∨ n = f.mapLogical ∧ u.rd (Obj.laneState p n 0) = ustDisabled → u.carrier p 0 f.mapLogical = some i →
    exec (.laneReq p n) s = .next (u.setLink p { u.link p with copies := (u.link p).copies ++ [(f.mapLogical, n)] })) ∧
  (∀ s p f v u x, Fronts s p (.ctl f) v → f.op = 3 → f.mapLogical < 16 → f.mapPosition < 18 → 1 ≤ f.mapAfter → f.mapAfter ≤ 1024 → u = v.flitIn p f →
    (u.link p).subs.find? (fun x => decide (x.logical = f.mapLogical ∧ x.new = f.mapPosition)) = some x →
    exec (.laneMap p) s = .next (u.armSwitch p ⟨1, x.logical, x.new, x.oldTo, false⟩)) ∧
  (∀ s p f v u i, Fronts s p (.ctl f) v → f.op = 3 → f.mapLogical < 16 → f.mapPosition < 18 → 1 ≤ f.mapAfter → f.mapAfter ≤ 1024 → u = v.flitIn p f →
    (u.link p).subs.find? (fun x => decide (x.logical = f.mapLogical ∧ x.new = f.mapPosition)) = none → u.rd (Obj.laneState p f.mapPosition 0) = ustSpare → u.carrier p 0 f.mapLogical = some i →
    exec (.laneMap p) s = .next (u.armSwitch p ⟨0, f.mapLogical, f.mapPosition, u.txOldTo p i f.mapLogical f.mapPosition, true⟩)) ∧
  (∀ (s : State) p x, ((s.armSwitch p x).link p).switches = ((s.link p).switches.filter fun y => !(y.dir == x.dir && y.logical == x.logical)) ++ [x] ∧
    (s.armSwitch p x).reg = s.reg ∧ (s.armSwitch p x).mem = s.mem) ∧
  (∀ s p k n, p < 18 → s.rd (Obj.linkState p) = linkUp → (s.link p).subs.any (fun x => x.logical == k && decide (x.step < 3)) = true →
    exec (.laneCopyAligned p k n) s = .next (s.setLink p { s.link p with subs := updFirst (fun x => x.logical == k) (fun x => { x with step := 3 }) (s.link p).subs })) ∧
  (∀ s p k n x, p < 18 → s.rd (Obj.linkState p) = linkUp → (s.link p).subs.any (fun x => x.logical == k && decide (x.step < 3)) = false → s.strangeCopy p k n = some x →
    exec (.laneCopyAligned p k n) s = .next (s.setLink p { s.link p with subs := (s.link p).subs ++ [x] })) ∧
  (∀ s p k n c i, p < 18 → s.rd (Obj.linkState p) = linkUp → (s.link p).subs.any (fun x => x.logical == k && decide (x.step < 3)) = false → s.strangeCopy p k n = none →
    (s.link p).copies.find? (fun c => decide (c.1 = k)) = some c → s.carrier p 0 k = some i → (s.link p).switches.any (fun x => x.dir == 0 && x.logical == k) = false →
    exec (.laneCopyAligned p k n) s = .next (((s.free 10).2.armSwitch p ⟨0, k, c.2, s.txOldTo p i k c.2, false⟩).sendFlits p
      (CtlFlit.bytes ((s.link p).flit 3 0 k c.2 ((s.free 10).1 + 1))))) ∧
  (∀ s p dir k x old u, (s.link p).switches.find? (fun x => decide (x.dir = dir ∧ x.logical = k)) = some x → s.carrier p dir k = some old →
    u = (s.setLink p { s.link p with
      switches := (s.link p).switches.filter (fun y => !(y.dir == dir && y.logical == k)),
      subs := if dir = 1 then (s.link p).subs.filter (fun y => y.logical != k) else (s.link p).subs,
      copies := if dir = 0 then (s.link p).copies.filter (fun y => y.1 != k) else (s.link p).copies }).moveLane p dir k old x.new x.oldTo x.abrupt →
    (dir = 0 → 14 ≤ p → u.rd (Obj.laneLogical p (old / 2 * 2) 0) = 0xFF → u.rd (Obj.laneLogical p (old / 2 * 2 + 1) 0) = 0xFF → u.laserWorn (p - 14) (old / 2) = true →
      u.rd (Obj.laserState (p - 14) 9) ≠ ustSpare) → exec (.laneSwitch p dir k) s = .next u) ∧
  (∀ s p k x old u, (s.link p).switches.find? (fun x => decide (x.dir = 0 ∧ x.logical = k)) = some x → s.carrier p 0 k = some old →
    u = (s.setLink p { s.link p with
      switches := (s.link p).switches.filter (fun y => !(y.dir == 0 && y.logical == k)),
      copies := (s.link p).copies.filter (fun y => y.1 != k) }).moveLane p 0 k old x.new x.oldTo x.abrupt →
    14 ≤ p → u.rd (Obj.laneLogical p (old / 2 * 2) 0) = 0xFF → u.rd (Obj.laneLogical p (old / 2 * 2 + 1) 0) = 0xFF → u.laserWorn (p - 14) (old / 2) = true →
    u.rd (Obj.laserState (p - 14) 9) = ustSpare → exec (.laneSwitch p 0 k) s = .next (u.swapLaser (p - 14) (old / 2))) ∧
  (∀ (s : State) p dir k old new st abrupt t, t = s.moveLane p dir k old new st abrupt → p < 18 → dir < 2 → old < 18 → new < 18 → old ≠ new →
    t.rd (Obj.laneLogical p new dir) = k ∧ t.rd (Obj.laneState p new dir) = ustActive ∧ t.rd (Obj.laneLogical p old dir) = 0xFF ∧
    t.rd (Obj.laneState p old dir) = (if s.rd (Obj.laneState p old dir) = ustFailed then ustFailed else st) ∧ t.rd Obj.laneSubstitutions = (s.rd Obj.laneSubstitutions + 1) % 2 ^ 64 ∧ t.mem = s.mem) ∧
  (∀ s p l, p < 18 → s.rd (Obj.linkState p) = linkUp → exec (.laneAbruptLoss p l) s = .next (s.abruptLoss p l)) ∧
  (∀ (s : State) p l data spare free, data = (l.dedup.filter fun i => decide (i < 18) && s.rd (Obj.laneLogical p i 1) != 0xFF) →
    spare = (l.dedup.filter fun i => decide (i < 18) && s.rd (Obj.laneState p i 1) == ustSpare) → free = ((s.freeLanes p 1).filter fun i => !spare.contains i) → data.length ≤ free.length →
    s.abruptLoss p l = ((spare.foldl (fun s i => s.setLane p 1 i ustDisabled) s).abruptMove p data free).syncSpares p ∧ (s.abruptLoss p l).rd (Obj.linkState p) = s.rd (Obj.linkState p)) ∧
  (∀ (s : State) p i is n ns u, u = s.moveLane p 1 (s.rd (Obj.laneLogical p i 1)) i n ustDisabled true →
    s.abruptMove p (i :: is) (n :: ns) = State.abruptMove ((u.setLink p { u.link p with
      subs := (u.link p).subs.filter (fun x => x.logical != s.rd (Obj.laneLogical p i 1))
      switches := (u.link p).switches.filter (fun x => !(x.dir == 1 && x.logical == s.rd (Obj.laneLogical p i 1))) }).sendFlits p
        (CtlFlit.bytes ((u.link p).flit 3 0 (s.rd (Obj.laneLogical p i 1)) n 1))) p is ns) ∧
  (∀ (s : State) p l, ((s.freeLanes p 1).filter fun i => !(l.dedup.filter fun i => decide (i < 18) && s.rd (Obj.laneState p i 1) == ustSpare).contains i).length <
      (l.dedup.filter fun i => decide (i < 18) && s.rd (Obj.laneLogical p i 1) != 0xFF).length → s.abruptLoss p l = s.linkLoss p 1) ∧
  (∀ s p dir i, p < 18 → dir < 2 → i < 18 → s.rd (Obj.laneState p i dir) ≠ ustFailed → dir = 0 ∨ s.rd (Obj.laneLogical p i 1) = 0xFF ∨ s.rd (Obj.linkState p) ≠ linkUp →
    exec (.laneSerdesFail p dir i) s = .next ((s.setLane p dir i ustFailed).syncSpares p)) ∧
  (∀ s p i, p < 18 → i < 18 → s.rd (Obj.laneState p i 1) ≠ ustFailed → s.rd (Obj.laneLogical p i 1) ≠ 0xFF → s.rd (Obj.linkState p) = linkUp →
    exec (.laneSerdesFail p 1 i) s = .next (((s.setLane p 1 i ustFailed).syncSpares p).abruptLoss p [i])) ∧
  (∀ (s : State) p dir i, p < 18 → dir < 2 → i < 18 → s.rd (Obj.laneState p i dir) ≠ ustFailed → (s.setLane p dir i ustFailed).rd (Obj.laneState p i dir) = ustFailed ∧
    (s.setLane p dir i ustFailed).mem = s.mem) ∧
  (∀ s w p i, isOpCus w = true → p < 18 → i < 18 → s.rd (Obj.laneState p i 1) = ustSpare → Accepted w (.laneDisable w p i) s ((s.setLane p 1 i ustDisabled).syncSpares p)) ∧
  (∀ s w p i n ns, isOpCus w = true → p < 18 → i < 18 → s.rd (Obj.laneState p i 1) = ustActive → s.freeLanes p 1 = n :: ns →
    Accepted w (.laneDisable w p i) s (if s.rd (Obj.linkState p) = linkUp then s.startSub p i ustDisabled else s.moveLane p 1 (s.rd (Obj.laneLogical p i 1)) i n ustDisabled false)) ∧
  (∀ (s : State) p i x n ns, s.rd (Obj.laneLogical p i 1) ≠ 0xFF → (s.link p).subs.any (fun y => y.logical == s.rd (Obj.laneLogical p i 1)) = false → s.freeLanes p 1 = n :: ns →
    s.startSub p i x = (s.setLink p { s.link p with subs := (s.link p).subs ++ [(⟨s.rd (Obj.laneLogical p i 1), i, n, 1, x⟩ : LaneSub)] }).sendFlits p
      (CtlFlit.bytes ((s.link p).flit 4 0 (s.rd (Obj.laneLogical p i 1)) 0xFF 0))) ∧
  (∀ s w p i, isOpCus w = true → p < 18 → i < 18 → s.rd (Obj.laneState p i 1) = ustDisabled →
    Accepted w (.laneEnable w p i) s (s.setLink p { s.link p with enabling := (s.link p).enabling.filter (fun k => k != i) ++ [i] })) ∧
  (∀ (s : State) p i, 16 ≤ i ∨ s.carrier p 1 i = none → s.returnLane p i = (s.setLane p 1 i ustSpare).syncSpares p) ∧
  (∀ (s : State) p i j, i < 16 → s.carrier p 1 i = some j → s.rd (Obj.linkState p) ≠ linkUp → s.returnLane p i = s.moveLane p 1 i j i ustSpare false) ∧
  (∀ (s : State) p i j, i < 16 → s.carrier p 1 i = some j → s.rd (Obj.linkState p) = linkUp → s.returnLane p i = (s.setLink p { s.link p with
    subs := ((s.link p).subs.filter fun x => x.logical != i) ++ [(⟨i, j, i, 1, ustSpare⟩ : LaneSub)] }).sendFlits p (CtlFlit.bytes ((s.link p).flit 4 0 i 0xFF 0)))

/-- R218, R229, R232 to R236: training goes step by step from the signal to the link being UP: the far end must be the one the wiring gives, and the positions that send
frames in order or wholly reversed, at least 16 of them, or the port reads MISWIRED and records it; a position passes whose error ratio is at most the limit, and with
fewer than 16 in a direction the link stays DOWN; the interval starts training again whatever its step. A reading of an ACTIVE or SPARE position is kept, and one past the
limit substitutes an ACTIVE position. Rests on the model's choices of log entries 39, 145, 147. -/
def Obligations.Training : Prop :=
  (∀ s p n, p < 18 → (s.link p).train = 1 → s.trains p = true → 16 ≤ n → (s.link p).laserAtTrain = none →
    exec (.trainingSignalDetected p n) s = .next ((s.setLink p { s.link p with train := 2 }).wr (Obj.linkState p) linkTraining)) ∧
  (∀ s p, p < 18 → (s.link p).train = 2 →
    exec (.equalisationDone p) s = .next ((s.setLink p { s.link p with train := 3 }).emit (.train p s.pos (s.rd Obj.ownCatchment)))) ∧
  (∀ s p a b c order inv, p < 18 → (s.link p).train = 3 → keptOrder order = true ∨ reversedOrder order = true → (s.wr (Obj.farEnd p) (farWord b c a)).wiringOk p a b c = true →
    exec (.trainingFramesChecked p a b c order inv) s = .next ((s.wr (Obj.farEnd p) (farWord b c a)).setLink p
      { s.link p with train := 4, reversed := reversedOrder order, inverted := inv })) ∧
  (∀ s p a b c order inv, p < 18 → (s.link p).train = 3 → (keptOrder order = false ∧ reversedOrder order = false) ∨ (s.wr (Obj.farEnd p) (farWord b c a)).wiringOk p a b c = false → ∃ t,
    exec (.trainingFramesChecked p a b c order inv) s = .next t ∧ t.rd (Obj.linkState p) = linkMiswired ∧ t.rd (Obj.farEnd p) = farWord b c a ∧ (t.link p).train = 0) ∧
  (∀ order, keptOrder order = true ↔ (order.length = 18 ∧ 16 ≤ (order.filter (· < 18)).length ∧ ∀ i, i < 18 → order.getD i 18 < 18 → order.getD i 18 = i)) ∧
  (∀ order, reversedOrder order = true ↔ (order.length = 18 ∧ 16 ≤ (order.filter (· < 18)).length ∧ ∀ i, i < 18 → order.getD i 18 < 18 → order.getD i 18 = 17 - i)) ∧
  (∀ (s : State) p l i, i ∈ s.overLimit p l ↔ i < 18 ∧ (i < l.length → 10 ^ (12 - s.rd (Obj.laneBerLimit (if p < 14 then 0 else 1))) < l.getD i 0)) ∧
  (∀ s p a b u, p < 18 → (s.link p).train = 4 → u = (s.relocked p (s.overLimit p a)).retrained p (s.overLimit p b) → 16 ≤ (u.passing p 0 (s.overLimit p a)).length →
    16 ≤ (u.passing p 1 (s.overLimit p b)).length →
    exec (.berMeasureDone p a b) s = .next ((((u.mapLanes p 0 (s.overLimit p a)).mapLanes p 1 (s.overLimit p b)).syncSpares p).linkUpNow p)) ∧
  (∀ s p a b u, p < 18 → (s.link p).train = 4 → u = (s.relocked p (s.overLimit p a)).retrained p (s.overLimit p b) → (u.passing p 0 (s.overLimit p a)).length < 16 ∨
    (u.passing p 1 (s.overLimit p b)).length < 16 →
    exec (.berMeasureDone p a b) s = .next (((s.setLink p { s.link p with train := 0 }).wr (Obj.linkState p) linkDown).event 0x3007 0x05 p noCtx (u.passing p 0 (s.overLimit p a)).length
      (u.passing p 1 (s.overLimit p b)).length 0)) ∧
  (∀ s p a b, p < 18 → (s.link p).train ≠ 4 → exec (.berMeasureDone p a b) s = .next ((s.relocked p (s.overLimit p a)).retrained p (s.overLimit p b))) ∧
  (∀ s p, p < 18 → s.rd (Obj.linkState p) ≠ linkUp → s.trains p = true →
    exec (.retrainIntervalExpiry p) s = .next ((s.wr (Obj.linkState p) linkDown).setLink p { s.link p with train := 1 })) ∧
  (∀ s p i ber eye pw, p < 14 → i < 18 → ber ≤ 2 ^ 32 - 1 → s.rd (Obj.laneState p i 1) = ustSpare → ∃ t, exec (.marginMeasure p [⟨i, ber, eye⟩] [] pw) s = .next t ∧
    t.rd (Obj.laneBerEst p i) = ber ∧ t.rd (Obj.laneEyeMv p i) = eye ∧ (t.link p).fixed = [] ∧ mget (t.link p).fixedLast i = mget (s.link p).fixed i ∧ (t.link p).subs = (s.link p).subs) ∧
  (∀ s p i ber eye pw, p < 14 → s.rd (Obj.laneState p i 1) ≠ ustSpare → s.rd (Obj.laneState p i 1) ≠ ustActive → ∃ t, exec (.marginMeasure p [⟨i, ber, eye⟩] [] pw) s = .next t ∧
    t.reg = s.reg ∧ mget (t.link p).fixedLast i = none) ∧
  (∀ s p i eye pw u, p < 14 → i < 18 → s.rd (Obj.laneState p i 1) = ustActive → s.rd (Obj.linkState p) = linkUp →
    u = (s.setLink p { s.link p with fixed := [], fixedLast := (s.link p).fixed.filter fun c => s.rd (Obj.laneState p c.1 1) == ustActive || s.rd (Obj.laneState p c.1 1) == ustSpare }) →
    exec (.marginMeasure p [⟨i, 10 ^ 13, eye⟩] [] pw) s = .next (((u.wr (Obj.laneBerEst p i) (2 ^ 32 - 1)).wr (Obj.laneEyeMv p i) eye).startSub p i ustDisabled))

/-- R27, R239 to R241, R247: a failed laser lets laser 9 take its pair while that is SPARE; a port fails, is disabled with no further admission, enabled into training and
retrained. Rests on the model's choices of log entries 6, 109. -/
def Obligations.PortControl : Prop :=
  (∀ s e j, e < 4 → j < 9 → s.rd (Obj.laserState e j) ≠ ustFailed → s.rd (Obj.laserState e j) ≠ ustRetired →
    ((s.goState (Obj.laserState e j) 0x07 (16 * e + j) ustFailed).addFail 0x07 (16 * e + j)).rd (Obj.laserState e 9) = ustSpare →
    exec (.laserFail e j) s = .next (((s.goState (Obj.laserState e j) 0x07 (16 * e + j) ustFailed).addFail 0x07 (16 * e + j)).swapLaser e j)) ∧
  (∀ s p, p < 18 → s.rd (Obj.portState p) ≠ ustFailed → exec (.portSerdesFail p) s = .next (((s.goState (Obj.portState p) 0x05 p ustFailed).addFail 0x05 p).portDown p)) ∧
  (∀ s w p, isOpCus w = true → p < 18 → s.rd (Obj.portState p) = ustActive →
    Accepted w (.portDisable w p) s (((s.wr (Obj.portState p) ustQuiescing).unitEvent 0x05 p ustActive ustQuiescing).wr (Obj.rtAdmit p) 0)) ∧
  (∀ s w p, isOpCus w = true → p < 18 → s.rd (Obj.portState p) = ustDisabled →
    Accepted w (.portEnable w p) s ((((s.wr (Obj.portState p) ustActive).unitEvent 0x05 p ustDisabled ustActive).wr (Obj.rtAdmit p) 0).startTraining p)) ∧
  (∀ s w p, isOpCus w = true → p < 18 → s.rd (Obj.portState p) = ustFailed → Denied w (.portEnable w p) s rRefused) ∧
  (∀ s w p, isOpCus w = true → p < 18 → s.trains p = true → s.rd (Obj.linkState p) = linkUp → Accepted w (.portRetrain w p) s (s.linkLoss p 3)) ∧
  (∀ s w p, isOpCus w = true → p < 18 → s.trains p = true → s.rd (Obj.linkState p) ≠ linkUp → Accepted w (.portRetrain w p) s (s.startTraining p)) ∧
  (∀ s w p, isOpCus w = false → Denied w (.portRetrain w p) s rNoAccess)

/-! ### The router (R248 to R279) -/

/-- R261: a packet whose route bank is VALID goes to M or to an NI at its own position and otherwise to the ports of its entry; a bank that is not VALID, an entry that is
not valid and a level past 7 discard it, each in its own counter; an MG packet takes the lowest usable minimal port. Rests on the model's choices of log entry 37. -/
def Obligations.Routing : Prop :=
  (∀ (s : State) p, s.rd (Obj.routeBankState p.parity) ≠ 2 → s.routeOne p = .drop Obj.dropEpoch) ∧
  (∀ (s : State) p, s.rd (Obj.routeBankState p.parity) = 2 → adrCat p.dst = s.rd Obj.ownCatchment → adrPos p.dst = s.pos →
    s.routeOne p = .jobs [(if p.cls = clsMG then 22 else 18 + adrNi p.dst, p)]) ∧
  (∀ (s : State) p, s.rd (Obj.routeBankState p.parity) = 2 → ¬(adrCat p.dst = s.rd Obj.ownCatchment ∧ adrPos p.dst = s.pos) → bit (s.entFor p) 43 = false →
    s.routeOne p = .drop Obj.dropNoRoute) ∧
  (∀ (s : State) p, s.rd (Obj.routeBankState p.parity) = 2 → ¬(adrCat p.dst = s.rd Obj.ownCatchment ∧ adrPos p.dst = s.pos) → bit (s.entFor p) 43 = true →
    7 < p.level + bits (s.entFor p) 18 3 → s.routeOne p = .drop Obj.dropHopLimit) ∧
  (∀ (s : State) p x l, s.rd (Obj.routeBankState p.parity) = 2 → ¬(adrCat p.dst = s.rd Obj.ownCatchment ∧ adrPos p.dst = s.pos) → bit (s.entFor p) 43 = true →
    p.level + bits (s.entFor p) 18 3 ≤ 7 → p.level < 7 → p.cls = clsMG → (portsIn (bits (s.entFor p) 0 18)).filter s.portUsable = x :: l → s.routeOne p = .jobs [(x, p)]) ∧
  (∀ (s : State) p l, s.rd (Obj.routeBankState p.parity) = 2 → ¬(adrCat p.dst = s.rd Obj.ownCatchment ∧ adrPos p.dst = s.pos) → p.level = 7 → s.routeOne p ≠ .jobs l) ∧
  (∀ (s : State) l k x, s.mostFree l k = some x → x ∈ l ∧ ∀ y ∈ l, s.freeFor y k ≤ s.freeFor x k)

/-- R251 to R258, R262 to R264, R267, R268, R271, R273 to R276, R279: a packet that its link accepted enters its input's buffer with the counts of the input once it finds
room, past others that do not, but for an earlier MG packet of its source and destination; a malformed one and one that the check words of its bank give up are discarded
and counted, and its credits go back; a packet lies in open banks of 248 flits; injection stamps and buffers the first packet of each class that finds room, in its
channel's reserve or in the pool, and discards a malformed one or one of another port's class; an output sends the packet it grants, and another of the same packet's jobs
keeps it; a packet past its residence limit is discarded. A failed bank loses its packets and a spare bank joins, or its flits stay withheld from the pool's credits; a
bank is worn at its limit; a worn bank that has emptied retires; the agent moves a route bank with no resident packet to LOADING, loads entries into it while it loads,
and makes it VALID; the parity moves to a VALID bank alone; a port is admitted or closed by the agent alone. Rests on the model's choices of log entries 2, 24, 27, 111,
126, 148. -/
def Obligations.RouterBuffers : Prop :=
  (∀ (s : State) p w l, s.inputRoom p w.pkt = true → s.landed p [] (w :: l) = some (w, l)) ∧
  (∀ (s : State) p x w l, s.inputRoom p x.pkt = false → s.inputRoom p w.pkt = true → mgOrdered x.pkt w.pkt = false → s.landed p [] (x :: w :: l) = some (w, x :: l)) ∧
  (∀ (s : State) p x w, s.inputRoom p x.pkt = false → mgOrdered x.pkt w.pkt = true → s.landed p [] [x, w] = none) ∧
  (∀ s p b w rest m u, p < 18 → s.landed p [] (s.link p).rxQ = some (w, rest) → s.bankOpen p b = true → s.bankPlace p (banksFrom b) w.pkt.flits = some m →
    u = ((s.setLink p { s.link p with rxQ := rest }).bump (Obj.rtPktsIn p)).bumpBy (Obj.rtFlitsIn p) w.pkt.flits →
    (∀ err, w.pkt.malformed = true → exec (.routerPacketIn p b err) s = .next (((u.bump Obj.dropMalformed).giveBackFlits p w.owed w.pkt).resident w.pkt.parity false)) ∧
    (w.pkt.malformed = false → exec (.routerPacketIn p b none) s = .next (u.enter w.id p w.arrNs m w.owed w.pkt) ∧
      exec (.routerPacketIn p b (some .ce)) s = .next ((u.enter w.id p w.arrNs m w.owed w.pkt).bankCe p b) ∧
      exec (.routerPacketIn p b (some .ue)) s = .next (((u.bump Obj.dropBufferError).giveBackFlits p w.owed w.pkt).resident w.pkt.parity false))) ∧
  (∀ (s : State) port p, port < 18 → p.pool = false →
    s.giveBackFlits port true p = s.setLink port { s.link port with retVc := mput (s.link port).retVc p.vc (mgetD (s.link port).retVc p.vc 0 + p.flits) }) ∧
  (∀ (s : State) p l n m, l.Nodup → s.bankPlace p l n = some m → (∀ b, mgetD m b 0 ≠ 0 → s.bankOpen p b = true ∧ s.bankUse p b + mgetD m b 0 ≤ 248) ∧
    (l.map fun b => mgetD m b 0).foldl (· + ·) 0 = n) ∧
  (∀ s p k t m q u id, 18 ≤ p → p ≤ 22 → s.injectHead p = some (k, t) → k.malformed = false → (k.cls = clsMG ↔ p = 22) →
    q = { k with src := s.fabAddr (if p = 22 then 0 else p - 18), level := 0, parity := s.rd Obj.injectParity, pool := decide (5 < s.vcUse p (8 * k.cls) + k.flits) } →
    s.bankPlace p (List.range 8) q.flits = some m → (id, u) = State.newId (((t.bump (Obj.rtPktsIn p)).bumpBy (Obj.rtFlitsIn p) q.flits).resident q.parity true) →
    exec (.routerInject p none) s = .next (u.enter id p s.now m false q) ∧
    exec (.routerInject p (some .ce)) s = .next ((u.enter id p s.now m false q).bankCe p ((m.head?.map (·.1)).getD 0)) ∧
    exec (.routerInject p (some .ue)) s = .next ((u.bump Obj.dropBufferError).resident q.parity false)) ∧
  (∀ s p k t err, 18 ≤ p → p ≤ 22 → s.injectHead p = some (k, t) → k.malformed = true → exec (.routerInject p err) s = .next (t.bump Obj.dropMalformed)) ∧
  (∀ s p k t err, 18 ≤ p → p ≤ 22 → s.injectHead p = some (k, t) → k.malformed = false → ¬(k.cls = clsMG ↔ p = 22) → exec (.routerInject p err) s = .next (t.bump Obj.dropClass)) ∧
  (∀ s p err, 18 ≤ p → p ≤ 22 → s.injectHead p = none → Idles (.routerInject p err) s) ∧
  (∀ (s : State) p e l, s.canInject p e.pkt = true → s.injectPick p [] (e :: l) = some (e, l)) ∧
  (∀ (s : State) p x e l, s.canInject p x.pkt = false → s.canInject p e.pkt = true → x.pkt.cls ≠ e.pkt.cls → s.injectPick p [] (x :: e :: l) = some (e, x :: l)) ∧
  (∀ (s : State) p x e, s.canInject p x.pkt = false → x.pkt.cls = e.pkt.cls → s.injectPick p [] [x, e] = none) ∧
  (∀ s out e p u v rest, s.granted out = some (e, p) → (takeFirst (fun j => j == (out, p)) e.jobs).map Prod.snd = some rest →
    u = ((s.bump (Obj.rtPktsOut out)).bumpBy (Obj.rtFlitsOut out) p.flits).bump (Obj.rtClassOut out p.cls) →
    v = (if out < 18 ∧ p.probe = false ∧ bit (bits (u.entFor p) 22 18) out = true then u.bump (Obj.rtNonminimal out) else u) →
    exec (.routerPacketSend out) s = .next (State.setJobs ((if p.cls = clsMG then v else { v with router := { v.router with
      lastCl := if p.cls = clsCL then out :: v.router.lastCl.filter (· != out) else v.router.lastCl.filter (· != out) } }).sendOn out e.inPort e.arrNs p) e rest)) ∧
  (∀ (s : State) out port arr p, 18 ≤ out → out < 22 → s.sendOn out port arr p =
    s.setNi (out - 18) { s.niOf (out - 18) with rxQ := (s.niOf (out - 18)).rxQ ++ [{ p with pool := !s.reserveOk out p }] }) ∧
  (∀ (s : State) out port arr p, out < 18 → s.reserveOk out p = true → s.sendOn out port arr p =
    State.linkSend (s.setLink out { s.link out with spentVc := mput (s.link out).spentVc p.vcNext (mgetD (s.link out).spentVc p.vcNext 0 + p.flits) }) out arr
      { p with level := p.level + 1, pool := false }) ∧
  (∀ (s : State) out port arr p, out < 18 → s.reserveOk out p = false → s.sendOn out port arr p =
    State.linkSend (s.setLink out { s.link out with spentPool := (s.link out).spentPool + p.flits }) out arr { p with level := p.level + 1, pool := true }) ∧
  (∀ (s : State) out p, out < 18 → p.probe = false → (s.eligible out p = true ↔ s.portOpen out = true ∧ p.level < 7 ∧ s.creditOk out p = true ∧ (s.link out).holds out p = true)) ∧
  (∀ s id e, s.router.bufs.find? (fun e => decide (e.id = id)) = some e → exec (.residenceLimitExpiry id) s = .next ((s.bump Obj.dropResidence).freeEntry e)) ∧
  (∀ s id p w, s.router.bufs.find? (fun e => decide (e.id = id)) = none → (List.range 18).find? (fun p => (s.link p).rxQ.any fun w => w.id == id) = some p →
    (s.link p).rxQ.find? (fun w => decide (w.id = id)) = some w → exec (.residenceLimitExpiry id) s =
      .next ((((s.setLink p { s.link p with rxQ := (s.link p).rxQ.filter fun x => x.id != id }).bump Obj.dropResidence).giveBackFlits p w.owed w.pkt).resident w.pkt.parity false)) ∧
  (∀ s p b k, p ≤ 22 → b ≤ 7 → s.rd (Obj.rtBankState p b) = ustActive → s.router.bufs.filter (fun e => e.inPort == p && decide (mgetD e.banks b 0 ≠ 0)) = [] → s.router.worn = [] →
    (List.range 8).find? (fun b' => decide (((s.goState (Obj.rtBankState p b) 0x08 (8 * p + b) ustFailed).addFail 0x08 (8 * p + b)).rd (Obj.rtBankState p b') = ustSpare)) = some k →
    exec (.routerBankFail p b) s = .next (((((s.goState (Obj.rtBankState p b) 0x08 (8 * p + b) ustFailed).addFail 0x08 (8 * p + b)).goState (Obj.rtBankState p k) 0x08 (8 * p + k)
      ustActive).event 0x3801 0x08 (8 * p + b) noCtx 2 0 0).mapNote 0x08 (8 * p + k))) ∧
  (∀ s p b u, p ≤ 22 → b ≤ 7 → s.rd (Obj.rtBankState p b) = ustActive → s.router.bufs.filter (fun e => e.inPort == p && decide (mgetD e.banks b 0 ≠ 0)) = [] → s.router.worn = [] →
    u = (s.goState (Obj.rtBankState p b) 0x08 (8 * p + b) ustFailed).addFail 0x08 (8 * p + b) → (List.range 8).find? (fun b' => decide (u.rd (Obj.rtBankState p b') = ustSpare)) = none →
    exec (.routerBankFail p b) s = .next { u.exhausted 0x08 (8 * p + b) 5 false with
      router := { u.router with poolDebt := mput u.router.poolDebt p (mgetD u.router.poolDebt p 0 + 248) } }) ∧
  (∀ (s : State) port bank u, u = s.bumpSat (Obj.rtBankCe port bank) 32 → u.rd (Obj.rtBankCe port bank) < u.rd Obj.rtBankCeLimit → s.bankCe port bank = u) ∧
  (∀ (s : State) port bank u r, u = s.bumpSat (Obj.rtBankCe port bank) 32 → u.rd Obj.rtBankCeLimit ≤ u.rd (Obj.rtBankCe port bank) → s.router.worn.contains (8 * port + bank) = false →
    s.router.told.contains (8 * port + bank) = false → u.rd (Obj.rtBankState port bank) = ustActive → u.spareBank port bank 1 = (r, true) →
    s.bankCe port bank = { r with router := { r.router with worn := r.router.worn ++ [8 * port + bank] } }) ∧
  (∀ s p b, b < 8 → s.router.worn = [8 * p + b] → s.bankUse p b = 0 →
    exec (.wornBankEmptied p b) s = .next (({ s with router := { s.router with worn := [] } }.goState (Obj.rtBankState p b) 0x08 (8 * p + b) ustRetired).mapNote 0x08 (8 * p + b))) ∧
  (∀ s w b, isSteward w = true → b ≤ 1 → s.rd (Obj.routeBankResident b) = 0 → Accepted w (.routeBankLoading w b) s (s.wr (Obj.routeBankState b) 1)) ∧
  (∀ s w b, isSteward w = true → b ≤ 1 → s.rd (Obj.routeBankResident b) ≠ 0 → Denied w (.routeBankLoading w b) s rRefused) ∧
  (∀ s w b, isSteward w = true → b ≤ 1 → Accepted w (.routeBankValid w b) s
    ({ s with router := { s.router with epochs := mput s.router.epochs b (s.rd (Obj.routeBankEpoch b)) } }.wr (Obj.routeBankState b) 2)) ∧
  (∀ s w v, isSteward w = true → v.length = 8 + 8 * leAt v 2 2 → byteAt v 0 ≤ 1 → byteAt v 1 = 0 → 0 < leAt v 2 2 → leAt v 4 4 + leAt v 2 2 ≤ 64 → s.rd (Obj.routeBankState (byteAt v 0)) = 1 →
    ((List.range (leAt v 2 2)).map fun i => leAt v (8 + 8 * i) 8).any (fun e => decide (e / 2 ^ 44 ≠ 0) || bit e 21) = false →
    Accepted w (.routeLoad w v) s { s with router := { s.router with
      routes := putRoutes ((List.range (leAt v 2 2)).map fun i => leAt v (8 + 8 * i) 8) s.router.routes (65536 * (2 * byteAt v 0) + leAt v 4 4) } }) ∧
  (∀ s w v, isSteward w = true → v ≤ 1 → s.rd (Obj.routeBankState v) = 2 → Accepted w (.injectParityWrite w v) s (s.wr Obj.injectParity v)) ∧
  (∀ s w v, isSteward w = true → v ≤ 1 → s.rd (Obj.routeBankState v) ≠ 2 → Denied w (.injectParityWrite w v) s rRefused) ∧
  (∀ s w p, isSteward w = true → p < 18 → Accepted w (.rtAdmitWrite w p 1) s (s.wr (Obj.rtAdmit p) 1)) ∧
  (∀ s w p, isSteward w = true → p < 18 → Accepted w (.rtAdmitWrite w p 0) s ((s.wr (Obj.rtAdmit p) 0).reroute p)) ∧
  (∀ s w p v, isSteward w = false → Denied w (.rtAdmitWrite w p v) s rNoAccess)

/-! ### Network interfaces: commands and their messages (R280 to R286, R288, R295 to R297, R301 to R309) -/

/-- R100, R281 to R286, R288, R295, R296, R307 to R309: the oldest command of a queue starts. A PUT, ATOMIC, NOTIFY or TASK goes to its rank or line, a GET and a COPY_TO
to their rank, a PUT and a GET in messages of at most 65,536 bytes; a rank that is not valid sends nothing; a DISPATCH takes its tokens in order and an INBOX_ARM arms its
inbox with counts of zero, and its tally is decremented at once where it expects no DONE message. A message that is sent holds an outstanding entry for the addresses that
it waits for, and leaves as packets of at most 256 payload bytes; a target that cannot be reached ends it with DEST_LOST and sends nothing. A DISPATCH works on the tables
as they stood when it started, and one bad rank in them sends nothing. A command one of whose accesses meets a tile in steps 2 to 4 of a substitution waits. Rests on the
model's choices of log entries 33, 88, 89, 102, 112, 135. -/
def Obligations.NetworkCommands : Prop :=
  (∀ s t : State, t.heldHit = s.heldHit → s.unlessHeld t = t) ∧ (∀ s t : State, s.heldHit < t.heldHit → s.unlessHeld t = s) ∧
  (∀ s i c a u d, NiStarts s i c 1 a u → u.cmdDst c a.bytes = some d → exec (.put i c) s = .next (s.unlessHeld (State.putGo 4097 u i c a d 0))) ∧
  (∀ (s : State) f i c (a : NiActive) d off n r, off < nLen a.bytes → n = min 65536 (nLen a.bytes - off) → s.read c .ni permRead ((niLoc c (nLocal a.bytes)).adv off) n = r → r.st = .ok →
    State.putGo (f + 1) s i c a d off =
      State.putGo f (r.s.issueMsg i c a.serial ⟨d.2.2, d.1, d.2.1, poPut, nSub a.bytes, nRemote a.bytes + off, n, 0, 0, r.data⟩) i c a d (off + n)) ∧
  (∀ (s : State) f i c (a : NiActive) d off n r, off < nLen a.bytes → n = min 65536 (nLen a.bytes - off) → s.read c .ni permRead ((niLoc c (nLocal a.bytes)).adv off) n = r → r.st ≠ .ok →
    State.putGo (f + 1) s i c a d off = r.s.localFail i c a.serial a.epoch r) ∧
  (∀ (s : State) f i c (a : NiActive) d off, nLen a.bytes ≤ off → State.putGo (f + 1) s i c a d off = s) ∧
  (∀ s i c d q, (s.niq i c).queue = d :: q → nOp d.bytes = 1 → s.niMayStart i c d = true → s.outsAt i + msgsOf d.bytes ≤ 8192 → s.niMalformed d.bytes = true →
    exec (.put i c) s = .next (s.unlessHeld ((s.setNiq i c { s.niq i c with queue := q }).niDrop i c d .violation ndMalformed))) ∧
  (∀ s i c a u, NiStarts s i c 1 a u → u.cmdDst c a.bytes = none → exec (.put i c) s = .next (s.unlessHeld (u.noRank i c a.serial))) ∧
  (∀ s i c a u d, NiStarts s i c 2 a u → u.rankAddr c (nRank a.bytes) = some d → exec (.get i c) s = .next (s.unlessHeld (State.getGo 4097 u i c a d 0))) ∧
  (∀ (s : State) f i c (a : NiActive) d off n, off < nLen a.bytes → n = min 65536 (nLen a.bytes - off) → State.getGo (f + 1) s i c a d off =
    State.getGo f (s.issueMsg i c a.serial ⟨[d], d, none, poGet, 0, nRemote a.bytes + off, n, nLocal a.bytes + off, 0, leBytes 4 n ++ zeros 12⟩) i c a d (off + n)) ∧
  (∀ (s : State) f i c (a : NiActive) d off, nLen a.bytes ≤ off → State.getGo (f + 1) s i c a d off = s) ∧
  (∀ s i c a u, NiStarts s i c 2 a u → u.rankAddr c (nRank a.bytes) = none → exec (.get i c) s = .next (s.unlessHeld (u.noRank i c a.serial))) ∧
  (∀ s i c a u d, NiStarts s i c 3 a u → u.cmdDst c a.bytes = some d →
    exec (.atomic i c) s = .next (s.unlessHeld (u.issueMsg i c a.serial ⟨d.2.2, d.1, d.2.1, if bit (nSub a.bytes) 7 then poAtomic64 else poAtomic32, nSub a.bytes % 16, nRemote a.bytes, 16,
      nLocal a.bytes, 0, leBytes 8 (nOperand a.bytes) ++ leBytes 8 (nCompare a.bytes)⟩))) ∧
  (∀ s i c a u d, NiStarts s i c 4 a u → u.cmdDst c a.bytes = some d →
    exec (.notify i c) s = .next (s.unlessHeld (u.issueMsg i c a.serial ⟨d.2.2, d.1, d.2.1, poNotify, 0, 0, 16, nLocal a.bytes, 0, leBytes 8 (nOperand a.bytes) ++ zeros 8⟩))) ∧
  (∀ s i c a u d r, NiStarts s i c 5 a u → a.origin = none → u.read c .ni permRead (niLoc c (nLocal a.bytes)) 64 = r → r.st = .ok → r.s.cmdDst c a.bytes = some d →
    exec (.task i c) s = .next (s.unlessHeld (r.s.issueMsg i c a.serial ⟨d.2.2, d.1, d.2.1, poTask, 0, nRemote a.bytes, r.data.length, nLocal a.bytes, 0, r.data⟩))) ∧
  (∀ s i c a u d, NiStarts s i c 5 a u → a.origin.isSome = true → u.cmdDst c a.bytes = some d →
    exec (.task i c) s = .next (s.unlessHeld (u.issueMsg i c a.serial ⟨d.2.2, d.1, d.2.1, poTask, 0, nRemote a.bytes, (fit 64 a.task).length, nLocal a.bytes, 0, fit 64 a.task⟩))) ∧
  (∀ s i c a u op, NiStarts s i c op a u → u.cmdDst c a.bytes = none → (op = 3 → exec (.atomic i c) s = .next (s.unlessHeld (u.noRank i c a.serial))) ∧
    (op = 4 → exec (.notify i c) s = .next (s.unlessHeld (u.noRank i c a.serial)))) ∧
  (∀ s i c a u, NiStarts s i c 6 a u → u.rankAddr c (nRank a.bytes) = none ∨ u.rankAddr c (nCount a.bytes) = none → exec (.copyTo i c) s = .next (s.unlessHeld (u.noRank i c a.serial))) ∧
  (∀ s i c a u d e, NiStarts s i c 6 a u → u.rankAddr c (nRank a.bytes) = some d → u.rankAddr c (nCount a.bytes) = some e →
    exec (.copyTo i c) s = .next (s.unlessHeld (u.issueMsg i c a.serial ⟨[d], d, none, poCopyTo, 0, nRemote a.bytes, nLen a.bytes, 0, 0,
      leBytes 8 (nRemote2 a.bytes) ++ leBytes 4 (nCount a.bytes) ++ zeros 4⟩))) ∧
  (∀ s i c a u, NiStarts s i c 7 a u → ((s.niq i c).active.find? fun a => nOp a.bytes = cDispatch ∧ !a.issued) = none →
    exec (.dispatch i c) s = .next (s.unlessHeld (u.dispatchStart i c a))) ∧
  (∀ s i c a, ((s.niq i c).active.find? fun a => nOp a.bytes = cDispatch ∧ !a.issued) = some a →
    exec (.dispatch i c) s = .next (s.unlessHeld (State.dispatchGo (dispatchFuel a.bytes) s i c a.serial))) ∧
  (∀ (u : State) i c a b, b = { a with issued := false, ranks := ctxTable u.ni.ranks c, dests := ctxTable u.ni.dests c } →
    (b.destPairs.all fun p => (b.rankAddr (p / 256)).isSome) = true →
    u.dispatchStart i c a = State.dispatchGo (dispatchFuel a.bytes) (u.updNiActive i c a.serial fun _ => b) i c a.serial) ∧
  (∀ (u : State) i c a b p, b = { a with issued := false, ranks := ctxTable u.ni.ranks c, dests := ctxTable u.ni.dests c } → p ∈ b.destPairs → b.rankAddr (p / 256) = none →
    u.dispatchStart i c a = u.noRank i c a.serial) ∧
  (∀ (s : State) i c (a : NiActive) k r d t, s.read c .ni permRead ((niLoc c (nRemote a.bytes)).adv (2 * k)) 2 = r → r.st = .ok → leNat r.data < 4096 →
    bit (mgetD a.dests (leNat r.data) 0) 31 = true → a.rankAddr (bits (mgetD a.dests (leNat r.data) 0) 12 12) = some d →
    (r.s.updNiActive i c a.serial fun x => { x with cursor := k + 1 }).read c .ni permRead ((niLoc c (nLocal a.bytes)).adv (k / nSub a.bytes * nLen a.bytes)) (nLen a.bytes) = t →
    t.st = .ok →
    s.dispatchOne i c a k = t.s.issueMsg i c a.serial ⟨[d], d, none, poToken, 0,
      mgetD a.dests (leNat r.data) 0 % 256 * 2 ^ 40 + leNat r.data * 2 ^ 24 + k / nSub a.bytes, nLen a.bytes, 0,
      256 * bits (mgetD a.dests (leNat r.data) 0) 12 12 + mgetD a.dests (leNat r.data) 0 % 256, t.data⟩) ∧
  (∀ (s : State) i c (a : NiActive) k r, s.read c .ni permRead ((niLoc c (nRemote a.bytes)).adv (2 * k)) 2 = r → r.st = .ok → leNat r.data < 4096 →
    bit (mgetD a.dests (leNat r.data) 0) 31 = false →
    s.dispatchOne i c a k = (r.s.updNiActive i c a.serial fun x => { x with cursor := k + 1 }).updNiActive i c a.serial fun x => { x with count := x.count + 1 }) ∧
  (∀ (s : State) i c (a : NiActive) k r, s.read c .ni permRead ((niLoc c (nRemote a.bytes)).adv (2 * k)) 2 = r → r.st = .ok → leNat r.data = 0xFFFF →
    s.dispatchOne i c a k = r.s.updNiActive i c a.serial fun x => { x with cursor := k + 1 }) ∧
  (∀ s i c a u x, NiStarts s i c 8 a u →
    x = ⟨c, nSub a.bytes, nLocal a.bytes, nLen a.bytes, nRank a.bytes, nOperand a.bytes, nCompare a.bytes % 65536, nTally a.bytes, nTallyTile a.bytes, nTallyValid a.bytes, 0, 0, 0, 0, false⟩ →
    exec (.inboxArm i c) s = .next (s.unlessHeld (State.fireInbox { u with ni := { u.ni with
      inboxes := (u.ni.inboxes.filter fun y => !(y.ctx == c && y.num == nSub a.bytes)) ++ [x] } } i x))) ∧
  (∀ s i c a u, NiStarts s i c 8 a u → nCompare a.bytes % 65536 ≠ 0 → ∃ t, exec (.inboxArm i c) s = .next t ∧
    t.inbox c (nSub a.bytes) = some ⟨c, nSub a.bytes, nLocal a.bytes, nLen a.bytes, nRank a.bytes, nOperand a.bytes, nCompare a.bytes % 65536, nTally a.bytes, nTallyTile a.bytes,
      nTallyValid a.bytes, 0, 0, 0, 0, false⟩ ∧ t.decs = s.decs ∧ t.mem = s.mem) ∧
  (∀ (s : State) i b, b.fired = true ∨ b.doneGot ≠ b.expected ∨ b.placed ≠ b.announced → s.fireInbox i b = s.setInbox b) ∧
  (∀ (s : State) i b, b.fired = false → b.doneGot = b.expected → b.placed = b.announced → s.fireInbox i b =
    if b.tallyValid = true then (s.setInbox { b with fired := true }).decNow ⟨.ni i, b.tallyTile, b.tally, 1, .ok, causeNone, b.ctx⟩ else s.setInbox { b with fired := true }) ∧
  (∀ (s : State) i c k m, s.blocked m.waiting = none → s.canSend i c = true → s.mustKey c = false → s.rd (Obj.niState i) ≠ ustDisabled → s.rd (Obj.niState i) ≠ ustFailed →
    ∃ t o l, s.issueMsg i c k m = t ∧ t.ni.outs = s.ni.outs ++ [o] ∧ o.ni = i ∧ o.ctx = c ∧ o.serial = k ∧ o.op = m.op ∧ o.waiting = m.waiting ∧ o.quarantined = false ∧
    t.rd (Obj.niOutstanding c) = s.rd (Obj.niOutstanding c) + 1 ∧ (t.niOf i).egress = (s.niOf i).egress ++ l ∧ l.length = max 1 (cdiv m.pay.length 256) ∧
    (∀ e ∈ l, e.ctx = c ∧ e.pkt.cls = clsRQ ∧ e.pkt.dst = m.dst ∧ e.pkt.units ≤ 16) ∧ t.mem = s.mem) ∧
  (∀ (s : State) i c k m d, s.blocked m.waiting = some d → s.issueMsg i c k m = s.updNiActive i c k fun a => a.merge .destLost d) ∧
  (∀ (s : State) i c k m, s.blocked m.waiting = none → s.mustKey c = true → s.issueMsg i c k m = s.updNiActive i c k fun a => a.merge .violation ndKey)

/-- R280, R282 to R284, R299 to R301, R307, R310, R312, R346, R381, R390, R422: a queue's tail and head are written by a Tenant of its context, a ring command is fetched
into the queue, one whose window check fails completes with VIOLATION, WINDOW and freezes it, and a command that has done everything decrements its tally and writes its
record; tables, jobs and transmit slots are written by their roles, those of ctx 0 refused, a new transmit slot is ACTIVE and one that was so drains, a slot drains for
its time and is zeroized, a FROZEN queue is released or purged by the Custodian, and an NI quiesces, is enabled while the package is STARTING or ON, and fails. Rests on
the model's choices of log entries 32, 33, 34, 114, 155. -/
def Obligations.NetworkQueues : Prop :=
  (∀ s w i c v, isTenant w c = true → i < 4 → v < s.rd (Obj.niqSqEntries i c) → Accepted w (.niqSqTailWrite w i c v) s (s.wr (Obj.niqSqTail i c) v)) ∧
  (∀ s w i c v, isTenant w c = true → i < 4 → v < s.rd (Obj.niqCqEntries i c) → Accepted w (.niqCqHeadWrite w i c v) s ((s.wr (Obj.niqCqHead i c) v).niFlush i c)) ∧
  (∀ s w i c v, isTenant w c = true → i < 4 → s.rd (Obj.niqSqEntries i c) ≤ v → Denied w (.niqSqTailWrite w i c v) s rOutOfRange) ∧
  (∀ s i c a, i < 4 → c < 64 → s.ctxSt c = ctxOpen → s.niqActive i c = true → s.domUp 5 = true → s.rd (Obj.niqSqHead i c) ≠ s.rd (Obj.niqSqTail i c) →
    s.read c .ni permRead ((niLoc c (s.rd (Obj.niqSqBase i c))).adv (64 * s.rd (Obj.niqSqHead i c))) 64 = a → a.st = .ok → a.s.heldHit = s.heldHit →
    ∃ t, exec (.niRingFetch i c) s = .next t ∧ t.rd (Obj.niqSqHead i c) = (s.rd (Obj.niqSqHead i c) + 1) % s.rd (Obj.niqSqEntries i c) ∧
    t.niq i c = (a.s.niq i c).push a.data false none []) ∧
  (∀ s i c a u t, i < 4 → c < 64 → s.ctxSt c = ctxOpen → s.niqActive i c = true → s.domUp 5 = true → s.rd (Obj.niqSqHead i c) ≠ s.rd (Obj.niqSqTail i c) →
    s.read c .ni permRead ((niLoc c (s.rd (Obj.niqSqBase i c))).adv (64 * s.rd (Obj.niqSqHead i c))) 64 = a → a.st = .violation → a.win = true →
    u = a.s.wr (Obj.niqSqHead i c) ((s.rd (Obj.niqSqHead i c) + 1) % s.rd (Obj.niqSqEntries i c)) →
    t = (u.setNiq i c { u.niq i c with nextSerial := (u.niq i c).nextSerial + 1 }).niEnd i c (u.niq i c).nextSerial (zeros 64) [] none .violation ndWindow 0 0 →
    exec (.niRingFetch i c) s = .next (s.unlessHeld (t.freezeNiq i c (t.rd (Obj.protEpoch c)) a.addr))) ∧
  (∀ (s : State) i c serial a, ((s.niq i c).active.find? fun a => a.serial = serial) = some a → a.ready = true →
    exec (.niCommandComplete i c serial) s = .next (s.unlessHeld ((s.setNiq i c { s.niq i c with active := (s.niq i c).active.filter fun x => x.serial != serial }).niEnd i c serial a.bytes
      a.task a.origin a.status a.detail a.bytesDone a.count))) ∧
  (∀ (s : State) i c serial b st detail bytes count u, nTallyValid b = true → nOp b ≠ cInboxArm → u = s.decNow ⟨.ni i, nTallyTile b, nTally b, 1, st, causeNone, c⟩ →
    s.niEnd i c serial b [] none st detail bytes count =
      (u.setNiq i c { u.niq i c with recs := insNi (serial, niRecord (nTag b) st.code detail i bytes count) (u.niq i c).recs }).niFlush i c) ∧
  (∀ (s : State) d, (s.tile d.tile).held = false → s.decNow d = s.applyDec d) ∧
  (∀ (s : State) d, (s.tile d.tile).held = true → s.decNow d = { s.setTile d.tile { s.tile d.tile with heldDecs := (s.tile d.tile).heldDecs ++ [d] } with heldHit := s.heldHit + 1 }) ∧
  (∀ s w c v k l, isOpCus w = true → c < 64 → c ≠ 0 → tableWrite v (fun e => decide (bits e 24 7 ≠ 0)) = .ok (k, l) →
    Accepted w (.rankLoad w c v) s { s with ni := { s.ni with ranks := putWords l s.ni.ranks (4096 * c + k) } }) ∧
  (∀ s w c v k l, (isOpCus w || isTenant w c) = true → c < 64 → tableWrite v (fun e => decide (bits e 24 7 ≠ 0) || decide (bits e 8 4 ≠ 0)) = .ok (k, l) →
    Accepted w (.dispatchLoad w c v) s { s with ni := { s.ni with dests := putWords l s.ni.dests (4096 * c + k) } }) ∧
  (∀ s w v, isOpCus w = true → Denied w (.rankLoad w 0 v) s rRefused) ∧ (∀ s w v, isOpCus w = true → Denied w (.niJobWrite w 0 v) s rRefused) ∧
  (∀ s w c v, isOpCus w = true → c < 64 → c ≠ 0 → v < 0xFFFF → s.ctxSt c = ctxOpen → s.rd (Obj.niOutstanding c) = 0 → s.ni.heldJobs.contains v = false →
    (v ≠ 0 → ∀ k, k < 64 → k ≠ c → s.rd (Obj.niJob k) ≠ v) → Accepted w (.niJobWrite w c v) s (s.wr (Obj.niJob c) v)) ∧
  (∀ s w c v k, isOpCus w = true → c < 64 → c ≠ 0 → v < 0xFFFF → v ≠ 0 → s.ctxSt c = ctxOpen → k < 64 → k ≠ c → s.rd (Obj.niJob k) = v → Denied w (.niJobWrite w c v) s rRefused) ∧
  (∀ (s : State) w c v, isCus w = true → c < 64 → v < 4 → s.slotSt c v = slotActive ∨ s.slotSt c v = slotRxOnly → Accepted w (.keyTxSlotWrite w c v) s (s.switchSlot c v)) ∧
  (∀ s w c, isCus w = true → c < 64 → Accepted w (.keyTxSlotWrite w c 0xFF) s (s.wr (Obj.keyTxSlot c) 0xFF)) ∧
  (∀ (s : State) w c v, isCus w = true → c < 64 → v < 4 → s.slotSt c v ≠ slotActive → s.slotSt c v ≠ slotRxOnly → Denied w (.keyTxSlotWrite w c v) s rRefused) ∧
  (∀ (s : State) c v k, c < 64 → v < 4 → k < 4 → k ≠ v → s.slotSt c k = slotActive → (s.switchSlot c v).slotSt c v = slotActive ∧ (s.switchSlot c v).slotSt c k = slotDraining ∧
    (s.switchSlot c v).rd (Obj.keyTxSlot c) = v) ∧
  (∀ (s : State) c k, k < 4 → s.slotSt c k = slotDraining → ∃ t, exec (.keyDrainExpiry c k) s = .next t ∧ t.slotSt c k = slotEmpty ∧ mget t.sec.slotKeys (4 * c + k) = none) ∧
  (∀ s w i c, isCus w = true → i < 4 → c < 64 → s.rd (Obj.niqState i c) = ustFrozen →
    Accepted w (.niqRelease w i c) s ((s.wr (Obj.niqState i c) ustActive).unitEvent 0x0B (64 * i + c) ustFrozen ustActive)) ∧
  (∀ s w i c, isCus w = true → i < 4 → c < 64 → s.rd (Obj.niqState i c) = ustFrozen →
    Accepted w (.niqPurge w i c) s ((s.niDropQueue i c .abortedDisabled).goState (Obj.niqState i c) 0x0B (64 * i + c) ustActive)) ∧
  (∀ s w i c, isCus w = true → i < 4 → c < 64 → s.rd (Obj.niqState i c) ≠ ustFrozen → Denied w (.niqRelease w i c) s rRefused) ∧
  (∀ s w i, isOpCus w = true → i < 4 → s.rd (Obj.niState i) = ustActive →
    Accepted w (.niDisable w i) s (((s.wr (Obj.niState i) ustQuiescing).unitEvent 0x0A i ustActive ustQuiescing).niDropAll i .abortedDisabled causeDisabled)) ∧
  (∀ s w i, isOpCus w = true → i < 4 → s.rd (Obj.niState i) = ustDisabled → s.mastersMay = true →
    Accepted w (.niEnable w i) s ((s.wr (Obj.niState i) ustActive).unitEvent 0x0A i ustDisabled ustActive)) ∧
  (∀ s w i, isOpCus w = true → i < 4 → s.rd (Obj.niState i) = ustQuiescing → Denied w (.niEnable w i) s rRefused) ∧
  (∀ s i, i < 4 → s.rd (Obj.niState i) ≠ ustFailed → exec (.niFail i) s = .next (s.failNi i))

/-! ### Packets at a network interface (R284, R287 to R300, R308, R309) -/

/-- R270, R287 to R298, R308, R309: at the target a request acts as its op says, under the entry of the receiving context with REMOTE besides where it came from another
package, and is acknowledged with its status. A packet of an index already counted, or of an entry in quarantine, is a duplicate; a packet waits for those of its own
class before it and a reply for none; the message that a COPY_TO makes is sent, waits for an entry, or is answered where it may not be sent; an entry stays in quarantine
until its time ends, an incomplete one is freed without reply, and a message without answer completes with TIMEOUT and NO_REPLY. Rests on the model's choices of log
entries 32, 89. -/
def Obligations.NetworkReceipt : Prop :=
  (∀ s i c p d r v a t, NewRequest s i c p d r v → p.op = poPut → v.write c .ni (v.remoteNeed p.src permWrite) ((niLoc c p.target).adv (256 * p.index)) (d.take p.bytesIn) = a → a.st = .ok →
    (a.s.countRx r p).2.got = (a.s.countRx r p).2.len → t = (((a.s.countRx r p).1.land i c p.sub).ackRx (a.s.countRx r p).2 .ok 0 []) → t.heldHit ≤ s.heldHit → exec (.rxPut i) s = .next t) ∧
  (∀ s i c p d r v a t, NewRequest s i c p d r v → p.op = poPut → v.write c .ni (v.remoteNeed p.src permWrite) ((niLoc c p.target).adv (256 * p.index)) (d.take p.bytesIn) = a → a.st = .ok →
    (a.s.countRx r p).2.got ≠ (a.s.countRx r p).2.len → t = (a.s.countRx r p).1 → t.heldHit ≤ s.heldHit → exec (.rxPut i) s = .next t) ∧
  (∀ s i c p d r v a t, NewRequest s i c p d r v → p.op = poPut → v.write c .ni (v.remoteNeed p.src permWrite) ((niLoc c p.target).adv (256 * p.index)) (d.take p.bytesIn) = a →
    a.st = .violation → a.win = true → r.op = poPut → r.epoch = a.s.rd (Obj.protEpoch r.ctx) → t = ((a.s.bump Obj.rxWindowRefused).ackRx r .violation 0 []) → t.heldHit ≤ s.heldHit → exec (.rxPut i) s = .next t) ∧
  (∀ s i c p d r u t, Receives s i c p d u → p.op = poPut → u.rxOf i c p = some r → r.quarantined = true ∨ bit r.bitmap p.index = true →
    t = (u.bump Obj.rxDuplicates) → t.heldHit ≤ s.heldHit → exec (.rxPut i) s = .next t) ∧
  (∀ s i c p d r v a t, NewRequest s i c p d r v → p.op = poFwd → v.write c .ni (v.remoteNeed p.src permWrite) ((niLoc c p.target).adv (256 * p.index)) (d.take p.bytesIn) = a → a.st = .ok →
    (a.s.countRx r p).2.got = (a.s.countRx r p).2.len → t = ((a.s.countRx r p).1.ackRx (a.s.countRx r p).2 .ok 0 []) → t.heldHit ≤ s.heldHit → exec (.rxFwd i) s = .next t) ∧
  (∀ s i c p d r v a n t, NewRequest s i c p d r v → p.op = poGet → n = min 65536 (max 1 (leAt d 0 4)) → v.read c .ni (v.remoteNeed p.src permRead) (niLoc c p.target) n = a → a.st = .ok →
    t = ((a.s.sendData_ { r with len := n } a.data true).updRx r.id fun x => { x with quarantined := true, len := n, got := n }) → t.heldHit ≤ s.heldHit → exec (.rxGet i) s = .next t) ∧
  (∀ s i c p d r v m b t, NewRequest s i c p d r v → p.op = poAtomic32 ∨ p.op = poAtomic64 →
    v.resolve c .ni (v.remoteNeed p.src permAtomic) (niLoc c p.target) (if p.op == poAtomic64 then 8 else 4) = m → m.2.1 = .ok →
    m.1.atomic m.2.2 p.sub (p.op == poAtomic64) (leAt d 0 8) (leAt d 8 8) = b → b.2.1 = .ok →
    t = (b.1.ackRx r .ok 0 (leBytes 8 b.2.2 ++ zeros 8)) → t.heldHit ≤ s.heldHit → exec (.rxAtomic i) s = .next t) ∧
  (∀ s i c p d r v a t, NewRequest s i c p d r v → p.op = poNotify → (v.rd (Obj.notifyTail c) + 1) % v.rd (Obj.notifyEntries c) ≠ v.rd (Obj.notifyHead c) →
    v.write c .ni (v.remoteNeed p.src permWrite) ((niLoc c (v.rd (Obj.notifyBase c))).adv (16 * v.rd (Obj.notifyTail c))) (leBytes 8 (leAt d 0 8) ++ leBytes 3 p.src ++ leBytes 1 0 ++ zeros 4) = a → a.st = .ok →
    t = ((a.s.wr (Obj.notifyTail c) ((v.rd (Obj.notifyTail c) + 1) % v.rd (Obj.notifyEntries c))).ackRx r .ok 0 []) → t.heldHit ≤ s.heldHit → exec (.rxNotify i) s = .next t) ∧
  (∀ s i c p d r v t, NewRequest s i c p d r v → p.op = poNotify → (v.rd (Obj.notifyTail c) + 1) % v.rd (Obj.notifyEntries c) = v.rd (Obj.notifyHead c) →
    t = (v.ackRx r .timeout 0 []) → t.heldHit ≤ s.heldHit → exec (.rxNotify i) s = .next t) ∧
  (∀ s i c p d r v t, NewRequest s i c p d r v → p.op = poTask →
    t = { v.updRx r.id (fun x => { x with bitmap := 1, got := x.len }) with posts := v.posts ++ [⟨.ni i r.id, c, p.target, fit 64 d⟩] } → t.heldHit ≤ s.heldHit → exec (.rxTask i) s = .next t) ∧
  (∀ s i c p d r v a dst t, NewRequest s i c p d r v → p.op = poCopyTo →
    (v.updRx r.id fun x => { x with bitmap := 1, got := x.len }).read c .ni (v.remoteNeed p.src permRead) (niLoc c p.target) p.msgLen = a → a.st = .ok →
    a.s.rankAddr c (leAt d 8 4 % 4096) = some dst →
    t = (a.s.forward ⟨i, c, r.id, dst, leAt d 0 6, a.data⟩) → t.heldHit ≤ s.heldHit → exec (.rxCopyTo i) s = .next t) ∧
  (∀ (s : State) j, s.fwdBar j = none → s.outsAt j.ni < 8192 → s.forward j =
    s.sendMsg j.ni j.ctx ⟨j.ni, j.ctx, 0, 0, 0, poFwd, [j.dst], j.data.length, 0, 0, 0, .ok, ndNone, 0, some j.rx, false⟩ j.dst none clsFW 0 j.target j.data) ∧
  (∀ (s : State) j, s.fwdBar j = none → 8192 ≤ s.outsAt j.ni → s.forward j = { s with ni := { s.ni with fwdQ := s.ni.fwdQ ++ [j] } }) ∧
  (∀ (s : State) j st, s.fwdBar j = some st → s.forward j = s.fwdFail j st) ∧
  (∀ (s : State) j, s.fwdBar j = if (s.blocked [j.dst]).isSome = true then some .destLost else
    if s.mustKey j.ctx = true ∨ s.canSend j.ni j.ctx = false then some .violation else none) ∧
  (∀ (s : State) i mine iv k before p rest t, mine p = true → before.any (rxBehind · p) = false →
    t = (s.setNi i { s.niOf i with rxQ := before ++ rest }).rxServe i iv k p → t.heldHit ≤ s.heldHit → s.rxFrom i mine iv k before (p :: rest) = t) ∧
  (∀ (s : State) i mine iv k before p rest, mine p = false ∨ before.any (rxBehind · p) = true →
    s.rxFrom i mine iv k before (p :: rest) = s.rxFrom i mine iv k (before ++ [p]) rest) ∧
  (∀ b p : Packet, rxBehind b p = true ↔ b.cls = p.cls ∧ b.cls ≠ clsRP) ∧
  (∀ s i c p d r v t, NewRequest s i c p d r v → p.op = poToken → v.inbox c (p.target / 2 ^ 40) = none →
    t = ((v.bump Obj.dispatchRefused).ackRx r .ok (2 ^ 48 - 1) []) → t.heldHit ≤ s.heldHit → exec (.rxToken i) s = .next t) ∧
  (∀ s i c p d r v b t, NewRequest s i c p d r v → p.op = poToken → v.inbox c (p.target / 2 ^ 40) = some b → b.capacity ≤ b.next ∨ b.slotBytes < p.msgLen →
    t = ((v.bump Obj.dispatchRefused).ackRx r .ok (2 ^ 48 - 1) []) → t.heldHit ≤ s.heldHit → exec (.rxToken i) s = .next t) ∧
  (∀ s i c p d r v b x a t, NewRequest s i c p d r v → p.op = poToken → v.inbox c (p.target / 2 ^ 40) = some b → b.next < b.capacity → p.msgLen ≤ b.slotBytes →
    x = (v.setInbox { b with next := b.next + 1 }).updRx r.id (fun _ => { r with place := some b.next }) →
    x.write c .ni (x.remoteNeed p.src permWrite) ((niLoc c (b.area + b.next * b.slotBytes)).adv (256 * p.index)) (d.take p.bytesIn) = a → a.st = .ok →
    (a.s.countRx { r with place := some b.next } p).2.got ≠ (a.s.countRx { r with place := some b.next } p).2.len → 
    t = (a.s.countRx { r with place := some b.next } p).1 → t.heldHit ≤ s.heldHit → exec (.rxToken i) s = .next t) ∧
  (∀ s i c p d r v b t, NewRequest s i c p d r v → p.op = poDone → v.inbox c (p.target / 2 ^ 40) = some b →
    t = ((v.ackRx r .ok 0 []).fireInbox i { b with doneGot := b.doneGot + 1, announced := b.announced + leAt d 0 4 }) → t.heldHit ≤ s.heldHit → exec (.rxDone i) s = .next t) ∧
  (∀ s i c p d u o t, Receives s i c p d u → p.op = poAck → u.outOf i c p = some o → o.quarantined = false → o.waiting = [p.src] → p.sub = 0 → o.status = .ok → o.op = poPut →
    t = (u.outDone { o with waiting := [], status := .ok } .ok o.detail) → t.heldHit ≤ s.heldHit → exec (.rxAck i) s = .next t) ∧
  (∀ s i c p d u o a t, Receives s i c p d u → p.op = poData → u.outOf i c p = some o → o.quarantined = false → bit o.bitmap p.index = false → o.op = poGet → p.msgLen = o.len →
    u.write c .ni permWrite ((niLoc c o.localAddr).adv (256 * p.index)) (d.take p.bytesIn) = a → a.st = .ok → o.got + p.bytesIn = o.len →
    t = ((a.s.updOut o fun _ => { o with got := o.got + p.bytesIn, bitmap := o.bitmap + 2 ^ p.index }).outDone
      { o with got := o.got + p.bytesIn, bitmap := o.bitmap + 2 ^ p.index } .ok ndNone) → t.heldHit ≤ s.heldHit → exec (.rxData i) s = .next t) ∧
  (∀ s k, exec (.quarantineExpiry true k) s = .next { s with ni := { s.ni with rxs := s.ni.rxs.filter fun r => !(r.id == k && r.quarantined) } }) ∧
  (∀ s k o, s.ni.outs[k]? = some o → o.quarantined = true → exec (.quarantineExpiry false k) s = .next (State.fwdNext { s with ni := { s.ni with outs := s.ni.outs.eraseIdx k } } o.ni)) ∧
  (∀ s id r, (s.ni.rxs.find? fun r => r.id = id ∧ !r.quarantined ∧ r.got < r.len) = some r →
    exec (.rxPartialExpiry id) s = .next ((s.bump Obj.rxPartialExpired).freeRx r)) ∧
  (∀ s i c slot m o, (s.ni.outs.find? fun o => o.ni = i ∧ o.ctx = c ∧ o.slot = slot ∧ o.msgId = m ∧ !o.quarantined) = some o →
    exec (.niOpTimeout i c slot m) s = .next (s.outDone o .timeout ndNoReply))

/-- R296, R302 to R306: a session opens while its buffer has room and its context fewer than 16, queues its invocations and closes when none is left; an invocation runs
after the one before it, contributions are reduced once per member and part, results are written to the result buffer, and a lost or long suspect member or an expired
timeout ends the invocation and breaks the session. Rests on the model's choices of log entries 2, 41, 113, 158. -/
def Obligations.CollectiveSessions : Prop :=
  (∀ s i c a u x, NiStarts s i c 9 a u → u.clSess c (nSub a.bytes) = none →
    x = ⟨c, nSub a.bytes, i, nLocal a.bytes, nRemote a.bytes, nLen a.bytes, nCount a.bytes % 256, bits (nCount a.bytes) 8 8, bits (nCount a.bytes) 16 8, nCount a.bytes / 2 ^ 24,
      lineOf (nOperand a.bytes % 65536), if bit (nOperand a.bytes) 32 then some (lineOf (bits (nOperand a.bytes) 16 16)) else none, [], 0, none, 0, [],
      [.empty, .empty], [.empty, .empty], [], none, none⟩ →
    (16777216 < u.clUsed + x.reserved ∨ 16 ≤ (u.ni.sessions.filter fun y => y.ctx == c).length →
      exec (.clOpen i c) s = .next (s.unlessHeld (u.updNiActive i c a.serial fun a => a.merge .timeout ndSession))) ∧
    (u.clUsed + x.reserved ≤ 16777216 → (u.ni.sessions.filter fun y => y.ctx == c).length < 16 →
    exec (.clOpen i c) s = .next (s.unlessHeld (State.clCount { u with ni := { u.ni with sessions := u.ni.sessions ++ [x] } })))) ∧
  (∀ s i c a u x, NiStarts s i c 10 a u → (u.ni.sessions.find? fun x => x.ctx = c ∧ x.num = nSub a.bytes ∧ x.closing.isNone) = some x → x.broken = none → u.mustKey c = false →
    exec (.clRun i c) s = .next (s.unlessHeld ((u.updNiActive i c a.serial fun a => { a with left := a.left + 1 }).setSess { x with queued := x.queued ++ [4 * a.serial + i] }))) ∧
  (∀ s i c a u x, NiStarts s i c 10 a u → (u.ni.sessions.find? fun x => x.ctx = c ∧ x.num = nSub a.bytes ∧ x.closing.isNone) = some x → x.broken = none → u.mustKey c = true →
    exec (.clRun i c) s = .next (s.unlessHeld (u.updNiActive i c a.serial fun a => a.merge .violation ndKey))) ∧
  (∀ s i c a u x st, NiStarts s i c 10 a u → (u.ni.sessions.find? fun x => x.ctx = c ∧ x.num = nSub a.bytes ∧ x.closing.isNone) = some x → x.broken = some st →
    exec (.clRun i c) s = .next (s.unlessHeld (u.updNiActive i c a.serial fun a => a.merge st.1 st.2))) ∧
  (∀ s i c a u x, NiStarts s i c 11 a u → (u.ni.sessions.find? fun x => x.ctx = c ∧ x.num = nSub a.bytes ∧ x.closing.isNone) = some x →
    exec (.clClose i c) s = .next (s.unlessHeld (((u.updNiActive i c a.serial fun a => { a with left := a.left + 1 }).setSess { x with closing := some (4 * a.serial + i) }).clTryClose
      { x with closing := some (4 * a.serial + i) }))) ∧
  (∀ (s : State) x k, x.closing = some k → x.running = none → x.queued = [] → s.clTryClose x = (s.clDrop x).clCmdDone x.ctx k .ok ndNone) ∧
  (∀ s c n x k l, s.clSess c n = some x → x.queued = k :: l → x.running = none →
    exec (.clInvocationStart c n) s = .next (s.unlessHeld (State.clAdvance 2 ((s.setSess { x with
      queued := l, running := some k, inv := (x.inv + 1) % 2 ^ 32, stage := 0, parts := x.nextParts, nextParts := [], cur := x.nxt, nxt := [.empty, .empty] }).clStageStart c n) c n))) ∧
  (∀ s c n x, s.clSess c n = some x → x.running.isSome = true → Idles (.clInvocationStart c n) s) ∧
  (∀ (g : ClStage) (x : ClSession) fresh m off d, bit (mgetD g.heard off 0) m = true → (g.reduce x fresh m off d) = (g, true)) ∧
  (∀ op v a b, bf16.dec a = .nan → clElem 1 op v a b = bf16.nanCode v) ∧
  (∀ s i x p d u g t, ReceivesCl s i 0 x p d true u → x.kind ≤ 1 → (u.myShard x p.clStage).1 ≤ p.clOff → p.clOff < (u.myShard x p.clStage).1 + (u.myShard x p.clStage).2 →
    bit (x.line p.clStage).mask ((x.line p.clStage).idxOf (p.src / 4 % 64)) = true →
    (x.line p.clStage).posOf ((x.line p.clStage).idxOf (p.src / 4 % 64)) = p.src / 4 % 64 →
    bit (mgetD (x.nxt.getD p.clStage .empty).heard p.clOff 0) ((x.line p.clStage).idxOf (p.src / 4 % 64)) = false →
    g = ((x.nxt.getD p.clStage .empty).reduce x u.fresh ((x.line p.clStage).idxOf (p.src / 4 % 64)) p.clOff d).1 →
    t = { u.setSess { x with nxt := stageSet x.nxt p.clStage g } with fresh := u.fresh + 128 } → t.heldHit ≤ s.heldHit → exec (.rxContrib i) s = .next t) ∧
  (∀ s i x p d u g t, ReceivesCl s i 0 x p d false u → x.kind ≤ 1 → (u.myShard x p.clStage).1 ≤ p.clOff → p.clOff < (u.myShard x p.clStage).1 + (u.myShard x p.clStage).2 →
    bit (x.line p.clStage).mask ((x.line p.clStage).idxOf (p.src / 4 % 64)) = true →
    (x.line p.clStage).posOf ((x.line p.clStage).idxOf (p.src / 4 % 64)) = p.src / 4 % 64 →
    bit (mgetD (x.cur.getD p.clStage .empty).heard p.clOff 0) ((x.line p.clStage).idxOf (p.src / 4 % 64)) = false →
    g = ((x.cur.getD p.clStage .empty).reduce x u.fresh ((x.line p.clStage).idxOf (p.src / 4 % 64)) p.clOff d).1 → p.clStage = x.stage →
    t = State.clAdvance 2 (State.clOwner { u.setSess { x with cur := stageSet x.cur p.clStage g } with fresh := u.fresh + 128 } x.ctx x.num) x.ctx x.num →
    t.heldHit ≤ s.heldHit → exec (.rxContrib i) s = .next t) ∧
  (∀ s i x p d u t, ReceivesCl s i 0 x p d false u → 1 < x.kind → t = (u.bump Obj.clUnexpected) → t.heldHit ≤ s.heldHit → exec (.rxContrib i) s = .next t) ∧
  (∀ s i x p d u a t, ReceivesCl s i 1 x p d false u → x.running.isSome = true → x.parts.contains (clPart p.clStage p.clOff) = false →
    u.write x.ctx .ni permWrite ((niLoc x.ctx x.resAddr).adv (256 * p.clOff)) (fit 256 d) = a → a.st = .ok →
    t = (State.clAdvance 2 (a.s.setSess { x with parts := x.parts ++ [clPart p.clStage p.clOff] }) x.ctx x.num) → t.heldHit ≤ s.heldHit → exec (.rxResult i) s = .next t) ∧
  (∀ s i x p d u t, ReceivesCl s i 1 x p d false u → x.parts.contains (clPart p.clStage p.clOff) = true → t = (u.bump Obj.rxDuplicates) → t.heldHit ≤ s.heldHit → exec (.rxResult i) s = .next t) ∧
  (∀ s c n x, s.clSess c n = some x → x.running.isSome = true → exec (.clTimeout c n) s = .next (s.clBreak x .timeout ndSession)) ∧
  (∀ (s : State) x st d, s.clSess x.ctx x.num = some x → x.closing = none →
    (s.clBreak x st d).clSess x.ctx x.num = some { x with running := none, queued := [], broken := some (st, d) }) ∧
  (∀ s pos, bit (s.rd Obj.suspectMask) pos = true → s.ni.suspect50.contains pos = false →
    exec (.suspectTimeout pos) s = .next (({ s with ni := { s.ni with suspect50 := s.ni.suspect50 ++ [pos] } }.loseOuts (· == pos) ndSuspect).loseSessions (· == pos)))

/-! ### The fabric agent (R314 to R318, R322, R324, R329, R332, R338, R342) -/

/-- R314 to R318, R320, R322, R324, R329, R332, R338, R342: an agent answers a probe on the port it arrived on, takes the outcome of its own, reports at once when a
verdict changes and at its interval; a flooded message seen before is ignored and a message of another term is counted and ignored. It follows a heartbeat, prepares the
tables of an epoch, loads the drained bank, answers READY and switches at COMMIT; it takes a loss indication, a REPROBE's generation, the chunks of a replica and of a
rail map. An Operator loads and commits a rail map at the Wellhead alone. Rests on the model's choices of log entries 46, 115, 116, 117, 149. -/
def Obligations.AgentMessages : Prop :=
  (∀ s i u port r, Takes s mgProbe i u → i.path = .data port → port < 18 →
    u.mkMsg mgProbeEcho i.msg.gen i.msg.arg (bytesOf [slice i.msg.payload 0 4, leBytes 2 (u.rd Obj.ownCatchment), leBytes 1 u.pos, leBytes 1 port, zeros 8]) = r →
    exec .probe s = .next (r.1.probeOn port r.2)) ∧
  (∀ s i u p, Takes s mgProbeEcho i u → i.path = .data p → p < 18 → (mgetD u.agent.probes p PortProbe.init).open_ = true →
    i.msg.arg = (mgetD u.agent.probes p PortProbe.init).nonce → i.msg.gen = u.rd (Obj.portGeneration p) →
    exec .probeEcho s = .next ((u.wr (Obj.probeRttNs p) (u.now - (mgetD u.agent.probes p PortProbe.init).sentNs)).probeOutcome p
      (decide (u.now - (mgetD u.agent.probes p PortProbe.init).sentNs ≤ (if p < 14 then 20000 else 100000)) && u.echoOk p i.msg.payload))) ∧
  (∀ (s : State) p b u, b = mgetD s.agent.probes p PortProbe.init →
    u = { s with agent := { s.agent with probes := mput s.agent.probes p { b with open_ := false, good := min 3 (b.good + 1), bad := 0 } } }.wr (Obj.probeVerdict p)
      (if 2 ≤ b.good then 1 else 0) → s.probeOutcome p true = (if u.verdict p = s.verdict p then u else u.sendReport false)) ∧
  (∀ (s : State) p b u, b = mgetD s.agent.probes p PortProbe.init →
    u = { s with agent := { s.agent with probes := mput s.agent.probes p { b with open_ := false, good := 0, bad := min 3 (b.bad + 1) } } }.wr (Obj.probeVerdict p)
      (if 2 ≤ b.bad then 2 else 0) → s.probeOutcome p false = (if u.verdict p = s.verdict p then u else u.sendReport false)) ∧
  (∀ (s : State) p, s.rd (Obj.linkState p) ≠ linkUp → s.verdict p = 2) ∧
  (∀ s, s.rd Obj.agentState ≠ agStarting → exec .probeInterval s = .next (s.upPorts.foldl (fun s p => s.probePort p) s)) ∧
  (∀ s, s.rd Obj.agentState ≠ agStarting → exec .reportInterval s = .next (s.sendReport false)) ∧
  (∀ s r, s.rd Obj.agentState = agDiscovering ∨ s.rd Obj.agentState = agOrphan → s.mkMsg mgHello 0 (s.rd Obj.whEligible % 2 + 2 * ofBool s.healthy) [] = r → exec .helloInterval s = .next (r.1.sendAll r.2)) ∧
  (∀ s i u v, Takes s mgHello i u → i.msg.origin < 64 → i.msg.arg < 4 → i.path = .mgmt →
    v = { u with agent := { u.agent with heardMgmt := upsert (·.1) (i.msg.origin, i.msg.arg % 2, i.msg.arg / 2, u.now) u.agent.heardMgmt } } →
    exec .hello s = .next (if i.msg.term = 0 then v.cameBack i.msg.origin else v)) ∧
  (∀ s i u, Takes s mgReplica i u → u.follows i.msg = true → i.msg.arg % 65536 = 0 →
    exec .replica s = .next { u with agent := { u.agent with replica := mput [] 0 i.msg.payload, replicaFull := 1 == i.msg.arg / 65536 } }) ∧
  (∀ (s : State) m, s.follows m = true ↔ m.term = s.rd Obj.agentTerm ∧ s.agent.grantTerm ≤ m.term) ∧
  (∀ s i u, Takes s mgReplica i u → u.follows i.msg = false → exec .replica s = .next (u.bump Obj.mgStaleTerm)) ∧
  (∀ s i u, Takes s mgRailMap i u → u.follows i.msg = true → u.rd Obj.railMapVersion < i.msg.gen → i.msg.arg % 65536 = 0 → i.msg.arg / 65536 ≠ 1 →
    exec .railMap s = .next { u with agent := { u.agent with railChunks := mput [] 0 i.msg.payload } }) ∧
  (∀ s i u c, Takes s mgRailMap i u → u.follows i.msg = true → u.rd Obj.railMapVersion < i.msg.gen →
    c = mput (if i.msg.arg % 65536 = 0 then [] else u.agent.railChunks) (i.msg.arg % 65536) i.msg.payload → c.length = i.msg.arg / 65536 →
    560 + 8 * railRoutes (c.map (·.2)).flatten ≤ (c.map (·.2)).flatten.length →
    exec .railMap s = .next (u.keepRail ((c.map (·.2)).flatten.take (560 + 8 * railRoutes (c.map (·.2)).flatten)))) ∧
  (∀ s w v, isOpCus w = true → s.isWh = true → 4 < v.length → v.length ≤ 1028 → leAt v 0 4 + (v.drop 4).length ≤ 33328 →
    Accepted w (.railMapLoad w v) s { s with wh := { s.wh with
      railLoad := ((List.range (v.drop 4).length).zip (v.drop 4)).foldl (fun m x => msetD m (leAt v 0 4 + x.1) 0 x.2) s.wh.railLoad } }) ∧
  (∀ s w v, isOpCus w = true → s.isWh = false → Denied w (.railMapLoad w v) s rRefused) ∧
  (∀ s w b, isOpCus w = true → s.isWh = true → railRoutes ((List.range 8).map fun i => mgetD s.wh.railLoad i 0) ≤ 4096 →
    b = (List.range (560 + 8 * railRoutes ((List.range 8).map fun i => mgetD s.wh.railLoad i 0))).map (fun i => mgetD s.wh.railLoad i 0) → railBad b = false →
    leAt b 0 4 ≤ s.rd Obj.railMapVersion → exec (.railMapCommit w 1) s = .next ((s.wr Obj.railMapStatus 3).answer w.session w.reqId opWrite rRefused [] 0 0)) ∧
  (∀ s w b, isOpCus w = true → s.isWh = true → railRoutes ((List.range 8).map fun i => mgetD s.wh.railLoad i 0) ≤ 4096 →
    b = (List.range (560 + 8 * railRoutes ((List.range 8).map fun i => mgetD s.wh.railLoad i 0))).map (fun i => mgetD s.wh.railLoad i 0) → railBad b = false →
    s.rd Obj.railMapVersion < leAt b 0 4 → s.rd Obj.ownCatchment = 0xFFFF ∨ s.rd Obj.ownCatchment = railCat b →
    ∃ u v, u = ((List.range 64).filter (· != s.pos)).foldl (fun s q => ((List.range (pktChunks (b.length / 256 + 1) b).length).zip (pktChunks (b.length / 256 + 1) b)).foldl (fun s x =>
        (s.mkMsg mgRailMap (leAt b 0 4) (x.1 + 65536 * (pktChunks (b.length / 256 + 1) b).length) x.2).1.sendBoth q
          (s.mkMsg mgRailMap (leAt b 0 4) (x.1 + 65536 * (pktChunks (b.length / 256 + 1) b).length) x.2).2) s) ((s.wr Obj.railMapStatus 1).keepRail b) ∧
      v = State.afterChange { u with wh := { u.wh with dirty := true, railLoad := [] } } ∧ Accepted w (.railMapCommit w 1) s v) ∧
  (∀ s i u, Takes s mgHeartbeat i u → i.msg.origin ≠ u.pos → u.isWh = false → u.rd Obj.agentTerm ≤ i.msg.term → u.agent.grantTerm ≤ i.msg.term →
    i.msg.term = u.rd Obj.agentTerm → u.agent.hbSeen = true → u.agent.hbSeq < i.msg.seq → exec .heartbeat s = .next ((u.followHb i.msg).hbAck i.msg)) ∧
  (∀ s i u, Takes s mgHeartbeat i u → i.msg.origin ≠ u.pos → u.rd Obj.agentTerm < i.msg.term → u.agent.grantTerm ≤ i.msg.term →
    exec .heartbeat s = .next (((State.followHb (if u.isWh then u.stepDown else u) i.msg).hbAck i.msg).sendReport false)) ∧
  (∀ s i u, Takes s mgHeartbeat i u → i.msg.term < u.agent.grantTerm → exec .heartbeat s = .next u) ∧
  (∀ s i u, Takes s mgPrepare i u → u.follows i.msg = true → u.mayRoute = true → u.rd Obj.agentEpoch < i.msg.gen → u.agent.prep = none →
    exec .prepare s = .next { u with agent := { u.agent with prep := some ⟨i.msg.gen, fit 256 i.msg.payload, u.agent.railMap, false⟩ } }) ∧
  (∀ s r, s.agent.prep = some r → r.done = false → s.mayRoute = true → s.rd (Obj.routeBankResident (r.epoch % 2)) = 0 → r.epoch % 2 ≠ s.rd Obj.injectParity →
    ∃ t, ∃ x : State × AgentMsg, exec .bankDrained s = .next t ∧ t.mem = s.mem ∧ t = State.sendBoth x.1 (s.rd Obj.agentWellhead) x.2 ∧ x.2.typ = mgReady ∧ x.2.gen = r.epoch ∧
      x.2.payload = fit 8 (tableDigest (tablesOf r.routeMap r.rail s.pos)) ++ zeros 8) ∧
  (∀ s i u, Takes s mgCommit i u → u.follows i.msg = true → exec .commit s = .next (u.commitEpoch i.msg.gen)) ∧
  (∀ s i u, Takes s mgCommit i u → u.follows i.msg = false → exec .commit s = .next (u.bump Obj.mgStaleTerm)) ∧
  (∀ s i u, Takes s mgLinkDown i u → i.msg.arg < 64 → i.msg.arg ≠ u.pos → u.follows i.msg = true → exec .linkDown s = .next (u.indicate i.msg.arg i.msg.origin)) ∧
  (∀ s i u p v w, Takes s mgReprobe i u → u.follows i.msg = true → i.msg.arg % 256 = u.pos → bits i.msg.arg 8 8 = p → p < 18 → u.rd (Obj.portGeneration p) < i.msg.gen →
    v = { (u.wr (Obj.portGeneration p) i.msg.gen).wr (Obj.probeVerdict p) 0 with agent := { u.agent with probes := mput u.agent.probes p PortProbe.init, posFenced := u.agent.posFenced.filter (· != p) } } →
    w = (if bit i.msg.arg 16 then v.fencePort p else v.clearPort p) → exec .reprobe s = .next (if w.verdict p = u.verdict p then w else w.sendReport false)) ∧
  (∀ s i u p, Takes s mgReprobe i u → u.follows i.msg = true → i.msg.arg % 256 = u.pos → bits i.msg.arg 8 8 = p → p < 18 → i.msg.gen ≤ u.rd (Obj.portGeneration p) →
    exec .reprobe s = .next u) ∧
  (∀ s i u, Takes s mgReprobe i u → u.follows i.msg = true → i.msg.arg % 256 = u.pos → bits i.msg.arg 8 8 = 0xFF → u.agent.posGen < i.msg.gen →
    exec .reprobe s = .next (State.fenceSelf { u with agent := { u.agent with posGen := i.msg.gen, selfFenced := bit i.msg.arg 16 } } (bit i.msg.arg 16))) ∧
  (∀ (s : State) l, l = ((List.range 18).filter fun p => s.rd (Obj.portState p) == ustActive) →
    s.fenceSelf true = l.foldl (fun s p => s.fencePort p) { s with agent := { s.agent with posFenced := (s.agent.posFenced ++ l).dedup } }) ∧
  (∀ (s : State), s.fenceSelf false = s.agent.posFenced.foldl (fun s p => s.clearPort p) { s with agent := { s.agent with posFenced := [] } }) ∧
  (∀ s i u, Takes s mgReprobe i u → u.follows i.msg = true → i.msg.arg % 256 ≠ u.pos → exec .reprobe s = .next u)

/-! ### The Wellhead (R319 to R325, R332, R333, R342, R343) -/

/-- R319 to R325, R333, R342, R343: the Wellhead keeps each path's last report and evaluates its verdicts, which decide a unit's state by R321; it counts
acknowledgements, sends a heartbeat at its interval and steps down after five periods without a quorum, reprobes what is fenced, and installs an epoch: a READY with
another digest fences its position, the last READY commits the epoch, a missing one or a missing acknowledgement fences. Rests on the model's choices of log entries 2,
45, 47, 115, 116, 118, 120, 151. -/
def Obligations.WellheadMap : Prop :=
  (∀ s i u v r, Takes s mgReport i u → u.isWh = true → i.msg.origin < 64 → i.msg.term = u.rd Obj.agentTerm → i.path = .mgmt → u.wh.mapFormed = true →
    v = (if (repOf u.wh.repMgmt i.msg.origin).any (fun r => !bit r.flags 2) = true ∧ bit (byteAt i.msg.payload 0) 2 = true then u.cameBack i.msg.origin else u) →
    r = ⟨i.msg.origin, byteAt i.msg.payload 0, (List.range 18).map fun p => slice i.msg.payload (16 + 12 * p) 12⟩ →
    exec .report s = .next { v with wh := { v.wh with repMgmt := upsert (·.pos) r v.wh.repMgmt } }.evaluate) ∧
  (∀ s i u v r port, Takes s mgReport i u → u.isWh = true → i.msg.origin < 64 → i.msg.term = u.rd Obj.agentTerm → i.path = .data port → u.wh.mapFormed = true →
    v = (if (repOf u.wh.repData i.msg.origin).any (fun r => !bit r.flags 2) = true ∧ bit (byteAt i.msg.payload 0) 2 = true then u.cameBack i.msg.origin else u) →
    r = ⟨i.msg.origin, byteAt i.msg.payload 0, (List.range 18).map fun p => slice i.msg.payload (16 + 12 * p) 12⟩ →
    exec .report s = .next { v with wh := { v.wh with repData := upsert (·.pos) r v.wh.repData } }.evaluate) ∧
  (∀ s i u, Takes s mgReport i u → i.msg.term ≠ u.rd Obj.agentTerm → exec .report s = .next u) ∧
  (∀ (s : State) q, s.isWh = true → s.wh.mapFormed = true → s.rd (Obj.posState q) = ustFailed → s.wh.back.contains q = false → ∃ u,
    u = State.raiseGen { s with wh := { s.wh with back := q :: s.wh.back } } q ∧ s.cameBack q = u.reprobe q 0xFF (u.rd (Obj.posGeneration q)) false) ∧
  (∀ (s : State) q, s.rd (Obj.posState q) ≠ ustFailed → s.cameBack q = s) ∧
  (∀ reps acks age q r, repOf reps q = some r → bit r.flags 5 = true ∨ bit r.flags 4 = false ∨ bit r.flags 2 = false → posVerdict reps acks age q = 2) ∧
  (∀ reps acks age q r, repOf reps q = some r → bit r.flags 5 = false → bit r.flags 4 = true → bit r.flags 2 = true →
    posVerdict reps acks age q = (if acks.any fun a => a.contains q then 1 else if age < 5 then 0 else 2)) ∧
  (∀ s i u, Takes s mgReport i u → u.isWh = false → exec .report s = .next u) ∧
  (∀ st out a b, (st = ustActive → a = 2 → b = 2 → nextVerd st out (a, b) = out) ∧ (st = ustActive → (a = 2) ≠ (b = 2) → nextVerd st out (a, b) = ustFenced) ∧
    (st ≠ ustActive → a = 1 → b = 1 → nextVerd st out (a, b) = ustActive) ∧ (st = ustFenced → a = 2 → b = 2 → nextVerd st out (a, b) = out)) ∧
  (∀ s i u, Takes s mgHbAck i u → u.isWh = true → i.msg.origin < 64 → i.msg.term = u.rd Obj.agentTerm → u.rd (Obj.posGeneration i.msg.origin) ≤ leAt i.msg.payload 12 4 →
    i.path = .mgmt → bit i.msg.arg 1 = false → leAt i.msg.payload 8 4 ≠ 0 →
    exec .hbAck s = .next (({ u with wh := { u.wh with acksMgmt := ackIn u.wh.acksMgmt i.msg.origin } }.epochAcked i.msg.origin (leAt i.msg.payload 8 4)).evaluate)) ∧
  (∀ s i u, Takes s mgHbAck i u → u.isWh = true → i.msg.origin < 64 → i.msg.term = u.rd Obj.agentTerm → leAt i.msg.payload 12 4 < u.rd (Obj.posGeneration i.msg.origin) →
    bit i.msg.arg 1 = false → leAt i.msg.payload 8 4 ≠ 0 → exec .hbAck s = .next ((u.epochAcked i.msg.origin (leAt i.msg.payload 8 4)).evaluate)) ∧
  (∀ s i u, Takes s mgLossNotice i u → i.msg.arg < 64 → i.msg.arg ≠ u.pos → u.follows i.msg = true → u.isWh = false →
    exec .lossNotice s = .next { u with agent := { u.agent with noticed := (i.msg.arg, i.msg.gen) :: u.agent.noticed.filter fun n => n.1 != i.msg.arg } }.syncSuspect) ∧
  (∀ s u, s.isWh = true → s.rd Obj.whQuorum ≤ s.ackedBoth → (s.wh.mapFormed = true → s.rd (Obj.posState s.pos) ≠ ustFenced) →
    u = (State.evaluate { s with wh := { s.wh with noQuorum := 0 } }).newPeriod.nameStandby.sendHeartbeat →
    exec .heartbeatInterval s = .next ((u.epochAcked u.pos (u.rd Obj.agentEpoch)).capsIfDue).replicate) ∧
  (∀ s, s.isWh = true → s.wh.mapFormed = true → s.rd (Obj.posState s.pos) = ustFenced → ∃ n, exec .heartbeatInterval s = .next (State.stepDown { s with wh := { s.wh with noQuorum := n } })) ∧
  (∀ (s : State), s.newPeriod.wh.acksMgmt = ([s.pos] :: s.wh.acksMgmt).take 5 ∧ s.newPeriod.wh.acksData = ([s.pos] :: s.wh.acksData).take 5) ∧
  (∀ s, s.isWh = true → s.ackedBoth < s.rd Obj.whQuorum → s.wh.acksMgmt ≠ [] → s.wh.noQuorum = 4 →
    exec .heartbeatInterval s = .next (State.stepDown { s with wh := { s.wh with noQuorum := 5 } })) ∧
  (∀ s, s.isWh = false → Idles .heartbeatInterval s) ∧
  (∀ s, s.isWh = true → (∀ k, (s.lk k).2 ≠ lkFenced) → (∀ q, q < 64 → s.rd (Obj.posState q) ≠ ustFenced) → Idles .fenceReprobeInterval s) ∧
  (∀ s q, s.isWh = true → ((List.range 64).filter fun q => s.rd (Obj.posState q) == ustFenced) = [q] → lkAll.all (fun k => (s.lk k).2 != lkFenced) = true →
    exec .fenceReprobeInterval s = .next ((s.raiseGen q).reprobe q 0xFF ((s.rd (Obj.posGeneration q) + 1) % 2 ^ 32) true)) ∧
  (∀ (s : State) q, (s.raiseGen q).rd (Obj.posGeneration q) = (s.rd (Obj.posGeneration q) + 1) % 2 ^ 32 ∧ (s.raiseGen q).wh.acksMgmt = s.wh.acksMgmt.map (fun a => a.filter (· != q)) ∧
    (s.raiseGen q).wh.acksData = s.wh.acksData.map (fun a => a.filter (· != q)) ∧ mgetD (s.raiseGen q).wh.genAge q 0 = 0) ∧
  (∀ s i u r, Takes s mgReady i u → u.isWh = true → u.wh.run = some r → i.msg.term = u.rd Obj.agentTerm → r.committed = false → r.epoch = i.msg.gen → r.members.contains i.msg.origin = true →
    r.ready.contains i.msg.origin = false → i.msg.payload.take 8 ≠ tableDigest (tablesOf r.routeMap r.rail i.msg.origin) →
    exec .ready s = .next (((u.abandonEpoch r.epoch).fencePos i.msg.origin).afterChange)) ∧
  (∀ s i u r, Takes s mgReady i u → u.isWh = true → u.wh.run = some r → i.msg.term = u.rd Obj.agentTerm → r.committed = false → r.epoch = i.msg.gen → r.members.contains i.msg.origin = true →
    r.ready.contains i.msg.origin = false → i.msg.payload.take 8 = tableDigest (tablesOf r.routeMap r.rail i.msg.origin) →
    (r.members.all fun p => (i.msg.origin :: r.ready).contains p) = false →
    exec .ready s = .next { u with wh := { u.wh with run := some { r with ready := i.msg.origin :: r.ready } } }) ∧
  (∀ s i u r, Takes s mgReady i u → u.isWh = true → u.wh.run = some r → i.msg.term = u.rd Obj.agentTerm → r.committed = false → r.epoch = i.msg.gen → r.members.contains i.msg.origin = true →
    r.ready.contains i.msg.origin = false → i.msg.payload.take 8 = tableDigest (tablesOf r.routeMap r.rail i.msg.origin) →
    (r.members.all fun p => (i.msg.origin :: r.ready).contains p) = true → ∃ v w, ∃ x : State × AgentMsg,
    v = ((State.wr { u with wh := { u.wh with run := some { r with ready := i.msg.origin :: r.ready, committed := true } } } Obj.whEpoch r.epoch).bump Obj.epochsCommitted).event 0x4C02 0x00 0 noCtx
      r.epoch 1 0 ∧ x = ((List.range 64).foldl (fun s q => s.wr (Obj.posUsablePorts q) (rmMask r.routeMap q)) v).mkMsg mgCommit r.epoch 0 [] ∧
    w = (((x.1.sendAll x.2).commitEpoch r.epoch).sendReplica) ∧ exec .ready s = .next w.tryEpoch) ∧
  (∀ s r, s.isWh = true → s.wh.run = some r → r.committed = false →
    exec .epochReadyTimeout s = .next (((r.members.filter fun q => !r.ready.contains q).foldl (fun s q => s.fencePos q) (s.abandonEpoch r.epoch)).afterChange)) ∧
  (∀ s r, s.isWh = true → s.wh.run = some r → r.committed = true → s.allAcked r = false →
    exec .epochAckTimeout s = .next (((r.members.filter fun q => !r.acked.contains q).foldl (fun s q => s.fencePos q) s).afterChange)) ∧
  (∀ s r, s.wh.run = some r → r.committed = true → s.allAcked r = true → Idles .epochAckTimeout s) ∧
  (∀ (s : State) r, s.allAcked r = true ↔ ∀ q ∈ r.members, r.acked.contains q = true ∨ q = s.pos ∧ s.rd Obj.agentEpoch = r.epoch) ∧
  (∀ (s : State) r n v, s.isWh = true → s.wh.mapFormed = true → s.wh.dirty = true → s.wh.run = some r → r.committed = true → s.allAcked r = true →
    n = s.wh.lastEpoch + (if (s.wh.lastEpoch + 1) % 2 = s.rd Obj.whEpoch % 2 then 2 else 1) →
    v = { s with wh := { s.wh with run := some ⟨n, s.rd Obj.whMapGen, s.routeMap, [], false, [], s.actives, s.agent.railMap⟩, dirty := false, lastEpoch := n } } →
    s.tryEpoch = s.actives.foldl (fun t q => (t.mkMsg mgPrepare n (t.rd Obj.whMapGen) s.routeMap).1.sendBoth q (t.mkMsg mgPrepare n (t.rd Obj.whMapGen) s.routeMap).2) v) ∧
  (∀ (s : State) r, s.wh.run = some r → r.committed = false ∨ s.allAcked r = false → s.tryEpoch = s) ∧
  (∀ (s : State) q e r, s.wh.run = some r → r.committed = true → r.epoch < e →
    s.epochAcked q e = State.tryEpoch { s.wr Obj.whEpoch e with wh := { s.wh with run := some { r with epoch := e, acked := [q] }, lastEpoch := max s.wh.lastEpoch e } }) ∧
  (∀ s, s.isWh = true → s.wh.mapFormed = false → exec .discoveryReportTimeout s = .next s.formMap) ∧
  (∀ s, s.isWh = false → Idles .discoveryReportTimeout s)

/-- R326 to R331, R335 to R337: a claim is granted as R327 says and grants of both paths count to the quorum; a standby that misses five heartbeats claims the next term
and is ORPHAN, a retry claims once more and then stops, and an agent that is not eligible claims nothing. A slice command is refused while one is BUSY and away from the
Wellhead; CREATE forms a slice of free ACTIVE positions, its members' acknowledgements make it ACTIVE or remove it, and a changed state is put into the notify rings of
its job. Rests on the model's choices of log entries 2, 3, 116, 119, 130, 150, 151. -/
def Obligations.ElectionAndSlices : Prop :=
  (∀ s i u r, Takes s mgClaim i u → i.msg.origin < 64 → i.msg.origin ≠ u.pos → u.grants i.msg.origin i.msg.term = true →
    State.mkMsg { u with agent := { u.agent with grantTerm := i.msg.term } } mgGrant 0 i.msg.origin [] = r →
    exec .claim s = .next (r.1.sendBoth i.msg.origin { r.2 with term := i.msg.term })) ∧
  (∀ s i u, Takes s mgClaim i u → u.grants i.msg.origin i.msg.term = false → exec .claim s = .next u) ∧
  (∀ (s : State) c t, t ≤ s.agent.grantTerm → s.grants c t = false) ∧
  (∀ (s : State) c t, max (s.rd Obj.agentTerm) s.agent.grantTerm < t → 5 ≤ s.agent.missed ∨ s.rd Obj.agentState = agDiscovering →
    ((s.agent.heardMgmt ++ s.agent.heardData).any fun e => e.1 == c && e.2.1 == 0) = false →
    (s.agent.hbSeen = true ∧ s.rd Obj.agentStandby = c) ∨ (∀ q, q < c → s.heardBoth q = false) → s.grants c t = true) ∧
  (∀ s i u c, Takes s mgGrant i u → u.agent.claim = some c → i.msg.term = c.term → i.msg.arg % 256 = u.pos → i.path = .mgmt → c.grantsMgmt.contains i.msg.origin = false →
    exec .grant s = .next { u with agent := { u.agent with claim := some { c with grantsMgmt := i.msg.origin :: c.grantsMgmt } } }.checkQuorum) ∧
  (∀ (s : State) c, s.agent.claim = some c → s.quorum ≤ 1 + (c.grantsMgmt.filter fun q => q != s.pos && c.grantsData.contains q).length → s.checkQuorum = s.becomeWh c.term) ∧
  (∀ (s : State), s.agent.hbSeen = false → s.quorum = s.rd Obj.catchmentExpected / 2 + 1) ∧
  (∀ s, s.rd Obj.agentState = agFollowing →
    exec .heartbeatMissLimit s = .next { s.wr Obj.agentState agOrphan with agent := { s.agent with missed := 5, orphanAt := s.now } }) ∧
  (∀ s, s.rd Obj.agentState = agStandby →
    exec .heartbeatMissLimit s = .next (State.claimFor { s.wr Obj.agentState agOrphan with agent := { s.agent with missed := 5, orphanAt := s.now } } (s.rd Obj.agentTerm + 1) 1)) ∧
  (∀ s c, s.agent.claim = some c → s.isWh = false → c.attempt = 1 →
    exec .claimRetryTimer s = .next (State.claimFor { s with agent := { s.agent with claim := some { c with attempt := 2 } } } (s.rd Obj.agentTerm + 2) 2)) ∧
  (∀ s c, s.agent.claim = some c → s.isWh = false → c.attempt = 2 → exec .claimRetryTimer s = .next { s with agent := { s.agent with claim := none, stopped := true } }) ∧
  (∀ s, s.rd Obj.agentState = agOrphan → s.agent.claim = none → s.agent.stopped = false → s.healthy = true → s.agent.orphanAt + 20000000 + 10000000 * s.claimRank ≤ s.now →
    exec .claimStaggerTimer s = .next (s.claimFor (max s.agent.maxTerm (max (s.rd Obj.agentTerm) s.agent.grantTerm) + 1) 3)) ∧
  (∀ s, s.rd Obj.agentState = agDiscovering → s.agent.hbSeen = false → s.healthy = true →
    exec .discoveryClaimTimer s = .next (s.claimFor (max s.agent.maxTerm (max (s.rd Obj.agentTerm) s.agent.grantTerm) + 1) 3)) ∧
  (∀ s, s.rd Obj.agentState = agOrphan → s.agent.stopped = true → Idles .claimStaggerTimer s) ∧
  (∀ (s : State) t k, s.rd Obj.whEligible ≠ 1 → s.claimFor t k = s) ∧ (∀ (s : State) t k, t ≤ max (s.rd Obj.agentTerm) s.agent.grantTerm → s.claimFor t k = s) ∧
  (∀ (s : State) t k r u, s.rd Obj.whEligible = 1 → max (s.rd Obj.agentTerm) s.agent.grantTerm < t → s.mkMsg mgClaim 0 s.quorum [] = r → u = r.1.sendAll { r.2 with term := t } →
    s.claimFor t k = State.checkQuorum { u with agent := { u.agent with claim := some ⟨t, [], [], k⟩, grantTerm := t, maxTerm := max t u.agent.maxTerm } }) ∧
  (∀ s w b, isOpCus w = true → b.length = 16 → s.rd Obj.sliceStatus / 256 = 1 → byteAt b 0 = 1 → Denied w (.sliceCreate w b) s rRefused) ∧
  (∀ s w b, isOpCus w = true → b.length = 16 → s.rd Obj.sliceStatus / 256 ≠ 1 → byteAt b 0 = 1 → s.isWh = false →
    exec (.sliceCreate w b) s = .next ((s.slDone slNotWellhead).answer w.session w.reqId opWrite rRefused [] 0 0)) ∧
  (∀ s w b, isOpCus w = true → b.length = 16 → s.rd Obj.sliceStatus / 256 ≠ 1 → s.isWh = true → byteAt b 0 = 1 → byteAt b 1 = 0 → byteAt b 2 ≤ 63 → byteAt b 3 ≤ 1 → 0 < leAt b 4 2 → leAt b 4 2 ≤ 0xFFFE →
    byteAt b 6 = 0 → byteAt b 7 = 0 → leAt b 8 8 ≠ 0 → (s.wh.slices.any fun x => x.num == byteAt b 2 || x.job == leAt b 4 2) = false →
    (∀ q, q < 64 → bit (leAt b 8 8) q = true → s.posActive q = true ∧ s.posFree 64 q = true) →
    Accepted w (.sliceCreate w b) s (s.slForm (byteAt b 2) (leAt b 4 2) (byteAt b 3) (leAt b 8 8)).sendReplica) ∧
  (∀ s w b x, isOpCus w = true → b.length = 16 → s.rd Obj.sliceStatus / 256 ≠ 1 → s.isWh = true → byteAt b 0 = 2 → slZero b = true → (s.wh.slices.find? fun x => x.num = byteAt b 2) = some x →
    s.rd (Obj.sliceState (byteAt b 2)) = 2 → leAt b 8 8 = 0 → (∀ q, q < 64 → bit x.members q = true → s.posActive q = true ∧ s.posFree (byteAt b 2) q = true) →
    Accepted w (.sliceRepair w b) s ((s.sliceChange (byteAt b 2) 1 x.members 0 (x.members ||| x.members)).slDone slOk).sendReplica) ∧
  (∀ s w b x, isOpCus w = true → b.length = 16 → s.rd Obj.sliceStatus / 256 ≠ 1 → s.isWh = true → byteAt b 0 = 3 → slZero b = true → leAt b 8 8 = 0 →
    (s.wh.slices.find? fun x => x.num = byteAt b 2) = some x → s.rd (Obj.sliceState (byteAt b 2)) = 1 →
    Accepted w (.sliceRetire w b) s (((s.wr Obj.sliceStatus 0x100).sliceChange (byteAt b 2) 3 x.members (s.rd (Obj.sliceLost (byteAt b 2))) x.members).slRetired (byteAt b 2)).sendReplica) ∧
  (∀ s i u x, Takes s mgSliceAck i u → (u.wh.slices.find? fun x => x.num = i.msg.arg % 256) = some x → u.isWh = true → i.msg.term = u.rd Obj.agentTerm →
    i.msg.gen = u.rd (Obj.sliceGeneration (i.msg.arg % 256)) → bit x.members i.msg.origin = true → bit x.acked i.msg.origin = false →
    u.rd (Obj.sliceState (i.msg.arg % 256)) = 0 → x.acked + 2 ^ i.msg.origin ≠ x.members →
    exec .sliceAck s = .next { u with wh := { u.wh with slices := updFirst (fun y => y.num == i.msg.arg % 256) (fun _ => { x with acked := x.acked + 2 ^ i.msg.origin }) u.wh.slices } }) ∧
  (∀ s n, s.isWh = true → (s.wh.slices.any fun x => x.num == n) = true → s.rd (Obj.sliceState n) = 0 →
    exec (.sliceAckTimeout n) s = .next (s.slRemove n slTimeout).sendReplica) ∧
  (∀ s n, s.isWh = true → (s.wh.slices.any fun x => x.num == n) = true → s.rd (Obj.sliceState n) = 3 → (s.wh.slices.any fun x => x.num == n && x.forming) = false →
    exec (.sliceAckTimeout n) s = .next (s.slRemove n slOk).sendReplica) ∧
  (∀ s n, s.isWh = true → (s.wh.slices.any fun x => x.num == n && x.forming) = true → exec (.sliceAckTimeout n) s = .next (s.slRemove n slTimeout).sendReplica) ∧
  (∀ (s : State) n r, ∃ u, u = s.sliceChange n 0xFF 0 0 (s.rd (Obj.sliceMembers n)) ∧
    s.slRemove n r = State.slDone (State.wr { u with wh := { u.wh with slices := u.wh.slices.filter fun x => x.num != n } } (Obj.sliceJob n) 0) r) ∧
  (∀ s i u x, Takes s mgSliceAck i u → (u.wh.slices.find? fun x => x.num = i.msg.arg % 256) = some x → u.isWh = true → i.msg.term = u.rd Obj.agentTerm →
    i.msg.gen = u.rd (Obj.sliceGeneration (i.msg.arg % 256)) → bit x.members i.msg.origin = true → bit x.acked i.msg.origin = false →
    u.rd (Obj.sliceState (i.msg.arg % 256)) = 2 → x.forming = true → x.acked + 2 ^ i.msg.origin = x.members →
    ∃ v, v = { u with wh := { u.wh with slices := updFirst (fun y => y.num == i.msg.arg % 256) (fun _ => { x with acked := x.acked + 2 ^ i.msg.origin, forming := false }) u.wh.slices } } ∧
      exec .sliceAck s = .next (v.slDone slOk).sendReplica) ∧
  (∀ s i u r, Takes s mgSlice i u → u.follows i.msg = true → mget u.agent.sliceSt (i.msg.arg % 256) = some (bits i.msg.arg 8 8 + 256 * (i.msg.arg / 65536)) →
    State.mkMsg { u with agent := { u.agent with sliceSt := mput u.agent.sliceSt (i.msg.arg % 256) (bits i.msg.arg 8 8 + 256 * (i.msg.arg / 65536)) } } mgSliceAck i.msg.gen (i.msg.arg % 256) [] = r →
    exec .slice s = .next (r.1.sendBoth i.msg.origin r.2)) ∧
  (∀ s i u v w r, Takes s mgSlice i u → u.follows i.msg = true → mget u.agent.sliceSt (i.msg.arg % 256) ≠ some (bits i.msg.arg 8 8 + 256 * (i.msg.arg / 65536)) → bits i.msg.arg 8 8 ≤ 3 →
    0 < i.msg.arg / 65536 →
    v = { u with agent := { u.agent with sliceSt := mput u.agent.sliceSt (i.msg.arg % 256) (bits i.msg.arg 8 8 + 256 * (i.msg.arg / 65536)) } } →
    w = ((List.range 64).filter fun c => u.rd (Obj.niJob c) == i.msg.arg / 65536 && u.ctxSt c != ctxFree).foldl
      (fun s c => s.sliceNotice c (2 ^ 56 + bits i.msg.arg 8 8 * 2 ^ 48 + i.msg.arg % 256 * 2 ^ 40 + i.msg.gen)) v →
    w.mkMsg mgSliceAck i.msg.gen (i.msg.arg % 256) [] = r → exec .slice s = .next (r.1.sendBoth i.msg.origin r.2)) ∧
  (∀ (s : State) c v, (s.notifyPut c v 0xFFFFFF 1).2.1 ≠ .ok → s.sliceNotice c v = (s.notifyPut c v 0xFFFFFF 1).1.bump Obj.sliceNoticesDropped)

/-! ### Package power (R345 to R363) -/

/-- R345, R347, R349, R351 to R363: a host request is a ceiling or FABRIC, and the cap in force is the least of the limits and never above 2,600 W; PARKED is left by a
release once its cause has cleared. THROTTLE_N and PFAIL_N set the floor latch and count; PFAIL_N also sends the departing report and begins the recorder's flush.
Readings keep telemetry, a regulator fault and a trip act by their die, a millisecond's mean power is kept and the cap followed rises at its rate, VTILE leads a rising
clock, and a stop ends with its target's rails. Rests on the model's choices of log entries 2, 49, 50, 51, 52, 121, 122, 154, 156. -/
def Obligations.PackagePower : Prop :=
  (∀ s w v, isOpCus w = true → v = 0 ∨ (900 ≤ v ∧ v ≤ 2600) → Accepted w (.hostPowerRequest w v) s (s.wr Obj.hostPowerRequest v).applyOrders.starting) ∧
  (∀ s w v, isOpCus w = true → v ≠ 0 → v < 900 ∨ 2600 < v → Denied w (.hostPowerRequest w v) s rOutOfRange) ∧
  (∀ s : State, s.effCap ≤ 2600 ∧ (∀ l ∈ s.limits, s.effCap ≤ l.2) ∧ (s.effCap = 2600 ∨ ∃ l ∈ s.limits, s.effCap = l.2)) ∧
  (∀ s w, isOpCus w = true → s.rd Obj.pkgPowerState = pwrParked → s.parkCleared = true → ∃ u, Accepted w (.parkRelease w 1) s u ∧ u.rd Obj.pkgPowerState = pwrOff ∧
    u.steward.parkOrder = false ∧ u.steward.parkWhy = [] ∧ u.mem = s.mem) ∧
  (∀ s w v, isOpCus w = true → s.parkCleared = false → Denied w (.parkRelease w v) s rRefused) ∧
  (∀ (s : State), s.rd Obj.trayStatus % 4 ≠ 0 → s.parkCleared = false) ∧ (∀ (s : State), s.steward.parkWhy.contains pkHub = true → bit (s.rd Obj.trayStatus) 3 = true → s.parkCleared = false) ∧
  (∀ s w v, isOpCus w = true → s.rd Obj.pkgPowerState ≠ pwrParked → Denied w (.parkRelease w v) s rRefused) ∧
  (∀ s, s.boot.throttleN = true → exec .throttleAssert s = .next (State.setFloor { s with boot := { s.boot with throttleN := false } } 1)) ∧
  (∀ s, s.boot.throttleN = false → Idles .throttleAssert s) ∧
  (∀ (s : State) c, s.isWh = false → s.rd Obj.agentState = agStarting → (s.setFloor c).rd Obj.floorLatched = 1 ∧ (s.setFloor c).rd Obj.throttleEvents = (s.rd Obj.throttleEvents + 1) % 2 ^ 64 ∧
    ∀ d, d < 4 → (s.setFloor c).rd (Obj.tileClockMhz d) ≤ 600) ∧
  (∀ s, exec .throttleDeassert s = .next { s with boot := { s.boot with throttleN := true } }) ∧
  (∀ s, s.boot.throttleN = true → s.rd Obj.agentWellhead = 0xFF → exec .floorLatchTimeout s = .next (s.wr Obj.floorLatched 0).recap) ∧
  (∀ s, s.boot.throttleN = false → Idles .floorLatchTimeout s) ∧
  (∀ s, s.boot.pfailN = true → exec .pfailAssert s = .next (((State.setFloor (State.bump { s with
    boot := { s.boot with pfailN := false }, steward := { s.steward with pfailPend := true } } Obj.pfailEvents) 2).sendReport true).startFlush 1)) ∧
  (∀ s, exec .pfailDeassert s = .next { s with boot := { s.boot with pfailN := true } }) ∧
  (∀ s, s.steward.pfailPend = true → s.boot.pfailN = true → s.steward.railBad = [] →
    exec .pfailClearTimer s = .next (State.stop { s with steward := { s.steward with pfailPend := false } } pwrFabric)) ∧
  (∀ s, s.boot.trayPresN = false → exec .trayPresDeassert s = .next ((State.sendReport (State.event { s with boot := { s.boot with trayPresN := true } }
    0x5005 0x14 (State.trayOf s.pos) noCtx 0 0 0) true).startFlush 2)) ∧
  (∀ s, ∃ t, exec (.pmbusAlert true) s = .next t ∧ t.boot = { s.boot with pmbusAlertN := false } ∧ t.mem = s.mem ∧ t.reg = s.reg) ∧
  (∀ s, exec (.pmbusAlert false) s = .next { s with boot := { s.boot with pmbusAlertN := true } }) ∧
  (∀ s rail st, rail < 16 → s.steward.railBad.contains rail = true → (s.rd Obj.pkgPowerState = pwrStarting → s.boot.step = 0x30) → exec (.regulatorFault rail st) s = .next (s.park pkRail)) ∧
  (∀ s rail st, rail < 16 → s.steward.railBad.contains rail = false → s.rd Obj.pkgPowerState ≠ pwrStarting →
    exec (.regulatorFault rail st) s = .next (State.park { s.event 0x5003 0x0F rail noCtx st 0 0 with steward := { s.steward with railBad := s.steward.railBad ++ [rail] } } pkRail)) ∧
  (∀ s, s.rd Obj.pkgPowerState = pwrStopping → s.substRuns = false → exec .stopComplete s = .next s.stopDone) ∧
  (∀ s, s.substRuns = true → s.rd Obj.pkgPowerState = pwrStopping → Idles .stopComplete s) ∧
  (∀ s, s.rd Obj.pkgPowerState ≠ pwrStopping → (s.rd Obj.pkgPowerState = pwrFabric → s.steward.parkOrder = false) → Idles .stopComplete s) ∧
  (∀ s, s.rd Obj.pkgPowerState = pwrFabric → s.steward.parkOrder = true → exec .stopComplete s = .next (s.fabricDown pwrParked)) ∧
  (∀ s r, s.rd Obj.pkgPowerState = pwrOff → s.steward.parkOrder = false → s.boot.step = 2 → s.hasRef = true → exec (.fabricStartTimer r) s = .next (s.fabricStep r)) ∧
  (∀ s r, s.rd Obj.pkgPowerState = pwrOff → s.steward.parkOrder = false → s.boot.step = 2 → s.hasRef = false →
    exec (.fabricStartTimer r) s = .next { s with boot := { s.boot with held := true } }) ∧
  (∀ s rails temps v u, v = rails.foldl (fun (s : State) r => s.takeRail r) s → u = ((v.dieTemps temps).foldl (fun (s : State) t => s.takeTemp t.1 t.2) v).thermalClear →
    exec (.avsTelemetryPoll rails temps) s = .next (State.control { u with
      steward := { u.steward with pwrSum := u.steward.pwrSum + u.powerMw, pwrN := u.steward.pwrN + 1, polls := (u.powerMw :: u.steward.polls).take 5 } })) ∧
  (∀ (s : State), s.rd Obj.pkgPowerState = pwrOn → s.rd Obj.floorLatched ≠ 1 → s.control = (if s.wantClock < s.commonClock then s.lowerClocks s.wantClock else s.raiseClocks s.wantClock)) ∧
  (∀ (s : State), (s.overPower = true → s.wantClock ≤ max 600 (s.commonClock - 25)) ∧ (1000 * s.steward.ramp < s.powerMw → s.wantClock ≤ max 600 s.commonClock) ∧
    s.wantClock ≤ s.topClock) ∧
  (∀ (s : State), s.topClock = 600 ∨ (Config.powerAt s.steward.railMw s.topClock ≤ 1000 * s.steward.ramp ∧ (∀ d, d < 4 → Config.ampsAt s.steward.railMw d s.topClock ≤ 7000))) ∧
  (∀ (s : State) (r : RailRead), r.rail < 16 → r.answered = true → r.inTol = true → r.status = 0 → (s.takeRail r).rdo (Obj.railTelemetry r.rail) = railBytes r ∧
    r.rail ∉ (s.takeRail r).steward.railBad) ∧
  (∀ s, ∃ t, exec (.pmbusPoll []) s = .next t ∧ t.rd Obj.pkgPowerW = (if s.steward.pwrN = 0 then s.powerMw else s.steward.pwrSum / s.steward.pwrN) / 1000 ∧
    t.steward.ramp = min s.effCap (if s.rd Obj.floorLatched = 1 then s.steward.ramp else s.steward.ramp + s.rd Obj.riseRateWPerMs) ∧ t.steward.pwrN = 0) ∧
  (∀ s die c v, mget s.steward.raising die = some c → die < 4 → s.rd Obj.pkgPowerState = pwrOn → s.hot die = false →
    v = { s with steward := { s.steward with raising := mdel s.steward.raising die } } → exec (.vtileReached die) s = .next (State.setClock v die c)) ∧
  (∀ s die c, mget s.steward.raising die = some c → s.hot die = true → exec (.vtileReached die) s = .next { s with steward := { s.steward with raising := mdel s.steward.raising die } }) ∧
  (∀ s die, mget s.steward.raising die = none → Idles (.vtileReached die) s) ∧
  (∀ s die v, die < 4 → mget s.steward.temps die = some v → controlPoint die < v → s.rd Obj.pkgPowerState = pwrOn →
    exec (.thermalStep die) s = .next (State.lowerClock { s with steward := { s.steward with thermalSteps := mput s.steward.thermalSteps die (min 36 (s.stepsOff die + 1)) } } die
      (max 600 (s.rd (Obj.tileClockMhz die) - 25)))) ∧
  (∀ (s : State) die mhz, s.lowerClock die mhz = (State.setClock { s with steward := { s.steward with raising := mdel s.steward.raising die } } die mhz).emit (.avs die mhz) ∧
    s.raiseClock die mhz = State.emit { s with steward := { s.steward with raising := mput s.steward.raising die mhz } } (.avs die mhz)) ∧
  (∀ s v, 10500 ≤ v → exec (.thermalTrip 5 v) s = .next { s.event 0x5002 0x10 5 noCtx v 0 0 with steward := { s.steward with temps := mput s.steward.temps 5 ((v / 100 : Nat) : Int) } }) ∧
  (∀ s die v, 6 ≤ die → die ≤ 9 → 9000 ≤ v →
    exec (.thermalTrip die v) s = .next (State.park { s.event 0x5002 0x10 die noCtx v 0 0 with steward := { s.steward with temps := mput s.steward.temps die ((v / 100 : Nat) : Int) } } pkTrip)) ∧
  (∀ s v, 10000 ≤ v → exec (.thermalTrip 42 v) s = .next { s.event 0x5002 0x10 42 noCtx v 0 0 with steward := { s.steward with temps := mput s.steward.temps 42 ((v / 100 : Nat) : Int) } }) ∧
  (∀ s die v, 43 ≤ die → Idles (.thermalTrip die v) s) ∧
  (∀ s die v, 10 ≤ die → die < 42 → 11000 ≤ v → exec (.thermalTrip die v) s = .next (State.applyOrders { s.event 0x5002 0x10 die noCtx v 0 0 with
    steward := { s.steward with temps := mput s.steward.temps die ((v / 100 : Nat) : Int), thermalFabric := true } }))

/-! ### The catchment steward and the trays (R364 to R379) -/

/-- R329, R360, R364 to R374, R376 to R379: a package takes a CAP_TABLE of the term and of a higher sequence, and SAFETY likewise; the Wellhead sends caps at its
interval, starts one tray at a time, polls its equipment and counts what does not answer; low flow caps at its timer and parks at its second, a hub that cannot be read
parks its tray, an ORPHAN package is capped at 1,600 W, and a sensor far below its model becomes SUSPECT and is released again. Rests on the model's choices of log
entries 2, 44, 48, 53, 116, 129, 152, 153. -/
def Obligations.RackSteward : Prop :=
  (∀ s, s.isWh = true → exec .capTableInterval s = .next s.sendCaps) ∧
  (∀ s, s.isWh = false → Idles .capTableInterval s) ∧
  (∀ s i u, Takes s mgCapTable i u → u.follows i.msg = true → exec .capTable s = .next (u.takeCaps i.msg.gen i.msg.arg i.msg.payload)) ∧
  (∀ s i u, Takes s mgCapTable i u → u.follows i.msg = false → exec .capTable s = .next u) ∧
  (∀ (s : State) q a t, q ≤ s.rd Obj.capSequence → s.takeCaps q a t = s) ∧
  (∀ (s : State) q a t, s.rd Obj.capSequence < q → bit a 0 = false → 900 ≤ leAt t (2 * s.pos) 2 → leAt t (2 * s.pos) 2 ≤ 2600 → s.takeCaps q a t =
    (State.applyOrders { s.wr Obj.capSequence q with steward := { s.steward with
      orphanCap := none, cduSupply := a / 65536 % 65536, granted := true, fabricOrder := false, stewardCap := leAt t (2 * s.pos) 2 } }).starting) ∧
  (∀ s, s.isWh = true → exec .trayStartInterval s = .next s.startTray) ∧
  (∀ (s : State), (∀ q, q < 64 → s.candidate q = false) → s.startTray = s) ∧
  (∀ s, exec .powerReportInterval s = .next s.sendPower) ∧
  (∀ s i u r, Takes s mgPowerReport i u → u.isWh = false →
    r = (⟨i.msg.origin, leAt i.msg.payload 0 2, leAt i.msg.payload 2 2, leAt i.msg.payload 4 2, byteAt i.msg.payload 6, byteAt i.msg.payload 7⟩ : PowerRep) →
    exec .powerReport s = .next { u with steward := { u.steward with reports := upsert (fun (x : PowerRep) => x.pos) r u.steward.reports } }) ∧
  (∀ s i u, Takes s mgSafety i u → u.follows i.msg = true →
    exec .safety s = .next (u.takeSafety i.msg.gen (leAt i.msg.payload 0 2) (leAt i.msg.payload 2 2) (byteAt i.msg.payload 4))) ∧
  (∀ (s : State) q p l x, s.steward.safetyRx < q → bit p (State.trayOf s.pos) = true →
    ∃ u, u = State.recap { s with steward := { s.steward with safetyRx := q, lowFlowWh := bit l (State.trayOf s.pos) } } ∧
      s.takeSafety q p l x = (if x = 3 then (u.park pkLeak).park pkHub else u.park pkFlow)) ∧
  (∀ (s : State) g b q, s.startsNow q = true → levelSum ((g.filter fun q => !s.startsNow q).map s.want) 900 + s.rd Obj.startGrantW * (g.filter s.startsNow).length ≤ b →
    (s.capsFor g b).2 q = s.rd Obj.startGrantW) ∧
  (∀ (s : State) k e p, e = s.rdo (Obj.equipment k) → p = (if leAt e 18 2 = 0 then 502 else leAt e 18 2) →
    s.pollEq k = (((s.setEq k { s.eqOf k with waiting := true }).emit (.modbus (e.take 16) p (byteAt e 16) (byteAt e 20) (leAt e 22 2))).emit
      (.modbus (e.take 16) p (byteAt e 16) (byteAt e 20) (leAt e 24 2))).emit (.modbus (e.take 16) p (byteAt e 16) (byteAt e 20) (leAt e 26 2))) ∧
  (∀ s t, s.isWh = true → s.steward.pumpLoss = true → s.parkable = [t] → exec .pumpParkTimer s = .next (s.parkTray t 1)) ∧
  (∀ s, s.steward.pumpLoss = false → Idles .pumpParkTimer s) ∧
  (∀ s k, s.isWh = true → s.usedEq.contains k = true → exec (.equipmentPoll k) s = .next (s.pollEq k)) ∧
  (∀ s k, s.isWh = false → Idles (.equipmentPoll k) s) ∧
  (∀ s k st b c, s.isWh = true → (s.eqOf k).waiting = true → s.usedEq.contains k = true → exec (.equipmentResponse k st b c) s = .next (s.eqAnswer k st b c)) ∧
  (∀ s k, s.isWh = true → (s.eqOf k).waiting = true → s.usedEq.contains k = true → exec (.pollTimeout k) s = .next (s.eqMiss k)) ∧
  (∀ s k, (s.eqOf k).waiting = false → Idles (.pollTimeout k) s) ∧
  (∀ ohm, (50000 < ohm → loopClassOf ohm = 2) ∧ (3000 ≤ ohm → ohm ≤ 50000 → loopClassOf ohm = 0) ∧ (200 ≤ ohm → ohm < 3000 → loopClassOf ohm = 1) ∧ (ohm < 200 → loopClassOf ohm = 2)) ∧
  (∀ s h, s.steward.lead = true → exec (.hubRead h) s = .next (s.hub h)) ∧
  (∀ s h, s.steward.lead = false → Idles (.hubRead h) s) ∧
  (∀ s i u, Takes s mgTrayAlarm i u → i.msg.arg % 256 = State.trayOf u.pos → u.isWh = false → exec .trayAlarm s = .next (u.alarmed (i.msg.arg / 256 % 256))) ∧
  (∀ (s : State), s.alarmed 1 = s.park pkLeak ∧ s.alarmed 2 = s.park pkLeak ∧ s.alarmed 5 = s.park pkHub ∧ s.alarmed 3 = { s with steward := { s.steward with lowFlowSaid := true } }) ∧
  (∀ s i u, Takes s mgTraySensors i u → u.isWh = false → i.msg.arg % 256 ≠ State.trayOf u.pos → exec .traySensors s = .next u) ∧
  (∀ s i u, Takes s mgTraySensors i u → u.isWh = false → i.msg.arg % 256 = State.trayOf u.pos → ∃ t, exec .traySensors s = .next t ∧
    t.rd (Obj.flowClpm 0) = leAt i.msg.payload 4 2 ∧ t.rd (Obj.flowClpm 1) = leAt i.msg.payload 6 2 ∧ t.steward.inlet = leAt i.msg.payload 0 2 ∧
    t.steward.outlet = leAt i.msg.payload 2 2 ∧ t.steward.leadCol = i.msg.origin % 4 ∧ t.mem = s.mem) ∧
  (∀ s, s.steward.lead = true → bit (s.rd Obj.trayStatus) 3 = false → exec .hubUnreadableTimeout s = .next ((s.setTray 3 true).sendSensors.raiseAlarm 5)) ∧
  (∀ s, s.pos % 4 = (s.steward.leadCol + 1) % 4 → exec .leadHandoff s = .next ((State.setTray { s with steward := { s.steward with
    leadCol := (s.steward.leadCol + 1) % 4, lead := true } } 4 true).emit (.hub 1))) ∧
  (∀ s, s.steward.lowFlowSaid = true → exec .lowFlowCapTimer s = .next (State.recap { s with steward := { s.steward with lowFlowTray := true } })) ∧
  (∀ (s : State), s.steward.lowFlowTray = true → s.effCap ≤ 1040) ∧
  (∀ s, s.steward.lowFlowSaid = true → exec .lowFlowParkTimer s = .next (s.park pkFlow)) ∧
  (∀ s, s.steward.lowFlowSaid = false → Idles .lowFlowParkTimer s ∧ Idles .lowFlowCapTimer s) ∧
  (∀ s, s.steward.lead = true → bit (s.rd Obj.trayStatus) 2 = true → 110 * s.rd Obj.flowMinClpm ≤ 100 * s.rd (Obj.flowClpm 1) →
    exec .lowFlowExitTimer s = .next ((s.setTray 2 false).raiseAlarm 4)) ∧
  (∀ s, s.rd Obj.agentState = agOrphan → exec .orphanCapTimer s = .next (State.recap { s with steward := { s.steward with
    orphanCap := some (if s.steward.granted then min s.steward.stewardCap 1600 else 1600) } })) ∧
  (∀ s n (r m : Int), m = s.sensorModel n → r < m - 1500 → s.steward.suspect.contains n = false →
    exec (.sensorSuspectTimer n r) s = .next ((State.wr { s with steward := { s.steward with suspect := s.steward.suspect ++ [n] } } Obj.sensorsSuspect
      (s.steward.suspect.length + 1)).event 0x5004 0x10 n noCtx (ofInt 64 r) (ofInt 64 m) 0)) ∧
  (∀ s n (r m : Int), m = s.sensorModel n → m - 500 ≤ r → s.steward.suspect.contains n = true →
    exec (.sensorSuspectTimer n r) s = .next (State.wr { s with steward := { s.steward with suspect := s.steward.suspect.filter fun (x : Nat) => x != n } } Obj.sensorsSuspect
      (s.steward.suspect.filter fun (x : Nat) => x != n).length)) ∧
  (∀ s n (r m : Int), m = s.sensorModel n → m - 1500 ≤ r → r < m - 500 → Idles (.sensorSuspectTimer n r) s) ∧
  (∀ (s : State) l (t : SensorRead), s.steward.suspect.contains t.sensor = false → s.sensorUsed l t = t.temp) ∧
  (∀ (s : State) l (t : SensorRead), s.sensorModel t.sensor < t.temp → s.sensorUsed l t = t.temp) ∧
  (∀ (s : State) l (t : SensorRead), s.steward.suspect.contains t.sensor = true → t.temp ≤ s.sensorModel t.sensor → s.sensorModel t.sensor ≤ s.sensorUsed l t ∧
    ∀ x ∈ neighbours t.sensor l, x.temp ≤ s.sensorUsed l t)

/-! ### Trust: keys, records, reports and SPDM (R407, R412 to R430, R444) -/

/-- R291, R299, R301, R407, R413, R414, R419 to R430: a security command ends with its result in `sc_status`: KEYGEN and IMPORT load an EMPTY slot as RX_ONLY under a
higher epoch, ACTIVATE waits for its time, at which its slot becomes the transmit slot. An authority record that is acceptable is stored and pends, a tenant image key in
use is not replaced, a failed health test is latched, and reports are made at once and seen by their session alone. Rests on the model's choices of log entries 2, 56, 57,
58, 59, 60, 88, 128. -/
def Obligations.TrustCommands : Prop :=
  (∀ s w c b, ScTakes s w c 1 b → Accepted w (.keygen w c b) s (s.scStart c b)) ∧
  (∀ s w c b, ScTakes s w c 2 b → Accepted w (.import_ w c b) s (s.scStart c b)) ∧
  (∀ s w c b, ScTakes s w c 4 b → Accepted w (.unseal w c b) s (s.scStart c b)) ∧
  (∀ (s : State) c b, (byteAt b 0 = 1 → s.scPerform c b = s.keygen c b) ∧ (byteAt b 0 = 2 → s.scPerform c b = s.importKey c b) ∧ (byteAt b 0 = 4 → s.scPerform c b = s.unsealCmd c b)) ∧
  (∀ (s : State) c b r, s.scPerform c b = r → r.2 ≠ scHeld →
    s.scStart c b = State.wr { r.1 with sec := { r.1.sec with scRuns := mput r.1.sec.scRuns c ⟨b, some r.2⟩ } } (Obj.scStatus c) 0x0100) ∧
  (∀ (s : State) c b r, s.scPerform c b = r → r.2 = scHeld → s.scStart c b = State.wr { s with sec := { s.sec with scRuns := mput s.sec.scRuns c ⟨b, none⟩ } } (Obj.scStatus c) 0x0100) ∧
  (∀ (s : State) c b k, s.sec.scRuns = [(c, ⟨b, some k⟩)] → s.scFinish = State.wr { s with sec := { s.sec with scRuns := [] } } (Obj.scStatus c) (0x0200 + k)) ∧
  (∀ (s : State) c b, s.sec.scRuns = [(c, ⟨b, none⟩)] → s.scFinish = s.scStart c b) ∧
  (∀ s w c b, byteAt b 0 = 1 → (isCus w || isTenant w c) = true → s.sbUnowned w.session = false → c < 64 → b.length = 64 → s.rd (Obj.scStatus c) / 256 = 1 →
    Denied w (.keygen w c b) s rRefused) ∧
  (∀ s w c b k, ScTakes s w c 3 b → allZero (slice b 1 7) = true → allZero (slice b 16 8) = true → allZero (slice b 28 36) = true →
    ((List.range 4).find? fun k => s.slotSt c k == slotRxOnly && mgetD s.sec.slotEpochs (4 * c + k) 0 == leAt b 24 4) = some k → s.rd Obj.ptpState = 1 →
    s.rd Obj.ptpOffsetAbsNs ≤ 20000 → s.pkgTime + 1000000 ≤ leAt b 8 8 → leAt b 8 8 ≤ s.pkgTime + 10000000000 →
    Accepted w (.activate w c b) s ((State.wr { s with sec := { s.sec with actSlot := mput s.sec.actSlot c k } } (Obj.activatePending c) (leAt b 8 8)).wr (Obj.scStatus c) 0x0200)) ∧
  (∀ (s : State) c b, 1 ≤ byteAt b 1 → byteAt b 1 ≤ 63 → allZero (slice b 2 6) = true → allZero (slice b 28 36) = true → scBadAddr (leAt b 8 8) = false → scBadAddr (leAt b 16 8) = false →
    s.rd (Obj.niJob c) ≠ 0 → leAt b 24 4 ≤ s.rd (Obj.keyEpochHigh c) → s.keygen c b = (s, scStale)) ∧
  (∀ (s : State) c k e key, k < 4 → (s.rdo (Obj.keySlotState c)).length = 4 → ((s.loadKey c k e key).rd (Obj.keyEpochHigh c) = e ∧ mget (s.loadKey c k e key).sec.slotKeys (4 * c + k) = some key ∧
    (s.loadKey c k e key).slotSt c k = slotRxOnly)) ∧
  (∀ s c k, c < 64 → s.rd (Obj.activatePending c) ≠ 0 → s.rd (Obj.activatePending c) ≤ s.pkgTime → mget s.sec.actSlot c = some k →
    exec (.keyActivationTime c) s = .next (((State.switchSlot { s with sec := { s.sec with actSlot := mdel s.sec.actSlot c } } c k).wr (Obj.activatePending c) 0).event
      0x6802 0x0D c c (mgetD s.sec.slotEpochs (4 * c + k) 0) 1 0)) ∧
  (∀ s c, s.pkgTime < s.rd (Obj.activatePending c) → Idles (.keyActivationTime c) s) ∧
  (∀ s, s.rd Obj.rngHealth ≠ 1 → exec .rngHealthFail s = .next ((s.wr Obj.rngHealth 1).event 0x6801 0x00 0 noCtx 0 0 0)) ∧
  (∀ s, s.rd Obj.rngHealth = 1 → Idles .rngHealthFail s) ∧
  (∀ s w v r, isCus w = true → v.length = 320 → s.arOk v = true → s.storeOct w Obj.authorityRecord v = r →
    Kept w (.authorityRecordWrite w v) s (State.wr { r.1 with sec := { r.1.sec with arStored := v } } Obj.authorityPending (if allZero (arOwner v) = true then 0 else arMode v))) ∧
  (∀ s w v, isCus w = true → v.length = 320 → s.arOk v = false → Denied w (.authorityRecordWrite w v) s rRefused) ∧
  (∀ s w v, isCus w = false → s.unowned = false → Denied w (.authorityRecordWrite w v) s rNoAccess) ∧
  (∀ s w k v r, isOpCus w = true → s.sbUnowned w.session = false → k < 8 → v.length = 64 → (∀ c, c < 64 → s.ctxSt c = ctxFree ∨ mget s.ctxs.imageKey c ≠ some k) →
    s.storeOct w (Obj.tenantImageKey k) v = r → Kept w (.tenantImageKeyWrite w k v) s r.1) ∧
  (∀ s w k v c, isOpCus w = true → s.sbUnowned w.session = false → k < 8 → v.length = 64 → c < 64 → s.ctxSt c ≠ ctxFree → mget s.ctxs.imageKey c = some k →
    Denied w (.tenantImageKeyWrite w k v) s rRefused) ∧
  (∀ s w n x, 1 ≤ w.role → w.role ≤ 4 → n.length = 32 → s.session? w.session = some x →
    Accepted w (.pkgAttestRequest w n) s ((s.setSession { x with pkgStatus := 0x0100 }).attestAsk (.pkg w.session n))) ∧
  (∀ s w c v, (isOpCus w || isTenant w c) = true → c < 64 → v.length = 48 → (s.sec.attest.filter fun r => match r with | .ctx k _ => k == c | _ => false).length < 4 →
    Accepted w (.ctxAttestRequest w c v) s ((s.attestAsk (.ctx c v)).wr (Obj.ctxAttestStatus c) 0x0100)) ∧
  (∀ s w c v, (isOpCus w || isTenant w c) = true → c < 64 → v.length = 48 → 4 ≤ (s.sec.attest.filter fun r => match r with | .ctx k _ => k == c | _ => false).length →
    Denied w (.ctxAttestRequest w c v) s rRefused) ∧
  (∀ (s : State) r, s.attestAsk r = { s with sec := { s.sec with attest := s.sec.attest ++ [r] } }) ∧
  (∀ (s : State) sid n x rest u, s.sec.attest = .pkg sid n :: rest → s.session? sid = some x → s.hasIdentity = true →
    u = (s.setSession { x with pkgReport := s.report none n, pkgStatus := 0x0200 }).bump Obj.attestRequests → s.attestServe = { u with sec := { u.sec with attest := rest } }) ∧
  (∀ (s : State) sid n x rest u, s.sec.attest = .pkg sid n :: rest → s.session? sid = some x → s.hasIdentity = false → u = s.setSession { x with pkgStatus := 0x0204 } →
    s.attestServe = { u with sec := { u.sec with attest := rest } }) ∧
  (∀ (s : State) c v rest r, s.sec.attest = .ctx c v :: rest → allZero (slice v 40 8) = true → s.ctxSt c ≠ ctxFree → s.hasIdentity = true →
    s.scWrite c (leAt v 32 8) (s.report (some c) (v.take 32)) = r →
    ((scBadAddr (leAt v 32 8) = true ∨ (s.check c .te permWrite (teLoc c (leAt v 32 8)) (s.report (some c) (v.take 32)).length).isSome = true) →
      ∃ u, u = s.wr (Obj.ctxAttestStatus c) 0x0203 ∧ s.attestServe = { u with sec := { u.sec with attest := rest } }) ∧
    (scBadAddr (leAt v 32 8) = false → (s.check c .te permWrite (teLoc c (leAt v 32 8)) (s.report (some c) (v.take 32)).length).isSome = false → r.2 = scOk →
      ∃ u, u = (r.1.bump Obj.attestRequests).wr (Obj.ctxAttestStatus c) 0x0200 ∧ s.attestServe = { u with sec := { u.sec with attest := rest } }))

/-- R407, R410, R429, R444: a session answers one SPDM message at a time, in version 1.3 alone, with its certificate chain, challenge and measurements under the Alias
key; another version and another request are answered with their errors. Rests on the model's choices of log entries 60, 78. -/
def Obligations.SpdmMessages : Prop :=
  (∀ s f m u x, s.frameIn f ntSpdm m = (u, some x) → x.st = SessState.opened → x.role ≠ roleSteward → x.spdm = none → exec (.spdm f m) s = .next (u.setSession { x with spdm := some m })) ∧
  (∀ s f m u x, s.frameIn f ntSpdm m = (u, some x) → x.st = SessState.opened → x.role ≠ roleSteward → x.spdm.isSome = true → exec (.spdm f m) s = .next u) ∧
  (∀ s sid x m u, Speaks s sid 0x84 x m u → exec (.getVersion sid) s = .next ((u.setSession { x with
    spdmVca := m ++ [0x10, 0x04, 0, 0, 0, 1, 0, 0x13], spdmCert := [], spdmMeas := [] }).frameOut sid (.spdm [0x10, 0x04, 0, 0, 0, 1, 0, 0x13]))) ∧
  (∀ s sid x m u r, Speaks s sid 0xE1 x m u → r = bytesOf [[0x13, 0x61, 0, 0, 0, 15, 0, 0], leBytes 4 0x16, leBytes 4 1200, leBytes 4 1200] →
    exec (.getCapabilities sid) s = .next ((u.setSession { x with spdmVca := x.spdmVca ++ m ++ r }).frameOut sid (.spdm r))) ∧
  (∀ s sid x m u r, Speaks s sid 0xE3 x m u →
    r = bytesOf [[0x13, 0x63, 0, 0], leBytes 2 36, [1, 0], leBytes 4 2, leBytes 4 (leAt m 8 4 &&& 0x10), leBytes 4 (leAt m 12 4 &&& 1), zeros 16] →
    exec (.negotiateAlgorithms sid) s = .next ((u.setSession { x with spdmVca := x.spdmVca ++ m ++ r }).frameOut sid (.spdm r))) ∧
  (∀ s sid x m u r, Speaks s sid 0x81 x m u → r = [0x13, 0x01, 1, 1] ++ fit 32 (sha256 s.spdmChain) →
    exec (.getDigests sid) s = .next ((u.setSession { x with spdmCert := x.spdmCert ++ m ++ r }).frameOut sid (.spdm r))) ∧
  (∀ s sid x m u p r, Speaks s sid 0x82 x m u → byteAt m 2 = 0 → leAt m 4 2 < s.spdmChain.length → p = (s.spdmChain.drop (leAt m 4 2)).take (min (leAt m 6 2) 1184) →
    r = bytesOf [[0x13, 0x02, 0, 0], leBytes 2 p.length, leBytes 2 (s.spdmChain.length - leAt m 4 2 - p.length), p] →
    exec (.getCertificate sid) s = .next ((u.setSession { x with spdmCert := x.spdmCert ++ m ++ r }).frameOut sid (.spdm r))) ∧
  (∀ s sid x m u, Speaks s sid 0x82 x m u → byteAt m 2 ≠ 0 → exec (.getCertificate sid) s = .next (u.frameOut sid (.spdm (spdmErr seInvalid)))) ∧
  (∀ s sid x m u n r, Speaks s sid 0x83 x m u → byteAt m 2 = 0 → byteAt m 3 = 0 → 44 ≤ m.length → s.rd Obj.rngHealth = 0 → u.random 32 = n →
    r = bytesOf [[0x13, 0x03, 0, 1], fit 32 (sha256 s.spdmChain), fit 32 n.1, [], [0, 0], slice m 36 8] → ∃ sig,
    exec (.challenge sid) s = .next ((n.2.setSession { x with spdmCert := [] }).frameOut sid (.spdm (r ++ sig))) ∧
    sig = s.spdmSign txtChallenge (x.spdmVca ++ x.spdmCert ++ m ++ r)) ∧
  (∀ s sid x m u n r, Speaks s sid 0xE0 x m u → bit (byteAt m 2) 0 = false → byteAt m 3 = 0 → s.rd Obj.rngHealth = 0 → u.random 32 = n →
    r = bytesOf [[0x13, 0x60], leBytes 1 s.spdmBlocks.length, [0], leBytes 1 0, leBytes 3 0, [], fit 32 n.1, [0, 0], slice m 4 8] →
    exec (.getMeasurements sid) s = .next ((n.2.setSession { x with spdmMeas := x.spdmMeas ++ m ++ r }).frameOut sid (.spdm r))) ∧
  (∀ s sid x m, s.session? sid = some x → x.spdm = some m → spdmKnown (byteAt m 1) = false → exec (.spdmUnsupported sid) s =
    .next ((s.setSession { x with spdm := none }).frameOut sid (.spdm [0x13, 0x7F, 0x07, BitVec.ofNat 8 (byteAt m 1)]))) ∧
  (∀ s sid x m, s.session? sid = some x → x.spdm = some m → byteAt m 1 = 0xE1 → byteAt m 0 ≠ 0x13 → exec (.getCapabilities sid) s =
    .next ((s.setSession { x with spdm := none }).frameOut sid (.spdm [0x13, 0x7F, 0x41, 0])))

/-! ### Sessions and the management path (R415 to R417, R431 to R441, R447) -/

/-- R415 to R417, R431, R432, R434 to R441, R447: an OPEN_REQ opens a session or is refused with its code, a proof of its segments opens it or frees it, and a time
without a proof, an idle expiry, a CLOSE, a write and a changed key close it. A KEEPALIVE is answered, a repeated request answered from what was kept, a frame that fails
its checks discarded and counted; agent traffic keeps to Steward sessions and group keys; ports follow their links, and what waits for FL is answered when it lies there.
Rests on the model's choices of log entries 2, 6, 60, 75, 76, 77, 124, 149, 157, 158. -/
def Obligations.ManagementSessions : Prop :=
  (∀ s p f b, p < 3 → s.nxfUp = true → s.portRuns p = true → f.dport = udpNxf → f.legal b.length = true → f.session = 0 → f.typ = ntOpenReq → b.length = 100 →
    s.openVerdict p f.peer b = 0 → exec (.openReq p f b) s = .next (s.openSession p f b)) ∧
  (∀ s p f b v, p < 3 → s.nxfUp = true → s.portRuns p = true → f.dport = udpNxf → f.legal b.length = true → f.session = 0 → f.typ = ntOpenReq → b.length = 100 →
    s.openVerdict p f.peer b = v → v ≠ 0 →
    exec (.openReq p f b) s = .next ((s.refuseOpen 0 v (byteAt b 96)).emit (.nxf p f.addr f.sport (nxHeader ntOpenResp 0 1 168 ++ (leBytes 1 v ++ zeros 167))))) ∧
  (∀ s p f b, p < 3 → s.nxfUp = true → s.portRuns p = true → f.dport = udpNxf → f.legal b.length = false ∨ f.session ≠ 0 ∨ b.length ≠ 100 →
    exec (.openReq p f b) s = .next (s.bump Obj.nxfFramesBad)) ∧
  (∀ s p f b, s.portRuns p = false ∨ f.dport ≠ udpNxf → Idles (.openReq p f b) s) ∧
  (∀ (s : State) f typ b x y, f.dport = udpNxf → f.legal b.length = true → f.typ = typ → s.sessFor f = some x → s.carries x = true → f.tagOk x.rxKey b = true → x.win.accepts f.seq = true →
    y = { x with win := x.win.take f.seq, addr := f.addr, udp := f.sport } → s.frameIn f typ b = (s.setSession y, some y)) ∧
  (∀ (s : State) f typ b x, f.dport = udpNxf → f.legal b.length = true → f.typ = typ → s.sessFor f = some x → s.carries x = true → f.tagOk x.rxKey b = true → x.win.accepts f.seq = false →
    s.frameIn f typ b = (s.bump Obj.nxfReplayDrop, none)) ∧
  (∀ (s : State) f typ b, f.dport = udpNxf → f.legal b.length = false → s.frameIn f typ b = (s.bump Obj.nxfFramesBad, none)) ∧
  (∀ (s : State) id x b, s.session? id = some x → s.carries x = true →
    s.frameOut id b = (s.setSession { x with txSeq := x.txSeq + 1 }).emit (.nxf x.port x.addr x.udp (nxSeal x.txKey b.typ x.peerId (x.txSeq + 1) b.bytes))) ∧
  (∀ (s : State) id x b, s.session? id = some x → s.carries x = false → s.frameOut id b = s) ∧
  (∀ s f b u x, s.frameIn f ntProve b = (u, some x) → x.st = SessState.proving → x.weOpened = false → exec (.prove f b) s = .next (u.takeSeg x b)) ∧
  (∀ (s : State) x p v, v ≠ 0 → s.proveDone x p v = ((s.refuseOpen x.id v x.role).frameOut x.id (.proveResp v 0)).closeSession x.id none) ∧
  (∀ s sid x, s.session? sid = some x → x.st = SessState.proving → exec (.proveTimeout sid) s = .next (s.closeSession sid none)) ∧
  (∀ s sid x, s.session? sid = some x → x.st = SessState.opened → exec (.sessionIdleExpiry sid) s = .next (s.closeSession sid (some 1))) ∧
  (∀ s f u x, s.frameIn f ntClose [] = (u, some x) → exec (.close f) s = .next (u.closeSession x.id none)) ∧
  (∀ s w sid x, isCus w = true → s.session? sid = some x → x.st = SessState.opened → Accepted w (.sessionCloseWrite w sid) s (s.closeSession sid (some 2))) ∧
  (∀ s w sid, isCus w = true → s.session? sid = none → Denied w (.sessionCloseWrite w sid) s rRefused) ∧
  (∀ (s : State) id r, (s.closeSession id r).session? id = none) ∧
  (∀ s w v r, isCus w = true → v.length = 128 → s.storeOct w Obj.operatorKeys v = r → Kept w (.operatorKeysWrite w v) s r.1) ∧
  (∀ s w c v, isOpCus w = true → 0 < c → c < 64 → v.length = 32 → s.rdo (Obj.tenantSessionKey c) ≠ v →
    Accepted w (.tenantSessionKeyWrite w c v) s ((s.wro (Obj.tenantSessionKey c) v).closeSessions (fun x => x.role == roleTenant && x.ctx == c) 3)) ∧
  (∀ s f m u x, s.frameIn f ntAgent m.body = (u, some x) → x.role = roleSteward → x.st = SessState.opened → exec (.agent f m) s = .next (u.toAgent .mgmt 0 true m)) ∧
  (∀ s f m u x, s.frameIn f ntAgent m.body = (u, some x) → x.role ≠ roleSteward → exec (.agent f m) s = .next (u.bump Obj.nxfFramesBad)) ∧
  (∀ s f m key win, GroupFrame f m → f.sender ≠ s.pos → (s.stewardSess f.sender).isSome = true → (s.mgmt.peerKeys.find? fun k => k.1 = f.sender) = some (f.sender, key, win) →
    f.tagOk key m.body = true → win.accepts f.seq = true →
    exec (.agentGroup f m) s = .next (State.toAgent { s with mgmt := { s.mgmt with peerKeys := upsert (·.1) (f.sender, key, win.take f.seq) s.mgmt.peerKeys } } .mgmt 0 true m)) ∧
  (∀ s f m key win, GroupFrame f m → f.sender ≠ s.pos → (s.stewardSess f.sender).isSome = true → (s.mgmt.peerKeys.find? fun k => k.1 = f.sender) = some (f.sender, key, win) →
    f.tagOk key m.body = false → exec (.agentGroup f m) s = .next (s.bump Obj.nxfFramesBad)) ∧
  (∀ s f m, GroupFrame f m → f.sender < s.pos → s.stewardSess f.sender = none → exec (.agentGroup f m) s = .next (s.bump Obj.nxfGroupNokey)) ∧
  (∀ s f m, GroupFrame f m → s.pos < f.sender → s.stewardSess f.sender = none → s.hasSteward f.sender = false →
    exec (.agentGroup f m) s = .next ((s.bump Obj.nxfGroupNokey).askSession f.sender f.addr)) ∧
  (∀ (s : State) q a o, (s.mgmt.opening.find? fun (o : Opening) => o.pos = q) = some o → s.now < o.time + 1000000000 → s.askSession q a = s) ∧
  (∀ s f key u x q, s.frameIn f ntGroupKey key = (u, some x) → x.peer = some q → x.st = SessState.opened → key.length = 32 →
    exec (.groupKey f key) s = .next { u with mgmt := { u.mgmt with peerKeys := upsert (·.1) (q, key, ⟨0, 0⟩) u.mgmt.peerKeys } }) ∧
  (∀ s f o body, f.dport = udpNxf → f.legal body.length = true → f.typ = ntOpenResp → (s.mgmt.opening.find? fun (o : Opening) => o.pos = f.peer) = some o → body.length = 168 →
    byteAt body 0 = 0 → s.hasSteward f.peer = false →
    exec (.openResp f body) s = .next (State.openedBy { s with mgmt := { s.mgmt with opening := s.mgmt.opening.filter fun (o : Opening) => o.pos != f.peer } } f o.priv o.body body)) ∧
  (∀ s f o body, f.dport = udpNxf → f.legal body.length = true → f.typ = ntOpenResp → (s.mgmt.opening.find? fun (o : Opening) => o.pos = f.peer) = some o → body.length = 168 →
    byteAt body 0 ≠ 0 ∨ s.hasSteward f.peer = true →
    exec (.openResp f body) s = .next { s with mgmt := { s.mgmt with opening := s.mgmt.opening.filter fun (o : Opening) => o.pos != f.peer } }) ∧
  (∀ s f b u x, s.frameIn f ntProveResp b = (u, some x) → x.weOpened = true → x.st = SessState.proving → b.length = 2 → byteAt b 0 = 0 →
    exec (.proveResp f b) s = .next ((u.setSession { x with st := SessState.opened }).countSessions.frameOut x.id (.groupKey u.mgmt.groupKey))) ∧
  (∀ s f b u x, s.frameIn f ntProveResp b = (u, some x) → x.weOpened = true → x.st = SessState.proving → b.length = 2 → byteAt b 0 ≠ 0 →
    exec (.proveResp f b) s = .next (u.closeSession x.id none)) ∧
  (∀ s w, isCus w = true → Accepted w (.persistReset w 1) s { s with mgmt := { s.mgmt with persistReset := true } }) ∧
  (∀ s w v, isCus w = true → v ≠ 1 → Denied w (.persistReset w v) s rRefused) ∧
  (∀ s sid q k v rest, s.mgmt.storing = (sid, q, k, v) :: rest → keyIsInt k = true → exec .persistStoreDone s = .next (State.answer { s with
    reg := mput s.reg k (leNat v), mgmt := { s.mgmt with storing := rest }, boot := { s.boot with flReg := mput s.boot.flReg k (leNat v) } } sid q opWrite rOk [] 0 0)) ∧
  (∀ s sid q k v rest, s.mgmt.storing = (sid, q, k, v) :: rest → keyIsInt k = false → k ≠ Obj.operatorKeys.key → exec .persistStoreDone s = .next (State.answer { s with
    oct := mput s.oct k v, mgmt := { s.mgmt with storing := rest }, boot := { s.boot with flOct := mput s.boot.flOct k v } } sid q opWrite rOk [] 0 0)) ∧
  (∀ s sid q v rest u, s.mgmt.storing = (sid, q, Obj.operatorKeys.key, v) :: rest →
    u = State.closeSessions { s with mgmt := { s.mgmt with storing := rest } } (fun x => x.role == roleOperator && x.st == SessState.opened &&
      keyListed (s.rdo Obj.operatorKeys) x.keyDigest && !keyListed v x.keyDigest) 3 →
    exec .persistStoreDone s = .next ((u.flPut Obj.operatorKeys.key v).answer sid q opWrite rOk [] 0 0)) ∧
  (∀ s, s.mgmt.storing = [] → Idles .persistStoreDone s) ∧
  (∀ s p up, p < 3 → s.portRuns p = true → exec (.mportLinkChange p up) s = .next (s.wr (Obj.mportLink p) (ofBool up))) ∧
  (∀ s b, exec (.mkaStateChange b) s = .next (s.wr (Obj.mportMacsec 2) (ofBool b))) ∧
  (∀ s p k a, p < 3 → s.rd (Obj.mportLink p) = 1 → s.answersFor p k a = true → exec (.arpNdEcho p k a false) s = .next (s.emit (.netReply p k a))) ∧
  (∀ s p k a b, s.answersFor p k a = false ∨ b = true ∧ p = 2 → Idles (.arpNdEcho p k a b) s) ∧
  (∀ (s : State) p k a, s.answersFor p k a = true ↔ (a = s.linkLocal p ∨ a = s.ownIp p ∧ allZero a = false) ∧ (k = 2 ∨ k = 0 ∧ ipv4 a = true ∨ k = 1 ∧ ipv4 a = false)) ∧
  (∀ s p k b, p < 2 → k < 8 → exec (.pfcPause p k b) s = .next { s with mgmt := { s.mgmt with paused := msetD s.mgmt.paused p 0 (setBit (mgetD s.mgmt.paused p 0) k b) } }) ∧
  (∀ s q x u, Asks s opKeepalive q x u → exec (.keepalive q) s = .next (u.answer x.id q.reqId opKeepalive rOk [] 0 0)) ∧
  (∀ s q v x r, q.op = opKeepalive → s.frameIn q.frame ntRequest q.body = (v, some x) → x.st = SessState.opened → x.role ≠ roleSteward → (x.kept.find? fun r => r.reqId = q.reqId) = some r →
    exec (.keepalive q) s = .next (v.frameOut x.id (.resp r))) ∧
  (∀ s q x, q.op = opKeepalive → q.frame.dport = udpNxf → q.frame.legal q.body.length = true → q.frame.typ = ntRequest → s.sessFor q.frame = some x → s.carries x = true →
    q.frame.tagOk x.rxKey q.body = false → exec (.keepalive q) s = .next (s.bump Obj.nxfFramesBad)) ∧
  (∀ s q v x, opKnown q.op = false → s.frameIn q.frame ntRequest q.body = (v, some x) → x.st = SessState.opened → x.role ≠ roleSteward → x.known q.reqId = false → x.openReqs.length < 16 →
    exec (.keepalive q) s = .next ((v.setSession { x with openReqs := x.openReqs ++ [⟨q.reqId, q.op⟩] }).answer x.id q.reqId q.op rMalformed [] 0 0)) ∧
  (∀ s w x r v, s.session? w.session = some x → s.writes w = true → (x.kept.find? fun r => r.reqId = w.reqId) = some r → exec (.persistReset w v) s = .next (s.frameOut x.id (.resp r))) ∧
  (∀ s w x v, s.session? w.session = some x → s.writes w = true → x.known w.reqId = false → 16 ≤ x.openReqs.length →
    exec (.persistReset w v) s = .next (s.answer x.id w.reqId opWrite rBusy [] 0 0)) ∧
  (∀ (w : ReplayWin) q, (w.high < q → w.accepts q = true ∧ (w.take q).high = q) ∧ (q = w.high → w.accepts q = false) ∧ (q + 64 < w.high → w.accepts q = false))

/-! ### Objects, mailboxes and firmware (R440 to R463, R24, R28, R481, R483, R484) -/

/-- R440, R442, R443, R447: a READ answers a portion of an object's value to a role that may read it, a WRITE keeps a value that the object takes, NEXT describes the
object found, and an object that is not there, may not be reached or is not of the length is refused. Rests on the model's choices of log entries 6, 10, 72, 73, 101, 106,
107, 158. -/
def Obligations.DictionaryAccess : Prop :=
  (∀ s q x u r, Asks s opRead q x u → ¬ (q.area = 0x70 ∧ q.entry = 0x11) → ¬ (q.area = 0x78 ∧ q.entry = 0x100 ∧ q.sub = 0) → u.rowFor q.area q.entry q.sub = some r →
    u.reaches x.role x.ctx r q.entry q.sub Acc.canRead = true → q.offset ≤ (u.readObj x r q.entry q.sub).length →
    exec (.read q) s = .next (u.answer x.id q.reqId opRead rOk (((u.readObj x r q.entry q.sub).drop q.offset).take q.length) q.offset (u.readObj x r q.entry q.sub).length)) ∧
  (∀ s q x u, Asks s opRead q x u → ¬ (q.area = 0x70 ∧ q.entry = 0x11) → u.rowFor q.area q.entry q.sub = none → exec (.read q) s = .next (u.answer x.id q.reqId opRead rNoObject [] 0 0)) ∧
  (∀ s q x u r, Asks s opRead q x u → ¬ (q.area = 0x70 ∧ q.entry = 0x11) → u.rowFor q.area q.entry q.sub = some r → u.reaches x.role x.ctx r q.entry q.sub Acc.canRead = false →
    exec (.read q) s = .next (u.answer x.id q.reqId opRead rNoAccess [] 0 0)) ∧
  (∀ s q x u r v, Asks s opWrite q x u → ownWrite q = false → u.rowFor q.area q.entry q.sub = some r →
    u.reaches x.role x.ctx r q.entry q.sub Acc.canWrite = true → q.area ≠ 0x68 → u.writeVal ⟨x.role, x.ctx, x.id, q.reqId⟩ r q.entry q.sub q.value = v → v.2 ≠ rLater →
    exec (.write q) s = .next (v.1.answer x.id q.reqId opWrite v.2 [] 0 0)) ∧
  (∀ (s : State) w r e sub v, r.ty = .u32 → v.length = 4 → r.rng.ok (leNat v) = true → s.intRule w r e sub (leNat v) = rOk → r.area ≠ 0x88 → r.pers = false →
    ¬ (r.area = 0x10 ∧ r.base = 0x4000 ∧ sub = 3) → s.writeVal w r e sub v = (s.wr (objAt r e sub) (leNat v), rOk)) ∧
  (∀ (s : State) w r e sub v, r.ty = .u32 → v.length = 4 → r.rng.ok (leNat v) = true → s.intRule w r e sub (leNat v) = rOk → r.area ≠ 0x88 → r.pers = true →
    s.writeVal w r e sub v = ({ s with mgmt := { s.mgmt with storing := s.mgmt.storing ++ [(w.session, w.reqId, (objAt r e sub).key, leBytes 8 (leNat v))] } }, rLater)) ∧
  (∀ s q x u r v, Asks s opWrite q x u → ownWrite q = false → u.rowFor q.area q.entry q.sub = some r →
    u.reaches x.role x.ctx r q.entry q.sub Acc.canWrite = true → q.area ≠ 0x68 → u.writeVal ⟨x.role, x.ctx, x.id, q.reqId⟩ r q.entry q.sub q.value = (v, rLater) →
    exec (.write q) s = .next v) ∧
  (∀ (s : State) w r e sub v, r.ring sub = true → s.ringState r e ≠ ustDisabled → s.ringState r e ≠ ustFailed → s.intRule w r e sub v = rRefused) ∧
  (∀ (s : State) w r e sub v, r.ty = .u32 → v.length ≠ 4 → s.writeVal w r e sub v = (s, rBadLength)) ∧
  (∀ s q x u, Asks s opNext q x u → q.area ≠ 0x84 → q.area ≠ 0x88 →
    u.nextGo x ((dictArea q.area).filter fun r => (r.acc x.role).canRead || (r.acc x.role).canWrite) 65536 q.entry q.sub = none →
    exec (.nextObj q) s = .next (u.answer x.id q.reqId opNext rNoObject [] 0 0)) ∧
  (∀ s q x u r e k, Asks s opNext q x u → q.area ≠ 0x84 → q.area ≠ 0x88 →
    u.nextGo x ((dictArea q.area).filter fun r => (r.acc x.role).canRead || (r.acc x.role).canWrite) 65536 q.entry q.sub = some (r, e, k) →
    exec (.nextObj q) s = .next (u.answer x.id q.reqId opNext rOk (bytesOf [leBytes 1 q.area, leBytes 2 e, leBytes 1 k, leBytes 1 r.ty.code, leBytes 2 r.ty.size,
      leBytes 1 (ofBool (r.acc x.role).canRead + 2 * ofBool (r.acc x.role).canWrite), leBytes 1 (ofBool r.pers)]) 0 9))

/-- R27, R440, R450 to R454: a message enters the mailbox's queue or completes at once, its claimant takes the oldest message or the pending bells, a ring sets its bell
and a fetch clears the mask, a claim and a release follow their rules, a message past its time completes with TIMEOUT, and a mailbox is disabled and enabled. Rests on the
model's choices of log entries 32, 80, 81, 82. -/
def Obligations.Mailboxes : Prop :=
  (∀ s q x u, Asks s opMbxSend q x u → q.sub < 16 → q.length ≤ 64 → admits (u.bind q.sub) x = true → u.rd (Obj.mbxState q.sub) = ustActive → u.noReceiver q.sub = false →
    (u.mbox q.sub).queue.length < 32 → exec (.mbxSend q) s = .next ((u.putMbox q.sub
      { u.mbox q.sub with
        queue := (u.mbox q.sub).queue ++ [⟨.session x.id x.port x.role x.ctx q.reqId, (u.mbox q.sub).seq + 1, u.pkgTime, q.value⟩],
        seq := (u.mbox q.sub).seq + 1 }).deliver q.sub)) ∧
  (∀ s q x u, Asks s opMbxSend q x u → q.sub < 16 → q.length ≤ 64 → admits (u.bind q.sub) x = false → exec (.mbxSend q) s = .next (u.answer x.id q.reqId opMbxSend rNoAccess [] 0 0)) ∧
  (∀ s q x u g l, Asks s opMbxRecv q x u → q.sub < 16 → u.claims q.sub x = true → (u.mbox q.sub).queue = g :: l → exec (.mbxRecv q) s =
    .next (((u.putMbox q.sub { u.mbox q.sub with queue := l }).answer x.id q.reqId opMbxRecv rOk (mbxEntry q.sub g) 0 128).sendDone g.sender .ok causeNone)) ∧
  (∀ s q x u, Asks s opMbxRecv q x u → q.sub < 16 → u.claims q.sub x = true → (u.mbox q.sub).queue = [] → u.rd (Obj.mbxBellsPending q.sub) = 0 →
    exec (.mbxRecv q) s = .next (u.answer x.id q.reqId opMbxRecv rOk [] 0 0)) ∧
  (∀ s q x u, Asks s opMbxClaim q x u → q.sub < 16 → mbKind (u.bind q.sub) = 2 → u.rd (Obj.mbxClaimant q.sub) = 0 → mbMinRole (u.bind q.sub) ≤ x.role → x.role ≠ roleTenant →
    exec (.mbxClaim q) s = .next ((u.wr (Obj.mbxClaimant q.sub) x.id).answer x.id q.reqId opMbxClaim rOk [] 0 0)) ∧
  (∀ s q x u, Asks s opMbxClaim q x u → q.sub < 16 → u.rd (Obj.mbxClaimant q.sub) ≠ 0 → exec (.mbxClaim q) s = .next (u.answer x.id q.reqId opMbxClaim rRefused [] 0 0)) ∧
  (∀ s q x u, Asks s opMbxRelease q x u → q.sub < 16 → u.claims q.sub x = true → exec (.mbxRelease q) s =
    .next (((u.wr (Obj.mbxClaimant q.sub) 0).receiverGone q.sub .abortedDisabled causeDisabled).answer x.id q.reqId opMbxRelease rOk [] 0 0)) ∧
  (∀ s q x u, Asks s opBellRing q x u → q.sub < 16 → admits (u.bind q.sub) x = true → (u.ringBell q.sub q.offset).2 = .ok →
    exec (.bellRing q) s = .next ((u.ringBell q.sub q.offset).1.answer x.id q.reqId opBellRing rOk [] 0 0)) ∧
  (∀ (s : State) m k u, s.rd (Obj.mbxState m) = ustActive → s.noReceiver m = false → mbKind (s.bind m) = 2 →
    u = s.wr (Obj.mbxBellsPending m) (setBit (s.rd (Obj.mbxBellsPending m)) k true) →
    s.ringBell m k = (if s.rd (Obj.mbxBellsPending m) = 0 then u.frameOut (s.rd (Obj.mbxClaimant m)) (.event 1 m) else u, .ok)) ∧
  (∀ s q x u, Asks s opBellFetch q x u → q.sub < 16 → u.claims q.sub x = true → exec (.bellFetch q) s =
    .next ((u.wr (Obj.mbxBellsPending q.sub) 0).answer x.id q.reqId opBellFetch rOk (leBytes 8 (u.rd (Obj.mbxBellsPending q.sub))) 0 8)) ∧
  (∀ s m, mbKind (s.bind m) = 2 → s.rd (Obj.mbxClaimant m) ≠ 0 → s.rd (Obj.mbxBellsPending m) ≠ 0 →
    exec (.bellEventRepeat m) s = .next (s.frameOut (s.rd (Obj.mbxClaimant m)) (.event 1 m))) ∧
  (∀ s m k g, (s.mbox m).queue[k]? = some g →
    exec (.mbxTtlExpiry m k) s = .next ((s.putMbox m { s.mbox m with queue := (s.mbox m).queue.eraseIdx k }).sendDone g.sender .timeout causePostFull)) ∧
  (∀ s w m v, w.role = roleTenant → m < 16 → mbKind (s.bind m) ≠ 0 → mbCtx (s.bind m) = w.ctx → v < mbRingEntries (s.bind m) →
    Accepted w (.mbxRingHeadWrite w m v) s (((s.wr (Obj.mbxRingHead m) v).setMbox m { s.mbox m with stuck := false }).deliver m)) ∧
  (∀ s w m, isOpCus w = true → m < 16 → s.rd (Obj.mbxState m) = ustActive →
    Accepted w (.mbxDisable w m) s ((s.wr (Obj.mbxState m) ustQuiescing).unitEvent 0x0C m ustActive ustQuiescing)) ∧
  (∀ s w m, isOpCus w = true → m < 16 → mbKind (s.bind m) ≠ 0 → s.rd (Obj.mbxState m) = ustDisabled →
    Accepted w (.mbxEnable w m) s (((s.setMbox m ⟨[], 0, false⟩).wr (Obj.mbxState m) ustActive).unitEvent 0x0C m ustDisabled ustActive)) ∧
  (∀ s w m, isOpCus w = true → m < 16 → mbKind (s.bind m) = 0 → Denied w (.mbxEnable w m) s rRefused)

/-- R24, R28, R447, R455 to R459, R481, R483, R484, R505: an image is staged from BEGIN over its data to COMMIT, which stages it or gives its result, and can be
abandoned; the floor of a version only rises and not above the running image; FD firmware is activated in FABRIC and leaves reset when its test has passed, from when on
the staged image is the running one; a test that fails leaves the one before running. A fault resets its domain or takes the package down, and a unit that quiesces ends
at its grace, when it has drained, or by failing. Rests on the model's choices of log entries 2, 56, 83, 122, 159. -/
def Obligations.FirmwareAndFaults : Prop :=
  (∀ s w e, isOpCus w = true → isElem e = true → s.rd (Obj.fwStageResult e) / 256 ≠ 1 →
    Accepted w (.fwBegin w e) s (((s.fwDrop e fwLoading).setFw e { (s.fwDrop e fwLoading).fwOf e with previous := none }).fwBusy e 0)) ∧
  (∀ s w e v, isOpCus w = true → isElem e = true → s.rd (Obj.fwStageResult e) / 256 = 1 → Denied w (.fwBegin w e) s rRefused ∧ Denied w (.fwCommit w e) s rRefused ∧
    Denied w (.fwAbandon w e) s rRefused ∧ Denied w (.fwStageData w e v) s rRefused) ∧
  (∀ (s : State) e v, s.fwBusy e v = State.wr { s with mgmt := { s.mgmt with fwDue := mput s.mgmt.fwDue e v } } (Obj.fwStageResult e) 0x0100) ∧
  (∀ (s : State) e v, s.mgmt.fwDue = [(e, v)] → s.fwFinish = State.wr { s with mgmt := { s.mgmt with fwDue := [] } } (Obj.fwStageResult e) v) ∧
  (∀ s w e v, isOpCus w = true → isElem e = true → s.rd (Obj.fwStageResult e) / 256 ≠ 1 → 5 ≤ v.length → v.length ≤ 1028 → s.rd (Obj.fwState e) = fwLoading → ∃ u, Accepted w (.fwStageData w e v) s u ∧
    (u.fwOf e).loadEnd = max (s.fwOf e).loadEnd (leAt v 0 4 + (v.drop 4).length) ∧ (∀ i, i < (v.drop 4).length → mget (u.fwOf e).loading (leAt v 0 4 + i) = (v.drop 4)[i]?)) ∧
  (∀ s w e v, isOpCus w = true → isElem e = true → 5 ≤ v.length → v.length ≤ 1028 → s.rd (Obj.fwState e) ≠ fwLoading → Denied w (.fwStageData w e v) s rRefused) ∧
  (∀ s w e, isOpCus w = true → isElem e = true → s.rd (Obj.fwStageResult e) / 256 ≠ 1 → Accepted w (.fwCommit w e) s (s.fwCommit e)) ∧
  (∀ (s : State) e, s.rd (Obj.fwState e) ≠ fwLoading → s.fwCommit e = s.fwBusy e (0x0200 + frNoImage)) ∧
  (∀ (s : State) e, s.rd (Obj.fwState e) = fwLoading → (s.fwOf e).loadEnd ≠ 0 → (s.fwOf e).loadEnd ≤ fwSlot e → fwMalformed e (s.fwOf e).image = true →
    s.fwCommit e = (s.wr (Obj.fwState e) fwFailed).fwBusy e (0x0200 + frMalformed)) ∧
  (∀ (s : State) e w, s.fwVerdict e = 0 → s.free 1 = w → s.fwCommit e = (if w.1 = 1 then (w.2.wr (Obj.fwState e) fwFailed).fwBusy e (0x0200 + frFlash) else w.2.fwStage e)) ∧
  (∀ s w e, isOpCus w = true → isElem e = true → s.rd (Obj.fwStageResult e) / 256 ≠ 1 → Accepted w (.fwAbandon w e) s ((s.fwDrop e fwNone).fwResult e 0)) ∧
  (∀ s w e v r, isCus w = true → isElem e = true → s.toBe (Obj.fwSvnFloor e) ≤ v → v ≤ s.rd (Obj.fwRunningSvn e) → s.storeReg w (Obj.fwSvnFloor e) v = r →
    Kept w (.fwSvnFloorWrite w e v) s r.1) ∧
  (∀ s w e v, isCus w = true → isElem e = true → v < s.toBe (Obj.fwSvnFloor e) ∨ s.rd (Obj.fwRunningSvn e) < v → Denied w (.fwSvnFloorWrite w e v) s rRefused) ∧
  (∀ s w, isOpCus w = true → s.rd (Obj.fwState 3) = fwStaged → s.rd Obj.pkgPowerState = pwrFabric → s.boot.fdReset = false → s.rd (Obj.fwStageResult 3) / 256 ≠ 1 → Accepted w (.fwActivateNow w 3) s
    ((List.range 18).foldl (fun s p => (s.disablePort p).1) (State.sendReport (State.fwResult { s with boot := { s.boot with fdReset := true, fdNew := true } } 3 0) true)).fdNext) ∧
  (∀ s w, isOpCus w = true → s.rd Obj.pkgPowerState ≠ pwrFabric → s.rd (Obj.fwStageResult 3) / 256 ≠ 1 → Accepted w (.fwActivateNow w 3) s (s.fwResult 3 frNoImage)) ∧
  (∀ s, s.boot.fdReset = true → s.domUp 5 = false → exec (.fdSelftestDone true) s = .next s.fdStarts.fdBack) ∧
  (∀ s u, s.boot.fdReset = true → s.domUp 5 = false → s.fdFallback = some u → exec (.fdSelftestDone false) s = .next u) ∧
  (∀ s, s.domUp 5 = true → exec .fdFault s = .next s.fdFault) ∧
  (∀ (s : State) t, s.boot.fdFaultNs = some t → s.now < t + 3600000000000 → s.fdFault = State.park { s.event 0x0840 0x00 0 noCtx 4 4 0 with boot := { s.boot with fdFaultNs := some s.now } } pkFd) ∧
  (∀ s e, e = 1 ∨ e = 2 → s.rd Obj.pkgPowerState = pwrOff → s.boot.step ≤ 2 → s.fallback e = none → exec (.fwStartTimeout e) s = .next (s.halt e 2)) ∧
  (∀ s u, s.rd Obj.pkgPowerState = pwrOff → s.boot.step ≤ 2 → (s.fallback 1 = some u → exec (.fwStartTimeout 1) s = .next u.deriveKeys) ∧
    (s.fallback 2 = some u → exec (.fwStartTimeout 2) s = .next u)) ∧
  (∀ s d, 1 ≤ d → d ≤ 4 → s.domUp d = true → exec (.domainFaultReset d) s = .next (s.enterReset d)) ∧
  (∀ s, s.domUp 5 = true → exec (.domainFaultReset 5) s = .next s.resetFd) ∧
  (∀ s die k, die < 4 → 1 ≤ k → k ≤ 3 → s.domUp (die + 1) = true →
    exec (.computeDieFault die k) s = .next (((s.event 0x0840 0x00 0 noCtx die k 0).enterReset (die + 1)).stop pwrFabric)) ∧
  (∀ s n, s.rd (Obj.tileState n) = ustQuiescing → exec (.quiesceGraceEnd (.tile n)) s = .next (s.graceEndTile n)) ∧
  (∀ s c, s.rd (Obj.teState c) = ustQuiescing → exec (.quiesceGraceEnd (.te c)) s = .next (s.graceEndTe c)) ∧
  (∀ s i, s.rd (Obj.niState i) = ustQuiescing → exec (.quiesceGraceEnd (.ni i)) s = .next (s.graceEndNi i)) ∧
  (∀ s p, s.rd (Obj.portState p) = ustQuiescing → exec (.quiesceGraceEnd (.port p)) s = .next (s.endPort p).fdNext) ∧
  (∀ s m, s.rd (Obj.mbxState m) = ustQuiescing →
    exec (.quiesceGraceEnd (.mbx m)) s = .next ((s.receiverGone m .abortedDisabled causeDisabled).goState (Obj.mbxState m) 0x0C m ustDisabled)) ∧
  (∀ s n, s.rd (Obj.tileState n) = ustQuiescing → s.tileDrained n = true →
    exec (.quiesceDrained (.tile n)) s = .next ((s.wr (Obj.tileState n) ustDisabled).unitEvent 0x01 n ustQuiescing ustDisabled)) ∧
  (∀ s n, s.rd (Obj.tileState n) ≠ ustQuiescing → Idles (.quiesceDrained (.tile n)) s) ∧
  (∀ s c, s.rd (Obj.teState c) = ustQuiescing → exec (.quiesceFailAbort (.te c)) s = .next (s.failTe c)) ∧
  (∀ s p, s.rd (Obj.portState p) = ustQuiescing → exec (.quiesceFailAbort (.port p)) s = .next (s.failPort p).fdNext) ∧
  (∀ (s : State) i, s.boot.fdNew = true → (s.fwOf 3).staged = some i → (s.fdStarts.fwOf 3).running = i ∧ (s.fdStarts.fwOf 3).staged = none ∧
    s.fdStarts.rd (Obj.fwState 3) = fwNone) ∧
  (∀ (s : State) i, s.boot.fdNew = true → (s.fwOf 3).staged = some i → s.rd (Obj.fwSvnFloor 3) ≤ fwSvn (s.fwOf 3).running.hdr → ∃ u, s.fdFallback = some u ∧
    (u.fwOf 3).running = (s.fwOf 3).running ∧ (u.fwOf 3).staged = none ∧ (u.fwOf 3).previous = some i ∧ u.rd (Obj.fwState 3) = fwFailed ∧ u.boot.fdNew = false)

/-! ### Reset, bring-up, clocks, package time and the test port (R364, R447, R464 to R487, R499, R520 to R522) -/

/-- R25, R181, R348, R364, R403, R447, R464 to R476, R481, R499: a cold reset comes from RESET_N low for 10 µs, a command after its flush, the watchdog or a fall of the
rails, and leaves the package OFF with every context FREE and no memory; the steps that follow run or hold as commanded, a step that fails halts, and the last one puts
the package ON with its tiles and NIs ACTIVE and its channels DISABLED, but the house channels in service. The field map is written when a unit changed. Rests on the
model's choices of log entries 2, 48, 62, 63, 64, 65, 66, 67, 68, 103, 159. -/
def Obligations.ResetAndBringup : Prop :=
  (∀ s n, n < 1000 → Idles (.resetAssert n) s) ∧
  (∀ s n, 1000 ≤ n → n < 10000 → exec (.resetAssert n) s = .next (s.event 0x0803 0x00 0 noCtx n 0 0)) ∧
  (∀ s n, 10000 ≤ n → s.rcd.flush ≠ some 1 → exec (.resetAssert n) s = .next (State.coldReset { s with boot := { s.boot with resetN := false } })) ∧
  (∀ s, s.rcd.flush ≠ some 1 → exec .scWatchdogExpiry s = .next s.coldReset) ∧
  (∀ s, s.rcd.flush = some 1 → exec .scWatchdogExpiry s = .next { s.loseCompute.loseFabric with boot := { s.boot with resetWaits := true, inReset := [1, 2, 3, 4, 5] } }) ∧
  (∀ s w, isCus w = true → Accepted w (.resetColdCmd w 1) s { s.startFlush 3 with boot := { s.boot with resetWaits := true } }) ∧
  (∀ s w v, isCus w = true → v ≠ 1 → Denied w (.resetColdCmd w v) s rRefused) ∧
  (∀ s c, s.rcd.flush = some c → s.boot.resetWaits = false → exec .flushDone s = .next (s.endFlush c)) ∧
  (∀ s c, s.rcd.flush = some c → s.boot.resetWaits = true → exec .flushDone s = .next (s.endFlush c).coldReset) ∧
  (∀ s, exec .railsFallWithoutStopping s = .next (State.coldReset { s with boot := { s.boot with rails := [] } })) ∧
  (∀ s : State, s.coldReset.rd Obj.pkgPowerState = pwrOff ∧ (∀ c, 0 < c → c < 64 → s.coldReset.rd (Obj.ctxState c) = ctxFree) ∧ s.coldReset.mem = Mem.init ∧ s.coldReset.tiles = [] ∧
    s.coldReset.posts = [] ∧ s.coldReset.mgmt.sessions = [] ∧ s.coldReset.boot.step = 0 ∧ s.coldReset.boot.resetWaits = false ∧ s.coldReset.pending = s.pending) ∧
  (∀ s r, s.boot.step = 0 → exec (.resetRelease r) s = .next (s.release r)) ∧
  (∀ s r, s.boot.step ≠ 0 → Idles (.resetRelease r) s) ∧
  (∀ (s : State) r, r.identityOk = false → s.release r = ((s.atRoot r).wr Obj.identityState 1).halt 1 1) ∧
  (∀ (s : State) r, (s.atRoot r).rd Obj.position = r.straps % 64 ∧ (s.atRoot r).rd Obj.bootCount = (s.rd Obj.bootCount + 1) % 2 ^ 32 ∧ (s.atRoot r).now = 0) ∧
  (∀ (s : State) c k, (s.halt c k).rd Obj.bringupState = 0x30 ∧ (s.halt c k).rd Obj.bringupResult = 0x0200 + k ∧ (s.halt c k).boot.step = 0x30) ∧
  (∀ s r, s.stepRuns = true → exec (.bringupStepDone r) s = .next (s.stepDone r)) ∧
  (∀ s r, s.stepRuns = false → Idles (.bringupStepDone r) s) ∧
  (∀ (s : State) r, s.boot.step = 0x10 → r.pass = false → s.stepDone r = s.stepFails 5) ∧
  (∀ (s : State) r, s.boot.step = 0x15 → r.pass = true → s.stepDone r = s.mapStep.stepGood) ∧
  (∀ (s : State) r, s.boot.step = 0x16 → r.pass = true → s.stepDone r = s.zeroStep.stepGood) ∧
  (∀ (s : State) r, s.boot.step = 0x17 → r.pass = true → s.stepDone r = s.iceOut) ∧
  (∀ s : State, s.zeroStep.mem.bytes = [] ∧ s.zeroStep.mem.spared = s.mem.spared) ∧
  (∀ s : State, s.iceOut.rd Obj.pkgPowerState = pwrOn ∧ s.iceOut.rd Obj.bringupState = 0x20 ∧ s.iceOut.rd Obj.resourcesComplete = 1 ∧
    (∀ n, n < 1920 → s.iceOut.rd (Obj.tileState n) = ustActive) ∧ (∀ c, c < 72 → s.rd (Obj.teState c) ≠ ustFailed → s.iceOut.rd (Obj.teState c) = (if isHouse c then ustActive else ustDisabled))) ∧
  (∀ (s : State) k, s.boot.step = k → s.boot.retest = false → s.rd Obj.bringupAuto = 0 → s.boot.runAll = false → s.stepGood = { (s.wr Obj.bringupState k).wr Obj.bringupResult 0x0200 with
    boot := { s.boot with step := k + 1, held := true, retest := false } }) ∧
  (∀ (s : State), s.boot.step = 0x13 → s.boot.retest = true → s.stepGood = { (s.wr Obj.bringupState 0x13).wr Obj.bringupResult 0x0100 with boot := { s.boot with step := 0x14, held := false } }) ∧
  (∀ (s : State) k, s.boot.step = k → s.boot.retest = false → s.rd Obj.bringupAuto = 1 ∨ s.boot.runAll = true →
    s.stepGood = { (s.wr Obj.bringupState k).wr Obj.bringupResult 0x0100 with boot := { s.boot with step := k + 1, held := false, retest := false } }) ∧
  (∀ (s : State) b, s.mapVerifies s.boot.mapNew = true → s.takeMap true b = s.loadMap s.boot.mapNew) ∧
  (∀ (s : State) a, (a = false ∨ s.mapVerifies s.boot.mapNew = false) → s.mapVerifies s.boot.mapOld = true → s.takeMap a true = s.loadMap s.boot.mapOld) ∧
  (∀ (s : State) a b, (a = false ∨ s.mapVerifies s.boot.mapNew = false) → (b = false ∨ s.mapVerifies s.boot.mapOld = false) → (s.takeMap a b).rd Obj.defectMapState = 1) ∧
  (∀ s w, isOpCus w = true → s.holds = true → Accepted w (.bringupNext w) s { s.wr Obj.bringupResult 0x0100 with boot := { s.boot with held := false, runAll := false } }) ∧
  (∀ s w, isOpCus w = true → s.holds = true → Accepted w (.bringupRun w) s { s.wr Obj.bringupResult 0x0100 with boot := { s.boot with held := false, runAll := true } }) ∧
  (∀ s w, isOpCus w = true → s.holds = true → s.boot.step = 0x14 ∨ s.boot.step = 0x15 →
    Accepted w (.bringupRetest w) s { s.wr Obj.bringupResult 0x0100 with boot := { s.boot with step := 0x13, held := false, retest := true } }) ∧
  (∀ s w, isOpCus w = true → s.holds = true → Accepted w (.bringupAbort w) s (s.stepFails 8)) ∧
  (∀ s w, isOpCus w = true → s.holds = false → Denied w (.bringupNext w) s rRefused ∧ Denied w (.bringupAbort w) s rRefused) ∧
  (∀ s, s.holds = true → exec .bringupHoldTimeout s = .next (s.stepFails 9)) ∧
  (∀ s, s.holds = false → Idles .bringupHoldTimeout s) ∧
  (∀ s, s.boot.mapDirty ≠ [] → exec .fieldMapWrite s = .next s.writeMap) ∧
  (∀ s : State, s.writeMap.boot.mapOld = s.boot.mapNew ∧ s.writeMap.boot.mapNew.seq = (s.rd Obj.defectMapSequence + 1) % 2 ^ 32 ∧ s.writeMap.boot.mapDirty = [] ∧
    s.writeMap.rd Obj.defectMapSequence = (s.rd Obj.defectMapSequence + 1) % 2 ^ 32) ∧
  (∀ s, s.boot.mapDirty = [] → Idles .fieldMapWrite s)

/-- R470, R477 to R479, R485, R486: a lost reference is replaced by the other, or held over, and a returned one is taken up; package time follows the selected source,
steps above 1 ms, locks and unlocks; the spare policy asks for a unit beyond its limit while it is enabled. Rests on the model's choices of log entries 1, 2, 69, 70, 107.
-/
def Obligations.ClocksAndPolicy : Prop :=
  (∀ s, s.boot.step = 2 → s.boot.held = true → s.rd Obj.pkgPowerState = pwrOff → s.hasRef = false →
    exec .noReferenceTimeout s = .next { s.halt 3 4 with boot := { (s.halt 3 4).boot with step := 2, held := true } }) ∧
  (∀ s, s.hasRef = true → Idles .noReferenceTimeout s) ∧
  (∀ s, s.rd Obj.refState = 1 → s.boot.refB = true → exec (.refclkLoss false) s =
    .next (((State.wr { s with boot := { s.boot with refA := false } } Obj.refState 2).bump Obj.refSwitches).event 0x0810 0x00 0 noCtx 2 0 0)) ∧
  (∀ s, s.rd Obj.refState = 1 → s.boot.refB = false → exec (.refclkLoss false) s =
    .next ((State.wr { s with boot := { s.boot with refA := false } } Obj.refState 3).event 0x0810 0x00 0 noCtx 3 0 0)) ∧
  (∀ s, s.rd Obj.refState = 1 → exec (.refclkLoss true) s = .next { s with boot := { s.boot with refB := false } }) ∧
  (∀ s, s.rd Obj.refState = 3 → s.boot.held = false → exec (.refclkReturn false) s = .next (State.wr { s with boot := { s.boot with refA := true } } Obj.refState 1)) ∧
  (∀ s src, src ≠ s.boot.ptpSource → Idles (.ptpSync src 0) s) ∧
  (∀ s (d : Int), d.natAbs ≤ 20000 → exec (.ptpSync s.boot.ptpSource d) s =
    .next { s.wr Obj.ptpOffsetAbsNs d.natAbs with boot := { s.boot with ptpHeard := true, ptpOffset := d } }) ∧
  (∀ s (d : Int), 1000000 < d.natAbs → d.natAbs < 2 ^ 32 → s.rd Obj.ptpState = 0 → exec (.ptpSync s.boot.ptpSource d) s = .next (State.event { s.wr Obj.ptpOffsetAbsNs d.natAbs with
    boot := { s.boot with ptpHeard := true, ptpOffset := 0, ptpDelta := s.boot.ptpDelta - d } } 0x0812 0x00 0 noCtx (ofInt 64 (-d)) 0 0)) ∧
  (∀ s, s.boot.ptpHeard = true → s.rd Obj.ptpOffsetAbsNs ≤ 20000 → exec .ptpLockTimer s = .next (s.wr Obj.ptpState 1)) ∧
  (∀ s, s.rd Obj.ptpState = 0 → exec .ptpSyncTimeout s = .next { s with boot := { s.boot with ptpHeard := false } }) ∧
  (∀ s : State, s.rd Obj.ptpState ≠ 1 → s.pkgTime = 0) ∧
  (∀ s n, exec (.ptpAnnounce n true) s = .next { s with boot := { s.boot with ptpSource := n } }) ∧
  (∀ s n, Idles (.ptpAnnounce n false) s) ∧
  (∀ s k v, k < 2048 → s.rd Obj.sparePolicyEnable ≠ 1 → exec (.sparePolicyRequest (.siteAge k v)) s = .next ((s.wr (Obj.siteAge k) (min v 0xFFFF)).wr (Obj.wearAge (k / 512))
    (max (s.rd (Obj.wearAge (k / 512))) (min v 0xFFFF)))) ∧
  (∀ s n, n < 1920 → s.rd Obj.sparePolicyEnable = 1 → s.rd Obj.shadowDriftLimit < s.rd (Obj.tileDrift n) → (s.tile n).subst = none →
    exec (.sparePolicyRequest (.drift n)) s = .next ((s.asks 0x01 n 1).swapTile n false).1) ∧
  (∀ s n, s.rd Obj.sparePolicyEnable ≠ 1 → Idles (.sparePolicyRequest (.drift n)) s ∧ Idles (.sparePolicyRequest (.noRow n)) s)

/-- R520 to R522: the test port takes its six instructions; EXTEST drives and HIGHZ floats the lands in OFF and PARKED alone and act as BYPASS elsewhere; while a
confidential context is resident no instruction does anything; and no instruction reaches a key, a table, a tile, memory or an object. Rests on the model's choices of log
entry 2. -/
def Obligations.TestPort : Prop :=
  (∀ s b, s.rd Obj.confidentialResident ≠ 1 →
    exec (.bypass b) s = .next (State.emit { s with boot := { s.boot with tapInstr := tapBypass, tapDrive := false, tapFloat := false } } (.tdo (ofBool b)))) ∧
  (∀ s, s.rd Obj.confidentialResident ≠ 1 →
    exec .idcode s = .next (State.emit { s with boot := { s.boot with tapInstr := tapIdcode, tapDrive := false, tapFloat := false } } (.tdo 0x0C919A6B))) ∧
  (∀ s, s.rd Obj.confidentialResident ≠ 1 →
    exec .sample s = .next (State.emit { s with boot := { s.boot with bsr := s.pins, tapInstr := tapSample, tapDrive := false, tapFloat := false } } (.tdo s.pins))) ∧
  (∀ s v, s.rd Obj.confidentialResident ≠ 1 →
    exec (.preload v) s = .next { s with boot := { s.boot with bsr := v, tapInstr := tapPreload, tapDrive := false, tapFloat := false } }) ∧
  (∀ s, s.rd Obj.confidentialResident ≠ 1 → s.tapFree = true →
    exec .extest s = .next { s with boot := { s.boot with tapInstr := tapExtest, tapDrive := true, tapFloat := false } }) ∧
  (∀ s, s.rd Obj.confidentialResident ≠ 1 → s.tapFree = true →
    exec .highz s = .next { s with boot := { s.boot with tapInstr := tapHighz, tapDrive := false, tapFloat := true } }) ∧
  (∀ s, s.rd Obj.confidentialResident ≠ 1 → s.tapFree = false →
    exec .extest s = .next { s with boot := { s.boot with tapInstr := tapBypass, tapDrive := false, tapFloat := false } }) ∧
  (∀ s b v, s.rd Obj.confidentialResident = 1 → Idles (.bypass b) s ∧ Idles .idcode s ∧ Idles .sample s ∧ Idles (.preload v) s ∧ Idles .extest s ∧ Idles .highz s) ∧
  (∀ s, s.rd Obj.confidentialResident ≠ 1 → s.tapFree = false →
    exec .highz s = .next { s with boot := { s.boot with tapInstr := tapBypass, tapDrive := false, tapFloat := false } }) ∧
  (∀ (s t : State) c, (∃ b, c = .bypass b) ∨ c = .idcode ∨ c = .sample ∨ (∃ v, c = .preload v) ∨ c = .extest ∨ c = .highz → exec c s = .next t →
    t.sec = s.sec ∧ t.mem = s.mem ∧ t.tiles = s.tiles ∧ t.ctxs = s.ctxs ∧ t.reg = s.reg ∧ t.oct = s.oct)

/-! ### The event recorder (R488 to R500) -/

/-- R488 to R500: the recorder takes the oldest event of its queue as a record with the next number, or as a repeat of an open record; an event that finds 1,024 waiting
is counted; an open record closes; records reach FL, or FL has failed until a later write succeeds; a session reads its snapshot in order, 15 records at a time; a clear
keeps what followed it. Rests on the model's choices of log entries 2, 84, 85, 123. -/
def Obligations.EventRecorder : Prop :=
  (∀ s e q, s.rcd.loaded = true → s.rcd.queue = e :: q → s.rcd.lostNow = 0 → s.openRec e = none →
    (∀ c, c < 64 → s.confidential c = false) → ∃ t, exec .eventTaken s = .next t ∧ t.rcd.queue = q ∧ t.rcd.nextSeq = s.rcd.nextSeq + 1 ∧
      t.rcd.circ = ((⟨s.rcd.nextSeq, e.time, e.upMs, s.rd Obj.bootCount % 65536, e.code, severityOf e.code, e.cls, e.unit, e.ctx, false, false, 0, 0, e.arg0, e.arg1, e.arg2⟩ : EvRec) ::
        s.rcd.circ).take 16384 ∧ t.rd Obj.erNewestSeq = s.rcd.nextSeq ∧ t.mem = s.mem) ∧
  (∀ s e q r, s.rcd.loaded = true → s.rcd.queue = e :: q → s.rcd.lostNow = 0 → s.openRec e = some r →
    exec .eventTaken s = .next ((State.updRec { s with rcd := { s.rcd with queue := q } } r.seq fun r => r.again e).bump Obj.erRepeats)) ∧
  (∀ s, s.rcd.queue = [] → Idles .eventTaken s) ∧
  (∀ (s : State) e, s.rcd.found.length < 1024 → (s.makeRec e).rcd.found.length = s.rcd.found.length + 1) ∧
  (∀ (s : State) e, s.rcd.found.length = 1024 → (s.makeRec e).rcd.found = s.rcd.found) ∧
  (∀ s e, 1024 ≤ s.rcd.queue.length → exec (.eventQueueFull e) s = .next (s.offer e)) ∧
  (∀ (s : State) e, 1024 ≤ s.rcd.queue.length → (s.offer e).rd Obj.erRecordsLost = (s.rd Obj.erRecordsLost + 1) % 2 ^ 64 ∧ (s.offer e).rcd.queue = s.rcd.queue) ∧
  (∀ s q, exec (.repeatWindowExpiry q) s = .next { s with rcd := { s.rcd with openSeqs := s.rcd.openSeqs.filter fun x => x != q } }) ∧
  (∀ s, s.rcd.dirty ≠ [] → s.rd Obj.erFlState = 0 → exec (.recorderFlWrite true) s = .next s.imageAreas) ∧
  (∀ s, s.rcd.dirty ≠ [] → s.rd Obj.erFlState = 0 → exec (.recorderFlWrite false) s = .next ((s.wr Obj.erFlState 1).event 0x7004 0x00 0 noCtx 0 0 0)) ∧
  (∀ s, s.rcd.dirty = [] → Idles (.recorderFlWrite true) s) ∧
  (∀ s, s.rd Obj.erFlState = 1 → exec (.recorderFlRetry true) s = .next (s.wr Obj.erFlState 0).imageAreas) ∧
  (∀ s, Idles (.recorderFlRetry false) s) ∧
  (∀ s w v, isOpCus w = true → v.length = 9 → byteAt v 0 ≤ 1 → w.session ≠ 0 → Accepted w (.snapshotTake w v) s { s with rcd := { s.rcd with
    snapshots := ⟨w.session, byteAt v 0 == 1, s.rd Obj.erNewestSeq, leAt v 1 8⟩ :: s.rcd.snapshots.filter fun x => x.session != w.session } }) ∧
  (∀ s w v, isOpCus w = true → v.length = 9 → 1 < byteAt v 0 → Denied w (.snapshotTake w v) s rRefused) ∧
  (∀ s w r, isOpCus w = true → s.snapRead w.session = r → exec (.snapshotRead w) s = .next (r.1.answer w.session w.reqId opRead rOk r.2 0 r.2.length)) ∧
  (∀ s w, w.role = roleTenant → exec (.snapshotRead w) s = .next (s.answer w.session w.reqId opRead rNoAccess [] 0 0)) ∧
  (∀ s w, isCus w = true → s.rcd.flush = none → s.rd Obj.erFlState = 0 → ∃ t, exec (.recorderClear w (s.rd Obj.erNewestSeq)) s = .next t ∧
    t.rcd.clear = some ⟨s.rd Obj.erNewestSeq, w.session, w.reqId, s.rcd.nextSeq⟩ ∧ t.rcd.nextSeq = s.rcd.nextSeq + 1 ∧ t.mem = s.mem) ∧
  (∀ s w v, isCus w = true → v ≠ s.rd Obj.erNewestSeq → Denied w (.recorderClear w v) s rRefused) ∧
  (∀ s c, s.rcd.clear = some c → ∃ t, exec .clearWriteDone s = .next t ∧ t.rcd.circ = (s.rcd.circ.filter fun r => decide (c.upto < r.seq)) ∧ t.rcd.flCirc = t.rcd.circ ∧
    t.rcd.clear = none ∧ t.rd Obj.erLastClearSeq = c.recSeq ∧ t.mem = s.mem)

/-! ### The whole package -/

/-- A step runs the command at the front of the queue with the queue's rest; with nothing waiting a microsecond of the package's own time passes, and where nothing runs
under BUSY memory, units and objects but the clock counts of stalled router outputs stay as they are; what runs under BUSY ends with it (the model's choice: log entry 1).
-/
def Obligations.StepRunsFront : Prop :=
  (∀ c q (s : State), step { s with pending := c :: q } = exec c { s with pending := q }) ∧
  (∀ s : State, s.pending = [] → s.sec.scRuns = [] → s.sec.attest = [] → s.mgmt.fwDue = [] → ∃ t, step s = .next t ∧ t.now = s.now + 1000 ∧ t.pending = [] ∧ t.mem = s.mem ∧ t.tiles = s.tiles ∧ t.oct = s.oct ∧
    (s.router.bufs = [] → t.reg = s.reg) ∧ (∀ o : Obj, (∀ p, p < 23 → o.key ≠ (Obj.rtStallClocks p).key) → t.rd o = s.rd o)) ∧
  (∀ s : State, s.pending = [] → s.finish.sec.scRuns = [] → s.finish.sec.attest = [] → s.finish.mgmt.fwDue = [] → s.finish.pending = [] → step s = step s.finish) ∧
  (∀ s : State, s.finish = s.scFinish.attestServe.fwFinish)

/-- R345, R447, R471: right after reset the package is OFF, its volatile objects hold their defaults, memory lists nothing, nothing waits and every domain is in reset.
Rests on the model's choices of log entries 10, 11, 88, 133. -/
def Obligations.ResetState : Prop :=
  State.reset.rd Obj.pkgPowerState = pwrOff ∧ (∀ o : Obj, State.reset.rd o = o.dflt) ∧ (∀ o : Oct, State.reset.rdo o = o.dflt) ∧ State.reset.mem = Mem.init ∧
    State.reset.mem.wf = true ∧ State.reset.pending = [] ∧ State.reset.tiles = [] ∧ State.reset.boot.inReset = [1, 2, 3, 4, 5] ∧ State.reset.sent = []

/-- Every command, in every state whose memory is in canonical form, answers a next state whose memory is in canonical form, and so does every step: nothing that a
command can carry stops the package, and no command leaves memory in another form. -/
def Obligations.EveryStepKeepsMemory : Prop :=
  (∀ c s, State.safe s → ∃ t, exec c s = .next t ∧ State.safe t) ∧ (∀ s, State.safe s → ∃ t, step s = .next t ∧ State.safe t)

/-- R129, R222, R249: for every format, every operation code and all operands that fit their fields, the fields read from the word they are encoded in are the fields
encoded: no bit of a word is dropped or shared; and a receiver reads from the flits of a packet and its trailer, and from a control flit, just those whose bytes they are.
-/
def Obligations.WordsRoundTrip : Prop :=
  (∀ op f, op < 64 → FmtR.wf f = true → wOp (eR op f) = op ∧ wR (eR op f) = f ∧ eR op f < 2 ^ 32) ∧
  (∀ op f, op < 64 → FmtI.wf f = true → wOp (eI op f) = op ∧ wI (eI op f) = f ∧ eI op f < 2 ^ 32) ∧
  (∀ op f, op < 64 → FmtB.wf f = true → wOp (eB op f) = op ∧ wB (eB op f) = f ∧ eB op f < 2 ^ 32) ∧
  (∀ op f, op < 64 → FmtJ.wf f = true → wOp (eJ op f) = op ∧ wJ (eJ op f) = f ∧ eJ op f < 2 ^ 32) ∧
  (∀ op f, op < 64 → FmtD.wf f = true → wOp (eD op f) = op ∧ wD (eD op f) = f ∧ eD op f < 2 ^ 32) ∧
  (∀ op f, op < 64 → FmtT.wf f = true → wOp (eT op f) = op ∧ wT (eT op f) = f ∧ eT op f < 2 ^ 32) ∧
  (∀ op func f, op < 64 → func < 64 → FmtV.wf f = true → wOp (eV op func f) = op ∧ wFunc (eV op func f) = func ∧ wV (eV op func f) = f ∧ eV op func f < 2 ^ 32) ∧
  (∀ op f, op < 64 → FmtX.wf f = true → wOp (eX op f) = op ∧ wX (eX op f) = f ∧ eX op f < 2 ^ 32) ∧
  (∀ op f, op < 64 → FmtS.wf f = true → wOp (eS op f) = op ∧ wS (eS op f) = f ∧ eS op f < 2 ^ 32) ∧
  (∀ (p : Packet) (t : Trailer) l, 1 ≤ p.flits → p.flits ≤ 5 → p.cls < 8 → p.level < 8 → p.parity < 2 → p.dst < 2 ^ 24 → p.src < 2 ^ 24 → p.flags < 256 → p.units < 256 →
    p.aux0 < 256 → p.aux1 < 256 → p.ni.length = 20 → p.payload.length = 16 * p.units → 16 * p.units + 64 ≤ 64 * p.flits → p.tag.length = 16 → t.seq < 2 ^ 24 →
    t.ack < 2 ^ 24 → t.creditVc < 256 → t.creditFlits < 256 → t.poolCredit < 2 ^ 16 → t.rsvZero = true →
    frameOf ((flitsOf p.flits (p.bytes t)).map some ++ l) = (.pkt p t, l)) ∧
  (∀ (f : CtlFlit) l, 1 ≤ f.op → f.op ≤ 4 → f.ack < 2 ^ 24 → f.replayFrom < 2 ^ 24 → f.mapLogical < 256 → f.mapPosition < 256 → f.mapAfter < 2 ^ 16 → f.credits.length = 40 →
    (∀ x ∈ f.credits, x < 256) → f.poolCredit < 2 ^ 32 → frameOf (some f.bytes :: l) = (.ctl f, l))
end

