-- ==== Sys2Proof/Laws/Maps.lean ====
section
/-! SUPPORT. Laws of the sparse maps: what a read gives after a write or a removal, and that writing keeps the canonical form. -/

namespace Sys2Proof.Machine

variable {α : Type}

@[simp] theorem mget_nil (n : Nat) : mget ([] : NMap α) n = none := rfl

theorem mget_cons (p : Nat × α) (n : Nat) (m : NMap α) : mget (p :: m) n = if p.1 = n then some p.2 else mget m n := rfl

theorem mput_cons (p : Nat × α) (n : Nat) (v : α) (m : NMap α) :
    mput (p :: m) n v = if n < p.1 then (n, v) :: p :: m else if n = p.1 then (n, v) :: m else p :: mput m n v := rfl

/-- A read after a write: the value written under its own key, the former one under any other. -/
theorem mget_mput (m : NMap α) (n k : Nat) (v : α) : mget (mput m n v) k = if n = k then some v else mget m k := by
  induction m with
  | nil => rfl
  | cons p m ih => rw [mput_cons]; split_ifs <;> simp_all [mget_cons, eq_comm]

@[simp] theorem mget_mput_same (m : NMap α) (n : Nat) (v : α) : mget (mput m n v) n = some v := by rw [mget_mput, if_pos rfl]

theorem mget_mput_ne (m : NMap α) {n k : Nat} (v : α) (h : n ≠ k) : mget (mput m n v) k = mget m k := by rw [mget_mput, if_neg h]

/-- Of two values listed under one key the later one stays. -/
@[simp] theorem mput_mput (m : NMap α) (n : Nat) (v w : α) : mput (mput m n v) n w = mput m n w := by
  induction m with
  | nil => simp [mput]
  | cons p m ih => rw [mput_cons, mput_cons]; split_ifs <;> simp_all [mput_cons]

/-- A read after a removal. -/
theorem mget_mdel (m : NMap α) (n k : Nat) : mget (mdel m n) k = if n = k then none else mget m k := by
  induction m with
  | nil => simp [mdel]
  | cons p m ih =>
    simp only [mdel, List.filter_cons, bne_iff_ne, mget_cons] at ih ⊢
    split_ifs <;> simp_all [mget_cons]

@[simp] theorem mget_mdel_same (m : NMap α) (n : Nat) : mget (mdel m n) n = none := by rw [mget_mdel, if_pos rfl]

theorem mget_mdel_ne (m : NMap α) {n k : Nat} (h : n ≠ k) : mget (mdel m n) k = mget m k := by rw [mget_mdel, if_neg h]

/-- A read after `msetD`, whichever key it is of. -/
theorem mgetD_msetD [DecidableEq α] (m : NMap α) (n k : Nat) (d v : α) : mgetD (msetD m n d v) k d = if n = k then v else mgetD m k d := by
  unfold msetD mgetD
  by_cases hv : v = d <;> by_cases hk : n = k <;> simp [hv, hk, mget_mput, mget_mdel]

theorem mgetD_msetD_same [DecidableEq α] (m : NMap α) (n : Nat) (d v : α) : mgetD (msetD m n d v) n d = v := by rw [mgetD_msetD, if_pos rfl]

theorem mgetD_msetD_ne [DecidableEq α] (m : NMap α) {n k : Nat} (d v : α) (h : n ≠ k) : mgetD (msetD m n d v) k d = mgetD m k d := by
  rw [mgetD_msetD, if_neg h]

/-! ## The canonical form -/

/-- Keys rise from a bound on exactly when they rise and every one lies above it. -/
theorem mrising_iff (m : NMap α) (lo : Option Nat) : mrising lo m = true ↔ m.Pairwise (fun p q => p.1 < q.1) ∧ ∀ a, lo = some a → ∀ p ∈ m, a < p.1 := by
  induction m generalizing lo with
  | nil => simp [mrising]
  | cons p m ih =>
    have step : mrising (some p.1) m = true ↔ m.Pairwise (fun p q => p.1 < q.1) ∧ ∀ q ∈ m, p.1 < q.1 := by simp [ih]
    cases lo with
    | none => simp [mrising, step, and_comm]
    | some a =>
      simp only [mrising, Bool.and_eq_true, decide_eq_true_eq, step, List.pairwise_cons, List.mem_cons, Option.some.injEq, forall_eq', forall_eq_or_imp]
      exact ⟨fun h => ⟨⟨h.2.2, h.2.1⟩, h.1, fun q hq => h.1.trans (h.2.2 q hq)⟩, fun h => ⟨h.2.1, h.1.2, h.1.1⟩⟩

/-- The canonical form: keys strictly rising, and no value that an unlisted key stands for. -/
theorem mcanon_iff [DecidableEq α] (m : NMap α) (d : α) : mcanon m d = true ↔ m.Pairwise (fun p q => p.1 < q.1) ∧ ∀ p ∈ m, p.2 ≠ d := by
  simp [mcanon, mrising_iff]

/-- Removing entries keeps the canonical form. -/
theorem mcanon_filter [DecidableEq α] {m : NMap α} {d : α} (f : Nat × α → Bool) (h : mcanon m d = true) : mcanon (m.filter f) d = true := by
  rw [mcanon_iff] at h ⊢
  exact ⟨h.1.filter f, fun p hp => h.2 p (List.mem_filter.mp hp).1⟩

/-- What a written map lists is the new entry or was listed before. -/
theorem mem_mput (m : NMap α) (n : Nat) (v : α) : ∀ p ∈ mput m n v, p = (n, v) ∨ p ∈ m := by
  induction m with
  | nil => simp [mput]
  | cons q m ih =>
    rw [mput_cons]
    split_ifs <;> intro p hp <;> simp only [List.mem_cons] at hp ⊢
    · exact hp
    · exact hp.imp id Or.inr
    · exact hp.elim (fun h => Or.inr (Or.inl h)) fun h => (ih p h).imp id Or.inr

theorem pairwise_mput (m : NMap α) (n : Nat) (v : α) (h : m.Pairwise fun p q => p.1 < q.1) : (mput m n v).Pairwise fun p q => p.1 < q.1 := by
  induction m with
  | nil => simp [mput]
  | cons q m ih =>
    rw [List.pairwise_cons] at h
    rw [mput_cons]
    split_ifs with lt eq
    · exact List.pairwise_cons.mpr ⟨by simpa [lt] using fun a b hb => lt.trans (h.1 (a, b) hb), List.pairwise_cons.mpr h⟩
    · exact List.pairwise_cons.mpr ⟨by simpa [eq] using h.1, h.2⟩
    · refine List.pairwise_cons.mpr ⟨fun p hp => ?_, ih h.2⟩
      rcases mem_mput m n v p hp with rfl | hm
      · simp only; omega
      · exact h.1 p hm

/-- Giving a key a value keeps the canonical form. -/
theorem mcanon_msetD [DecidableEq α] {m : NMap α} (n : Nat) (d v : α) (h : mcanon m d = true) : mcanon (msetD m n d v) d = true := by
  unfold msetD
  split_ifs with hv
  · exact mcanon_filter _ h
  · rw [mcanon_iff] at h ⊢
    exact ⟨pairwise_mput m n v h.1, fun p hp => (mem_mput m n v p hp).elim (fun e => e ▸ hv) (h.2 p)⟩

end Sys2Proof.Machine
end

