-- ==== Sys2Proof/Laws/State.lean ====
section
/-! SUPPORT. Laws of the named updates of the state: each leaves every other part of the state as it was, and a read of what it wrote gives what was written. -/

namespace Sys2Proof.Machine

variable (s : State)

@[simp] theorem State.wr_oct (o : Obj) (v : Nat) : (s.wr o v).oct = s.oct := rfl
@[simp] theorem State.wr_mem (o : Obj) (v : Nat) : (s.wr o v).mem = s.mem := rfl
@[simp] theorem State.wr_tiles (o : Obj) (v : Nat) : (s.wr o v).tiles = s.tiles := rfl
@[simp] theorem State.wr_posts (o : Obj) (v : Nat) : (s.wr o v).posts = s.posts := rfl
@[simp] theorem State.wr_decs (o : Obj) (v : Nat) : (s.wr o v).decs = s.decs := rfl
@[simp] theorem State.wr_jti (o : Obj) (v : Nat) : (s.wr o v).jti = s.jti := rfl
@[simp] theorem State.wr_chans (o : Obj) (v : Nat) : (s.wr o v).chans = s.chans := rfl
@[simp] theorem State.wr_qps (o : Obj) (v : Nat) : (s.wr o v).qps = s.qps := rfl
@[simp] theorem State.wr_links (o : Obj) (v : Nat) : (s.wr o v).links = s.links := rfl
@[simp] theorem State.wr_d2d (o : Obj) (v : Nat) : (s.wr o v).d2d = s.d2d := rfl
@[simp] theorem State.wr_router (o : Obj) (v : Nat) : (s.wr o v).router = s.router := rfl
@[simp] theorem State.wr_ni (o : Obj) (v : Nat) : (s.wr o v).ni = s.ni := rfl
@[simp] theorem State.wr_mEgress (o : Obj) (v : Nat) : (s.wr o v).mEgress = s.mEgress := rfl
@[simp] theorem State.wr_agent (o : Obj) (v : Nat) : (s.wr o v).agent = s.agent := rfl
@[simp] theorem State.wr_wh (o : Obj) (v : Nat) : (s.wr o v).wh = s.wh := rfl
@[simp] theorem State.wr_ctxs (o : Obj) (v : Nat) : (s.wr o v).ctxs = s.ctxs := rfl
@[simp] theorem State.wr_sec (o : Obj) (v : Nat) : (s.wr o v).sec = s.sec := rfl
@[simp] theorem State.wr_mgmt (o : Obj) (v : Nat) : (s.wr o v).mgmt = s.mgmt := rfl
@[simp] theorem State.wr_steward (o : Obj) (v : Nat) : (s.wr o v).steward = s.steward := rfl
@[simp] theorem State.wr_boot (o : Obj) (v : Nat) : (s.wr o v).boot = s.boot := rfl
@[simp] theorem State.wr_rcd (o : Obj) (v : Nat) : (s.wr o v).rcd = s.rcd := rfl
@[simp] theorem State.wr_now (o : Obj) (v : Nat) : (s.wr o v).now = s.now := rfl
@[simp] theorem State.wr_fresh (o : Obj) (v : Nat) : (s.wr o v).fresh = s.fresh := rfl
@[simp] theorem State.wr_nextAge (o : Obj) (v : Nat) : (s.wr o v).nextAge = s.nextAge := rfl
@[simp] theorem State.wr_heldHit (o : Obj) (v : Nat) : (s.wr o v).heldHit = s.heldHit := rfl
@[simp] theorem State.wr_sent (o : Obj) (v : Nat) : (s.wr o v).sent = s.sent := rfl
@[simp] theorem State.wr_pending (o : Obj) (v : Nat) : (s.wr o v).pending = s.pending := rfl

@[simp] theorem State.wro_reg (o : Oct) (v : Bytes) : (s.wro o v).reg = s.reg := rfl
@[simp] theorem State.wro_mem (o : Oct) (v : Bytes) : (s.wro o v).mem = s.mem := rfl
@[simp] theorem State.wro_tiles (o : Oct) (v : Bytes) : (s.wro o v).tiles = s.tiles := rfl
@[simp] theorem State.wro_posts (o : Oct) (v : Bytes) : (s.wro o v).posts = s.posts := rfl
@[simp] theorem State.wro_decs (o : Oct) (v : Bytes) : (s.wro o v).decs = s.decs := rfl
@[simp] theorem State.wro_jti (o : Oct) (v : Bytes) : (s.wro o v).jti = s.jti := rfl
@[simp] theorem State.wro_chans (o : Oct) (v : Bytes) : (s.wro o v).chans = s.chans := rfl
@[simp] theorem State.wro_qps (o : Oct) (v : Bytes) : (s.wro o v).qps = s.qps := rfl
@[simp] theorem State.wro_links (o : Oct) (v : Bytes) : (s.wro o v).links = s.links := rfl
@[simp] theorem State.wro_d2d (o : Oct) (v : Bytes) : (s.wro o v).d2d = s.d2d := rfl
@[simp] theorem State.wro_router (o : Oct) (v : Bytes) : (s.wro o v).router = s.router := rfl
@[simp] theorem State.wro_ni (o : Oct) (v : Bytes) : (s.wro o v).ni = s.ni := rfl
@[simp] theorem State.wro_mEgress (o : Oct) (v : Bytes) : (s.wro o v).mEgress = s.mEgress := rfl
@[simp] theorem State.wro_agent (o : Oct) (v : Bytes) : (s.wro o v).agent = s.agent := rfl
@[simp] theorem State.wro_wh (o : Oct) (v : Bytes) : (s.wro o v).wh = s.wh := rfl
@[simp] theorem State.wro_ctxs (o : Oct) (v : Bytes) : (s.wro o v).ctxs = s.ctxs := rfl
@[simp] theorem State.wro_sec (o : Oct) (v : Bytes) : (s.wro o v).sec = s.sec := rfl
@[simp] theorem State.wro_mgmt (o : Oct) (v : Bytes) : (s.wro o v).mgmt = s.mgmt := rfl
@[simp] theorem State.wro_steward (o : Oct) (v : Bytes) : (s.wro o v).steward = s.steward := rfl
@[simp] theorem State.wro_boot (o : Oct) (v : Bytes) : (s.wro o v).boot = s.boot := rfl
@[simp] theorem State.wro_rcd (o : Oct) (v : Bytes) : (s.wro o v).rcd = s.rcd := rfl
@[simp] theorem State.wro_now (o : Oct) (v : Bytes) : (s.wro o v).now = s.now := rfl
@[simp] theorem State.wro_fresh (o : Oct) (v : Bytes) : (s.wro o v).fresh = s.fresh := rfl
@[simp] theorem State.wro_nextAge (o : Oct) (v : Bytes) : (s.wro o v).nextAge = s.nextAge := rfl
@[simp] theorem State.wro_heldHit (o : Oct) (v : Bytes) : (s.wro o v).heldHit = s.heldHit := rfl
@[simp] theorem State.wro_sent (o : Oct) (v : Bytes) : (s.wro o v).sent = s.sent := rfl
@[simp] theorem State.wro_pending (o : Oct) (v : Bytes) : (s.wro o v).pending = s.pending := rfl

@[simp] theorem State.bumpBy_oct (o : Obj) (n : Nat) : (s.bumpBy o n).oct = s.oct := rfl
@[simp] theorem State.bumpBy_mem (o : Obj) (n : Nat) : (s.bumpBy o n).mem = s.mem := rfl
@[simp] theorem State.bumpBy_tiles (o : Obj) (n : Nat) : (s.bumpBy o n).tiles = s.tiles := rfl
@[simp] theorem State.bumpBy_posts (o : Obj) (n : Nat) : (s.bumpBy o n).posts = s.posts := rfl
@[simp] theorem State.bumpBy_decs (o : Obj) (n : Nat) : (s.bumpBy o n).decs = s.decs := rfl
@[simp] theorem State.bumpBy_jti (o : Obj) (n : Nat) : (s.bumpBy o n).jti = s.jti := rfl
@[simp] theorem State.bumpBy_chans (o : Obj) (n : Nat) : (s.bumpBy o n).chans = s.chans := rfl
@[simp] theorem State.bumpBy_qps (o : Obj) (n : Nat) : (s.bumpBy o n).qps = s.qps := rfl
@[simp] theorem State.bumpBy_links (o : Obj) (n : Nat) : (s.bumpBy o n).links = s.links := rfl
@[simp] theorem State.bumpBy_d2d (o : Obj) (n : Nat) : (s.bumpBy o n).d2d = s.d2d := rfl
@[simp] theorem State.bumpBy_router (o : Obj) (n : Nat) : (s.bumpBy o n).router = s.router := rfl
@[simp] theorem State.bumpBy_ni (o : Obj) (n : Nat) : (s.bumpBy o n).ni = s.ni := rfl
@[simp] theorem State.bumpBy_mEgress (o : Obj) (n : Nat) : (s.bumpBy o n).mEgress = s.mEgress := rfl
@[simp] theorem State.bumpBy_agent (o : Obj) (n : Nat) : (s.bumpBy o n).agent = s.agent := rfl
@[simp] theorem State.bumpBy_wh (o : Obj) (n : Nat) : (s.bumpBy o n).wh = s.wh := rfl
@[simp] theorem State.bumpBy_ctxs (o : Obj) (n : Nat) : (s.bumpBy o n).ctxs = s.ctxs := rfl
@[simp] theorem State.bumpBy_sec (o : Obj) (n : Nat) : (s.bumpBy o n).sec = s.sec := rfl
@[simp] theorem State.bumpBy_mgmt (o : Obj) (n : Nat) : (s.bumpBy o n).mgmt = s.mgmt := rfl
@[simp] theorem State.bumpBy_steward (o : Obj) (n : Nat) : (s.bumpBy o n).steward = s.steward := rfl
@[simp] theorem State.bumpBy_boot (o : Obj) (n : Nat) : (s.bumpBy o n).boot = s.boot := rfl
@[simp] theorem State.bumpBy_rcd (o : Obj) (n : Nat) : (s.bumpBy o n).rcd = s.rcd := rfl
@[simp] theorem State.bumpBy_now (o : Obj) (n : Nat) : (s.bumpBy o n).now = s.now := rfl
@[simp] theorem State.bumpBy_fresh (o : Obj) (n : Nat) : (s.bumpBy o n).fresh = s.fresh := rfl
@[simp] theorem State.bumpBy_nextAge (o : Obj) (n : Nat) : (s.bumpBy o n).nextAge = s.nextAge := rfl
@[simp] theorem State.bumpBy_heldHit (o : Obj) (n : Nat) : (s.bumpBy o n).heldHit = s.heldHit := rfl
@[simp] theorem State.bumpBy_sent (o : Obj) (n : Nat) : (s.bumpBy o n).sent = s.sent := rfl
@[simp] theorem State.bumpBy_pending (o : Obj) (n : Nat) : (s.bumpBy o n).pending = s.pending := rfl

@[simp] theorem State.bump_oct (o : Obj) : (s.bump o).oct = s.oct := rfl
@[simp] theorem State.bump_mem (o : Obj) : (s.bump o).mem = s.mem := rfl
@[simp] theorem State.bump_tiles (o : Obj) : (s.bump o).tiles = s.tiles := rfl
@[simp] theorem State.bump_posts (o : Obj) : (s.bump o).posts = s.posts := rfl
@[simp] theorem State.bump_decs (o : Obj) : (s.bump o).decs = s.decs := rfl
@[simp] theorem State.bump_jti (o : Obj) : (s.bump o).jti = s.jti := rfl
@[simp] theorem State.bump_chans (o : Obj) : (s.bump o).chans = s.chans := rfl
@[simp] theorem State.bump_qps (o : Obj) : (s.bump o).qps = s.qps := rfl
@[simp] theorem State.bump_links (o : Obj) : (s.bump o).links = s.links := rfl
@[simp] theorem State.bump_d2d (o : Obj) : (s.bump o).d2d = s.d2d := rfl
@[simp] theorem State.bump_router (o : Obj) : (s.bump o).router = s.router := rfl
@[simp] theorem State.bump_ni (o : Obj) : (s.bump o).ni = s.ni := rfl
@[simp] theorem State.bump_mEgress (o : Obj) : (s.bump o).mEgress = s.mEgress := rfl
@[simp] theorem State.bump_agent (o : Obj) : (s.bump o).agent = s.agent := rfl
@[simp] theorem State.bump_wh (o : Obj) : (s.bump o).wh = s.wh := rfl
@[simp] theorem State.bump_ctxs (o : Obj) : (s.bump o).ctxs = s.ctxs := rfl
@[simp] theorem State.bump_sec (o : Obj) : (s.bump o).sec = s.sec := rfl
@[simp] theorem State.bump_mgmt (o : Obj) : (s.bump o).mgmt = s.mgmt := rfl
@[simp] theorem State.bump_steward (o : Obj) : (s.bump o).steward = s.steward := rfl
@[simp] theorem State.bump_boot (o : Obj) : (s.bump o).boot = s.boot := rfl
@[simp] theorem State.bump_rcd (o : Obj) : (s.bump o).rcd = s.rcd := rfl
@[simp] theorem State.bump_now (o : Obj) : (s.bump o).now = s.now := rfl
@[simp] theorem State.bump_fresh (o : Obj) : (s.bump o).fresh = s.fresh := rfl
@[simp] theorem State.bump_nextAge (o : Obj) : (s.bump o).nextAge = s.nextAge := rfl
@[simp] theorem State.bump_heldHit (o : Obj) : (s.bump o).heldHit = s.heldHit := rfl
@[simp] theorem State.bump_sent (o : Obj) : (s.bump o).sent = s.sent := rfl
@[simp] theorem State.bump_pending (o : Obj) : (s.bump o).pending = s.pending := rfl

@[simp] theorem State.bumpSat_oct (o : Obj) (w : Nat) : (s.bumpSat o w).oct = s.oct := rfl
@[simp] theorem State.bumpSat_mem (o : Obj) (w : Nat) : (s.bumpSat o w).mem = s.mem := rfl
@[simp] theorem State.bumpSat_tiles (o : Obj) (w : Nat) : (s.bumpSat o w).tiles = s.tiles := rfl
@[simp] theorem State.bumpSat_posts (o : Obj) (w : Nat) : (s.bumpSat o w).posts = s.posts := rfl
@[simp] theorem State.bumpSat_decs (o : Obj) (w : Nat) : (s.bumpSat o w).decs = s.decs := rfl
@[simp] theorem State.bumpSat_jti (o : Obj) (w : Nat) : (s.bumpSat o w).jti = s.jti := rfl
@[simp] theorem State.bumpSat_chans (o : Obj) (w : Nat) : (s.bumpSat o w).chans = s.chans := rfl
@[simp] theorem State.bumpSat_qps (o : Obj) (w : Nat) : (s.bumpSat o w).qps = s.qps := rfl
@[simp] theorem State.bumpSat_links (o : Obj) (w : Nat) : (s.bumpSat o w).links = s.links := rfl
@[simp] theorem State.bumpSat_d2d (o : Obj) (w : Nat) : (s.bumpSat o w).d2d = s.d2d := rfl
@[simp] theorem State.bumpSat_router (o : Obj) (w : Nat) : (s.bumpSat o w).router = s.router := rfl
@[simp] theorem State.bumpSat_ni (o : Obj) (w : Nat) : (s.bumpSat o w).ni = s.ni := rfl
@[simp] theorem State.bumpSat_mEgress (o : Obj) (w : Nat) : (s.bumpSat o w).mEgress = s.mEgress := rfl
@[simp] theorem State.bumpSat_agent (o : Obj) (w : Nat) : (s.bumpSat o w).agent = s.agent := rfl
@[simp] theorem State.bumpSat_wh (o : Obj) (w : Nat) : (s.bumpSat o w).wh = s.wh := rfl
@[simp] theorem State.bumpSat_ctxs (o : Obj) (w : Nat) : (s.bumpSat o w).ctxs = s.ctxs := rfl
@[simp] theorem State.bumpSat_sec (o : Obj) (w : Nat) : (s.bumpSat o w).sec = s.sec := rfl
@[simp] theorem State.bumpSat_mgmt (o : Obj) (w : Nat) : (s.bumpSat o w).mgmt = s.mgmt := rfl
@[simp] theorem State.bumpSat_steward (o : Obj) (w : Nat) : (s.bumpSat o w).steward = s.steward := rfl
@[simp] theorem State.bumpSat_boot (o : Obj) (w : Nat) : (s.bumpSat o w).boot = s.boot := rfl
@[simp] theorem State.bumpSat_rcd (o : Obj) (w : Nat) : (s.bumpSat o w).rcd = s.rcd := rfl
@[simp] theorem State.bumpSat_now (o : Obj) (w : Nat) : (s.bumpSat o w).now = s.now := rfl
@[simp] theorem State.bumpSat_fresh (o : Obj) (w : Nat) : (s.bumpSat o w).fresh = s.fresh := rfl
@[simp] theorem State.bumpSat_nextAge (o : Obj) (w : Nat) : (s.bumpSat o w).nextAge = s.nextAge := rfl
@[simp] theorem State.bumpSat_heldHit (o : Obj) (w : Nat) : (s.bumpSat o w).heldHit = s.heldHit := rfl
@[simp] theorem State.bumpSat_sent (o : Obj) (w : Nat) : (s.bumpSat o w).sent = s.sent := rfl
@[simp] theorem State.bumpSat_pending (o : Obj) (w : Nat) : (s.bumpSat o w).pending = s.pending := rfl

@[simp] theorem State.emit_reg (e : Emit) : (s.emit e).reg = s.reg := rfl
@[simp] theorem State.emit_oct (e : Emit) : (s.emit e).oct = s.oct := rfl
@[simp] theorem State.emit_mem (e : Emit) : (s.emit e).mem = s.mem := rfl
@[simp] theorem State.emit_tiles (e : Emit) : (s.emit e).tiles = s.tiles := rfl
@[simp] theorem State.emit_posts (e : Emit) : (s.emit e).posts = s.posts := rfl
@[simp] theorem State.emit_decs (e : Emit) : (s.emit e).decs = s.decs := rfl
@[simp] theorem State.emit_jti (e : Emit) : (s.emit e).jti = s.jti := rfl
@[simp] theorem State.emit_chans (e : Emit) : (s.emit e).chans = s.chans := rfl
@[simp] theorem State.emit_qps (e : Emit) : (s.emit e).qps = s.qps := rfl
@[simp] theorem State.emit_links (e : Emit) : (s.emit e).links = s.links := rfl
@[simp] theorem State.emit_d2d (e : Emit) : (s.emit e).d2d = s.d2d := rfl
@[simp] theorem State.emit_router (e : Emit) : (s.emit e).router = s.router := rfl
@[simp] theorem State.emit_ni (e : Emit) : (s.emit e).ni = s.ni := rfl
@[simp] theorem State.emit_mEgress (e : Emit) : (s.emit e).mEgress = s.mEgress := rfl
@[simp] theorem State.emit_agent (e : Emit) : (s.emit e).agent = s.agent := rfl
@[simp] theorem State.emit_wh (e : Emit) : (s.emit e).wh = s.wh := rfl
@[simp] theorem State.emit_ctxs (e : Emit) : (s.emit e).ctxs = s.ctxs := rfl
@[simp] theorem State.emit_sec (e : Emit) : (s.emit e).sec = s.sec := rfl
@[simp] theorem State.emit_mgmt (e : Emit) : (s.emit e).mgmt = s.mgmt := rfl
@[simp] theorem State.emit_steward (e : Emit) : (s.emit e).steward = s.steward := rfl
@[simp] theorem State.emit_boot (e : Emit) : (s.emit e).boot = s.boot := rfl
@[simp] theorem State.emit_rcd (e : Emit) : (s.emit e).rcd = s.rcd := rfl
@[simp] theorem State.emit_now (e : Emit) : (s.emit e).now = s.now := rfl
@[simp] theorem State.emit_fresh (e : Emit) : (s.emit e).fresh = s.fresh := rfl
@[simp] theorem State.emit_nextAge (e : Emit) : (s.emit e).nextAge = s.nextAge := rfl
@[simp] theorem State.emit_heldHit (e : Emit) : (s.emit e).heldHit = s.heldHit := rfl
@[simp] theorem State.emit_pending (e : Emit) : (s.emit e).pending = s.pending := rfl

@[simp] theorem State.free_reg (n : Nat) : ((s.free n).2).reg = s.reg := rfl
@[simp] theorem State.free_oct (n : Nat) : ((s.free n).2).oct = s.oct := rfl
@[simp] theorem State.free_mem (n : Nat) : ((s.free n).2).mem = s.mem := rfl
@[simp] theorem State.free_tiles (n : Nat) : ((s.free n).2).tiles = s.tiles := rfl
@[simp] theorem State.free_posts (n : Nat) : ((s.free n).2).posts = s.posts := rfl
@[simp] theorem State.free_decs (n : Nat) : ((s.free n).2).decs = s.decs := rfl
@[simp] theorem State.free_jti (n : Nat) : ((s.free n).2).jti = s.jti := rfl
@[simp] theorem State.free_chans (n : Nat) : ((s.free n).2).chans = s.chans := rfl
@[simp] theorem State.free_qps (n : Nat) : ((s.free n).2).qps = s.qps := rfl
@[simp] theorem State.free_links (n : Nat) : ((s.free n).2).links = s.links := rfl
@[simp] theorem State.free_d2d (n : Nat) : ((s.free n).2).d2d = s.d2d := rfl
@[simp] theorem State.free_router (n : Nat) : ((s.free n).2).router = s.router := rfl
@[simp] theorem State.free_ni (n : Nat) : ((s.free n).2).ni = s.ni := rfl
@[simp] theorem State.free_mEgress (n : Nat) : ((s.free n).2).mEgress = s.mEgress := rfl
@[simp] theorem State.free_agent (n : Nat) : ((s.free n).2).agent = s.agent := rfl
@[simp] theorem State.free_wh (n : Nat) : ((s.free n).2).wh = s.wh := rfl
@[simp] theorem State.free_ctxs (n : Nat) : ((s.free n).2).ctxs = s.ctxs := rfl
@[simp] theorem State.free_sec (n : Nat) : ((s.free n).2).sec = s.sec := rfl
@[simp] theorem State.free_mgmt (n : Nat) : ((s.free n).2).mgmt = s.mgmt := rfl
@[simp] theorem State.free_steward (n : Nat) : ((s.free n).2).steward = s.steward := rfl
@[simp] theorem State.free_boot (n : Nat) : ((s.free n).2).boot = s.boot := rfl
@[simp] theorem State.free_rcd (n : Nat) : ((s.free n).2).rcd = s.rcd := rfl
@[simp] theorem State.free_now (n : Nat) : ((s.free n).2).now = s.now := rfl
@[simp] theorem State.free_nextAge (n : Nat) : ((s.free n).2).nextAge = s.nextAge := rfl
@[simp] theorem State.free_heldHit (n : Nat) : ((s.free n).2).heldHit = s.heldHit := rfl
@[simp] theorem State.free_sent (n : Nat) : ((s.free n).2).sent = s.sent := rfl
@[simp] theorem State.free_pending (n : Nat) : ((s.free n).2).pending = s.pending := rfl

@[simp] theorem State.setTile_reg (n : Nat) (t : Tile) : (s.setTile n t).reg = s.reg := rfl
@[simp] theorem State.setTile_oct (n : Nat) (t : Tile) : (s.setTile n t).oct = s.oct := rfl
@[simp] theorem State.setTile_mem (n : Nat) (t : Tile) : (s.setTile n t).mem = s.mem := rfl
@[simp] theorem State.setTile_posts (n : Nat) (t : Tile) : (s.setTile n t).posts = s.posts := rfl
@[simp] theorem State.setTile_decs (n : Nat) (t : Tile) : (s.setTile n t).decs = s.decs := rfl
@[simp] theorem State.setTile_jti (n : Nat) (t : Tile) : (s.setTile n t).jti = s.jti := rfl
@[simp] theorem State.setTile_chans (n : Nat) (t : Tile) : (s.setTile n t).chans = s.chans := rfl
@[simp] theorem State.setTile_qps (n : Nat) (t : Tile) : (s.setTile n t).qps = s.qps := rfl
@[simp] theorem State.setTile_links (n : Nat) (t : Tile) : (s.setTile n t).links = s.links := rfl
@[simp] theorem State.setTile_d2d (n : Nat) (t : Tile) : (s.setTile n t).d2d = s.d2d := rfl
@[simp] theorem State.setTile_router (n : Nat) (t : Tile) : (s.setTile n t).router = s.router := rfl
@[simp] theorem State.setTile_ni (n : Nat) (t : Tile) : (s.setTile n t).ni = s.ni := rfl
@[simp] theorem State.setTile_mEgress (n : Nat) (t : Tile) : (s.setTile n t).mEgress = s.mEgress := rfl
@[simp] theorem State.setTile_agent (n : Nat) (t : Tile) : (s.setTile n t).agent = s.agent := rfl
@[simp] theorem State.setTile_wh (n : Nat) (t : Tile) : (s.setTile n t).wh = s.wh := rfl
@[simp] theorem State.setTile_ctxs (n : Nat) (t : Tile) : (s.setTile n t).ctxs = s.ctxs := rfl
@[simp] theorem State.setTile_sec (n : Nat) (t : Tile) : (s.setTile n t).sec = s.sec := rfl
@[simp] theorem State.setTile_mgmt (n : Nat) (t : Tile) : (s.setTile n t).mgmt = s.mgmt := rfl
@[simp] theorem State.setTile_steward (n : Nat) (t : Tile) : (s.setTile n t).steward = s.steward := rfl
@[simp] theorem State.setTile_boot (n : Nat) (t : Tile) : (s.setTile n t).boot = s.boot := rfl
@[simp] theorem State.setTile_rcd (n : Nat) (t : Tile) : (s.setTile n t).rcd = s.rcd := rfl
@[simp] theorem State.setTile_now (n : Nat) (t : Tile) : (s.setTile n t).now = s.now := rfl
@[simp] theorem State.setTile_fresh (n : Nat) (t : Tile) : (s.setTile n t).fresh = s.fresh := rfl
@[simp] theorem State.setTile_nextAge (n : Nat) (t : Tile) : (s.setTile n t).nextAge = s.nextAge := rfl
@[simp] theorem State.setTile_heldHit (n : Nat) (t : Tile) : (s.setTile n t).heldHit = s.heldHit := rfl
@[simp] theorem State.setTile_sent (n : Nat) (t : Tile) : (s.setTile n t).sent = s.sent := rfl
@[simp] theorem State.setTile_pending (n : Nat) (t : Tile) : (s.setTile n t).pending = s.pending := rfl

@[simp] theorem State.setChan_reg (c : Nat) (v : TeChan) : (s.setChan c v).reg = s.reg := rfl
@[simp] theorem State.setChan_oct (c : Nat) (v : TeChan) : (s.setChan c v).oct = s.oct := rfl
@[simp] theorem State.setChan_mem (c : Nat) (v : TeChan) : (s.setChan c v).mem = s.mem := rfl
@[simp] theorem State.setChan_tiles (c : Nat) (v : TeChan) : (s.setChan c v).tiles = s.tiles := rfl
@[simp] theorem State.setChan_posts (c : Nat) (v : TeChan) : (s.setChan c v).posts = s.posts := rfl
@[simp] theorem State.setChan_decs (c : Nat) (v : TeChan) : (s.setChan c v).decs = s.decs := rfl
@[simp] theorem State.setChan_jti (c : Nat) (v : TeChan) : (s.setChan c v).jti = s.jti := rfl
@[simp] theorem State.setChan_qps (c : Nat) (v : TeChan) : (s.setChan c v).qps = s.qps := rfl
@[simp] theorem State.setChan_links (c : Nat) (v : TeChan) : (s.setChan c v).links = s.links := rfl
@[simp] theorem State.setChan_d2d (c : Nat) (v : TeChan) : (s.setChan c v).d2d = s.d2d := rfl
@[simp] theorem State.setChan_router (c : Nat) (v : TeChan) : (s.setChan c v).router = s.router := rfl
@[simp] theorem State.setChan_ni (c : Nat) (v : TeChan) : (s.setChan c v).ni = s.ni := rfl
@[simp] theorem State.setChan_mEgress (c : Nat) (v : TeChan) : (s.setChan c v).mEgress = s.mEgress := rfl
@[simp] theorem State.setChan_agent (c : Nat) (v : TeChan) : (s.setChan c v).agent = s.agent := rfl
@[simp] theorem State.setChan_wh (c : Nat) (v : TeChan) : (s.setChan c v).wh = s.wh := rfl
@[simp] theorem State.setChan_ctxs (c : Nat) (v : TeChan) : (s.setChan c v).ctxs = s.ctxs := rfl
@[simp] theorem State.setChan_sec (c : Nat) (v : TeChan) : (s.setChan c v).sec = s.sec := rfl
@[simp] theorem State.setChan_mgmt (c : Nat) (v : TeChan) : (s.setChan c v).mgmt = s.mgmt := rfl
@[simp] theorem State.setChan_steward (c : Nat) (v : TeChan) : (s.setChan c v).steward = s.steward := rfl
@[simp] theorem State.setChan_boot (c : Nat) (v : TeChan) : (s.setChan c v).boot = s.boot := rfl
@[simp] theorem State.setChan_rcd (c : Nat) (v : TeChan) : (s.setChan c v).rcd = s.rcd := rfl
@[simp] theorem State.setChan_now (c : Nat) (v : TeChan) : (s.setChan c v).now = s.now := rfl
@[simp] theorem State.setChan_fresh (c : Nat) (v : TeChan) : (s.setChan c v).fresh = s.fresh := rfl
@[simp] theorem State.setChan_nextAge (c : Nat) (v : TeChan) : (s.setChan c v).nextAge = s.nextAge := rfl
@[simp] theorem State.setChan_heldHit (c : Nat) (v : TeChan) : (s.setChan c v).heldHit = s.heldHit := rfl
@[simp] theorem State.setChan_sent (c : Nat) (v : TeChan) : (s.setChan c v).sent = s.sent := rfl
@[simp] theorem State.setChan_pending (c : Nat) (v : TeChan) : (s.setChan c v).pending = s.pending := rfl

@[simp] theorem State.setQp_reg (h q : Nat) (v : HteQp) : (s.setQp h q v).reg = s.reg := rfl
@[simp] theorem State.setQp_oct (h q : Nat) (v : HteQp) : (s.setQp h q v).oct = s.oct := rfl
@[simp] theorem State.setQp_mem (h q : Nat) (v : HteQp) : (s.setQp h q v).mem = s.mem := rfl
@[simp] theorem State.setQp_tiles (h q : Nat) (v : HteQp) : (s.setQp h q v).tiles = s.tiles := rfl
@[simp] theorem State.setQp_posts (h q : Nat) (v : HteQp) : (s.setQp h q v).posts = s.posts := rfl
@[simp] theorem State.setQp_decs (h q : Nat) (v : HteQp) : (s.setQp h q v).decs = s.decs := rfl
@[simp] theorem State.setQp_jti (h q : Nat) (v : HteQp) : (s.setQp h q v).jti = s.jti := rfl
@[simp] theorem State.setQp_chans (h q : Nat) (v : HteQp) : (s.setQp h q v).chans = s.chans := rfl
@[simp] theorem State.setQp_links (h q : Nat) (v : HteQp) : (s.setQp h q v).links = s.links := rfl
@[simp] theorem State.setQp_d2d (h q : Nat) (v : HteQp) : (s.setQp h q v).d2d = s.d2d := rfl
@[simp] theorem State.setQp_router (h q : Nat) (v : HteQp) : (s.setQp h q v).router = s.router := rfl
@[simp] theorem State.setQp_ni (h q : Nat) (v : HteQp) : (s.setQp h q v).ni = s.ni := rfl
@[simp] theorem State.setQp_mEgress (h q : Nat) (v : HteQp) : (s.setQp h q v).mEgress = s.mEgress := rfl
@[simp] theorem State.setQp_agent (h q : Nat) (v : HteQp) : (s.setQp h q v).agent = s.agent := rfl
@[simp] theorem State.setQp_wh (h q : Nat) (v : HteQp) : (s.setQp h q v).wh = s.wh := rfl
@[simp] theorem State.setQp_ctxs (h q : Nat) (v : HteQp) : (s.setQp h q v).ctxs = s.ctxs := rfl
@[simp] theorem State.setQp_sec (h q : Nat) (v : HteQp) : (s.setQp h q v).sec = s.sec := rfl
@[simp] theorem State.setQp_mgmt (h q : Nat) (v : HteQp) : (s.setQp h q v).mgmt = s.mgmt := rfl
@[simp] theorem State.setQp_steward (h q : Nat) (v : HteQp) : (s.setQp h q v).steward = s.steward := rfl
@[simp] theorem State.setQp_boot (h q : Nat) (v : HteQp) : (s.setQp h q v).boot = s.boot := rfl
@[simp] theorem State.setQp_rcd (h q : Nat) (v : HteQp) : (s.setQp h q v).rcd = s.rcd := rfl
@[simp] theorem State.setQp_now (h q : Nat) (v : HteQp) : (s.setQp h q v).now = s.now := rfl
@[simp] theorem State.setQp_fresh (h q : Nat) (v : HteQp) : (s.setQp h q v).fresh = s.fresh := rfl
@[simp] theorem State.setQp_nextAge (h q : Nat) (v : HteQp) : (s.setQp h q v).nextAge = s.nextAge := rfl
@[simp] theorem State.setQp_heldHit (h q : Nat) (v : HteQp) : (s.setQp h q v).heldHit = s.heldHit := rfl
@[simp] theorem State.setQp_sent (h q : Nat) (v : HteQp) : (s.setQp h q v).sent = s.sent := rfl
@[simp] theorem State.setQp_pending (h q : Nat) (v : HteQp) : (s.setQp h q v).pending = s.pending := rfl

@[simp] theorem State.setLink_reg (p : Nat) (v : LinkPort) : (s.setLink p v).reg = s.reg := rfl
@[simp] theorem State.setLink_oct (p : Nat) (v : LinkPort) : (s.setLink p v).oct = s.oct := rfl
@[simp] theorem State.setLink_mem (p : Nat) (v : LinkPort) : (s.setLink p v).mem = s.mem := rfl
@[simp] theorem State.setLink_tiles (p : Nat) (v : LinkPort) : (s.setLink p v).tiles = s.tiles := rfl
@[simp] theorem State.setLink_posts (p : Nat) (v : LinkPort) : (s.setLink p v).posts = s.posts := rfl
@[simp] theorem State.setLink_decs (p : Nat) (v : LinkPort) : (s.setLink p v).decs = s.decs := rfl
@[simp] theorem State.setLink_jti (p : Nat) (v : LinkPort) : (s.setLink p v).jti = s.jti := rfl
@[simp] theorem State.setLink_chans (p : Nat) (v : LinkPort) : (s.setLink p v).chans = s.chans := rfl
@[simp] theorem State.setLink_qps (p : Nat) (v : LinkPort) : (s.setLink p v).qps = s.qps := rfl
@[simp] theorem State.setLink_d2d (p : Nat) (v : LinkPort) : (s.setLink p v).d2d = s.d2d := rfl
@[simp] theorem State.setLink_router (p : Nat) (v : LinkPort) : (s.setLink p v).router = s.router := rfl
@[simp] theorem State.setLink_ni (p : Nat) (v : LinkPort) : (s.setLink p v).ni = s.ni := rfl
@[simp] theorem State.setLink_mEgress (p : Nat) (v : LinkPort) : (s.setLink p v).mEgress = s.mEgress := rfl
@[simp] theorem State.setLink_agent (p : Nat) (v : LinkPort) : (s.setLink p v).agent = s.agent := rfl
@[simp] theorem State.setLink_wh (p : Nat) (v : LinkPort) : (s.setLink p v).wh = s.wh := rfl
@[simp] theorem State.setLink_ctxs (p : Nat) (v : LinkPort) : (s.setLink p v).ctxs = s.ctxs := rfl
@[simp] theorem State.setLink_sec (p : Nat) (v : LinkPort) : (s.setLink p v).sec = s.sec := rfl
@[simp] theorem State.setLink_mgmt (p : Nat) (v : LinkPort) : (s.setLink p v).mgmt = s.mgmt := rfl
@[simp] theorem State.setLink_steward (p : Nat) (v : LinkPort) : (s.setLink p v).steward = s.steward := rfl
@[simp] theorem State.setLink_boot (p : Nat) (v : LinkPort) : (s.setLink p v).boot = s.boot := rfl
@[simp] theorem State.setLink_rcd (p : Nat) (v : LinkPort) : (s.setLink p v).rcd = s.rcd := rfl
@[simp] theorem State.setLink_now (p : Nat) (v : LinkPort) : (s.setLink p v).now = s.now := rfl
@[simp] theorem State.setLink_fresh (p : Nat) (v : LinkPort) : (s.setLink p v).fresh = s.fresh := rfl
@[simp] theorem State.setLink_nextAge (p : Nat) (v : LinkPort) : (s.setLink p v).nextAge = s.nextAge := rfl
@[simp] theorem State.setLink_heldHit (p : Nat) (v : LinkPort) : (s.setLink p v).heldHit = s.heldHit := rfl
@[simp] theorem State.setLink_sent (p : Nat) (v : LinkPort) : (s.setLink p v).sent = s.sent := rfl
@[simp] theorem State.setLink_pending (p : Nat) (v : LinkPort) : (s.setLink p v).pending = s.pending := rfl

@[simp] theorem State.setNi_reg (i : Nat) (v : Ni) : (s.setNi i v).reg = s.reg := rfl
@[simp] theorem State.setNi_oct (i : Nat) (v : Ni) : (s.setNi i v).oct = s.oct := rfl
@[simp] theorem State.setNi_mem (i : Nat) (v : Ni) : (s.setNi i v).mem = s.mem := rfl
@[simp] theorem State.setNi_tiles (i : Nat) (v : Ni) : (s.setNi i v).tiles = s.tiles := rfl
@[simp] theorem State.setNi_posts (i : Nat) (v : Ni) : (s.setNi i v).posts = s.posts := rfl
@[simp] theorem State.setNi_decs (i : Nat) (v : Ni) : (s.setNi i v).decs = s.decs := rfl
@[simp] theorem State.setNi_jti (i : Nat) (v : Ni) : (s.setNi i v).jti = s.jti := rfl
@[simp] theorem State.setNi_chans (i : Nat) (v : Ni) : (s.setNi i v).chans = s.chans := rfl
@[simp] theorem State.setNi_qps (i : Nat) (v : Ni) : (s.setNi i v).qps = s.qps := rfl
@[simp] theorem State.setNi_links (i : Nat) (v : Ni) : (s.setNi i v).links = s.links := rfl
@[simp] theorem State.setNi_d2d (i : Nat) (v : Ni) : (s.setNi i v).d2d = s.d2d := rfl
@[simp] theorem State.setNi_router (i : Nat) (v : Ni) : (s.setNi i v).router = s.router := rfl
@[simp] theorem State.setNi_mEgress (i : Nat) (v : Ni) : (s.setNi i v).mEgress = s.mEgress := rfl
@[simp] theorem State.setNi_agent (i : Nat) (v : Ni) : (s.setNi i v).agent = s.agent := rfl
@[simp] theorem State.setNi_wh (i : Nat) (v : Ni) : (s.setNi i v).wh = s.wh := rfl
@[simp] theorem State.setNi_ctxs (i : Nat) (v : Ni) : (s.setNi i v).ctxs = s.ctxs := rfl
@[simp] theorem State.setNi_sec (i : Nat) (v : Ni) : (s.setNi i v).sec = s.sec := rfl
@[simp] theorem State.setNi_mgmt (i : Nat) (v : Ni) : (s.setNi i v).mgmt = s.mgmt := rfl
@[simp] theorem State.setNi_steward (i : Nat) (v : Ni) : (s.setNi i v).steward = s.steward := rfl
@[simp] theorem State.setNi_boot (i : Nat) (v : Ni) : (s.setNi i v).boot = s.boot := rfl
@[simp] theorem State.setNi_rcd (i : Nat) (v : Ni) : (s.setNi i v).rcd = s.rcd := rfl
@[simp] theorem State.setNi_now (i : Nat) (v : Ni) : (s.setNi i v).now = s.now := rfl
@[simp] theorem State.setNi_fresh (i : Nat) (v : Ni) : (s.setNi i v).fresh = s.fresh := rfl
@[simp] theorem State.setNi_nextAge (i : Nat) (v : Ni) : (s.setNi i v).nextAge = s.nextAge := rfl
@[simp] theorem State.setNi_heldHit (i : Nat) (v : Ni) : (s.setNi i v).heldHit = s.heldHit := rfl
@[simp] theorem State.setNi_sent (i : Nat) (v : Ni) : (s.setNi i v).sent = s.sent := rfl
@[simp] theorem State.setNi_pending (i : Nat) (v : Ni) : (s.setNi i v).pending = s.pending := rfl

@[simp] theorem State.setNiq_reg (i c : Nat) (v : NiQueue) : (s.setNiq i c v).reg = s.reg := rfl
@[simp] theorem State.setNiq_oct (i c : Nat) (v : NiQueue) : (s.setNiq i c v).oct = s.oct := rfl
@[simp] theorem State.setNiq_mem (i c : Nat) (v : NiQueue) : (s.setNiq i c v).mem = s.mem := rfl
@[simp] theorem State.setNiq_tiles (i c : Nat) (v : NiQueue) : (s.setNiq i c v).tiles = s.tiles := rfl
@[simp] theorem State.setNiq_posts (i c : Nat) (v : NiQueue) : (s.setNiq i c v).posts = s.posts := rfl
@[simp] theorem State.setNiq_decs (i c : Nat) (v : NiQueue) : (s.setNiq i c v).decs = s.decs := rfl
@[simp] theorem State.setNiq_jti (i c : Nat) (v : NiQueue) : (s.setNiq i c v).jti = s.jti := rfl
@[simp] theorem State.setNiq_chans (i c : Nat) (v : NiQueue) : (s.setNiq i c v).chans = s.chans := rfl
@[simp] theorem State.setNiq_qps (i c : Nat) (v : NiQueue) : (s.setNiq i c v).qps = s.qps := rfl
@[simp] theorem State.setNiq_links (i c : Nat) (v : NiQueue) : (s.setNiq i c v).links = s.links := rfl
@[simp] theorem State.setNiq_d2d (i c : Nat) (v : NiQueue) : (s.setNiq i c v).d2d = s.d2d := rfl
@[simp] theorem State.setNiq_router (i c : Nat) (v : NiQueue) : (s.setNiq i c v).router = s.router := rfl
@[simp] theorem State.setNiq_mEgress (i c : Nat) (v : NiQueue) : (s.setNiq i c v).mEgress = s.mEgress := rfl
@[simp] theorem State.setNiq_agent (i c : Nat) (v : NiQueue) : (s.setNiq i c v).agent = s.agent := rfl
@[simp] theorem State.setNiq_wh (i c : Nat) (v : NiQueue) : (s.setNiq i c v).wh = s.wh := rfl
@[simp] theorem State.setNiq_ctxs (i c : Nat) (v : NiQueue) : (s.setNiq i c v).ctxs = s.ctxs := rfl
@[simp] theorem State.setNiq_sec (i c : Nat) (v : NiQueue) : (s.setNiq i c v).sec = s.sec := rfl
@[simp] theorem State.setNiq_mgmt (i c : Nat) (v : NiQueue) : (s.setNiq i c v).mgmt = s.mgmt := rfl
@[simp] theorem State.setNiq_steward (i c : Nat) (v : NiQueue) : (s.setNiq i c v).steward = s.steward := rfl
@[simp] theorem State.setNiq_boot (i c : Nat) (v : NiQueue) : (s.setNiq i c v).boot = s.boot := rfl
@[simp] theorem State.setNiq_rcd (i c : Nat) (v : NiQueue) : (s.setNiq i c v).rcd = s.rcd := rfl
@[simp] theorem State.setNiq_now (i c : Nat) (v : NiQueue) : (s.setNiq i c v).now = s.now := rfl
@[simp] theorem State.setNiq_fresh (i c : Nat) (v : NiQueue) : (s.setNiq i c v).fresh = s.fresh := rfl
@[simp] theorem State.setNiq_nextAge (i c : Nat) (v : NiQueue) : (s.setNiq i c v).nextAge = s.nextAge := rfl
@[simp] theorem State.setNiq_heldHit (i c : Nat) (v : NiQueue) : (s.setNiq i c v).heldHit = s.heldHit := rfl
@[simp] theorem State.setNiq_sent (i c : Nat) (v : NiQueue) : (s.setNiq i c v).sent = s.sent := rfl
@[simp] theorem State.setNiq_pending (i c : Nat) (v : NiQueue) : (s.setNiq i c v).pending = s.pending := rfl

@[simp] theorem State.setMbox_reg (m : Nat) (v : Mailbox) : (s.setMbox m v).reg = s.reg := rfl
@[simp] theorem State.setMbox_oct (m : Nat) (v : Mailbox) : (s.setMbox m v).oct = s.oct := rfl
@[simp] theorem State.setMbox_mem (m : Nat) (v : Mailbox) : (s.setMbox m v).mem = s.mem := rfl
@[simp] theorem State.setMbox_tiles (m : Nat) (v : Mailbox) : (s.setMbox m v).tiles = s.tiles := rfl
@[simp] theorem State.setMbox_posts (m : Nat) (v : Mailbox) : (s.setMbox m v).posts = s.posts := rfl
@[simp] theorem State.setMbox_decs (m : Nat) (v : Mailbox) : (s.setMbox m v).decs = s.decs := rfl
@[simp] theorem State.setMbox_jti (m : Nat) (v : Mailbox) : (s.setMbox m v).jti = s.jti := rfl
@[simp] theorem State.setMbox_chans (m : Nat) (v : Mailbox) : (s.setMbox m v).chans = s.chans := rfl
@[simp] theorem State.setMbox_qps (m : Nat) (v : Mailbox) : (s.setMbox m v).qps = s.qps := rfl
@[simp] theorem State.setMbox_links (m : Nat) (v : Mailbox) : (s.setMbox m v).links = s.links := rfl
@[simp] theorem State.setMbox_d2d (m : Nat) (v : Mailbox) : (s.setMbox m v).d2d = s.d2d := rfl
@[simp] theorem State.setMbox_router (m : Nat) (v : Mailbox) : (s.setMbox m v).router = s.router := rfl
@[simp] theorem State.setMbox_ni (m : Nat) (v : Mailbox) : (s.setMbox m v).ni = s.ni := rfl
@[simp] theorem State.setMbox_mEgress (m : Nat) (v : Mailbox) : (s.setMbox m v).mEgress = s.mEgress := rfl
@[simp] theorem State.setMbox_agent (m : Nat) (v : Mailbox) : (s.setMbox m v).agent = s.agent := rfl
@[simp] theorem State.setMbox_wh (m : Nat) (v : Mailbox) : (s.setMbox m v).wh = s.wh := rfl
@[simp] theorem State.setMbox_ctxs (m : Nat) (v : Mailbox) : (s.setMbox m v).ctxs = s.ctxs := rfl
@[simp] theorem State.setMbox_sec (m : Nat) (v : Mailbox) : (s.setMbox m v).sec = s.sec := rfl
@[simp] theorem State.setMbox_steward (m : Nat) (v : Mailbox) : (s.setMbox m v).steward = s.steward := rfl
@[simp] theorem State.setMbox_boot (m : Nat) (v : Mailbox) : (s.setMbox m v).boot = s.boot := rfl
@[simp] theorem State.setMbox_rcd (m : Nat) (v : Mailbox) : (s.setMbox m v).rcd = s.rcd := rfl
@[simp] theorem State.setMbox_now (m : Nat) (v : Mailbox) : (s.setMbox m v).now = s.now := rfl
@[simp] theorem State.setMbox_fresh (m : Nat) (v : Mailbox) : (s.setMbox m v).fresh = s.fresh := rfl
@[simp] theorem State.setMbox_nextAge (m : Nat) (v : Mailbox) : (s.setMbox m v).nextAge = s.nextAge := rfl
@[simp] theorem State.setMbox_heldHit (m : Nat) (v : Mailbox) : (s.setMbox m v).heldHit = s.heldHit := rfl
@[simp] theorem State.setMbox_sent (m : Nat) (v : Mailbox) : (s.setMbox m v).sent = s.sent := rfl
@[simp] theorem State.setMbox_pending (m : Nat) (v : Mailbox) : (s.setMbox m v).pending = s.pending := rfl

@[simp] theorem State.setSession_reg (x : Session) : (s.setSession x).reg = s.reg := rfl
@[simp] theorem State.setSession_oct (x : Session) : (s.setSession x).oct = s.oct := rfl
@[simp] theorem State.setSession_mem (x : Session) : (s.setSession x).mem = s.mem := rfl
@[simp] theorem State.setSession_tiles (x : Session) : (s.setSession x).tiles = s.tiles := rfl
@[simp] theorem State.setSession_posts (x : Session) : (s.setSession x).posts = s.posts := rfl
@[simp] theorem State.setSession_decs (x : Session) : (s.setSession x).decs = s.decs := rfl
@[simp] theorem State.setSession_jti (x : Session) : (s.setSession x).jti = s.jti := rfl
@[simp] theorem State.setSession_chans (x : Session) : (s.setSession x).chans = s.chans := rfl
@[simp] theorem State.setSession_qps (x : Session) : (s.setSession x).qps = s.qps := rfl
@[simp] theorem State.setSession_links (x : Session) : (s.setSession x).links = s.links := rfl
@[simp] theorem State.setSession_d2d (x : Session) : (s.setSession x).d2d = s.d2d := rfl
@[simp] theorem State.setSession_router (x : Session) : (s.setSession x).router = s.router := rfl
@[simp] theorem State.setSession_ni (x : Session) : (s.setSession x).ni = s.ni := rfl
@[simp] theorem State.setSession_mEgress (x : Session) : (s.setSession x).mEgress = s.mEgress := rfl
@[simp] theorem State.setSession_agent (x : Session) : (s.setSession x).agent = s.agent := rfl
@[simp] theorem State.setSession_wh (x : Session) : (s.setSession x).wh = s.wh := rfl
@[simp] theorem State.setSession_ctxs (x : Session) : (s.setSession x).ctxs = s.ctxs := rfl
@[simp] theorem State.setSession_sec (x : Session) : (s.setSession x).sec = s.sec := rfl
@[simp] theorem State.setSession_steward (x : Session) : (s.setSession x).steward = s.steward := rfl
@[simp] theorem State.setSession_boot (x : Session) : (s.setSession x).boot = s.boot := rfl
@[simp] theorem State.setSession_rcd (x : Session) : (s.setSession x).rcd = s.rcd := rfl
@[simp] theorem State.setSession_now (x : Session) : (s.setSession x).now = s.now := rfl
@[simp] theorem State.setSession_fresh (x : Session) : (s.setSession x).fresh = s.fresh := rfl
@[simp] theorem State.setSession_nextAge (x : Session) : (s.setSession x).nextAge = s.nextAge := rfl
@[simp] theorem State.setSession_heldHit (x : Session) : (s.setSession x).heldHit = s.heldHit := rfl
@[simp] theorem State.setSession_sent (x : Session) : (s.setSession x).sent = s.sent := rfl
@[simp] theorem State.setSession_pending (x : Session) : (s.setSession x).pending = s.pending := rfl

@[simp] theorem State.offer_oct (e : EventIn) : (s.offer e).oct = s.oct := by unfold State.offer; split <;> rfl
@[simp] theorem State.offer_mem (e : EventIn) : (s.offer e).mem = s.mem := by unfold State.offer; split <;> rfl
@[simp] theorem State.offer_tiles (e : EventIn) : (s.offer e).tiles = s.tiles := by unfold State.offer; split <;> rfl
@[simp] theorem State.offer_posts (e : EventIn) : (s.offer e).posts = s.posts := by unfold State.offer; split <;> rfl
@[simp] theorem State.offer_decs (e : EventIn) : (s.offer e).decs = s.decs := by unfold State.offer; split <;> rfl
@[simp] theorem State.offer_jti (e : EventIn) : (s.offer e).jti = s.jti := by unfold State.offer; split <;> rfl
@[simp] theorem State.offer_chans (e : EventIn) : (s.offer e).chans = s.chans := by unfold State.offer; split <;> rfl
@[simp] theorem State.offer_qps (e : EventIn) : (s.offer e).qps = s.qps := by unfold State.offer; split <;> rfl
@[simp] theorem State.offer_links (e : EventIn) : (s.offer e).links = s.links := by unfold State.offer; split <;> rfl
@[simp] theorem State.offer_d2d (e : EventIn) : (s.offer e).d2d = s.d2d := by unfold State.offer; split <;> rfl
@[simp] theorem State.offer_router (e : EventIn) : (s.offer e).router = s.router := by unfold State.offer; split <;> rfl
@[simp] theorem State.offer_ni (e : EventIn) : (s.offer e).ni = s.ni := by unfold State.offer; split <;> rfl
@[simp] theorem State.offer_mEgress (e : EventIn) : (s.offer e).mEgress = s.mEgress := by unfold State.offer; split <;> rfl
@[simp] theorem State.offer_agent (e : EventIn) : (s.offer e).agent = s.agent := by unfold State.offer; split <;> rfl
@[simp] theorem State.offer_wh (e : EventIn) : (s.offer e).wh = s.wh := by unfold State.offer; split <;> rfl
@[simp] theorem State.offer_ctxs (e : EventIn) : (s.offer e).ctxs = s.ctxs := by unfold State.offer; split <;> rfl
@[simp] theorem State.offer_sec (e : EventIn) : (s.offer e).sec = s.sec := by unfold State.offer; split <;> rfl
@[simp] theorem State.offer_mgmt (e : EventIn) : (s.offer e).mgmt = s.mgmt := by unfold State.offer; split <;> rfl
@[simp] theorem State.offer_steward (e : EventIn) : (s.offer e).steward = s.steward := by unfold State.offer; split <;> rfl
@[simp] theorem State.offer_boot (e : EventIn) : (s.offer e).boot = s.boot := by unfold State.offer; split <;> rfl
@[simp] theorem State.offer_now (e : EventIn) : (s.offer e).now = s.now := by unfold State.offer; split <;> rfl
@[simp] theorem State.offer_fresh (e : EventIn) : (s.offer e).fresh = s.fresh := by unfold State.offer; split <;> rfl
@[simp] theorem State.offer_nextAge (e : EventIn) : (s.offer e).nextAge = s.nextAge := by unfold State.offer; split <;> rfl
@[simp] theorem State.offer_heldHit (e : EventIn) : (s.offer e).heldHit = s.heldHit := by unfold State.offer; split <;> rfl
@[simp] theorem State.offer_sent (e : EventIn) : (s.offer e).sent = s.sent := by unfold State.offer; split <;> rfl
@[simp] theorem State.offer_pending (e : EventIn) : (s.offer e).pending = s.pending := by unfold State.offer; split <;> rfl

@[simp] theorem State.event_oct (code cls unit ctx a0 a1 a2 : Nat) : (s.event code cls unit ctx a0 a1 a2).oct = s.oct := by simp [State.event]
@[simp] theorem State.event_mem (code cls unit ctx a0 a1 a2 : Nat) : (s.event code cls unit ctx a0 a1 a2).mem = s.mem := by simp [State.event]
@[simp] theorem State.event_tiles (code cls unit ctx a0 a1 a2 : Nat) : (s.event code cls unit ctx a0 a1 a2).tiles = s.tiles := by simp [State.event]
@[simp] theorem State.event_posts (code cls unit ctx a0 a1 a2 : Nat) : (s.event code cls unit ctx a0 a1 a2).posts = s.posts := by simp [State.event]
@[simp] theorem State.event_decs (code cls unit ctx a0 a1 a2 : Nat) : (s.event code cls unit ctx a0 a1 a2).decs = s.decs := by simp [State.event]
@[simp] theorem State.event_jti (code cls unit ctx a0 a1 a2 : Nat) : (s.event code cls unit ctx a0 a1 a2).jti = s.jti := by simp [State.event]
@[simp] theorem State.event_chans (code cls unit ctx a0 a1 a2 : Nat) : (s.event code cls unit ctx a0 a1 a2).chans = s.chans := by simp [State.event]
@[simp] theorem State.event_qps (code cls unit ctx a0 a1 a2 : Nat) : (s.event code cls unit ctx a0 a1 a2).qps = s.qps := by simp [State.event]
@[simp] theorem State.event_links (code cls unit ctx a0 a1 a2 : Nat) : (s.event code cls unit ctx a0 a1 a2).links = s.links := by simp [State.event]
@[simp] theorem State.event_d2d (code cls unit ctx a0 a1 a2 : Nat) : (s.event code cls unit ctx a0 a1 a2).d2d = s.d2d := by simp [State.event]
@[simp] theorem State.event_router (code cls unit ctx a0 a1 a2 : Nat) : (s.event code cls unit ctx a0 a1 a2).router = s.router := by simp [State.event]
@[simp] theorem State.event_ni (code cls unit ctx a0 a1 a2 : Nat) : (s.event code cls unit ctx a0 a1 a2).ni = s.ni := by simp [State.event]
@[simp] theorem State.event_mEgress (code cls unit ctx a0 a1 a2 : Nat) : (s.event code cls unit ctx a0 a1 a2).mEgress = s.mEgress := by simp [State.event]
@[simp] theorem State.event_agent (code cls unit ctx a0 a1 a2 : Nat) : (s.event code cls unit ctx a0 a1 a2).agent = s.agent := by simp [State.event]
@[simp] theorem State.event_wh (code cls unit ctx a0 a1 a2 : Nat) : (s.event code cls unit ctx a0 a1 a2).wh = s.wh := by simp [State.event]
@[simp] theorem State.event_ctxs (code cls unit ctx a0 a1 a2 : Nat) : (s.event code cls unit ctx a0 a1 a2).ctxs = s.ctxs := by simp [State.event]
@[simp] theorem State.event_sec (code cls unit ctx a0 a1 a2 : Nat) : (s.event code cls unit ctx a0 a1 a2).sec = s.sec := by simp [State.event]
@[simp] theorem State.event_mgmt (code cls unit ctx a0 a1 a2 : Nat) : (s.event code cls unit ctx a0 a1 a2).mgmt = s.mgmt := by simp [State.event]
@[simp] theorem State.event_steward (code cls unit ctx a0 a1 a2 : Nat) : (s.event code cls unit ctx a0 a1 a2).steward = s.steward := by simp [State.event]
@[simp] theorem State.event_boot (code cls unit ctx a0 a1 a2 : Nat) : (s.event code cls unit ctx a0 a1 a2).boot = s.boot := by simp [State.event]
@[simp] theorem State.event_now (code cls unit ctx a0 a1 a2 : Nat) : (s.event code cls unit ctx a0 a1 a2).now = s.now := by simp [State.event]
@[simp] theorem State.event_fresh (code cls unit ctx a0 a1 a2 : Nat) : (s.event code cls unit ctx a0 a1 a2).fresh = s.fresh := by simp [State.event]
@[simp] theorem State.event_nextAge (code cls unit ctx a0 a1 a2 : Nat) : (s.event code cls unit ctx a0 a1 a2).nextAge = s.nextAge := by simp [State.event]
@[simp] theorem State.event_heldHit (code cls unit ctx a0 a1 a2 : Nat) : (s.event code cls unit ctx a0 a1 a2).heldHit = s.heldHit := by simp [State.event]
@[simp] theorem State.event_sent (code cls unit ctx a0 a1 a2 : Nat) : (s.event code cls unit ctx a0 a1 a2).sent = s.sent := by simp [State.event]
@[simp] theorem State.event_pending (code cls unit ctx a0 a1 a2 : Nat) : (s.event code cls unit ctx a0 a1 a2).pending = s.pending := by simp [State.event]

@[simp] theorem State.unitEvent_oct (cls unit old new : Nat) : (s.unitEvent cls unit old new).oct = s.oct := by simp [State.unitEvent]
@[simp] theorem State.unitEvent_mem (cls unit old new : Nat) : (s.unitEvent cls unit old new).mem = s.mem := by simp [State.unitEvent]
@[simp] theorem State.unitEvent_tiles (cls unit old new : Nat) : (s.unitEvent cls unit old new).tiles = s.tiles := by simp [State.unitEvent]
@[simp] theorem State.unitEvent_posts (cls unit old new : Nat) : (s.unitEvent cls unit old new).posts = s.posts := by simp [State.unitEvent]
@[simp] theorem State.unitEvent_decs (cls unit old new : Nat) : (s.unitEvent cls unit old new).decs = s.decs := by simp [State.unitEvent]
@[simp] theorem State.unitEvent_jti (cls unit old new : Nat) : (s.unitEvent cls unit old new).jti = s.jti := by simp [State.unitEvent]
@[simp] theorem State.unitEvent_chans (cls unit old new : Nat) : (s.unitEvent cls unit old new).chans = s.chans := by simp [State.unitEvent]
@[simp] theorem State.unitEvent_qps (cls unit old new : Nat) : (s.unitEvent cls unit old new).qps = s.qps := by simp [State.unitEvent]
@[simp] theorem State.unitEvent_links (cls unit old new : Nat) : (s.unitEvent cls unit old new).links = s.links := by simp [State.unitEvent]
@[simp] theorem State.unitEvent_d2d (cls unit old new : Nat) : (s.unitEvent cls unit old new).d2d = s.d2d := by simp [State.unitEvent]
@[simp] theorem State.unitEvent_router (cls unit old new : Nat) : (s.unitEvent cls unit old new).router = s.router := by simp [State.unitEvent]
@[simp] theorem State.unitEvent_ni (cls unit old new : Nat) : (s.unitEvent cls unit old new).ni = s.ni := by simp [State.unitEvent]
@[simp] theorem State.unitEvent_mEgress (cls unit old new : Nat) : (s.unitEvent cls unit old new).mEgress = s.mEgress := by simp [State.unitEvent]
@[simp] theorem State.unitEvent_agent (cls unit old new : Nat) : (s.unitEvent cls unit old new).agent = s.agent := by simp [State.unitEvent]
@[simp] theorem State.unitEvent_wh (cls unit old new : Nat) : (s.unitEvent cls unit old new).wh = s.wh := by simp [State.unitEvent]
@[simp] theorem State.unitEvent_ctxs (cls unit old new : Nat) : (s.unitEvent cls unit old new).ctxs = s.ctxs := by simp [State.unitEvent]
@[simp] theorem State.unitEvent_sec (cls unit old new : Nat) : (s.unitEvent cls unit old new).sec = s.sec := by simp [State.unitEvent]
@[simp] theorem State.unitEvent_mgmt (cls unit old new : Nat) : (s.unitEvent cls unit old new).mgmt = s.mgmt := by simp [State.unitEvent]
@[simp] theorem State.unitEvent_steward (cls unit old new : Nat) : (s.unitEvent cls unit old new).steward = s.steward := by simp [State.unitEvent]
@[simp] theorem State.unitEvent_boot (cls unit old new : Nat) : (s.unitEvent cls unit old new).boot = s.boot := by simp [State.unitEvent]
@[simp] theorem State.unitEvent_now (cls unit old new : Nat) : (s.unitEvent cls unit old new).now = s.now := by simp [State.unitEvent]
@[simp] theorem State.unitEvent_fresh (cls unit old new : Nat) : (s.unitEvent cls unit old new).fresh = s.fresh := by simp [State.unitEvent]
@[simp] theorem State.unitEvent_nextAge (cls unit old new : Nat) : (s.unitEvent cls unit old new).nextAge = s.nextAge := by simp [State.unitEvent]
@[simp] theorem State.unitEvent_heldHit (cls unit old new : Nat) : (s.unitEvent cls unit old new).heldHit = s.heldHit := by simp [State.unitEvent]
@[simp] theorem State.unitEvent_sent (cls unit old new : Nat) : (s.unitEvent cls unit old new).sent = s.sent := by simp [State.unitEvent]
@[simp] theorem State.unitEvent_pending (cls unit old new : Nat) : (s.unitEvent cls unit old new).pending = s.pending := by simp [State.unitEvent]

@[simp] theorem State.goState_oct (o : Obj) (cls unit new : Nat) : (s.goState o cls unit new).oct = s.oct := by unfold State.goState; split <;> simp
@[simp] theorem State.goState_mem (o : Obj) (cls unit new : Nat) : (s.goState o cls unit new).mem = s.mem := by unfold State.goState; split <;> simp
@[simp] theorem State.goState_tiles (o : Obj) (cls unit new : Nat) : (s.goState o cls unit new).tiles = s.tiles := by unfold State.goState; split <;> simp
@[simp] theorem State.goState_posts (o : Obj) (cls unit new : Nat) : (s.goState o cls unit new).posts = s.posts := by unfold State.goState; split <;> simp
@[simp] theorem State.goState_decs (o : Obj) (cls unit new : Nat) : (s.goState o cls unit new).decs = s.decs := by unfold State.goState; split <;> simp
@[simp] theorem State.goState_jti (o : Obj) (cls unit new : Nat) : (s.goState o cls unit new).jti = s.jti := by unfold State.goState; split <;> simp
@[simp] theorem State.goState_chans (o : Obj) (cls unit new : Nat) : (s.goState o cls unit new).chans = s.chans := by unfold State.goState; split <;> simp
@[simp] theorem State.goState_qps (o : Obj) (cls unit new : Nat) : (s.goState o cls unit new).qps = s.qps := by unfold State.goState; split <;> simp
@[simp] theorem State.goState_links (o : Obj) (cls unit new : Nat) : (s.goState o cls unit new).links = s.links := by unfold State.goState; split <;> simp
@[simp] theorem State.goState_d2d (o : Obj) (cls unit new : Nat) : (s.goState o cls unit new).d2d = s.d2d := by unfold State.goState; split <;> simp
@[simp] theorem State.goState_router (o : Obj) (cls unit new : Nat) : (s.goState o cls unit new).router = s.router := by unfold State.goState; split <;> simp
@[simp] theorem State.goState_ni (o : Obj) (cls unit new : Nat) : (s.goState o cls unit new).ni = s.ni := by unfold State.goState; split <;> simp
@[simp] theorem State.goState_mEgress (o : Obj) (cls unit new : Nat) : (s.goState o cls unit new).mEgress = s.mEgress := by unfold State.goState; split <;> simp
@[simp] theorem State.goState_agent (o : Obj) (cls unit new : Nat) : (s.goState o cls unit new).agent = s.agent := by unfold State.goState; split <;> simp
@[simp] theorem State.goState_wh (o : Obj) (cls unit new : Nat) : (s.goState o cls unit new).wh = s.wh := by unfold State.goState; split <;> simp
@[simp] theorem State.goState_ctxs (o : Obj) (cls unit new : Nat) : (s.goState o cls unit new).ctxs = s.ctxs := by unfold State.goState; split <;> simp
@[simp] theorem State.goState_sec (o : Obj) (cls unit new : Nat) : (s.goState o cls unit new).sec = s.sec := by unfold State.goState; split <;> simp
@[simp] theorem State.goState_mgmt (o : Obj) (cls unit new : Nat) : (s.goState o cls unit new).mgmt = s.mgmt := by unfold State.goState; split <;> simp
@[simp] theorem State.goState_steward (o : Obj) (cls unit new : Nat) : (s.goState o cls unit new).steward = s.steward := by unfold State.goState; split <;> simp
@[simp] theorem State.goState_boot (o : Obj) (cls unit new : Nat) : (s.goState o cls unit new).boot = s.boot := by unfold State.goState; split <;> simp
@[simp] theorem State.goState_now (o : Obj) (cls unit new : Nat) : (s.goState o cls unit new).now = s.now := by unfold State.goState; split <;> simp
@[simp] theorem State.goState_fresh (o : Obj) (cls unit new : Nat) : (s.goState o cls unit new).fresh = s.fresh := by unfold State.goState; split <;> simp
@[simp] theorem State.goState_nextAge (o : Obj) (cls unit new : Nat) : (s.goState o cls unit new).nextAge = s.nextAge := by unfold State.goState; split <;> simp
@[simp] theorem State.goState_heldHit (o : Obj) (cls unit new : Nat) : (s.goState o cls unit new).heldHit = s.heldHit := by unfold State.goState; split <;> simp
@[simp] theorem State.goState_sent (o : Obj) (cls unit new : Nat) : (s.goState o cls unit new).sent = s.sent := by unfold State.goState; split <;> simp
@[simp] theorem State.goState_pending (o : Obj) (cls unit new : Nat) : (s.goState o cls unit new).pending = s.pending := by unfold State.goState; split <;> simp

@[simp] theorem State.mapNote_reg (cls unit : Nat) : (s.mapNote cls unit).reg = s.reg := by unfold State.mapNote; simp only; split <;> rfl
@[simp] theorem State.mapNote_oct (cls unit : Nat) : (s.mapNote cls unit).oct = s.oct := by unfold State.mapNote; simp only; split <;> rfl
@[simp] theorem State.mapNote_mem (cls unit : Nat) : (s.mapNote cls unit).mem = s.mem := by unfold State.mapNote; simp only; split <;> rfl
@[simp] theorem State.mapNote_tiles (cls unit : Nat) : (s.mapNote cls unit).tiles = s.tiles := by unfold State.mapNote; simp only; split <;> rfl
@[simp] theorem State.mapNote_posts (cls unit : Nat) : (s.mapNote cls unit).posts = s.posts := by unfold State.mapNote; simp only; split <;> rfl
@[simp] theorem State.mapNote_decs (cls unit : Nat) : (s.mapNote cls unit).decs = s.decs := by unfold State.mapNote; simp only; split <;> rfl
@[simp] theorem State.mapNote_jti (cls unit : Nat) : (s.mapNote cls unit).jti = s.jti := by unfold State.mapNote; simp only; split <;> rfl
@[simp] theorem State.mapNote_chans (cls unit : Nat) : (s.mapNote cls unit).chans = s.chans := by unfold State.mapNote; simp only; split <;> rfl
@[simp] theorem State.mapNote_qps (cls unit : Nat) : (s.mapNote cls unit).qps = s.qps := by unfold State.mapNote; simp only; split <;> rfl
@[simp] theorem State.mapNote_links (cls unit : Nat) : (s.mapNote cls unit).links = s.links := by unfold State.mapNote; simp only; split <;> rfl
@[simp] theorem State.mapNote_d2d (cls unit : Nat) : (s.mapNote cls unit).d2d = s.d2d := by unfold State.mapNote; simp only; split <;> rfl
@[simp] theorem State.mapNote_router (cls unit : Nat) : (s.mapNote cls unit).router = s.router := by unfold State.mapNote; simp only; split <;> rfl
@[simp] theorem State.mapNote_ni (cls unit : Nat) : (s.mapNote cls unit).ni = s.ni := by unfold State.mapNote; simp only; split <;> rfl
@[simp] theorem State.mapNote_mEgress (cls unit : Nat) : (s.mapNote cls unit).mEgress = s.mEgress := by unfold State.mapNote; simp only; split <;> rfl
@[simp] theorem State.mapNote_agent (cls unit : Nat) : (s.mapNote cls unit).agent = s.agent := by unfold State.mapNote; simp only; split <;> rfl
@[simp] theorem State.mapNote_wh (cls unit : Nat) : (s.mapNote cls unit).wh = s.wh := by unfold State.mapNote; simp only; split <;> rfl
@[simp] theorem State.mapNote_ctxs (cls unit : Nat) : (s.mapNote cls unit).ctxs = s.ctxs := by unfold State.mapNote; simp only; split <;> rfl
@[simp] theorem State.mapNote_sec (cls unit : Nat) : (s.mapNote cls unit).sec = s.sec := by unfold State.mapNote; simp only; split <;> rfl
@[simp] theorem State.mapNote_mgmt (cls unit : Nat) : (s.mapNote cls unit).mgmt = s.mgmt := by unfold State.mapNote; simp only; split <;> rfl
@[simp] theorem State.mapNote_steward (cls unit : Nat) : (s.mapNote cls unit).steward = s.steward := by unfold State.mapNote; simp only; split <;> rfl
@[simp] theorem State.mapNote_rcd (cls unit : Nat) : (s.mapNote cls unit).rcd = s.rcd := by unfold State.mapNote; simp only; split <;> rfl
@[simp] theorem State.mapNote_now (cls unit : Nat) : (s.mapNote cls unit).now = s.now := by unfold State.mapNote; simp only; split <;> rfl
@[simp] theorem State.mapNote_fresh (cls unit : Nat) : (s.mapNote cls unit).fresh = s.fresh := by unfold State.mapNote; simp only; split <;> rfl
@[simp] theorem State.mapNote_nextAge (cls unit : Nat) : (s.mapNote cls unit).nextAge = s.nextAge := by unfold State.mapNote; simp only; split <;> rfl
@[simp] theorem State.mapNote_heldHit (cls unit : Nat) : (s.mapNote cls unit).heldHit = s.heldHit := by unfold State.mapNote; simp only; split <;> rfl
@[simp] theorem State.mapNote_sent (cls unit : Nat) : (s.mapNote cls unit).sent = s.sent := by unfold State.mapNote; simp only; split <;> rfl
@[simp] theorem State.mapNote_pending (cls unit : Nat) : (s.mapNote cls unit).pending = s.pending := by unfold State.mapNote; simp only; split <;> rfl

@[simp] theorem State.addFail_reg (cls unit : Nat) : (s.addFail cls unit).reg = s.reg := by simp [State.addFail]
@[simp] theorem State.addFail_oct (cls unit : Nat) : (s.addFail cls unit).oct = s.oct := by simp [State.addFail]
@[simp] theorem State.addFail_mem (cls unit : Nat) : (s.addFail cls unit).mem = s.mem := by simp [State.addFail]
@[simp] theorem State.addFail_tiles (cls unit : Nat) : (s.addFail cls unit).tiles = s.tiles := by simp [State.addFail]
@[simp] theorem State.addFail_posts (cls unit : Nat) : (s.addFail cls unit).posts = s.posts := by simp [State.addFail]
@[simp] theorem State.addFail_decs (cls unit : Nat) : (s.addFail cls unit).decs = s.decs := by simp [State.addFail]
@[simp] theorem State.addFail_jti (cls unit : Nat) : (s.addFail cls unit).jti = s.jti := by simp [State.addFail]
@[simp] theorem State.addFail_chans (cls unit : Nat) : (s.addFail cls unit).chans = s.chans := by simp [State.addFail]
@[simp] theorem State.addFail_qps (cls unit : Nat) : (s.addFail cls unit).qps = s.qps := by simp [State.addFail]
@[simp] theorem State.addFail_links (cls unit : Nat) : (s.addFail cls unit).links = s.links := by simp [State.addFail]
@[simp] theorem State.addFail_d2d (cls unit : Nat) : (s.addFail cls unit).d2d = s.d2d := by simp [State.addFail]
@[simp] theorem State.addFail_router (cls unit : Nat) : (s.addFail cls unit).router = s.router := by simp [State.addFail]
@[simp] theorem State.addFail_ni (cls unit : Nat) : (s.addFail cls unit).ni = s.ni := by simp [State.addFail]
@[simp] theorem State.addFail_mEgress (cls unit : Nat) : (s.addFail cls unit).mEgress = s.mEgress := by simp [State.addFail]
@[simp] theorem State.addFail_agent (cls unit : Nat) : (s.addFail cls unit).agent = s.agent := by simp [State.addFail]
@[simp] theorem State.addFail_wh (cls unit : Nat) : (s.addFail cls unit).wh = s.wh := by simp [State.addFail]
@[simp] theorem State.addFail_ctxs (cls unit : Nat) : (s.addFail cls unit).ctxs = s.ctxs := by simp [State.addFail]
@[simp] theorem State.addFail_sec (cls unit : Nat) : (s.addFail cls unit).sec = s.sec := by simp [State.addFail]
@[simp] theorem State.addFail_mgmt (cls unit : Nat) : (s.addFail cls unit).mgmt = s.mgmt := by simp [State.addFail]
@[simp] theorem State.addFail_steward (cls unit : Nat) : (s.addFail cls unit).steward = s.steward := by simp [State.addFail]
@[simp] theorem State.addFail_rcd (cls unit : Nat) : (s.addFail cls unit).rcd = s.rcd := by simp [State.addFail]
@[simp] theorem State.addFail_now (cls unit : Nat) : (s.addFail cls unit).now = s.now := by simp [State.addFail]
@[simp] theorem State.addFail_fresh (cls unit : Nat) : (s.addFail cls unit).fresh = s.fresh := by simp [State.addFail]
@[simp] theorem State.addFail_nextAge (cls unit : Nat) : (s.addFail cls unit).nextAge = s.nextAge := by simp [State.addFail]
@[simp] theorem State.addFail_heldHit (cls unit : Nat) : (s.addFail cls unit).heldHit = s.heldHit := by simp [State.addFail]
@[simp] theorem State.addFail_sent (cls unit : Nat) : (s.addFail cls unit).sent = s.sent := by simp [State.addFail]
@[simp] theorem State.addFail_pending (cls unit : Nat) : (s.addFail cls unit).pending = s.pending := by simp [State.addFail]

@[simp] theorem State.frameOut_reg (id : Nat) (e : NxBody) : (s.frameOut id e).reg = s.reg := by unfold State.frameOut; split <;> [rfl; (split <;> rfl)]
@[simp] theorem State.frameOut_oct (id : Nat) (e : NxBody) : (s.frameOut id e).oct = s.oct := by unfold State.frameOut; split <;> [rfl; (split <;> rfl)]
@[simp] theorem State.frameOut_mem (id : Nat) (e : NxBody) : (s.frameOut id e).mem = s.mem := by unfold State.frameOut; split <;> [rfl; (split <;> rfl)]
@[simp] theorem State.frameOut_tiles (id : Nat) (e : NxBody) : (s.frameOut id e).tiles = s.tiles := by unfold State.frameOut; split <;> [rfl; (split <;> rfl)]
@[simp] theorem State.frameOut_posts (id : Nat) (e : NxBody) : (s.frameOut id e).posts = s.posts := by unfold State.frameOut; split <;> [rfl; (split <;> rfl)]
@[simp] theorem State.frameOut_decs (id : Nat) (e : NxBody) : (s.frameOut id e).decs = s.decs := by unfold State.frameOut; split <;> [rfl; (split <;> rfl)]
@[simp] theorem State.frameOut_jti (id : Nat) (e : NxBody) : (s.frameOut id e).jti = s.jti := by unfold State.frameOut; split <;> [rfl; (split <;> rfl)]
@[simp] theorem State.frameOut_chans (id : Nat) (e : NxBody) : (s.frameOut id e).chans = s.chans := by unfold State.frameOut; split <;> [rfl; (split <;> rfl)]
@[simp] theorem State.frameOut_qps (id : Nat) (e : NxBody) : (s.frameOut id e).qps = s.qps := by unfold State.frameOut; split <;> [rfl; (split <;> rfl)]
@[simp] theorem State.frameOut_links (id : Nat) (e : NxBody) : (s.frameOut id e).links = s.links := by unfold State.frameOut; split <;> [rfl; (split <;> rfl)]
@[simp] theorem State.frameOut_d2d (id : Nat) (e : NxBody) : (s.frameOut id e).d2d = s.d2d := by unfold State.frameOut; split <;> [rfl; (split <;> rfl)]
@[simp] theorem State.frameOut_router (id : Nat) (e : NxBody) : (s.frameOut id e).router = s.router := by unfold State.frameOut; split <;> [rfl; (split <;> rfl)]
@[simp] theorem State.frameOut_ni (id : Nat) (e : NxBody) : (s.frameOut id e).ni = s.ni := by unfold State.frameOut; split <;> [rfl; (split <;> rfl)]
@[simp] theorem State.frameOut_mEgress (id : Nat) (e : NxBody) : (s.frameOut id e).mEgress = s.mEgress := by unfold State.frameOut; split <;> [rfl; (split <;> rfl)]
@[simp] theorem State.frameOut_agent (id : Nat) (e : NxBody) : (s.frameOut id e).agent = s.agent := by unfold State.frameOut; split <;> [rfl; (split <;> rfl)]
@[simp] theorem State.frameOut_wh (id : Nat) (e : NxBody) : (s.frameOut id e).wh = s.wh := by unfold State.frameOut; split <;> [rfl; (split <;> rfl)]
@[simp] theorem State.frameOut_ctxs (id : Nat) (e : NxBody) : (s.frameOut id e).ctxs = s.ctxs := by unfold State.frameOut; split <;> [rfl; (split <;> rfl)]
@[simp] theorem State.frameOut_sec (id : Nat) (e : NxBody) : (s.frameOut id e).sec = s.sec := by unfold State.frameOut; split <;> [rfl; (split <;> rfl)]
@[simp] theorem State.frameOut_steward (id : Nat) (e : NxBody) : (s.frameOut id e).steward = s.steward := by unfold State.frameOut; split <;> [rfl; (split <;> rfl)]
@[simp] theorem State.frameOut_boot (id : Nat) (e : NxBody) : (s.frameOut id e).boot = s.boot := by unfold State.frameOut; split <;> [rfl; (split <;> rfl)]
@[simp] theorem State.frameOut_rcd (id : Nat) (e : NxBody) : (s.frameOut id e).rcd = s.rcd := by unfold State.frameOut; split <;> [rfl; (split <;> rfl)]
@[simp] theorem State.frameOut_now (id : Nat) (e : NxBody) : (s.frameOut id e).now = s.now := by unfold State.frameOut; split <;> [rfl; (split <;> rfl)]
@[simp] theorem State.frameOut_fresh (id : Nat) (e : NxBody) : (s.frameOut id e).fresh = s.fresh := by unfold State.frameOut; split <;> [rfl; (split <;> rfl)]
@[simp] theorem State.frameOut_nextAge (id : Nat) (e : NxBody) : (s.frameOut id e).nextAge = s.nextAge := by unfold State.frameOut; split <;> [rfl; (split <;> rfl)]
@[simp] theorem State.frameOut_heldHit (id : Nat) (e : NxBody) : (s.frameOut id e).heldHit = s.heldHit := by unfold State.frameOut; split <;> [rfl; (split <;> rfl)]
@[simp] theorem State.frameOut_pending (id : Nat) (e : NxBody) : (s.frameOut id e).pending = s.pending := by unfold State.frameOut; split <;> [rfl; (split <;> rfl)]

@[simp] theorem State.answer_reg (id q op r : Nat) (d : Bytes) (off n : Nat) : (s.answer id q op r d off n).reg = s.reg := by unfold State.answer; split <;> simp
@[simp] theorem State.answer_oct (id q op r : Nat) (d : Bytes) (off n : Nat) : (s.answer id q op r d off n).oct = s.oct := by unfold State.answer; split <;> simp
@[simp] theorem State.answer_mem (id q op r : Nat) (d : Bytes) (off n : Nat) : (s.answer id q op r d off n).mem = s.mem := by unfold State.answer; split <;> simp
@[simp] theorem State.answer_tiles (id q op r : Nat) (d : Bytes) (off n : Nat) : (s.answer id q op r d off n).tiles = s.tiles := by unfold State.answer; split <;> simp
@[simp] theorem State.answer_posts (id q op r : Nat) (d : Bytes) (off n : Nat) : (s.answer id q op r d off n).posts = s.posts := by unfold State.answer; split <;> simp
@[simp] theorem State.answer_decs (id q op r : Nat) (d : Bytes) (off n : Nat) : (s.answer id q op r d off n).decs = s.decs := by unfold State.answer; split <;> simp
@[simp] theorem State.answer_jti (id q op r : Nat) (d : Bytes) (off n : Nat) : (s.answer id q op r d off n).jti = s.jti := by unfold State.answer; split <;> simp
@[simp] theorem State.answer_chans (id q op r : Nat) (d : Bytes) (off n : Nat) : (s.answer id q op r d off n).chans = s.chans := by unfold State.answer; split <;> simp
@[simp] theorem State.answer_qps (id q op r : Nat) (d : Bytes) (off n : Nat) : (s.answer id q op r d off n).qps = s.qps := by unfold State.answer; split <;> simp
@[simp] theorem State.answer_links (id q op r : Nat) (d : Bytes) (off n : Nat) : (s.answer id q op r d off n).links = s.links := by unfold State.answer; split <;> simp
@[simp] theorem State.answer_d2d (id q op r : Nat) (d : Bytes) (off n : Nat) : (s.answer id q op r d off n).d2d = s.d2d := by unfold State.answer; split <;> simp
@[simp] theorem State.answer_router (id q op r : Nat) (d : Bytes) (off n : Nat) : (s.answer id q op r d off n).router = s.router := by unfold State.answer; split <;> simp
@[simp] theorem State.answer_ni (id q op r : Nat) (d : Bytes) (off n : Nat) : (s.answer id q op r d off n).ni = s.ni := by unfold State.answer; split <;> simp
@[simp] theorem State.answer_mEgress (id q op r : Nat) (d : Bytes) (off n : Nat) : (s.answer id q op r d off n).mEgress = s.mEgress := by unfold State.answer; split <;> simp
@[simp] theorem State.answer_agent (id q op r : Nat) (d : Bytes) (off n : Nat) : (s.answer id q op r d off n).agent = s.agent := by unfold State.answer; split <;> simp
@[simp] theorem State.answer_wh (id q op r : Nat) (d : Bytes) (off n : Nat) : (s.answer id q op r d off n).wh = s.wh := by unfold State.answer; split <;> simp
@[simp] theorem State.answer_ctxs (id q op r : Nat) (d : Bytes) (off n : Nat) : (s.answer id q op r d off n).ctxs = s.ctxs := by unfold State.answer; split <;> simp
@[simp] theorem State.answer_sec (id q op r : Nat) (d : Bytes) (off n : Nat) : (s.answer id q op r d off n).sec = s.sec := by unfold State.answer; split <;> simp
@[simp] theorem State.answer_steward (id q op r : Nat) (d : Bytes) (off n : Nat) : (s.answer id q op r d off n).steward = s.steward := by unfold State.answer; split <;> simp
@[simp] theorem State.answer_boot (id q op r : Nat) (d : Bytes) (off n : Nat) : (s.answer id q op r d off n).boot = s.boot := by unfold State.answer; split <;> simp
@[simp] theorem State.answer_rcd (id q op r : Nat) (d : Bytes) (off n : Nat) : (s.answer id q op r d off n).rcd = s.rcd := by unfold State.answer; split <;> simp
@[simp] theorem State.answer_now (id q op r : Nat) (d : Bytes) (off n : Nat) : (s.answer id q op r d off n).now = s.now := by unfold State.answer; split <;> simp
@[simp] theorem State.answer_fresh (id q op r : Nat) (d : Bytes) (off n : Nat) : (s.answer id q op r d off n).fresh = s.fresh := by unfold State.answer; split <;> simp
@[simp] theorem State.answer_nextAge (id q op r : Nat) (d : Bytes) (off n : Nat) : (s.answer id q op r d off n).nextAge = s.nextAge := by unfold State.answer; split <;> simp
@[simp] theorem State.answer_heldHit (id q op r : Nat) (d : Bytes) (off n : Nat) : (s.answer id q op r d off n).heldHit = s.heldHit := by unfold State.answer; split <;> simp
@[simp] theorem State.answer_pending (id q op r : Nat) (d : Bytes) (off n : Nat) : (s.answer id q op r d off n).pending = s.pending := by unfold State.answer; split <;> simp

/-! ## Reads after updates -/

@[simp] theorem State.rd_wr_same (o : Obj) (v : Nat) : (s.wr o v).rd o = v := by simp [State.rd, State.wr, mgetD]

theorem State.rd_wr_ne (o p : Obj) (v : Nat) (h : o.key ≠ p.key) : (s.wr o v).rd p = s.rd p := by simp [State.rd, State.wr, mgetD, mget_mput_ne _ _ h]

/-- An object's value after a write, whichever object it is. -/
theorem State.rd_wr (o p : Obj) (v : Nat) : (s.wr o v).rd p = if o.key = p.key then v else s.rd p := by
  by_cases h : o.key = p.key
  · simp [h, State.rd, State.wr, mgetD]
  · simp [h, State.rd_wr_ne]

@[simp] theorem State.rdo_wro_same (o : Oct) (v : Bytes) : (s.wro o v).rdo o = v := by simp [State.rdo, State.wro, mgetD]

theorem State.rdo_wro_ne (o p : Oct) (v : Bytes) (h : o.key ≠ p.key) : (s.wro o v).rdo p = s.rdo p := by
  simp [State.rdo, State.wro, mgetD, mget_mput_ne _ _ h]

@[simp] theorem State.rd_wro (o : Oct) (p : Obj) (v : Bytes) : (s.wro o v).rd p = s.rd p := rfl
@[simp] theorem State.rdo_wr (o : Obj) (p : Oct) (v : Nat) : (s.wr o v).rdo p = s.rdo p := rfl

theorem State.rd_bump (o p : Obj) : (s.bump o).rd p = if o.key = p.key then (s.rd o + 1) % 2 ^ 64 else s.rd p := by
  unfold State.bump State.bumpBy; exact s.rd_wr o p _

/-- An event changes no object but, where it is lost, the count of lost records. -/
theorem State.rd_offer (e : EventIn) (p : Obj) (h : Obj.erRecordsLost.key ≠ p.key) : (s.offer e).rd p = s.rd p := by
  unfold State.offer
  split
  · rfl
  · have := s.rd_bump Obj.erRecordsLost p
    simp only [h, if_false] at this
    simpa [State.rd] using this

theorem State.rd_event (code cls unit ctx a0 a1 a2 : Nat) (p : Obj) (h : Obj.erRecordsLost.key ≠ p.key) : (s.event code cls unit ctx a0 a1 a2).rd p = s.rd p :=
  s.rd_offer _ p h

@[simp] theorem State.rdo_event (code cls unit ctx a0 a1 a2 : Nat) (p : Oct) : (s.event code cls unit ctx a0 a1 a2).rdo p = s.rdo p := by
  simp [State.rdo]

/-- A unit's state after a change of state. -/
theorem State.rd_goState (o : Obj) (cls unit new : Nat) (h : Obj.erRecordsLost.key ≠ o.key) : (s.goState o cls unit new).rd o = new := by
  unfold State.goState
  split
  · assumption
  · simp [State.unitEvent, State.rd_event _ _ _ _ _ _ _ _ _ h]

theorem State.rd_goState_ne (o p : Obj) (cls unit new : Nat) (h : Obj.erRecordsLost.key ≠ p.key) (h' : o.key ≠ p.key) :
    (s.goState o cls unit new).rd p = s.rd p := by
  unfold State.goState
  split
  · rfl
  · simp [State.unitEvent, State.rd_event _ _ _ _ _ _ _ _ _ h, State.rd_wr_ne _ _ _ _ h']

@[simp] theorem State.tile_setTile (n : Nat) (t : Tile) : (s.setTile n t).tile n = t := by simp [State.tile, State.setTile, mgetD]

theorem State.tile_setTile_ne {n m : Nat} (t : Tile) (h : n ≠ m) : (s.setTile n t).tile m = s.tile m := by
  simp [State.tile, State.setTile, mgetD, mget_mput_ne _ _ h]

@[simp] theorem State.chan_setChan (c : Nat) (v : TeChan) : (s.setChan c v).chan c = v := by simp [State.chan, State.setChan, mgetD]
@[simp] theorem State.link_setLink (p : Nat) (v : LinkPort) : (s.setLink p v).link p = v := by simp [State.link, State.setLink, mgetD]
@[simp] theorem State.niOf_setNi (i : Nat) (v : Ni) : (s.setNi i v).niOf i = v := by simp [State.niOf, State.setNi, mgetD]
@[simp] theorem State.niq_setNiq (i c : Nat) (v : NiQueue) : (s.setNiq i c v).niq i c = v := by simp [State.niq, State.setNiq, mgetD]
@[simp] theorem State.mbox_setMbox (m : Nat) (v : Mailbox) : (s.setMbox m v).mbox m = v := by simp [State.mbox, State.setMbox, mgetD]

/-- An answer changes no object (R441). -/
@[simp] theorem State.rd_answer (id q op r : Nat) (d : Bytes) (off n : Nat) (p : Obj) : (s.answer id q op r d off n).rd p = s.rd p := by simp [State.rd]
@[simp] theorem State.rdo_answer (id q op r : Nat) (d : Bytes) (off n : Nat) (p : Oct) : (s.answer id q op r d off n).rdo p = s.rdo p := by
  simp [State.rdo]

@[simp] theorem State.rd_emit (e : Emit) (p : Obj) : (s.emit e).rd p = s.rd p := rfl
@[simp] theorem State.rd_setTile (n : Nat) (t : Tile) (p : Obj) : (s.setTile n t).rd p = s.rd p := rfl
@[simp] theorem State.rd_setChan (c : Nat) (v : TeChan) (p : Obj) : (s.setChan c v).rd p = s.rd p := rfl
@[simp] theorem State.rd_setLink (c : Nat) (v : LinkPort) (p : Obj) : (s.setLink c v).rd p = s.rd p := rfl
@[simp] theorem State.rd_mapNote (cls unit : Nat) (p : Obj) : (s.mapNote cls unit).rd p = s.rd p := by simp [State.rd]
@[simp] theorem State.rd_addFail (cls unit : Nat) (p : Obj) : (s.addFail cls unit).rd p = s.rd p := by simp [State.rd]

end Sys2Proof.Machine
end

