-- ==== Sys2Proof/Laws/Memory.lean ====
section
/-! SUPPORT. Laws of memory: every memory operation keeps the canonical form, and what does not store changes no byte. -/

namespace Sys2Proof.Machine

/-- What holds at the start and is kept by every step of a fold holds at its end. -/
theorem foldl_keeps {α β : Type} {P : β → Prop} {f : β → α → β} (h : ∀ b a, P b → P (f b a)) (l : List α) (b : β) (hb : P b) : P (l.foldl f b) := by
  induction l generalizing b with
  | nil => exact hb
  | cons a l ih => exact ih _ (h b a hb)

/-! ## Memory itself -/

theorem Mem.wf_init : Mem.init.wf = true := rfl

theorem Mem.wf_of_bytes {m n : Mem} (h : m.bytes = n.bytes) (hn : n.wf = true) : m.wf = true := by
  unfold Mem.wf at *
  rw [h]
  exact hn

theorem Mem.wf_put {m : Mem} (pa : Nat) (d : Bytes) (h : m.wf = true) : (m.put pa d).wf = true := by
  induction d generalizing m pa with
  | nil => exact h
  | cons b d ih => exact ih _ (mcanon_msetD pa 0 b h)

theorem Mem.wf_zeroRange {m : Mem} (base len : Nat) (h : m.wf = true) : (m.zeroRange base len).wf = true := mcanon_filter _ h

/-- Storing changes the bytes alone. -/
theorem Mem.put_rest (m : Mem) (pa : Nat) (d : Bytes) : m.put pa d = { m with bytes := (m.put pa d).bytes } := by
  induction d generalizing m pa with
  | nil => rfl
  | cons b d ih => rw [Mem.put, ih]

/-! ## Errors change no byte -/

theorem State.exhausted_mem (s : State) (cls unit k : Nat) (b : Bool) : (s.exhausted cls unit k b).mem = s.mem := by
  unfold State.exhausted
  cases b <;> simp

theorem State.evacuate_bytes (s : State) (st k : Nat) : (s.evacuate st k).mem.bytes = s.mem.bytes := by
  unfold State.evacuate
  split
  · rfl
  · split
    · simp [State.exhausted_mem]
    · split <;> simp [State.exhausted_mem]

theorem State.dramCe_bytes (s : State) (pa : Nat) : (s.dramCe pa).mem.bytes = s.mem.bytes := by
  unfold State.dramCe
  simp only
  split
  · simp
  · split <;> simp [State.evacuate_bytes]

theorem State.dramUe_bytes (s : State) (pa : Nat) : (s.dramUe pa).mem.bytes = s.mem.bytes := by
  unfold State.dramUe
  simp only
  split
  · simp
  · split
    · simp
    · split <;> simp [State.evacuate_bytes]

theorem State.sramCe_bytes (s : State) (n off : Nat) : (s.sramCe n off).mem.bytes = s.mem.bytes := by
  unfold State.sramCe
  simp only
  split
  · simp
  · split
    · simp
    · simp [State.exhausted_mem]

theorem State.clearMark_bytes (s : State) (g : Nat) : (s.clearMark g).mem.bytes = s.mem.bytes := rfl

theorem State.noteWord_bytes (s : State) (t off : Nat) : (s.noteWord t off).mem.bytes = s.mem.bytes := by
  unfold State.noteWord
  simp only
  split <;> rfl

/-! ## Reads -/

/-- A read of the tiers may find, correct and count errors, and start an evacuation; it changes no byte. -/
theorem State.readTier_bytes (s : State) (pa n : Nat) : (s.readTier pa n).1.mem.bytes = s.mem.bytes := by
  unfold State.readTier
  split
  · exact s.dramUe_bytes pa
  · cases s.markOf (pa / 128 * 128) with
    | none => rfl
    | some m => cases m <;> simp [State.dramUe_bytes, State.dramCe_bytes]

/-- A read changes no byte. -/
theorem State.readBlock_bytes (s : State) (pa n : Nat) : (s.readBlock pa n).1.mem.bytes = s.mem.bytes := by
  have corrected (t : Nat) (l : List Nat) : (l.foldl (fun s w => s.sramCe t w) s).mem.bytes = s.mem.bytes :=
    foldl_keeps (P := fun x : State => x.mem.bytes = s.mem.bytes) (fun b a hb => (State.sramCe_bytes b t a).trans hb) l s rfl
  unfold State.readBlock
  cases s.regionOf pa with
  | sram t off => simp only; split <;> simp [corrected]
  | shallows => exact s.readTier_bytes pa n
  | deeps => exact s.readTier_bytes pa n
  | control => rfl
  | hole => simp

theorem State.meets_mem (s : State) (pa : Nat) : (s.meets pa).mem = s.mem := by
  unfold State.meets
  cases s.regionOf pa with
  | sram t off => simp only; split <;> rfl
  | _ => rfl

/-- Translation and checks leave memory as it is, but that a walk's uncorrectable entry is used up. -/
theorem State.resolve_bytes (s : State) (ctx : Nat) (m : Master) (need : Nat) (l : Loc) (len : Nat) : (s.resolve ctx m need l len).1.mem.bytes = s.mem.bytes := by
  unfold State.resolve
  split
  · rfl
  · cases l with
    | phys pa => simp [State.reach, State.meets_mem]
    | sram t off => simp only; split <;> simp [State.reach, State.reachOwn, State.meets_mem]
    | virt va =>
      simp only
      cases s.pageOf ctx va with
      | none => simp only; split <;> rfl
      | some p => simp only; split <;> simp [State.reach, State.meets_mem]

theorem State.readGo_bytes (f : Nat) (s : State) (ctx : Nat) (m : Master) (need : Nat) (l : Loc) (len : Nat) (acc : Bytes) :
    (State.readGo f s ctx m need l len acc).s.mem.bytes = s.mem.bytes := by
  induction f generalizing s l len acc with
  | zero => rfl
  | succ f ih =>
    rw [State.readGo]
    simp only
    split
    · rfl
    · split
      · simp [State.resolve_bytes]
      · split
        · simp [State.readBlock_bytes, State.resolve_bytes]
        · rw [ih, State.readBlock_bytes, State.resolve_bytes]

/-- A read by any master changes no byte. -/
theorem State.read_bytes (s : State) (ctx : Nat) (m : Master) (need : Nat) (l : Loc) (len : Nat) : (s.read ctx m need l len).s.mem.bytes = s.mem.bytes :=
  State.readGo_bytes _ s ctx m need l len []

/-! ## Writes keep the canonical form -/

theorem State.writeWord_wf {s : State} (t w lo n : Nat) (d : Bytes) (h : s.mem.wf = true) : (s.writeWord t w lo n d).1.mem.wf = true := by
  unfold State.writeWord
  split
  · exact Mem.wf_of_bytes (State.noteWord_bytes _ _ _) (Mem.wf_put _ d h)
  · split
    · simpa using h
    · split
      · exact Mem.wf_put _ d (Mem.wf_of_bytes (State.sramCe_bytes s t w) h)
      · exact Mem.wf_put _ d h

theorem State.writeWords_wf (f : Nat) {s : State} (t off : Nat) (d : Bytes) (h : s.mem.wf = true) : (State.writeWords f s t off d).1.mem.wf = true := by
  induction f generalizing s off d with
  | zero => exact h
  | succ f ih =>
    rw [State.writeWords]
    split
    · exact h
    · exact ih _ _ (State.writeWord_wf _ _ _ _ _ h)

theorem State.mirror_wf {s : State} (pa : Nat) (h : s.mem.wf = true) : (s.mirror pa).mem.wf = true := by
  unfold State.mirror
  refine foldl_keeps (P := fun x : State => x.mem.wf = true) (fun b a hb => ?_) _ s h
  cases a.big <;> simp only [Bool.false_eq_true, if_true, if_false]
  · split
    · exact Mem.wf_put _ _ hb
    · exact hb
  · split
    · exact Mem.wf_put _ _ hb
    · exact hb

theorem State.storeTier_wf {s : State} (pa : Nat) (d : Bytes) (h : s.mem.wf = true) : (s.storeTier pa d).mem.wf = true :=
  State.mirror_wf pa (Mem.wf_put pa d h)

theorem State.writeTier_wf {s : State} (pa : Nat) (d : Bytes) (h : s.mem.wf = true) : (s.writeTier pa d).1.mem.wf = true := by
  have ue : (s.dramUe pa).mem.wf = true := Mem.wf_of_bytes (s.dramUe_bytes pa) h
  have ce : (s.dramCe pa).mem.wf = true := Mem.wf_of_bytes (s.dramCe_bytes pa) h
  unfold State.writeTier
  simp only
  split
  · exact ue
  · split
    · exact State.storeTier_wf pa d h
    · cases s.markOf (pa / 128 * 128) with
      | none => exact State.storeTier_wf pa d h
      | some m =>
        cases m with
        | ce => exact State.storeTier_wf pa d ce
        | _ => exact ue

theorem State.writeBlock_wf {s : State} (pa : Nat) (d : Bytes) (h : s.mem.wf = true) : (s.writeBlock pa d).1.mem.wf = true := by
  unfold State.writeBlock
  cases s.regionOf pa with
  | sram t off => exact State.writeWords_wf _ _ _ _ h
  | shallows => exact State.writeTier_wf pa d h
  | deeps => exact State.writeTier_wf pa d h
  | control => exact h
  | hole => simpa using h

/-- The base dies' atomic keeps the canonical form (R161). -/
theorem State.atomic_wf {s : State} (pa fn : Nat) (wide : Bool) (x cmp : Nat) (h : s.mem.wf = true) : (s.atomic pa fn wide x cmp).1.mem.wf = true := by
  have read (n : Nat) : (s.readBlock pa n).1.mem.wf = true := Mem.wf_of_bytes (State.readBlock_bytes s pa n) h
  unfold State.atomic
  simp only
  generalize (if wide = true then 8 else 4) = n
  cases s.regionOf pa with
  | hole => simpa using h
  | sram t off => exact h
  | control => exact h
  | _ =>
    simp only
    split
    · exact h
    · split
      · exact read n
      · exact State.writeBlock_wf _ _ (read n)

theorem State.writeGo_wf (f : Nat) {s : State} (ctx : Nat) (m : Master) (need : Nat) (l : Loc) (d : Bytes) (k : Nat) (h : s.mem.wf = true) :
    (State.writeGo f s ctx m need l d k).s.mem.wf = true := by
  induction f generalizing s l d k with
  | zero => exact h
  | succ f ih =>
    have checked (n : Nat) : (s.resolve ctx m need l n).1.mem.wf = true := Mem.wf_of_bytes (s.resolve_bytes ctx m need l n) h
    have stored (n pa : Nat) (d : Bytes) : ((s.resolve ctx m need l n).1.writeBlock pa d).1.mem.wf = true := State.writeBlock_wf pa d (checked n)
    rw [State.writeGo]
    simp only
    by_cases he : d.isEmpty = true
    · simpa [he] using h
    · simp only [he, Bool.false_eq_true, if_false]
      split
      · exact checked _
      · split
        · exact stored _ _ _
        · exact ih _ _ _ (stored _ _ _)

/-- A write by any master keeps the canonical form. -/
theorem State.write_wf {s : State} (ctx : Nat) (m : Master) (need : Nat) (l : Loc) (d : Bytes) (h : s.mem.wf = true) : (s.write ctx m need l d).s.mem.wf = true :=
  State.writeGo_wf _ ctx m need l d 0 h

/-- So does a copy. -/
theorem State.copy_wf {s : State} (ctx : Nat) (m : Master) (src dst : Loc) (len : Nat) (h : s.mem.wf = true) : (s.copy ctx m src dst len).s.mem.wf = true := by
  have hw : ((s.read ctx m permRead src len).s.write ctx m permWrite dst (s.read ctx m permRead src len).data).s.mem.wf = true :=
    State.write_wf ctx m permWrite dst _ (Mem.wf_of_bytes (State.read_bytes s ctx m permRead src len) h)
  unfold State.copy
  simp only
  split
  · exact hw
  · split <;> exact hw

/-- Memory right after reset is in canonical form. -/
theorem State.reset_mem_wf : State.reset.mem.wf = true := rfl

end Sys2Proof.Machine
end

