-- ==== Sys2Proof/Tests/States.lean ====
section
/-! SUPPORT. Small states for the tests: a package that is ON with context 1 open, and changes of it. -/

namespace Sys2Proof.Tests

set_option maxRecDepth 100000
set_option Elab.async false

open Sys2Proof Sys2Proof.Machine

/-- An Operator, the Custodian and the Tenant of context 1, in sessions 7 to 9. -/
def op : Who := ⟨roleOperator, 0, 7, 1⟩
def cus : Who := ⟨roleCustodian, 0, 8, 1⟩
def ten : Who := ⟨roleTenant, 1, 9, 1⟩
def wh : Who := ⟨roleSteward, 0, 0, 0⟩

/-- Session 7 of an Operator over H0, sessions 8 and 9 of the Custodian and of the Tenant of context 1. -/
def sess7 : Session :=
  ⟨7, 0, roleOperator, 0, .opened, none, false, [], [], zeros 16, 9, 7, zeros 32, zeros 32, zeros 32, ⟨0, 0⟩, 0, [], 0, [], [], [], 0, none, [], [], []⟩
def sess8 : Session := { sess7 with id := 8, role := roleCustodian, peerId := 8 }
def sess9 : Session := { sess7 with id := 9, role := roleTenant, ctx := 1, peerId := 9 }

/-- A window over all of a tile's SRAM, and one over the low virtual addresses, for every master and every access. -/
def winSram : Bytes := leBytes 8 (2 ^ 63) ++ leBytes 8 2097152 ++ [0x3F, 0x0F] ++ zeros 14
def winVirt : Bytes := leBytes 8 0 ++ leBytes 8 (2 ^ 40) ++ [0x2F, 0x0F] ++ zeros 14

/-- The package ON, every domain up, context 1 OPEN with tiles 0 to 7, its windows and one page at virtual address 0. -/
def B : State :=
  let s := ((State.reset.wr Obj.pkgPowerState pwrOn).wr (Obj.ctxState 1) ctxOpen).wr Obj.agentState agFollowing
  let s := ((s.wro (Obj.tileSet 1) ([0xFF] ++ zeros 239)).wro (Obj.window 1 0) winSram).wro (Obj.window 1 1) winVirt
  { s with
    boot := { s.boot with inReset := [], step := 0x20, resetN := true }
    mgmt := { s.mgmt with sessions := [sess7, sess8, sess9] }
    mem := { s.mem with pages := [⟨1, 0, false, 0, false⟩], frames := [⟨0, false, .mapped 1⟩] } }

/-- Tile 0 runs task `run1` of context 1. -/
def run1 : RunTask := ⟨⟨zeros 64, 1, 5, 0, false, true, 2⟩, 0, 0, 0, 0, 0⟩
def tile1 : Tile := { Tile.init with run := some run1 }

/-- Tile 0 runs with word `w` at its program counter, 4096. -/
def code (w : Nat) (f : Tile → Tile) : State :=
  { B.setTile 0 (f { tile1 with pc := 4096 }) with mem := B.mem.put (tilePa 0 4096) (leBytes 4 w) }



/-- Tally 5 belongs to a context and stands at a count. -/
def tallied (ctx : Nat) (k : Int) (t : Tile) : Tile := { t with tallies := mput t.tallies 5 ⟨k, .ok, causeNone, some ctx, 0, .ok, causeNone⟩ }

/-- A granule whose stored check says something. -/
def marked (m : EccMark) (g : Nat) : State := { B with mem := { B.mem with marks := [(g, m)] } }

/-- A descriptor of a view: element base in own SRAM of tile 0, dimensions, stride and format. -/
def view (off dim0 dim1 stride fmt : Nat) : Bytes :=
  leBytes 8 (2 ^ 63 + off) ++ zeros 24 ++ leBytes 4 dim0 ++ leBytes 4 dim1 ++ leBytes 4 stride ++ zeros 8 ++ [BitVec.ofNat 8 fmt, 0, 0xFF, 0xFF] ++ zeros 8

/-- An incomplete receive entry of NI 0. -/
def rx0 : RxMsg := ⟨0, 0, 1, 0, 4, 0, 0, 1, 512, 256, 1, 0, none, .ok, false, false⟩
def rxSt (quarantined : Bool) : State := { B with ni := { B.ni with rxs := [{ rx0 with quarantined := quarantined }], nextRx := 1 } }

/-- The registers of a POST of the 64 bytes at 8192: it names tally 5. -/
def posting (rb rc : BitVec 64) (t : Tile) : Tile := (((tallied 1 1 t).setX 1 8192).setX 2 rb).setX 3 rc
def postWord : Nat := eX 0x31 ⟨1, 2, 3, 0, 5⟩

/-- Tile `n` replaced by a change of it. -/
def onTile (s : State) (n : Nat) (f : Tile → Tile) : State := s.setTile n (f (s.tile n))

/-- A view of 32 by 64 and one of 8 by 64 elements of BF16, and one of 64 rows of 8 in FP32. -/
def viewA : Bytes := view 16384 32 64 32 1
def viewD : Bytes := view 65536 8 64 8 0
def opOf (k : OpKind) (acc : Nat) : TileOp := ⟨k, 0, some .fp32, false, viewA, viewA, viewD, 0, acc, false, 32, 32, 0, 5⟩

/-- A task of 64 zero bytes with an entry point, its post on the way to tile 1, and its pool entry. -/
def task0 : Bytes := zeros 64
def post0 : PostMsg := ⟨.tile 0 5 1 5 0, 1, 1, task0⟩
def entry0 : PoolTask := ⟨task0, 1, 9, 0, false, true, 0⟩

/-- Mailbox 3 belongs to context 1 and takes messages of every role and context. -/
def bindCtx : Bytes := [1, 1] ++ zeros 18 ++ List.replicate 8 0xFF ++ [0xFF] ++ zeros 3
def withMbx (s : State) : State := (s.wro (Obj.mbxBind 3) bindCtx).wr (Obj.mbxState 3) ustActive

/-- A transfer descriptor, and channel `c` of context 1 with it in its queue. -/
def desc (mode count src dst len elem aux : Nat) : Bytes :=
  leBytes 1 mode ++ zeros 5 ++ leBytes 2 count ++ leBytes 8 src ++ leBytes 8 dst ++ leBytes 4 len ++ leBytes 4 elem ++ leBytes 8 aux ++ zeros 24
def teSt (c : Nat) (b : Bytes) : State :=
  (((B.wr (Obj.teOwner c) 1).wr (Obj.teState c) ustActive).wr (Obj.teCqEntries c) 16).setChan c { TeChan.init with queue := [⟨0, b, false⟩], nextSerial := 1 }

/-- A descriptor in progress, and channel 3 of context 1 with it. -/
def actv (b : Bytes) (p : TePhase) : TeActive := ⟨0, b, 0, p, .ok, tdNone, 0, 0, 0xFF, 0, 0, 0⟩
def teAct (c : Nat) (b : Bytes) (p : TePhase) : State :=
  (((B.wr (Obj.teOwner c) 1).wr (Obj.teState c) ustActive).wr (Obj.teCqEntries c) 16).setChan c { TeChan.init with active := [actv b p], nextSerial := 1 }

/-- Queue pair 15 of HTE 0 configured, with a path MTU of 1,024 bytes, on port H1. -/
def qpBytes : Bytes := zeros 20 ++ [1, 1, 64, 1] ++ zeros 8
def withQp (s : State) : State := (s.wro (Obj.hteQp 0 15) qpBytes).wr (Obj.hteQpState 0 15) qpReady
def rdma0 (op : Nat) : RdmaPkt := ⟨0, op, 0, 64, 0, [], none⟩
def qpWait (op retries : Nat) : State := (withQp B).setQp 0 15 { HteQp.init with unacked := [rdma0 op], psn := 1, retries := retries }

/-- The memory with an evacuation, a page move, a fill or a shootdown under way. -/
def evac0 (c0 c1 : Nat) : Evac := ⟨31, 5, 5, 16, c0, c1, 0, false, 15⟩
def withMem (s : State) (f : Mem → Mem) : State := { s with mem := f s.mem }
def move0 (k : Nat) : Move := ⟨3, 0, 1, 0, false, 0, 2097152, k, true, false⟩

/-- A page-map command (R172). -/
def pageCmd (op va len tier : Nat) : Bytes := leBytes 8 va ++ leBytes 8 len ++ leBytes 1 op ++ [0] ++ leBytes 1 tier ++ [0xFF] ++ zeros 12

/-- An UP link at port `p`, with a change of its link layer. -/
def linked (p : Nat) (f : LinkPort → LinkPort) : State := (B.wr (Obj.linkState p) linkUp).setLink p (f LinkPort.init)

/-- A control flit of an opcode, and a data-class packet of one flit. -/
def flit (op : Nat) : CtlFlit := ⟨op, 0, 0, 3, 16, 4, List.replicate 40 0, 0⟩
def pkt0 : Packet := ⟨1, clsRQ, 0, 0, false, 1, 0, 0, 0, 0, 0, zeros 20, [], zeros 16⟩
def trailer0 : Trailer := ⟨0, 0, false, 0xFF, 0, 0, true⟩
def held0 : HeldPkt := ⟨trailer0, pkt0, 0⟩

/-- One flit received at port `p` and not yet taken. -/
def wired (s : State) (p : Nat) (b : Bytes) : State := s.setLink p { s.link p with rxFlits := [some b] }

/-- A router entry of input 0 with one job at output `out`. -/
def ent (out : Nat) (p : Packet) : RtEntry := ⟨7, 0, p, 0, [], true, [(out, p)]⟩
def buffered (e : RtEntry) : State := { B with router := { B.router with bufs := [e], nextId := 8 } }

/-- A network command (R281), and NI 0 with it in the queue of context 1, whose job is 9; rank 2 is position 1, rank 3 position 2. -/
def cmd (op sub rank loc rem len count operand compare : Nat) : Bytes :=
  [BitVec.ofNat 8 op, 0, 0, BitVec.ofNat 8 sub, 0, 0] ++ leBytes 2 rank ++ leBytes 8 loc ++ leBytes 8 rem ++ leBytes 4 len ++ leBytes 4 count ++ leBytes 8 operand ++
    leBytes 8 compare ++ zeros 16
def at1 : Nat := 65535 * 256 + 4
def own : Nat := 2 ^ 63 + 8192
def niBase : State :=
  let s := (((B.wr (Obj.niqState 0 1) ustActive).wr (Obj.niJob 1) 9).wr (Obj.notifyEntries 1) 16).wr (Obj.notifyBase 1) own
  { s with ni := { s.ni with ranks := [(4098, 2 ^ 31 + at1), (4099, 2 ^ 31 + at1 + 4)] } }
def niSt (b : Bytes) : State := niBase.setNiq 0 1 { NiQueue.init with queue := [⟨0, b, false, none, []⟩], nextSerial := 1 }
def niAct (b : Bytes) : NiActive := ⟨0, b, 0, none, [], .ok, ndNone, 0, 0, 0, [], true, 0, [], []⟩

/-- A packet of job 9 from position 1 with its check in the clear, and NI 0 with it received. -/
def pkt (cls op sub len target : Nat) (pay : Bytes) : Packet :=
  let p : Packet := ⟨cdiv (16 * (pay.length / 16) + 64) 64, cls, 0, 0, false, 65535 * 256, at1, 0, pay.length / 16, 0, 0,
    [BitVec.ofNat 8 (16 * op + sub), 0, 9, 0] ++ zeros 7 ++ leBytes 3 len ++ leBytes 6 target, pay, []⟩
  { p with tag := leBytes 4 (crc32c (p.aad ++ pay)) ++ zeros 12 }
def got (s : State) (p : Packet) : State := s.setNi 0 { Ni.init with rxQ := [p] }
def out0 (op len : Nat) : OutMsg := ⟨0, 1, 0, 0, 0, op, [at1], len, own, 0, 0, .ok, 0, 0, none, false⟩

/-- The check of a packet in the clear passes. -/
theorem opens {s : State} {i c : Nat} {p : Packet} {iv : Bytes} (h1 : s.ctxSt c ≠ ctxRetiring) (h2 : p.enc = false)
    (h3 : ¬(s.rd (Obj.niEncRequired c) = 1 ∨ s.confidential c = true)) (h4 : ¬(leAt p.tag 0 4 ≠ crc32c (p.aad ++ p.payload) ∨ (!allZero (slice p.tag 4 12)) = true)) :
    s.openPkt i c p iv = .ok p.payload := by
  unfold State.openPkt
  rw [if_neg h1, if_neg (by simp [h2]), if_neg h3, if_neg h4]

/-- A collective session of positions 0 and 1, and NI 0 with it; a CL packet of it from position 1. -/
def sess0 (kind : Nat) (run : Option Nat) (parts queued : List Nat) : ClSession :=
  ⟨1, 5, 0, own, own + 4096, 512, kind, 0, 0, 0, ⟨0, 0, 3, 0⟩, none, queued, 0, run, 0, parts, [.empty, .empty], [.empty, .empty], [], none, none⟩
def clSt (x : ClSession) (b : Bytes) : State := { niSt b with ni := { (niSt b).ni with sessions := [x] } }
def clPkt (kind inv off : Nat) : Packet :=
  let p : Packet := ⟨6, clsCL, 0, 0, false, 65535 * 256, at1, 0, 16, 0, 0, [BitVec.ofNat 8 (64 * kind), 0, 9, 0] ++ leBytes 4 inv ++ [5, 0] ++ leBytes 3 off ++ zeros 7, zeros 256, []⟩
  { p with tag := leBytes 4 (crc32c (p.aad ++ p.payload)) ++ zeros 12 }

/-- An agent message, a package with it received, and the same package as the Wellhead. -/
def msg (typ origin term gen arg : Nat) (pay : Bytes) : AgentMsg := ⟨typ, 0, origin, 0, term, 1, gen, arg, pay⟩
def heard (s : State) (path : MgPath) (m : AgentMsg) : State := { s with agent := { s.agent with inbox := [⟨path, 65535, m⟩] } }
def whB : State := B.wr Obj.agentState agWellhead
def withAgent (s : State) (f : Agent → Agent) : State := { s with agent := f s.agent }
def withWh (s : State) (f : Wellhead → Wellhead) : State := { s with wh := f s.wh }

/-- A Wellhead with the pieces of a rail map of version `v` and no routes, whose digest is right. -/
def railHash (v : Byte) : Bytes := fit 32 (sha256 (v :: zeros 527))
def railSt (v : Byte) : State :=
  withWh whB fun w => { w with railLoad := (0, v) :: (List.range 32).map fun i => (528 + i, (railHash v).getD i 0) }
def railBytes (v : Byte) : Bytes := (List.range 560).map fun i => mgetD (railSt v).wh.railLoad i 0
theorem railHash_eq (v : Byte) : (List.range 32).map (fun i => (railHash v).getD i 0) = railHash v := by
  apply List.ext_getElem
  · simp [railHash, fit, zeros]
  · intro i h1 h2
    simp [List.getD_eq_getElem?_getD, List.getElem?_eq_getElem h2]
theorem railBytes_eq (v : Byte) : railBytes v = (v :: zeros 527) ++ railHash v := by
  rw [← railHash_eq]
  rfl
theorem railBytes_slice (v : Byte) : slice (railBytes v) 528 32 = railHash v := by
  rw [railBytes_eq]
  simp [slice, zeros, railHash, fit]
theorem railBytes_take (v : Byte) : (railBytes v).take 528 = v :: zeros 527 := by
  rw [railBytes_eq]
  simp [zeros]
theorem railOk (v : Byte) : railBad (railBytes v) = false := by
  unfold railBad
  have h : railRoutes (railBytes v) = 0 := by rfl
  rw [h]
  simp only [Nat.mul_zero, Nat.add_zero]
  rw [railBytes_slice, railBytes_take, show railCat (railBytes v) = 0 from rfl, show slice (railBytes v) 8 8 = zeros 8 from rfl]
  simp [railHash]
  decide

/-- A package that holds a session beside those of `B`, and one that holds only those of H0 moved to SB. -/
def withSess (x : Session) (s : State) : State := { s with mgmt := { s.mgmt with sessions := x :: s.mgmt.sessions.filter fun y => y.id != x.id } }
def onSb (s : State) : State := { s with mgmt := { s.mgmt with sessions := s.mgmt.sessions.map fun x => { x with port := 2 } } }

/-- A frame with the tag that a key gives its header and body. -/
def sealed (key : Bytes) (f : NxFrame) (b : Bytes) : NxFrame :=
  { f with tag := gcmTag key (nxIv f.session f.seq) f.header (gcmCrypt key (nxIv f.session f.seq) b) }
theorem sealed_ok (key : Bytes) (f : NxFrame) (b : Bytes) : (sealed key f b).tagOk key b = true := by
  simp [NxFrame.tagOk, sealed, NxFrame.header]

/-- The header of a frame of a type in a session, from the peer at a position. -/
def head (typ session peer len : Nat) : NxFrame := ⟨peer, zeros 16, 9, udpNxf, 0x584E, 1, typ, session, 1, len, 0, []⟩
def frame7 (typ : Nat) (b : Bytes) : NxFrame := sealed (zeros 32) (head typ 7 64 b.length) b

/-- A frame of a session is taken where its key's tag stands on it. -/
theorem taken {s : State} {f : NxFrame} {typ : Nat} {b : Bytes} {x : Session} (h1 : f.dport = udpNxf) (h2 : f.legal b.length = true) (h3 : f.typ = typ)
    (h4 : s.sessFor f = some x) (h5 : s.carries x = true) (h6 : f.tagOk x.rxKey b = true) (h7 : x.win.accepts f.seq = true) :
    s.frameIn f typ b = (s.setSession { x with win := x.win.take f.seq, addr := f.addr, udp := f.sport }, some { x with win := x.win.take f.seq, addr := f.addr, udp := f.sport }) := by
  unfold State.frameIn
  rw [if_neg (by simp [h1]), if_neg (by simp [h2]), if_neg (by simp [h3]), h4]
  simp [h5, h6, h7]

def spdm7 (code v : Nat) : State := withSess { sess7 with spdm := some ([BitVec.ofNat 8 v, BitVec.ofNat 8 code] ++ zeros 46) } B

/-- A request of session 7, and a session-claimed mailbox 3 that takes messages of every role. -/
def req (op area entry sub len off : Nat) (v : Bytes) : NxReq :=
  let q : NxReq := ⟨head ntRequest 7 64 (16 + v.length), 5, op, area, entry, sub, 0, len, off, v⟩
  { q with frame := frame7 ntRequest q.body }
theorem req_ok (op area entry sub len off : Nat) (v : Bytes) : (req op area entry sub len off v).frame.tagOk (zeros 32) (req op area entry sub len off v).body = true :=
  sealed_ok _ _ _
def bindSess : Bytes := [2, 0, 1] ++ zeros 17 ++ List.replicate 9 0xFF ++ zeros 3
def mbx3 (claimant : Nat) : State := ((B.wro (Obj.mbxBind 3) bindSess).wr (Obj.mbxState 3) ustActive).wr (Obj.mbxClaimant 3) claimant

/-- An image of element 2 with no body and no signer chain, its digest right and its signature all zeros: signed where its signer may sign and the signature verifies. -/
def fwHead : Bytes := leBytes 4 0x31574655 ++ leBytes 2 1 ++ [2] ++ zeros 17 ++ [1, 0, 0, 0, 0, 0] ++ zeros 6 ++ [3, 0, 0, 0, 0, 0] ++ [4, 0, 0, 0, 0, 0] ++ zeros 80
def fwImg : Bytes := fwHead ++ sha256 fwHead ++ zeros 66
def fwSt : State := (B.wr (Obj.fwState 2) fwLoading).setFw 2 { FwElem.init with loading := (List.range 226).map fun i => (i, fwImg.getD i 0), loadEnd := 226 }

theorem fwImg_image : (fwSt.fwOf 2).image = fwImg := by decide +kernel

/-- It is accepted where the two opaque answers allow it (log entry 60). -/
theorem fwSt_ok (h : Config.fwSignerOk [] = true) (g : ecVerify (Config.certKey []) (sha256 fwHead) (zeros 64) = true) : fwSt.fwVerdict 2 = 0 := by
  have a : slice fwImg 128 32 = sha256 fwHead := by decide +kernel
  have b : fwImg.take 128 = fwHead := by decide +kernel
  have c : fwImg.drop 226 = [] := by decide +kernel
  have d : slice fwImg 160 64 = zeros 64 := by decide +kernel
  have e : fwBodyLen fwImg = 0 := by decide +kernel
  have hs : fwSigned fwImg = true := by
    unfold fwSigned
    simp only [e, Nat.add_zero, Nat.reduceAdd, a, b, c, d, h, g, beq_self_eq_true, Bool.and_self]
  have hm : fwMalformed 2 fwImg = false := by decide +kernel
  have hc : fwSt.fwCompatible 2 fwImg = true := by decide +kernel
  unfold State.fwVerdict
  rw [if_neg (by decide +kernel), if_neg (by decide +kernel), fwImg_image]
  simp only [hm, hs, hc, Bool.not_true, Bool.false_eq_true, if_false]
  decide +kernel

/-- An authority record of an unowned package whose owner's private key is 1, signed under it with the number 1 (R407, R414). -/
def arHead : Bytes := [1, 0, 0, 0, 1, 0, 0, 0] ++ beBytes 32 EcPt.base.x ++ beBytes 32 EcPt.base.y ++ zeros 184
def arSig : Nat × Nat := ecSignWith 1 (beNat (sha256 arHead)) 1
def arRec : Bytes := arHead ++ beBytes 32 arSig.1 ++ beBytes 32 arSig.2
theorem arRec_ok : B.arOk arRec = true := by decide +kernel

end Sys2Proof.Tests
end

