-- ==== Sys2Proof/Tests/Slice0.lean ====
section
/-! SUPPORT. Small tests: ill-formed commands that the checks refuse, words and encodings written out from the spec's tables and worked examples, and single commands
whose results the spec states. -/

namespace Sys2Proof.Tests

set_option maxRecDepth 100000
set_option Elab.async false

open Sys2Proof Sys2Proof.Machine

/-- The state after a command. -/
def nxt (c : Instr) (s : State) : State :=
  match exec c s with
  | .next t => t
  | _ => State.reset

/-- The state after one step with a command in front. -/
def stepped (c : Instr) (s : State) : State :=
  match step { s with pending := c :: s.pending } with
  | .next t => t
  | _ => State.reset

def goodFrame : NxFrame := { head ntRequest 7 64 16 with tag := zeros 16 }
def badFrame : NxFrame := { goodFrame with tag := [] }
def goodReq : NxReq := ⟨goodFrame, 5, opRead, 0x10, 0x0210, 0, 0, 0, 0, []⟩
def badReq : NxReq := { goodReq with area := 256 }
def goodPkt : Packet := { pkt0 with tag := zeros 16 }
def ev0 : EventIn := ⟨0x7001, 0, 0, 0xFF, 0, 0, 0, 0, 0⟩

/-! ## Well-formedness -/

/-- Well-formed commands are accepted. -/
theorem test_wf_accepts_1 : ([
    .write goodReq, .read goodReq, .nextObj goodReq, .keepalive goodReq, .quiesceGraceEnd (.tile 0), .quiesceDrained (.tile 0),
    .quiesceFailAbort (.tile 0), .add 0 ⟨0, 0, 0, 0⟩, .sub 0 ⟨0, 0, 0, 0⟩, .and_ 0 ⟨0, 0, 0, 0⟩, .or_ 0 ⟨0, 0, 0, 0⟩, .xor_ 0 ⟨0, 0, 0, 0⟩,
    .shl 0 ⟨0, 0, 0, 0⟩, .shr 0 ⟨0, 0, 0, 0⟩, .mul 0 ⟨0, 0, 0, 0⟩, .slt 0 ⟨0, 0, 0, 0⟩, .addi 0 ⟨0, 0, 0⟩, .ori 0 ⟨0, 0, 0⟩, .lui 0 ⟨0, 0, 0⟩,
    .ldx 0 ⟨0, 0, 0⟩, .stx 0 ⟨0, 0, 0⟩, .beq 0 ⟨0, 0, 0⟩, .bne 0 ⟨0, 0, 0⟩, .blt 0 ⟨0, 0, 0⟩, .bge 0 ⟨0, 0, 0⟩, .jal 0 ⟨0, 0⟩, .jr 0 ⟨0, 0, 0, 0⟩,
    .dld 0 ⟨0, 0, 0, 0⟩, .dst 0 ⟨0, 0, 0, 0⟩, .dsetw 0 ⟨0, 0, 0, 0⟩, .dadv 0 ⟨0, 0, 0, 0⟩, .mma 0 ⟨0, 0, 0, 0, 0, 0, 0⟩, .mmaDone 0 [],
    .shadowCheckDone 0 0, .driftHourRollover 0, .drain 0 ⟨0, 0, 0, 0, 0, 0, 0⟩, .drainDone 0, .qcvt 0 ⟨0, 0, 0, 0, 0, 0, 0⟩, .qcvtDone 0,
    .vld 0 ⟨0, 0, 0⟩] : List Instr).all Instr.wf = true := by decide +kernel
/-- Well-formed commands are accepted. -/
theorem test_wf_accepts_2 : ([
    .vst 0 ⟨0, 0, 0⟩, .fadd 0 ⟨0, 0, 0, 0⟩, .fsub 0 ⟨0, 0, 0, 0⟩, .fmul 0 ⟨0, 0, 0, 0⟩, .ffma 0 ⟨0, 0, 0, 0⟩, .fmin 0 ⟨0, 0, 0, 0⟩, .fmax 0 ⟨0, 0, 0, 0⟩,
    .fcmplt 0 ⟨0, 0, 0, 0⟩, .sel 0 ⟨0, 0, 0, 0⟩, .exp 0 ⟨0, 0, 0, 0⟩, .log 0 ⟨0, 0, 0, 0⟩, .rsqrt 0 ⟨0, 0, 0, 0⟩, .tanh 0 ⟨0, 0, 0, 0⟩,
    .sigm 0 ⟨0, 0, 0, 0⟩, .div 0 ⟨0, 0, 0, 0⟩, .sqrt 0 ⟨0, 0, 0, 0⟩, .rsum 0 ⟨0, 0, 0, 0⟩, .rmax 0 ⟨0, 0, 0, 0⟩, .rmin 0 ⟨0, 0, 0, 0⟩,
    .iadd 0 ⟨0, 0, 0, 0⟩, .isub 0 ⟨0, 0, 0, 0⟩, .iand 0 ⟨0, 0, 0, 0⟩, .ior 0 ⟨0, 0, 0, 0⟩, .ixor 0 ⟨0, 0, 0, 0⟩, .ishl 0 ⟨0, 0, 0, 0⟩,
    .ishr 0 ⟨0, 0, 0, 0⟩, .cvt 0 ⟨0, 0, 0, 0⟩, .badd 0 ⟨0, 0, 0, 0⟩, .bsub 0 ⟨0, 0, 0, 0⟩, .bmul 0 ⟨0, 0, 0, 0⟩, .bfma 0 ⟨0, 0, 0, 0⟩,
    .xfer 0 ⟨0, 0, 0, 0, 0⟩, .xferComplete 0 0, .postTask 0 ⟨0, 0, 0, 0, 0⟩, .postRemoteTask 0 ⟨0, 0, 0, 0, 0⟩, .postTeDirect 0 ⟨0, 0, 0, 0, 0⟩,
    .postNiDirect 0 ⟨0, 0, 0, 0, 0⟩, .postMailbox 0 ⟨0, 0, 0, 0, 0⟩, .postBell 0 ⟨0, 0, 0, 0, 0⟩,
    .tset 0 ⟨0, 0, 0, 0⟩] : List Instr).all Instr.wf = true := by decide +kernel
/-- Well-formed commands are accepted. -/
theorem test_wf_accepts_3 : ([
    .tdec 0 ⟨0, 0, 0, 0⟩, .twait 0 ⟨0, 0, 0, 0⟩, .trd 0 ⟨0, 0, 0, 0⟩, .tfree 0 ⟨0, 0, 0, 0⟩, .fence 0 ⟨0, 0, 0, 0⟩, .end_ 0 ⟨0, 0, 0, 0⟩,
    .illegalInstruction 0, .taskSelect 0, .tallyDecrement 0, .postArrival 0, .postQueueAdmit (.pool 0), .postWaitExpiry (.pool 0) 0, .taskBudgetExpiry 0,
    .sequencerWatchdogExpiry 0, .stealPoll 0, .stealRequest 0 0, .stealReply 0, .tileDisable op 0, .tileEnable op 0, .tileSwap op 0, .tileSwapNow op 0,
    .substitutionHold 0, .substitutionCopyDone 0, .tileParityFail 0, .freezeReleaseKeep op 0, .freezeReleasePurge op 0, .sramPatrol 0 0 0 [],
    .tileClockChange 0 0, .jtiLoad op 0 0, .jtiPlacementDone 0, .jtiLoadDone 0, .memRead 0 (.cells []), .memWrite 0 [], .memAtomic 0 0 false 0 0,
    .patrolScrub 0 (.cells []) false, .dramRefresh 0 0 0 false, .dramTempReport 0 0 0, .tableWalkDone 0 0 false, .shootdownAck 0 0,
    .pageMap op 0 []] : List Instr).all Instr.wf = true := by decide +kernel
/-- Well-formed commands are accepted. -/
theorem test_wf_accepts_4 : ([
    .pageUnmap op 0 [], .unmapFillDone 0, .dramEvacuate op 0 0, .evacGroupCopied 0 0, .oldDieUnresponsive 0, .spareDieUnresponsive 0,
    .teSqTailWrite op 0 0, .teCqHeadWrite op 0 0, .teRingFetch 0, .teOwnerWrite op 0 0, .teCopy 0, .teFill 0, .teScrub 0, .teGather 0, .teScatter 0,
    .teMigrate 0, .hostRead 0, .hostWrite 0, .hostWriteImm 0, .teDescriptorComplete 0 0, .migrateWaitExpiry 0 0, .migrationCopyDone 0 0, .teDisable op 0,
    .teEnable op 0, .teRelease op 0, .tePurge op 0, .teChannelFail 0, .rdmaRequestRefused 0 0, .rdmaResponse 0 0 ⟨0, 0, 0, []⟩, .rdmaAckTimeout 0 0,
    .rdmaEcnMark 0 0, .htePortDownTimeout 0 0, .hteQpWrite op 0 0 [], .d2dUnitReceive 0 0 0 0 (zeros 256), .d2dLaneFail 0 0,
    .codewordReceive 0 (List.replicate 18 []), .linkPacketReceive 0, .ackCredit 0, .ackDeadline 0,
    .replayReq 0] : List Instr).all Instr.wf = true := by decide +kernel
/-- Well-formed commands are accepted. -/
theorem test_wf_accepts_5 : ([
    .replayTimeout 0, .laneReq 0 0, .laneMap 0, .laneCopyAligned 0 0 0, .laneSwitch 0 0 0, .laneAbruptLoss 0 [], .linkLoss 0 1,
    .trainingSignalDetected 0 0, .equalisationDone 0, .trainingFramesChecked 0 0 0 0 [] 0, .berMeasureDone 0 [] [], .retrainIntervalExpiry 0,
    .marginMeasure 0 [] [] 0, .laserFail 0 0, .portSerdesFail 0, .laneSerdesFail 0 0 0, .portDisable op 0, .portEnable op 0, .portRetrain op 0,
    .laneDisable op 0 0, .laneEnable op 0 0, .routerPacketIn 0 0 none, .routerInject 0 none, .routerPacketSend 0, .residenceLimitExpiry 0,
    .routerBankFail 0 0, .wornBankEmptied 0 0, .routeBankLoading op 0, .routeBankValid op 0, .routeLoad op [], .injectParityWrite op 0,
    .rtAdmitWrite op 0 0, .niqSqTailWrite op 0 0 0, .niqCqHeadWrite op 0 0 0, .niRingFetch 0 0, .put 0 0, .get 0 0, .atomic 0 0, .notify 0 0,
    .task 0 0] : List Instr).all Instr.wf = true := by decide +kernel
/-- Well-formed commands are accepted. -/
theorem test_wf_accepts_6 : ([
    .copyTo 0 0, .dispatch 0 0, .inboxArm 0 0, .clOpen 0 0, .clRun 0 0, .clInvocationStart 0 0, .clClose 0 0, .niCommandComplete 0 0 0, .rxPut 0,
    .rxGet 0, .rxAtomic 0, .rxNotify 0, .rxTask 0, .rxCopyTo 0, .rxFwd 0, .rxToken 0, .rxDone 0, .rxAck 0, .rxData 0, .rxContrib 0, .rxResult 0,
    .quarantineExpiry false 0, .rxPartialExpiry 0, .niOpTimeout 0 0 0 0, .suspectTimeout 0, .keyDrainExpiry 0 0, .clTimeout 0 0, .rankLoad op 0 [],
    .dispatchLoad op 0 [], .niJobWrite op 0 0, .keyTxSlotWrite op 0 0, .niDisable op 0, .niEnable op 0, .niqRelease op 0 0, .niqPurge op 0 0, .probe,
    .probeEcho, .probeInterval, .hello, .helloInterval] : List Instr).all Instr.wf = true := by decide +kernel
/-- Well-formed commands are accepted. -/
theorem test_wf_accepts_7 : ([
    .report, .reportInterval, .claim, .grant, .heartbeat, .heartbeatInterval, .hbAck, .heartbeatMissLimit, .claimRetryTimer, .claimStaggerTimer,
    .discoveryClaimTimer, .discoveryReportTimeout, .linkDown, .lossNotice, .reprobe, .fenceReprobeInterval, .prepare, .bankDrained, .ready, .commit,
    .epochReadyTimeout, .epochAckTimeout, .slice, .sliceAck, .sliceAckTimeout 0, .sliceCreate op [], .sliceRepair op [], .sliceRetire op [], .replica,
    .railMap, .railMapLoad op [], .railMapCommit op 0, .fabricStartTimer ⟨true, true, [], [], [], [], [], [], false⟩, .stopComplete, .parkRelease op 0,
    .hostPowerRequest op 0, .avsTelemetryPoll [] [], .pmbusPoll [], .vtileReached 0,
    .thermalStep 0] : List Instr).all Instr.wf = true := by decide +kernel
/-- Well-formed commands are accepted. -/
theorem test_wf_accepts_8 : ([
    .thermalTrip 0 0, .throttleAssert, .throttleDeassert, .floorLatchTimeout, .pfailAssert, .pfailDeassert, .pfailClearTimer, .trayPresDeassert,
    .regulatorFault 0 0, .pmbusAlert false, .equipmentPoll 0, .equipmentResponse 0 0 0 0, .pollTimeout 0, .capTableInterval, .capTable,
    .powerReportInterval, .powerReport, .safety, .traySensors, .trayAlarm, .hubRead ⟨[], 0, 0, 0, 0⟩, .hubUnreadableTimeout, .leadHandoff,
    .lowFlowCapTimer, .lowFlowParkTimer, .lowFlowExitTimer, .pumpParkTimer, .orphanCapTimer, .trayStartInterval, .sensorSuspectTimer 0 0,
    .contextOpen op 0 [], .contextRetire op 0 [], .retireQuietEnd 0, .retireFillDone 0, .jobHoldExpiry 0, .protCommit op 0, .protDiscard op 0,
    .protOldRequestsDrained 0, .protFillDone 0, .rngHealthFail] : List Instr).all Instr.wf = true := by decide +kernel
/-- Well-formed commands are accepted. -/
theorem test_wf_accepts_9 : ([
    .keygen op 0 [], .import_ op 0 [], .activate op 0 [], .keyActivationTime 0, .unseal op 0 [], .authorityRecordWrite op [],
    .tenantImageKeyWrite op 0 [], .pkgAttestRequest op [], .ctxAttestRequest op 0 [], .getVersion 0, .getCapabilities 0, .negotiateAlgorithms 0,
    .getDigests 0, .getCertificate 0, .challenge 0, .getMeasurements 0, .spdmUnsupported 0, .openReq 0 goodFrame [], .prove goodFrame [],
    .proveTimeout 0, .sessionIdleExpiry 0, .close goodFrame, .sessionCloseWrite op 0, .operatorKeysWrite op [], .tenantSessionKeyWrite op 0 [],
    .agent goodFrame (msg 1 0 0 0 0 []), .agentGroup goodFrame (msg 1 0 0 0 0 []), .groupKey goodFrame [], .spdm goodFrame [], .mbxSend goodReq,
    .mbxRecv goodReq, .mbxClaim goodReq, .mbxRelease goodReq, .bellRing goodReq, .bellFetch goodReq, .bellEventRepeat 0, .mbxTtlExpiry 0 0,
    .mbxRingHeadWrite op 0 0, .mbxDisable op 0, .mbxEnable op 0] : List Instr).all Instr.wf = true := by decide +kernel
/-- Well-formed commands are accepted. -/
theorem test_wf_accepts_10 : ([
    .persistReset op 0, .persistStoreDone, .fwBegin op 1, .fwStageData op 1 [], .fwCommit op 1, .fwAbandon op 1, .fwActivateNow op 1,
    .fdSelftestDone false, .fwSvnFloorWrite op 1 0, .fwStartTimeout 1, .resetRelease ⟨0, true, true, true, true, true, true, true, true, []⟩,
    .resetAssert 0, .resetColdCmd op 0, .scWatchdogExpiry, .bringupStepDone ⟨true, true, [], [], [], [], [], [], false⟩, .bringupNext op, .bringupRun op,
    .bringupRetest op, .bringupAbort op, .bringupHoldTimeout, .noReferenceTimeout, .refclkLoss false, .refclkReturn false, .ptpSync 0 0, .ptpLockTimer,
    .ptpSyncTimeout, .domainFaultReset 0, .computeDieFault 0 1, .fdFault, .sparePolicyRequest (.drift 0), .fieldMapWrite, .eventTaken,
    .eventQueueFull ev0, .repeatWindowExpiry 0, .recorderFlWrite false, .recorderFlRetry false, .snapshotTake op [], .snapshotRead op,
    .recorderClear op 0, .clearWriteDone] : List Instr).all Instr.wf = true := by decide +kernel
/-- Well-formed commands are accepted. -/
theorem test_wf_accepts_11 : ([
    .flushDone, .bypass false, .idcode, .sample, .preload 0, .extest, .highz, .railsFallWithoutStopping, .dramDieFail 0 0, .niFail 0,
    .migrationGranuleCopied 0 0, .openResp goodFrame [], .proveResp goodFrame [], .mportLinkChange 0 false, .mkaStateChange false,
    .arpNdEcho 0 0 (zeros 16) false, .ptpAnnounce 0 false, .pfcPause 0 0 false] : List Instr).all Instr.wf = true := by decide +kernel

/-- Ill-formed commands, one for every check of every command, are refused. -/
theorem test_wf_refuses_1 : ([
    .write badReq, .read badReq, .nextObj badReq, .keepalive badReq, .quiesceGraceEnd (.te 72), .quiesceDrained (.te 72), .quiesceFailAbort (.te 72),
    .add 1920 ⟨0, 0, 0, 0⟩, .add 0 ⟨32, 0, 0, 0⟩, .sub 1920 ⟨0, 0, 0, 0⟩, .sub 0 ⟨32, 0, 0, 0⟩, .and_ 1920 ⟨0, 0, 0, 0⟩, .and_ 0 ⟨32, 0, 0, 0⟩,
    .or_ 1920 ⟨0, 0, 0, 0⟩, .or_ 0 ⟨32, 0, 0, 0⟩, .xor_ 1920 ⟨0, 0, 0, 0⟩, .xor_ 0 ⟨32, 0, 0, 0⟩, .shl 1920 ⟨0, 0, 0, 0⟩, .shl 0 ⟨32, 0, 0, 0⟩,
    .shr 1920 ⟨0, 0, 0, 0⟩, .shr 0 ⟨32, 0, 0, 0⟩, .mul 1920 ⟨0, 0, 0, 0⟩, .mul 0 ⟨32, 0, 0, 0⟩, .slt 1920 ⟨0, 0, 0, 0⟩, .slt 0 ⟨32, 0, 0, 0⟩,
    .addi 1920 ⟨0, 0, 0⟩, .addi 0 ⟨0, 32, 0⟩, .ori 1920 ⟨0, 0, 0⟩, .ori 0 ⟨0, 32, 0⟩, .lui 1920 ⟨0, 0, 0⟩, .lui 0 ⟨0, 32, 0⟩, .ldx 1920 ⟨0, 0, 0⟩,
    .ldx 0 ⟨0, 32, 0⟩, .stx 1920 ⟨0, 0, 0⟩, .stx 0 ⟨0, 32, 0⟩, .beq 1920 ⟨0, 0, 0⟩, .beq 0 ⟨0, 0, 65536⟩, .bne 1920 ⟨0, 0, 0⟩, .bne 0 ⟨0, 0, 65536⟩,
    .blt 1920 ⟨0, 0, 0⟩] : List Instr).all (fun c => !c.wf) = true := by decide +kernel
/-- Ill-formed commands, one for every check of every command, are refused. -/
theorem test_wf_refuses_2 : ([
    .blt 0 ⟨0, 0, 65536⟩, .bge 1920 ⟨0, 0, 0⟩, .bge 0 ⟨0, 0, 65536⟩, .jal 1920 ⟨0, 0⟩, .jal 0 ⟨0, 2097152⟩, .jr 1920 ⟨0, 0, 0, 0⟩, .jr 0 ⟨32, 0, 0, 0⟩,
    .dld 1920 ⟨0, 0, 0, 0⟩, .dld 0 ⟨16, 0, 0, 0⟩, .dst 1920 ⟨0, 0, 0, 0⟩, .dst 0 ⟨16, 0, 0, 0⟩, .dsetw 1920 ⟨0, 0, 0, 0⟩, .dsetw 0 ⟨16, 0, 0, 0⟩,
    .dadv 1920 ⟨0, 0, 0, 0⟩, .dadv 0 ⟨16, 0, 0, 0⟩, .mma 1920 ⟨0, 0, 0, 0, 0, 0, 0⟩, .mma 0 ⟨0, 0, 16, 0, 0, 0, 0⟩, .mmaDone 1920 [],
    .shadowCheckDone 1920 0, .driftHourRollover 1920, .drain 1920 ⟨0, 0, 0, 0, 0, 0, 0⟩, .drain 0 ⟨0, 0, 16, 0, 0, 0, 0⟩, .drainDone 1920,
    .qcvt 1920 ⟨0, 0, 0, 0, 0, 0, 0⟩, .qcvt 0 ⟨0, 0, 16, 0, 0, 0, 0⟩, .qcvtDone 1920, .vld 1920 ⟨0, 0, 0⟩, .vld 0 ⟨0, 32, 0⟩, .vst 1920 ⟨0, 0, 0⟩,
    .vst 0 ⟨0, 32, 0⟩, .fadd 1920 ⟨0, 0, 0, 0⟩, .fadd 0 ⟨0, 0, 0, 32⟩, .fsub 1920 ⟨0, 0, 0, 0⟩, .fsub 0 ⟨0, 0, 0, 32⟩, .fmul 1920 ⟨0, 0, 0, 0⟩,
    .fmul 0 ⟨0, 0, 0, 32⟩, .ffma 1920 ⟨0, 0, 0, 0⟩, .ffma 0 ⟨0, 0, 0, 32⟩, .fmin 1920 ⟨0, 0, 0, 0⟩,
    .fmin 0 ⟨0, 0, 0, 32⟩] : List Instr).all (fun c => !c.wf) = true := by decide +kernel
/-- Ill-formed commands, one for every check of every command, are refused. -/
theorem test_wf_refuses_3 : ([
    .fmax 1920 ⟨0, 0, 0, 0⟩, .fmax 0 ⟨0, 0, 0, 32⟩, .fcmplt 1920 ⟨0, 0, 0, 0⟩, .fcmplt 0 ⟨0, 0, 0, 32⟩, .sel 1920 ⟨0, 0, 0, 0⟩, .sel 0 ⟨0, 0, 0, 32⟩,
    .exp 1920 ⟨0, 0, 0, 0⟩, .exp 0 ⟨0, 0, 0, 32⟩, .log 1920 ⟨0, 0, 0, 0⟩, .log 0 ⟨0, 0, 0, 32⟩, .rsqrt 1920 ⟨0, 0, 0, 0⟩, .rsqrt 0 ⟨0, 0, 0, 32⟩,
    .tanh 1920 ⟨0, 0, 0, 0⟩, .tanh 0 ⟨0, 0, 0, 32⟩, .sigm 1920 ⟨0, 0, 0, 0⟩, .sigm 0 ⟨0, 0, 0, 32⟩, .div 1920 ⟨0, 0, 0, 0⟩, .div 0 ⟨0, 0, 0, 32⟩,
    .sqrt 1920 ⟨0, 0, 0, 0⟩, .sqrt 0 ⟨0, 0, 0, 32⟩, .rsum 1920 ⟨0, 0, 0, 0⟩, .rsum 0 ⟨0, 0, 0, 32⟩, .rmax 1920 ⟨0, 0, 0, 0⟩, .rmax 0 ⟨0, 0, 0, 32⟩,
    .rmin 1920 ⟨0, 0, 0, 0⟩, .rmin 0 ⟨0, 0, 0, 32⟩, .iadd 1920 ⟨0, 0, 0, 0⟩, .iadd 0 ⟨0, 0, 0, 32⟩, .isub 1920 ⟨0, 0, 0, 0⟩, .isub 0 ⟨0, 0, 0, 32⟩,
    .iand 1920 ⟨0, 0, 0, 0⟩, .iand 0 ⟨0, 0, 0, 32⟩, .ior 1920 ⟨0, 0, 0, 0⟩, .ior 0 ⟨0, 0, 0, 32⟩, .ixor 1920 ⟨0, 0, 0, 0⟩, .ixor 0 ⟨0, 0, 0, 32⟩,
    .ishl 1920 ⟨0, 0, 0, 0⟩, .ishl 0 ⟨0, 0, 0, 32⟩, .ishr 1920 ⟨0, 0, 0, 0⟩,
    .ishr 0 ⟨0, 0, 0, 32⟩] : List Instr).all (fun c => !c.wf) = true := by decide +kernel
/-- Ill-formed commands, one for every check of every command, are refused. -/
theorem test_wf_refuses_4 : ([
    .cvt 1920 ⟨0, 0, 0, 0⟩, .cvt 0 ⟨0, 0, 0, 32⟩, .badd 1920 ⟨0, 0, 0, 0⟩, .badd 0 ⟨0, 0, 0, 32⟩, .bsub 1920 ⟨0, 0, 0, 0⟩, .bsub 0 ⟨0, 0, 0, 32⟩,
    .bmul 1920 ⟨0, 0, 0, 0⟩, .bmul 0 ⟨0, 0, 0, 32⟩, .bfma 1920 ⟨0, 0, 0, 0⟩, .bfma 0 ⟨0, 0, 0, 32⟩, .xfer 1920 ⟨0, 0, 0, 0, 0⟩, .xfer 0 ⟨0, 0, 0, 8, 0⟩,
    .xferComplete 1920 0, .postTask 1920 ⟨0, 0, 0, 0, 0⟩, .postTask 0 ⟨0, 0, 0, 8, 0⟩, .postRemoteTask 1920 ⟨0, 0, 0, 0, 0⟩,
    .postRemoteTask 0 ⟨0, 0, 0, 8, 0⟩, .postTeDirect 1920 ⟨0, 0, 0, 0, 0⟩, .postTeDirect 0 ⟨0, 0, 0, 8, 0⟩, .postNiDirect 1920 ⟨0, 0, 0, 0, 0⟩,
    .postNiDirect 0 ⟨0, 0, 0, 8, 0⟩, .postMailbox 1920 ⟨0, 0, 0, 0, 0⟩, .postMailbox 0 ⟨0, 0, 0, 8, 0⟩, .postBell 1920 ⟨0, 0, 0, 0, 0⟩,
    .postBell 0 ⟨0, 0, 0, 8, 0⟩, .tset 1920 ⟨0, 0, 0, 0⟩, .tset 0 ⟨0, 0, 256, 0⟩, .tdec 1920 ⟨0, 0, 0, 0⟩, .tdec 0 ⟨0, 0, 256, 0⟩,
    .twait 1920 ⟨0, 0, 0, 0⟩, .twait 0 ⟨0, 0, 256, 0⟩, .trd 1920 ⟨0, 0, 0, 0⟩, .trd 0 ⟨0, 0, 256, 0⟩, .tfree 1920 ⟨0, 0, 0, 0⟩, .tfree 0 ⟨0, 0, 256, 0⟩,
    .fence 1920 ⟨0, 0, 0, 0⟩, .fence 0 ⟨0, 0, 256, 0⟩, .end_ 1920 ⟨0, 0, 0, 0⟩, .end_ 0 ⟨0, 0, 256, 0⟩,
    .illegalInstruction 1920] : List Instr).all (fun c => !c.wf) = true := by decide +kernel
/-- Ill-formed commands, one for every check of every command, are refused. -/
theorem test_wf_refuses_5 : ([
    .taskSelect 1920, .postQueueAdmit (.te 72), .postWaitExpiry (.te 72) 0, .taskBudgetExpiry 1920, .sequencerWatchdogExpiry 1920, .stealPoll 1920,
    .stealRequest 1920 0, .stealRequest 0 1920, .stealReply 1920, .tileDisable ⟨6, 0, 7, 1⟩ 0, .tileDisable op 1920, .tileEnable ⟨6, 0, 7, 1⟩ 0,
    .tileEnable op 1920, .tileSwap ⟨6, 0, 7, 1⟩ 0, .tileSwap op 1920, .tileSwapNow ⟨6, 0, 7, 1⟩ 0, .tileSwapNow op 1920, .substitutionHold 1920,
    .substitutionCopyDone 1920, .tileParityFail 1920, .freezeReleaseKeep ⟨6, 0, 7, 1⟩ 0, .freezeReleaseKeep op 1920, .freezeReleasePurge ⟨6, 0, 7, 1⟩ 0,
    .freezeReleasePurge op 1920, .sramPatrol 1920 0 0 [], .sramPatrol 0 16 0 [], .sramPatrol 0 0 1024 [], .tileClockChange 4 0,
    .jtiLoad ⟨6, 0, 7, 1⟩ 0 0, .jtiLoad op 64 0, .jtiPlacementDone 64, .jtiLoadDone 64, .memRead (2 ^ 44) (.cells []), .memRead 0 (.cells [⟨136, 1⟩]),
    .memWrite (2 ^ 44) [], .memAtomic (2 ^ 44) 0 false 0 0, .memAtomic 0 16 false 0 0, .patrolScrub (2 ^ 44) (.cells []) false,
    .patrolScrub 0 (.cells [⟨136, 1⟩]) false, .dramRefresh 32 0 0 false] : List Instr).all (fun c => !c.wf) = true := by decide +kernel
/-- Ill-formed commands, one for every check of every command, are refused. -/
theorem test_wf_refuses_6 : ([
    .dramRefresh 0 17 0 false, .dramRefresh 0 0 64 false, .dramTempReport 32 0 0, .dramTempReport 0 17 0, .tableWalkDone 64 0 false,
    .tableWalkDone 0 (2 ^ 48) false, .pageMap ⟨6, 0, 7, 1⟩ 0 [], .pageMap op 64 [], .pageUnmap ⟨6, 0, 7, 1⟩ 0 [], .pageUnmap op 64 [],
    .unmapFillDone (2 ^ 44), .dramEvacuate ⟨6, 0, 7, 1⟩ 0 0, .dramEvacuate op 32 0, .dramEvacuate op 0 17, .evacGroupCopied 32 0, .evacGroupCopied 0 2,
    .oldDieUnresponsive 32, .spareDieUnresponsive 32, .teSqTailWrite ⟨6, 0, 7, 1⟩ 0 0, .teSqTailWrite op 72 0, .teCqHeadWrite ⟨6, 0, 7, 1⟩ 0 0,
    .teCqHeadWrite op 72 0, .teRingFetch 72, .teOwnerWrite ⟨6, 0, 7, 1⟩ 0 0, .teOwnerWrite op 72 0, .teCopy 72, .teFill 72, .teScrub 72, .teGather 72,
    .teScatter 72, .teMigrate 72, .hostRead 72, .hostWrite 72, .hostWriteImm 72, .teDescriptorComplete 72 0, .migrateWaitExpiry 72 0,
    .migrationCopyDone 72 0, .teDisable ⟨6, 0, 7, 1⟩ 0, .teDisable op 72,
    .teEnable ⟨6, 0, 7, 1⟩ 0] : List Instr).all (fun c => !c.wf) = true := by decide +kernel
/-- Ill-formed commands, one for every check of every command, are refused. -/
theorem test_wf_refuses_7 : ([
    .teEnable op 72, .teRelease ⟨6, 0, 7, 1⟩ 0, .teRelease op 72, .tePurge ⟨6, 0, 7, 1⟩ 0, .tePurge op 72, .teChannelFail 72, .rdmaRequestRefused 2 0,
    .rdmaResponse 8 0 ⟨0, 0, 0, []⟩, .rdmaResponse 0 16 ⟨0, 0, 0, []⟩, .rdmaAckTimeout 8 0, .rdmaAckTimeout 0 16, .rdmaEcnMark 8 0, .rdmaEcnMark 0 16,
    .htePortDownTimeout 8 0, .htePortDownTimeout 0 16, .hteQpWrite ⟨6, 0, 7, 1⟩ 0 0 [], .hteQpWrite op 8 0 [], .hteQpWrite op 0 16 [],
    .d2dUnitReceive 53 0 0 0 (zeros 256), .d2dUnitReceive 0 2 0 0 (zeros 256), .d2dUnitReceive 0 0 (2 ^ 64) 0 (zeros 256), .d2dUnitReceive 0 0 0 0 [],
    .d2dLaneFail 53 0, .d2dLaneFail 0 4, .codewordReceive 18 (List.replicate 18 []), .codewordReceive 0 [],
    .codewordReceive 0 ([4] :: List.replicate 17 []), .codewordReceive 0 (List.replicate 34 4 :: List.replicate 17 []), .linkPacketReceive 18,
    .ackCredit 18, .ackDeadline 18, .replayReq 18, .replayTimeout 18, .laneReq 18 0, .laneReq 0 18, .laneMap 18, .laneCopyAligned 18 0 0,
    .laneCopyAligned 0 0 18, .laneSwitch 18 0 0, .laneSwitch 0 2 0] : List Instr).all (fun c => !c.wf) = true := by decide +kernel
/-- Ill-formed commands, one for every check of every command, are refused. -/
theorem test_wf_refuses_8 : ([
    .laneAbruptLoss 18 [], .linkLoss 18 1, .linkLoss 0 3, .trainingSignalDetected 18 0, .equalisationDone 18, .trainingFramesChecked 18 0 0 0 [] 0,
    .trainingFramesChecked 0 0 0 0 [19] 0, .berMeasureDone 18 [] [], .retrainIntervalExpiry 18, .marginMeasure 18 [] [] 0,
    .marginMeasure 0 [⟨18, 0, 0⟩] [] 0, .laserFail 4 0, .laserFail 0 10, .portSerdesFail 18, .laneSerdesFail 18 0 0, .laneSerdesFail 0 2 0,
    .laneSerdesFail 0 0 18, .portDisable ⟨6, 0, 7, 1⟩ 0, .portDisable op 18, .portEnable ⟨6, 0, 7, 1⟩ 0, .portEnable op 18, .portRetrain ⟨6, 0, 7, 1⟩ 0,
    .portRetrain op 18, .laneDisable ⟨6, 0, 7, 1⟩ 0 0, .laneDisable op 18 0, .laneDisable op 0 18, .laneEnable ⟨6, 0, 7, 1⟩ 0 0, .laneEnable op 18 0,
    .laneEnable op 0 18, .routerPacketIn 23 0 none, .routerPacketIn 0 8 none, .routerInject 23 none, .routerPacketSend 23, .routerBankFail 23 0,
    .routerBankFail 0 8, .wornBankEmptied 23 0, .wornBankEmptied 0 8, .routeBankLoading ⟨6, 0, 7, 1⟩ 0, .routeBankLoading op 2,
    .routeBankValid ⟨6, 0, 7, 1⟩ 0] : List Instr).all (fun c => !c.wf) = true := by decide +kernel
/-- Ill-formed commands, one for every check of every command, are refused. -/
theorem test_wf_refuses_9 : ([
    .routeBankValid op 2, .routeLoad ⟨6, 0, 7, 1⟩ [], .injectParityWrite ⟨6, 0, 7, 1⟩ 0, .rtAdmitWrite ⟨6, 0, 7, 1⟩ 0 0, .rtAdmitWrite op 18 0,
    .niqSqTailWrite ⟨6, 0, 7, 1⟩ 0 0 0, .niqSqTailWrite op 4 0 0, .niqSqTailWrite op 0 64 0, .niqCqHeadWrite ⟨6, 0, 7, 1⟩ 0 0 0,
    .niqCqHeadWrite op 4 0 0, .niqCqHeadWrite op 0 64 0, .niRingFetch 4 0, .niRingFetch 0 64, .put 4 0, .put 0 64, .get 4 0, .get 0 64, .atomic 4 0,
    .atomic 0 64, .notify 4 0, .notify 0 64, .task 4 0, .task 0 64, .copyTo 4 0, .copyTo 0 64, .dispatch 4 0, .dispatch 0 64, .inboxArm 4 0,
    .inboxArm 0 64, .clOpen 4 0, .clOpen 0 64, .clRun 4 0, .clRun 0 64, .clInvocationStart 64 0, .clClose 4 0, .clClose 0 64, .niCommandComplete 4 0 0,
    .niCommandComplete 0 64 0, .rxPut 4, .rxGet 4] : List Instr).all (fun c => !c.wf) = true := by decide +kernel
/-- Ill-formed commands, one for every check of every command, are refused. -/
theorem test_wf_refuses_10 : ([
    .rxAtomic 4, .rxNotify 4, .rxTask 4, .rxCopyTo 4, .rxFwd 4, .rxToken 4, .rxDone 4, .rxAck 4, .rxData 4, .rxContrib 4, .rxResult 4,
    .niOpTimeout 4 0 0 0, .niOpTimeout 0 64 0 0, .niOpTimeout 0 0 4 0, .niOpTimeout 0 0 0 (2 ^ 48), .suspectTimeout 64, .keyDrainExpiry 64 0,
    .keyDrainExpiry 0 4, .clTimeout 64 0, .rankLoad ⟨6, 0, 7, 1⟩ 0 [], .rankLoad op 64 [], .dispatchLoad ⟨6, 0, 7, 1⟩ 0 [], .dispatchLoad op 64 [],
    .niJobWrite ⟨6, 0, 7, 1⟩ 0 0, .niJobWrite op 64 0, .keyTxSlotWrite ⟨6, 0, 7, 1⟩ 0 0, .keyTxSlotWrite op 64 0, .niDisable ⟨6, 0, 7, 1⟩ 0,
    .niDisable op 4, .niEnable ⟨6, 0, 7, 1⟩ 0, .niEnable op 4, .niqRelease ⟨6, 0, 7, 1⟩ 0 0, .niqRelease op 4 0, .niqRelease op 0 64,
    .niqPurge ⟨6, 0, 7, 1⟩ 0 0, .niqPurge op 4 0, .niqPurge op 0 64, .sliceCreate ⟨6, 0, 7, 1⟩ [], .sliceRepair ⟨6, 0, 7, 1⟩ [],
    .sliceRetire ⟨6, 0, 7, 1⟩ []] : List Instr).all (fun c => !c.wf) = true := by decide +kernel
/-- Ill-formed commands, one for every check of every command, are refused. -/
theorem test_wf_refuses_11 : ([
    .railMapLoad ⟨6, 0, 7, 1⟩ [], .railMapCommit ⟨6, 0, 7, 1⟩ 0, .parkRelease ⟨6, 0, 7, 1⟩ 0, .hostPowerRequest ⟨6, 0, 7, 1⟩ 0, .vtileReached 4,
    .thermalStep 4, .thermalTrip 42 0, .regulatorFault 16 0, .equipmentPoll 16, .equipmentResponse 16 0 0 0, .pollTimeout 16,
    .contextOpen ⟨6, 0, 7, 1⟩ 0 [], .contextOpen op 64 [], .contextRetire ⟨6, 0, 7, 1⟩ 0 [], .contextRetire op 64 [], .retireQuietEnd 64,
    .retireFillDone 64, .protCommit ⟨6, 0, 7, 1⟩ 0, .protCommit op 64, .protDiscard ⟨6, 0, 7, 1⟩ 0, .protDiscard op 64, .protOldRequestsDrained 64,
    .protFillDone 64, .keygen ⟨6, 0, 7, 1⟩ 0 [], .keygen op 64 [], .import_ ⟨6, 0, 7, 1⟩ 0 [], .import_ op 64 [], .activate ⟨6, 0, 7, 1⟩ 0 [],
    .activate op 64 [], .keyActivationTime 64, .unseal ⟨6, 0, 7, 1⟩ 0 [], .unseal op 64 [], .authorityRecordWrite ⟨6, 0, 7, 1⟩ [],
    .tenantImageKeyWrite ⟨6, 0, 7, 1⟩ 0 [], .tenantImageKeyWrite op 8 [], .pkgAttestRequest ⟨6, 0, 7, 1⟩ [], .ctxAttestRequest ⟨6, 0, 7, 1⟩ 0 [],
    .ctxAttestRequest op 64 [], .getVersion (2 ^ 32), .getCapabilities (2 ^ 32)] : List Instr).all (fun c => !c.wf) = true := by decide +kernel
/-- Ill-formed commands, one for every check of every command, are refused. -/
theorem test_wf_refuses_12 : ([
    .negotiateAlgorithms (2 ^ 32), .getDigests (2 ^ 32), .getCertificate (2 ^ 32), .challenge (2 ^ 32), .getMeasurements (2 ^ 32),
    .spdmUnsupported (2 ^ 32), .openReq 3 goodFrame [], .openReq 0 badFrame [], .prove badFrame [], .proveTimeout (2 ^ 32), .sessionIdleExpiry (2 ^ 32),
    .close badFrame, .sessionCloseWrite ⟨6, 0, 7, 1⟩ 0, .sessionCloseWrite op (2 ^ 32), .operatorKeysWrite ⟨6, 0, 7, 1⟩ [],
    .tenantSessionKeyWrite ⟨6, 0, 7, 1⟩ 0 [], .tenantSessionKeyWrite op 64 [], .agent badFrame (msg 1 0 0 0 0 []), .agent goodFrame (msg 256 0 0 0 0 []),
    .agentGroup badFrame (msg 1 0 0 0 0 []), .agentGroup goodFrame (msg 256 0 0 0 0 []), .groupKey badFrame [], .spdm badFrame [], .mbxSend badReq,
    .mbxRecv badReq, .mbxClaim badReq, .mbxRelease badReq, .bellRing badReq, .bellFetch badReq, .bellEventRepeat 16, .mbxTtlExpiry 16 0,
    .mbxRingHeadWrite ⟨6, 0, 7, 1⟩ 0 0, .mbxRingHeadWrite op 16 0, .mbxDisable ⟨6, 0, 7, 1⟩ 0, .mbxDisable op 16, .mbxEnable ⟨6, 0, 7, 1⟩ 0,
    .mbxEnable op 16, .persistReset ⟨6, 0, 7, 1⟩ 0, .fwBegin ⟨6, 0, 7, 1⟩ 1, .fwBegin op 5] : List Instr).all (fun c => !c.wf) = true := by decide +kernel
/-- Ill-formed commands, one for every check of every command, are refused. -/
theorem test_wf_refuses_13 : ([
    .fwBegin op 0, .fwStageData ⟨6, 0, 7, 1⟩ 1 [], .fwStageData op 5 [], .fwStageData op 0 [], .fwCommit ⟨6, 0, 7, 1⟩ 1, .fwCommit op 5, .fwCommit op 0,
    .fwAbandon ⟨6, 0, 7, 1⟩ 1, .fwAbandon op 5, .fwAbandon op 0, .fwActivateNow ⟨6, 0, 7, 1⟩ 1, .fwActivateNow op 5, .fwActivateNow op 0,
    .fwSvnFloorWrite ⟨6, 0, 7, 1⟩ 1 0, .fwSvnFloorWrite op 5 0, .fwSvnFloorWrite op 0 0, .fwStartTimeout 5, .fwStartTimeout 0,
    .resetColdCmd ⟨6, 0, 7, 1⟩ 0, .bringupNext ⟨6, 0, 7, 1⟩, .bringupRun ⟨6, 0, 7, 1⟩, .bringupRetest ⟨6, 0, 7, 1⟩, .bringupAbort ⟨6, 0, 7, 1⟩,
    .domainFaultReset 6, .computeDieFault 4 1, .computeDieFault 0 4, .computeDieFault 0 0, .repeatWindowExpiry (2 ^ 64), .snapshotTake ⟨6, 0, 7, 1⟩ [],
    .snapshotRead ⟨6, 0, 7, 1⟩, .recorderClear ⟨6, 0, 7, 1⟩ 0, .dramDieFail 32 0, .dramDieFail 0 17, .niFail 4, .migrationGranuleCopied 72 0,
    .openResp badFrame [], .proveResp badFrame [], .mportLinkChange 3 false, .arpNdEcho 3 0 (zeros 16) false,
    .arpNdEcho 0 256 (zeros 16) false] : List Instr).all (fun c => !c.wf) = true := by decide +kernel
/-- Ill-formed commands, one for every check of every command, are refused. -/
theorem test_wf_refuses_14 : ([
    .arpNdEcho 0 0 [] false, .pfcPause 2 0 false, .pfcPause 0 8 false] : List Instr).all (fun c => !c.wf) = true := by decide +kernel

/-- Every field of every instruction format at its first value that does not fit (R130). -/
theorem test_wf_formats :
    ([FmtR.wf ⟨32, 0, 0, 0⟩, FmtR.wf ⟨0, 32, 0, 0⟩, FmtR.wf ⟨0, 0, 32, 0⟩, FmtR.wf ⟨0, 0, 0, 2048⟩, FmtI.wf ⟨32, 0, 0⟩, FmtI.wf ⟨0, 32, 0⟩, FmtI.wf ⟨0, 0, 65536⟩,
      FmtB.wf ⟨32, 0, 0⟩, FmtB.wf ⟨0, 32, 0⟩, FmtB.wf ⟨0, 0, 65536⟩, FmtJ.wf ⟨32, 0⟩, FmtJ.wf ⟨0, 2097152⟩, FmtD.wf ⟨16, 0, 0, 0⟩, FmtD.wf ⟨0, 2, 0, 0⟩,
      FmtD.wf ⟨0, 0, 32, 0⟩, FmtD.wf ⟨0, 0, 0, 65536⟩] ++
     [FmtT.wf ⟨16, 0, 0, 0, 0, 0, 0⟩, FmtT.wf ⟨0, 16, 0, 0, 0, 0, 0⟩, FmtT.wf ⟨0, 0, 16, 0, 0, 0, 0⟩, FmtT.wf ⟨0, 0, 0, 4, 0, 0, 0⟩, FmtT.wf ⟨0, 0, 0, 0, 4, 0, 0⟩,
      FmtT.wf ⟨0, 0, 0, 0, 0, 2, 0⟩, FmtT.wf ⟨0, 0, 0, 0, 0, 0, 512⟩, FmtV.wf ⟨32, 0, 0, 0⟩, FmtV.wf ⟨0, 32, 0, 0⟩, FmtV.wf ⟨0, 0, 32, 0⟩, FmtV.wf ⟨0, 0, 0, 32⟩,
      FmtX.wf ⟨32, 0, 0, 0, 0⟩, FmtX.wf ⟨0, 32, 0, 0, 0⟩, FmtX.wf ⟨0, 0, 32, 0, 0⟩, FmtX.wf ⟨0, 0, 0, 8, 0⟩, FmtX.wf ⟨0, 0, 0, 0, 256⟩] ++
     [FmtS.wf ⟨32, 0, 0, 0⟩, FmtS.wf ⟨0, 32, 0, 0⟩, FmtS.wf ⟨0, 0, 256, 0⟩, FmtS.wf ⟨0, 0, 0, 256⟩]).all (fun b => !b) = true := by decide +kernel

/-- Every field of a request, a packet header, a control flit, a writer and a unit at its first value that does not fit (R17, R249, R433, R440). -/
theorem test_wf_parts :
    ([NxReq.wf { goodReq with frame := badFrame }, NxReq.wf { goodReq with reqId := 2 ^ 32 }, NxReq.wf { goodReq with op := 256 }, NxReq.wf { goodReq with area := 256 },
      NxReq.wf { goodReq with entry := 65536 }, NxReq.wf { goodReq with sub := 256 }, NxReq.wf { goodReq with rsv := 256 }, NxReq.wf { goodReq with length := 65536 },
      NxReq.wf { goodReq with offset := 2 ^ 32 }, NxFrame.wf { goodFrame with addr := [] }, NxFrame.wf { goodFrame with sport := 65536 }, NxFrame.wf { goodFrame with dport := 65536 },
      NxFrame.wf { goodFrame with magic := 65536 }, NxFrame.wf { goodFrame with version := 256 }, NxFrame.wf { goodFrame with typ := 256 },
      NxFrame.wf { goodFrame with session := 2 ^ 32 }, NxFrame.wf { goodFrame with seq := 2 ^ 64 }, NxFrame.wf { goodFrame with len := 65536 },
      NxFrame.wf { goodFrame with rsv := 2 ^ 48 },
      Packet.wf { goodPkt with cls := 8 }, Packet.wf { goodPkt with level := 8 }, Packet.wf { goodPkt with parity := 2 }, Packet.wf { goodPkt with dst := 2 ^ 24 },
      Packet.wf { goodPkt with src := 2 ^ 24 }, Packet.wf { goodPkt with ni := zeros 19 }, Packet.wf { goodPkt with tag := zeros 15 }] ++
     [CtlFlit.wf (flit 256), Who.wf ⟨6, 0, 7, 1⟩, Who.wf ⟨0, 64, 7, 1⟩, UnitRef.wf (.tile 1920), UnitRef.wf (.te 72), UnitRef.wf (.ni 4), UnitRef.wf (.port 18),
      UnitRef.wf (.mbx 16), PostAt.wf (.pool 1920), PostAt.wf (.te 72), PostAt.wf (.niq 4 0), PostAt.wf (.niq 0 64)]).all (fun b => !b) = true := by
  decide +kernel

/-- No word spells a command of the package. -/
theorem test_no_word : decodeTableWord 32 0x29000002 = none := rfl

/-! ## Instruction words, bit by bit (R130, R131) -/

/-- ADD x13, x4, x6 in the R format. -/
theorem test_word_add : eR 0x01 ⟨13, 4, 6, 0⟩ = 0b000001_01101_00100_00110_00000000000 ∧ wR 0b000001_01101_00100_00110_00000000000 = ⟨13, 4, 6, 0⟩ := by decide +kernel
/-- ADDI x8, x0, 2 in the I format. -/
theorem test_word_addi : eI 0x0A ⟨8, 0, 2⟩ = 0b001010_01000_00000_0000000000000010 ∧ wI 0b001010_01000_00000_0000000000000010 = ⟨8, 0, 2⟩ := by decide +kernel
/-- BNE x9, x0, +8 in the B format. -/
theorem test_word_bne : eB 0x11 ⟨9, 0, 8⟩ = 0b010001_01001_00000_0000000000001000 ∧ wB 0b010001_01001_00000_0000000000001000 = ⟨9, 0, 8⟩ := by decide +kernel
/-- JAL x1, +3 in the J format. -/
theorem test_word_jal : eJ 0x14 ⟨1, 3⟩ = 0b010100_00001_000000000000000000011 ∧ wJ 0b010100_00001_000000000000000000011 = ⟨1, 3⟩ := by decide +kernel
/-- DLD d2, [x1+128] in the D format. -/
theorem test_word_dld : eD 0x18 ⟨2, 0, 1, 128⟩ = 0b011000_0010_0_00001_0000000010000000 ∧ wD 0b011000_0010_0_00001_0000000010000000 = ⟨2, 0, 1, 128⟩ := by decide +kernel
/-- MMA d0, d1, SHARE_B, CLEAR in the T format. -/
theorem test_word_mma : eT 0x20 ⟨0, 1, 0, 1, 0, 0, 0⟩ = 0b100000_0000_0001_0000_01_00_0_000000000 ∧
    wT 0b100000_0000_0001_0000_01_00_0_000000000 = ⟨0, 1, 0, 1, 0, 0, 0⟩ := by decide +kernel
/-- FFMA v1, v2, v3, v4 in the V format: function 0x03. -/
theorem test_word_ffma : eV 0x2A 0x03 ⟨1, 2, 3, 4⟩ = 0b101010_00001_00010_00011_00100_000011 ∧ wV 0b101010_00001_00010_00011_00100_000011 = ⟨1, 2, 3, 4⟩ ∧
    wFunc 0b101010_00001_00010_00011_00100_000011 = 3 := by decide +kernel
/-- XFER x4, x2, x6, t9 in the X format. -/
theorem test_word_xfer : eX 0x30 ⟨4, 2, 6, 0, 9⟩ = 0b110000_00100_00010_00110_000_00001001 ∧ wX 0b110000_00100_00010_00110_000_00001001 = ⟨4, 2, 6, 0, 9⟩ := by decide +kernel
/-- TWAIT x9, t9 in the S format. -/
theorem test_word_twait : eS 0x36 ⟨9, 0, 9, 0⟩ = 0b110110_01001_00000_00001001_00000000 ∧ wS 0b110110_01001_00000_00001001_00000000 = ⟨9, 0, 9, 0⟩ := by decide +kernel

/-- The words of the example program of the chapter on tile programs. -/
theorem test_example_program :
    [eI 0x0A ⟨8, 0, 2⟩, eS 0x34 ⟨8, 0, 9, 0⟩, eI 0x0C ⟨6, 0, 2⟩, eI 0x0A ⟨7, 0, 8192⟩, eR 0x01 ⟨13, 4, 6, 0⟩, eX 0x30 ⟨4, 2, 6, 0, 9⟩, eX 0x30 ⟨13, 3, 7, 0, 9⟩,
      eD 0x18 ⟨0, 0, 1, 0⟩, eD 0x18 ⟨1, 0, 1, 64⟩, eD 0x18 ⟨2, 0, 1, 128⟩, eI 0x0A ⟨10, 0, 8⟩, eS 0x36 ⟨9, 0, 9, 0⟩, eB 0x11 ⟨9, 0, 8⟩, eT 0x20 ⟨0, 1, 0, 1, 0, 0, 0⟩,
      eT 0x21 ⟨0, 0, 2, 0, 0, 0, 0⟩, eD 0x1B ⟨1, 0, 11, 1⟩, eD 0x1B ⟨2, 0, 11, 0⟩, eI 0x0A ⟨10, 10, 0xFFFF⟩, eB 0x11 ⟨10, 0, 0xFFFB⟩, eS 0x3D ⟨0, 0, 0, 0⟩, eS 0x3D ⟨9, 0, 0, 0⟩] =
    [0x29000002, 0xD1000900, 0x30C00002, 0x28E02000, 0x05A43000, 0xC0823009, 0xC1A33809, 0x60010000, 0x60410040, 0x60810080, 0x29400008, 0xD9200900, 0x45200008, 0x80041000,
      0x84008000, 0x6C4B0001, 0x6C8B0000, 0x294AFFFF, 0x4540FFFB, 0xF4000000, 0xF5200000] := by decide +kernel

/-! ## Tile instructions (R131) -/

/-- ADD wraps at 64 bits. -/
theorem test_add_wraps : ((nxt (.add 0 ⟨3, 1, 2, 0⟩) (code 0x04611000 fun t => (t.setX 1 0xFFFFFFFFFFFFFFFF).setX 2 1)).tile 0).xr 3 = 0 := by decide +kernel
/-- SUB takes rb from ra. -/
theorem test_sub_order : ((nxt (.sub 0 ⟨3, 1, 2, 0⟩) (code 0x08611000 fun t => (t.setX 1 3).setX 2 5)).tile 0).xr 3 = 0xFFFFFFFFFFFFFFFE := by decide +kernel
/-- MUL keeps the low 64 bits. -/
theorem test_mul_low : ((nxt (.mul 0 ⟨3, 1, 2, 0⟩) (code 0x20611000 fun t => (t.setX 1 0x100000001).setX 2 0x100000001)).tile 0).xr 3 = 0x200000001 := by decide +kernel
/-- SLT compares signed. -/
theorem test_slt_signed : ((nxt (.slt 0 ⟨3, 1, 2, 0⟩) (code 0x24611000 fun t => (t.setX 1 0xFFFFFFFFFFFFFFFF).setX 2 1)).tile 0).xr 3 = 1 := by decide +kernel
/-- ADDI sign-extends its immediate; ORI zero-extends it; LUI sign-extends the word. -/
theorem test_addi_sign : ((nxt (.addi 0 ⟨3, 1, 0xFFFF⟩) (code 0x2861FFFF fun t => t.setX 1 8)).tile 0).xr 3 = 7 := by decide +kernel
theorem test_ori_zero : ((nxt (.ori 0 ⟨3, 1, 0xFFFF⟩) (code 0x2C61FFFF fun t => t.setX 1 8)).tile 0).xr 3 = 0xFFFF := by decide +kernel
theorem test_lui_sign : ((nxt (.lui 0 ⟨3, 0, 0x8000⟩) (code 0x30608000 id)).tile 0).xr 3 = 0xFFFFFFFF80000000 := by decide +kernel
/-- A write to x0 is discarded. -/
theorem test_x0 : ((nxt (.addi 0 ⟨0, 1, 1⟩) (code 0x28010001 fun t => t.setX 1 8)).tile 0).xr 0 = 0 := by decide +kernel
/-- BNE goes eight words on; five words back with a negative offset (the example program). -/
theorem test_bne_taken : ((nxt (.bne 0 ⟨9, 0, 8⟩) (code 0x45200008 fun t => t.setX 9 4)).tile 0).pc = 4096 + 32 := by decide +kernel
theorem test_bne_back : ((nxt (.bne 0 ⟨10, 0, 0xFFFB⟩) (code 0x4540FFFB fun t => t.setX 10 7)).tile 0).pc = 4096 - 20 := by decide +kernel
theorem test_bne_not_taken : ((nxt (.bne 0 ⟨9, 0, 8⟩) (code 0x45200008 id)).tile 0).pc = 4100 := by decide +kernel
/-- BLT compares signed. -/
theorem test_blt_signed : ((nxt (.blt 0 ⟨1, 2, 8⟩) (code 0x48220008 fun t => (t.setX 1 0xFFFFFFFFFFFFFFFF).setX 2 1)).tile 0).pc = 4096 + 32 := by decide +kernel
/-- JAL keeps the address after it. -/
theorem test_jal_link : ((nxt (.jal 0 ⟨1, 3⟩) (code 0x50200003 id)).tile 0).xr 1 = 4100 := by decide +kernel
/-- DADV adds to origin1, the word at byte 44 of a descriptor. -/
theorem test_dadv_origin1 : vOrigin1 (((nxt (.dadv 0 ⟨1, 0, 11, 1⟩) (code 0x6C4B0001 fun t => t.setX 11 8)).tile 0).dr 1) = 8 := by decide +kernel
/-- TDEC by 3 takes a tally from 5 to 2; TRD reads it. -/
theorem test_tdec : (((nxt (.tdec 0 ⟨0, 0, 5, 3⟩) (code 0xD4000503 (tallied 1 5))).tile 0).tally 5).count = 2 := by decide +kernel
theorem test_trd : ((nxt (.trd 0 ⟨3, 0, 5, 0⟩) (code 0xDC600500 (tallied 1 7))).tile 0).xr 3 % 0x100000000 = 7 := by decide +kernel
/-- An all-zero word ends its task, with a completion that is not OK. -/
theorem test_zero_word : ((nxt (.illegalInstruction 0) (code 0 id)).tile 0).run = none ∧ (nxt (.illegalInstruction 0) (code 0 id)).rd Obj.tasksNotOk = 1 := by decide +kernel
/-- FADD of 1.5 and 2.5 in FP32 is 4.0. -/
theorem test_fadd : (((nxt (.fadd 0 ⟨3, 1, 2, 0⟩) (code 0xA8611000 fun t => (t.setV 1 [0, 0, 0xC0, 0x3F]).setV 2 [0, 0, 0x20, 0x40])).tile 0).vr 3).take 4 = [0, 0, 0x80, 0x40] := by
  decide +kernel
/-- EXP of 1 within 2 ulp of e, 0x402DF854 (R84). -/
theorem test_exp_one : 0x402DF852 ≤ expLane (fun _ => 0) 0x3F800000 ∧ expLane (fun _ => 0) 0x3F800000 ≤ 0x402DF856 := by decide +kernel
/-- IADD wraps at 32 bits. -/
theorem test_iadd_wraps : (((nxt (.iadd 0 ⟨3, 1, 2, 0⟩) (code 0xA8611012 fun t => (t.setV 1 [0xFF, 0xFF, 0xFF, 0xFF]).setV 2 [1, 0, 0, 0])).tile 0).vr 3).take 4 = [0, 0, 0, 0] := by
  decide +kernel

/-! ## Narrow arithmetic: the worked encodings -/

/-- A value in tenths or hundredths, as the nearest multiple of 2^-20. -/
def dec100 (i : Int) : Machine.Num := .fin (decide (i < 0)) ((i.natAbs * 2 ^ 20 + 50) / 100) (-20)
def uf4Block : List Machine.Num :=
  [500, -290, 110, 0, 60, -420, 330, 20, 70, -30, 12, 50, -65, 5, 0, 26, 140, 90, -100, 35, -20, 0, 125, -70, 290, -170, 80, 220, -10, 130, -250, 45].map dec100

/-- The UF4 block: scale 0x7F, sub-scales 01 10 11 00, two flushes, no saturation, and the 16 bytes of the slot. -/
theorem test_uf4_block : (quantBlock 0x0E rmRNE false (fun _ => 0) uf4Block).entry = 0x6C7F ∧ (quantBlock 0x0E rmRNE false (fun _ => 0) uf4Block).ftz = 2 ∧
    (quantBlock 0x0E rmRNE false (fun _ => 0) uf4Block).sat = 0 := by decide +kernel
theorem test_uf4_slot : pack 4 (quantBlock 0x0E rmRNE false (fun _ => 0) uf4Block).codes =
    [0xD6, 0x02, 0xE1, 0x05, 0xC7, 0x62, 0x1F, 0x40, 0x67, 0x3E, 0x0A, 0xD6, 0xD7, 0x63, 0x50, 0x2E] := by decide +kernel
/-- Element 8 reads back as 0.75. -/
theorem test_uf4_read :
    (((blockNums 0x0E 0x6C7F false (unpack 4 0 32 [0xD6, 0x02, 0xE1, 0x05, 0xC7])).getD 8 .nan).scale 1).isHalves 3 = true := by decide +kernel

/-- The block that holds 96.0 escalates on its 31 flushes, with scale 0x7D and the codes 0x7C and 0x3A. -/
def escBlock : List Machine.Num := [9600, 30].map dec100 ++ List.replicate 30 (dec100 100)
theorem test_escalates : escalates 0x0C 0 12 (quantBlock 0x0C rmRNE false (fun _ => 0) escBlock) = true ∧
    (quantBlock 0x0C rmRNE false (fun _ => 0) escBlock).ftz = 31 := by decide +kernel
theorem test_escaped : (quantBlock 0x08 rmRNE false (fun _ => 0) escBlock).entry = 0x7D ∧
    (quantBlock 0x08 rmRNE false (fun _ => 0) escBlock).codes.take 2 = [0x7C, 0x3A] := by decide +kernel
/-- Bytes 0x37 of the slot and 0xAC of the record give the two codes back. -/
theorem test_esc_codes : (escCodes 0x0C (0x37 :: zeros 15) (0xAC :: zeros 15)).take 2 = [0x7C, 0x3A] := by decide +kernel

/-! ## Addresses and memory -/

/-- Byte offset 0x1_2345 of logical tile 1,000: its physical address, bank and row. -/
theorem test_tile_address : tilePa 1000 0x12345 = 0x08007D012345 ∧ bits 0x12345 7 4 = 6 ∧ bits 0x12345 11 10 = 0x24 := by decide +kernel
/-- From virtual address to DRAM cell: SH09, logical data die 12, channel 1. -/
theorem test_dram_cell : State.reset.place 0x008000123480 = (9, 12, 1) := by decide +kernel
/-- Atomic functions: ADD wraps, SMIN compares signed, UMIN unsigned, CAS keeps on a mismatch. -/
theorem test_atomic_fn : [atomicFn 0 32 0xFFFFFFFF 2 0, atomicFn 6 32 0xFFFFFFFF 2 0, atomicFn 7 32 0xFFFFFFFF 2 0, atomicFn 5 32 7 2 8, atomicFn 5 32 8 2 8] =
    [1, 0xFFFFFFFF, 2, 7, 2] := by decide +kernel
/-- CRC-32C of "123456789". -/
theorem test_crc32c : crc32c [0x31, 0x32, 0x33, 0x34, 0x35, 0x36, 0x37, 0x38, 0x39] = 0xE3069283 := by decide +kernel
/-- A write lands in memory; an address in no region is a hole. -/
theorem test_mem_write : (nxt (.memWrite 0x1000 [0xAB]) B).mem.get 0x1000 1 = [0xAB] := by decide +kernel

/-! ## Transfer engines -/

/-- The descriptor of the staging example. -/
def stage : Bytes :=
  [0x01, 0x06, 0x05, 0x00, 0xE8, 0x03, 0x00, 0x00] ++ leBytes 8 0x7F400000 ++ leBytes 8 0x800000007D020000 ++ leBytes 4 0x100000 ++ zeros 4 ++ zeros 12 ++ leBytes 4 0x31 ++
    leBytes 8 0x1000040 ++ leBytes 2 0x3E8 ++ zeros 6
theorem test_descriptor : dMode stage = 1 ∧ dFence stage = false ∧ dTallyValid stage = true ∧ dThenValid stage = true ∧ dTally stage = 5 ∧ dTallyTile stage = 1000 ∧
    dSrc stage = 0x7F400000 ∧ dDst stage = 2 ^ 63 + tilePa 1000 0x20000 % 2 ^ 43 ∧ dLen stage = 0x100000 ∧ dThenTask stage = 0x1000040 ∧ dThenTile stage = 1000 := by
  decide +kernel

/-! ## Links and the router -/

/-- RS(136,128): the generator's lowest coefficients from its roots 1 to α^7, a word of data symbols with its checks, and four wrong symbols corrected (R220). -/
theorem test_rs_roots : (List.range 8).all (fun i => rsElectrical.eval (rsElectrical.gen 8) (rsElectrical.alpha i) == 0) = true ∧ (rsElectrical.gen 8).getD 8 0 = 1 ∧
    rsElectrical.alpha 8 = 0x1D ∧ rsOptical.alpha 10 = 0x009 := by decide +kernel
def rsWord : List Nat := rsElectrical.encode (List.range 128)
theorem test_rs_corrects : rsElectrical.isWord rsWord = true ∧
    rsElectrical.decode (((rsWord.set 0 99).set 7 0).set 100 1 |>.set 135 250) = some rsWord := by decide +kernel

/-- The ports of position 43. -/
theorem test_ports_43 : (List.range 14).map (farPosition 43) = [40, 41, 42, 44, 45, 46, 47, 3, 11, 19, 27, 35, 51, 59] ∧
    (List.range 14).map (farPort 43) = [2, 2, 2, 3, 3, 3, 3, 11, 11, 11, 11, 11, 12, 12] := by decide +kernel

/-- Position 43 in catchment 0x0102 with the route of the example, and the ports' free flits as it states them. -/
def at43 (free10 free4 : Nat) : State :=
  let s := (((B.wr Obj.position 43).wr Obj.ownCatchment 0x0102).wr (Obj.routeBankState 1) 2)
  let s := (List.range 14).foldl (fun s p => ((s.wr (Obj.linkState p) linkUp).wr (Obj.portState p) ustActive).wr (Obj.rtAdmit p) 1) s
  let s := (s.setLink 10 { LinkPort.init with spentPool := 1541 - free10 }).setLink 4 { LinkPort.init with spentPool := 1541 - free4 }
  { s with router := { s.router with routes := [(65536 * 2 + 29, 0x00000B0EFBC80410)] } }
def put29 : Packet := { pkt0 with parity := 1, dst := 0x010276, src := 0x0102AD, units := 16, flits := 5 }

/-- The port that routing picks, and nothing where it discards. -/
def picked (r : Routed) : Option Nat :=
  match r with
  | .jobs [(p, _)] => some p
  | _ => none
theorem test_route_29 : picked ((at43 40 300).routeOne put29) = some 4 := by decide +kernel
/-- With E4 below the threshold the freer minimal port is taken. -/
theorem test_route_29_other : picked ((at43 400 300).routeOne put29) = some 10 := by decide +kernel
/-- A packet at L6 has two links to go and one level left: it is discarded. -/
theorem test_route_level : picked ((at43 40 300).routeOne { put29 with level := 6 }) = none := by decide +kernel

/-- The route map with every position ACTIVE and every port usable, and the same with position 45 FAILED and the link between 43 and 27 DOWN. -/
def mapWhole : Bytes := List.replicate 64 0x01 ++ (List.replicate 64 [0xFF, 0xFF, 0x03]).flatten
def mapHurt : Bytes := patch (patch mapWhole 45 [0x05]) (64 + 3 * 43) [0xFF, 0xFB, 0x03]
/-- The rail map of the example: `expected` of rail 2 is 0x0107 for positions 32 to 63. -/
def railMap : Bytes := [1, 0, 0, 0, 2, 1, 0, 0] ++ zeros 8 ++ (List.replicate 160 [0xFF, 0xFF]).flatten ++ (List.replicate 32 [0x07, 0x01]).flatten ++
  (List.replicate 64 [0xFF, 0xFF]).flatten

theorem test_local_entry : localEntry mapWhole (rmAdj mapWhole) 43 29 = 0x00000B0EFBC80410 := by decide +kernel
theorem test_local_entry_hurt : localEntry mapHurt (rmAdj mapHurt) 43 29 = 0x00000F00000C3BEF := by decide +kernel
theorem test_remote_entry : remoteEntry mapHurt railMap (rmAdj mapHurt) 43 0x0107 = 0x00000C0E1BCD0000 := by decide +kernel

/-! ## Network interface -/

/-- Context 5 at position 43, job 0x21, slot 0 ACTIVE; packet 2 of the 600-byte PUT. -/
def put5 : Packet :=
  let s := (((B.wr Obj.position 43).wr Obj.ownCatchment 0x0102).wr (Obj.niJob 5) 0x21).wro (Obj.keySlotState 5) [2, 0, 0, 0]
  let s := s.wr (Obj.keyTxSlot 5) 0
  s.buildPkt 5 1 clsRQ 0x010276 1 3 true 0x1A2B 2 600 0x7F401200 (zeros 88)
theorem test_put_header : put5.ni.drop 4 = [0x2B, 0x1A, 0, 0, 0, 0, 0x02, 0x58, 0x02, 0, 0, 0x12, 0x40, 0x7F, 0, 0] := by decide +kernel
theorem test_put_shape : put5.units = 6 ∧ put5.flits = 3 ∧ put5.ni.take 4 = [0x13, 0xC0, 0x21, 0x00] := by decide +kernel
theorem test_put_nonce : put5.nonce put5.src = [0x01, 0x02, 0xAD, 0, 0, 0, 0, 0x1A, 0x2B, 0x02, 0x35, 0xA0] := by decide +kernel

/-! ## Power -/

/-- Six shelves allow every want; five allow 2,449 W each. -/
theorem test_level_whole : levelOf (List.replicate 64 2600) 175000 = none := by decide +kernel
theorem test_level_lost : levelOf (List.replicate 64 2600) 156750 = some 2449 := by decide +kernel
/-- A host request of 2,000 W under a steward cap of 2,449 W: 2,000 W, reason HOST. -/
def capped : State := { B with steward := { B.steward with granted := true, stewardCap := 2449 } }
theorem test_host_cap : (nxt (.hostPowerRequest op 2000) capped).rd Obj.capInForceW = 2000 ∧ (nxt (.hostPowerRequest op 2000) capped).rd Obj.capReason = crHost := by
  decide +kernel
/-- A request outside 900 to 2,600 W is refused. -/
theorem test_host_range : (nxt (.hostPowerRequest op 899) capped).rd Obj.hostPowerRequest = capped.rd Obj.hostPowerRequest := by decide +kernel

/-! ## Trust -/

/-- Context 9 of the example: confidential, two images and two commits, and manager firmware of version 7 staged beside version 6. -/
def ctx9 : State :=
  let s := ((((B.wr (Obj.ctxState 9) ctxOpen).wr (Obj.ctxFlagsInForce 9) 1).wr Obj.authorityMode 1).wr (Obj.fwState 2) fwStaged)
  let s := s.setFw 2 { FwElem.init with staged := some ⟨zeros 12 ++ [7] ++ zeros 115, zeros 32⟩ }
  { s with sec := { s.sec with
      pkg := List.replicate 2 ⟨1, 0, 6, zeros 32⟩ ++ [⟨3, 0, 6, zeros 32⟩] ++ List.replicate 8 ⟨4, 0, 6, zeros 32⟩
      images := [(9, [⟨0x10, 2, 1, zeros 32⟩, ⟨0x10, 2, 2, zeros 32⟩])], commits := [(9, 2)], chains := [(9, zeros 32)] } }
def report9 : Bytes := ctx9.report (some 9) (zeros 32)
theorem test_report_head : report9.take 16 = [0x52, 0x50, 0x54, 0x31, 0x01, 0x00, 0xF0, 0x03, 0x01, 0x01, 0x09, 0x01, 0x0F, 0x00, 0x00, 0x00] := by decide +kernel
theorem test_report_entries : [320, 752, 800, 848, 896].map (fun i => slice report9 i 8) =
    [[0x03, 0, 0, 0, 6, 0, 0, 0], [0x03, 0, 1, 0, 7, 0, 0, 0], [0x10, 2, 0, 0, 1, 0, 0, 0], [0x10, 2, 0, 0, 2, 0, 0, 0], [0x11, 0, 0, 0, 2, 0, 0, 0]] := by
  decide +kernel

/-- SHA-256 of "abc" (FIPS 180-4), HMAC of "what do ya want for nothing?" under "Jefe" (RFC 4231, case 2). -/
theorem test_sha256 : beNat (sha256 [0x61, 0x62, 0x63]) = 0xBA7816BF8F01CFEA414140DE5DAE2223B00361A396177A9CB410FF61F20015AD := by decide +kernel
theorem test_hmac : beNat (hmac [0x4A, 0x65, 0x66, 0x65] [0x77, 0x68, 0x61, 0x74, 0x20, 0x64, 0x6F, 0x20, 0x79, 0x61, 0x20, 0x77, 0x61, 0x6E, 0x74, 0x20, 0x66, 0x6F, 0x72,
    0x20, 0x6E, 0x6F, 0x74, 0x68, 0x69, 0x6E, 0x67, 0x3F]) = 0x5BDCC146BF60754E6A042426089575C75A003F089D2739839DEC58B964EC3843 := by decide +kernel
/-- AES-256-GCM of sixteen zero bytes under zero key and IV (test case 14 of the GCM specification). -/
theorem test_gcm : beNat (gcmSeal (zeros 32) (zeros 12) [] (zeros 16)) = 0xCEA7403D4D606B6E074EC5D3BAF39D18D0D1C8A799996BF0265B98B5D48AB919 := by decide +kernel
/-- The P-256 signature over "sample" of RFC 6979 verifies, and one over another text does not. -/
def rfcKey : Bytes := beBytes 32 0x60FED4BA255A9D31C961EB74C6356D68C049B8923B61FA6CE669622E60F29FB6 ++ beBytes 32 0x7903FE1008B8BC99A41AE9E95628BC64F2F1B20C2D7E9F5177A3C294D4462299
def rfcSig : Bytes := beBytes 32 0xEFD48B2AACB6A8FD1140DD9CD45E81D69D2C877B56AAF991C34D0EA84EAF3716 ++ beBytes 32 0xF7CB1C942D657C41D436C7A1B6E29F65F3E900DBB9AFF4064DC4AB2F843ACDA8
theorem test_ecdsa : ecVerify rfcKey (sha256 [0x73, 0x61, 0x6D, 0x70, 0x6C, 0x65]) rfcSig = true ∧ ecVerify rfcKey (sha256 [0x74, 0x65, 0x73, 0x74]) rfcSig = false := by
  decide +kernel

/-! ## Bring-up -/

/-- Logical tile 1,000 at site (2, 8, 2) goes to site (2, 0, 30), index 1,504. -/
theorem test_map_tile : State.reset.rd (Obj.tileSite 1000) = 0x502 ∧ State.reset.siteOf 1000 = 1064 ∧ (State.reset.mapTile 1000 1504).rd (Obj.tileSite 1000) = 0x41E ∧
    (State.reset.mapTile 1000 1504).rd (Obj.siteLogical 1064) = 0xFFFF ∧ (State.reset.mapTile 1000 1504).rd (Obj.siteLogical 1504) = 1000 := by decide +kernel

/-! ## Management -/

/-- The example of R444: READ of `tile_state` of logical tile 1,000 in an Operator session with identifier 0x11, in frame 6. -/
def asked (seq : Nat) : NxReq :=
  let q : NxReq := ⟨{ head ntRequest 0x11 64 16 with seq := seq }, 0x2A, opRead, 0x10, 0x43E8, 0, 0, 1, 0, []⟩
  { q with frame := sealed (zeros 32) q.frame q.body }
def st11 : State := withSess { sess7 with id := 0x11, peerId := 0x11 } B
theorem test_frame_header : (asked 6).frame.header = [0x4E, 0x58, 0x01, 0x10, 0x11, 0, 0, 0, 0x06, 0, 0, 0, 0, 0, 0, 0, 0x10, 0, 0, 0, 0, 0, 0, 0] := by decide +kernel
theorem test_request_body : (asked 6).body = [0x2A, 0, 0, 0, 0x01, 0x10, 0xE8, 0x43, 0, 0, 0x01, 0, 0, 0, 0, 0] := by decide +kernel
/-- The response kept, and the same response to a repeat in frame 7. -/
theorem test_response : ((nxt (.read (asked 6)) st11).session? 0x11).map (fun x => x.kept.map NxResp.body) =
    some [[0x2A, 0, 0, 0, 0x01, 0, 0x01, 0, 0, 0, 0, 0, 0x01, 0, 0, 0, 0x01]] := by decide +kernel
theorem test_repeat : (nxt (.read (asked 7)) (nxt (.read (asked 6)) st11)).sent.length = 2 ∧
    ((nxt (.read (asked 7)) (nxt (.read (asked 6)) st11)).session? 0x11).map (fun x => x.kept.length) = some 1 := by decide +kernel

/-! ## The recorder -/

/-- Record 76,362 of the dump. -/
def rec76362 : EvRec := ⟨76362, 0x17E50C3A9B274400, 4811874 + 637, 41, 0x3001, severityOf 0x3001, 5, 3, 0xFF, false, false, 0, 0, 0x0102032C, 1, 7⟩
theorem test_record_bytes : rec76362.bytes.take 36 =
    [0x4A, 0x2A, 0x01, 0, 0, 0, 0, 0, 0x00, 0x44, 0x27, 0x9B, 0x3A, 0x0C, 0xE5, 0x17, 0xDF, 0x6E, 0x49, 0x00, 0x29, 0x00, 0x01, 0x30, 0x02, 0x05, 0x03, 0x00, 0xFF, 0, 0, 0,
      0, 0, 0, 0] := by decide +kernel
/-- The far end of E3 of position 43 in catchment 0x0102. -/
theorem test_far_word : farWord 0x0102 (farPort 43 3) (farPosition 43 3) = 0x0102032C := by decide +kernel

/-! ## The queue -/

/-- A step takes the command in front; an empty queue lets a microsecond pass. -/
theorem test_step_front : (stepped (.hostPowerRequest op 2000) capped).pending = [] ∧ (stepped (.hostPowerRequest op 2000) capped).rd Obj.capInForceW = 2000 := by
  decide +kernel

end Sys2Proof.Tests
end

