-- ==== Sys2Proof/Tests/WitnessAgent.lean ====
section
/-! SUPPORT. States and operands that meet the hypotheses of the statements on the fabric agent, the Wellhead, power and the rack: one theorem for each statement, one clause after another. -/

namespace Sys2Proof.Tests

set_option maxRecDepth 100000
set_option Elab.async false

open Sys2Proof Sys2Proof.Machine

/-- The hypotheses of AgentMessages can be met. -/
theorem witness_AgentMessages :
    (∃ (s : State) (i : InMsg) (u : State) (port : Nat) (r : State × AgentMsg), Takes s mgProbe i u ∧ i.path = .data port ∧ port < 18 ∧
      u.mkMsg mgProbeEcho i.msg.gen i.msg.arg (bytesOf [slice i.msg.payload 0 4, leBytes 2 (u.rd Obj.ownCatchment), leBytes 1 u.pos, leBytes 1 port, zeros 8]) = r) ∧
    (∃ (s : State) (i : InMsg) (u : State) (p : Nat), Takes s mgProbeEcho i u ∧ i.path = .data p ∧ p < 18 ∧ (mgetD u.agent.probes p PortProbe.init).open_ = true ∧
      i.msg.arg = (mgetD u.agent.probes p PortProbe.init).nonce ∧ i.msg.gen = u.rd (Obj.portGeneration p)) ∧
    (∃ (s : State) (p : Nat) (b : PortProbe) (u : State), b = mgetD s.agent.probes p PortProbe.init ∧
      u = { s with agent := { s.agent with probes := mput s.agent.probes p { b with open_ := false, good := min 3 (b.good + 1), bad := 0 } } }.wr (Obj.probeVerdict p) (if 2 ≤ b.good then 1 else 0)) ∧
    (∃ (s : State) (p : Nat) (b : PortProbe) (u : State), b = mgetD s.agent.probes p PortProbe.init ∧
      u = { s with agent := { s.agent with probes := mput s.agent.probes p { b with open_ := false, good := 0, bad := min 3 (b.bad + 1) } } }.wr (Obj.probeVerdict p) (if 2 ≤ b.bad then 2 else 0)) ∧
    (∃ (s : State) (p : Nat), s.rd (Obj.linkState p) ≠ linkUp) ∧
    (∃ (s : State), s.rd Obj.agentState ≠ agStarting) ∧
    (∃ (s : State), s.rd Obj.agentState ≠ agStarting) ∧
    (∃ (s : State) (r : State × AgentMsg), (s.rd Obj.agentState = agDiscovering ∨ s.rd Obj.agentState = agOrphan) ∧
      s.mkMsg mgHello 0 (s.rd Obj.whEligible % 2 + 2 * ofBool s.healthy) [] = r) ∧
    (∃ (s : State) (i : InMsg) (u v : State), Takes s mgHello i u ∧ i.msg.origin < 64 ∧ i.msg.arg < 4 ∧ i.path = .mgmt ∧
      v = { u with agent := { u.agent with heardMgmt := upsert (·.1) (i.msg.origin, i.msg.arg % 2, i.msg.arg / 2, u.now) u.agent.heardMgmt } }) ∧
    (∃ (s : State) (i : InMsg) (u : State), Takes s mgReplica i u ∧ u.follows i.msg = true ∧ i.msg.arg % 65536 = 0) ∧
    (∃ (s : State) (i : InMsg) (u : State), Takes s mgReplica i u ∧ u.follows i.msg = false) ∧
    (∃ (s : State) (i : InMsg) (u : State), Takes s mgRailMap i u ∧ u.follows i.msg = true ∧ u.rd Obj.railMapVersion < i.msg.gen ∧ i.msg.arg % 65536 = 0 ∧ i.msg.arg / 65536 ≠ 1) ∧
    (∃ (s : State) (i : InMsg) (u : State) (c : NMap Bytes), Takes s mgRailMap i u ∧ u.follows i.msg = true ∧ u.rd Obj.railMapVersion < i.msg.gen ∧
      c = mput (if i.msg.arg % 65536 = 0 then [] else u.agent.railChunks) (i.msg.arg % 65536) i.msg.payload ∧ c.length = i.msg.arg / 65536 ∧
      560 + 8 * railRoutes (c.map (·.2)).flatten ≤ (c.map (·.2)).flatten.length) ∧
    (∃ (s : State) (w : Who) (v : Bytes), isOpCus w = true ∧ s.isWh = true ∧ 4 < v.length ∧ v.length ≤ 1028 ∧ leAt v 0 4 + (v.drop 4).length ≤ 33328 ∧ s.admits w = true) ∧
    (∃ (s : State) (w : Who), isOpCus w = true ∧ s.isWh = false ∧ s.admits w = true) ∧
    (∃ (s : State) (w : Who) (b : List Byte), isOpCus w = true ∧ s.isWh = true ∧ railRoutes ((List.range 8).map fun i => mgetD s.wh.railLoad i 0) ≤ 4096 ∧
      b = (List.range (560 + 8 * railRoutes ((List.range 8).map fun i => mgetD s.wh.railLoad i 0))).map (fun i => mgetD s.wh.railLoad i 0) ∧ railBad b = false ∧
      leAt b 0 4 ≤ s.rd Obj.railMapVersion) ∧
    (∃ (s : State) (w : Who) (b : List Byte), isOpCus w = true ∧ s.isWh = true ∧ railRoutes ((List.range 8).map fun i => mgetD s.wh.railLoad i 0) ≤ 4096 ∧
      b = (List.range (560 + 8 * railRoutes ((List.range 8).map fun i => mgetD s.wh.railLoad i 0))).map (fun i => mgetD s.wh.railLoad i 0) ∧ railBad b = false ∧
      s.rd Obj.railMapVersion < leAt b 0 4 ∧ (s.rd Obj.ownCatchment = 0xFFFF ∨ s.rd Obj.ownCatchment = railCat b) ∧ s.admits w = true) ∧
    (∃ (s : State) (i : InMsg) (u : State), Takes s mgHeartbeat i u ∧ i.msg.origin ≠ u.pos ∧ u.isWh = false ∧ u.rd Obj.agentTerm ≤ i.msg.term ∧ u.agent.grantTerm ≤ i.msg.term ∧
      i.msg.term = u.rd Obj.agentTerm ∧ u.agent.hbSeen = true ∧ u.agent.hbSeq < i.msg.seq) ∧
    (∃ (s : State) (i : InMsg) (u : State), Takes s mgHeartbeat i u ∧ i.msg.origin ≠ u.pos ∧ u.rd Obj.agentTerm < i.msg.term ∧ u.agent.grantTerm ≤ i.msg.term) ∧
    (∃ (s : State) (i : InMsg) (u : State), Takes s mgHeartbeat i u ∧ i.msg.term < u.agent.grantTerm) ∧
    (∃ (s : State) (i : InMsg) (u : State), Takes s mgPrepare i u ∧ u.follows i.msg = true ∧ u.mayRoute = true ∧ u.rd Obj.agentEpoch < i.msg.gen ∧ u.agent.prep = none) ∧
    (∃ (s : State) (r : PrepRun), s.agent.prep = some r ∧ r.done = false ∧ s.mayRoute = true ∧ s.rd (Obj.routeBankResident (r.epoch % 2)) = 0 ∧ r.epoch % 2 ≠ s.rd Obj.injectParity) ∧
    (∃ (s : State) (i : InMsg) (u : State), Takes s mgCommit i u ∧ u.follows i.msg = true) ∧
    (∃ (s : State) (i : InMsg) (u : State), Takes s mgCommit i u ∧ u.follows i.msg = false) ∧
    (∃ (s : State) (i : InMsg) (u : State), Takes s mgLinkDown i u ∧ i.msg.arg < 64 ∧ i.msg.arg ≠ u.pos ∧ u.follows i.msg = true) ∧
    (∃ (s : State) (i : InMsg) (u : State) (p : Nat) (v w : State), Takes s mgReprobe i u ∧ u.follows i.msg = true ∧ i.msg.arg % 256 = u.pos ∧ bits i.msg.arg 8 8 = p ∧ p < 18 ∧
      u.rd (Obj.portGeneration p) < i.msg.gen ∧
      v = { (u.wr (Obj.portGeneration p) i.msg.gen).wr (Obj.probeVerdict p) 0 with agent := { u.agent with probes := mput u.agent.probes p PortProbe.init, posFenced := u.agent.posFenced.filter (· != p) } } ∧
      w = (if bit i.msg.arg 16 then v.fencePort p else v.clearPort p)) ∧
    (∃ (s : State) (i : InMsg) (u : State) (p : Nat), Takes s mgReprobe i u ∧ u.follows i.msg = true ∧ i.msg.arg % 256 = u.pos ∧ bits i.msg.arg 8 8 = p ∧ p < 18 ∧
      i.msg.gen ≤ u.rd (Obj.portGeneration p)) ∧
    (∃ (s : State) (i : InMsg) (u : State), Takes s mgReprobe i u ∧ u.follows i.msg = true ∧ i.msg.arg % 256 = u.pos ∧ bits i.msg.arg 8 8 = 0xFF ∧ u.agent.posGen < i.msg.gen) ∧
    (∃ (s : State) (l : List Nat), l = ((List.range 18).filter fun p => s.rd (Obj.portState p) == ustActive)) ∧
    (∃ (s : State) (i : InMsg) (u : State), Takes s mgReprobe i u ∧ u.follows i.msg = true ∧ i.msg.arg % 256 ≠ u.pos) :=
  ⟨⟨heard (B) (.data 3) (msg mgProbe 1 0 0 0 []), ⟨.data 3, 65535, msg mgProbe 1 0 0 0 []⟩, _, 3, _, ⟨_, _, rfl, rfl, Or.inr (Or.inl ⟨3, rfl, by decide, rfl⟩)⟩, by decide +kernel,
     by decide +kernel, rfl⟩,
   ⟨heard (withAgent B fun a => { a with probes := [(3, { PortProbe.init with open_ := true, nonce := 5 })] }) (.data 3) (msg mgProbeEcho 1 0 0 5 []), ⟨.data 3, 65535,
     msg mgProbeEcho 1 0 0 5 []⟩, _, 3, ⟨_, _, rfl, rfl, Or.inr (Or.inl ⟨3, rfl, by decide, rfl⟩)⟩, by decide +kernel⟩,
   ⟨B, 0, _, _, rfl, rfl⟩,
   ⟨B, 0, _, _, rfl, rfl⟩,
   ⟨B, 0, by decide⟩,
   ⟨B, by decide⟩,
   ⟨B, by decide⟩,
   ⟨B.wr Obj.agentState agDiscovering, _, Or.inl (by decide), rfl⟩,
   ⟨heard (B) (.mgmt) (msg mgHello 1 0 0 3 []), ⟨.mgmt, 65535, msg mgHello 1 0 0 3 []⟩, _, _, ⟨_, _, rfl, rfl, Or.inl ⟨rfl, rfl⟩⟩, by decide +kernel, by decide +kernel,
     by decide +kernel, rfl⟩,
   ⟨heard (B) (.mgmt) (msg mgReplica 1 0 0 65536 [7]), ⟨.mgmt, 65535, msg mgReplica 1 0 0 65536 [7]⟩, _, ⟨_, _, rfl, rfl, Or.inl ⟨rfl, rfl⟩⟩, by decide +kernel⟩,
   ⟨heard (B) (.mgmt) (msg mgReplica 1 2 0 65536 [7]), ⟨.mgmt, 65535, msg mgReplica 1 2 0 65536 [7]⟩, _, ⟨_, _, rfl, rfl, Or.inl ⟨rfl, rfl⟩⟩, by decide +kernel⟩,
   ⟨heard (B) (.mgmt) (msg mgRailMap 1 0 5 131072 [7]), ⟨.mgmt, 65535, msg mgRailMap 1 0 5 131072 [7]⟩, _, ⟨_, _, rfl, rfl, Or.inl ⟨rfl, rfl⟩⟩, by decide +kernel⟩,
   ⟨heard (B) (.mgmt) (msg mgRailMap 1 0 5 65536 (zeros 560)), ⟨.mgmt, 65535, msg mgRailMap 1 0 5 65536 (zeros 560)⟩, _, _, ⟨_, _, rfl, rfl, Or.inl ⟨rfl, rfl⟩⟩, by decide +kernel,
     by decide +kernel, rfl, by decide +kernel⟩,
   ⟨whB, op, leBytes 4 33327 ++ [7], by decide⟩,
   ⟨B, op, by decide⟩,
   ⟨railSt 0, op, railBytes 0, by decide, by decide, by decide, rfl, railOk 0, by decide⟩,
   ⟨railSt 1, op, railBytes 1, by decide, by decide, by decide, rfl, railOk 1, by decide, Or.inl (by decide), by decide⟩,
   ⟨heard (withAgent B fun a => { a with hbSeen := true }) (.mgmt) (msg mgHeartbeat 2 0 0 0 (zeros 256)), ⟨.mgmt, 65535, msg mgHeartbeat 2 0 0 0 (zeros 256)⟩, _, ⟨_, _, rfl, rfl,
     Or.inl ⟨rfl, rfl⟩⟩, by decide +kernel⟩,
   ⟨heard (B) (.mgmt) (msg mgHeartbeat 1 5 0 0 (zeros 256)), ⟨.mgmt, 65535, msg mgHeartbeat 1 5 0 0 (zeros 256)⟩, _, ⟨_, _, rfl, rfl, Or.inl ⟨rfl, rfl⟩⟩, by decide +kernel⟩,
   ⟨heard (withAgent B fun a => { a with grantTerm := 1 }) (.mgmt) (msg mgHeartbeat 2 0 0 0 (zeros 256)), ⟨.mgmt, 65535, msg mgHeartbeat 2 0 0 0 (zeros 256)⟩, _, ⟨_, _, rfl, rfl,
     Or.inl ⟨rfl, rfl⟩⟩, by decide +kernel⟩,
   ⟨heard (B) (.mgmt) (msg mgPrepare 2 0 2 0 (zeros 256)), ⟨.mgmt, 65535, msg mgPrepare 2 0 2 0 (zeros 256)⟩, _, ⟨_, _, rfl, rfl, Or.inl ⟨rfl, rfl⟩⟩, by decide +kernel⟩,
   ⟨withAgent B fun a => { a with prep := some ⟨3, [], [], false⟩ }, ⟨3, [], [], false⟩, by decide⟩,
   ⟨heard (B) (.mgmt) (msg mgCommit 2 0 2 0 []), ⟨.mgmt, 65535, msg mgCommit 2 0 2 0 []⟩, _, ⟨_, _, rfl, rfl, Or.inl ⟨rfl, rfl⟩⟩, by decide +kernel⟩,
   ⟨heard (B) (.mgmt) (msg mgCommit 2 1 2 0 []), ⟨.mgmt, 65535, msg mgCommit 2 1 2 0 []⟩, _, ⟨_, _, rfl, rfl, Or.inl ⟨rfl, rfl⟩⟩, by decide +kernel⟩,
   ⟨heard (B) (.mgmt) (msg mgLinkDown 2 0 0 5 []), ⟨.mgmt, 65535, msg mgLinkDown 2 0 0 5 []⟩, _, ⟨_, _, rfl, rfl, Or.inl ⟨rfl, rfl⟩⟩, by decide +kernel⟩,
   ⟨heard (B) (.mgmt) (msg mgReprobe 2 0 2 (65536 + 256 * 3) []), ⟨.mgmt, 65535, msg mgReprobe 2 0 2 (65536 + 256 * 3) []⟩, _, 3, _, _, ⟨_, _, rfl, rfl, Or.inl ⟨rfl, rfl⟩⟩,
     by decide +kernel, by decide +kernel, by decide +kernel, by decide +kernel, by decide +kernel, rfl, rfl⟩,
   ⟨heard (B) (.mgmt) (msg mgReprobe 1 0 0 (256 * 3) []), ⟨.mgmt, 65535, msg mgReprobe 1 0 0 (256 * 3) []⟩, _, 3, ⟨_, _, rfl, rfl, Or.inl ⟨rfl, rfl⟩⟩, by decide +kernel⟩,
   ⟨heard (B) (.mgmt) (msg mgReprobe 1 0 1 (256 * 255) []), ⟨.mgmt, 65535, msg mgReprobe 1 0 1 (256 * 255) []⟩, _, ⟨_, _, rfl, rfl, Or.inl ⟨rfl, rfl⟩⟩, by decide +kernel⟩,
   ⟨B, _, rfl⟩,
   ⟨heard (B) (.mgmt) (msg mgReprobe 2 0 2 5 []), ⟨.mgmt, 65535, msg mgReprobe 2 0 2 5 []⟩, _, ⟨_, _, rfl, rfl, Or.inl ⟨rfl, rfl⟩⟩, by decide +kernel⟩⟩

/-- The hypotheses of WellheadMap can be met. -/
theorem witness_WellheadMap :
    (∃ (s : State) (i : InMsg) (u v : State) (r : Report), Takes s mgReport i u ∧ u.isWh = true ∧ i.msg.origin < 64 ∧ i.msg.term = u.rd Obj.agentTerm ∧ i.path = .mgmt ∧
      u.wh.mapFormed = true ∧ v = (if (repOf u.wh.repMgmt i.msg.origin).any (fun r => !bit r.flags 2) = true ∧
      bit (byteAt i.msg.payload 0) 2 = true then u.cameBack i.msg.origin else u) ∧ r = ⟨i.msg.origin, byteAt i.msg.payload 0,
      (List.range 18).map fun p => slice i.msg.payload (16 + 12 * p) 12⟩) ∧
    (∃ (s : State) (i : InMsg) (u v : State) (r : Report) (port : Nat), Takes s mgReport i u ∧ u.isWh = true ∧ i.msg.origin < 64 ∧ i.msg.term = u.rd Obj.agentTerm ∧
      i.path = .data port ∧ u.wh.mapFormed = true ∧ v = (if (repOf u.wh.repData i.msg.origin).any (fun r => !bit r.flags 2) = true ∧
      bit (byteAt i.msg.payload 0) 2 = true then u.cameBack i.msg.origin else u) ∧ r = ⟨i.msg.origin, byteAt i.msg.payload 0,
      (List.range 18).map fun p => slice i.msg.payload (16 + 12 * p) 12⟩) ∧
    (∃ (s : State) (i : InMsg) (u : State), Takes s mgReport i u ∧ i.msg.term ≠ u.rd Obj.agentTerm) ∧
    (∃ (s : State) (q : Nat), s.isWh = true ∧ s.wh.mapFormed = true ∧ s.rd (Obj.posState q) = ustFailed ∧ s.wh.back.contains q = false) ∧
    (∃ (s : State) (q : Nat), s.rd (Obj.posState q) ≠ ustFailed) ∧
    (∃ (reps : List Report) (q : Nat) (r : Report), repOf reps q = some r ∧ (bit r.flags 5 = true ∨ bit r.flags 4 = false ∨ bit r.flags 2 = false)) ∧
    (∃ (reps : List Report) (q : Nat) (r : Report), repOf reps q = some r ∧ bit r.flags 5 = false ∧ bit r.flags 4 = true ∧ bit r.flags 2 = true) ∧
    (∃ (s : State) (i : InMsg) (u : State), Takes s mgReport i u ∧ u.isWh = false) ∧
    (∃ (s : State) (i : InMsg) (u : State), Takes s mgHbAck i u ∧ u.isWh = true ∧ i.msg.origin < 64 ∧ i.msg.term = u.rd Obj.agentTerm ∧
      u.rd (Obj.posGeneration i.msg.origin) ≤ leAt i.msg.payload 12 4 ∧ i.path = .mgmt ∧ bit i.msg.arg 1 = false ∧ leAt i.msg.payload 8 4 ≠ 0) ∧
    (∃ (s : State) (i : InMsg) (u : State), Takes s mgHbAck i u ∧ u.isWh = true ∧ i.msg.origin < 64 ∧ i.msg.term = u.rd Obj.agentTerm ∧
      leAt i.msg.payload 12 4 < u.rd (Obj.posGeneration i.msg.origin) ∧ bit i.msg.arg 1 = false ∧ leAt i.msg.payload 8 4 ≠ 0) ∧
    (∃ (s : State) (i : InMsg) (u : State), Takes s mgLossNotice i u ∧ i.msg.arg < 64 ∧ i.msg.arg ≠ u.pos ∧ u.follows i.msg = true ∧ u.isWh = false) ∧
    (∃ (s u : State), s.isWh = true ∧ s.rd Obj.whQuorum ≤ s.ackedBoth ∧ ((s.wh.mapFormed = true → s.rd (Obj.posState s.pos) ≠ ustFenced)) ∧
      u = (State.evaluate { s with wh := { s.wh with noQuorum := 0 } }).newPeriod.nameStandby.sendHeartbeat) ∧
    (∃ (s : State), s.isWh = true ∧ s.wh.mapFormed = true ∧ s.rd (Obj.posState s.pos) = ustFenced) ∧
    (∃ (s : State), s.isWh = true ∧ s.ackedBoth < s.rd Obj.whQuorum ∧ s.wh.acksMgmt ≠ [] ∧ s.wh.noQuorum = 4) ∧
    (∃ (s : State), s.isWh = false) ∧
    (∃ (s : State), s.isWh = true ∧ ((∀ k, (s.lk k).2 ≠ lkFenced)) ∧ ((∀ q, q < 64 → s.rd (Obj.posState q) ≠ ustFenced))) ∧
    (∃ (s : State) (q : Nat), s.isWh = true ∧ ((List.range 64).filter fun q => s.rd (Obj.posState q) == ustFenced) = [q] ∧ lkAll.all (fun k => (s.lk k).2 != lkFenced) = true) ∧
    (∃ (s : State) (i : InMsg) (u : State) (r : EpochRun), Takes s mgReady i u ∧ u.isWh = true ∧ u.wh.run = some r ∧ i.msg.term = u.rd Obj.agentTerm ∧ r.committed = false ∧
      r.epoch = i.msg.gen ∧ r.members.contains i.msg.origin = true ∧ r.ready.contains i.msg.origin = false ∧
      i.msg.payload.take 8 ≠ tableDigest (tablesOf r.routeMap r.rail i.msg.origin)) ∧
    (∃ (s : State) (i : InMsg) (u : State) (r : EpochRun), Takes s mgReady i u ∧ u.isWh = true ∧ u.wh.run = some r ∧ i.msg.term = u.rd Obj.agentTerm ∧ r.committed = false ∧
      r.epoch = i.msg.gen ∧ r.members.contains i.msg.origin = true ∧ r.ready.contains i.msg.origin = false ∧
      i.msg.payload.take 8 = tableDigest (tablesOf r.routeMap r.rail i.msg.origin) ∧ (r.members.all fun p => (i.msg.origin :: r.ready).contains p) = false) ∧
    (∃ (s : State) (i : InMsg) (u : State) (r : EpochRun), Takes s mgReady i u ∧ u.isWh = true ∧ u.wh.run = some r ∧ i.msg.term = u.rd Obj.agentTerm ∧ r.committed = false ∧
      r.epoch = i.msg.gen ∧ r.members.contains i.msg.origin = true ∧ r.ready.contains i.msg.origin = false ∧
      i.msg.payload.take 8 = tableDigest (tablesOf r.routeMap r.rail i.msg.origin) ∧ (r.members.all fun p => (i.msg.origin :: r.ready).contains p) = true) ∧
    (∃ (s : State) (r : EpochRun), s.isWh = true ∧ s.wh.run = some r ∧ r.committed = false) ∧
    (∃ (s : State) (r : EpochRun), s.isWh = true ∧ s.wh.run = some r ∧ r.committed = true ∧ s.allAcked r = false) ∧
    (∃ (s : State) (r : EpochRun), s.wh.run = some r ∧ r.committed = true ∧ s.allAcked r = true) ∧
    (∃ (s : State) (r : EpochRun) (n : Nat) (v : State), s.isWh = true ∧ s.wh.mapFormed = true ∧ s.wh.dirty = true ∧ s.wh.run = some r ∧ r.committed = true ∧ s.allAcked r = true ∧
      n = s.wh.lastEpoch + (if (s.wh.lastEpoch + 1) % 2 = s.rd Obj.whEpoch % 2 then 2 else 1) ∧
      v = { s with wh := { s.wh with run := some ⟨n, s.rd Obj.whMapGen, s.routeMap, [], false, [], s.actives, s.agent.railMap⟩, dirty := false, lastEpoch := n } }) ∧
    (∃ (s : State) (r : EpochRun), s.wh.run = some r ∧ (r.committed = false ∨ s.allAcked r = false)) ∧
    (∃ (s : State) (e : Nat) (r : EpochRun), s.wh.run = some r ∧ r.committed = true ∧ r.epoch < e) ∧
    (∃ (s : State), s.isWh = true ∧ s.wh.mapFormed = false) ∧
    (∃ (s : State), s.isWh = false) :=
  ⟨⟨heard (withWh whB fun w => { w with mapFormed := true }) (.mgmt) (msg mgReport 2 0 0 0 (zeros 232)), ⟨.mgmt, 65535, msg mgReport 2 0 0 0 (zeros 232)⟩, _, _, _, ⟨_, _, rfl, rfl,
     Or.inl ⟨rfl, rfl⟩⟩, by decide +kernel, by decide +kernel, by decide +kernel, by decide +kernel, rfl, rfl, rfl⟩,
   ⟨heard (withWh whB fun w => { w with mapFormed := true }) (.data 3) (msg mgReport 2 0 0 0 (zeros 232)), ⟨.data 3, 65535, msg mgReport 2 0 0 0 (zeros 232)⟩, _, _, _, 3, ⟨_, _, rfl,
     rfl, Or.inr (Or.inl ⟨3, rfl, by decide, rfl⟩)⟩, by decide +kernel, by decide +kernel, by decide +kernel, by decide +kernel, by decide +kernel, rfl, rfl⟩,
   ⟨heard (B) (.mgmt) (msg mgReport 2 7 0 0 (zeros 232)), ⟨.mgmt, 65535, msg mgReport 2 7 0 0 (zeros 232)⟩, _, ⟨_, _, rfl, rfl, Or.inl ⟨rfl, rfl⟩⟩, by decide +kernel⟩,
   ⟨{ ((B.wr Obj.agentState agWellhead).wr (Obj.posState 0) ustFailed) with wh := { ((B.wr Obj.agentState agWellhead).wr (Obj.posState 0) ustFailed).wh with mapFormed := true } }, 0,
     by decide⟩,
   ⟨whB.wr (Obj.posState 1) ustActive, 1, by decide⟩,
   ⟨[⟨1, 32, []⟩], 1, ⟨1, 32, []⟩, by decide, Or.inl (by decide)⟩,
   ⟨[⟨1, 20, []⟩], 1, ⟨1, 20, []⟩, by decide⟩,
   ⟨heard B (.data 3) (msg mgReport 2 0 0 0 (zeros 232)), ⟨.data 3, 65535, msg mgReport 2 0 0 0 (zeros 232)⟩, _, ⟨_, _, rfl, rfl, Or.inr (Or.inl ⟨3, rfl, by decide, rfl⟩)⟩,
     by decide +kernel⟩,
   ⟨heard (whB) (.mgmt) (msg mgHbAck 2 0 0 0 (zeros 8 ++ [1, 0, 0, 0] ++ zeros 4)), ⟨.mgmt, 65535, msg mgHbAck 2 0 0 0 (zeros 8 ++ [1, 0, 0, 0] ++ zeros 4)⟩, _, ⟨_, _, rfl, rfl,
     Or.inl ⟨rfl, rfl⟩⟩, by decide +kernel⟩,
   ⟨heard (whB.wr (Obj.posGeneration 2) 1) (.mgmt) (msg mgHbAck 2 0 0 0 (zeros 8 ++ [1, 0, 0, 0] ++ zeros 4)), ⟨.mgmt, 65535, msg mgHbAck 2 0 0 0 (zeros 8 ++ [1, 0, 0,
     0] ++ zeros 4)⟩, _, ⟨_, _, rfl, rfl, Or.inl ⟨rfl, rfl⟩⟩, by decide +kernel⟩,
   ⟨heard (B) (.mgmt) (msg mgLossNotice 2 0 0 5 []), ⟨.mgmt, 65535, msg mgLossNotice 2 0 0 5 []⟩, _, ⟨_, _, rfl, rfl, Or.inl ⟨rfl, rfl⟩⟩, by decide +kernel⟩,
   ⟨(B.wr Obj.agentState agWellhead), _, by decide, by decide, by decide, rfl⟩,
   ⟨withWh (whB.wr (Obj.posState B.pos) ustFenced) fun w => { w with mapFormed := true }, by decide⟩,
   ⟨withWh (whB.wr Obj.whQuorum 3) fun w => { w with acksMgmt := [[0]], noQuorum := 4 }, by decide⟩,
   ⟨B, by decide⟩,
   ⟨whB, by decide, fun k => show ¬ ((0, lkExcluded) : Nat × Nat).2 = lkFenced by decide, by decide⟩,
   ⟨whB.wr (Obj.posState 2) ustFenced, 2, by decide +kernel⟩,
   ⟨heard (withWh (whB.wr (Obj.posState 1) ustActive) fun w => { w with run := some ⟨2, 0, [], [0], false, [], [0, 1], B.agent.railMap⟩, mapFormed := true }) (.mgmt) (msg mgReady 1 0 2 0 (if (tableDigest (tablesOf [] B.agent.railMap 1)) = [] then [1] else [])),
     ⟨.mgmt, 65535, msg mgReady 1 0 2 0 (if (tableDigest (tablesOf [] B.agent.railMap 1)) = [] then [1] else [])⟩, _, ⟨2, 0, [], [0], false, [], [0, 1], B.agent.railMap⟩, ⟨_, _,
     rfl, rfl, Or.inl ⟨rfl, rfl⟩⟩, by decide +kernel, by decide +kernel, by decide +kernel, by decide +kernel, by decide +kernel, by decide +kernel, by decide +kernel,
     by show List.take 8 (if (tableDigest (tablesOf [] B.agent.railMap 1)) = [] then [1] else []) ≠ (tableDigest (tablesOf [] B.agent.railMap 1)); split <;> simp_all⟩,
   ⟨heard (withWh whB fun w => { w with run := some ⟨2, 0, [], [0], false, [], [0, 1, 2], B.agent.railMap⟩ }) (.mgmt) (msg mgReady 1 0 2 0 (tableDigest (tablesOf [] B.agent.railMap 1))),
     ⟨.mgmt, 65535, msg mgReady 1 0 2 0 (tableDigest (tablesOf [] B.agent.railMap 1))⟩, _, ⟨2, 0, [], [0], false, [], [0, 1, 2], B.agent.railMap⟩, ⟨_, _, rfl, rfl, Or.inl ⟨rfl,
     rfl⟩⟩, by decide +kernel, by decide +kernel, by decide +kernel, by decide +kernel, by decide +kernel, by decide +kernel, by decide +kernel,
     by show List.take 8 (tableDigest (tablesOf [] B.agent.railMap 1)) = tableDigest (tablesOf [] B.agent.railMap 1); simp [tableDigest, List.take_take], by decide +kernel⟩,
   ⟨heard (withWh (whB.wr (Obj.posState 1) ustActive) fun w => { w with run := some ⟨2, 0, [], [0], false, [], [0, 1], B.agent.railMap⟩, mapFormed := true }) (.mgmt) (msg mgReady 1 0 2 0 (tableDigest (tablesOf [] B.agent.railMap 1))),
     ⟨.mgmt, 65535, msg mgReady 1 0 2 0 (tableDigest (tablesOf [] B.agent.railMap 1))⟩, _, ⟨2, 0, [], [0], false, [], [0, 1], B.agent.railMap⟩, ⟨_, _, rfl, rfl, Or.inl ⟨rfl,
     rfl⟩⟩, by decide +kernel, by decide +kernel, by decide +kernel, by decide +kernel, by decide +kernel, by decide +kernel, by decide +kernel,
     by show List.take 8 (tableDigest (tablesOf [] B.agent.railMap 1)) = (tableDigest (tablesOf [] B.agent.railMap 1)); simp [tableDigest, List.take_take], by decide +kernel⟩,
   ⟨withWh (whB.wr (Obj.posState 1) ustActive) fun w => { w with run := some ⟨2, 0, [], [0], false, [], [0, 1], B.agent.railMap⟩, mapFormed := true }, ⟨2, 0, [], [0], false, [], [0,
     1], B.agent.railMap⟩, by decide⟩,
   ⟨withWh (whB.wr (Obj.posState 1) ustActive) fun w => { w with run := some ⟨2, 0, [], [0], true, [0], [0, 1], B.agent.railMap⟩, mapFormed := true }, ⟨2, 0, [], [0], true, [0], [0,
     1], B.agent.railMap⟩, by decide⟩,
   ⟨withWh whB fun w => { w with run := some ⟨2, 0, [], [0], true, [1], [1], []⟩, mapFormed := true, dirty := true }, ⟨2, 0, [], [0], true, [1], [1], []⟩, by decide⟩,
   ⟨withWh whB fun w => { w with run := some ⟨2, 0, [], [0], true, [1], [1], []⟩, mapFormed := true, dirty := true }, ⟨2, 0, [], [0], true, [1], [1], []⟩, _, _, by decide, by decide,
     by decide, by decide, by decide, by decide, rfl, rfl⟩,
   ⟨withWh whB fun w => { w with run := some ⟨2, 0, [], [0], false, [], [1], []⟩ }, ⟨2, 0, [], [0], false, [], [1], []⟩, by decide, Or.inl rfl⟩,
   ⟨withWh whB fun w => { w with run := some ⟨2, 0, [], [0], true, [1], [1], []⟩, mapFormed := true, dirty := true }, 4, ⟨2, 0, [], [0], true, [1], [1], []⟩, by decide⟩,
   ⟨{ (B.wr Obj.agentState agWellhead) with wh := { (B.wr Obj.agentState agWellhead).wh with mapFormed := false } }, by decide⟩,
   ⟨B, by decide⟩⟩

/-- The hypotheses of ElectionAndSlices can be met. -/
theorem witness_ElectionAndSlices :
    (∃ (s : State) (i : InMsg) (u : State) (r : State × AgentMsg), Takes s mgClaim i u ∧ i.msg.origin < 64 ∧ i.msg.origin ≠ u.pos ∧ u.grants i.msg.origin i.msg.term = true ∧
      State.mkMsg { u with agent := { u.agent with grantTerm := i.msg.term } } mgGrant 0 i.msg.origin [] = r) ∧
    (∃ (s : State) (i : InMsg) (u : State), Takes s mgClaim i u ∧ u.grants i.msg.origin i.msg.term = false) ∧
    (∃ (s : State) (t : Nat), t ≤ s.agent.grantTerm) ∧
    (∃ (s : State) (c t : Nat), max (s.rd Obj.agentTerm) s.agent.grantTerm < t ∧ (5 ≤ s.agent.missed ∨ s.rd Obj.agentState = agDiscovering) ∧
      ((s.agent.heardMgmt ++ s.agent.heardData).any fun e => e.1 == c && e.2.1 == 0) = false ∧ ((s.agent.hbSeen = true ∧ s.rd Obj.agentStandby = c) ∨ (∀ q,
      q < c → s.heardBoth q = false))) ∧
    (∃ (s : State) (i : InMsg) (u : State) (c : ClaimRun), Takes s mgGrant i u ∧ u.agent.claim = some c ∧ i.msg.term = c.term ∧ i.msg.arg % 256 = u.pos ∧ i.path = .mgmt ∧
      c.grantsMgmt.contains i.msg.origin = false) ∧
    (∃ (s : State) (c : ClaimRun), s.agent.claim = some c ∧ s.quorum ≤ 1 + (c.grantsMgmt.filter fun q => q != s.pos && c.grantsData.contains q).length) ∧
    (∃ (s : State), s.agent.hbSeen = false) ∧
    (∃ (s : State), s.rd Obj.agentState = agFollowing) ∧
    (∃ (s : State), s.rd Obj.agentState = agStandby) ∧
    (∃ (s : State) (c : ClaimRun), s.agent.claim = some c ∧ s.isWh = false ∧ c.attempt = 1) ∧
    (∃ (s : State) (c : ClaimRun), s.agent.claim = some c ∧ s.isWh = false ∧ c.attempt = 2) ∧
    (∃ (s : State), s.rd Obj.agentState = agOrphan ∧ s.agent.claim = none ∧ s.agent.stopped = false ∧ s.healthy = true ∧ s.agent.orphanAt + 20000000 + 10000000 * s.claimRank ≤ s.now) ∧
    (∃ (s : State), s.rd Obj.agentState = agDiscovering ∧ s.agent.hbSeen = false ∧ s.healthy = true) ∧
    (∃ (s : State), s.rd Obj.agentState = agOrphan ∧ s.agent.stopped = true) ∧
    (∃ (s : State), s.rd Obj.whEligible ≠ 1) ∧
    (∃ (s : State) (t : Nat), t ≤ max (s.rd Obj.agentTerm) s.agent.grantTerm) ∧
    (∃ (s : State) (t : Nat) (r : State × AgentMsg) (u : State), s.rd Obj.whEligible = 1 ∧ max (s.rd Obj.agentTerm) s.agent.grantTerm < t ∧ s.mkMsg mgClaim 0 s.quorum [] = r ∧
      u = r.1.sendAll { r.2 with term := t }) ∧
    (∃ (s : State) (w : Who) (b : Bytes), isOpCus w = true ∧ b.length = 16 ∧ s.rd Obj.sliceStatus / 256 = 1 ∧ byteAt b 0 = 1 ∧ s.admits w = true) ∧
    (∃ (s : State) (w : Who) (b : Bytes), isOpCus w = true ∧ b.length = 16 ∧ s.rd Obj.sliceStatus / 256 ≠ 1 ∧ byteAt b 0 = 1 ∧ s.isWh = false) ∧
    (∃ (s : State) (w : Who) (b : Bytes), isOpCus w = true ∧ b.length = 16 ∧ s.rd Obj.sliceStatus / 256 ≠ 1 ∧ s.isWh = true ∧ byteAt b 0 = 1 ∧ byteAt b 1 = 0 ∧ byteAt b 2 ≤ 63 ∧
      byteAt b 3 ≤ 1 ∧ 0 < leAt b 4 2 ∧ leAt b 4 2 ≤ 0xFFFE ∧ byteAt b 6 = 0 ∧ byteAt b 7 = 0 ∧ leAt b 8 8 ≠ 0 ∧
      (s.wh.slices.any fun x => x.num == byteAt b 2 || x.job == leAt b 4 2) = false ∧ ((∀ q, q < 64 → bit (leAt b 8 8) q = true → s.posActive q = true ∧ s.posFree 64 q = true)) ∧
      s.admits w = true) ∧
    (∃ (s : State) (w : Who) (b : Bytes) (x : Slice), isOpCus w = true ∧ b.length = 16 ∧ s.rd Obj.sliceStatus / 256 ≠ 1 ∧ s.isWh = true ∧ byteAt b 0 = 2 ∧ slZero b = true ∧
      (s.wh.slices.find? fun x => x.num = byteAt b 2) = some x ∧ s.rd (Obj.sliceState (byteAt b 2)) = 2 ∧ leAt b 8 8 = 0 ∧ ((∀ q,
      q < 64 → bit x.members q = true → s.posActive q = true ∧ s.posFree (byteAt b 2) q = true)) ∧ s.admits w = true) ∧
    (∃ (s : State) (w : Who) (b : Bytes) (x : Slice), isOpCus w = true ∧ b.length = 16 ∧ s.rd Obj.sliceStatus / 256 ≠ 1 ∧ s.isWh = true ∧ byteAt b 0 = 3 ∧ slZero b = true ∧
      leAt b 8 8 = 0 ∧ (s.wh.slices.find? fun x => x.num = byteAt b 2) = some x ∧ s.rd (Obj.sliceState (byteAt b 2)) = 1 ∧ s.admits w = true) ∧
    (∃ (s : State) (i : InMsg) (u : State) (x : Slice), Takes s mgSliceAck i u ∧ (u.wh.slices.find? fun x => x.num = i.msg.arg % 256) = some x ∧ u.isWh = true ∧
      i.msg.term = u.rd Obj.agentTerm ∧ i.msg.gen = u.rd (Obj.sliceGeneration (i.msg.arg % 256)) ∧ bit x.members i.msg.origin = true ∧ bit x.acked i.msg.origin = false ∧
      u.rd (Obj.sliceState (i.msg.arg % 256)) = 0 ∧ x.acked + 2 ^ i.msg.origin ≠ x.members) ∧
    (∃ (s : State) (n : Nat), s.isWh = true ∧ (s.wh.slices.any fun x => x.num == n) = true ∧ s.rd (Obj.sliceState n) = 0) ∧
    (∃ (s : State) (n : Nat), s.isWh = true ∧ (s.wh.slices.any fun x => x.num == n) = true ∧ s.rd (Obj.sliceState n) = 3 ∧ (s.wh.slices.any fun x => x.num == n && x.forming) = false) ∧
    (∃ (s : State) (n : Nat), s.isWh = true ∧ (s.wh.slices.any fun x => x.num == n && x.forming) = true) ∧
    (∃ (s : State) (i : InMsg) (u : State) (x : Slice), Takes s mgSliceAck i u ∧ (u.wh.slices.find? fun x => x.num = i.msg.arg % 256) = some x ∧ u.isWh = true ∧
      i.msg.term = u.rd Obj.agentTerm ∧ i.msg.gen = u.rd (Obj.sliceGeneration (i.msg.arg % 256)) ∧ bit x.members i.msg.origin = true ∧ bit x.acked i.msg.origin = false ∧
      u.rd (Obj.sliceState (i.msg.arg % 256)) = 2 ∧ x.forming = true ∧ x.acked + 2 ^ i.msg.origin = x.members) ∧
    (∃ (s : State) (i : InMsg) (u : State) (r : State × AgentMsg), Takes s mgSlice i u ∧ u.follows i.msg = true ∧
      mget u.agent.sliceSt (i.msg.arg % 256) = some (bits i.msg.arg 8 8 + 256 * (i.msg.arg / 65536)) ∧
      State.mkMsg { u with agent := { u.agent with sliceSt := mput u.agent.sliceSt (i.msg.arg % 256) (bits i.msg.arg 8 8 + 256 * (i.msg.arg / 65536)) } } mgSliceAck i.msg.gen (i.msg.arg % 256) [] = r) ∧
    (∃ (s : State) (i : InMsg) (u v w : State) (r : State × AgentMsg), Takes s mgSlice i u ∧ u.follows i.msg = true ∧
      mget u.agent.sliceSt (i.msg.arg % 256) ≠ some (bits i.msg.arg 8 8 + 256 * (i.msg.arg / 65536)) ∧ bits i.msg.arg 8 8 ≤ 3 ∧ 0 < i.msg.arg / 65536 ∧
      v = { u with agent := { u.agent with sliceSt := mput u.agent.sliceSt (i.msg.arg % 256) (bits i.msg.arg 8 8 + 256 * (i.msg.arg / 65536)) } } ∧
      w = ((List.range 64).filter fun c => u.rd (Obj.niJob c) == i.msg.arg / 65536 && u.ctxSt c != ctxFree).foldl (fun s c => s.sliceNotice c (2 ^ 56 + bits i.msg.arg 8 8 * 2 ^ 48 + i.msg.arg % 256 * 2 ^ 40 + i.msg.gen)) v ∧
      w.mkMsg mgSliceAck i.msg.gen (i.msg.arg % 256) [] = r) ∧
    (∃ (s : State) (c v : Nat), (s.notifyPut c v 0xFFFFFF 1).2.1 ≠ .ok) :=
  ⟨⟨heard (withAgent B fun a => { a with missed := 5 }) (.mgmt) (msg mgClaim 2 5 0 0 []), ⟨.mgmt, 65535, msg mgClaim 2 5 0 0 []⟩, _, _, ⟨_, _, rfl, rfl, Or.inl ⟨rfl, rfl⟩⟩,
     by decide +kernel, by decide +kernel, by decide +kernel, rfl⟩,
   ⟨heard (B) (.mgmt) (msg mgClaim 2 0 0 0 []), ⟨.mgmt, 65535, msg mgClaim 2 0 0 0 []⟩, _, ⟨_, _, rfl, rfl, Or.inl ⟨rfl, rfl⟩⟩, by decide +kernel⟩,
   ⟨B, 0, by decide⟩,
   ⟨withAgent B fun a => { a with missed := 5 }, 0, 1, by decide, Or.inl (by decide), by decide, Or.inr (fun q h => absurd h (Nat.not_lt_zero q))⟩,
   ⟨heard (withAgent B fun a => { a with claim := some ⟨3, [], [], 1⟩ }) (.mgmt) (msg mgGrant 2 3 0 0 []), ⟨.mgmt, 65535, msg mgGrant 2 3 0 0 []⟩, _, ⟨3, [], [], 1⟩, ⟨_, _, rfl, rfl,
     Or.inl ⟨rfl, rfl⟩⟩, by decide +kernel⟩,
   ⟨withAgent (B.wr Obj.catchmentExpected 4) fun a => { a with claim := some ⟨3, [1, 2], [1, 2], 1⟩ }, ⟨3, [1, 2], [1, 2], 1⟩, by decide⟩,
   ⟨{ B with agent := { B.agent with hbSeen := false } }, by decide⟩,
   ⟨(B.wr Obj.agentState agFollowing), by decide⟩,
   ⟨(B.wr Obj.agentState agStandby), by decide⟩,
   ⟨withAgent B fun a => { a with claim := some ⟨3, [], [], 1⟩ }, ⟨3, [], [], 1⟩, by decide⟩,
   ⟨withAgent B fun a => { a with claim := some ⟨3, [], [], 2⟩ }, ⟨3, [], [], 2⟩, by decide⟩,
   ⟨{ ((((B.wr Obj.agentState agOrphan).wr (Obj.mportLink 2) 1).wr (Obj.probeVerdict 0) 1).wr (Obj.portState 0) ustActive).wr (Obj.linkState 0) linkUp with now := 2 ^ 40 },
     by decide +kernel⟩,
   ⟨((((B.wr Obj.agentState agDiscovering).wr (Obj.mportLink 2) 1).wr (Obj.probeVerdict 0) 1).wr (Obj.portState 0) ustActive).wr (Obj.linkState 0) linkUp, by decide +kernel⟩,
   ⟨{ (B.wr Obj.agentState agOrphan) with agent := { (B.wr Obj.agentState agOrphan).agent with stopped := true } }, by decide⟩,
   ⟨B.wr Obj.whEligible 0, by decide⟩,
   ⟨B, 0, by decide⟩,
   ⟨B.wr Obj.whEligible 1, 1, _, _, by decide, by decide, rfl, rfl⟩,
   ⟨B.wr Obj.sliceStatus 256, op, [1, 0, 5, 1] ++ leBytes 2 9 ++ [0, 0] ++ leBytes 8 3, by decide⟩,
   ⟨B, op, [1, 0, 5, 1] ++ leBytes 2 9 ++ [0, 0] ++ leBytes 8 3, by decide⟩,
   ⟨((whB.wr (Obj.posState 0) ustActive).wr (Obj.posState 1) ustActive), op, [1, 0, 5, 1] ++ leBytes 2 9 ++ [0, 0] ++ leBytes 8 3, by decide +kernel⟩,
   ⟨withWh (((whB.wr (Obj.posState 0) ustActive).wr (Obj.posState 1) ustActive).wr (Obj.sliceState 5) 2) fun w => { w with slices := [⟨5, 9, 3, 1, 0, false⟩] }, op, [2, 0, 5,
     0] ++ zeros 12, ⟨5, 9, 3, 1, 0, false⟩, by decide +kernel⟩,
   ⟨withWh (((whB.wr (Obj.posState 0) ustActive).wr (Obj.posState 1) ustActive).wr (Obj.sliceState 5) 1) fun w => { w with slices := [⟨5, 9, 3, 1, 0, false⟩] }, op, [3, 0, 5,
     0] ++ zeros 12, ⟨5, 9, 3, 1, 0, false⟩, by decide +kernel⟩,
   ⟨heard (withWh (((whB.wr (Obj.posState 0) ustActive).wr (Obj.posState 1) ustActive).wr (Obj.sliceState 5) 0) fun w => { w with slices := [⟨5, 9, 3, 1, 0, false⟩] }) (.mgmt) (msg mgSliceAck 1 0 0 5 []),
     ⟨.mgmt, 65535, msg mgSliceAck 1 0 0 5 []⟩, _, ⟨5, 9, 3, 1, 0, false⟩, ⟨_, _, rfl, rfl, Or.inl ⟨rfl, rfl⟩⟩, by decide +kernel⟩,
   ⟨withWh (((whB.wr (Obj.posState 0) ustActive).wr (Obj.posState 1) ustActive).wr (Obj.sliceState 5) 0) fun w => { w with slices := [⟨5, 9, 3, 1, 0, false⟩] }, 5, by decide⟩,
   ⟨withWh (((whB.wr (Obj.posState 0) ustActive).wr (Obj.posState 1) ustActive).wr (Obj.sliceState 5) 3) fun w => { w with slices := [⟨5, 9, 3, 1, 0, false⟩] }, 5, by decide⟩,
   ⟨withWh whB fun w => { w with slices := [⟨5, 9, 3, 1, 0, true⟩] }, 5, by decide⟩,
   ⟨heard (withWh (whB.wr (Obj.sliceState 5) 2) fun w => { w with slices := [⟨5, 9, 3, 1, 1, true⟩] }) (.mgmt) (msg mgSliceAck 1 0 0 5 []), ⟨.mgmt, 65535, msg mgSliceAck 1 0 0 5 []⟩,
     _, ⟨5, 9, 3, 1, 1, true⟩, ⟨_, _, rfl, rfl, Or.inl ⟨rfl, rfl⟩⟩, by decide +kernel⟩,
   ⟨heard (withAgent B fun a => { a with sliceSt := [(5, 1)] }) (.mgmt) (msg mgSlice 1 0 0 (5 + 256) []), ⟨.mgmt, 65535, msg mgSlice 1 0 0 (5 + 256) []⟩, _, _, ⟨_, _, rfl, rfl,
     Or.inl ⟨rfl, rfl⟩⟩, by decide +kernel, by decide +kernel, rfl⟩,
   ⟨heard (B.wr (Obj.niJob 1) 9) (.mgmt) (msg mgSlice 1 0 0 (5 + 256 + 65536 * 9) []), ⟨.mgmt, 65535, msg mgSlice 1 0 0 (5 + 256 + 65536 * 9) []⟩, _, _, _, _, ⟨_, _, rfl, rfl,
     Or.inl ⟨rfl, rfl⟩⟩, by decide +kernel, by decide +kernel, by decide +kernel, by decide +kernel, rfl, rfl, rfl⟩,
   ⟨B.wr (Obj.notifyHead 1) 1, 1, 0, by decide⟩⟩

/-- The hypotheses of PackagePower can be met. -/
theorem witness_PackagePower :
    (∃ (s : State) (w : Who) (v : Nat), isOpCus w = true ∧ (v = 0 ∨ (900 ≤ v ∧ v ≤ 2600)) ∧ s.admits w = true) ∧
    (∃ (s : State) (w : Who) (v : Nat), isOpCus w = true ∧ v ≠ 0 ∧ (v < 900 ∨ 2600 < v) ∧ s.admits w = true) ∧
    (∃ (s : State) (w : Who), isOpCus w = true ∧ s.rd Obj.pkgPowerState = pwrParked ∧ s.parkCleared = true ∧ s.admits w = true) ∧
    (∃ (s : State) (w : Who), isOpCus w = true ∧ s.parkCleared = false ∧ s.admits w = true) ∧
    (∃ (s : State), s.rd Obj.trayStatus % 4 ≠ 0) ∧
    (∃ (s : State), s.steward.parkWhy.contains pkHub = true ∧ bit (s.rd Obj.trayStatus) 3 = true) ∧
    (∃ (s : State) (w : Who), isOpCus w = true ∧ s.rd Obj.pkgPowerState ≠ pwrParked ∧ s.admits w = true) ∧
    (∃ (s : State), s.boot.throttleN = true) ∧
    (∃ (s : State), s.boot.throttleN = false) ∧
    (∃ (s : State), s.isWh = false ∧ s.rd Obj.agentState = agStarting) ∧
    (∃ (s : State), s.boot.throttleN = true ∧ s.rd Obj.agentWellhead = 0xFF) ∧
    (∃ (s : State), s.boot.throttleN = false) ∧
    (∃ (s : State), s.boot.pfailN = true) ∧
    (∃ (s : State), s.steward.pfailPend = true ∧ s.boot.pfailN = true ∧ s.steward.railBad = []) ∧
    (∃ (s : State), s.boot.trayPresN = false) ∧
    (∃ (s : State) (rail : Nat), rail < 16 ∧ s.steward.railBad.contains rail = true ∧ ((s.rd Obj.pkgPowerState = pwrStarting → s.boot.step = 0x30))) ∧
    (∃ (s : State) (rail : Nat), rail < 16 ∧ s.steward.railBad.contains rail = false ∧ s.rd Obj.pkgPowerState ≠ pwrStarting) ∧
    (∃ (s : State), s.rd Obj.pkgPowerState = pwrStopping ∧ s.substRuns = false) ∧
    (∃ (s : State), s.substRuns = true ∧ s.rd Obj.pkgPowerState = pwrStopping) ∧
    (∃ (s : State), s.rd Obj.pkgPowerState ≠ pwrStopping ∧ ((s.rd Obj.pkgPowerState = pwrFabric → s.steward.parkOrder = false))) ∧
    (∃ (s : State), s.rd Obj.pkgPowerState = pwrFabric ∧ s.steward.parkOrder = true) ∧
    (∃ (s : State), s.rd Obj.pkgPowerState = pwrOff ∧ s.steward.parkOrder = false ∧ s.boot.step = 2 ∧ s.hasRef = true) ∧
    (∃ (s : State), s.rd Obj.pkgPowerState = pwrOff ∧ s.steward.parkOrder = false ∧ s.boot.step = 2 ∧ s.hasRef = false) ∧
    (∃ (s : State) (rails : List RailRead) (temps : List SensorRead) (v u : State), v = rails.foldl (fun (s : State) r => s.takeRail r) s ∧
      u = ((v.dieTemps temps).foldl (fun (s : State) t => s.takeTemp t.1 t.2) v).thermalClear) ∧
    (∃ (s : State), s.rd Obj.pkgPowerState = pwrOn ∧ s.rd Obj.floorLatched ≠ 1) ∧
    (∃ (r : RailRead), r.rail < 16 ∧ r.answered = true ∧ r.inTol = true ∧ r.status = 0) ∧
    (∃ (s : State) (die c : Nat) (v : State), mget s.steward.raising die = some c ∧ die < 4 ∧ s.rd Obj.pkgPowerState = pwrOn ∧ s.hot die = false ∧
      v = { s with steward := { s.steward with raising := mdel s.steward.raising die } }) ∧
    (∃ (s : State) (die c : Nat), mget s.steward.raising die = some c ∧ s.hot die = true) ∧
    (∃ (s : State) (die : Nat), mget s.steward.raising die = none) ∧
    (∃ (s : State) (die : Nat) (v : Int), die < 4 ∧ mget s.steward.temps die = some v ∧ controlPoint die < v ∧ s.rd Obj.pkgPowerState = pwrOn) ∧
    (∃ (v : Nat), 10500 ≤ v) ∧
    (∃ (die v : Nat), 6 ≤ die ∧ die ≤ 9 ∧ 9000 ≤ v) ∧
    (∃ (v : Nat), 10000 ≤ v) ∧
    (∃ (die : Nat), 43 ≤ die) ∧
    (∃ (die v : Nat), 10 ≤ die ∧ die < 42 ∧ 11000 ≤ v) :=
  ⟨⟨B, op, 0, by decide⟩,
   ⟨B, op, 899, by decide, by decide, Or.inl (by decide), by decide⟩,
   ⟨(onSb (B.wr Obj.pkgPowerState pwrParked)), op, by decide⟩,
   ⟨{ B with steward := { B.steward with parkWhy := [pkHub] } }.wr Obj.trayStatus 8, op, by decide⟩,
   ⟨B.wr Obj.trayStatus 1, by decide⟩,
   ⟨{ B with steward := { B.steward with parkWhy := [pkHub] } }.wr Obj.trayStatus 8, by decide⟩,
   ⟨B, op, by decide⟩,
   ⟨{ B with boot := { B.boot with throttleN := true } }, by decide⟩,
   ⟨{ B with boot := { B.boot with throttleN := false } }, by decide⟩,
   ⟨(B.wr Obj.agentState agStarting), by decide⟩,
   ⟨{ (B.wr Obj.agentWellhead 0xFF) with boot := { (B.wr Obj.agentWellhead 0xFF).boot with throttleN := true } }, by decide⟩,
   ⟨{ B with boot := { B.boot with throttleN := false } }, by decide⟩,
   ⟨{ B with boot := { B.boot with pfailN := true } }, by decide⟩,
   ⟨{ { B with steward := { B.steward with pfailPend := true, railBad := [] } } with boot := { { B with steward := { B.steward with pfailPend := true, railBad := [] } }.boot with pfailN := true } },
     by decide⟩,
   ⟨{ B with boot := { B.boot with trayPresN := false } }, by decide⟩,
   ⟨{ B with steward := { (B).steward with railBad := [0] } }, 0, by decide⟩,
   ⟨B, 0, by decide⟩,
   ⟨(B.wr Obj.pkgPowerState pwrStopping), by decide⟩,
   ⟨(onTile (B.wr Obj.pkgPowerState pwrStopping) 0 fun t => { t with subst := some ⟨3, 500, false, false⟩ }), by decide⟩,
   ⟨B, by decide, fun h => absurd h (by decide)⟩,
   ⟨{ (B.wr Obj.pkgPowerState pwrFabric) with steward := { B.steward with parkOrder := true } }, by decide⟩,
   ⟨{ B.wr Obj.pkgPowerState pwrOff with boot := { B.boot with step := 2, refA := true, held := false } }, by decide⟩,
   ⟨{ { (B.wr Obj.pkgPowerState pwrOff) with steward := { (B.wr Obj.pkgPowerState pwrOff).steward with parkOrder := false } } with boot := { { (B.wr Obj.pkgPowerState pwrOff) with steward := { (B.wr Obj.pkgPowerState pwrOff).steward with parkOrder := false } }.boot with step := 2 } },
     by decide⟩,
   ⟨B, [], [], _, _, rfl, rfl⟩,
   ⟨(B.wr Obj.pkgPowerState pwrOn), by decide⟩,
   ⟨⟨5, 750, 10, 40, 0, true, true⟩, by decide⟩,
   ⟨{ B with steward := { B.steward with raising := [(3, 1500)] } }, 3, 1500, _, by decide, by decide, by decide, by decide, rfl⟩,
   ⟨{ B with steward := { B.steward with raising := [(3, 1500)], temps := [(3, 4000)] } }, 3, 1500, by decide⟩,
   ⟨B, 0, by decide⟩,
   ⟨{ B with steward := { (B).steward with temps := [(3, 120)] } }, 3, 120, by decide⟩,
   ⟨10500, by decide⟩,
   ⟨9, 9000, by decide⟩,
   ⟨10000, by decide⟩,
   ⟨43, by decide⟩,
   ⟨41, 11000, by decide⟩⟩

/-- The hypotheses of RackSteward can be met. -/
theorem witness_RackSteward :
    (∃ (s : State), s.isWh = true) ∧
    (∃ (s : State), s.isWh = false) ∧
    (∃ (s : State) (i : InMsg) (u : State), Takes s mgCapTable i u ∧ u.follows i.msg = true) ∧
    (∃ (s : State) (i : InMsg) (u : State), Takes s mgCapTable i u ∧ u.follows i.msg = false) ∧
    (∃ (s : State) (q : Nat), q ≤ s.rd Obj.capSequence) ∧
    (∃ (s : State) (q a : Nat) (t : Bytes), s.rd Obj.capSequence < q ∧ bit a 0 = false ∧ 900 ≤ leAt t (2 * s.pos) 2 ∧ leAt t (2 * s.pos) 2 ≤ 2600) ∧
    (∃ (s : State), s.isWh = true) ∧
    (∃ (s : State), ((∀ q, q < 64 → s.candidate q = false))) ∧
    (∃ (s : State) (i : InMsg) (u : State) (r : PowerRep), Takes s mgPowerReport i u ∧ u.isWh = false ∧ r = (⟨i.msg.origin, leAt i.msg.payload 0 2, leAt i.msg.payload 2 2,
      leAt i.msg.payload 4 2, byteAt i.msg.payload 6, byteAt i.msg.payload 7⟩ : PowerRep)) ∧
    (∃ (s : State) (i : InMsg) (u : State), Takes s mgSafety i u ∧ u.follows i.msg = true) ∧
    (∃ (s : State) (q p : Nat), s.steward.safetyRx < q ∧ bit p (State.trayOf s.pos) = true) ∧
    (∃ (s : State) (g : List Nat) (b q : Nat), s.startsNow q = true ∧
      levelSum ((g.filter fun q => !s.startsNow q).map s.want) 900 + s.rd Obj.startGrantW * (g.filter s.startsNow).length ≤ b) ∧
    (∃ (s : State) (k : Nat) (e : Bytes) (p : Nat), e = s.rdo (Obj.equipment k) ∧ p = (if leAt e 18 2 = 0 then 502 else leAt e 18 2)) ∧
    (∃ (s : State) (t : Nat), s.isWh = true ∧ s.steward.pumpLoss = true ∧ s.parkable = [t]) ∧
    (∃ (s : State), s.steward.pumpLoss = false) ∧
    (∃ (s : State) (k : Nat), s.isWh = true ∧ s.usedEq.contains k = true) ∧
    (∃ (s : State), s.isWh = false) ∧
    (∃ (s : State) (k : Nat), s.isWh = true ∧ (s.eqOf k).waiting = true ∧ s.usedEq.contains k = true) ∧
    (∃ (s : State) (k : Nat), s.isWh = true ∧ (s.eqOf k).waiting = true ∧ s.usedEq.contains k = true) ∧
    (∃ (s : State) (k : Nat), (s.eqOf k).waiting = false) ∧
    (∃ (s : State), s.steward.lead = true) ∧
    (∃ (s : State), s.steward.lead = false) ∧
    (∃ (s : State) (i : InMsg) (u : State), Takes s mgTrayAlarm i u ∧ i.msg.arg % 256 = State.trayOf u.pos ∧ u.isWh = false) ∧
    (∃ (s : State) (i : InMsg) (u : State), Takes s mgTraySensors i u ∧ u.isWh = false ∧ i.msg.arg % 256 ≠ State.trayOf u.pos) ∧
    (∃ (s : State) (i : InMsg) (u : State), Takes s mgTraySensors i u ∧ u.isWh = false ∧ i.msg.arg % 256 = State.trayOf u.pos) ∧
    (∃ (s : State), s.steward.lead = true ∧ bit (s.rd Obj.trayStatus) 3 = false) ∧
    (∃ (s : State), s.pos % 4 = (s.steward.leadCol + 1) % 4) ∧
    (∃ (s : State), s.steward.lowFlowSaid = true) ∧
    (∃ (s : State), s.steward.lowFlowTray = true) ∧
    (∃ (s : State), s.steward.lowFlowSaid = true) ∧
    (∃ (s : State), s.steward.lowFlowSaid = false) ∧
    (∃ (s : State), s.steward.lead = true ∧ bit (s.rd Obj.trayStatus) 2 = true ∧ 110 * s.rd Obj.flowMinClpm ≤ 100 * s.rd (Obj.flowClpm 1)) ∧
    (∃ (s : State), s.rd Obj.agentState = agOrphan) ∧
    (∃ (s : State) (n : Nat) (r m : Int), m = s.sensorModel n ∧ r < m - 1500 ∧ s.steward.suspect.contains n = false) ∧
    (∃ (s : State) (n : Nat) (r m : Int), m = s.sensorModel n ∧ m - 500 ≤ r ∧ s.steward.suspect.contains n = true) ∧
    (∃ (s : State) (n : Nat) (r m : Int), m = s.sensorModel n ∧ m - 1500 ≤ r ∧ r < m - 500) ∧
    (∃ (s : State) (t : SensorRead), s.steward.suspect.contains t.sensor = false) ∧
    (∃ (s : State) (t : SensorRead), s.sensorModel t.sensor < t.temp) ∧
    (∃ (s : State) (t : SensorRead), s.steward.suspect.contains t.sensor = true ∧ t.temp ≤ s.sensorModel t.sensor) :=
  ⟨⟨(B.wr Obj.agentState agWellhead), by decide⟩,
   ⟨B, by decide⟩,
   ⟨heard (B) (.mgmt) (msg mgCapTable 1 0 1 0 (zeros 128)), ⟨.mgmt, 65535, msg mgCapTable 1 0 1 0 (zeros 128)⟩, _, ⟨_, _, rfl, rfl, Or.inl ⟨rfl, rfl⟩⟩, by decide +kernel⟩,
   ⟨heard (B) (.mgmt) (msg mgCapTable 1 1 1 0 (zeros 128)), ⟨.mgmt, 65535, msg mgCapTable 1 1 1 0 (zeros 128)⟩, _, ⟨_, _, rfl, rfl, Or.inl ⟨rfl, rfl⟩⟩, by decide +kernel⟩,
   ⟨B, 0, by decide⟩,
   ⟨B, 1, 0, leBytes 2 900 ++ zeros 126, by decide⟩,
   ⟨(B.wr Obj.agentState agWellhead), by decide⟩,
   ⟨B, by decide⟩,
   ⟨heard (B) (.mgmt) (msg mgPowerReport 1 0 1 0 (zeros 16)), ⟨.mgmt, 65535, msg mgPowerReport 1 0 1 0 (zeros 16)⟩, _, _, ⟨_, _, rfl, rfl, Or.inl ⟨rfl, rfl⟩⟩, by decide +kernel, rfl⟩,
   ⟨heard (B) (.mgmt) (msg mgSafety 1 0 1 0 (zeros 16)), ⟨.mgmt, 65535, msg mgSafety 1 0 1 0 (zeros 16)⟩, _, ⟨_, _, rfl, rfl, Or.inl ⟨rfl, rfl⟩⟩, by decide +kernel⟩,
   ⟨B, 1, 65535, by decide⟩,
   ⟨{ B with steward := { B.steward with reports := [⟨3, 0, 0, 1000, pwrStarting, 0⟩] } }, [3], 10000, 3, by decide⟩,
   ⟨B, 0, _, _, rfl, rfl⟩,
   ⟨{ (whB.wr Obj.flowMinClpm 100) with steward := { whB.steward with pumpLoss := true, trayLow := [3] } }, 3, by decide⟩,
   ⟨{ B with steward := { B.steward with pumpLoss := false } }, by decide⟩,
   ⟨whB.wro (Obj.equipment 3) (List.replicate 32 1), 3, by decide⟩,
   ⟨B, by decide⟩,
   ⟨{ whB.wro (Obj.equipment 3) (List.replicate 32 1) with steward := { (whB.wro (Obj.equipment 3) (List.replicate 32 1)).steward with eqs := [(3, { EqPoll.init with waiting := true })] } },
     3, by decide⟩,
   ⟨{ whB.wro (Obj.equipment 3) (List.replicate 32 1) with steward := { (whB.wro (Obj.equipment 3) (List.replicate 32 1)).steward with eqs := [(3, { EqPoll.init with waiting := true })] } },
     3, by decide⟩,
   ⟨B, 0, by decide⟩,
   ⟨{ B with steward := { B.steward with lead := true } }, by decide⟩,
   ⟨{ B with steward := { B.steward with lead := false } }, by decide⟩,
   ⟨heard (B) (.mgmt) (msg mgTrayAlarm 1 0 0 1280 []), ⟨.mgmt, 65535, msg mgTrayAlarm 1 0 0 1280 []⟩, _, ⟨_, _, rfl, rfl, Or.inl ⟨rfl, rfl⟩⟩, by decide +kernel⟩,
   ⟨heard (B) (.mgmt) (msg mgTraySensors 1 0 0 3 (zeros 16)), ⟨.mgmt, 65535, msg mgTraySensors 1 0 0 3 (zeros 16)⟩, _, ⟨_, _, rfl, rfl, Or.inl ⟨rfl, rfl⟩⟩, by decide +kernel⟩,
   ⟨heard (B) (.mgmt) (msg mgTraySensors 1 0 0 0 (zeros 16)), ⟨.mgmt, 65535, msg mgTraySensors 1 0 0 0 (zeros 16)⟩, _, ⟨_, _, rfl, rfl, Or.inl ⟨rfl, rfl⟩⟩, by decide +kernel⟩,
   ⟨{ B with steward := { B.steward with lead := true } }, by decide⟩,
   ⟨B.wr Obj.position 1, by decide⟩,
   ⟨{ B with steward := { B.steward with lowFlowSaid := true } }, by decide⟩,
   ⟨{ B with steward := { B.steward with lowFlowTray := true } }, by decide⟩,
   ⟨{ B with steward := { B.steward with lowFlowSaid := true } }, by decide⟩,
   ⟨{ B with steward := { B.steward with lowFlowSaid := false } }, by decide⟩,
   ⟨{ ((B.wr Obj.trayStatus 4).wr Obj.flowMinClpm 100).wr (Obj.flowClpm 1) 110 with steward := { (((B.wr Obj.trayStatus 4).wr Obj.flowMinClpm 100).wr (Obj.flowClpm 1) 110).steward with lead := true } },
     by decide⟩,
   ⟨(B.wr Obj.agentState agOrphan), by decide⟩,
   ⟨B, 2, B.sensorModel 2 - 1501, _, rfl, by omega, by decide⟩,
   ⟨{ B with steward := { (B).steward with suspect := [2] } }, 2, State.sensorModel { B with steward := { (B).steward with suspect := [2] } } 2 - 500, _, rfl, Int.le_refl _,
     by decide⟩,
   ⟨B, 2, B.sensorModel 2 - 1500, _, rfl, Int.le_refl _, by omega⟩,
   ⟨B, ⟨2, 0⟩, by decide⟩,
   ⟨B, ⟨2, State.sensorModel B 2 + 1⟩, Int.lt_succ _⟩,
   ⟨{ B with steward := { (B).steward with suspect := [2] } }, ⟨2, State.sensorModel { B with steward := { (B).steward with suspect := [2] } } 2⟩, by decide, Int.le_refl _⟩⟩

end Sys2Proof.Tests
end

