-- ==== Sys2Proof/Tests/WitnessFabric.lean ====
section
/-! SUPPORT. States and operands that meet the hypotheses of the statements on links, the router and the network interfaces: one theorem for each statement, one clause after another. -/

namespace Sys2Proof.Tests

set_option maxRecDepth 100000
set_option Elab.async false

open Sys2Proof Sys2Proof.Machine

/-- The hypotheses of LinkLayer can be met. -/
theorem witness_LinkLayer :
    (∃ (s : State) (p : Nat) (k : Packet) (tr : Trailer) (u : State) (l : LinkPort), Fronts s p (.pkt k tr) u ∧ p < 14 ∧ l = s.link p ∧ tr.seq = l.rxNext) ∧
    (∃ (s : State) (p : Nat) (k : Packet) (tr : Trailer) (u : State), Fronts s p (.pkt k tr) u ∧ tr.seq ≠ (s.link p).rxNext ∧ seqDist tr.seq (s.link p).rxNext < 2 ^ 23) ∧
    (∃ (s : State) (p : Nat) (q : Option Nat) (u : State), Fronts s p (.bad q) u ∧ (s.link p).asked = false) ∧
    (∃ (s : State) (p : Nat) (q : Option Nat) (u : State), Fronts s p (.bad q) u ∧ (s.link p).asked = true ∧ q ≠ some (s.link p).rxNext) ∧
    (∃ (s : State) (p : Nat) (u : State), Fronts s p .badCtl u) ∧
    (∃ (s : State) (p : Nat) (u : State), Fronts s p .wait u) ∧
    (∃ (s : State) (p : Nat) (f : CtlFlit) (u : State), Fronts s p (.ctl f) u ∧ f.op = 1) ∧
    (∃ (s : State) (p : Nat), p < 18 ∧ s.rd (Obj.linkState p) = linkUp ∧ (s.link p).ackDue = true ∧ (s.link p).retVc = [] ∧ (s.link p).retPool = 0) ∧
    (∃ (s : State) (p : Nat) (f : CtlFlit) (v u : State), Fronts s p (.ctl f) v ∧ f.op = 2 ∧ u = v.flitIn p f ∧ (u.link p).reqCount = 0) ∧
    (∃ (s : State) (p : Nat) (f : CtlFlit) (v u : State), Fronts s p (.ctl f) v ∧ f.op = 2 ∧ u = v.flitIn p f ∧ (u.link p).reqCount = 7 ∧ (u.link p).reqNum = f.replayFrom) ∧
    (∃ (s : State) (p : Nat), p < 18 ∧ s.rd (Obj.linkState p) = linkUp ∧ (s.link p).held ≠ [] ∧ (s.link p).timeouts < 3) ∧
    (∃ (s : State) (p : Nat), p < 18 ∧ s.rd (Obj.linkState p) = linkUp ∧ (s.link p).held ≠ [] ∧ 3 ≤ (s.link p).timeouts) ∧
    (∃ (s : State) (p c : Nat) (u : State × Nat), p < 18 ∧ (c = 1 ∨ c = 2) ∧ s.rd (Obj.linkState p) = linkUp ∧
      u = ((((s.wr (Obj.linkState p) linkDown).wr (Obj.rtAdmit p) 0).emit (.idle p)).bump Obj.linkLosses).salvage p) ∧
    (∃ (s : State) (p c : Nat), p < 18 ∧ (c = 1 ∨ c = 2) ∧ s.rd (Obj.linkState p) ≠ linkUp ∧ 2 ≤ (s.link p).train) ∧
    (∃ (s : State) (l dir seq gen : Nat) (unit : Bytes) (d : D2dLink), d2dExists l = true ∧ s.rd (Obj.d2dState l) = ustActive ∧ mget s.boot.confirmed (d2dDomain l) = some gen ∧
      d2dUnitOk unit = true ∧ seq = dirOf (s.d2dOf l).rxNext dir ∧ d = { s.d2dOf l with sent := setDir (s.d2dOf l).sent dir (max (dirOf (s.d2dOf l).sent dir) (seq + 1)) }) ∧
    (∃ (s : State) (l dir seq gen : Nat) (unit : Bytes) (d : D2dLink), d2dExists l = true ∧ s.rd (Obj.d2dState l) = ustActive ∧ mget s.boot.confirmed (d2dDomain l) = some gen ∧
      (d2dUnitOk unit = false ∨ dirOf (s.d2dOf l).rxNext dir < seq) ∧ (dirOf (s.d2dOf l).asked dir = false ∨ seq = dirOf (s.d2dOf l).rxNext dir) ∧
      d = { s.d2dOf l with sent := setDir (s.d2dOf l).sent dir (max (dirOf (s.d2dOf l).sent dir) (seq + 1)) }) ∧
    (∃ (s : State) (l dir seq gen : Nat) (unit : Bytes) (d : D2dLink), d2dExists l = true ∧ s.rd (Obj.d2dState l) = ustActive ∧ mget s.boot.confirmed (d2dDomain l) = some gen ∧
      (d2dUnitOk unit = false ∨ dirOf (s.d2dOf l).rxNext dir < seq) ∧ dirOf (s.d2dOf l).asked dir = true ∧ seq ≠ dirOf (s.d2dOf l).rxNext dir ∧
      d = { s.d2dOf l with sent := setDir (s.d2dOf l).sent dir (max (dirOf (s.d2dOf l).sent dir) (seq + 1)) }) ∧
    (∃ (s : State) (l dir seq gen : Nat) (unit : Bytes), (mget s.boot.confirmed (d2dDomain l) ≠ some gen ∨ d2dUnitOk unit = true ∧ seq < dirOf (s.d2dOf l).rxNext dir)) ∧
    (∃ (s : State) (l m : Nat), d2dExists l = true ∧ s.rd (Obj.d2dState l) = ustActive ∧ m < d2dModules l ∧ mgetD (s.d2dOf l).used m 0 < 4) ∧
    (∃ (s : State) (l m : Nat), l < 14 ∧ s.rd (Obj.d2dState l) = ustActive ∧ m < d2dModules l ∧ 4 ≤ mgetD (s.d2dOf l).used m 0) ∧
    (∃ (s : State) (p : Nat) (w : List (List Nat)) (flits : List Bytes) (n : Nat) (lanes : List Nat), p < 18 ∧ s.rd (Obj.linkState p) = linkUp ∧
      (rsOf p).receive (s.lineIn p w) = some (flits, n, lanes)) ∧
    (∃ (s : State) (p : Nat) (w : List (List Nat)), p < 18 ∧ s.rd (Obj.linkState p) = linkUp ∧ (rsOf p).receive (s.lineIn p w) = none) ∧
    (∃ (n : Nat) (d : List Nat), d.length = 17 * n ∧ ((∀ v ∈ d, v < 4))) ∧
    (∃ (v : Nat), v < 4) ∧
    (∃ (c : RsCode) (r v : List Nat), c.decode r = some v) ∧
    (∃ (c : RsCode) (r : List Nat), c.isWord r = true) :=
  ⟨⟨wired (B.wr (Obj.linkState 0) linkUp) 0 (pkt0.bytes trailer0), 0, pkt0, trailer0, _, _, ⟨by decide, by decide, [], by decide +kernel, rfl⟩, by decide, rfl, by decide⟩,
   ⟨wired ((B.wr (Obj.linkState 0) linkUp).setLink 0 { LinkPort.init with rxNext := 1 }) 0 (pkt0.bytes trailer0), 0, pkt0, trailer0, _, ⟨by decide, by decide, [], by decide +kernel,
     rfl⟩, by decide⟩,
   ⟨wired (B.wr (Obj.linkState 0) linkUp) 0 (List.replicate 64 0x91), 0, some (leNat (slice (List.replicate 64 (0x91 : Byte)) 57 3)), _, ⟨by decide, by decide, [], by decide +kernel,
     rfl⟩, by decide⟩,
   ⟨wired ((B.wr (Obj.linkState 0) linkUp).setLink 0 { LinkPort.init with asked := true }) 0 (List.replicate 64 0xFF), 0, none, _, ⟨by decide, by decide, [], by decide +kernel, rfl⟩,
     by decide⟩,
   ⟨wired (B.wr (Obj.linkState 0) linkUp) 0 ([0x30] ++ zeros 63), 0, _, ⟨by decide, by decide, [], by decide +kernel, rfl⟩⟩,
   ⟨(B.wr (Obj.linkState 0) linkUp), 0, _, ⟨by decide, by decide, [], by decide +kernel, rfl⟩⟩,
   ⟨wired (B.wr (Obj.linkState 0) linkUp) 0 ((flit 1).bytes), 0, flit 1, _, ⟨by decide, by decide, [], by decide +kernel, rfl⟩, by decide⟩,
   ⟨linked 0 fun l => { l with ackDue := true }, 0, by decide⟩,
   ⟨wired (B.wr (Obj.linkState 0) linkUp) 0 ((flit 2).bytes), 0, flit 2, _, _, ⟨by decide, by decide, [], by decide +kernel, rfl⟩, by decide, rfl, by decide⟩,
   ⟨wired ((B.wr (Obj.linkState 0) linkUp).setLink 0 { LinkPort.init with reqCount := 7 }) 0 ((flit 2).bytes), 0, flit 2, _, _, ⟨by decide, by decide, [], by decide +kernel, rfl⟩,
     by decide, rfl, by decide⟩,
   ⟨linked 0 fun l => { l with held := [held0] }, 0, by decide⟩,
   ⟨linked 0 fun l => { l with held := [held0], timeouts := 3 }, 0, by decide⟩,
   ⟨linked 0 fun l => { l with held := [held0] }, 0, 1, _, by decide, Or.inl rfl, by decide, rfl⟩,
   ⟨(linked 0 fun l => { l with train := 2 }).wr (Obj.linkState 0) 1, 0, 1, by decide⟩,
   ⟨{ B.wr (Obj.d2dState 0) ustActive with boot := { (B.wr (Obj.d2dState 0) ustActive).boot with confirmed := [(d2dDomain 0, 1)] } }, 0, 0, 0, 1,
     (zeros 252 ++ leBytes 4 (crc32c (zeros 252))), _, by decide +kernel, by decide +kernel, by decide +kernel, by decide +kernel, by decide +kernel, rfl⟩,
   ⟨({ B.wr (Obj.d2dState 0) ustActive with boot := { (B.wr (Obj.d2dState 0) ustActive).boot with confirmed := [(d2dDomain 0, 1)] } }).setD2d 0 ⟨(1, 0), (0, 0), (false, false), []⟩,
     0, 0, 2, 1, (zeros 252 ++ leBytes 4 (crc32c (zeros 252))), _, by decide, by decide, by decide, Or.inr (by decide), Or.inl (by decide), rfl⟩,
   ⟨({ B.wr (Obj.d2dState 0) ustActive with boot := { (B.wr (Obj.d2dState 0) ustActive).boot with confirmed := [(d2dDomain 0, 1)] } }).setD2d 0 ⟨(1, 0), (0, 0), (true, false), []⟩,
     0, 0, 2, 1, zeros 256, _, by decide, by decide, by decide, Or.inr (by decide), by decide, by decide, rfl⟩,
   ⟨B, 0, 0, 0, 0, [], by decide⟩,
   ⟨(B.wr (Obj.d2dState 0) ustActive), 0, 0, by decide⟩,
   ⟨(B.wr (Obj.d2dState 0) ustActive).setD2d 0 ⟨(0, 0), (0, 0), (false, false), [(0, 4)]⟩, 0, 0, by decide⟩,
   ⟨(linked 0 fun l => { l with rxScr := (List.range 18).map fun i => (i, 0) }), 0, [], [zeros 64, zeros 64], 0, [], by decide +kernel⟩,
   ⟨(linked 0 fun l => { l with rxScr := (List.range 18).map fun i => (i, 0) }), 0, [List.replicate 170 1], by decide +kernel⟩,
   ⟨1, List.replicate 17 3, by decide⟩,
   ⟨0, by decide⟩,
   ⟨rsElectrical, 1 :: List.replicate 135 0, List.replicate 136 0, by decide +kernel⟩,
   ⟨rsElectrical, List.replicate 136 0, by decide +kernel⟩⟩

/-- The hypotheses of LaneSubstitution can be met. -/
theorem witness_LaneSubstitution :
    (∃ (s : State) (p : Nat) (f : CtlFlit) (v u : State) (i n : Nat), Fronts s p (.ctl f) v ∧ f.op = 4 ∧ f.mapLogical < 16 ∧ u = v.flitIn p f ∧
      (u.link p).copies.any (fun c => c.1 == f.mapLogical) = false ∧ (n ∈ u.freeLanes p 0 ∨ n = f.mapLogical ∧ u.rd (Obj.laneState p n 0) = ustDisabled) ∧
      u.carrier p 0 f.mapLogical = some i) ∧
    (∃ (s : State) (p : Nat) (f : CtlFlit) (v u : State) (x : LaneSub), Fronts s p (.ctl f) v ∧ f.op = 3 ∧ f.mapLogical < 16 ∧ f.mapPosition < 18 ∧ 1 ≤ f.mapAfter ∧
      f.mapAfter ≤ 1024 ∧ u = v.flitIn p f ∧ (u.link p).subs.find? (fun x => decide (x.logical = f.mapLogical ∧ x.new = f.mapPosition)) = some x) ∧
    (∃ (s : State) (p : Nat) (f : CtlFlit) (v u : State) (i : Nat), Fronts s p (.ctl f) v ∧ f.op = 3 ∧ f.mapLogical < 16 ∧ f.mapPosition < 18 ∧ 1 ≤ f.mapAfter ∧ f.mapAfter ≤ 1024 ∧
      u = v.flitIn p f ∧ (u.link p).subs.find? (fun x => decide (x.logical = f.mapLogical ∧ x.new = f.mapPosition)) = none ∧ u.rd (Obj.laneState p f.mapPosition 0) = ustSpare ∧
      u.carrier p 0 f.mapLogical = some i) ∧
    (∃ (s : State) (p k : Nat), p < 18 ∧ s.rd (Obj.linkState p) = linkUp ∧ (s.link p).subs.any (fun x => x.logical == k && decide (x.step < 3)) = true) ∧
    (∃ (s : State) (p k n : Nat) (x : LaneSub), p < 18 ∧ s.rd (Obj.linkState p) = linkUp ∧ (s.link p).subs.any (fun x => x.logical == k && decide (x.step < 3)) = false ∧
      s.strangeCopy p k n = some x) ∧
    (∃ (s : State) (p k n : Nat) (c : Nat × Nat) (i : Nat), p < 18 ∧ s.rd (Obj.linkState p) = linkUp ∧ (s.link p).subs.any (fun x => x.logical == k && decide (x.step < 3)) = false ∧
      s.strangeCopy p k n = none ∧ (s.link p).copies.find? (fun c => decide (c.1 = k)) = some c ∧ s.carrier p 0 k = some i ∧
      (s.link p).switches.any (fun x => x.dir == 0 && x.logical == k) = false) ∧
    (∃ (s : State) (p dir k : Nat) (x : LaneSwitch) (old : Nat) (u : State), (s.link p).switches.find? (fun x => decide (x.dir = dir ∧ x.logical = k)) = some x ∧
      s.carrier p dir k = some old ∧
      u = (s.setLink p { s.link p with switches := (s.link p).switches.filter (fun y => !(y.dir == dir && y.logical == k)), subs := if dir = 1 then (s.link p).subs.filter (fun y => y.logical != k) else (s.link p).subs, copies := if dir = 0 then (s.link p).copies.filter (fun y => y.1 != k) else (s.link p).copies }).moveLane p dir k old x.new x.oldTo x.abrupt ∧
      ((dir = 0 → 14 ≤ p → u.rd (Obj.laneLogical p (old / 2 * 2) 0) = 0xFF → u.rd (Obj.laneLogical p (old / 2 * 2 + 1) 0) = 0xFF → u.laserWorn (p - 14) (old / 2) = true → u.rd (Obj.laserState (p - 14) 9) ≠ ustSpare))) ∧
    (∃ (s : State) (p k : Nat) (x : LaneSwitch) (old : Nat) (u : State), (s.link p).switches.find? (fun x => decide (x.dir = 0 ∧ x.logical = k)) = some x ∧
      s.carrier p 0 k = some old ∧
      u = (s.setLink p { s.link p with switches := (s.link p).switches.filter (fun y => !(y.dir == 0 && y.logical == k)), copies := (s.link p).copies.filter (fun y => y.1 != k) }).moveLane p 0 k old x.new x.oldTo x.abrupt ∧
      14 ≤ p ∧ u.rd (Obj.laneLogical p (old / 2 * 2) 0) = 0xFF ∧ u.rd (Obj.laneLogical p (old / 2 * 2 + 1) 0) = 0xFF ∧ u.laserWorn (p - 14) (old / 2) = true ∧
      u.rd (Obj.laserState (p - 14) 9) = ustSpare) ∧
    (∃ (s : State) (p dir k old new st : Nat) (abrupt : Bool) (t : State), t = s.moveLane p dir k old new st abrupt ∧ p < 18 ∧ dir < 2 ∧ old < 18 ∧ new < 18 ∧ old ≠ new) ∧
    (∃ (s : State) (p : Nat), p < 18 ∧ s.rd (Obj.linkState p) = linkUp) ∧
    (∃ (s : State) (p : Nat) (l data spare free : List Nat), data = (l.dedup.filter fun i => decide (i < 18) && s.rd (Obj.laneLogical p i 1) != 0xFF) ∧
      spare = (l.dedup.filter fun i => decide (i < 18) && s.rd (Obj.laneState p i 1) == ustSpare) ∧ free = ((s.freeLanes p 1).filter fun i => !spare.contains i) ∧
      data.length ≤ free.length) ∧
    (∃ (s : State) (p i n : Nat) (u : State), u = s.moveLane p 1 (s.rd (Obj.laneLogical p i 1)) i n ustDisabled true) ∧
    (∃ (s : State) (p : Nat) (l : List Nat),
      ((s.freeLanes p 1).filter fun i => !(l.dedup.filter fun i => decide (i < 18) && s.rd (Obj.laneState p i 1) == ustSpare).contains i).length < (l.dedup.filter fun i => decide (i < 18) && s.rd (Obj.laneLogical p i 1) != 0xFF).length) ∧
    (∃ (s : State) (p dir i : Nat), p < 18 ∧ dir < 2 ∧ i < 18 ∧ s.rd (Obj.laneState p i dir) ≠ ustFailed ∧
      (dir = 0 ∨ s.rd (Obj.laneLogical p i 1) = 0xFF ∨ s.rd (Obj.linkState p) ≠ linkUp)) ∧
    (∃ (s : State) (p i : Nat), p < 18 ∧ i < 18 ∧ s.rd (Obj.laneState p i 1) ≠ ustFailed ∧ s.rd (Obj.laneLogical p i 1) ≠ 0xFF ∧ s.rd (Obj.linkState p) = linkUp) ∧
    (∃ (s : State) (p dir i : Nat), p < 18 ∧ dir < 2 ∧ i < 18 ∧ s.rd (Obj.laneState p i dir) ≠ ustFailed) ∧
    (∃ (s : State) (w : Who) (p i : Nat), isOpCus w = true ∧ p < 18 ∧ i < 18 ∧ s.rd (Obj.laneState p i 1) = ustSpare ∧ s.admits w = true) ∧
    (∃ (s : State) (w : Who) (p i n : Nat) (ns : List Nat), isOpCus w = true ∧ p < 18 ∧ i < 18 ∧ s.rd (Obj.laneState p i 1) = ustActive ∧ s.freeLanes p 1 = n :: ns ∧ s.admits w = true) ∧
    (∃ (s : State) (p i n : Nat) (ns : List Nat), s.rd (Obj.laneLogical p i 1) ≠ 0xFF ∧ (s.link p).subs.any (fun y => y.logical == s.rd (Obj.laneLogical p i 1)) = false ∧
      s.freeLanes p 1 = n :: ns) ∧
    (∃ (s : State) (w : Who) (p i : Nat), isOpCus w = true ∧ p < 18 ∧ i < 18 ∧ s.rd (Obj.laneState p i 1) = ustDisabled ∧ s.admits w = true) ∧
    (∃ (s : State) (p i : Nat), (16 ≤ i ∨ s.carrier p 1 i = none)) ∧
    (∃ (s : State) (p i j : Nat), i < 16 ∧ s.carrier p 1 i = some j ∧ s.rd (Obj.linkState p) ≠ linkUp) ∧
    (∃ (s : State) (p i j : Nat), i < 16 ∧ s.carrier p 1 i = some j ∧ s.rd (Obj.linkState p) = linkUp) :=
  ⟨⟨wired (((B.wr (Obj.linkState 0) linkUp).wr (Obj.laneState 0 17 0) ustSpare).wr (Obj.laneLogical 0 5 0) 3) 0 (flit 4).bytes, 0, flit 4, _, _, 3, 17, ⟨by decide, by decide, [],
     by decide +kernel, rfl⟩, by decide, by decide, rfl, by decide, Or.inl (by decide), by decide⟩,
   ⟨wired ((B.wr (Obj.linkState 0) linkUp).setLink 0 { LinkPort.init with subs := [⟨3, 3, 16, 3, ustRetired⟩] }) 0 ((flit 3).bytes), 0, flit 3, _, _, ⟨3, 3, 16, 3, ustRetired⟩,
     ⟨by decide, by decide, [], by decide +kernel, rfl⟩, by decide, by decide, by decide, by decide, by decide, rfl, by decide⟩,
   ⟨wired (((B.wr (Obj.linkState 0) linkUp).wr (Obj.laneState 0 16 0) ustSpare).wr (Obj.laneLogical 0 5 0) 3) 0 (flit 3).bytes, 0, flit 3, _, _, 3, ⟨by decide, by decide, [],
     by decide +kernel, rfl⟩, by decide, by decide, by decide, by decide, by decide, rfl, by decide⟩,
   ⟨linked 0 fun l => { l with subs := [⟨3, 3, 16, 2, ustRetired⟩] }, 0, 3, by decide⟩,
   ⟨((B.wr (Obj.linkState 14) linkUp).wr (Obj.laneState 14 16 1) ustSpare).wr (Obj.laneLogical 14 3 1) 3, 14, 3, 16, ⟨3, 3, 16, 3, ustSpare⟩, by decide⟩,
   ⟨((linked 0 fun l => { l with copies := [(3, 16)] }).wr (Obj.laneLogical 0 3 0) 3), 0, 3, 16, (3, 16), 3, by decide⟩,
   ⟨(linked 0 fun l => { l with switches := [⟨1, 3, 16, ustRetired, false⟩] }).wr (Obj.laneLogical 0 3 1) 3, 0, 1, 3, ⟨1, 3, 16, ustRetired, false⟩, 3, _, by decide, by decide, rfl,
     by decide⟩,
   ⟨(((((linked 14 fun l => { l with switches := [⟨0, 3, 16, ustRetired, false⟩] }).wr (Obj.laneLogical 14 2 0) 0xFF).wr (Obj.laserState 0 9) ustSpare).wr (Obj.laserState 0 1) ustActive).wr (Obj.laserBias 0 1) 65535),
     14, 3, ⟨0, 3, 16, ustRetired, false⟩, 3, _, by decide, by decide, rfl, by decide⟩,
   ⟨B, 0, 1, 3, 3, 17, ustSpare, false, _, rfl, by decide⟩,
   ⟨(B.wr (Obj.linkState 0) linkUp), 0, by decide⟩,
   ⟨B, 0, [18], _, _, _, rfl, rfl, rfl, by decide⟩,
   ⟨B, 0, 0, 0, _, rfl⟩,
   ⟨B, 0, [1, 2, 3], by decide⟩,
   ⟨B, 0, 1, 17, by decide⟩,
   ⟨(B.wr (Obj.linkState 0) linkUp), 0, 0, by decide⟩,
   ⟨B, 0, 0, 0, by decide⟩,
   ⟨(B.wr (Obj.laneState 0 0 1) ustSpare), op, 0, 0, by decide⟩,
   ⟨(B.wr (Obj.laneState 0 0 1) ustActive), op, 0, 0, _, _, by decide, by decide, by decide, by decide, rfl, by decide⟩,
   ⟨B, 0, 0, _, _, by decide, by decide, rfl⟩,
   ⟨(B.wr (Obj.laneState 0 17 1) ustDisabled), op, 0, 17, by decide⟩,
   ⟨B, 0, 16, by decide⟩,
   ⟨B, 0, 0, _, by decide, rfl, by decide⟩,
   ⟨(B.wr (Obj.linkState 0) linkUp), 0, 0, _, by decide, rfl, by decide⟩⟩

/-- The hypotheses of Training can be met. -/
theorem witness_Training :
    (∃ (s : State) (p n : Nat), p < 18 ∧ (s.link p).train = 1 ∧ s.trains p = true ∧ 16 ≤ n ∧ (s.link p).laserAtTrain = none) ∧
    (∃ (s : State) (p : Nat), p < 18 ∧ (s.link p).train = 2) ∧
    (∃ (s : State) (p a b c : Nat) (order : List Nat), p < 18 ∧ (s.link p).train = 3 ∧ (keptOrder order = true ∨ reversedOrder order = true) ∧
      (s.wr (Obj.farEnd p) (farWord b c a)).wiringOk p a b c = true) ∧
    (∃ (s : State) (p a b c : Nat) (order : List Nat), p < 18 ∧ (s.link p).train = 3 ∧ ((keptOrder order = false ∧
      reversedOrder order = false) ∨ (s.wr (Obj.farEnd p) (farWord b c a)).wiringOk p a b c = false)) ∧
    (∃ (s : State) (p : Nat) (a b : List Nat) (u : State), p < 18 ∧ (s.link p).train = 4 ∧ u = (s.relocked p (s.overLimit p a)).retrained p (s.overLimit p b) ∧
      16 ≤ (u.passing p 0 (s.overLimit p a)).length ∧ 16 ≤ (u.passing p 1 (s.overLimit p b)).length) ∧
    (∃ (s : State) (p : Nat) (a b : List Nat) (u : State), p < 18 ∧ (s.link p).train = 4 ∧ u = (s.relocked p (s.overLimit p a)).retrained p (s.overLimit p b) ∧
      ((u.passing p 0 (s.overLimit p a)).length < 16 ∨ (u.passing p 1 (s.overLimit p b)).length < 16)) ∧
    (∃ (s : State) (p : Nat), p < 18 ∧ (s.link p).train ≠ 4) ∧
    (∃ (s : State) (p : Nat), p < 18 ∧ s.rd (Obj.linkState p) ≠ linkUp ∧ s.trains p = true) ∧
    (∃ (s : State) (p i ber : Nat), p < 14 ∧ i < 18 ∧ ber ≤ 2 ^ 32 - 1 ∧ s.rd (Obj.laneState p i 1) = ustSpare) ∧
    (∃ (s : State) (p i : Nat), p < 14 ∧ s.rd (Obj.laneState p i 1) ≠ ustSpare ∧ s.rd (Obj.laneState p i 1) ≠ ustActive) ∧
    (∃ (s : State) (p i : Nat) (u : State), p < 14 ∧ i < 18 ∧ s.rd (Obj.laneState p i 1) = ustActive ∧ s.rd (Obj.linkState p) = linkUp ∧
      u = (s.setLink p { s.link p with fixed := [], fixedLast := (s.link p).fixed.filter fun c => s.rd (Obj.laneState p c.1 1) == ustActive || s.rd (Obj.laneState p c.1 1) == ustSpare })) :=
  ⟨⟨(linked 0 fun l => { l with train := 1 }).wr (Obj.portState 0) ustActive, 0, 16, by decide⟩,
   ⟨linked 0 fun l => { l with train := 2 }, 0, by decide⟩,
   ⟨linked 0 fun l => { l with train := 3 }, 0, farPosition B.pos 0, 0, farPort B.pos 0, List.range 18, by decide⟩,
   ⟨linked 0 fun l => { l with train := 3 }, 0, farPosition B.pos 0, 0, 99, List.range 18, by decide⟩,
   ⟨(List.range 18).foldl (fun s i => (s.wr (Obj.laneState 0 i 0) ustActive).wr (Obj.laneState 0 i 1) ustActive) (linked 0 fun l => { l with train := 4 }), 0,
     10 ^ 13 :: 10 ^ 13 :: List.replicate 16 0, List.replicate 18 0, _, by decide +kernel, by decide +kernel, rfl, by decide +kernel⟩,
   ⟨(List.range 18).foldl (fun s i => (s.wr (Obj.laneState 0 i 0) ustActive).wr (Obj.laneState 0 i 1) ustActive) (linked 0 fun l => { l with train := 4 }), 0,
     10 ^ 13 :: 10 ^ 13 :: 10 ^ 13 :: List.replicate 15 0, List.replicate 18 0, _, by decide +kernel, by decide +kernel, rfl, by decide +kernel⟩,
   ⟨B, 0, by decide⟩,
   ⟨B, 0, by decide⟩,
   ⟨B.wr (Obj.laneState 0 0 1) ustSpare, 0, 0, 4294967295, by decide⟩,
   ⟨B.wr (Obj.laneState 0 0 1) ustDisabled, 0, 0, by decide⟩,
   ⟨((B.wr (Obj.laneState 0 0 1) ustActive).wr (Obj.linkState 0) linkUp), 0, 0, _, by decide, by decide, by decide, by decide, rfl⟩⟩

/-- The hypotheses of PortControl can be met. -/
theorem witness_PortControl :
    (∃ (s : State) (e j : Nat), e < 4 ∧ j < 9 ∧ s.rd (Obj.laserState e j) ≠ ustFailed ∧ s.rd (Obj.laserState e j) ≠ ustRetired ∧
      ((s.goState (Obj.laserState e j) 0x07 (16 * e + j) ustFailed).addFail 0x07 (16 * e + j)).rd (Obj.laserState e 9) = ustSpare) ∧
    (∃ (s : State) (p : Nat), p < 18 ∧ s.rd (Obj.portState p) ≠ ustFailed) ∧
    (∃ (s : State) (w : Who) (p : Nat), isOpCus w = true ∧ p < 18 ∧ s.rd (Obj.portState p) = ustActive ∧ s.admits w = true) ∧
    (∃ (s : State) (w : Who) (p : Nat), isOpCus w = true ∧ p < 18 ∧ s.rd (Obj.portState p) = ustDisabled ∧ s.admits w = true) ∧
    (∃ (s : State) (w : Who) (p : Nat), isOpCus w = true ∧ p < 18 ∧ s.rd (Obj.portState p) = ustFailed ∧ s.admits w = true) ∧
    (∃ (s : State) (w : Who) (p : Nat), isOpCus w = true ∧ p < 18 ∧ s.trains p = true ∧ s.rd (Obj.linkState p) = linkUp ∧ s.admits w = true) ∧
    (∃ (s : State) (w : Who) (p : Nat), isOpCus w = true ∧ p < 18 ∧ s.trains p = true ∧ s.rd (Obj.linkState p) ≠ linkUp ∧ s.admits w = true) ∧
    (∃ (s : State) (w : Who), isOpCus w = false ∧ s.admits w = true) :=
  ⟨⟨B, 0, 0, by decide⟩,
   ⟨B, 0, by decide⟩,
   ⟨(B.wr (Obj.portState 0) ustActive), op, 0, by decide⟩,
   ⟨(B.wr (Obj.portState 0) ustDisabled), op, 0, by decide⟩,
   ⟨(B.wr (Obj.portState 0) ustFailed), op, 0, by decide⟩,
   ⟨(B.wr (Obj.linkState 0) linkUp), op, 0, by decide⟩,
   ⟨B, op, 0, by decide⟩,
   ⟨B, ten, by decide⟩⟩

/-- The hypotheses of Routing can be met. -/
theorem witness_Routing :
    (∃ (s : State) (p : Packet), s.rd (Obj.routeBankState p.parity) ≠ 2) ∧
    (∃ (s : State) (p : Packet), s.rd (Obj.routeBankState p.parity) = 2 ∧ adrCat p.dst = s.rd Obj.ownCatchment ∧ adrPos p.dst = s.pos) ∧
    (∃ (s : State) (p : Packet), s.rd (Obj.routeBankState p.parity) = 2 ∧ ¬(adrCat p.dst = s.rd Obj.ownCatchment ∧ adrPos p.dst = s.pos) ∧ bit (s.entFor p) 43 = false) ∧
    (∃ (s : State) (p : Packet), s.rd (Obj.routeBankState p.parity) = 2 ∧ ¬(adrCat p.dst = s.rd Obj.ownCatchment ∧ adrPos p.dst = s.pos) ∧ bit (s.entFor p) 43 = true ∧
      7 < p.level + bits (s.entFor p) 18 3) ∧
    (∃ (s : State) (p : Packet) (x : Nat) (l : List Nat), s.rd (Obj.routeBankState p.parity) = 2 ∧ ¬(adrCat p.dst = s.rd Obj.ownCatchment ∧ adrPos p.dst = s.pos) ∧
      bit (s.entFor p) 43 = true ∧ p.level + bits (s.entFor p) 18 3 ≤ 7 ∧ p.level < 7 ∧ p.cls = clsMG ∧ (portsIn (bits (s.entFor p) 0 18)).filter s.portUsable = x :: l) ∧
    (∃ (s : State) (p : Packet), s.rd (Obj.routeBankState p.parity) = 2 ∧ ¬(adrCat p.dst = s.rd Obj.ownCatchment ∧ adrPos p.dst = s.pos) ∧ p.level = 7) ∧
    (∃ (s : State) (l : List Nat) (k : Packet) (x : Nat), s.mostFree l k = some x) :=
  ⟨⟨B, pkt0, by decide⟩,
   ⟨B.wr (Obj.routeBankState 0) 2, { pkt0 with dst := B.fabAddr 3 }, by decide⟩,
   ⟨B.wr (Obj.routeBankState 0) 2, { pkt0 with dst := 9 }, by decide⟩,
   ⟨{ B.wr (Obj.routeBankState 0) 2 with router := { B.router with routes := [(65536, 2 ^ 43 + 2 ^ 18)] } }, { pkt0 with dst := 9, level := 7 }, by decide⟩,
   ⟨{ ((linked 0 id).wr (Obj.routeBankState 0) 2).wr (Obj.rtAdmit 0) 1 with router := { B.router with routes := [(65536, 2 ^ 43 + 1)] } }, { pkt0 with dst := 9, cls := clsMG }, 0,
     [], by decide⟩,
   ⟨B.wr (Obj.routeBankState 0) 2, { pkt0 with dst := 9, level := 7 }, by decide⟩,
   ⟨B, [0, 1], pkt0, 0, by decide⟩⟩

/-- The hypotheses of RouterBuffers can be met. -/
theorem witness_RouterBuffers :
    (∃ (s : State) (p : Nat) (w : RxWait), s.inputRoom p w.pkt = true) ∧
    (∃ (s : State) (p : Nat) (x w : RxWait), s.inputRoom p x.pkt = false ∧ s.inputRoom p w.pkt = true ∧ mgOrdered x.pkt w.pkt = false) ∧
    (∃ (s : State) (p : Nat) (x w : RxWait), s.inputRoom p x.pkt = false ∧ mgOrdered x.pkt w.pkt = true) ∧
    (∃ (s : State) (p b : Nat) (w : RxWait) (rest : List RxWait) (m : NMap Nat) (u : State), p < 18 ∧ s.landed p [] (s.link p).rxQ = some (w, rest) ∧ s.bankOpen p b = true ∧
      s.bankPlace p (banksFrom b) w.pkt.flits = some m ∧ u = ((s.setLink p { s.link p with rxQ := rest }).bump (Obj.rtPktsIn p)).bumpBy (Obj.rtFlitsIn p) w.pkt.flits) ∧
    (∃ (port : Nat) (p : Packet), port < 18 ∧ p.pool = false) ∧
    (∃ (s : State) (p : Nat) (l : List Nat) (n : Nat) (m : NMap Nat), l.Nodup ∧ s.bankPlace p l n = some m) ∧
    (∃ (s : State) (p : Nat) (k : Packet) (t : State) (m : NMap Nat) (q : Packet) (u : State) (id : Nat), 18 ≤ p ∧ p ≤ 22 ∧ s.injectHead p = some (k, t) ∧ k.malformed = false ∧
      (k.cls = clsMG ↔ p = 22) ∧
      q = { k with src := s.fabAddr (if p = 22 then 0 else p - 18), level := 0, parity := s.rd Obj.injectParity, pool := decide (5 < s.vcUse p (8 * k.cls) + k.flits) } ∧
      s.bankPlace p (List.range 8) q.flits = some m ∧ (id, u) = State.newId (((t.bump (Obj.rtPktsIn p)).bumpBy (Obj.rtFlitsIn p) q.flits).resident q.parity true)) ∧
    (∃ (s : State) (p : Nat) (k : Packet) (t : State), 18 ≤ p ∧ p ≤ 22 ∧ s.injectHead p = some (k, t) ∧ k.malformed = true) ∧
    (∃ (s : State) (p : Nat) (k : Packet) (t : State), 18 ≤ p ∧ p ≤ 22 ∧ s.injectHead p = some (k, t) ∧ k.malformed = false ∧ ¬(k.cls = clsMG ↔ p = 22)) ∧
    (∃ (s : State) (p : Nat), 18 ≤ p ∧ p ≤ 22 ∧ s.injectHead p = none) ∧
    (∃ (s : State) (p : Nat) (e : EgPkt), s.canInject p e.pkt = true) ∧
    (∃ (s : State) (p : Nat) (x e : EgPkt), s.canInject p x.pkt = false ∧ s.canInject p e.pkt = true ∧ x.pkt.cls ≠ e.pkt.cls) ∧
    (∃ (s : State) (p : Nat) (x e : EgPkt), s.canInject p x.pkt = false ∧ x.pkt.cls = e.pkt.cls) ∧
    (∃ (s : State) (out : Nat) (e : RtEntry) (p : Packet) (u v : State) (rest : List (Nat × Packet)), s.granted out = some (e, p) ∧ (takeFirst (fun j => j == (out,
      p)) e.jobs).map Prod.snd = some rest ∧ u = ((s.bump (Obj.rtPktsOut out)).bumpBy (Obj.rtFlitsOut out) p.flits).bump (Obj.rtClassOut out p.cls) ∧ v = (if out < 18 ∧
      p.probe = false ∧ bit (bits (u.entFor p) 22 18) out = true then u.bump (Obj.rtNonminimal out) else u)) ∧
    (∃ (out : Nat), 18 ≤ out ∧ out < 22) ∧
    (∃ (s : State) (out : Nat) (p : Packet), out < 18 ∧ s.reserveOk out p = true) ∧
    (∃ (s : State) (out : Nat) (p : Packet), out < 18 ∧ s.reserveOk out p = false) ∧
    (∃ (out : Nat) (p : Packet), out < 18 ∧ p.probe = false) ∧
    (∃ (s : State) (id : Nat) (e : RtEntry), s.router.bufs.find? (fun e => decide (e.id = id)) = some e) ∧
    (∃ (s : State) (id p : Nat) (w : RxWait), s.router.bufs.find? (fun e => decide (e.id = id)) = none ∧
      (List.range 18).find? (fun p => (s.link p).rxQ.any fun w => w.id == id) = some p ∧ (s.link p).rxQ.find? (fun w => decide (w.id = id)) = some w) ∧
    (∃ (s : State) (p b k : Nat), p ≤ 22 ∧ b ≤ 7 ∧ s.rd (Obj.rtBankState p b) = ustActive ∧ s.router.bufs.filter (fun e => e.inPort == p && decide (mgetD e.banks b 0 ≠ 0)) = [] ∧
      s.router.worn = [] ∧
      (List.range 8).find? (fun b' => decide (((s.goState (Obj.rtBankState p b) 0x08 (8 * p + b) ustFailed).addFail 0x08 (8 * p + b)).rd (Obj.rtBankState p b') = ustSpare)) = some k) ∧
    (∃ (s : State) (p b : Nat) (u : State), p ≤ 22 ∧ b ≤ 7 ∧ s.rd (Obj.rtBankState p b) = ustActive ∧
      s.router.bufs.filter (fun e => e.inPort == p && decide (mgetD e.banks b 0 ≠ 0)) = [] ∧ s.router.worn = [] ∧
      u = (s.goState (Obj.rtBankState p b) 0x08 (8 * p + b) ustFailed).addFail 0x08 (8 * p + b) ∧
      (List.range 8).find? (fun b' => decide (u.rd (Obj.rtBankState p b') = ustSpare)) = none) ∧
    (∃ (s : State) (port bank : Nat) (u : State), u = s.bumpSat (Obj.rtBankCe port bank) 32 ∧ u.rd (Obj.rtBankCe port bank) < u.rd Obj.rtBankCeLimit) ∧
    (∃ (s : State) (port bank : Nat) (u r : State), u = s.bumpSat (Obj.rtBankCe port bank) 32 ∧ u.rd Obj.rtBankCeLimit ≤ u.rd (Obj.rtBankCe port bank) ∧
      s.router.worn.contains (8 * port + bank) = false ∧ s.router.told.contains (8 * port + bank) = false ∧ u.rd (Obj.rtBankState port bank) = ustActive ∧
      u.spareBank port bank 1 = (r, true)) ∧
    (∃ (s : State) (p b : Nat), b < 8 ∧ s.router.worn = [8 * p + b] ∧ s.bankUse p b = 0) ∧
    (∃ (s : State) (w : Who) (b : Nat), isSteward w = true ∧ b ≤ 1 ∧ s.rd (Obj.routeBankResident b) = 0 ∧ s.admits w = true) ∧
    (∃ (s : State) (w : Who) (b : Nat), isSteward w = true ∧ b ≤ 1 ∧ s.rd (Obj.routeBankResident b) ≠ 0 ∧ s.admits w = true) ∧
    (∃ (s : State) (w : Who) (b : Nat), isSteward w = true ∧ b ≤ 1 ∧ s.admits w = true) ∧
    (∃ (s : State) (w : Who) (v : Bytes), isSteward w = true ∧ v.length = 8 + 8 * leAt v 2 2 ∧ byteAt v 0 ≤ 1 ∧ byteAt v 1 = 0 ∧ 0 < leAt v 2 2 ∧ leAt v 4 4 + leAt v 2 2 ≤ 64 ∧
      s.rd (Obj.routeBankState (byteAt v 0)) = 1 ∧ ((List.range (leAt v 2 2)).map fun i => leAt v (8 + 8 * i) 8).any (fun e => decide (e / 2 ^ 44 ≠ 0) || bit e 21) = false ∧
      s.admits w = true) ∧
    (∃ (s : State) (w : Who) (v : Nat), isSteward w = true ∧ v ≤ 1 ∧ s.rd (Obj.routeBankState v) = 2 ∧ s.admits w = true) ∧
    (∃ (s : State) (w : Who) (v : Nat), isSteward w = true ∧ v ≤ 1 ∧ s.rd (Obj.routeBankState v) ≠ 2 ∧ s.admits w = true) ∧
    (∃ (s : State) (w : Who) (p : Nat), isSteward w = true ∧ p < 18 ∧ s.admits w = true) ∧
    (∃ (s : State) (w : Who) (p : Nat), isSteward w = true ∧ p < 18 ∧ s.admits w = true) ∧
    (∃ (s : State) (w : Who), isSteward w = false ∧ s.admits w = true) :=
  ⟨⟨B, 0, ⟨0, 0, true, pkt0⟩, by decide⟩,
   ⟨B, 0, ⟨0, 0, true, { pkt0 with flits := 6 }⟩, ⟨0, 0, true, pkt0⟩, by decide⟩,
   ⟨B, 0, ⟨0, 0, true, { pkt0 with flits := 6, cls := clsMG }⟩, ⟨1, 0, true, { pkt0 with cls := clsMG }⟩, by decide⟩,
   ⟨linked 0 fun l => { l with rxQ := [⟨0, 0, true, pkt0⟩] }, 0, 0, ⟨0, 0, true, pkt0⟩, [], _, _, by decide, by decide, by decide, rfl, rfl⟩,
   ⟨0, pkt0, by decide⟩,
   ⟨(B.wr (Obj.rtBankState 0 0) ustActive), 0, [0], 5, [(0, 5)], by decide⟩,
   ⟨{ (B.wr (Obj.d2dState 48) ustActive) with mEgress := [{ pkt0 with cls := clsMG }] }, 22, { pkt0 with cls := clsMG }, _, _, _, _, _, by decide, by decide, rfl, by decide,
     by decide, rfl, rfl, rfl⟩,
   ⟨{ (B.wr (Obj.d2dState 48) ustActive) with mEgress := [{ pkt0 with cls := clsMG, flits := 2 }] }, 22, { pkt0 with cls := clsMG, flits := 2 }, _, by decide, by decide, rfl,
     by decide⟩,
   ⟨{ (B.wr (Obj.d2dState 48) ustActive) with mEgress := [{ pkt0 with cls := clsRQ }] }, 22, pkt0, _, by decide, by decide, rfl, by decide⟩,
   ⟨B, 22, by decide⟩,
   ⟨B, 18, ⟨1, pkt0, false⟩, by decide⟩,
   ⟨{ B with router := { B.router with bufs := [⟨7, 18, { pkt0 with flits := 5 }, 0, [], true, []⟩, ⟨8, 18, { pkt0 with flits := 1536, pool := true }, 0, [], true, []⟩] } }, 18, ⟨1,
     pkt0, false⟩, ⟨1, { pkt0 with cls := clsMG }, false⟩, by decide⟩,
   ⟨{ B with router := { B.router with bufs := [⟨7, 18, { pkt0 with flits := 5 }, 0, [], true, []⟩, ⟨8, 18, { pkt0 with flits := 1536, pool := true }, 0, [], true, []⟩] } }, 18, ⟨1,
     pkt0, false⟩, ⟨1, pkt0, true⟩, by decide⟩,
   ⟨buffered (ent 18 pkt0), 18, ent 18 pkt0, pkt0, _, _, [], by decide, by decide, rfl, rfl⟩,
   ⟨18, by decide⟩,
   ⟨B, 0, pkt0, by decide⟩,
   ⟨B, 0, { pkt0 with flits := 6 }, by decide⟩,
   ⟨0, pkt0, by decide⟩,
   ⟨buffered (ent 0 pkt0), 7, ent 0 pkt0, by decide⟩,
   ⟨linked 0 fun l => { l with rxQ := [⟨7, 0, true, pkt0⟩] }, 7, 0, ⟨7, 0, true, pkt0⟩, by decide⟩,
   ⟨{ (B.wr (Obj.rtBankState 0 0) ustActive) with router := { (B.wr (Obj.rtBankState 0 0) ustActive).router with worn := [] } }, 0, 0, _, by decide, by decide, by decide, by decide,
     by decide, rfl⟩,
   ⟨(B.wr (Obj.rtBankState 0 0) ustActive).wr (Obj.rtBankState 0 7) ustActive, 0, 0, _, by decide, by decide, by decide, by decide, by decide, rfl, by decide⟩,
   ⟨B, 0, 0, _, rfl, by decide⟩,
   ⟨B.wr (Obj.rtBankCe 0 0) 1000000, 0, 0, _, _, rfl, by decide, by decide, by decide, by decide, rfl⟩,
   ⟨{ B with router := { B.router with worn := [8] } }, 1, 0, by decide⟩,
   ⟨(B.wr (Obj.routeBankResident 0) 0), wh, 0, by decide⟩,
   ⟨B.wr (Obj.routeBankResident 0) 1, wh, 0, by decide⟩,
   ⟨B, wh, 0, by decide⟩,
   ⟨B.wr (Obj.routeBankState 0) 1, wh, leBytes 2 0 ++ leBytes 2 1 ++ leBytes 4 63 ++ leBytes 8 (2 ^ 43), by decide⟩,
   ⟨(B.wr (Obj.routeBankState 0) 2), wh, 0, by decide⟩,
   ⟨B, wh, 0, by decide⟩,
   ⟨B, wh, 0, by decide⟩,
   ⟨B, wh, 0, by decide⟩,
   ⟨B, ten, by decide⟩⟩

/-- The hypotheses of NetworkCommands can be met. -/
theorem witness_NetworkCommands :
    (∃ (s t : State), t.heldHit = s.heldHit) ∧
    (∃ (s t : State), s.heldHit < t.heldHit) ∧
    (∃ (s : State) (i c : Nat) (a : NiActive) (u : State) (d : Nat × Option Line × List Nat), NiStarts s i c 1 a u ∧ u.cmdDst c a.bytes = some d) ∧
    (∃ (s : State) (c : Nat) (a : NiActive) (off n : Nat) (r : AccR), off < nLen a.bytes ∧ n = min 65536 (nLen a.bytes - off) ∧
      s.read c .ni permRead ((niLoc c (nLocal a.bytes)).adv off) n = r ∧ r.st = .ok) ∧
    (∃ (s : State) (c : Nat) (a : NiActive) (off n : Nat) (r : AccR), off < nLen a.bytes ∧ n = min 65536 (nLen a.bytes - off) ∧
      s.read c .ni permRead ((niLoc c (nLocal a.bytes)).adv off) n = r ∧ r.st ≠ .ok) ∧
    (∃ (a : NiActive) (off : Nat), nLen a.bytes ≤ off) ∧
    (∃ (s : State) (i c : Nat) (d : NiCmd) (q : List NiCmd), (s.niq i c).queue = d :: q ∧ nOp d.bytes = 1 ∧ s.niMayStart i c d = true ∧ s.outsAt i + msgsOf d.bytes ≤ 8192 ∧
      s.niMalformed d.bytes = true) ∧
    (∃ (s : State) (i c : Nat) (a : NiActive) (u : State), NiStarts s i c 1 a u ∧ u.cmdDst c a.bytes = none) ∧
    (∃ (s : State) (i c : Nat) (a : NiActive) (u : State) (d : Nat), NiStarts s i c 2 a u ∧ u.rankAddr c (nRank a.bytes) = some d) ∧
    (∃ (a : NiActive) (off n : Nat), off < nLen a.bytes ∧ n = min 65536 (nLen a.bytes - off)) ∧
    (∃ (a : NiActive) (off : Nat), nLen a.bytes ≤ off) ∧
    (∃ (s : State) (i c : Nat) (a : NiActive) (u : State), NiStarts s i c 2 a u ∧ u.rankAddr c (nRank a.bytes) = none) ∧
    (∃ (s : State) (i c : Nat) (a : NiActive) (u : State) (d : Nat × Option Line × List Nat), NiStarts s i c 3 a u ∧ u.cmdDst c a.bytes = some d) ∧
    (∃ (s : State) (i c : Nat) (a : NiActive) (u : State) (d : Nat × Option Line × List Nat), NiStarts s i c 4 a u ∧ u.cmdDst c a.bytes = some d) ∧
    (∃ (s : State) (i c : Nat) (a : NiActive) (u : State) (d : Nat × Option Line × List Nat) (r : AccR), NiStarts s i c 5 a u ∧ a.origin = none ∧
      u.read c .ni permRead (niLoc c (nLocal a.bytes)) 64 = r ∧ r.st = .ok ∧ r.s.cmdDst c a.bytes = some d) ∧
    (∃ (s : State) (i c : Nat) (a : NiActive) (u : State) (d : Nat × Option Line × List Nat), NiStarts s i c 5 a u ∧ a.origin.isSome = true ∧ u.cmdDst c a.bytes = some d) ∧
    (∃ (s : State) (i c : Nat) (a : NiActive) (u : State) (op : Nat), NiStarts s i c op a u ∧ u.cmdDst c a.bytes = none) ∧
    (∃ (s : State) (i c : Nat) (a : NiActive) (u : State), NiStarts s i c 6 a u ∧ (u.rankAddr c (nRank a.bytes) = none ∨ u.rankAddr c (nCount a.bytes) = none)) ∧
    (∃ (s : State) (i c : Nat) (a : NiActive) (u : State) (d e : Nat), NiStarts s i c 6 a u ∧ u.rankAddr c (nRank a.bytes) = some d ∧ u.rankAddr c (nCount a.bytes) = some e) ∧
    (∃ (s : State) (i c : Nat) (a : NiActive) (u : State), NiStarts s i c 7 a u ∧ ((s.niq i c).active.find? fun a => nOp a.bytes = cDispatch ∧ !a.issued) = none) ∧
    (∃ (s : State) (i c : Nat) (a : NiActive), ((s.niq i c).active.find? fun a => nOp a.bytes = cDispatch ∧ !a.issued) = some a) ∧
    (∃ (u : State) (c : Nat) (a b : NiActive), b = { a with issued := false, ranks := ctxTable u.ni.ranks c, dests := ctxTable u.ni.dests c } ∧
      (b.destPairs.all fun p => (b.rankAddr (p / 256)).isSome) = true) ∧
    (∃ (u : State) (c : Nat) (a b : NiActive) (p : Nat), b = { a with issued := false, ranks := ctxTable u.ni.ranks c, dests := ctxTable u.ni.dests c } ∧ p ∈ b.destPairs ∧
      b.rankAddr (p / 256) = none) ∧
    (∃ (s : State) (i c : Nat) (a : NiActive) (k : Nat) (r : AccR) (d : Nat) (t : AccR), s.read c .ni permRead ((niLoc c (nRemote a.bytes)).adv (2 * k)) 2 = r ∧ r.st = .ok ∧
      leNat r.data < 4096 ∧ bit (mgetD a.dests (leNat r.data) 0) 31 = true ∧ a.rankAddr (bits (mgetD a.dests (leNat r.data) 0) 12 12) = some d ∧
      (r.s.updNiActive i c a.serial fun x => { x with cursor := k + 1 }).read c .ni permRead ((niLoc c (nLocal a.bytes)).adv (k / nSub a.bytes * nLen a.bytes)) (nLen a.bytes) = t ∧
      t.st = .ok) ∧
    (∃ (s : State) (c : Nat) (a : NiActive) (k : Nat) (r : AccR), s.read c .ni permRead ((niLoc c (nRemote a.bytes)).adv (2 * k)) 2 = r ∧ r.st = .ok ∧ leNat r.data < 4096 ∧
      bit (mgetD a.dests (leNat r.data) 0) 31 = false) ∧
    (∃ (s : State) (c : Nat) (a : NiActive) (k : Nat) (r : AccR), s.read c .ni permRead ((niLoc c (nRemote a.bytes)).adv (2 * k)) 2 = r ∧ r.st = .ok ∧ leNat r.data = 0xFFFF) ∧
    (∃ (s : State) (i c : Nat) (a : NiActive) (u : State) (x : Inbox), NiStarts s i c 8 a u ∧ x = ⟨c, nSub a.bytes, nLocal a.bytes, nLen a.bytes, nRank a.bytes, nOperand a.bytes,
      nCompare a.bytes % 65536, nTally a.bytes, nTallyTile a.bytes, nTallyValid a.bytes, 0, 0, 0, 0, false⟩) ∧
    (∃ (s : State) (i c : Nat) (a : NiActive) (u : State), NiStarts s i c 8 a u ∧ nCompare a.bytes % 65536 ≠ 0) ∧
    (∃ (b : Inbox), (b.fired = true ∨ b.doneGot ≠ b.expected ∨ b.placed ≠ b.announced)) ∧
    (∃ (b : Inbox), b.fired = false ∧ b.doneGot = b.expected ∧ b.placed = b.announced) ∧
    (∃ (s : State) (i c : Nat) (m : MsgPlan), s.blocked m.waiting = none ∧ s.canSend i c = true ∧ s.mustKey c = false ∧ s.rd (Obj.niState i) ≠ ustDisabled ∧
      s.rd (Obj.niState i) ≠ ustFailed) ∧
    (∃ (s : State) (m : MsgPlan) (d : Nat), s.blocked m.waiting = some d) ∧
    (∃ (s : State) (c : Nat) (m : MsgPlan), s.blocked m.waiting = none ∧ s.mustKey c = true) :=
  ⟨⟨B, B, by decide⟩,
   ⟨B, { B with heldHit := B.heldHit + 1 }, by decide⟩,
   ⟨niSt (cmd 1 0 2 own 4096 64 0 0 0), 0, 1, _, _, _, ⟨⟨0, cmd 1 0 2 own 4096 64 0 0 0, false, none, []⟩, [], rfl, rfl, by decide, by decide, by decide, by decide, rfl, rfl⟩, rfl⟩,
   ⟨niBase, 1, niAct (cmd 1 0 2 own 4096 64 0 0 0), 0, 64, _, by decide, by decide, rfl, by decide⟩,
   ⟨niBase, 1, niAct (cmd 1 0 2 (2 ^ 47) 4096 64 0 0 0), 0, 64, _, by decide, by decide, rfl, by decide⟩,
   ⟨niAct (cmd 1 0 2 own 4096 64 0 0 0), 64, by decide⟩,
   ⟨niSt (cmd 1 0 2 own 4096 0 0 0 0), 0, 1, ⟨0, cmd 1 0 2 own 4096 0 0 0 0, false, none, []⟩, [], rfl, by decide⟩,
   ⟨niSt (cmd 1 0 5 own 4096 64 0 0 0), 0, 1, _, _, ⟨⟨0, cmd 1 0 5 own 4096 64 0 0 0, false, none, []⟩, [], rfl, rfl, by decide, by decide, by decide, by decide, rfl, rfl⟩, by decide⟩,
   ⟨niSt (cmd 2 0 2 own 4096 64 0 0 0), 0, 1, _, _, _, ⟨⟨0, cmd 2 0 2 own 4096 64 0 0 0, false, none, []⟩, [], rfl, rfl, by decide, by decide, by decide, by decide, rfl, rfl⟩, rfl⟩,
   ⟨niAct (cmd 2 0 2 own 4096 64 0 0 0), 0, 64, by decide⟩,
   ⟨niAct (cmd 2 0 2 own 4096 64 0 0 0), 64, by decide⟩,
   ⟨niSt (cmd 2 0 5 own 4096 64 0 0 0), 0, 1, _, _, ⟨⟨0, cmd 2 0 5 own 4096 64 0 0 0, false, none, []⟩, [], rfl, rfl, by decide, by decide, by decide, by decide, rfl, rfl⟩, by decide⟩,
   ⟨niSt (cmd 3 0 2 own 4096 0 0 1 0), 0, 1, _, _, _, ⟨⟨0, cmd 3 0 2 own 4096 0 0 1 0, false, none, []⟩, [], rfl, rfl, by decide, by decide, by decide, by decide, rfl, rfl⟩, rfl⟩,
   ⟨niSt (cmd 4 0 2 0 0 0 0 7 0), 0, 1, _, _, _, ⟨⟨0, cmd 4 0 2 0 0 0 0 7 0, false, none, []⟩, [], rfl, rfl, by decide, by decide, by decide, by decide, rfl, rfl⟩, rfl⟩,
   ⟨niSt (cmd 5 0 2 own 1 0 0 0 0), 0, 1, _, _, _, _, ⟨⟨0, cmd 5 0 2 own 1 0 0 0 0, false, none, []⟩, [], rfl, rfl, by decide, by decide, by decide, by decide, rfl, rfl⟩, by decide,
     rfl, by decide, rfl⟩,
   ⟨niBase.setNiq 0 1 { NiQueue.init with queue := [⟨0, cmd 5 0 2 own 1 0 0 0 0, false, some (.tile 0 5 1 5 0), task0⟩], nextSerial := 1 }, 0, 1, _, _, _, ⟨⟨0,
     cmd 5 0 2 own 1 0 0 0 0, false, some (.tile 0 5 1 5 0), task0⟩, [], rfl, rfl, by decide, by decide, by decide, by decide, rfl, rfl⟩, by decide, rfl⟩,
   ⟨niSt (cmd 3 0 5 own 4096 0 0 1 0), 0, 1, _, _, 3, ⟨⟨0, cmd 3 0 5 own 4096 0 0 1 0, false, none, []⟩, [], rfl, rfl, by decide, by decide, by decide, by decide, rfl, rfl⟩,
     by decide⟩,
   ⟨niSt (cmd 6 0 5 0 4096 64 3 0 0), 0, 1, _, _, ⟨⟨0, cmd 6 0 5 0 4096 64 3 0 0, false, none, []⟩, [], rfl, rfl, by decide, by decide, by decide, by decide, rfl, rfl⟩,
     Or.inl (by decide)⟩,
   ⟨niSt (cmd 6 0 2 0 4096 64 3 0 0), 0, 1, _, _, _, _, ⟨⟨0, cmd 6 0 2 0 4096 64 3 0 0, false, none, []⟩, [], rfl, rfl, by decide, by decide, by decide, by decide, rfl, rfl⟩, rfl,
     rfl⟩,
   ⟨niSt (cmd 7 1 0 own 8192 16 1 0 0), 0, 1, _, _, ⟨⟨0, cmd 7 1 0 own 8192 16 1 0 0, false, none, []⟩, [], rfl, rfl, by decide, by decide, by decide, by decide, rfl, rfl⟩, by decide⟩,
   ⟨niBase.setNiq 0 1 { NiQueue.init with active := [{ niAct (cmd 7 1 0 own 8192 16 1 0 0) with issued := false }] }, 0, 1, _, rfl⟩,
   ⟨{ niBase with ni := { niBase.ni with dests := [(4096, 2 ^ 31 + 2 * 4096 + 5)] } }, 1, niAct (cmd 7 1 0 own 0 16 1 0 0), _, rfl, by decide⟩,
   ⟨{ niBase with ni := { niBase.ni with dests := [(4096, 2 ^ 31 + 2 * 4096 + 5)], ranks := [] } }, 1, niAct (cmd 7 1 0 own 0 16 1 0 0), _, 517, rfl, by decide⟩,
   ⟨niBase, 0, 1, { niAct (cmd 7 1 0 own 0 16 1 0 0) with ranks := [(2, 2 ^ 31 + at1)], dests := [(0, 2 ^ 31 + 2 * 4096 + 5)] }, 0, _, at1, _, rfl, by decide, by decide, by decide,
     by decide, rfl, by decide⟩,
   ⟨niBase, 1, niAct (cmd 7 1 0 own 0 16 1 0 0), 0, _, rfl, by decide⟩,
   ⟨{ niBase with mem := niBase.mem.put 0 [0xFF, 0xFF] }, 1, niAct (cmd 7 1 0 own 0 16 1 0 0), 0, _, rfl, by decide⟩,
   ⟨niSt (cmd 8 5 4 own 0 256 0 2 3), 0, 1, _, _, _, ⟨⟨0, cmd 8 5 4 own 0 256 0 2 3, false, none, []⟩, [], rfl, rfl, by decide, by decide, by decide, by decide, rfl, rfl⟩, rfl⟩,
   ⟨niSt (cmd 8 5 4 own 0 256 0 2 3), 0, 1, _, _, ⟨⟨0, cmd 8 5 4 own 0 256 0 2 3, false, none, []⟩, [], rfl, rfl, by decide, by decide, by decide, by decide, rfl, rfl⟩, by decide⟩,
   ⟨⟨1, 5, own, 256, 4, own, 3, 5, 0, true, 0, 0, 0, 0, false⟩, by decide⟩,
   ⟨⟨1, 5, own, 256, 4, own, 3, 5, 0, true, 0, 0, 3, 0, false⟩, by decide⟩,
   ⟨niBase, 0, 1, ⟨[at1], at1, none, poPut, 0, 4096, 64, 0, 0, zeros 64⟩, by decide⟩,
   ⟨{ niBase with ni := { niBase.ni with suspect50 := [1] } }, ⟨[at1], at1, none, poPut, 0, 4096, 64, 0, 0, zeros 64⟩, _, rfl⟩,
   ⟨B.wr (Obj.niEncRequired 1) 1, 1, ⟨[at1], at1, none, poPut, 0, 4096, 64, 0, 0, zeros 64⟩, by decide⟩⟩

/-- The hypotheses of NetworkQueues can be met. -/
theorem witness_NetworkQueues :
    (∃ (s : State) (w : Who) (i c v : Nat), isTenant w c = true ∧ i < 4 ∧ v < s.rd (Obj.niqSqEntries i c) ∧ s.admits w = true) ∧
    (∃ (s : State) (w : Who) (i c v : Nat), isTenant w c = true ∧ i < 4 ∧ v < s.rd (Obj.niqCqEntries i c) ∧ s.admits w = true) ∧
    (∃ (s : State) (w : Who) (i c v : Nat), isTenant w c = true ∧ i < 4 ∧ s.rd (Obj.niqSqEntries i c) ≤ v ∧ s.admits w = true) ∧
    (∃ (s : State) (i c : Nat) (a : AccR), i < 4 ∧ c < 64 ∧ s.ctxSt c = ctxOpen ∧ s.niqActive i c = true ∧ s.domUp 5 = true ∧ s.rd (Obj.niqSqHead i c) ≠ s.rd (Obj.niqSqTail i c) ∧
      s.read c .ni permRead ((niLoc c (s.rd (Obj.niqSqBase i c))).adv (64 * s.rd (Obj.niqSqHead i c))) 64 = a ∧ a.st = .ok ∧ a.s.heldHit = s.heldHit) ∧
    (∃ (s : State) (i c : Nat) (a : AccR) (u t : State), i < 4 ∧ c < 64 ∧ s.ctxSt c = ctxOpen ∧ s.niqActive i c = true ∧ s.domUp 5 = true ∧
      s.rd (Obj.niqSqHead i c) ≠ s.rd (Obj.niqSqTail i c) ∧ s.read c .ni permRead ((niLoc c (s.rd (Obj.niqSqBase i c))).adv (64 * s.rd (Obj.niqSqHead i c))) 64 = a ∧
      a.st = .violation ∧ a.win = true ∧ u = a.s.wr (Obj.niqSqHead i c) ((s.rd (Obj.niqSqHead i c) + 1) % s.rd (Obj.niqSqEntries i c)) ∧
      t = (u.setNiq i c { u.niq i c with nextSerial := (u.niq i c).nextSerial + 1 }).niEnd i c (u.niq i c).nextSerial (zeros 64) [] none .violation ndWindow 0 0) ∧
    (∃ (s : State) (i c serial : Nat) (a : NiActive), ((s.niq i c).active.find? fun a => a.serial = serial) = some a ∧ a.ready = true) ∧
    (∃ (s : State) (i c : Nat) (b : Bytes) (st : Status) (u : State), nTallyValid b = true ∧ nOp b ≠ cInboxArm ∧ u = s.decNow ⟨.ni i, nTallyTile b, nTally b, 1, st, causeNone, c⟩) ∧
    (∃ (s : State) (d : TallyDec), (s.tile d.tile).held = false) ∧
    (∃ (s : State) (d : TallyDec), (s.tile d.tile).held = true) ∧
    (∃ (s : State) (w : Who) (c : Nat) (v : Bytes) (k : Nat) (l : List Nat), isOpCus w = true ∧ c < 64 ∧ c ≠ 0 ∧ tableWrite v (fun e => decide (bits e 24 7 ≠ 0)) = .ok (k, l) ∧
      s.admits w = true) ∧
    (∃ (s : State) (w : Who) (c : Nat) (v : Bytes) (k : Nat) (l : List Nat), (isOpCus w || isTenant w c) = true ∧ c < 64 ∧
      tableWrite v (fun e => decide (bits e 24 7 ≠ 0) || decide (bits e 8 4 ≠ 0)) = .ok (k, l) ∧ s.admits w = true) ∧
    (∃ (s : State) (w : Who), isOpCus w = true ∧ s.admits w = true) ∧
    (∃ (s : State) (w : Who), isOpCus w = true ∧ s.admits w = true) ∧
    (∃ (s : State) (w : Who) (c v : Nat), isOpCus w = true ∧ c < 64 ∧ c ≠ 0 ∧ v < 0xFFFF ∧ s.ctxSt c = ctxOpen ∧ s.rd (Obj.niOutstanding c) = 0 ∧ s.ni.heldJobs.contains v = false ∧
      ((v ≠ 0 → ∀ k, k < 64 → k ≠ c → s.rd (Obj.niJob k) ≠ v)) ∧ s.admits w = true) ∧
    (∃ (s : State) (w : Who) (c v k : Nat), isOpCus w = true ∧ c < 64 ∧ c ≠ 0 ∧ v < 0xFFFF ∧ v ≠ 0 ∧ s.ctxSt c = ctxOpen ∧ k < 64 ∧ k ≠ c ∧ s.rd (Obj.niJob k) = v ∧ s.admits w = true) ∧
    (∃ (s : State) (w : Who) (c v : Nat), isCus w = true ∧ c < 64 ∧ v < 4 ∧ (s.slotSt c v = slotActive ∨ s.slotSt c v = slotRxOnly) ∧ s.admits w = true) ∧
    (∃ (s : State) (w : Who) (c : Nat), isCus w = true ∧ c < 64 ∧ s.admits w = true) ∧
    (∃ (s : State) (w : Who) (c v : Nat), isCus w = true ∧ c < 64 ∧ v < 4 ∧ s.slotSt c v ≠ slotActive ∧ s.slotSt c v ≠ slotRxOnly ∧ s.admits w = true) ∧
    (∃ (s : State) (c v k : Nat), c < 64 ∧ v < 4 ∧ k < 4 ∧ k ≠ v ∧ s.slotSt c k = slotActive) ∧
    (∃ (s : State) (c k : Nat), k < 4 ∧ s.slotSt c k = slotDraining) ∧
    (∃ (s : State) (w : Who) (i c : Nat), isCus w = true ∧ i < 4 ∧ c < 64 ∧ s.rd (Obj.niqState i c) = ustFrozen ∧ s.admits w = true) ∧
    (∃ (s : State) (w : Who) (i c : Nat), isCus w = true ∧ i < 4 ∧ c < 64 ∧ s.rd (Obj.niqState i c) = ustFrozen ∧ s.admits w = true) ∧
    (∃ (s : State) (w : Who) (i c : Nat), isCus w = true ∧ i < 4 ∧ c < 64 ∧ s.rd (Obj.niqState i c) ≠ ustFrozen ∧ s.admits w = true) ∧
    (∃ (s : State) (w : Who) (i : Nat), isOpCus w = true ∧ i < 4 ∧ s.rd (Obj.niState i) = ustActive ∧ s.admits w = true) ∧
    (∃ (s : State) (w : Who) (i : Nat), isOpCus w = true ∧ i < 4 ∧ s.rd (Obj.niState i) = ustDisabled ∧ s.mastersMay = true ∧ s.admits w = true) ∧
    (∃ (s : State) (w : Who) (i : Nat), isOpCus w = true ∧ i < 4 ∧ s.rd (Obj.niState i) = ustQuiescing ∧ s.admits w = true) ∧
    (∃ (s : State) (i : Nat), i < 4 ∧ s.rd (Obj.niState i) ≠ ustFailed) :=
  ⟨⟨B, ten, 0, 1, 0, by decide⟩,
   ⟨B, ten, 0, 1, 0, by decide⟩,
   ⟨B.wr (Obj.niqSqEntries 0 1) 16, ten, 0, 1, 16, by decide⟩,
   ⟨((niBase.wr (Obj.niqSqEntries 0 1) 16).wr (Obj.niqSqTail 0 1) 1).wr (Obj.niqSqBase 0 1) own, 0, 1, _, by decide, by decide, by decide, by decide, by decide, by decide, rfl,
     by decide⟩,
   ⟨((B.wr (Obj.niqState 0 1) ustActive).wr (Obj.niqSqEntries 0 1) 16).wr (Obj.niqSqTail 0 1) 1 |>.wr (Obj.niqSqBase 0 1) (2 ^ 41), 0, 1, _, _, _, by decide, by decide, by decide,
     by decide, by decide, by decide, rfl, by decide, by decide, rfl, rfl⟩,
   ⟨niBase.setNiq 0 1 { NiQueue.init with active := [niAct (cmd 1 0 2 own 4096 64 0 0 0)] }, 0, 1, 0, niAct (cmd 1 0 2 own 4096 64 0 0 0), by decide⟩,
   ⟨niBase, 0, 1, [1, 2, 5, 0] ++ zeros 60, .ok, _, by decide, by decide, rfl⟩,
   ⟨B, ⟨.ni 0, 1, 5, 1, .destLost, causeDest, 1⟩, by decide⟩,
   ⟨onTile B 1 fun t => { t with subst := some ⟨2, 500, false, false⟩ }, ⟨.ni 0, 1, 5, 1, .destLost, causeDest, 1⟩, by decide⟩,
   ⟨B, op, 1, leBytes 2 4095 ++ leBytes 2 1 ++ leBytes 4 (2 ^ 31 + 7), 4095, [2 ^ 31 + 7], by decide⟩,
   ⟨B, op, 1, leBytes 2 0 ++ leBytes 2 1 ++ leBytes 4 (2 ^ 31 + 7), 0, [2 ^ 31 + 7], by decide, by decide, rfl, by decide⟩,
   ⟨B, op, by decide⟩,
   ⟨B, op, by decide⟩,
   ⟨((B.wr (Obj.ctxState 1) ctxOpen).wr (Obj.niOutstanding 1) 0), op, 1, 0, by decide⟩,
   ⟨B.wr (Obj.niJob 2) 9, op, 1, 9, 2, by decide⟩,
   ⟨B.setSlot 1 0 slotRxOnly, cus, 1, 0, by decide, by decide, by decide, Or.inr (by decide), by decide⟩,
   ⟨B, cus, 1, by decide⟩,
   ⟨B, cus, 1, 0, by decide⟩,
   ⟨B.setSlot 1 0 slotActive, 1, 1, 0, by decide⟩,
   ⟨B.setSlot 1 0 slotDraining, 1, 0, by decide⟩,
   ⟨(B.wr (Obj.niqState 0 1) ustFrozen), cus, 0, 1, by decide⟩,
   ⟨(B.wr (Obj.niqState 0 1) ustFrozen), cus, 0, 1, by decide⟩,
   ⟨B, cus, 0, 1, by decide⟩,
   ⟨(B.wr (Obj.niState 0) ustActive), op, 0, by decide⟩,
   ⟨(B.wr (Obj.niState 0) ustDisabled), op, 0, by decide⟩,
   ⟨(B.wr (Obj.niState 0) ustQuiescing), op, 0, by decide⟩,
   ⟨B, 0, by decide⟩⟩

/-- The hypotheses of NetworkReceipt can be met. -/
theorem witness_NetworkReceipt :
    (∃ (s : State) (i c : Nat) (p : Packet) (d : Bytes) (r : RxMsg) (v : State) (a : AccR) (t : State), NewRequest s i c p d r v ∧ p.op = poPut ∧
      v.write c .ni (v.remoteNeed p.src permWrite) ((niLoc c p.target).adv (256 * p.index)) (d.take p.bytesIn) = a ∧ a.st = .ok ∧
      (a.s.countRx r p).2.got = (a.s.countRx r p).2.len ∧ t = (((a.s.countRx r p).1.land i c p.sub).ackRx (a.s.countRx r p).2 .ok 0 []) ∧ t.heldHit ≤ s.heldHit) ∧
    (∃ (s : State) (i c : Nat) (p : Packet) (d : Bytes) (r : RxMsg) (v : State) (a : AccR) (t : State), NewRequest s i c p d r v ∧ p.op = poPut ∧
      v.write c .ni (v.remoteNeed p.src permWrite) ((niLoc c p.target).adv (256 * p.index)) (d.take p.bytesIn) = a ∧ a.st = .ok ∧
      (a.s.countRx r p).2.got ≠ (a.s.countRx r p).2.len ∧ t = (a.s.countRx r p).1 ∧ t.heldHit ≤ s.heldHit) ∧
    (∃ (s : State) (i c : Nat) (p : Packet) (d : Bytes) (r : RxMsg) (v : State) (a : AccR) (t : State), NewRequest s i c p d r v ∧ p.op = poPut ∧
      v.write c .ni (v.remoteNeed p.src permWrite) ((niLoc c p.target).adv (256 * p.index)) (d.take p.bytesIn) = a ∧ a.st = .violation ∧ a.win = true ∧ r.op = poPut ∧
      r.epoch = a.s.rd (Obj.protEpoch r.ctx) ∧ t = ((a.s.bump Obj.rxWindowRefused).ackRx r .violation 0 []) ∧ t.heldHit ≤ s.heldHit) ∧
    (∃ (s : State) (i c : Nat) (p : Packet) (d : Bytes) (r : RxMsg) (u t : State), Receives s i c p d u ∧ p.op = poPut ∧ u.rxOf i c p = some r ∧
      (r.quarantined = true ∨ bit r.bitmap p.index = true) ∧ t = (u.bump Obj.rxDuplicates) ∧ t.heldHit ≤ s.heldHit) ∧
    (∃ (s : State) (i c : Nat) (p : Packet) (d : Bytes) (r : RxMsg) (v : State) (a : AccR) (t : State), NewRequest s i c p d r v ∧ p.op = poFwd ∧
      v.write c .ni (v.remoteNeed p.src permWrite) ((niLoc c p.target).adv (256 * p.index)) (d.take p.bytesIn) = a ∧ a.st = .ok ∧
      (a.s.countRx r p).2.got = (a.s.countRx r p).2.len ∧ t = ((a.s.countRx r p).1.ackRx (a.s.countRx r p).2 .ok 0 []) ∧ t.heldHit ≤ s.heldHit) ∧
    (∃ (s : State) (i c : Nat) (p : Packet) (d : Bytes) (r : RxMsg) (v : State) (a : AccR) (n : Nat) (t : State), NewRequest s i c p d r v ∧ p.op = poGet ∧
      n = min 65536 (max 1 (leAt d 0 4)) ∧ v.read c .ni (v.remoteNeed p.src permRead) (niLoc c p.target) n = a ∧ a.st = .ok ∧
      t = ((a.s.sendData_ { r with len := n } a.data true).updRx r.id fun x => { x with quarantined := true, len := n, got := n }) ∧ t.heldHit ≤ s.heldHit) ∧
    (∃ (s : State) (i c : Nat) (p : Packet) (d : Bytes) (r : RxMsg) (v : State) (m b : State × Status × Nat) (t : State), NewRequest s i c p d r v ∧
      (p.op = poAtomic32 ∨ p.op = poAtomic64) ∧ v.resolve c .ni (v.remoteNeed p.src permAtomic) (niLoc c p.target) (if p.op == poAtomic64 then 8 else 4) = m ∧ m.2.1 = .ok ∧
      m.1.atomic m.2.2 p.sub (p.op == poAtomic64) (leAt d 0 8) (leAt d 8 8) = b ∧ b.2.1 = .ok ∧ t = (b.1.ackRx r .ok 0 (leBytes 8 b.2.2 ++ zeros 8)) ∧ t.heldHit ≤ s.heldHit) ∧
    (∃ (s : State) (i c : Nat) (p : Packet) (d : Bytes) (r : RxMsg) (v : State) (a : AccR) (t : State), NewRequest s i c p d r v ∧ p.op = poNotify ∧
      (v.rd (Obj.notifyTail c) + 1) % v.rd (Obj.notifyEntries c) ≠ v.rd (Obj.notifyHead c) ∧
      v.write c .ni (v.remoteNeed p.src permWrite) ((niLoc c (v.rd (Obj.notifyBase c))).adv (16 * v.rd (Obj.notifyTail c))) (leBytes 8 (leAt d 0 8) ++ leBytes 3 p.src ++ leBytes 1 0 ++ zeros 4) = a ∧
      a.st = .ok ∧ t = ((a.s.wr (Obj.notifyTail c) ((v.rd (Obj.notifyTail c) + 1) % v.rd (Obj.notifyEntries c))).ackRx r .ok 0 []) ∧ t.heldHit ≤ s.heldHit) ∧
    (∃ (s : State) (i c : Nat) (p : Packet) (d : Bytes) (r : RxMsg) (v t : State), NewRequest s i c p d r v ∧ p.op = poNotify ∧
      (v.rd (Obj.notifyTail c) + 1) % v.rd (Obj.notifyEntries c) = v.rd (Obj.notifyHead c) ∧ t = (v.ackRx r .timeout 0 []) ∧ t.heldHit ≤ s.heldHit) ∧
    (∃ (s : State) (i c : Nat) (p : Packet) (d : Bytes) (r : RxMsg) (v t : State), NewRequest s i c p d r v ∧ p.op = poTask ∧
      t = { v.updRx r.id (fun x => { x with bitmap := 1, got := x.len }) with posts := v.posts ++ [⟨.ni i r.id, c, p.target, fit 64 d⟩] } ∧ t.heldHit ≤ s.heldHit) ∧
    (∃ (s : State) (i c : Nat) (p : Packet) (d : Bytes) (r : RxMsg) (v : State) (a : AccR) (dst : Nat) (t : State), NewRequest s i c p d r v ∧ p.op = poCopyTo ∧
      (v.updRx r.id fun x => { x with bitmap := 1, got := x.len }).read c .ni (v.remoteNeed p.src permRead) (niLoc c p.target) p.msgLen = a ∧ a.st = .ok ∧
      a.s.rankAddr c (leAt d 8 4 % 4096) = some dst ∧ t = (a.s.forward ⟨i, c, r.id, dst, leAt d 0 6, a.data⟩) ∧ t.heldHit ≤ s.heldHit) ∧
    (∃ (s : State) (j : FwdJob), s.fwdBar j = none ∧ s.outsAt j.ni < 8192) ∧
    (∃ (s : State) (j : FwdJob), s.fwdBar j = none ∧ 8192 ≤ s.outsAt j.ni) ∧
    (∃ (s : State) (j : FwdJob) (st : Status), s.fwdBar j = some st) ∧
    (∃ (s : State) (i : Nat) (mine : Packet → Bool) (iv : State → Packet → Bytes) (k : State → Nat → Packet → Bytes → State) (before : List Packet) (p : Packet) (rest : List Packet) (t : State),
      mine p = true ∧ before.any (rxBehind · p) = false ∧ t = (s.setNi i { s.niOf i with rxQ := before ++ rest }).rxServe i iv k p ∧ t.heldHit ≤ s.heldHit) ∧
    (∃ (mine : Packet → Bool) (before : List Packet) (p : Packet), (mine p = false ∨ before.any (rxBehind · p) = true)) ∧
    (∃ (s : State) (i c : Nat) (p : Packet) (d : Bytes) (r : RxMsg) (v t : State), NewRequest s i c p d r v ∧ p.op = poToken ∧ v.inbox c (p.target / 2 ^ 40) = none ∧
      t = ((v.bump Obj.dispatchRefused).ackRx r .ok (2 ^ 48 - 1) []) ∧ t.heldHit ≤ s.heldHit) ∧
    (∃ (s : State) (i c : Nat) (p : Packet) (d : Bytes) (r : RxMsg) (v : State) (b : Inbox) (t : State), NewRequest s i c p d r v ∧ p.op = poToken ∧
      v.inbox c (p.target / 2 ^ 40) = some b ∧ (b.capacity ≤ b.next ∨ b.slotBytes < p.msgLen) ∧ t = ((v.bump Obj.dispatchRefused).ackRx r .ok (2 ^ 48 - 1) []) ∧
      t.heldHit ≤ s.heldHit) ∧
    (∃ (s : State) (i c : Nat) (p : Packet) (d : Bytes) (r : RxMsg) (v : State) (b : Inbox) (x : State) (a : AccR) (t : State), NewRequest s i c p d r v ∧ p.op = poToken ∧
      v.inbox c (p.target / 2 ^ 40) = some b ∧ b.next < b.capacity ∧ p.msgLen ≤ b.slotBytes ∧
      x = (v.setInbox { b with next := b.next + 1 }).updRx r.id (fun _ => { r with place := some b.next }) ∧
      x.write c .ni (x.remoteNeed p.src permWrite) ((niLoc c (b.area + b.next * b.slotBytes)).adv (256 * p.index)) (d.take p.bytesIn) = a ∧ a.st = .ok ∧
      (a.s.countRx { r with place := some b.next } p).2.got ≠ (a.s.countRx { r with place := some b.next } p).2.len ∧ t = (a.s.countRx { r with place := some b.next } p).1 ∧
      t.heldHit ≤ s.heldHit) ∧
    (∃ (s : State) (i c : Nat) (p : Packet) (d : Bytes) (r : RxMsg) (v : State) (b : Inbox) (t : State), NewRequest s i c p d r v ∧ p.op = poDone ∧
      v.inbox c (p.target / 2 ^ 40) = some b ∧ t = ((v.ackRx r .ok 0 []).fireInbox i { b with doneGot := b.doneGot + 1, announced := b.announced + leAt d 0 4 }) ∧
      t.heldHit ≤ s.heldHit) ∧
    (∃ (s : State) (i c : Nat) (p : Packet) (d : Bytes) (u : State) (o : OutMsg) (t : State), Receives s i c p d u ∧ p.op = poAck ∧ u.outOf i c p = some o ∧ o.quarantined = false ∧
      o.waiting = [p.src] ∧ p.sub = 0 ∧ o.status = .ok ∧ o.op = poPut ∧ t = (u.outDone { o with waiting := [], status := .ok } .ok o.detail) ∧ t.heldHit ≤ s.heldHit) ∧
    (∃ (s : State) (i c : Nat) (p : Packet) (d : Bytes) (u : State) (o : OutMsg) (a : AccR) (t : State), Receives s i c p d u ∧ p.op = poData ∧ u.outOf i c p = some o ∧
      o.quarantined = false ∧ bit o.bitmap p.index = false ∧ o.op = poGet ∧ p.msgLen = o.len ∧
      u.write c .ni permWrite ((niLoc c o.localAddr).adv (256 * p.index)) (d.take p.bytesIn) = a ∧ a.st = .ok ∧ o.got + p.bytesIn = o.len ∧
      t = ((a.s.updOut o fun _ => { o with got := o.got + p.bytesIn, bitmap := o.bitmap + 2 ^ p.index }).outDone { o with got := o.got + p.bytesIn, bitmap := o.bitmap + 2 ^ p.index } .ok ndNone) ∧
      t.heldHit ≤ s.heldHit) ∧
    (∃ (s : State) (k : Nat) (o : OutMsg), s.ni.outs[k]? = some o ∧ o.quarantined = true) ∧
    (∃ (s : State) (id : Nat) (r : RxMsg), (s.ni.rxs.find? fun r => r.id = id ∧ !r.quarantined ∧ r.got < r.len) = some r) ∧
    (∃ (s : State) (i c slot m : Nat) (o : OutMsg), (s.ni.outs.find? fun o => o.ni = i ∧ o.ctx = c ∧ o.slot = slot ∧ o.msgId = m ∧ !o.quarantined) = some o) :=
  ⟨⟨got (niBase) (pkt clsRQ 1 0 64 4096 (zeros 64)), 0, 1, pkt clsRQ 1 0 64 4096 (zeros 64), _, _, _, _, _, ⟨_, ⟨[], rfl, by decide, by decide, rfl, by decide, by decide, rfl,
     opens (by decide) (by decide) (by decide) (by decide +kernel)⟩, rfl, by decide, rfl, rfl⟩, by decide +kernel, rfl, by decide +kernel, by decide +kernel, rfl,
     by decide +kernel⟩,
   ⟨got (niBase) (pkt clsRQ 1 0 512 4096 (zeros 256)), 0, 1, pkt clsRQ 1 0 512 4096 (zeros 256), _, _, _, _, _, ⟨_, ⟨[], rfl, by decide, by decide, rfl, by decide, by decide, rfl,
     opens (by decide) (by decide) (by decide) (by decide +kernel)⟩, rfl, by decide, rfl, rfl⟩, by decide +kernel, rfl, by decide +kernel, by decide +kernel, rfl,
     by decide +kernel⟩,
   ⟨got (niBase) (pkt clsRQ 1 0 64 (2 ^ 47) (zeros 64)), 0, 1, pkt clsRQ 1 0 64 (2 ^ 47) (zeros 64), _, _, _, _, _, ⟨_, ⟨[], rfl, by decide, by decide, rfl, by decide, by decide,
     rfl, opens (by decide) (by decide) (by decide) (by decide +kernel)⟩, rfl, by decide, rfl, rfl⟩, by decide +kernel, rfl, by decide +kernel, by decide +kernel,
     by decide +kernel, by decide +kernel, rfl, by decide +kernel⟩,
   ⟨got ({ niBase with ni := { niBase.ni with rxs := [⟨5, 0, 1, 0, at1, 0, clsRQ, 1, 64, 64, 1, 0, none, .ok, true, false⟩], nextRx := 6 } }) (pkt clsRQ 1 0 64 4096 (zeros 64)), 0,
     1, pkt clsRQ 1 0 64 4096 (zeros 64), _, ⟨5, 0, 1, 0, at1, 0, clsRQ, 1, 64, 64, 1, 0, none, .ok, true, false⟩, _, _, ⟨[], rfl, by decide, by decide, rfl, by decide, by decide,
     rfl, opens (by decide) (by decide) (by decide) (by decide +kernel)⟩, by decide +kernel, by decide +kernel, Or.inl rfl, rfl, by decide +kernel⟩,
   ⟨got (niBase) (pkt clsFW 8 0 64 4096 (zeros 64)), 0, 1, pkt clsFW 8 0 64 4096 (zeros 64), _, _, _, _, _, ⟨_, ⟨[], rfl, by decide, by decide, rfl, by decide, by decide, rfl,
     opens (by decide) (by decide) (by decide) (by decide +kernel)⟩, rfl, by decide, rfl, rfl⟩, by decide +kernel, rfl, by decide +kernel, by decide +kernel, rfl,
     by decide +kernel⟩,
   ⟨got (niBase) (pkt clsRQ 2 0 64 4096 (leBytes 4 64 ++ zeros 12)), 0, 1, pkt clsRQ 2 0 64 4096 (leBytes 4 64 ++ zeros 12), _, _, _, _, 64, _, ⟨_, ⟨[], rfl, by decide, by decide,
     rfl, by decide, by decide, rfl, opens (by decide) (by decide) (by decide) (by decide +kernel)⟩, rfl, by decide, rfl, rfl⟩, by decide +kernel, by decide +kernel, rfl,
     by decide +kernel, rfl, by decide +kernel⟩,
   ⟨got (niBase) (pkt clsRQ 3 0 16 4096 (leBytes 8 1 ++ zeros 8)), 0, 1, pkt clsRQ 3 0 16 4096 (leBytes 8 1 ++ zeros 8), _, _, _, _, _, _, ⟨_, ⟨[], rfl, by decide, by decide, rfl,
     by decide, by decide, rfl, opens (by decide) (by decide) (by decide) (by decide +kernel)⟩, rfl, by decide, rfl, rfl⟩, Or.inl (by decide), rfl, by decide +kernel, rfl,
     by decide +kernel, rfl, by decide +kernel⟩,
   ⟨got (niBase) (pkt clsRQ 5 0 16 0 (leBytes 8 1 ++ zeros 8)), 0, 1, pkt clsRQ 5 0 16 0 (leBytes 8 1 ++ zeros 8), _, _, _, _, _, ⟨_, ⟨[], rfl, by decide, by decide, rfl, by decide,
     by decide, rfl, opens (by decide) (by decide) (by decide) (by decide +kernel)⟩, rfl, by decide, rfl, rfl⟩, by decide +kernel, by decide +kernel, rfl, by decide +kernel, rfl,
     by decide +kernel⟩,
   ⟨got (niBase.wr (Obj.notifyHead 1) 1) (pkt clsRQ 5 0 16 0 (leBytes 8 1 ++ zeros 8)), 0, 1, pkt clsRQ 5 0 16 0 (leBytes 8 1 ++ zeros 8), _, _, _, _, ⟨_, ⟨[], rfl, by decide,
     by decide, rfl, by decide, by decide, rfl, opens (by decide) (by decide) (by decide) (by decide +kernel)⟩, rfl, by decide, rfl, rfl⟩, by decide +kernel, by decide +kernel,
     rfl, by decide +kernel⟩,
   ⟨got (niBase) (pkt clsRQ 6 0 64 1 (zeros 64)), 0, 1, pkt clsRQ 6 0 64 1 (zeros 64), _, _, _, _, ⟨_, ⟨[], rfl, by decide, by decide, rfl, by decide, by decide, rfl,
     opens (by decide) (by decide) (by decide) (by decide +kernel)⟩, rfl, by decide, rfl, rfl⟩, by decide +kernel, rfl, by decide +kernel⟩,
   ⟨got (niBase) (pkt clsRQ 7 0 64 4096 (leBytes 8 8192 ++ leBytes 4 3 ++ zeros 4)), 0, 1, pkt clsRQ 7 0 64 4096 (leBytes 8 8192 ++ leBytes 4 3 ++ zeros 4), _, _, _, _, _, _, ⟨_,
     ⟨[], rfl, by decide, by decide, rfl, by decide, by decide, rfl, opens (by decide) (by decide) (by decide) (by decide +kernel)⟩, rfl, by decide, rfl, rfl⟩, by decide +kernel,
     rfl, by decide +kernel, rfl, rfl, by decide +kernel⟩,
   ⟨B, ⟨0, 1, 0, at1, 4096, zeros 16⟩, by decide⟩,
   ⟨{ B with ni := { B.ni with outs := List.replicate 8192 (out0 poGet 64) } }, ⟨0, 1, 0, at1, 4096, zeros 16⟩, by decide +kernel⟩,
   ⟨{ B with ni := { B.ni with suspect50 := [1] } }, ⟨0, 1, 0, at1, 4096, zeros 16⟩, .destLost, by decide⟩,
   ⟨B, 0, fun p => p.cls == clsRQ, fun _ _ => [], fun s _ _ _ => s, [{ pkt0 with cls := clsRP }], pkt0, [], _, by decide, by decide, rfl, by decide⟩,
   ⟨fun p => p.cls == clsRQ, [pkt0], pkt0, by decide⟩,
   ⟨got (niBase) (pkt clsRQ 9 0 64 (5 * 2 ^ 40) (zeros 64)), 0, 1, pkt clsRQ 9 0 64 (5 * 2 ^ 40) (zeros 64), _, _, _, _, ⟨_, ⟨[], rfl, by decide, by decide, rfl, by decide,
     by decide, rfl, opens (by decide) (by decide) (by decide) (by decide +kernel)⟩, rfl, by decide, rfl, rfl⟩, by decide +kernel, by decide +kernel, rfl, by decide +kernel⟩,
   ⟨got ({ niBase with ni := { niBase.ni with inboxes := [⟨1, 5, 0, 256, 4, 4096, 2, 0, 0, false, 4, 0, 0, 0, false⟩] } }) (pkt clsRQ 9 0 64 (5 * 2 ^ 40) (zeros 64)), 0, 1,
     pkt clsRQ 9 0 64 (5 * 2 ^ 40) (zeros 64), _, _, _, ⟨1, 5, 0, 256, 4, 4096, 2, 0, 0, false, 4, 0, 0, 0, false⟩, _, ⟨_, ⟨[], rfl, by decide, by decide, rfl, by decide,
     by decide, rfl, opens (by decide) (by decide) (by decide) (by decide +kernel)⟩, rfl, by decide, rfl, rfl⟩, by decide +kernel, by decide +kernel, Or.inl (by decide), rfl,
     by decide +kernel⟩,
   ⟨got ({ niBase with ni := { niBase.ni with inboxes := [⟨1, 5, 0, 512, 4, 4096, 2, 0, 0, false, 1, 0, 0, 0, false⟩] } }) (pkt clsRQ 9 0 257 (5 * 2 ^ 40) (zeros 256)), 0, 1,
     pkt clsRQ 9 0 257 (5 * 2 ^ 40) (zeros 256), _, _, _, ⟨1, 5, 0, 512, 4, 4096, 2, 0, 0, false, 1, 0, 0, 0, false⟩, _, _, _, ⟨_, ⟨[], rfl, by decide, by decide, rfl, by decide,
     by decide, rfl, opens (by decide) (by decide) (by decide) (by decide +kernel)⟩, rfl, by decide, rfl, rfl⟩, by decide +kernel, by decide +kernel, by decide +kernel,
     by decide +kernel, rfl, rfl, by decide +kernel, by decide +kernel, rfl, by decide +kernel⟩,
   ⟨got ({ niBase with ni := { niBase.ni with inboxes := [⟨1, 5, 0, 256, 4, 4096, 2, 0, 0, false, 1, 0, 0, 0, false⟩] } }) (pkt clsRQ 10 0 16 (5 * 2 ^ 40) (leBytes 4 2 ++ zeros 12)),
     0, 1, pkt clsRQ 10 0 16 (5 * 2 ^ 40) (leBytes 4 2 ++ zeros 12), _, _, _, ⟨1, 5, 0, 256, 4, 4096, 2, 0, 0, false, 1, 0, 0, 0, false⟩, _, ⟨_, ⟨[], rfl, by decide, by decide,
     rfl, by decide, by decide, rfl, opens (by decide) (by decide) (by decide) (by decide +kernel)⟩, rfl, by decide, rfl, rfl⟩, by decide +kernel, by decide +kernel, rfl,
     by decide +kernel⟩,
   ⟨got ({ niBase with ni := { niBase.ni with outs := [out0 poPut 64] } }) (pkt clsRP 0xE 0 64 0 (zeros 16)), 0, 1, pkt clsRP 0xE 0 64 0 (zeros 16), _, _, out0 poPut 64, _, ⟨[], rfl,
     by decide, by decide, rfl, by decide, by decide, rfl, opens (by decide) (by decide) (by decide) (by decide +kernel)⟩, by decide +kernel, by decide +kernel, by decide +kernel,
     by decide +kernel, by decide +kernel, by decide +kernel, by decide +kernel, rfl, by decide +kernel⟩,
   ⟨got ({ niBase with ni := { niBase.ni with outs := [out0 poGet 64] } }) (pkt clsRP 0xF 0 64 0 (zeros 64)), 0, 1, pkt clsRP 0xF 0 64 0 (zeros 64), _, _, out0 poGet 64, _, _, ⟨[],
     rfl, by decide, by decide, rfl, by decide, by decide, rfl, opens (by decide) (by decide) (by decide) (by decide +kernel)⟩, by decide +kernel, by decide +kernel,
     by decide +kernel, by decide +kernel, by decide +kernel, by decide +kernel, rfl, by decide +kernel, by decide +kernel, rfl, by decide +kernel⟩,
   ⟨{ niBase with ni := { niBase.ni with outs := [{ out0 poPut 64 with quarantined := true }] } }, 0, { out0 poPut 64 with quarantined := true }, rfl, by decide⟩,
   ⟨{ niBase with ni := { niBase.ni with rxs := [⟨5, 0, 1, 0, at1, 0, clsRQ, 1, 64, 0, 0, 0, none, .ok, false, false⟩] } }, 5, ⟨5, 0, 1, 0, at1, 0, clsRQ, 1, 64, 0, 0, 0, none, .ok,
     false, false⟩, by decide⟩,
   ⟨{ niBase with ni := { niBase.ni with outs := [out0 poPut 64] } }, 0, 1, 0, 0, out0 poPut 64, by decide⟩⟩

/-- The hypotheses of PartialReceipt can be met. -/
theorem witness_PartialReceipt : ∃ (s : State) (id : Nat) (r : RxMsg), (s.ni.rxs.find? fun r => r.id = id ∧ !r.quarantined ∧ r.got < r.len) = some r :=
  ⟨(rxSt false), 0, _, rfl⟩

/-- The hypotheses of CollectiveSessions can be met. -/
theorem witness_CollectiveSessions :
    (∃ (s : State) (i c : Nat) (a : NiActive) (u : State) (x : ClSession), NiStarts s i c 9 a u ∧ u.clSess c (nSub a.bytes) = none ∧ x = ⟨c, nSub a.bytes, i, nLocal a.bytes,
      nRemote a.bytes, nLen a.bytes, nCount a.bytes % 256, bits (nCount a.bytes) 8 8, bits (nCount a.bytes) 16 8, nCount a.bytes / 2 ^ 24, lineOf (nOperand a.bytes % 65536),
      if bit (nOperand a.bytes) 32 then some (lineOf (bits (nOperand a.bytes) 16 16)) else none, [], 0, none, 0, [], [.empty, .empty], [.empty, .empty], [], none, none⟩) ∧
    (∃ (s : State) (i c : Nat) (a : NiActive) (u : State) (x : ClSession), NiStarts s i c 10 a u ∧ (u.ni.sessions.find? fun x => x.ctx = c ∧ x.num = nSub a.bytes ∧
      x.closing.isNone) = some x ∧ x.broken = none ∧ u.mustKey c = false) ∧
    (∃ (s : State) (i c : Nat) (a : NiActive) (u : State) (x : ClSession), NiStarts s i c 10 a u ∧ (u.ni.sessions.find? fun x => x.ctx = c ∧ x.num = nSub a.bytes ∧
      x.closing.isNone) = some x ∧ x.broken = none ∧ u.mustKey c = true) ∧
    (∃ (s : State) (i c : Nat) (a : NiActive) (u : State) (x : ClSession) (st : Status × Nat), NiStarts s i c 10 a u ∧ (u.ni.sessions.find? fun x => x.ctx = c ∧ x.num = nSub a.bytes ∧
      x.closing.isNone) = some x ∧ x.broken = some st) ∧
    (∃ (s : State) (i c : Nat) (a : NiActive) (u : State) (x : ClSession), NiStarts s i c 11 a u ∧ (u.ni.sessions.find? fun x => x.ctx = c ∧ x.num = nSub a.bytes ∧
      x.closing.isNone) = some x) ∧
    (∃ (x : ClSession) (k : Nat), x.closing = some k ∧ x.running = none ∧ x.queued = []) ∧
    (∃ (s : State) (c n : Nat) (x : ClSession) (k : Nat) (l : List Nat), s.clSess c n = some x ∧ x.queued = k :: l ∧ x.running = none) ∧
    (∃ (s : State) (c n : Nat) (x : ClSession), s.clSess c n = some x ∧ x.running.isSome = true) ∧
    (∃ (g : ClStage) (m off : Nat), bit (mgetD g.heard off 0) m = true) ∧
    (∃ (a : Nat), bf16.dec a = .nan) ∧
    (∃ (s : State) (i : Nat) (x : ClSession) (p : Packet) (d : Bytes) (u : State) (g : ClStage) (t : State), ReceivesCl s i 0 x p d true u ∧ x.kind ≤ 1 ∧
      (u.myShard x p.clStage).1 ≤ p.clOff ∧ p.clOff < (u.myShard x p.clStage).1 + (u.myShard x p.clStage).2 ∧
      bit (x.line p.clStage).mask ((x.line p.clStage).idxOf (p.src / 4 % 64)) = true ∧ (x.line p.clStage).posOf ((x.line p.clStage).idxOf (p.src / 4 % 64)) = p.src / 4 % 64 ∧
      bit (mgetD (x.nxt.getD p.clStage .empty).heard p.clOff 0) ((x.line p.clStage).idxOf (p.src / 4 % 64)) = false ∧
      g = ((x.nxt.getD p.clStage .empty).reduce x u.fresh ((x.line p.clStage).idxOf (p.src / 4 % 64)) p.clOff d).1 ∧
      t = { u.setSess { x with nxt := stageSet x.nxt p.clStage g } with fresh := u.fresh + 128 } ∧ t.heldHit ≤ s.heldHit) ∧
    (∃ (s : State) (i : Nat) (x : ClSession) (p : Packet) (d : Bytes) (u : State) (g : ClStage) (t : State), ReceivesCl s i 0 x p d false u ∧ x.kind ≤ 1 ∧
      (u.myShard x p.clStage).1 ≤ p.clOff ∧ p.clOff < (u.myShard x p.clStage).1 + (u.myShard x p.clStage).2 ∧
      bit (x.line p.clStage).mask ((x.line p.clStage).idxOf (p.src / 4 % 64)) = true ∧ (x.line p.clStage).posOf ((x.line p.clStage).idxOf (p.src / 4 % 64)) = p.src / 4 % 64 ∧
      bit (mgetD (x.cur.getD p.clStage .empty).heard p.clOff 0) ((x.line p.clStage).idxOf (p.src / 4 % 64)) = false ∧
      g = ((x.cur.getD p.clStage .empty).reduce x u.fresh ((x.line p.clStage).idxOf (p.src / 4 % 64)) p.clOff d).1 ∧ p.clStage = x.stage ∧
      t = State.clAdvance 2 (State.clOwner { u.setSess { x with cur := stageSet x.cur p.clStage g } with fresh := u.fresh + 128 } x.ctx x.num) x.ctx x.num ∧ t.heldHit ≤ s.heldHit) ∧
    (∃ (s : State) (i : Nat) (x : ClSession) (p : Packet) (d : Bytes) (u t : State), ReceivesCl s i 0 x p d false u ∧ 1 < x.kind ∧ t = (u.bump Obj.clUnexpected) ∧
      t.heldHit ≤ s.heldHit) ∧
    (∃ (s : State) (i : Nat) (x : ClSession) (p : Packet) (d : Bytes) (u : State) (a : AccR) (t : State), ReceivesCl s i 1 x p d false u ∧ x.running.isSome = true ∧
      x.parts.contains (clPart p.clStage p.clOff) = false ∧ u.write x.ctx .ni permWrite ((niLoc x.ctx x.resAddr).adv (256 * p.clOff)) (fit 256 d) = a ∧ a.st = .ok ∧
      t = (State.clAdvance 2 (a.s.setSess { x with parts := x.parts ++ [clPart p.clStage p.clOff] }) x.ctx x.num) ∧ t.heldHit ≤ s.heldHit) ∧
    (∃ (s : State) (i : Nat) (x : ClSession) (p : Packet) (d : Bytes) (u t : State), ReceivesCl s i 1 x p d false u ∧ x.parts.contains (clPart p.clStage p.clOff) = true ∧
      t = (u.bump Obj.rxDuplicates) ∧ t.heldHit ≤ s.heldHit) ∧
    (∃ (s : State) (c n : Nat) (x : ClSession), s.clSess c n = some x ∧ x.running.isSome = true) ∧
    (∃ (s : State) (x : ClSession), s.clSess x.ctx x.num = some x ∧ x.closing = none) ∧
    (∃ (s : State) (pos : Nat), bit (s.rd Obj.suspectMask) pos = true ∧ s.ni.suspect50.contains pos = false) :=
  ⟨⟨niSt (cmd 9 5 0 own 8192 512 0 3 0), 0, 1, _, _, _, ⟨⟨0, cmd 9 5 0 own 8192 512 0 3 0, false, none, []⟩, [], rfl, rfl, by decide, by decide, by decide, by decide, rfl, rfl⟩,
     by decide +kernel, rfl⟩,
   ⟨clSt (sess0 0 none [] []) (cmd 10 5 0 0 0 0 0 0 0), 0, 1, _, _, sess0 0 none [] [], ⟨⟨0, cmd 10 5 0 0 0 0 0 0 0, false, none, []⟩, [], rfl, rfl, by decide, by decide, by decide,
     by decide, rfl, rfl⟩, by decide +kernel⟩,
   ⟨(clSt (sess0 0 none [] []) (cmd 10 5 0 0 0 0 0 0 0)).wr (Obj.niEncRequired 1) 1, 0, 1, _, _, sess0 0 none [] [], ⟨⟨0, cmd 10 5 0 0 0 0 0 0 0, false, none, []⟩, [], rfl, rfl,
     by decide, by decide, by decide, by decide, rfl, rfl⟩, by decide +kernel⟩,
   ⟨clSt ({ sess0 0 none [] [] with broken := some (.destLost, ndNone) }) (cmd 10 5 0 0 0 0 0 0 0), 0, 1, _, _, { sess0 0 none [] [] with broken := some (.destLost, ndNone) },
     (.destLost, ndNone), ⟨⟨0, cmd 10 5 0 0 0 0 0 0 0, false, none, []⟩, [], rfl, rfl, by decide, by decide, by decide, by decide, rfl, rfl⟩, by decide +kernel⟩,
   ⟨clSt (sess0 0 none [] []) (cmd 11 5 0 0 0 0 0 0 0), 0, 1, _, _, sess0 0 none [] [], ⟨⟨0, cmd 11 5 0 0 0 0 0 0 0, false, none, []⟩, [], rfl, rfl, by decide, by decide, by decide,
     by decide, rfl, rfl⟩, by decide +kernel⟩,
   ⟨{ sess0 0 none [] [] with closing := some 4 }, 4, by decide⟩,
   ⟨clSt (sess0 0 none [] [8]) [], 1, 5, sess0 0 none [] [8], 8, [], by decide⟩,
   ⟨clSt (sess0 0 (some 4) [] []) [], 1, 5, sess0 0 (some 4) [] [], by decide⟩,
   ⟨{ ClStage.empty with heard := [(0, 1)] }, 0, 0, by decide⟩,
   ⟨0x7FC0, by decide⟩,
   ⟨got (clSt (sess0 0 none [] []) []) (clPkt 0 1 0), 0, sess0 0 none [] [], clPkt 0 1 0, _, _, _, _, ⟨[], 1, rfl, by decide, by decide, rfl, by decide, by decide, rfl,
     opens (by decide) (by decide) (by decide) (by decide +kernel), by decide, by decide, by decide, by decide, by decide, by decide, by decide⟩, by decide +kernel,
     by decide +kernel, by decide +kernel, by decide +kernel, by decide +kernel, by decide +kernel, rfl, rfl, by decide +kernel⟩,
   ⟨got (clSt (sess0 0 none [] []) []) (clPkt 0 0 0), 0, sess0 0 none [] [], clPkt 0 0 0, _, _, _, _, ⟨[], 1, rfl, by decide, by decide, rfl, by decide, by decide, rfl,
     opens (by decide) (by decide) (by decide) (by decide +kernel), by decide, by decide, by decide, by decide, by decide, by decide, by decide⟩, by decide +kernel,
     by decide +kernel, by decide +kernel, by decide +kernel, by decide +kernel, by decide +kernel, rfl, by decide +kernel, rfl, by decide +kernel⟩,
   ⟨got (clSt (sess0 2 none [] []) []) (clPkt 0 0 0), 0, sess0 2 none [] [], clPkt 0 0 0, _, _, _, ⟨[], 1, rfl, by decide, by decide, rfl, by decide, by decide, rfl,
     opens (by decide) (by decide) (by decide) (by decide +kernel), by decide, by decide, by decide, by decide, by decide, by decide, by decide⟩, by decide +kernel, rfl,
     by decide +kernel⟩,
   ⟨got (clSt (sess0 0 (some 4) [] []) []) (clPkt 1 0 1), 0, sess0 0 (some 4) [] [], clPkt 1 0 1, _, _, _, _, ⟨[], 1, rfl, by decide, by decide, rfl, by decide, by decide, rfl,
     opens (by decide) (by decide) (by decide) (by decide +kernel), by decide, by decide, by decide, by decide, by decide, by decide, by decide⟩, by decide +kernel,
     by decide +kernel, rfl, by decide +kernel, rfl, by decide +kernel⟩,
   ⟨got (clSt (sess0 0 (some 4) [1] []) []) (clPkt 1 0 1), 0, sess0 0 (some 4) [1] [], clPkt 1 0 1, _, _, _, ⟨[], 1, rfl, by decide, by decide, rfl, by decide, by decide, rfl,
     opens (by decide) (by decide) (by decide) (by decide +kernel), by decide, by decide, by decide, by decide, by decide, by decide, by decide⟩, by decide +kernel, rfl,
     by decide +kernel⟩,
   ⟨clSt (sess0 0 (some 4) [] []) [], 1, 5, sess0 0 (some 4) [] [], by decide⟩,
   ⟨clSt (sess0 0 none [] []) [], sess0 0 none [] [], by decide⟩,
   ⟨B.wr Obj.suspectMask 2, 1, by decide⟩⟩

end Sys2Proof.Tests
end

