-- ==== Sys2Proof/Tests/WitnessManagement.lean ====
section
/-! SUPPORT. States and operands that meet the hypotheses of the statements on security, management, firmware, bring-up and the recorder: one theorem for each statement, one clause after another. -/

namespace Sys2Proof.Tests

set_option maxRecDepth 100000
set_option Elab.async false

open Sys2Proof Sys2Proof.Machine

/-- The hypotheses of TrustCommands can be met. -/
theorem witness_TrustCommands :
    (∃ (s : State) (w : Who) (c : Nat) (b : Bytes), ScTakes s w c 1 b ∧ s.admits w = true) ∧
    (∃ (s : State) (w : Who) (c : Nat) (b : Bytes), ScTakes s w c 2 b ∧ s.admits w = true) ∧
    (∃ (s : State) (w : Who) (c : Nat) (b : Bytes), ScTakes s w c 4 b ∧ s.admits w = true) ∧
    (∃ (s : State) (c : Nat) (b : Bytes) (r : State × Nat), s.scPerform c b = r ∧ r.2 ≠ scHeld) ∧
    (∃ (s : State) (c : Nat) (b : Bytes) (r : State × Nat), s.scPerform c b = r ∧ r.2 = scHeld) ∧
    (∃ (s : State) (c : Nat) (b : Bytes) (k : Nat), s.sec.scRuns = [(c, ⟨b, some k⟩)]) ∧
    (∃ (s : State) (c : Nat) (b : Bytes), s.sec.scRuns = [(c, ⟨b, none⟩)]) ∧
    (∃ (s : State) (w : Who) (c : Nat) (b : Bytes), byteAt b 0 = 1 ∧ (isCus w || isTenant w c) = true ∧ s.sbUnowned w.session = false ∧ c < 64 ∧ b.length = 64 ∧
      s.rd (Obj.scStatus c) / 256 = 1 ∧ s.admits w = true) ∧
    (∃ (s : State) (w : Who) (c : Nat) (b : Bytes) (k : Nat), ScTakes s w c 3 b ∧ allZero (slice b 1 7) = true ∧ allZero (slice b 16 8) = true ∧ allZero (slice b 28 36) = true ∧
      ((List.range 4).find? fun k => s.slotSt c k == slotRxOnly && mgetD s.sec.slotEpochs (4 * c + k) 0 == leAt b 24 4) = some k ∧ s.rd Obj.ptpState = 1 ∧
      s.rd Obj.ptpOffsetAbsNs ≤ 20000 ∧ s.pkgTime + 1000000 ≤ leAt b 8 8 ∧ leAt b 8 8 ≤ s.pkgTime + 10000000000 ∧ s.admits w = true) ∧
    (∃ (s : State) (c : Nat) (b : Bytes), 1 ≤ byteAt b 1 ∧ byteAt b 1 ≤ 63 ∧ allZero (slice b 2 6) = true ∧ allZero (slice b 28 36) = true ∧ scBadAddr (leAt b 8 8) = false ∧
      scBadAddr (leAt b 16 8) = false ∧ s.rd (Obj.niJob c) ≠ 0 ∧ leAt b 24 4 ≤ s.rd (Obj.keyEpochHigh c)) ∧
    (∃ (s : State) (c k : Nat), k < 4 ∧ (s.rdo (Obj.keySlotState c)).length = 4) ∧
    (∃ (s : State) (c k : Nat), c < 64 ∧ s.rd (Obj.activatePending c) ≠ 0 ∧ s.rd (Obj.activatePending c) ≤ s.pkgTime ∧ mget s.sec.actSlot c = some k) ∧
    (∃ (s : State) (c : Nat), s.pkgTime < s.rd (Obj.activatePending c)) ∧
    (∃ (s : State), s.rd Obj.rngHealth ≠ 1) ∧
    (∃ (s : State), s.rd Obj.rngHealth = 1) ∧
    (∃ (s : State) (w : Who) (v : Bytes) (r : State × Nat), isCus w = true ∧ v.length = 320 ∧ s.arOk v = true ∧ s.storeOct w Obj.authorityRecord v = r ∧ s.admits w = true) ∧
    (∃ (s : State) (w : Who) (v : Bytes), isCus w = true ∧ v.length = 320 ∧ s.arOk v = false ∧ s.admits w = true) ∧
    (∃ (s : State) (w : Who), isCus w = false ∧ s.unowned = false ∧ s.admits w = true) ∧
    (∃ (s : State) (w : Who) (k : Nat) (v : Bytes) (r : State × Nat), isOpCus w = true ∧ s.sbUnowned w.session = false ∧ k < 8 ∧ v.length = 64 ∧ ((∀ c,
      c < 64 → s.ctxSt c = ctxFree ∨ mget s.ctxs.imageKey c ≠ some k)) ∧ s.storeOct w (Obj.tenantImageKey k) v = r ∧ s.admits w = true) ∧
    (∃ (s : State) (w : Who) (k : Nat) (v : Bytes) (c : Nat), isOpCus w = true ∧ s.sbUnowned w.session = false ∧ k < 8 ∧ v.length = 64 ∧ c < 64 ∧ s.ctxSt c ≠ ctxFree ∧
      mget s.ctxs.imageKey c = some k ∧ s.admits w = true) ∧
    (∃ (s : State) (w : Who) (n : Bytes) (x : Session), 1 ≤ w.role ∧ w.role ≤ 4 ∧ n.length = 32 ∧ s.session? w.session = some x ∧ s.admits w = true) ∧
    (∃ (s : State) (w : Who) (c : Nat) (v : Bytes), (isOpCus w || isTenant w c) = true ∧ c < 64 ∧ v.length = 48 ∧
      (s.sec.attest.filter fun r => match r with | .ctx k _ => k == c | _ => false).length < 4 ∧ s.admits w = true) ∧
    (∃ (s : State) (w : Who) (c : Nat) (v : Bytes), (isOpCus w || isTenant w c) = true ∧ c < 64 ∧ v.length = 48 ∧
      4 ≤ (s.sec.attest.filter fun r => match r with | .ctx k _ => k == c | _ => false).length ∧ s.admits w = true) ∧
    (∃ (s : State) (sid : Nat) (n : Bytes) (x : Session) (rest : List AttReq) (u : State), s.sec.attest = .pkg sid n :: rest ∧ s.session? sid = some x ∧ s.hasIdentity = true ∧
      u = (s.setSession { x with pkgReport := s.report none n, pkgStatus := 0x0200 }).bump Obj.attestRequests) ∧
    (∃ (s : State) (sid : Nat) (n : Bytes) (x : Session) (rest : List AttReq) (u : State), s.sec.attest = .pkg sid n :: rest ∧ s.session? sid = some x ∧ s.hasIdentity = false ∧
      u = s.setSession { x with pkgStatus := 0x0204 }) ∧
    (∃ (s : State) (c : Nat) (v : Bytes) (rest : List AttReq) (r : State × Nat), s.sec.attest = .ctx c v :: rest ∧ allZero (slice v 40 8) = true ∧ s.ctxSt c ≠ ctxFree ∧
      s.hasIdentity = true ∧ s.scWrite c (leAt v 32 8) (s.report (some c) (v.take 32)) = r) :=
  ⟨⟨B, cus, 1, [1] ++ zeros 63, ⟨by decide, by decide, by decide, by decide, by decide, by decide, by decide, by decide⟩, rfl⟩,
   ⟨B, cus, 1, [2] ++ zeros 63, ⟨by decide, by decide, by decide, by decide, by decide, by decide, by decide, by decide⟩, rfl⟩,
   ⟨B, cus, 1, [4] ++ zeros 63, ⟨by decide, by decide, by decide, by decide, by decide, by decide, by decide, by decide⟩, rfl⟩,
   ⟨B, 1, [], _, rfl, by decide⟩,
   ⟨(onTile B 0 fun t => { t with subst := some ⟨3, 500, false, false⟩ }), 1, [5] ++ zeros 7 ++ leBytes 8 own ++ leBytes 8 64 ++ zeros 40, _, rfl, by decide⟩,
   ⟨{ B with sec := { B.sec with scRuns := [(1, ⟨([]), some 0⟩)] } }, 1, [], 0, by decide⟩,
   ⟨{ B with sec := { B.sec with scRuns := [(1, ⟨([]), none⟩)] } }, 1, [], by decide⟩,
   ⟨B.wr (Obj.scStatus 1) 256, cus, 1, 1 :: zeros 63, by decide⟩,
   ⟨{ ((B.setSlot 1 2 slotRxOnly).wr Obj.ptpState 1).wr Obj.ptpOffsetAbsNs 20000 with sec := { B.sec with slotEpochs := [(6, 5)] } }, cus, 1,
     [3] ++ zeros 7 ++ leBytes 8 1000000 ++ zeros 8 ++ leBytes 4 5 ++ zeros 36, 2, ⟨by decide, by decide, by decide, by decide, by decide, by decide, by decide, by decide⟩,
     by decide⟩,
   ⟨B.wr (Obj.niJob 1) 9, 1, [1, 63] ++ zeros 62, by decide⟩,
   ⟨B, 1, 0, by decide⟩,
   ⟨{ (B.wr (Obj.activatePending 1) 1).wr Obj.ptpState 1 with sec := { B.sec with actSlot := [(1, 2)] }, now := 5 }, 1, 2, by decide⟩,
   ⟨B.wr (Obj.activatePending 1) (B.pkgTime + 1), 1, by decide⟩,
   ⟨B, by decide⟩,
   ⟨(B.wr Obj.rngHealth 1), by decide⟩,
   ⟨B, cus, arRec, _, by decide +kernel, by decide +kernel, arRec_ok, rfl, by decide +kernel⟩,
   ⟨B, cus, zeros 320, by decide⟩,
   ⟨{ B with sec := { B.sec with arForce := List.replicate 320 1 } }, ten, by decide⟩,
   ⟨B, op, 0, zeros 64, _, by decide, by decide, by decide, by decide, by decide, rfl, by decide⟩,
   ⟨{ B with ctxs := { B.ctxs with imageKey := [(1, 2)] } }, op, 2, zeros 64, 1, by decide⟩,
   ⟨withSess sess7 (B.wr Obj.identityState 1), op, zeros 32, sess7, by decide⟩,
   ⟨B, op, 1, zeros 48, by decide⟩,
   ⟨{ B with sec := { B.sec with attest := List.replicate 4 (.ctx 1 []) } }, ten, 1, zeros 48, by decide⟩,
   ⟨{ B with sec := { B.sec with attest := [.pkg 7 (zeros 32)] } }, 7, zeros 32, sess7, [], _, rfl, by decide, by decide, rfl⟩,
   ⟨{ B.wr Obj.identityState 1 with sec := { B.sec with attest := [.pkg 7 (zeros 32)] } }, 7, zeros 32, sess7, [], _, rfl, by decide, by decide, rfl⟩,
   ⟨{ B with sec := { B.sec with attest := [.ctx 1 (zeros 48)] } }, 1, (zeros 48), [], _, rfl, by decide, by decide, by decide, rfl⟩⟩

/-- The hypotheses of SpdmMessages can be met. -/
theorem witness_SpdmMessages :
    (∃ (s : State) (f : NxFrame) (m : Bytes) (u : State) (x : Session), s.frameIn f ntSpdm m = (u, some x) ∧ x.st = SessState.opened ∧ x.role ≠ roleSteward ∧ x.spdm = none) ∧
    (∃ (s : State) (f : NxFrame) (m : Bytes) (u : State) (x : Session), s.frameIn f ntSpdm m = (u, some x) ∧ x.st = SessState.opened ∧ x.role ≠ roleSteward ∧ x.spdm.isSome = true) ∧
    (∃ (s : State) (sid : Nat) (x : Session) (m : Bytes) (u : State), Speaks s sid 0x84 x m u) ∧
    (∃ (s : State) (sid : Nat) (x : Session) (m : Bytes) (u : State) (r : Bytes), Speaks s sid 0xE1 x m u ∧ r = bytesOf [[0x13, 0x61, 0, 0, 0, 15, 0, 0], leBytes 4 0x16,
      leBytes 4 1200, leBytes 4 1200]) ∧
    (∃ (s : State) (sid : Nat) (x : Session) (m : Bytes) (u : State) (r : Bytes), Speaks s sid 0xE3 x m u ∧ r = bytesOf [[0x13, 0x63, 0, 0], leBytes 2 36, [1, 0], leBytes 4 2,
      leBytes 4 (leAt m 8 4 &&& 0x10), leBytes 4 (leAt m 12 4 &&& 1), zeros 16]) ∧
    (∃ (s : State) (sid : Nat) (x : Session) (m : Bytes) (u : State) (r : Bytes), Speaks s sid 0x81 x m u ∧ r = [0x13, 0x01, 1, 1] ++ fit 32 (sha256 s.spdmChain)) ∧
    (∃ (s : State) (sid : Nat) (x : Session) (m : Bytes) (u : State) (p : List Byte) (r : Bytes), Speaks s sid 0x82 x m u ∧ byteAt m 2 = 0 ∧ leAt m 4 2 < s.spdmChain.length ∧
      p = (s.spdmChain.drop (leAt m 4 2)).take (min (leAt m 6 2) 1184) ∧ r = bytesOf [[0x13, 0x02, 0, 0], leBytes 2 p.length,
      leBytes 2 (s.spdmChain.length - leAt m 4 2 - p.length), p]) ∧
    (∃ (s : State) (sid : Nat) (x : Session) (m : Bytes) (u : State), Speaks s sid 0x82 x m u ∧ byteAt m 2 ≠ 0) ∧
    (∃ (s : State) (sid : Nat) (x : Session) (m : Bytes) (u : State) (n : Bytes × State) (r : Bytes), Speaks s sid 0x83 x m u ∧ byteAt m 2 = 0 ∧ byteAt m 3 = 0 ∧ 44 ≤ m.length ∧
      s.rd Obj.rngHealth = 0 ∧ u.random 32 = n ∧ r = bytesOf [[0x13, 0x03, 0, 1], fit 32 (sha256 s.spdmChain), fit 32 n.1, [], [0, 0], slice m 36 8]) ∧
    (∃ (s : State) (sid : Nat) (x : Session) (m : Bytes) (u : State) (n : Bytes × State) (r : Bytes), Speaks s sid 0xE0 x m u ∧ bit (byteAt m 2) 0 = false ∧ byteAt m 3 = 0 ∧
      s.rd Obj.rngHealth = 0 ∧ u.random 32 = n ∧ r = bytesOf [[0x13, 0x60], leBytes 1 s.spdmBlocks.length, [0], leBytes 1 0, leBytes 3 0, [], fit 32 n.1, [0, 0], slice m 4 8]) ∧
    (∃ (s : State) (sid : Nat) (x : Session) (m : Bytes), s.session? sid = some x ∧ x.spdm = some m ∧ spdmKnown (byteAt m 1) = false) ∧
    (∃ (s : State) (sid : Nat) (x : Session) (m : Bytes), s.session? sid = some x ∧ x.spdm = some m ∧ byteAt m 1 = 0xE1 ∧ byteAt m 0 ≠ 0x13) :=
  ⟨⟨withSess sess7 B, frame7 ntSpdm (zeros 8), zeros 8, _, _, taken rfl (by decide) rfl rfl (by decide) (sealed_ok _ _ _) (by decide), by decide⟩,
   ⟨withSess { sess7 with spdm := some [] } B, frame7 ntSpdm (zeros 8), zeros 8, _, _, taken rfl (by decide) rfl rfl (by decide) (sealed_ok _ _ _) (by decide), by decide⟩,
   ⟨spdm7 132 16, 7, _, _, _, ⟨_, rfl, rfl, by decide, by decide, rfl, rfl⟩⟩,
   ⟨spdm7 225 19, 7, _, _, _, _, ⟨_, rfl, rfl, by decide, by decide, rfl, rfl⟩, rfl⟩,
   ⟨spdm7 227 19, 7, _, _, _, _, ⟨_, rfl, rfl, by decide, by decide, rfl, rfl⟩, rfl⟩,
   ⟨spdm7 129 19, 7, _, _, _, _, ⟨_, rfl, rfl, by decide, by decide, rfl, rfl⟩, rfl⟩,
   ⟨spdm7 130 19, 7, _, _, _, _, _, ⟨_, rfl, rfl, by decide, by decide, rfl, rfl⟩, by decide, by show 0 < _; simp [State.spdmChain, bytesOf], rfl, rfl⟩,
   ⟨withSess { sess7 with spdm := some ([0x13, 0x82, 1, 0] ++ zeros 4) } B, 7, _, _, _, ⟨_, rfl, rfl, by decide, by decide, rfl, rfl⟩, by decide⟩,
   ⟨spdm7 131 19, 7, _, _, _, _, _, ⟨_, rfl, rfl, by decide, by decide, rfl, rfl⟩, by decide, by decide, by decide, by decide, rfl, rfl⟩,
   ⟨spdm7 224 19, 7, _, _, _, _, _, ⟨_, rfl, rfl, by decide, by decide, rfl, rfl⟩, by decide, by decide, by decide, rfl, rfl⟩,
   ⟨withSess { sess7 with spdm := some ([0x13, 0x8A] ++ zeros 46) } B, 7, { sess7 with spdm := some ([0x13, 0x8A] ++ zeros 46) }, [0x13, 0x8A] ++ zeros 46, by decide⟩,
   ⟨withSess { sess7 with spdm := some ([0x12, 0xE1] ++ zeros 46) } B, 7, { sess7 with spdm := some ([0x12, 0xE1] ++ zeros 46) }, [0x12, 0xE1] ++ zeros 46, by decide⟩⟩

/-- The hypotheses of ManagementSessions can be met. -/
theorem witness_ManagementSessions :
    (∃ (s : State) (p : Nat) (f : NxFrame) (b : Bytes), p < 3 ∧ s.nxfUp = true ∧ s.portRuns p = true ∧ f.dport = udpNxf ∧ f.legal b.length = true ∧ f.session = 0 ∧ f.typ = ntOpenReq ∧
      b.length = 100 ∧ s.openVerdict p f.peer b = 0) ∧
    (∃ (s : State) (p : Nat) (f : NxFrame) (b : Bytes) (v : Nat), p < 3 ∧ s.nxfUp = true ∧ s.portRuns p = true ∧ f.dport = udpNxf ∧ f.legal b.length = true ∧ f.session = 0 ∧
      f.typ = ntOpenReq ∧ b.length = 100 ∧ s.openVerdict p f.peer b = v ∧ v ≠ 0) ∧
    (∃ (s : State) (p : Nat) (f : NxFrame) (b : Bytes), p < 3 ∧ s.nxfUp = true ∧ s.portRuns p = true ∧ f.dport = udpNxf ∧ (f.legal b.length = false ∨ f.session ≠ 0 ∨ b.length ≠ 100)) ∧
    (∃ (s : State) (p : Nat) (f : NxFrame), (s.portRuns p = false ∨ f.dport ≠ udpNxf)) ∧
    (∃ (s : State) (f : NxFrame) (typ : Nat) (b : Bytes) (x y : Session), f.dport = udpNxf ∧ f.legal b.length = true ∧ f.typ = typ ∧ s.sessFor f = some x ∧ s.carries x = true ∧
      f.tagOk x.rxKey b = true ∧ x.win.accepts f.seq = true ∧ y = { x with win := x.win.take f.seq, addr := f.addr, udp := f.sport }) ∧
    (∃ (s : State) (f : NxFrame) (typ : Nat) (b : Bytes) (x : Session), f.dport = udpNxf ∧ f.legal b.length = true ∧ f.typ = typ ∧ s.sessFor f = some x ∧ s.carries x = true ∧
      f.tagOk x.rxKey b = true ∧ x.win.accepts f.seq = false) ∧
    (∃ (f : NxFrame) (b : Bytes), f.dport = udpNxf ∧ f.legal b.length = false) ∧
    (∃ (s : State) (id : Nat) (x : Session), s.session? id = some x ∧ s.carries x = true) ∧
    (∃ (s : State) (id : Nat) (x : Session), s.session? id = some x ∧ s.carries x = false) ∧
    (∃ (s : State) (f : NxFrame) (b : Bytes) (u : State) (x : Session), s.frameIn f ntProve b = (u, some x) ∧ x.st = SessState.proving ∧ x.weOpened = false) ∧
    (∃ (v : Nat), v ≠ 0) ∧
    (∃ (s : State) (sid : Nat) (x : Session), s.session? sid = some x ∧ x.st = SessState.proving) ∧
    (∃ (s : State) (sid : Nat) (x : Session), s.session? sid = some x ∧ x.st = SessState.opened) ∧
    (∃ (s : State) (f : NxFrame) (u : State) (x : Session), s.frameIn f ntClose [] = (u, some x)) ∧
    (∃ (s : State) (w : Who) (sid : Nat) (x : Session), isCus w = true ∧ s.session? sid = some x ∧ x.st = SessState.opened ∧ s.admits w = true) ∧
    (∃ (s : State) (w : Who) (sid : Nat), isCus w = true ∧ s.session? sid = none ∧ s.admits w = true) ∧
    (∃ (s : State) (w : Who) (v : Bytes) (r : State × Nat), isCus w = true ∧ v.length = 128 ∧ s.storeOct w Obj.operatorKeys v = r ∧ s.admits w = true) ∧
    (∃ (s : State) (w : Who) (c : Nat) (v : Bytes), isOpCus w = true ∧ 0 < c ∧ c < 64 ∧ v.length = 32 ∧ s.rdo (Obj.tenantSessionKey c) ≠ v ∧ s.admits w = true) ∧
    (∃ (s : State) (f : NxFrame) (m : AgentMsg) (u : State) (x : Session), s.frameIn f ntAgent m.body = (u, some x) ∧ x.role = roleSteward ∧ x.st = SessState.opened) ∧
    (∃ (s : State) (f : NxFrame) (m : AgentMsg) (u : State) (x : Session), s.frameIn f ntAgent m.body = (u, some x) ∧ x.role ≠ roleSteward) ∧
    (∃ (s : State) (f : NxFrame) (m : AgentMsg) (key : Bytes) (win : ReplayWin), GroupFrame f m ∧ f.sender ≠ s.pos ∧ (s.stewardSess f.sender).isSome = true ∧
      (s.mgmt.peerKeys.find? fun k => k.1 = f.sender) = some (f.sender, key, win) ∧ f.tagOk key m.body = true ∧ win.accepts f.seq = true) ∧
    (∃ (s : State) (f : NxFrame) (m : AgentMsg) (key : Bytes) (win : ReplayWin), GroupFrame f m ∧ f.sender ≠ s.pos ∧ (s.stewardSess f.sender).isSome = true ∧
      (s.mgmt.peerKeys.find? fun k => k.1 = f.sender) = some (f.sender, key, win) ∧ f.tagOk key m.body = false) ∧
    (∃ (s : State) (f : NxFrame) (m : AgentMsg), GroupFrame f m ∧ f.sender < s.pos ∧ s.stewardSess f.sender = none) ∧
    (∃ (s : State) (f : NxFrame) (m : AgentMsg), GroupFrame f m ∧ s.pos < f.sender ∧ s.stewardSess f.sender = none ∧ s.hasSteward f.sender = false) ∧
    (∃ (s : State) (q : Nat) (o : Opening), (s.mgmt.opening.find? fun (o : Opening) => o.pos = q) = some o ∧ s.now < o.time + 1000000000) ∧
    (∃ (s : State) (f : NxFrame) (key : Bytes) (u : State) (x : Session) (q : Nat), s.frameIn f ntGroupKey key = (u, some x) ∧ x.peer = some q ∧ x.st = SessState.opened ∧
      key.length = 32) ∧
    (∃ (s : State) (f : NxFrame) (o : Opening) (body : Bytes), f.dport = udpNxf ∧ f.legal body.length = true ∧ f.typ = ntOpenResp ∧
      (s.mgmt.opening.find? fun (o : Opening) => o.pos = f.peer) = some o ∧ body.length = 168 ∧ byteAt body 0 = 0 ∧ s.hasSteward f.peer = false) ∧
    (∃ (s : State) (f : NxFrame) (o : Opening) (body : Bytes), f.dport = udpNxf ∧ f.legal body.length = true ∧ f.typ = ntOpenResp ∧
      (s.mgmt.opening.find? fun (o : Opening) => o.pos = f.peer) = some o ∧ body.length = 168 ∧ (byteAt body 0 ≠ 0 ∨ s.hasSteward f.peer = true)) ∧
    (∃ (s : State) (f : NxFrame) (b : Bytes) (u : State) (x : Session), s.frameIn f ntProveResp b = (u, some x) ∧ x.weOpened = true ∧ x.st = SessState.proving ∧ b.length = 2 ∧
      byteAt b 0 = 0) ∧
    (∃ (s : State) (f : NxFrame) (b : Bytes) (u : State) (x : Session), s.frameIn f ntProveResp b = (u, some x) ∧ x.weOpened = true ∧ x.st = SessState.proving ∧ b.length = 2 ∧
      byteAt b 0 ≠ 0) ∧
    (∃ (s : State) (w : Who), isCus w = true ∧ s.admits w = true) ∧
    (∃ (s : State) (w : Who) (v : Nat), isCus w = true ∧ v ≠ 1 ∧ s.admits w = true) ∧
    (∃ (s : State) (sid q k : Nat) (v : Bytes) (rest : List (Nat × Nat × Nat × Bytes)), s.mgmt.storing = (sid, q, k, v) :: rest ∧ keyIsInt k = true) ∧
    (∃ (s : State) (sid q k : Nat) (v : Bytes) (rest : List (Nat × Nat × Nat × Bytes)), s.mgmt.storing = (sid, q, k, v) :: rest ∧ keyIsInt k = false ∧ k ≠ Obj.operatorKeys.key) ∧
    (∃ (s : State) (sid q : Nat) (v : Bytes) (rest : List (Nat × Nat × Nat × Bytes)) (u : State), s.mgmt.storing = (sid, q, Obj.operatorKeys.key, v) :: rest ∧
      u = State.closeSessions { s with mgmt := { s.mgmt with storing := rest } } (fun x => x.role == roleOperator && x.st == SessState.opened && keyListed (s.rdo Obj.operatorKeys) x.keyDigest && !keyListed v x.keyDigest) 3) ∧
    (∃ (s : State), s.mgmt.storing = []) ∧
    (∃ (s : State) (p : Nat), p < 3 ∧ s.portRuns p = true) ∧
    (∃ (s : State) (p k : Nat) (a : Bytes), p < 3 ∧ s.rd (Obj.mportLink p) = 1 ∧ s.answersFor p k a = true) ∧
    (∃ (s : State) (p k : Nat) (a : Bytes) (b : Bool), (s.answersFor p k a = false ∨ b = true ∧ p = 2)) ∧
    (∃ (p k : Nat), p < 2 ∧ k < 8) ∧
    (∃ (s : State) (q : NxReq) (x : Session) (u : State), Asks s opKeepalive q x u) ∧
    (∃ (s : State) (q : NxReq) (v : State) (x : Session) (r : NxResp), q.op = opKeepalive ∧ s.frameIn q.frame ntRequest q.body = (v, some x) ∧ x.st = SessState.opened ∧
      x.role ≠ roleSteward ∧ (x.kept.find? fun r => r.reqId = q.reqId) = some r) ∧
    (∃ (s : State) (q : NxReq) (x : Session), q.op = opKeepalive ∧ q.frame.dport = udpNxf ∧ q.frame.legal q.body.length = true ∧ q.frame.typ = ntRequest ∧ s.sessFor q.frame = some x ∧
      s.carries x = true ∧ q.frame.tagOk x.rxKey q.body = false) ∧
    (∃ (s : State) (q : NxReq) (v : State) (x : Session), opKnown q.op = false ∧ s.frameIn q.frame ntRequest q.body = (v, some x) ∧ x.st = SessState.opened ∧ x.role ≠ roleSteward ∧
      x.known q.reqId = false ∧ x.openReqs.length < 16) ∧
    (∃ (s : State) (w : Who) (x : Session) (r : NxResp), s.session? w.session = some x ∧ s.writes w = true ∧ (x.kept.find? fun r => r.reqId = w.reqId) = some r) ∧
    (∃ (s : State) (w : Who) (x : Session), s.session? w.session = some x ∧ s.writes w = true ∧ x.known w.reqId = false ∧ 16 ≤ x.openReqs.length) :=
  ⟨⟨B, 0, head ntOpenReq 0 64 100, (zeros 96 ++ [1, 0, 0, 0]), by decide⟩,
   ⟨B, 0, head ntOpenReq 0 64 100, (zeros 100), _, by decide, by decide, by decide, by decide, by decide, by decide, by decide, by decide, rfl, by decide⟩,
   ⟨B, 0, head ntOpenReq 0 64 99, (zeros 99), by decide, by decide, by decide, by decide, Or.inr (Or.inr (by decide))⟩,
   ⟨B.wr Obj.pkgPowerState pwrOff, 0, head ntOpenReq 0 64 100, Or.inl (by decide)⟩,
   ⟨B, frame7 ntClose [], ntClose, [], sess7, _, by decide, by decide, by decide, by decide, by decide, sealed_ok _ _ _, by decide, rfl⟩,
   ⟨withSess { sess7 with win := ⟨1, 0⟩ } B, frame7 ntClose [], ntClose, [], { sess7 with win := ⟨1, 0⟩ }, by decide, by decide, by decide, by decide, by decide, sealed_ok _ _ _,
     by decide⟩,
   ⟨head ntClose 7 64 5, [], by decide⟩,
   ⟨B, 7, sess7, by decide⟩,
   ⟨B.wr Obj.pkgPowerState pwrOff, 7, sess7, by decide⟩,
   ⟨withSess { sess7 with st := .proving } B, frame7 ntProve ([]), [], _, _, taken rfl (by decide) rfl rfl (by decide) (sealed_ok _ _ _) (by decide), by decide⟩,
   ⟨3, by decide⟩,
   ⟨withSess { sess7 with st := .proving } B, 7, { sess7 with st := .proving }, by decide⟩,
   ⟨withSess sess7 B, 7, sess7, by decide⟩,
   ⟨withSess sess7 B, frame7 ntClose ([]), _, _, taken rfl (by decide) rfl rfl (by decide) (sealed_ok _ _ _) (by decide)⟩,
   ⟨withSess sess7 B, cus, 7, sess7, by decide⟩,
   ⟨B, cus, 5, by decide⟩,
   ⟨B, cus, zeros 128, _, by decide, by decide, rfl, by decide⟩,
   ⟨B, op, 1, List.replicate 32 1, by decide⟩,
   ⟨withSess { sess7 with role := roleSteward } B, frame7 ntAgent ((msg mgHello 1 0 0 0 []).body), msg mgHello 1 0 0 0 [], _, _,
     taken rfl (by decide) rfl rfl (by decide) (sealed_ok _ _ _) (by decide), by decide⟩,
   ⟨withSess sess7 B, frame7 ntAgent ((msg mgHello 1 0 0 0 []).body), msg mgHello 1 0 0 0 [], _, _, taken rfl (by decide) rfl rfl (by decide) (sealed_ok _ _ _) (by decide), by decide⟩,
   ⟨withSess { sess7 with role := roleSteward, peer := some 2 } { B with mgmt := { B.mgmt with peerKeys := [(2, zeros 32, ⟨0, 0⟩)] } },
     sealed (zeros 32) (head ntAgentGroup (0xFFFFFF00 + 2) 2 (msg mgHello 1 0 0 0 []).body.length) (msg mgHello 1 0 0 0 []).body, msg mgHello 1 0 0 0 [], zeros 32, ⟨0, 0⟩,
     ⟨by decide, by decide, by decide, by decide, by decide⟩, by decide, by decide, by decide, sealed_ok _ _ _, by decide⟩,
   ⟨withSess { sess7 with role := roleSteward, peer := some 2 } { B with mgmt := { B.mgmt with peerKeys := [(2, zeros 32, ⟨0, 0⟩)] } },
     head ntAgentGroup (0xFFFFFF00 + 2) 2 (msg mgHello 1 0 0 0 []).body.length, msg mgHello 1 0 0 0 [], zeros 32, ⟨0, 0⟩, ⟨by decide, by decide, by decide, by decide, by decide⟩,
     by decide +kernel⟩,
   ⟨B.wr Obj.position 1, head ntAgentGroup (0xFFFFFF00 + 0) 0 (msg mgHello 1 0 0 0 []).body.length, msg mgHello 1 0 0 0 [], ⟨by decide, by decide, by decide, by decide, by decide⟩,
     by decide⟩,
   ⟨B, head ntAgentGroup (0xFFFFFF00 + 2) 2 (msg mgHello 1 0 0 0 []).body.length, msg mgHello 1 0 0 0 [], ⟨by decide, by decide, by decide, by decide, by decide⟩, by decide⟩,
   ⟨{ B with mgmt := { B.mgmt with opening := [⟨2, zeros 32, zeros 100, 0⟩] } }, 2, ⟨2, zeros 32, zeros 100, 0⟩, by decide⟩,
   ⟨withSess { sess7 with peer := some 2 } B, frame7 ntGroupKey (zeros 32), zeros 32, _, _, _, taken rfl (by decide) rfl rfl (by decide) (sealed_ok _ _ _) (by decide), rfl, by decide⟩,
   ⟨{ B with mgmt := { B.mgmt with opening := [⟨2, zeros 32, zeros 100, 0⟩] } }, head ntOpenResp 0 2 168, ⟨2, zeros 32, zeros 100, 0⟩, (zeros 168), by decide⟩,
   ⟨{ B with mgmt := { B.mgmt with opening := [⟨2, zeros 32, zeros 100, 0⟩] } }, head ntOpenResp 0 2 168, ⟨2, zeros 32, zeros 100, 0⟩, (1 :: zeros 167), by decide, by decide,
     by decide, by decide, by decide, Or.inl (by decide)⟩,
   ⟨withSess { sess7 with st := .proving, weOpened := true, peer := some 64 } B, frame7 ntProveResp ([0, 0]), [0, 0], _, _,
     taken rfl (by decide) rfl rfl (by decide) (sealed_ok _ _ _) (by decide), by decide⟩,
   ⟨withSess { sess7 with st := .proving, weOpened := true, peer := some 64 } B, frame7 ntProveResp ([3, 0]), [3, 0], _, _,
     taken rfl (by decide) rfl rfl (by decide) (sealed_ok _ _ _) (by decide), by decide⟩,
   ⟨B, cus, by decide⟩,
   ⟨B, cus, 0, by decide⟩,
   ⟨{ B with mgmt := { B.mgmt with storing := [(7, 5, 0x38001600, [1])] } }, 7, 5, 0x38001600, [1], [], by decide⟩,
   ⟨{ B with mgmt := { B.mgmt with storing := [(7, 5, Obj.railMapLoad.key, [1])] } }, 7, 5, Obj.railMapLoad.key, [1], [], by decide⟩,
   ⟨{ B with mgmt := { B.mgmt with storing := [(7, 5, Obj.operatorKeys.key, [1])] } }, 7, 5, [1], [], _, rfl, rfl⟩,
   ⟨{ B with mgmt := { B.mgmt with storing := [] } }, by decide⟩,
   ⟨B, 0, by decide⟩,
   ⟨(B.wr (Obj.mportLink 0) 1), 0, 1, State.linkLocal (B.wr (Obj.mportLink 0) 1) 0, by decide⟩,
   ⟨B, 0, 3, [], false, Or.inl (by decide)⟩,
   ⟨0, 0, by decide⟩,
   ⟨withSess sess7 B, req opKeepalive 0 0 0 0 0 [], _, _, ⟨_, rfl, taken rfl (by decide) rfl rfl (by decide) (req_ok _ _ _ _ _ _ _) (by decide), rfl, by decide, rfl, by decide,
     fun h => absurd rfl h, by decide, by decide, rfl⟩⟩,
   ⟨withSess { sess7 with kept := [⟨5, opKeepalive, rOk, 0, 0, []⟩] } B, req opKeepalive 0 0 0 0 0 [], _, _, ⟨5, opKeepalive, rOk, 0, 0, []⟩, by decide,
     taken rfl (by decide) rfl rfl (by decide) (req_ok _ _ _ _ _ _ _) (by decide), by decide⟩,
   ⟨withSess { sess7 with keyIn := List.replicate 32 1 } B, req opKeepalive 0 0 0 0 0 [], { sess7 with keyIn := List.replicate 32 1 }, by decide +kernel⟩,
   ⟨B, req 99 0 0 0 0 0 [], _, _, by decide, taken rfl (by decide) rfl rfl (by decide) (req_ok _ _ _ _ _ _ _) (by decide), by decide⟩,
   ⟨withSess { sess7 with kept := [⟨1, opWrite, rOk, 0, 0, []⟩] } B, op, { sess7 with kept := [⟨1, opWrite, rOk, 0, 0, []⟩] }, ⟨1, opWrite, rOk, 0, 0, []⟩, by decide⟩,
   ⟨withSess { sess7 with openReqs := List.replicate 16 ⟨9, opWrite⟩ } B, op, { sess7 with openReqs := List.replicate 16 ⟨9, opWrite⟩ }, by decide⟩⟩

/-- The hypotheses of DictionaryAccess can be met. -/
theorem witness_DictionaryAccess :
    (∃ (s : State) (q : NxReq) (x : Session) (u : State) (r : DictRow), Asks s opRead q x u ∧ ¬ (q.area = 0x70 ∧ q.entry = 0x11) ∧ ¬ (q.area = 0x78 ∧ q.entry = 0x100 ∧ q.sub = 0) ∧
      u.rowFor q.area q.entry q.sub = some r ∧ u.reaches x.role x.ctx r q.entry q.sub Acc.canRead = true ∧ q.offset ≤ (u.readObj x r q.entry q.sub).length) ∧
    (∃ (s : State) (q : NxReq) (x : Session) (u : State), Asks s opRead q x u ∧ ¬ (q.area = 0x70 ∧ q.entry = 0x11) ∧ u.rowFor q.area q.entry q.sub = none) ∧
    (∃ (s : State) (q : NxReq) (x : Session) (u : State) (r : DictRow), Asks s opRead q x u ∧ ¬ (q.area = 0x70 ∧ q.entry = 0x11) ∧ u.rowFor q.area q.entry q.sub = some r ∧
      u.reaches x.role x.ctx r q.entry q.sub Acc.canRead = false) ∧
    (∃ (s : State) (q : NxReq) (x : Session) (u : State) (r : DictRow) (v : State × Nat), Asks s opWrite q x u ∧ ownWrite q = false ∧ u.rowFor q.area q.entry q.sub = some r ∧
      u.reaches x.role x.ctx r q.entry q.sub Acc.canWrite = true ∧ q.area ≠ 0x68 ∧ u.writeVal ⟨x.role, x.ctx, x.id, q.reqId⟩ r q.entry q.sub q.value = v ∧ v.2 ≠ rLater) ∧
    (∃ (s : State) (w : Who) (r : DictRow) (e sub : Nat) (v : Bytes), r.ty = .u32 ∧ v.length = 4 ∧ r.rng.ok (leNat v) = true ∧ s.intRule w r e sub (leNat v) = rOk ∧ r.area ≠ 0x88 ∧
      r.pers = false ∧ ¬ (r.area = 0x10 ∧ r.base = 0x4000 ∧ sub = 3)) ∧
    (∃ (s : State) (w : Who) (r : DictRow) (e sub : Nat) (v : Bytes), r.ty = .u32 ∧ v.length = 4 ∧ r.rng.ok (leNat v) = true ∧ s.intRule w r e sub (leNat v) = rOk ∧ r.area ≠ 0x88 ∧
      r.pers = true) ∧
    (∃ (s : State) (q : NxReq) (x : Session) (u : State) (r : DictRow) (v : State), Asks s opWrite q x u ∧ ownWrite q = false ∧ u.rowFor q.area q.entry q.sub = some r ∧
      u.reaches x.role x.ctx r q.entry q.sub Acc.canWrite = true ∧ q.area ≠ 0x68 ∧ u.writeVal ⟨x.role, x.ctx, x.id, q.reqId⟩ r q.entry q.sub q.value = (v, rLater)) ∧
    (∃ (s : State) (r : DictRow) (e sub : Nat), r.ring sub = true ∧ s.ringState r e ≠ ustDisabled ∧ s.ringState r e ≠ ustFailed) ∧
    (∃ (r : DictRow) (v : Bytes), r.ty = .u32 ∧ v.length ≠ 4) ∧
    (∃ (s : State) (q : NxReq) (x : Session) (u : State), Asks s opNext q x u ∧ q.area ≠ 0x84 ∧ q.area ≠ 0x88 ∧
      u.nextGo x ((dictArea q.area).filter fun r => (r.acc x.role).canRead || (r.acc x.role).canWrite) 65536 q.entry q.sub = none) ∧
    (∃ (s : State) (q : NxReq) (x : Session) (u : State) (r : DictRow) (e k : Nat), Asks s opNext q x u ∧ q.area ≠ 0x84 ∧ q.area ≠ 0x88 ∧
      u.nextGo x ((dictArea q.area).filter fun r => (r.acc x.role).canRead || (r.acc x.role).canWrite) 65536 q.entry q.sub = some (r, e, k)) :=
  ⟨⟨withSess sess7 B, req opRead 0x48 0 0 16 0 [], _, _, _, ⟨_, rfl, taken rfl (by decide) rfl rfl (by decide) (req_ok _ _ _ _ _ _ _) (by decide), rfl, by decide, rfl, by decide,
     fun h => absurd rfl h, by decide, by decide, rfl⟩, by decide, by decide, rfl, by decide⟩,
   ⟨withSess sess7 B, req opRead 0x48 0x7FFF 0 16 0 [], _, _, ⟨_, rfl, taken rfl (by decide) rfl rfl (by decide) (req_ok _ _ _ _ _ _ _) (by decide), rfl, by decide, rfl, by decide,
     fun h => absurd rfl h, by decide, by decide, rfl⟩, by decide⟩,
   ⟨withSess { sess7 with role := roleTenant, ctx := 1 } B, req opRead 0x38 0x16 0 16 0 [], _, _, _, ⟨_, rfl,
     taken rfl (by decide) rfl rfl (by decide) (req_ok _ _ _ _ _ _ _) (by decide), rfl, by decide, rfl, by decide, fun h => absurd rfl h, by decide, by decide, rfl⟩, by decide,
     rfl, by decide⟩,
   ⟨withSess sess7 B, req opWrite 0x38 0x16 0 4 0 (leBytes 4 5), _, _, _, _, ⟨_, rfl, taken rfl (by decide) rfl rfl (by decide) (req_ok _ _ _ _ _ _ _) (by decide), rfl, by decide,
     rfl, by decide, fun h => absurd rfl h, by decide, by decide, rfl⟩, by decide, rfl, by decide, by decide, rfl, by decide⟩,
   ⟨B, op, ⟨56, 22, 1, 0, 1, 0, 0, .u32, .no, .no, .rw, .rw, .rw, false, 0, .mask 16908287⟩, 22, 0, leBytes 4 2, by decide⟩,
   ⟨B, op, ⟨56, 22, 1, 0, 1, 0, 0, .u32, .no, .no, .rw, .rw, .rw, true, 0, .mask 16908287⟩, 22, 0, leBytes 4 2, by decide⟩,
   ⟨withSess sess7 B, req opWrite 0x10 0x30 0 1 0 [1], _, _, _, _, ⟨_, rfl, taken rfl (by decide) rfl rfl (by decide) (req_ok _ _ _ _ _ _ _) (by decide), rfl, by decide, rfl,
     by decide, fun h => absurd rfl h, by decide, by decide, rfl⟩, by decide, rfl, by decide, by decide, rfl⟩,
   ⟨B.wr (Obj.teState 3) ustActive, ⟨0x28, 0x4000, 72, 1, 1, 3, 3, .u64, .r, .rw, .rw, .rw, .no, false, 0, .any⟩, 0x4003, 3, by decide⟩,
   ⟨⟨56, 22, 1, 0, 1, 0, 0, .u32, .no, .no, .rw, .rw, .rw, false, 0, .mask 16908287⟩, [], by decide⟩,
   ⟨withSess sess7 B, req opNext 0x10 0xFFFF 255 0 0 [], _, _, ⟨_, rfl, taken rfl (by decide) rfl rfl (by decide) (req_ok _ _ _ _ _ _ _) (by decide), rfl, by decide, rfl, by decide,
     fun h => absurd rfl h, by decide, by decide, rfl⟩, by decide⟩,
   ⟨withSess sess7 B, req opNext 0x48 0 0 0 0 [], _, _, _, _, _, ⟨_, rfl, taken rfl (by decide) rfl rfl (by decide) (req_ok _ _ _ _ _ _ _) (by decide), rfl, by decide, rfl,
     by decide, fun h => absurd rfl h, by decide, by decide, rfl⟩, by decide, by decide, rfl⟩⟩

/-- The hypotheses of Mailboxes can be met. -/
theorem witness_Mailboxes :
    (∃ (s : State) (q : NxReq) (x : Session) (u : State), Asks s opMbxSend q x u ∧ q.sub < 16 ∧ q.length ≤ 64 ∧ admits (u.bind q.sub) x = true ∧
      u.rd (Obj.mbxState q.sub) = ustActive ∧ u.noReceiver q.sub = false ∧ (u.mbox q.sub).queue.length < 32) ∧
    (∃ (s : State) (q : NxReq) (x : Session) (u : State), Asks s opMbxSend q x u ∧ q.sub < 16 ∧ q.length ≤ 64 ∧ admits (u.bind q.sub) x = false) ∧
    (∃ (s : State) (q : NxReq) (x : Session) (u : State) (g : MbxMsg) (l : List MbxMsg), Asks s opMbxRecv q x u ∧ q.sub < 16 ∧ u.claims q.sub x = true ∧ (u.mbox q.sub).queue = g :: l) ∧
    (∃ (s : State) (q : NxReq) (x : Session) (u : State), Asks s opMbxRecv q x u ∧ q.sub < 16 ∧ u.claims q.sub x = true ∧ (u.mbox q.sub).queue = [] ∧
      u.rd (Obj.mbxBellsPending q.sub) = 0) ∧
    (∃ (s : State) (q : NxReq) (x : Session) (u : State), Asks s opMbxClaim q x u ∧ q.sub < 16 ∧ mbKind (u.bind q.sub) = 2 ∧ u.rd (Obj.mbxClaimant q.sub) = 0 ∧
      mbMinRole (u.bind q.sub) ≤ x.role ∧ x.role ≠ roleTenant) ∧
    (∃ (s : State) (q : NxReq) (x : Session) (u : State), Asks s opMbxClaim q x u ∧ q.sub < 16 ∧ u.rd (Obj.mbxClaimant q.sub) ≠ 0) ∧
    (∃ (s : State) (q : NxReq) (x : Session) (u : State), Asks s opMbxRelease q x u ∧ q.sub < 16 ∧ u.claims q.sub x = true) ∧
    (∃ (s : State) (q : NxReq) (x : Session) (u : State), Asks s opBellRing q x u ∧ q.sub < 16 ∧ admits (u.bind q.sub) x = true ∧ (u.ringBell q.sub q.offset).2 = .ok) ∧
    (∃ (s : State) (m k : Nat) (u : State), s.rd (Obj.mbxState m) = ustActive ∧ s.noReceiver m = false ∧ mbKind (s.bind m) = 2 ∧
      u = s.wr (Obj.mbxBellsPending m) (setBit (s.rd (Obj.mbxBellsPending m)) k true)) ∧
    (∃ (s : State) (q : NxReq) (x : Session) (u : State), Asks s opBellFetch q x u ∧ q.sub < 16 ∧ u.claims q.sub x = true) ∧
    (∃ (s : State) (m : Nat), mbKind (s.bind m) = 2 ∧ s.rd (Obj.mbxClaimant m) ≠ 0 ∧ s.rd (Obj.mbxBellsPending m) ≠ 0) ∧
    (∃ (s : State) (m k : Nat) (g : MbxMsg), (s.mbox m).queue[k]? = some g) ∧
    (∃ (s : State) (w : Who) (m v : Nat), w.role = roleTenant ∧ m < 16 ∧ mbKind (s.bind m) ≠ 0 ∧ mbCtx (s.bind m) = w.ctx ∧ v < mbRingEntries (s.bind m) ∧ s.admits w = true) ∧
    (∃ (s : State) (w : Who) (m : Nat), isOpCus w = true ∧ m < 16 ∧ s.rd (Obj.mbxState m) = ustActive ∧ s.admits w = true) ∧
    (∃ (s : State) (w : Who) (m : Nat), isOpCus w = true ∧ m < 16 ∧ mbKind (s.bind m) ≠ 0 ∧ s.rd (Obj.mbxState m) = ustDisabled ∧ s.admits w = true) ∧
    (∃ (s : State) (w : Who) (m : Nat), isOpCus w = true ∧ m < 16 ∧ mbKind (s.bind m) = 0 ∧ s.admits w = true) :=
  ⟨⟨mbx3 7, req opMbxSend 0 0 3 64 0 (zeros 64), _, _, ⟨_, rfl, taken rfl (by decide) rfl rfl (by decide) (req_ok _ _ _ _ _ _ _) (by decide), rfl, by decide, rfl, by decide,
     fun h => absurd rfl h, by decide, by decide, rfl⟩, by decide⟩,
   ⟨withSess sess7 B, req opMbxSend 0 0 4 64 0 (zeros 64), _, _, ⟨_, rfl, taken rfl (by decide) rfl rfl (by decide) (req_ok _ _ _ _ _ _ _) (by decide), rfl, by decide, rfl,
     by decide, fun h => absurd rfl h, by decide, by decide, rfl⟩, by decide⟩,
   ⟨(mbx3 7).setMbox 3 ⟨[⟨.session 7 0 roleOperator 0 5, 1, 0, []⟩], 1, false⟩, req opMbxRecv 0 0 3 0 0 [], _, _, _, _, ⟨_, rfl,
     taken rfl (by decide) rfl rfl (by decide) (req_ok _ _ _ _ _ _ _) (by decide), rfl, by decide, rfl, by decide, fun h => absurd rfl h, by decide, by decide, rfl⟩, by decide,
     by decide, rfl⟩,
   ⟨mbx3 7, req opMbxRecv 0 0 3 0 0 [], _, _, ⟨_, rfl, taken rfl (by decide) rfl rfl (by decide) (req_ok _ _ _ _ _ _ _) (by decide), rfl, by decide, rfl, by decide,
     fun h => absurd rfl h, by decide, by decide, rfl⟩, by decide⟩,
   ⟨mbx3 0, req opMbxClaim 0 0 3 0 0 [], _, _, ⟨_, rfl, taken rfl (by decide) rfl rfl (by decide) (req_ok _ _ _ _ _ _ _) (by decide), rfl, by decide, rfl, by decide,
     fun h => absurd rfl h, by decide, by decide, rfl⟩, by decide⟩,
   ⟨mbx3 9, req opMbxClaim 0 0 3 0 0 [], _, _, ⟨_, rfl, taken rfl (by decide) rfl rfl (by decide) (req_ok _ _ _ _ _ _ _) (by decide), rfl, by decide, rfl, by decide,
     fun h => absurd rfl h, by decide, by decide, rfl⟩, by decide⟩,
   ⟨mbx3 7, req opMbxRelease 0 0 3 0 0 [], _, _, ⟨_, rfl, taken rfl (by decide) rfl rfl (by decide) (req_ok _ _ _ _ _ _ _) (by decide), rfl, by decide, rfl, by decide,
     fun h => absurd rfl h, by decide, by decide, rfl⟩, by decide⟩,
   ⟨mbx3 7, req opBellRing 0 0 3 0 63 [], _, _, ⟨_, rfl, taken rfl (by decide) rfl rfl (by decide) (req_ok _ _ _ _ _ _ _) (by decide), rfl, by decide, rfl, by decide,
     fun h => absurd rfl h, by decide, by decide, rfl⟩, by decide⟩,
   ⟨mbx3 7, 3, 63, _, by decide, by decide, by decide, rfl⟩,
   ⟨mbx3 7, req opBellFetch 0 0 3 0 0 [], _, _, ⟨_, rfl, taken rfl (by decide) rfl rfl (by decide) (req_ok _ _ _ _ _ _ _) (by decide), rfl, by decide, rfl, by decide,
     fun h => absurd rfl h, by decide, by decide, rfl⟩, by decide⟩,
   ⟨(mbx3 7).wr (Obj.mbxBellsPending 3) 4, 3, by decide⟩,
   ⟨(mbx3 7).setMbox 3 ⟨[⟨.session 7 0 roleOperator 0 5, 1, 0, []⟩], 1, false⟩, 3, 0, ⟨.session 7 0 roleOperator 0 5, 1, 0, []⟩, rfl⟩,
   ⟨withMbx (B.wro (Obj.mbxBind 3) bindCtx) |> fun s => s.wro (Obj.mbxBind 3) ([1, 1] ++ zeros 10 ++ [4, 0] ++ zeros 6 ++ List.replicate 9 0xFF ++ zeros 3), ten, 3, 3, by decide⟩,
   ⟨(B.wr (Obj.mbxState 0) ustActive), op, 0, by decide⟩,
   ⟨(mbx3 0).wr (Obj.mbxState 3) ustDisabled, op, 3, by decide⟩,
   ⟨B, op, 0, by decide⟩⟩

/-- The hypotheses of FirmwareAndFaults can be met, that of a good image where its signer may sign and its signature verifies (log entry 60), since no value of an opaque function can be shown. -/
theorem witness_FirmwareAndFaults :
    (∃ (s : State) (w : Who) (e : Nat), isOpCus w = true ∧ isElem e = true ∧ s.rd (Obj.fwStageResult e) / 256 ≠ 1 ∧ s.admits w = true) ∧
    (∃ (s : State) (w : Who) (e : Nat), isOpCus w = true ∧ isElem e = true ∧ s.rd (Obj.fwStageResult e) / 256 = 1 ∧ s.admits w = true) ∧
    (∃ (s : State) (e v : Nat), s.mgmt.fwDue = [(e, v)]) ∧
    (∃ (s : State) (w : Who) (e : Nat) (v : Bytes), isOpCus w = true ∧ isElem e = true ∧ s.rd (Obj.fwStageResult e) / 256 ≠ 1 ∧ 5 ≤ v.length ∧ v.length ≤ 1028 ∧
      s.rd (Obj.fwState e) = fwLoading ∧ s.admits w = true) ∧
    (∃ (s : State) (w : Who) (e : Nat) (v : Bytes), isOpCus w = true ∧ isElem e = true ∧ 5 ≤ v.length ∧ v.length ≤ 1028 ∧ s.rd (Obj.fwState e) ≠ fwLoading ∧ s.admits w = true) ∧
    (∃ (s : State) (w : Who) (e : Nat), isOpCus w = true ∧ isElem e = true ∧ s.rd (Obj.fwStageResult e) / 256 ≠ 1 ∧ s.admits w = true) ∧
    (∃ (s : State) (e : Nat), s.rd (Obj.fwState e) ≠ fwLoading) ∧
    (∃ (s : State) (e : Nat), s.rd (Obj.fwState e) = fwLoading ∧ (s.fwOf e).loadEnd ≠ 0 ∧ (s.fwOf e).loadEnd ≤ fwSlot e ∧ fwMalformed e (s.fwOf e).image = true) ∧
    (∃ (s : State) (e : Nat) (w : Nat × State), (((Config.fwSignerOk [] = true) → (ecVerify (Config.certKey []) (sha256 fwHead) (zeros 64) = true) → s.fwVerdict e = 0)) ∧ s.free 1 = w) ∧
    (∃ (s : State) (w : Who) (e : Nat), isOpCus w = true ∧ isElem e = true ∧ s.rd (Obj.fwStageResult e) / 256 ≠ 1 ∧ s.admits w = true) ∧
    (∃ (s : State) (w : Who) (e v : Nat) (r : State × Nat), isCus w = true ∧ isElem e = true ∧ s.toBe (Obj.fwSvnFloor e) ≤ v ∧ v ≤ s.rd (Obj.fwRunningSvn e) ∧
      s.storeReg w (Obj.fwSvnFloor e) v = r ∧ s.admits w = true) ∧
    (∃ (s : State) (w : Who) (e v : Nat), isCus w = true ∧ isElem e = true ∧ (v < s.toBe (Obj.fwSvnFloor e) ∨ s.rd (Obj.fwRunningSvn e) < v) ∧ s.admits w = true) ∧
    (∃ (s : State) (w : Who), isOpCus w = true ∧ s.rd (Obj.fwState 3) = fwStaged ∧ s.rd Obj.pkgPowerState = pwrFabric ∧ s.boot.fdReset = false ∧ s.rd (Obj.fwStageResult 3) / 256 ≠ 1 ∧
      s.admits w = true) ∧
    (∃ (s : State) (w : Who), isOpCus w = true ∧ s.rd Obj.pkgPowerState ≠ pwrFabric ∧ s.rd (Obj.fwStageResult 3) / 256 ≠ 1 ∧ s.admits w = true) ∧
    (∃ (s : State), s.boot.fdReset = true ∧ s.domUp 5 = false) ∧
    (∃ (s u : State), s.boot.fdReset = true ∧ s.domUp 5 = false ∧ s.fdFallback = some u) ∧
    (∃ (s : State), s.domUp 5 = true) ∧
    (∃ (s : State) (t : Nat), s.boot.fdFaultNs = some t ∧ s.now < t + 3600000000000) ∧
    (∃ (s : State) (e : Nat), (e = 1 ∨ e = 2) ∧ s.rd Obj.pkgPowerState = pwrOff ∧ s.boot.step ≤ 2 ∧ s.fallback e = none) ∧
    (∃ (s : State), s.rd Obj.pkgPowerState = pwrOff ∧ s.boot.step ≤ 2) ∧
    (∃ (s : State) (d : Nat), 1 ≤ d ∧ d ≤ 4 ∧ s.domUp d = true) ∧
    (∃ (s : State), s.domUp 5 = true) ∧
    (∃ (s : State) (die k : Nat), die < 4 ∧ 1 ≤ k ∧ k ≤ 3 ∧ s.domUp (die + 1) = true) ∧
    (∃ (s : State) (n : Nat), s.rd (Obj.tileState n) = ustQuiescing) ∧
    (∃ (s : State) (c : Nat), s.rd (Obj.teState c) = ustQuiescing) ∧
    (∃ (s : State) (i : Nat), s.rd (Obj.niState i) = ustQuiescing) ∧
    (∃ (s : State) (p : Nat), s.rd (Obj.portState p) = ustQuiescing) ∧
    (∃ (s : State) (m : Nat), s.rd (Obj.mbxState m) = ustQuiescing) ∧
    (∃ (s : State) (n : Nat), s.rd (Obj.tileState n) = ustQuiescing ∧ s.tileDrained n = true) ∧
    (∃ (s : State) (n : Nat), s.rd (Obj.tileState n) ≠ ustQuiescing) ∧
    (∃ (s : State) (c : Nat), s.rd (Obj.teState c) = ustQuiescing) ∧
    (∃ (s : State) (p : Nat), s.rd (Obj.portState p) = ustQuiescing) ∧
    (∃ (s : State) (i : FwImage), s.boot.fdNew = true ∧ (s.fwOf 3).staged = some i) ∧
    (∃ (s : State) (i : FwImage), s.boot.fdNew = true ∧ (s.fwOf 3).staged = some i ∧ s.rd (Obj.fwSvnFloor 3) ≤ fwSvn (s.fwOf 3).running.hdr) :=
  ⟨⟨B, op, 4, by decide⟩,
   ⟨B.wr (Obj.fwStageResult 2) 0x100, op, 2, by decide⟩,
   ⟨{ B with mgmt := { B.mgmt with fwDue := [(2, 0x200)] } }, 2, 0x200, by decide⟩,
   ⟨(B.wr (Obj.fwState 2) fwLoading), op, 2, leBytes 4 7 ++ [1], by decide⟩,
   ⟨B, op, 4, zeros 5, by decide⟩,
   ⟨B, op, 4, by decide⟩,
   ⟨B, 0, by decide⟩,
   ⟨(B.wr (Obj.fwState 2) fwLoading).setFw 2 { B.fwOf 2 with loading := [], loadEnd := 1 }, 2, by decide⟩,
   ⟨fwSt, 2, _, fun h g => fwSt_ok h g, rfl⟩,
   ⟨B, op, 4, by decide⟩,
   ⟨B, cus, 2, 0, _, by decide, by decide, by decide, by decide, rfl, by decide⟩,
   ⟨B, cus, 2, 1, by decide, by decide, Or.inr (by decide), by decide⟩,
   ⟨{ ((B.wr (Obj.fwState 3) fwStaged).wr Obj.pkgPowerState pwrFabric) with boot := { ((B.wr (Obj.fwState 3) fwStaged).wr Obj.pkgPowerState pwrFabric).boot with fdReset := false } },
     op, by decide⟩,
   ⟨B, op, by decide⟩,
   ⟨{ B with boot := { B.boot with fdReset := true, inReset := [5] } }, by decide⟩,
   ⟨{ B.setFw 3 { FwElem.init with fresh := true, previous := some ⟨zeros 128, zeros 32⟩ } with boot := { B.boot with fdReset := true, inReset := [5] } }, _, by decide, by decide,
     rfl⟩,
   ⟨B, by decide⟩,
   ⟨{ B with boot := { B.boot with fdFaultNs := some 0 } }, 0, by decide⟩,
   ⟨{ B.wr Obj.pkgPowerState pwrOff with boot := { B.boot with step := 2 } }, 2, Or.inr rfl, by decide⟩,
   ⟨{ B.wr Obj.pkgPowerState pwrOff with boot := { B.boot with step := 2 } }, by decide⟩,
   ⟨B, 4, by decide⟩,
   ⟨B, by decide⟩,
   ⟨B, 3, 3, by decide⟩,
   ⟨(B.wr (Obj.tileState 0) ustQuiescing), 0, by decide⟩,
   ⟨(B.wr (Obj.teState 1) ustQuiescing), 1, by decide⟩,
   ⟨(B.wr (Obj.niState 0) ustQuiescing), 0, by decide⟩,
   ⟨(B.wr (Obj.portState 0) ustQuiescing), 0, by decide⟩,
   ⟨(B.wr (Obj.mbxState 0) ustQuiescing), 0, by decide⟩,
   ⟨(B.wr (Obj.tileState 0) ustQuiescing), 0, by decide⟩,
   ⟨B, 0, by decide⟩,
   ⟨(B.wr (Obj.teState 1) ustQuiescing), 1, by decide⟩,
   ⟨(B.wr (Obj.portState 0) ustQuiescing), 0, by decide⟩,
   ⟨{ B.setFw 3 { FwElem.init with staged := some ⟨zeros 128, zeros 32⟩ } with boot := { B.boot with fdReset := true, fdNew := true, inReset := [5] } }, ⟨zeros 128, zeros 32⟩,
     by decide⟩,
   ⟨{ B.setFw 3 { FwElem.init with staged := some ⟨zeros 128, zeros 32⟩ } with boot := { B.boot with fdReset := true, fdNew := true, inReset := [5] } }, ⟨zeros 128, zeros 32⟩,
     by decide⟩⟩

/-- The hypotheses of ResetAndBringup can be met. -/
theorem witness_ResetAndBringup :
    (∃ (n : Nat), n < 1000) ∧
    (∃ (n : Nat), 1000 ≤ n ∧ n < 10000) ∧
    (∃ (s : State) (n : Nat), 10000 ≤ n ∧ s.rcd.flush ≠ some 1) ∧
    (∃ (s : State), s.rcd.flush ≠ some 1) ∧
    (∃ (s : State), s.rcd.flush = some 1) ∧
    (∃ (s : State) (w : Who), isCus w = true ∧ s.admits w = true) ∧
    (∃ (s : State) (w : Who) (v : Nat), isCus w = true ∧ v ≠ 1 ∧ s.admits w = true) ∧
    (∃ (s : State) (c : Nat), s.rcd.flush = some c ∧ s.boot.resetWaits = false) ∧
    (∃ (s : State) (c : Nat), s.rcd.flush = some c ∧ s.boot.resetWaits = true) ∧
    (∃ (s : State), s.boot.step = 0) ∧
    (∃ (s : State), s.boot.step ≠ 0) ∧
    (∃ (r : RootRes), r.identityOk = false) ∧
    (∃ (s : State), s.stepRuns = true) ∧
    (∃ (s : State), s.stepRuns = false) ∧
    (∃ (s : State) (r : StepRes), s.boot.step = 0x10 ∧ r.pass = false) ∧
    (∃ (s : State) (r : StepRes), s.boot.step = 0x15 ∧ r.pass = true) ∧
    (∃ (s : State) (r : StepRes), s.boot.step = 0x16 ∧ r.pass = true) ∧
    (∃ (s : State) (r : StepRes), s.boot.step = 0x17 ∧ r.pass = true) ∧
    (∃ (s : State) (k : Nat), s.boot.step = k ∧ s.boot.retest = false ∧ s.rd Obj.bringupAuto = 0 ∧ s.boot.runAll = false) ∧
    (∃ (s : State), s.boot.step = 0x13 ∧ s.boot.retest = true) ∧
    (∃ (s : State) (k : Nat), s.boot.step = k ∧ s.boot.retest = false ∧ (s.rd Obj.bringupAuto = 1 ∨ s.boot.runAll = true)) ∧
    (∃ (s : State), s.mapVerifies s.boot.mapNew = true) ∧
    (∃ (s : State) (a : Bool), ((a = false ∨ s.mapVerifies s.boot.mapNew = false)) ∧ s.mapVerifies s.boot.mapOld = true) ∧
    (∃ (s : State) (a b : Bool), ((a = false ∨ s.mapVerifies s.boot.mapNew = false)) ∧ ((b = false ∨ s.mapVerifies s.boot.mapOld = false))) ∧
    (∃ (s : State) (w : Who), isOpCus w = true ∧ s.holds = true ∧ s.admits w = true) ∧
    (∃ (s : State) (w : Who), isOpCus w = true ∧ s.holds = true ∧ s.admits w = true) ∧
    (∃ (s : State) (w : Who), isOpCus w = true ∧ s.holds = true ∧ (s.boot.step = 0x14 ∨ s.boot.step = 0x15) ∧ s.admits w = true) ∧
    (∃ (s : State) (w : Who), isOpCus w = true ∧ s.holds = true ∧ s.admits w = true) ∧
    (∃ (s : State) (w : Who), isOpCus w = true ∧ s.holds = false ∧ s.admits w = true) ∧
    (∃ (s : State), s.holds = true) ∧
    (∃ (s : State), s.holds = false) ∧
    (∃ (s : State), s.boot.mapDirty ≠ []) ∧
    (∃ (s : State), s.boot.mapDirty = []) :=
  ⟨⟨0, by decide⟩,
   ⟨9999, by decide⟩,
   ⟨B, 10000, by decide⟩,
   ⟨B, by decide⟩,
   ⟨{ B with rcd := { B.rcd with flush := some 1 } }, by decide⟩,
   ⟨B, cus, by decide⟩,
   ⟨B, cus, 0, by decide⟩,
   ⟨{ B with rcd := { B.rcd with flush := some 1 } }, 1, by decide +kernel⟩,
   ⟨{ { B with rcd := { (B).rcd with flush := some 3 } } with boot := { ({ B with rcd := { (B).rcd with flush := some 3 } }).boot with resetWaits := true } }, 3, by decide⟩,
   ⟨{ B with boot := { (B).boot with step := 0 } }, by decide⟩,
   ⟨B, by decide⟩,
   ⟨⟨13, false, true, true, true, true, true, true, true, []⟩, by decide⟩,
   ⟨{ B.wr Obj.pkgPowerState pwrStarting with boot := { (B.wr Obj.pkgPowerState pwrStarting).boot with step := 19, held := false } }, by decide⟩,
   ⟨B, by decide⟩,
   ⟨{ B.wr Obj.pkgPowerState pwrStarting with boot := { (B.wr Obj.pkgPowerState pwrStarting).boot with step := 0x10, held := false } }, ⟨false, true, [], [], [], [], [], [], false⟩,
     by decide⟩,
   ⟨{ B.wr Obj.pkgPowerState pwrStarting with boot := { (B.wr Obj.pkgPowerState pwrStarting).boot with step := 21, held := false } }, ⟨true, true, [], [], [], [], [], [], false⟩,
     by decide⟩,
   ⟨{ B.wr Obj.pkgPowerState pwrStarting with boot := { (B.wr Obj.pkgPowerState pwrStarting).boot with step := 22, held := false } }, ⟨true, true, [], [], [], [], [], [], false⟩,
     by decide⟩,
   ⟨{ B.wr Obj.pkgPowerState pwrStarting with boot := { (B.wr Obj.pkgPowerState pwrStarting).boot with step := 23, held := false } }, ⟨true, true, [], [], [], [], [], [], false⟩,
     by decide⟩,
   ⟨{ B.wr Obj.bringupAuto 0 with boot := { (B.wr Obj.bringupAuto 0).boot with step := 0x14 } }, 0x14, by decide⟩,
   ⟨{ B with boot := { B.boot with step := 0x13, retest := true } }, by decide⟩,
   ⟨{ B with boot := { B.boot with step := 0x14 } }, 0x14, by decide, by decide, Or.inl (by decide)⟩,
   ⟨{ B with boot := { B.boot with mapNew := { B.boot.mapNew with mac := hmac B.sec.recordKey B.boot.mapNew.bytes } } }, beq_self_eq_true _⟩,
   ⟨{ B with boot := { B.boot with mapOld := { B.boot.mapOld with mac := hmac B.sec.recordKey B.boot.mapOld.bytes } } }, false, Or.inl rfl, beq_self_eq_true _⟩,
   ⟨B, false, false, Or.inl rfl, Or.inl rfl⟩,
   ⟨{ B.wr Obj.pkgPowerState pwrStarting with boot := { (B.wr Obj.pkgPowerState pwrStarting).boot with step := 0x14, held := true } }, op, by decide⟩,
   ⟨{ B.wr Obj.pkgPowerState pwrStarting with boot := { (B.wr Obj.pkgPowerState pwrStarting).boot with step := 0x14, held := true } }, op, by decide⟩,
   ⟨{ B.wr Obj.pkgPowerState pwrStarting with boot := { (B.wr Obj.pkgPowerState pwrStarting).boot with step := 0x14, held := true } }, op, by decide, by decide, Or.inl (by decide),
     by decide⟩,
   ⟨{ B.wr Obj.pkgPowerState pwrStarting with boot := { (B.wr Obj.pkgPowerState pwrStarting).boot with step := 0x14, held := true } }, op, by decide⟩,
   ⟨B, op, by decide⟩,
   ⟨{ B.wr Obj.pkgPowerState pwrStarting with boot := { (B.wr Obj.pkgPowerState pwrStarting).boot with step := 0x14, held := true } }, by decide⟩,
   ⟨B, by decide⟩,
   ⟨{ B with boot := { (B).boot with mapDirty := [5] } }, by decide⟩,
   ⟨{ B with boot := { B.boot with mapDirty := [] } }, by decide⟩⟩

/-- The hypotheses of ClocksAndPolicy can be met. -/
theorem witness_ClocksAndPolicy :
    (∃ (s : State), s.boot.step = 2 ∧ s.boot.held = true ∧ s.rd Obj.pkgPowerState = pwrOff ∧ s.hasRef = false) ∧
    (∃ (s : State), s.hasRef = true) ∧
    (∃ (s : State), s.rd Obj.refState = 1 ∧ s.boot.refB = true) ∧
    (∃ (s : State), s.rd Obj.refState = 1 ∧ s.boot.refB = false) ∧
    (∃ (s : State), s.rd Obj.refState = 1) ∧
    (∃ (s : State), s.rd Obj.refState = 3 ∧ s.boot.held = false) ∧
    (∃ (s : State) (src : Nat), src ≠ s.boot.ptpSource) ∧
    (∃ (d : Int), d.natAbs ≤ 20000) ∧
    (∃ (s : State) (d : Int), 1000000 < d.natAbs ∧ d.natAbs < 2 ^ 32 ∧ s.rd Obj.ptpState = 0) ∧
    (∃ (s : State), s.boot.ptpHeard = true ∧ s.rd Obj.ptpOffsetAbsNs ≤ 20000) ∧
    (∃ (s : State), s.rd Obj.ptpState = 0) ∧
    (∃ (s : State), s.rd Obj.ptpState ≠ 1) ∧
    (∃ (s : State) (k : Nat), k < 2048 ∧ s.rd Obj.sparePolicyEnable ≠ 1) ∧
    (∃ (s : State) (n : Nat), n < 1920 ∧ s.rd Obj.sparePolicyEnable = 1 ∧ s.rd Obj.shadowDriftLimit < s.rd (Obj.tileDrift n) ∧ (s.tile n).subst = none) ∧
    (∃ (s : State), s.rd Obj.sparePolicyEnable ≠ 1) :=
  ⟨⟨{ (B.wr Obj.pkgPowerState pwrOff) with boot := { (B.wr Obj.pkgPowerState pwrOff).boot with step := 2, held := true } }, by decide⟩,
   ⟨{ B with boot := { (B).boot with refA := true } }, by decide⟩,
   ⟨{ (B.wr Obj.refState 1) with boot := { (B.wr Obj.refState 1).boot with refB := true } }, by decide⟩,
   ⟨{ (B.wr Obj.refState 1) with boot := { (B.wr Obj.refState 1).boot with refB := false } }, by decide⟩,
   ⟨(B.wr Obj.refState 1), by decide⟩,
   ⟨{ (B.wr Obj.refState 3) with boot := { (B.wr Obj.refState 3).boot with held := false } }, by decide⟩,
   ⟨B, 3, by decide⟩,
   ⟨0, by decide⟩,
   ⟨(B.wr Obj.ptpState 0), -1000001, by decide⟩,
   ⟨{ B.wr Obj.ptpOffsetAbsNs 20000 with boot := { (B.wr Obj.ptpOffsetAbsNs 20000).boot with ptpHeard := true } }, by decide⟩,
   ⟨(B.wr Obj.ptpState 0), by decide⟩,
   ⟨B, by decide⟩,
   ⟨B.wr Obj.sparePolicyEnable 0, 2047, by decide⟩,
   ⟨((B.wr Obj.sparePolicyEnable 1).wr Obj.shadowDriftLimit 5).wr (Obj.tileDrift 0) 6, 0, by decide⟩,
   ⟨B.wr Obj.sparePolicyEnable 0, by decide⟩⟩

/-- The hypotheses of TestPort can be met. -/
theorem witness_TestPort :
    (∃ (s : State), s.rd Obj.confidentialResident ≠ 1) ∧
    (∃ (s : State), s.rd Obj.confidentialResident ≠ 1) ∧
    (∃ (s : State), s.rd Obj.confidentialResident ≠ 1) ∧
    (∃ (s : State), s.rd Obj.confidentialResident ≠ 1) ∧
    (∃ (s : State), s.rd Obj.confidentialResident ≠ 1 ∧ s.tapFree = true) ∧
    (∃ (s : State), s.rd Obj.confidentialResident ≠ 1 ∧ s.tapFree = true) ∧
    (∃ (s : State), s.rd Obj.confidentialResident ≠ 1 ∧ s.tapFree = false) ∧
    (∃ (s : State), s.rd Obj.confidentialResident = 1) ∧
    (∃ (s : State), s.rd Obj.confidentialResident ≠ 1 ∧ s.tapFree = false) ∧
    (∃ (s t : State) (c : Instr), ((∃ b, c = .bypass b) ∨ c = .idcode ∨ c = .sample ∨ (∃ v, c = .preload v) ∨ c = .extest ∨ c = .highz) ∧ exec c s = .next t) :=
  ⟨⟨B, by decide⟩,
   ⟨B, by decide⟩,
   ⟨B, by decide⟩,
   ⟨B, by decide⟩,
   ⟨B.wr Obj.pkgPowerState pwrOff, by decide⟩,
   ⟨B.wr Obj.pkgPowerState pwrOff, by decide⟩,
   ⟨B, by decide⟩,
   ⟨(B.wr Obj.confidentialResident 1), by decide⟩,
   ⟨B, by decide⟩,
   ⟨B, _, .idcode, Or.inr (Or.inl rfl), rfl⟩⟩

/-- The hypotheses of EventRecorder can be met. -/
theorem witness_EventRecorder :
    (∃ (s : State) (e : EventIn) (q : List EventIn), s.rcd.loaded = true ∧ s.rcd.queue = e :: q ∧ s.rcd.lostNow = 0 ∧ s.openRec e = none ∧ ((∀ c, c < 64 → s.confidential c = false))) ∧
    (∃ (s : State) (e : EventIn) (q : List EventIn) (r : EvRec), s.rcd.loaded = true ∧ s.rcd.queue = e :: q ∧ s.rcd.lostNow = 0 ∧ s.openRec e = some r) ∧
    (∃ (s : State), s.rcd.queue = []) ∧
    (∃ (s : State), s.rcd.found.length < 1024) ∧
    (∃ (s : State), s.rcd.found.length = 1024) ∧
    (∃ (s : State), 1024 ≤ s.rcd.queue.length) ∧
    (∃ (s : State), 1024 ≤ s.rcd.queue.length) ∧
    (∃ (s : State), s.rcd.dirty ≠ [] ∧ s.rd Obj.erFlState = 0) ∧
    (∃ (s : State), s.rcd.dirty ≠ [] ∧ s.rd Obj.erFlState = 0) ∧
    (∃ (s : State), s.rcd.dirty = []) ∧
    (∃ (s : State), s.rd Obj.erFlState = 1) ∧
    (∃ (s : State) (w : Who) (v : Bytes), isOpCus w = true ∧ v.length = 9 ∧ byteAt v 0 ≤ 1 ∧ w.session ≠ 0 ∧ s.admits w = true) ∧
    (∃ (s : State) (w : Who) (v : Bytes), isOpCus w = true ∧ v.length = 9 ∧ 1 < byteAt v 0 ∧ s.admits w = true) ∧
    (∃ (s : State) (w : Who) (r : State × Bytes), isOpCus w = true ∧ s.snapRead w.session = r) ∧
    (∃ (w : Who), w.role = roleTenant) ∧
    (∃ (s : State) (w : Who), isCus w = true ∧ s.rcd.flush = none ∧ s.rd Obj.erFlState = 0) ∧
    (∃ (s : State) (w : Who) (v : Nat), isCus w = true ∧ v ≠ s.rd Obj.erNewestSeq ∧ s.admits w = true) ∧
    (∃ (s : State) (c : ClearOp), s.rcd.clear = some c) :=
  ⟨⟨{ B with rcd := { (B).rcd with loaded := true, queue := [⟨0x5004, 0x10, 2, noCtx, 1, 2, 3, 100, 5⟩] } }, ⟨0x5004, 0x10, 2, noCtx, 1, 2, 3, 100, 5⟩, [], by decide⟩,
   ⟨{ B with rcd := { (B).rcd with loaded := true, queue := [⟨0x5004, 0x10, 2, noCtx, 1, 2, 3, 100, 5⟩], circ := [⟨4, 100, 5, 0, 0x5004, 1, 0x10, 2, noCtx, false, false, 0, 0, 1, 2, 3⟩], openSeqs := [4] } },
     ⟨0x5004, 0x10, 2, noCtx, 1, 2, 3, 100, 5⟩, [], ⟨4, 100, 5, 0, 0x5004, 1, 0x10, 2, noCtx, false, false, 0, 0, 1, 2, 3⟩, by decide⟩,
   ⟨{ B with rcd := { B.rcd with queue := [] } }, by decide⟩,
   ⟨B, by decide⟩,
   ⟨{ B with rcd := { (B).rcd with found := List.replicate 1024 ⟨4, 100, 5, 0, 0x5004, 1, 0x10, 2, noCtx, false, false, 0, 0, 1, 2, 3⟩ } }, by decide +kernel⟩,
   ⟨{ B with rcd := { (B).rcd with queue := List.replicate 1024 ⟨0x5004, 0x10, 2, noCtx, 1, 2, 3, 100, 5⟩ } }, by decide +kernel⟩,
   ⟨{ B with rcd := { (B).rcd with queue := List.replicate 1024 ⟨0x5004, 0x10, 2, noCtx, 1, 2, 3, 100, 5⟩ } }, by decide +kernel⟩,
   ⟨{ B with rcd := { (B).rcd with dirty := [1] } }, by decide⟩,
   ⟨{ B with rcd := { (B).rcd with dirty := [1] } }, by decide⟩,
   ⟨{ B with rcd := { B.rcd with dirty := [] } }, by decide⟩,
   ⟨(B.wr Obj.erFlState 1), by decide⟩,
   ⟨B, op, [1] ++ zeros 8, by decide⟩,
   ⟨B, op, [2] ++ zeros 8, by decide⟩,
   ⟨B, op, _, by decide, rfl⟩,
   ⟨ten, by decide⟩,
   ⟨{ (B.wr Obj.erFlState 0) with rcd := { (B.wr Obj.erFlState 0).rcd with flush := none } }, cus, by decide⟩,
   ⟨B, cus, 9, by decide⟩,
   ⟨{ B with rcd := { (B).rcd with clear := some ⟨4, 7, 5, 6⟩ } }, ⟨4, 7, 5, 6⟩, by decide⟩⟩

/-- The hypotheses of StepRunsFront can be met. -/
theorem witness_StepRunsFront :
    (∃ (s : State), s.pending = [] ∧ s.sec.scRuns = [] ∧ s.sec.attest = [] ∧ s.mgmt.fwDue = []) ∧
    (∃ (s : State), s.pending = [] ∧ s.finish.sec.scRuns = [] ∧ s.finish.sec.attest = [] ∧ s.finish.mgmt.fwDue = [] ∧ s.finish.pending = []) :=
  ⟨⟨{ { B with sec := { B.sec with scRuns := [], attest := [] } } with mgmt := { { B with sec := { B.sec with scRuns := [], attest := [] } }.mgmt with fwDue := [] } }, by decide⟩,
   ⟨B, by decide⟩⟩

/-- The hypotheses of EveryStepKeepsMemory can be met. -/
theorem witness_EveryStepKeepsMemory :
    (∃ (s : State), State.safe s) ∧
    (∃ (s : State), State.safe s) :=
  ⟨⟨B, by rfl⟩,
   ⟨B, by rfl⟩⟩

/-- The hypotheses of WordsRoundTrip can be met. -/
theorem witness_WordsRoundTrip :
    (∃ (op : Nat) (f : FmtR), op < 64 ∧ FmtR.wf f = true) ∧
    (∃ (op : Nat) (f : FmtI), op < 64 ∧ FmtI.wf f = true) ∧
    (∃ (op : Nat) (f : FmtB), op < 64 ∧ FmtB.wf f = true) ∧
    (∃ (op : Nat) (f : FmtJ), op < 64 ∧ FmtJ.wf f = true) ∧
    (∃ (op : Nat) (f : FmtD), op < 64 ∧ FmtD.wf f = true) ∧
    (∃ (op : Nat) (f : FmtT), op < 64 ∧ FmtT.wf f = true) ∧
    (∃ (op func : Nat) (f : FmtV), op < 64 ∧ func < 64 ∧ FmtV.wf f = true) ∧
    (∃ (op : Nat) (f : FmtX), op < 64 ∧ FmtX.wf f = true) ∧
    (∃ (op : Nat) (f : FmtS), op < 64 ∧ FmtS.wf f = true) ∧
    (∃ (p : Packet) (t : Trailer), 1 ≤ p.flits ∧ p.flits ≤ 5 ∧ p.cls < 8 ∧ p.level < 8 ∧ p.parity < 2 ∧ p.dst < 2 ^ 24 ∧ p.src < 2 ^ 24 ∧ p.flags < 256 ∧ p.units < 256 ∧
      p.aux0 < 256 ∧ p.aux1 < 256 ∧ p.ni.length = 20 ∧ p.payload.length = 16 * p.units ∧ 16 * p.units + 64 ≤ 64 * p.flits ∧ p.tag.length = 16 ∧ t.seq < 2 ^ 24 ∧ t.ack < 2 ^ 24 ∧
      t.creditVc < 256 ∧ t.creditFlits < 256 ∧ t.poolCredit < 2 ^ 16 ∧ t.rsvZero = true) ∧
    (∃ (f : CtlFlit), 1 ≤ f.op ∧ f.op ≤ 4 ∧ f.ack < 2 ^ 24 ∧ f.replayFrom < 2 ^ 24 ∧ f.mapLogical < 256 ∧ f.mapPosition < 256 ∧ f.mapAfter < 2 ^ 16 ∧ f.credits.length = 40 ∧
      ((∀ x ∈ f.credits, x < 256)) ∧ f.poolCredit < 2 ^ 32) :=
  ⟨⟨1, ⟨31, 1, 2, 0⟩, by decide⟩,
   ⟨1, ⟨31, 0, 8192⟩, by decide⟩,
   ⟨1, ⟨1, 2, 65535⟩, by decide⟩,
   ⟨1, ⟨31, 8⟩, by decide⟩,
   ⟨1, ⟨15, 0, 0, 1⟩, by decide⟩,
   ⟨1, ⟨1, 2, 3, 0, 0, 0, 0⟩, by decide⟩,
   ⟨1, 0, ⟨31, 1, 2, 3⟩, by decide⟩,
   ⟨1, ⟨1, 2, 3, 0, 5⟩, by decide⟩,
   ⟨1, ⟨1, 0, 5, 1⟩, by decide⟩,
   ⟨pkt0, trailer0, by decide⟩,
   ⟨flit 1, by decide⟩⟩

end Sys2Proof.Tests
end

