-- ==== Sys2Proof/Tests/WitnessMemory.lean ====
section
/-! SUPPORT. States and operands that meet the hypotheses of the statements on memory, contexts and transfers: one theorem for each statement, one clause after another. -/

namespace Sys2Proof.Tests

set_option maxRecDepth 100000
set_option Elab.async false

open Sys2Proof Sys2Proof.Machine

/-- The hypotheses of GranuleWrites can be met. -/
theorem witness_GranuleWrites :
    (∃ (s : State) (pa : Nat) (d : Bytes), (s.regionOf pa = .shallows ∨ s.regionOf pa = .deeps) ∧ pa % 128 = 0 ∧ d.length = 128 ∧ s.deadGranule pa = false ∧ s.mem.moves = []) ∧
    (∃ (s : State) (pa : Nat) (d : List Byte), (s.regionOf pa = .shallows ∨ s.regionOf pa = .deeps) ∧ d ≠ [] ∧ pa % 128 + d.length ≤ 128 ∧ s.deadGranule pa = false ∧
      s.mem.moves = [] ∧ (s.markOf (pa / 128 * 128) = none ∨ s.markOf (pa / 128 * 128) = some .ce)) ∧
    (∃ (s : State) (pa : Nat) (d : List Byte), (s.regionOf pa = .shallows ∨ s.regionOf pa = .deeps) ∧ d ≠ [] ∧ pa % 128 + d.length ≤ 128 ∧ d.length < 128 ∧ s.deadGranule pa = false ∧
      (s.markOf (pa / 128 * 128) = some .ue ∨ s.markOf (pa / 128 * 128) = some .unwritten)) :=
  ⟨⟨{ B with mem := { B.mem with moves := [] } }, 0, List.replicate 128 7, by decide⟩,
   ⟨(marked .ce 0), 127, [7], by decide⟩,
   ⟨(marked .unwritten (2 ^ 42)), 2 ^ 42 + 1, [7], by decide⟩⟩

/-- The hypotheses of MemoryReadsBack can be met. -/
theorem witness_MemoryReadsBack :
    (∃ (d : Bytes) (k : Nat), k < d.length) ∧
    (∃ (pa : Nat) (d : Bytes) (a : Nat), (a < pa ∨ pa + d.length ≤ a)) ∧
    (∃ (base len a : Nat), base ≤ a ∧ a < base + len) ∧
    (∃ (base len a : Nat), (a < base ∨ base + len ≤ a)) ∧
    (∃ (s : State) (p q i j : Nat), ((s.regionOf p = .shallows ∧ s.regionOf q = .shallows) ∨ (s.regionOf p = .deeps ∧ s.regionOf q = .deeps)) ∧ p % 128 = 0 ∧ q % 128 = 0 ∧ i < 136 ∧
      j < 136 ∧ s.place p = s.place q ∧ s.cellOf p i = s.cellOf q j) ∧
    (∃ (i : Nat), i < 136) ∧
    (∃ (s : State) (p : Nat), (s.regionOf p = .shallows ∨ s.regionOf p = .deeps)) ∧
    (∃ (s : State) (g : Nat), s.markOf g = some .unwritten) ∧
    (∃ (s : State) (g : Nat), s.markOf g ≠ some .unwritten) ∧
    (∃ (s : State) (g : Nat), s.lostGranule g = false ∧ mget s.mem.marks g ≠ some .unwritten) ∧
    (∃ (s : State) (e : Evac) (c lo hi g : Nat), s.place g = (e.stack, e.logical, c) ∧ lo ≤ s.groupOf g ∧ s.groupOf g < hi) :=
  ⟨⟨[1, 0], 1, by decide⟩,
   ⟨8, [1, 2], 10, by decide⟩,
   ⟨8, 2, 9, by decide⟩,
   ⟨8, 1, 9, by decide⟩,
   ⟨B, 0, 0, 0, 0, by decide⟩,
   ⟨0, by decide⟩,
   ⟨B, 0, by decide⟩,
   ⟨(marked .unwritten 0), 0, by decide⟩,
   ⟨B, 0, by decide⟩,
   ⟨B, 0, by decide⟩,
   ⟨B, { evac0 0 0 with stack := (B.place 0).1, logical := (B.place 0).2.1 }, (B.place 0).2.2, 0, 1, 0, by decide +kernel⟩⟩

/-- The hypotheses of DramCommands can be met, the answer of the opaque `Config.eccSeesOther` apart, which may be either. -/
theorem witness_DramCommands :
    (∃ (s : State) (pa g : Nat) (l : List CellErr) (p : State), g = pa / 128 * 128 ∧ p = s.plant g l ∧ (s.regionOf pa = .shallows ∨ s.regionOf pa = .deeps) ∧
      s.regionOf g = s.regionOf pa ∧ s.deadGranule g = false) ∧
    (∃ (s : State) (pa o : Nat), (s.regionOf pa = .shallows ∨ s.regionOf pa = .deeps) ∧ s.regionOf (pa / 128 * 128) = s.regionOf pa ∧
      ((Config.eccSeesOther (pa / 128 * 128) o = true ∨ Config.eccSeesOther (pa / 128 * 128) o = false))) ∧
    (∃ (s : State) (pa : Nat), (s.regionOf pa = .shallows ∨ s.regionOf pa = .deeps) ∧ s.regionOf (pa / 128 * 128) = s.regionOf pa ∧ s.deadGranule (pa / 128 * 128) = true) ∧
    (∃ (s : State) (pa : Nat) (d : List Byte), (s.regionOf pa = .shallows ∨ s.regionOf pa = .deeps) ∧ d ≠ [] ∧ d.length < 128 ∧ pa % 128 + d.length ≤ 128 ∧ s.deadGranule pa = false ∧
      s.markOf (pa / 128 * 128) = none ∧ s.mem.moves = []) ∧
    (∃ (s : State) (pa fn : Nat) (wide : Bool) (n : Nat), n = (if wide then 8 else 4) ∧ (s.regionOf pa = .shallows ∨ s.regionOf pa = .deeps) ∧ pa % n = 0 ∧ fn ≤ 9 ∧
      s.deadGranule pa = false ∧ s.markOf (pa / 128 * 128) = none ∧ s.mem.moves = []) ∧
    (∃ (s : State) (pa : Nat), s.regionOf pa = .hole ∧ s.regionOf (pa / 128 * 128) = .hole) ∧
    (∃ (s : State) (pa g : Nat) (l : List CellErr) (p : State), g = pa / 128 * 128 ∧ p = s.plant g l ∧ (s.regionOf pa = .shallows ∨ s.regionOf pa = .deeps) ∧
      s.regionOf g = s.regionOf pa ∧ s.deadGranule g = false) ∧
    (∃ (s : State) (g : Nat), (s.markOf (g / 128 * 128) = some .ue ∨ s.markOf (g / 128 * 128) = some .unwritten)) ∧
    (∃ (s : State) (w : Who) (st p sp : Nat), isOpCus w = true ∧ st < 32 ∧ p < 17 ∧ s.rd (Obj.dramState st p) = ustActive ∧ s.spareDie st = some sp ∧
      s.mem.evacs.any (fun e => decide (e.stack = st)) = false ∧ s.admits w = true) ∧
    (∃ (s : State) (st : Nat) (e : Evac), s.evacOf st = some e ∧ s.houseRuns e.ch = true ∧ e.cur0 + 1 < groupsOf st ∧ s.badGranules e 0 e.cur0 = []) ∧
    (∃ (s : State) (st : Nat) (e : Evac), s.evacOf st = some e ∧ s.houseRuns e.ch = true ∧ e.cur0 = groupsOf st ∧ e.cur1 + 1 = groupsOf st ∧ s.badGranules e 1 e.cur1 = []) ∧
    (∃ (e : Evac), e.stack < 32 ∧ e.old < 17 ∧ e.spare < 17 ∧ e.old ≠ e.spare ∧ e.oldFailed = false) ∧
    (∃ (s : State) (st : Nat) (e : Evac), s.evacOf st = some e ∧ s.houseRuns e.ch = false) ∧
    (∃ (s : State) (e : Evac) (pa : Nat), s.mem.evacs = [e] ∧ s.place pa = (e.stack, e.logical, 0)) ∧
    (∃ (s : State) (st : Nat) (e : Evac), s.evacOf st = some e) ∧
    (∃ (s : State) (st : Nat) (e : Evac), s.evacOf st = some e ∧ e.stack = st ∧ e.cur0 = 0 ∧ e.cur1 = 0 ∧ e.oldFailed = false) ∧
    (∃ (s : State) (st p : Nat), st < 32 ∧ p < 17 ∧ s.evacOf st = none ∧ s.rd (Obj.dramState st p) = ustActive ∧ s.spareDie st = none) ∧
    (∃ (s : State) (st p sp : Nat), st < 32 ∧ p < 17 ∧ s.mem.evacs.any (fun e => decide (e.stack = st)) = false ∧ s.rd (Obj.dramState st p) = ustActive ∧ s.spareDie st = some sp) ∧
    (∃ (s : State) (st p : Nat) (e : Evac), st < 32 ∧ p < 17 ∧ s.evacOf st = some e ∧ p ≠ e.old ∧ p ≠ e.spare ∧ s.rd (Obj.dramState st p) = ustActive) :=
  ⟨⟨B, 0, _, [], _, rfl, rfl, by decide⟩,
   ⟨B, 0, 128, by decide, by decide, Bool.eq_false_or_eq_true _⟩,
   ⟨(B.wr (Obj.dramState 0 0) ustFailed), 0, by decide⟩,
   ⟨{ B with mem := { B.mem with moves := [] } }, 127, [7], by decide⟩,
   ⟨{ B with mem := { B.mem with moves := [] } }, 0, 0, true, _, rfl, by decide⟩,
   ⟨B, 2 ^ 44 - 2 ^ 42 - 1, by decide⟩,
   ⟨B, 0, _, [], _, rfl, rfl, by decide⟩,
   ⟨withMem B fun m => { m with flips := [(0, [(1, 1), (2, 1), (3, 1)])] }, 0, by decide⟩,
   ⟨(B.wr (Obj.dramState 0 0) ustActive), op, 0, 0, _, by decide, by decide, by decide, by decide, rfl, by decide⟩,
   ⟨withMem (B.wr (Obj.teState 15) ustActive) fun m => { m with evacs := [evac0 (0) (0)] }, 31, evac0 0 0, by decide⟩,
   ⟨withMem (B.wr (Obj.teState 15) ustActive) fun m => { m with evacs := [evac0 (groupsOf 31) (groupsOf 31 - 1)] }, 31, evac0 (groupsOf 31) (groupsOf 31 - 1), by decide⟩,
   ⟨evac0 0 0, by decide⟩,
   ⟨withMem B fun m => { m with evacs := [evac0 (0) (0)] }, 31, evac0 0 0, by decide⟩,
   ⟨withMem B fun m => { m with evacs := [{ evac0 0 0 with stack := (B.place 0).1, logical := (B.place 0).2.1 }] },
     { evac0 0 0 with stack := (B.place 0).1, logical := (B.place 0).2.1 }, 0, rfl, by decide +kernel⟩,
   ⟨withMem B fun m => { m with evacs := [evac0 (groupsOf 31) (groupsOf 31)] }, 31, evac0 (groupsOf 31) (groupsOf 31), by decide⟩,
   ⟨withMem B fun m => { m with evacs := [evac0 (0) (0)] }, 31, evac0 0 0, by decide⟩,
   ⟨B.wr (Obj.dramState 31 16) ustActive, 31, 16, by decide⟩,
   ⟨(B.wr (Obj.dramState 0 0) ustActive), 0, 0, _, by decide, by decide, by decide, by decide, rfl⟩,
   ⟨withMem (B.wr (Obj.dramState 31 4) ustActive) fun m => { m with evacs := [evac0 (0) (0)] }, 31, 4, evac0 0 0, by decide⟩⟩

/-- The hypotheses of Paging can be met. -/
theorem witness_Paging :
    (∃ (s : State) (w : Who) (c : Nat) (b : Bytes) (t : State), pageWriter w c = true ∧ pmOp b = 1 ∧ b.length = 32 ∧ c ≠ 0 ∧ c < 64 ∧ s.rd (Obj.pageMapStatus c) / 256 ≠ 1 ∧
      s.pmMalformedCmd b = false ∧ s.ctxSt c = ctxOpen ∧ s.pagesIn c (pmVa b) (pmLen b) = [] ∧ s.mappedMib c + pmLen b / 1048576 ≤ s.rd (Obj.ctxQuotaMib c) ∧
      tablesFor (s.mem.pages ++ (List.range (pmLen b / pageSize (pmBig b))).map fun i => (⟨c, pmVa b + i * pageSize (pmBig b), pmBig b, 0, false⟩ : PageEnt)) ≤ 4096 ∧
      State.mapGo (pmLen b / pageSize (pmBig b)) s c b (pmVa b) = some t ∧ s.admits w = true) ∧
    (∃ (n : Nat) (s t : State) (c : Nat) (b : Bytes) (va i : Nat), State.mapGo n s c b va = some t ∧ i < n) ∧
    (∃ (s : State) (w : Who) (c : Nat) (b : Bytes), pageWriter w c = true ∧ pmOp b = 2 ∧ b.length = 32 ∧ c ≠ 0 ∧ c < 64 ∧ s.rd (Obj.pageMapStatus c) / 256 ≠ 1 ∧
      s.pmMalformedCmd b = false ∧ s.ctxSt c = ctxOpen ∧
      (s.pagesIn c (pmVa b) (pmLen b)).any (fun p => decide (p.va < pmVa b) || decide (pmVa b + pmLen b < p.va + p.size)) = false ∧
      ((s.pagesIn c (pmVa b) (pmLen b)).map (·.size)).foldl (· + ·) 0 = pmLen b ∧ (s.pagesIn c (pmVa b) (pmLen b)).any (·.moving) = false ∧ s.admits w = true) ∧
    (∃ (s : State) (w : Who) (c : Nat) (b : Bytes), pageWriter w c = false ∧ pmOp b = 1 ∧ s.admits w = true) ∧
    (∃ (s : State) (pa : Nat) (f : Fill), s.fillReady (fun f => f.why == .page pa) = some f) ∧
    (∃ (s : State) (c va : Nat) (p : PageEnt) (k : Nat), ((s.pageOf c va = some p ∧ k = p.va) ∨ (s.pageOf c va = none ∧ k = va / 2097152 * 2097152))) ∧
    (∃ (s : State) (c va : Nat) (p : PageEnt) (k : Nat), ((s.pageOf c va = some p ∧ k = p.va) ∨ (s.pageOf c va = none ∧ k = va / 2097152 * 2097152))) ∧
    (∃ (s : State) (c : Nat) (m : Master) (need va n : Nat), s.winOk c m need (.virt va) n = true ∧ s.pageOf c va = none ∧ s.mem.walkUe.contains (c, va / 2097152 * 2097152) = true) :=
  ⟨⟨B.wr (Obj.ctxQuotaMib 1) 64, op, 1, pageCmd 1 2097152 4194304 0, _, by decide, by decide, by decide, by decide, by decide, by decide, by decide, by decide, by decide, by decide,
     by decide, rfl, by decide⟩,
   ⟨2, B, _, 1, pageCmd 1 2097152 4194304 0, 2097152, 1, rfl, by decide⟩,
   ⟨(B.wr (Obj.ctxState 1) ctxOpen), op, 1, pageCmd 2 0 2097152 0, by decide⟩,
   ⟨(withSess { sess9 with ctx := 2 } B), ⟨roleTenant, 2, 9, 1⟩, 1, pageCmd 1 2097152 4194304 0, by decide⟩,
   ⟨withMem (B.wr (Obj.teState 15) ustActive) fun m => { m with fills := [⟨.page 2097152, 2097152, 2097152, 15⟩] }, 2097152, ⟨.page 2097152, 2097152, 2097152, 15⟩, by decide⟩,
   ⟨B, 1, 0, ⟨1, 0, false, 0, false⟩, 0, by decide⟩,
   ⟨B, 1, 2097153, ⟨1, 0, false, 0, false⟩, 2097152, by decide⟩,
   ⟨withMem B fun m => { m with walkUe := [(1, 2097152)] }, 1, .te, permRead, 4194303, 1, by decide⟩⟩

/-- The hypotheses of ImageLoad can be met. -/
theorem witness_ImageLoad :
    (∃ (s : State) (w : Who) (ctx : Nat), (isCus w || isTenant w ctx) = true ∧ mget s.jti ctx = none ∧ s.ctxSt ctx = ctxOpen ∧ ctx < 64 ∧ s.admits w = true) ∧
    (∃ (s : State) (ctx : Nat) (j : JtiLoad) (u : State), mget s.jti ctx = some j ∧ j.step = 3 ∧ j.status = .ok ∧ s.placeRuns (tilesOf (s.rdo (Obj.tileSet ctx))) = true ∧
      s.placeGo j.image ((((jSectionList j.image).filter Section.placed).map fun c => (if c.typ = 3 then (tilesOf (s.rdo (Obj.tileSet ctx))).take (jTiles j.image) else tilesOf (s.rdo (Obj.tileSet ctx))).mapIdx fun i t => (c,
      i, t)).flatten) = (u, .ok) ∧ u.heldHit = s.heldHit) ∧
    (∃ (s : State) (ctx : Nat) (j : JtiLoad), mget s.jti ctx = some j ∧ j.step ≠ 3 ∧ j.left = 0) :=
  ⟨⟨(B.wr (Obj.ctxState 1) ctxOpen), cus, 1, by decide⟩,
   ⟨{ B.wr (Obj.teState 15) ustActive with jti := [(1, ⟨zeros 128, 3, .ok, 0⟩)] }, 1, ⟨zeros 128, 3, .ok, 0⟩, _, by decide, by decide, by decide, by decide, rfl, rfl⟩,
   ⟨{ B with jti := [(1, ⟨zeros 128, 5, .ok, 0⟩)] }, 1, ⟨zeros 128, 5, .ok, 0⟩, by decide⟩⟩

/-- The hypotheses of ContextLife can be met. -/
theorem witness_ContextLife :
    (∃ (s : State) (w : Who) (c : Nat) (b : Bytes), isOpCus w = true ∧ byteAt b 0 ≠ 2 ∧ c < 64 ∧ b.length = 16 ∧ c ≠ 0 ∧ s.rd (Obj.ctxStatus c) / 256 ≠ 1 ∧ s.openMalformed b = false ∧
      s.ctxSt c = ctxFree ∧ s.rd Obj.rngHealth = 0 ∧ s.admits w = true) ∧
    (∃ (s : State) (w : Who) (c : Nat) (b : Bytes), isOpCus w = true ∧ byteAt b 0 ≠ 2 ∧ c < 64 ∧ b.length = 16 ∧ c ≠ 0 ∧ s.rd (Obj.ctxStatus c) / 256 ≠ 1 ∧ s.openMalformed b = false ∧
      s.ctxSt c = ctxFree ∧ s.rd Obj.rngHealth ≠ 0 ∧ s.admits w = true) ∧
    (∃ (c : Nat) (b : Bytes), 0 < c ∧ c < 64 ∧ byteAt b 1 < 2) ∧
    (∃ (s : State) (w : Who) (c : Nat) (b : Bytes), isOpCus w = true ∧ byteAt b 0 = 2 ∧ c < 64 ∧ b.length = 16 ∧ c ≠ 0 ∧ allZero (slice b 1 15) = true ∧ s.ctxSt c = ctxOpen ∧
      s.ctxs.retireAfter.contains c = false ∧ s.ctxs.prots.any (fun p => p.ctx == c) = false ∧ s.admits w = true) ∧
    (∃ (s : State) (w : Who) (c : Nat) (b : Bytes), isOpCus w = true ∧ byteAt b 0 = 2 ∧ c < 64 ∧ b.length = 16 ∧ c ≠ 0 ∧ allZero (slice b 1 15) = true ∧ s.ctxSt c = ctxRetiring ∧
      s.admits w = true) ∧
    (∃ (s : State) (w : Who) (b : Bytes), isOpCus w = true ∧ byteAt b 0 = 2 ∧ b.length = 16 ∧ s.admits w = true) ∧
    (∃ (s : State) (w : Who) (b : Bytes), isOpCus w = false ∧ byteAt b 0 ≠ 2 ∧ s.admits w = true) ∧
    (∃ (s : State) (c : Nat), c ≠ 0 ∧ s.ctxSt c = ctxRetiring ∧ s.rd (Obj.retireStep c) = 2) ∧
    (∃ (s : State) (k cache : Nat) (h : Shootdown), s.mem.shoots[k]? = some h ∧ h.waiting.filter (fun x => x != cache) = []) ∧
    (∃ (s : State) (k cache : Nat) (h : Shootdown), s.mem.shoots[k]? = some h ∧ h.waiting.filter (fun x => x != cache) ≠ []) ∧
    (∃ (s : State) (c : Nat) (f : Fill), s.fillReady (·.ofRetire c) = some f ∧ (s.fillDone f).mem.fills.any (·.ofRetire c) = false) ∧
    (∃ (s : State) (c : Nat) (f : Fill), s.fillReady (·.ofRetire c) = some f ∧ (s.fillDone f).mem.fills.any (·.ofRetire c) = true) ∧
    (∃ (s : State) (c : Nat), s.fillReady (·.ofRetire c) = none ∧ s.mem.fills.any (·.ofRetire c) = true) ∧
    (∃ (c : Nat), 0 < c ∧ c < 64) :=
  ⟨⟨B, op, 63, [1, 0, 1, 64] ++ leBytes 4 1597440 ++ [0xFF] ++ zeros 7, by decide⟩,
   ⟨(B.wr Obj.rngHealth 1), op, 63, [1, 0, 1, 64] ++ leBytes 4 1597440 ++ [0xFF] ++ zeros 7, by decide⟩,
   ⟨1, [], by decide⟩,
   ⟨(B.wr (Obj.ctxState 1) ctxOpen), op, 1, [2] ++ zeros 15, by decide⟩,
   ⟨(B.wr (Obj.ctxState 1) ctxRetiring), op, 1, [2] ++ zeros 15, by decide⟩,
   ⟨B, op, 2 :: zeros 15, by decide⟩,
   ⟨B, ten, [], by decide⟩,
   ⟨((B.wr (Obj.ctxState 1) ctxRetiring).wr (Obj.retireStep 1) 2), 1, by decide⟩,
   ⟨withMem B fun m => { m with shoots := [⟨.unmap 1, [4], []⟩] }, 0, 4, ⟨.unmap 1, [4], []⟩, by decide⟩,
   ⟨withMem B fun m => { m with shoots := [⟨.unmap 1, [4, 5], []⟩] }, 0, 4, ⟨.unmap 1, [4, 5], []⟩, by decide⟩,
   ⟨withMem ((B.wr (Obj.teState 15) ustActive).wr (Obj.ctxState 1) ctxRetiring) fun m => { m with fills := [⟨.retireSram 1, tilePa 0 0, 2097152, 15⟩] }, 1, ⟨.retireSram 1,
     tilePa 0 0, 2097152, 15⟩, by decide⟩,
   ⟨withMem ((B.wr (Obj.teState 15) ustActive).wr (Obj.ctxState 1) ctxRetiring) fun m => { m with fills := [⟨.retireSram 1, tilePa 0 0, 2097152, 15⟩, ⟨.retireSram 1, tilePa 480 0, 2097152, 31⟩] },
     1, ⟨.retireSram 1, tilePa 0 0, 2097152, 15⟩, rfl, by decide⟩,
   ⟨withMem ((B.wr (Obj.teState 15) ustFailed).wr (Obj.ctxState 1) ctxRetiring) fun m => { m with fills := [⟨.retireSram 1, tilePa 0 0, 2097152, 15⟩, ⟨.retireSram 1, tilePa 480 0, 2097152, 31⟩] },
     1, by decide⟩,
   ⟨1, by decide⟩⟩

/-- The hypotheses of ProtectionCommit can be met. -/
theorem witness_ProtectionCommit :
    (∃ (s : State) (w : Who) (c : Nat), isOpCus w = true ∧ c < 64 ∧ c ≠ 0 ∧ ((s.confidential c = true → isCus w = true)) ∧ s.ctxSt c = ctxOpen ∧ s.rd (Obj.protStatus c) / 256 ≠ 1 ∧
      s.admits w = true) ∧
    (∃ (s : State) (w : Who) (c : Nat), isOpCus w = true ∧ c < 64 ∧ c ≠ 0 ∧ ((s.confidential c = true → isCus w = true)) ∧ s.ctxSt c ≠ ctxOpen ∧ s.rd (Obj.protStatus c) / 256 ≠ 1 ∧
      s.admits w = true) ∧
    (∃ (s : State) (p : ProtRun), 0 < p.ctx ∧ p.ctx < 64 ∧ p.newWins.any windowBad = false ∧ s.protOverlap p.ctx p.newTiles p.newWins = false ∧
      s.protExclusive p.ctx p.newTiles = false ∧ s.protWaits p.ctx p.newTiles p.newWins = false ∧ p.newWins.length = 64) ∧
    (∃ (s : State) (c : Nat) (p : ProtRun), s.ctxs.prots.find? (fun p => p.ctx == c && p.step == 2) = some p ∧ tilesOf p.oldTiles = [] ∧ s.mem.fills = []) ∧
    (∃ (s : State) (c : Nat) (f : Fill) (p : ProtRun), s.fillReady (fun f => f.why == .commitSram c) = some f ∧
      (s.fillDone f).mem.fills.any (fun f => f.why == .commitSram c) = false ∧ s.ctxs.prots.find? (fun p => p.ctx == c && p.step == 4) = some p) ∧
    (∃ (s : State) (w : Who) (c : Nat), isOpCus w = true ∧ c < 64 ∧ c ≠ 0 ∧ ((s.confidential c = true → isCus w = true)) ∧ s.ctxSt c = ctxOpen ∧ s.rd (Obj.protStatus c) / 256 ≠ 1 ∧
      s.admits w = true) :=
  ⟨⟨(B.wr (Obj.ctxState 1) ctxOpen), op, 1, by decide⟩,
   ⟨(B.wr (Obj.ctxState 1) ctxFree), op, 1, by decide⟩,
   ⟨B, ⟨1, 1, [1] ++ zeros 239, List.replicate 64 (zeros 32), zeros 240, []⟩, by decide⟩,
   ⟨{ B with ctxs := { B.ctxs with prots := [⟨1, 2, [1] ++ zeros 239, List.replicate 64 (zeros 32), zeros 240, []⟩] } }, 1, ⟨1, 2, [1] ++ zeros 239, List.replicate 64 (zeros 32),
     zeros 240, []⟩, by decide⟩,
   ⟨withMem { (B.wr (Obj.teState 15) ustActive) with ctxs := { B.ctxs with prots := [⟨1, 4, [1] ++ zeros 239, List.replicate 64 (zeros 32), zeros 240, []⟩] } } fun m => { m with fills := [⟨.commitSram 1, tilePa 0 0, 2097152, 15⟩] },
     1, ⟨.commitSram 1, tilePa 0 0, 2097152, 15⟩, ⟨1, 4, [1] ++ zeros 239, List.replicate 64 (zeros 32), zeros 240, []⟩, by decide⟩,
   ⟨(B.wr (Obj.ctxState 1) ctxOpen), op, 1, by decide⟩⟩

/-- The hypotheses of TransferQueues can be met. -/
theorem witness_TransferQueues :
    (∃ (s : State) (c : Nat) (a : TeActive) (u : State), Starts s c 1 a u) ∧
    (∃ (s : State) (c : Nat) (a : TeActive) (u : State), Starts s c 2 a u) ∧
    (∃ (s : State) (c : Nat) (a : TeActive) (u : State), Starts s c 3 a u) ∧
    (∃ (s : State) (c : Nat) (a : TeActive) (u : State), Starts s c 4 a u) ∧
    (∃ (s : State) (c : Nat) (a : TeActive) (u : State), Starts s c 5 a u) ∧
    (∃ (s : State) (c : Nat) (d : TeDesc) (q : List TeDesc), (s.chan c).queue = d :: q ∧ dMode d.bytes = 2 ∧ s.teMayStart c d = true ∧ s.teMalformed c d.bytes = true) ∧
    (∃ (s : State) (c k : Nat) (a : TeActive) (ctx : Nat) (r : MoveR), (s.chan c).active.find? (fun a => decide (a.serial = k)) = some a ∧ s.teOwnerOf c = some ctx ∧
      a.phase = .working ∧ dMode a.bytes < 6 ∧ s.teMove c ctx a.bytes allGranules = r ∧ r.st ≠ .violation ∧ (r.s.teFinish c a r.st r.detail r.bytes r.count).heldHit = s.heldHit) ∧
    (∃ (s : State) (c k : Nat) (a : TeActive) (ctx : Nat) (r : MoveR), (s.chan c).active.find? (fun a => decide (a.serial = k)) = some a ∧ s.teOwnerOf c = some ctx ∧
      a.phase = .working ∧ dMode a.bytes < 6 ∧ s.teMove c ctx a.bytes allGranules = r ∧ r.st ≠ .violation ∧ s.heldHit < (r.s.teFinish c a r.st r.detail r.bytes r.count).heldHit) ∧
    (∃ (s : State) (c k : Nat) (a : TeActive) (ctx : Nat) (r : MoveR), (s.chan c).active.find? (fun a => decide (a.serial = k)) = some a ∧ s.teOwnerOf c = some ctx ∧
      a.phase = .working ∧ dMode a.bytes < 6 ∧ s.teMove c ctx a.bytes allGranules = r ∧ r.st = .violation ∧ r.detail = tdWindow ∧
      ((r.s.teFinish c a .violation tdWindow r.bytes r.count).freezeTe c a.epoch r.addr).heldHit = s.heldHit) ∧
    (∃ (s : State) (w : Who) (c v : Nat), s.teWriter w c = true ∧ v < s.rd (Obj.teSqEntries c) ∧ s.admits w = true) ∧
    (∃ (s : State) (w : Who) (c v : Nat), s.teWriter w c = true ∧ v < s.rd (Obj.teCqEntries c) ∧ s.admits w = true) ∧
    (∃ (s : State) (w : Who) (c : Nat), s.teWriter w c = false ∧ s.admits w = true) ∧
    (∃ (s : State) (c ctx : Nat) (a : AccR), s.teOwnerOf c = some ctx ∧ ctx ≠ 0 ∧ s.rd (Obj.teState c) = ustActive ∧ s.chanUp c = true ∧
      s.rd (Obj.teSqHead c) ≠ s.rd (Obj.teSqTail c) ∧ s.read ctx (chanMaster c) permRead (.virt (s.rd (Obj.teSqBase c) + 64 * s.rd (Obj.teSqHead c))) 64 = a ∧ a.st = .ok ∧
      a.s.heldHit = s.heldHit) ∧
    (∃ (s : State) (c ctx : Nat) (a : AccR) (u t : State), s.teOwnerOf c = some ctx ∧ ctx ≠ 0 ∧ s.rd (Obj.teState c) = ustActive ∧ s.chanUp c = true ∧
      s.rd (Obj.teSqHead c) ≠ s.rd (Obj.teSqTail c) ∧ s.read ctx (chanMaster c) permRead (.virt (s.rd (Obj.teSqBase c) + 64 * s.rd (Obj.teSqHead c))) 64 = a ∧ a.st = .violation ∧
      a.win = true ∧ u = a.s.wr (Obj.teSqHead c) ((s.rd (Obj.teSqHead c) + 1) % s.rd (Obj.teSqEntries c)) ∧
      t = (u.setChan c { u.chan c with nextSerial := (u.chan c).nextSerial + 1 }).recordDesc c (u.chan c).nextSerial (zeros 4) .violation tdWindow 0xFF 0 0) ∧
    (∃ (b : Bytes), dMode b = 1) ∧
    (∃ (b : Bytes), dMode b = 2) ∧
    (∃ (b : Bytes), dMode b = 3) ∧
    (∃ (b : Bytes), dMode b = 4) ∧
    (∃ (s : State) (ctx : Nat) (m : Master) (b : Bytes) (k v : Nat) (w : AccR), 0 < v ∧ s.read ctx m permRead ((teLoc ctx (dAux b)).adv (8 * k)) 8 = w ∧ w.st = .ok ∧
      elemBad (leNat w.data) (dElem b) = true) ∧
    (∃ (s : State) (ctx : Nat) (m : Master) (b : Bytes) (k v : Nat) (w : AccR) (a : Nat), 0 < v ∧ s.read ctx m permRead ((teLoc ctx (dAux b)).adv (8 * k)) 8 = w ∧ w.st = .ok ∧
      elemBad (leNat w.data) (dElem b) = false ∧ w.s.elemCheck ctx m (teLoc ctx (leNat w.data)) ((teLoc ctx (dDst b)).adv (k * dElem b)) (dElem b) = some a) ∧
    (∃ (b : Bytes) (v : Nat), dMode b = 2 ∧ v * 128 ≤ dLen b ∧ dDst b % 128 = 0) :=
  ⟨⟨teSt 3 (desc 1 0 0 4096 64 0 0), 3, _, _, ⟨⟨0, desc 1 0 0 4096 64 0 0, false⟩, [], rfl, by decide, by decide, by decide, rfl, rfl⟩⟩,
   ⟨teSt 3 (desc 2 0 0 4096 64 0 77), 3, _, _, ⟨⟨0, desc 2 0 0 4096 64 0 77, false⟩, [], rfl, by decide, by decide, by decide, rfl, rfl⟩⟩,
   ⟨teSt 3 (desc 3 0 0 4096 128 0 0), 3, _, _, ⟨⟨0, desc 3 0 0 4096 128 0 0, false⟩, [], rfl, by decide, by decide, by decide, rfl, rfl⟩⟩,
   ⟨teSt 3 (desc 4 2 0 4096 0 64 8192), 3, _, _, ⟨⟨0, desc 4 2 0 4096 0 64 8192, false⟩, [], rfl, by decide, by decide, by decide, rfl, rfl⟩⟩,
   ⟨teSt 3 (desc 5 2 4096 0 0 64 8192), 3, _, _, ⟨⟨0, desc 5 2 4096 0 0 64 8192, false⟩, [], rfl, by decide, by decide, by decide, rfl, rfl⟩⟩,
   ⟨teSt 3 (desc 2 0 0 4097 64 0 77), 3, ⟨0, desc 2 0 0 4097 64 0 77, false⟩, [], by decide⟩,
   ⟨teAct 3 (desc 2 0 0 4096 64 0 77) .working, 3, 0, actv (desc 2 0 0 4096 64 0 77) .working, 1, _, by decide, by decide, by decide, by decide, rfl, by decide⟩,
   ⟨onTile (teAct 3 (desc 2 0 0 (2 ^ 63) 64 0 77) .working) 0 fun t => { t with subst := some ⟨3, 500, false, false⟩ }, 3, 0, actv (desc 2 0 0 (2 ^ 63) 64 0 77) .working, 1, _,
     by decide +kernel, by decide +kernel, by decide +kernel, by decide +kernel, rfl, by decide +kernel⟩,
   ⟨teAct 3 (desc 2 0 0 (2 ^ 47) 64 0 77) .working, 3, 0, actv (desc 2 0 0 (2 ^ 47) 64 0 77) .working, 1, _, by decide, by decide, by decide, by decide, rfl, by decide⟩,
   ⟨((B.wr (Obj.teOwner 3) 1).wr (Obj.teSqEntries 3) 4).wr (Obj.teCqEntries 3) 4, ten, 3, 3, by decide⟩,
   ⟨((B.wr (Obj.teOwner 3) 1).wr (Obj.teSqEntries 3) 4).wr (Obj.teCqEntries 3) 4, ten, 3, 3, by decide⟩,
   ⟨(withSess { sess9 with ctx := 2 } B), ⟨roleTenant, 2, 9, 1⟩, 1, by decide⟩,
   ⟨(((B.wr (Obj.teOwner 3) 1).wr (Obj.teSqEntries 3) 4).wr (Obj.teState 3) ustActive).wr (Obj.teSqTail 3) 3, 3, 1, _, by decide, by decide, by decide, by decide, by decide, rfl,
     by decide⟩,
   ⟨((((B.wr (Obj.teOwner 3) 1).wr (Obj.teSqEntries 3) 4).wr (Obj.teState 3) ustActive).wr (Obj.teSqTail 3) 3).wr (Obj.teSqBase 3) (2 ^ 41), 3, 1, _, _, _, by decide, by decide,
     by decide, by decide, by decide, rfl, by decide, by decide, rfl, rfl⟩,
   ⟨desc 1 0 0 4096 64 0 0, by decide⟩,
   ⟨desc 2 0 0 4096 64 0 77, by decide⟩,
   ⟨desc 3 0 0 4096 128 0 0, by decide⟩,
   ⟨desc 4 2 0 4096 0 64 8192, by decide⟩,
   ⟨{ B with mem := (B.mem.put 8192 (leBytes 8 (2 ^ 62))) }, 1, .te, desc 4 2 0 4096 0 64 8192, 0, 1, _, by decide +kernel, rfl, by decide +kernel⟩,
   ⟨{ B with mem := (B.mem.put 8192 (leBytes 8 (2 ^ 41))) }, 1, .te, desc 4 2 0 4096 0 64 8192, 0, 1, _, 2 ^ 41, by decide +kernel, rfl, by decide +kernel⟩,
   ⟨desc 2 0 0 4096 256 0 77, 1, by decide⟩⟩

/-- The hypotheses of Migration can be met. -/
theorem witness_Migration :
    (∃ (s : State) (c : Nat) (a : TeActive) (u : State) (p : PageEnt) (pa : Nat), (s.chan c).active.filter (fun a => a.phase == .waitPage || a.phase == .waitMove) = [] ∧
      Starts s c 6 a u ∧ u.check ((u.teOwnerOf c).getD 0) .te permRead (teLoc ((u.teOwnerOf c).getD 0) (dSrc a.bytes)) 1 = none ∧
      u.pageOf ((u.teOwnerOf c).getD 0) (dSrc a.bytes) = some p ∧ p.moving = false ∧ u.alreadyThere p.pa (dAux a.bytes % 256) (dAux a.bytes / 256 % 256) = false ∧
      u.takePage (dAux a.bytes % 256) (dAux a.bytes / 256 % 256) p.big = some pa) ∧
    (∃ (s : State) (c k : Nat) (a : TeActive), (s.chan c).active.find? (fun a => decide (a.serial = k ∧ a.phase = .waitPage)) = some a) ∧
    (∃ (s : State) (c k : Nat), (s.chan c).active.find? (fun a => decide (a.serial = k ∧ a.phase = .waitPage)) = none) ∧
    (∃ (s : State) (c k : Nat) (m : Move) (r : State × Status × Bytes), s.moveOf c k = some m ∧ m.started = true ∧ m.cursor < granulesOf m.big ∧
      s.readBlock (m.src + 128 * m.cursor) 128 = r ∧ r.2.1 = .ok) ∧
    (∃ (s : State) (c k : Nat) (m : Move), s.moveOf c k = some m ∧ m.cursor = granulesOf m.big ∧ s.mem.waitUnmap = []) :=
  ⟨⟨teSt 3 (desc 6 0 0 0 1 0 1), 3, _, _, ⟨1, 0, false, 0, false⟩, 4398046511104, by decide, ⟨⟨0, desc 6 0 0 0 1 0 1, false⟩, [], rfl, by decide, by decide, by decide, rfl, rfl⟩,
     by decide⟩,
   ⟨teAct 3 (desc 6 0 0 0 1 0 1) .waitPage, 3, 0, actv (desc 6 0 0 0 1 0 1) .waitPage, by decide⟩,
   ⟨B, 1, 0, by decide⟩,
   ⟨withMem B fun m => { m with moves := [move0 0] }, 3, 0, move0 0, _, by decide, by decide, by decide, rfl, by decide⟩,
   ⟨withMem B fun m => { m with moves := [move0 16384] }, 3, 0, move0 16384, by decide⟩⟩

/-- The hypotheses of TransferControl can be met. -/
theorem witness_TransferControl :
    (∃ (s : State) (w : Who) (c : Nat), isOpCus w = true ∧ c < 72 ∧ isHouse c = false ∧ s.rd (Obj.teState c) = ustActive ∧ s.admits w = true) ∧
    (∃ (s : State) (w : Who) (c : Nat), isOpCus w = true ∧ c < 72 ∧ isHouse c = true ∧ isCus w = false ∧ s.admits w = true) ∧
    (∃ (s : State) (w : Who) (c o : Nat), isOpCus w = true ∧ c < 72 ∧ s.rd (Obj.teState c) = ustDisabled ∧ s.teOwnerOf c = some o ∧ (isHte c = true ∨ s.mastersMay = true) ∧
      s.admits w = true) ∧
    (∃ (s : State) (w : Who) (c : Nat), isOpCus w = true ∧ c < 72 ∧ s.rd (Obj.teState c) = ustDisabled ∧ s.teOwnerOf c = none ∧ s.admits w = true) ∧
    (∃ (s : State) (w : Who) (c : Nat), isCus w = true ∧ c < 72 ∧ s.rd (Obj.teState c) = ustFrozen ∧ (s.chan c).heldDisable = false ∧ s.admits w = true) ∧
    (∃ (s : State) (w : Who) (c : Nat), isCus w = true ∧ c < 72 ∧ s.rd (Obj.teState c) = ustFrozen ∧ (s.chan c).heldDisable = true ∧ s.admits w = true) ∧
    (∃ (s : State) (w : Who) (c : Nat), isCus w = true ∧ c < 72 ∧ s.rd (Obj.teState c) = ustFrozen ∧ (s.chan c).heldDisable = false ∧ (s.chan c).queue = [] ∧ s.admits w = true) ∧
    (∃ (s : State) (w : Who) (c : Nat), isCus w = true ∧ c < 72 ∧ s.rd (Obj.teState c) ≠ ustFrozen ∧ s.admits w = true) ∧
    (∃ (s : State) (c : Nat), c < 72 ∧ s.rd (Obj.teState c) ≠ ustFailed ∧ s.rd (Obj.teState c) ≠ ustDisabled) ∧
    (∃ (s : State) (c : Nat), s.rd (Obj.teState c) = ustDisabled) ∧
    (∃ (s : State) (w : Who) (c v : Nat), isOpCus w = true ∧ c < 72 ∧ isHouse c = false ∧ (s.rd (Obj.teState c) = ustDisabled ∨ s.rd (Obj.teState c) = ustFailed) ∧ 0 < v ∧ v < 64 ∧
      s.admits w = true) :=
  ⟨⟨(B.wr (Obj.teState 1) ustActive), op, 1, by decide⟩,
   ⟨B, op, 63, by decide⟩,
   ⟨(B.wr (Obj.teState 71) ustDisabled).wr (Obj.teOwner 71) 1, op, 71, 1, by decide⟩,
   ⟨(B.wr (Obj.teState 1) ustDisabled), op, 1, by decide⟩,
   ⟨(B.wr (Obj.teState 1) ustFrozen), cus, 1, by decide⟩,
   ⟨(B.wr (Obj.teState 3) ustFrozen).setChan 3 { TeChan.init with heldDisable := true }, cus, 3, by decide⟩,
   ⟨(B.wr (Obj.teState 1) ustFrozen), cus, 1, by decide⟩,
   ⟨B, cus, 1, by decide⟩,
   ⟨B.wr (Obj.teState 3) ustActive, 3, by decide⟩,
   ⟨(B.wr (Obj.teState 1) ustDisabled), 1, by decide⟩,
   ⟨B.wr (Obj.teState 62) ustDisabled, op, 62, 63, by decide⟩⟩

/-- The hypotheses of HostTransfers can be met. -/
theorem witness_HostTransfers :
    (∃ (s : State) (c : Nat) (a : TeActive) (u : State), Starts s c 8 a u ∧ s.qpPaused (c - 64) (dCount a.bytes) = false ∧ u.rd (Obj.hteQpState (c - 64) (dCount a.bytes)) = qpReady) ∧
    (∃ (s : State) (c : Nat) (a : TeActive) (u : State) (r : AccR), Starts s c 9 a u ∧ s.qpPaused (c - 64) (dCount a.bytes) = false ∧
      u.rd (Obj.hteQpState (c - 64) (dCount a.bytes)) = qpReady ∧
      u.read ((u.teOwnerOf c).getD 0) .hte permRead (teLoc ((u.teOwnerOf c).getD 0) (dSrc a.bytes)) (dLen a.bytes) = r ∧ r.st = .ok ∧ r.win = false ∧ r.s.heldHit = s.heldHit ∧
      r.data ≠ []) ∧
    (∃ (s : State) (c : Nat) (a : TeActive) (u : State) (r : AccR), Starts s c 10 a u ∧ s.qpPaused (c - 64) (dCount a.bytes) = false ∧
      u.rd (Obj.hteQpState (c - 64) (dCount a.bytes)) = qpReady ∧
      u.read ((u.teOwnerOf c).getD 0) .hte permRead (teLoc ((u.teOwnerOf c).getD 0) (dSrc a.bytes)) (dLen a.bytes) = r ∧ r.st = .ok ∧ r.win = false ∧ r.s.heldHit = s.heldHit ∧
      r.data ≠ []) ∧
    (∃ (s : State) (h q : Nat) (r : RdmaResp), s.rd (Obj.hteQpState h q) = qpReady ∧ r.kind = 0) ∧
    (∃ (s : State) (h q : Nat) (r : RdmaResp), s.rd (Obj.hteQpState h q) = qpReady ∧ r.kind = 2) ∧
    (∃ (s : State) (h q : Nat) (r : RdmaResp) (x : RdmaPkt) (l : List RdmaPkt), s.rd (Obj.hteQpState h q) = qpReady ∧ r.kind = 1 ∧ 0 < r.code ∧ r.code < 32 ∧
      (s.qp h q).unacked = x :: l ∧ x.op = 0x0C) ∧
    (∃ (s : State) (h q : Nat) (x : RdmaPkt) (l : List RdmaPkt), (s.qp h q).unacked = x :: l ∧ 7 ≤ (s.qp h q).retries) ∧
    (∃ (s : State) (h q : Nat) (x : RdmaPkt) (l : List RdmaPkt), (s.qp h q).unacked = x :: l ∧ (s.qp h q).retries < 7) ∧
    (∃ (s : State) (h q : Nat), s.rd (Obj.mportLink (s.qpPort h q)) ≠ 1 ∧ (s.chan (64 + h)).active.any (usesQp q) = true) ∧
    (∃ (s : State) (w : Who) (h q : Nat) (v : Bytes), isOpCus w = true ∧ h < 8 ∧ q < 16 ∧ v.length = 32 ∧ byteAt v 19 = 0 ∧ byteAt v 23 = 1 ∧ allZero (slice v 24 8) = true ∧
      byteAt v 20 ≤ 1 ∧ byteAt v 21 ≤ 1 ∧ s.rd (Obj.teState (64 + h)) = ustDisabled ∧ s.admits w = true) :=
  ⟨⟨withQp (teSt 64 (desc 8 15 0 4096 64 0 65536)), 64, _, _, ⟨⟨0, desc 8 15 0 4096 64 0 65536, false⟩, [], rfl, by decide, by decide, by decide, rfl, rfl⟩, by decide⟩,
   ⟨withQp (teSt 64 (desc 9 15 4096 0 64 0 65536)), 64, _, _, _, ⟨⟨0, desc 9 15 4096 0 64 0 65536, false⟩, [], rfl, by decide, by decide, by decide, rfl, rfl⟩, by decide, by decide,
     rfl, by decide⟩,
   ⟨withQp (teSt 64 (desc 10 15 4096 0 64 0 65536)), 64, _, _, _, ⟨⟨0, desc 10 15 4096 0 64 0 65536, false⟩, [], rfl, by decide, by decide, by decide, rfl, rfl⟩, by decide,
     by decide, rfl, by decide⟩,
   ⟨qpWait 0x0C 0, 0, 15, ⟨0, 0, 0, zeros 64⟩, by decide⟩,
   ⟨qpWait 0x0C 0, 0, 15, ⟨2, 0, 0, zeros 64⟩, by decide⟩,
   ⟨qpWait 0x0C 0, 0, 15, ⟨1, 0, 31, []⟩, rdma0 0x0C, [], by decide⟩,
   ⟨qpWait 0x0A 7, 0, 15, rdma0 0x0A, [], by decide⟩,
   ⟨qpWait 0x0A 6, 0, 15, rdma0 0x0A, [], by decide⟩,
   ⟨(withQp (teAct 64 (desc 8 15 0 4096 64 0 65536) .working)).wr (Obj.mportLink 1) 0, 0, 15, by decide⟩,
   ⟨B.wr (Obj.teState 71) ustDisabled, op, 7, 15, qpBytes, by decide⟩⟩

end Sys2Proof.Tests
end

