-- ==== Sys2Proof/Tests/WitnessTiles.lean ====
section
/-! SUPPORT. States and operands that meet the hypotheses of the statements on tiles and their instructions: one theorem for each statement, one clause after another. -/

namespace Sys2Proof.Tests

set_option maxRecDepth 100000
set_option Elab.async false

open Sys2Proof Sys2Proof.Machine

/-- The hypotheses of ElementCodes can be met. -/
theorem witness_ElementCodes :
    (∃ (f c : Nat), (f = 0x0C ∨ f = 0x0E) ∧ c < 16) ∧
    (∃ (f : Nat), (f = 0x0C ∨ f = 0x0E)) ∧
    (∃ (f c : Nat), (f = 0x06 ∨ f = 0x0F) ∧ c < 16) ∧
    (∃ (c : Nat), c < 4) ∧
    (∃ (c : Nat), c < 4) ∧
    (∃ (mode : Nat) (floorMode : Bool) (r : Nat → Nat) (l : List Machine.Num) (k : Nat), k ∈ (quantBlock 0x10 mode floorMode r l).codes) :=
  ⟨⟨14, 15, by decide⟩,
   ⟨12, by decide⟩,
   ⟨15, 15, by decide⟩,
   ⟨3, by decide⟩,
   ⟨3, by decide⟩,
   ⟨0, true, fun _ => 0, [.fin false 1 0], 1, by decide⟩⟩

/-- The hypotheses of ScalarInstructions can be met. -/
theorem witness_ScalarInstructions :
    (∃ (s : State) (n : Nat) (f : FmtR) (r : RunTask) (s' : State), FmtR.wf f = true ∧ f.rsv = 0 ∧ Fetches s n (eR 0x01 f) r s') ∧
    (∃ (s : State) (n : Nat) (f : FmtR) (r : RunTask) (s' : State), FmtR.wf f = true ∧ f.rsv = 0 ∧ Fetches s n (eR 0x02 f) r s') ∧
    (∃ (s : State) (n : Nat) (f : FmtR) (r : RunTask) (s' : State), FmtR.wf f = true ∧ f.rsv = 0 ∧ Fetches s n (eR 0x03 f) r s') ∧
    (∃ (s : State) (n : Nat) (f : FmtR) (r : RunTask) (s' : State), FmtR.wf f = true ∧ f.rsv = 0 ∧ Fetches s n (eR 0x04 f) r s') ∧
    (∃ (s : State) (n : Nat) (f : FmtR) (r : RunTask) (s' : State), FmtR.wf f = true ∧ f.rsv = 0 ∧ Fetches s n (eR 0x05 f) r s') ∧
    (∃ (s : State) (n : Nat) (f : FmtR) (r : RunTask) (s' : State), FmtR.wf f = true ∧ f.rsv = 0 ∧ Fetches s n (eR 0x06 f) r s') ∧
    (∃ (s : State) (n : Nat) (f : FmtR) (r : RunTask) (s' : State), FmtR.wf f = true ∧ f.rsv = 0 ∧ Fetches s n (eR 0x07 f) r s') ∧
    (∃ (s : State) (n : Nat) (f : FmtR) (r : RunTask) (s' : State), FmtR.wf f = true ∧ f.rsv = 0 ∧ Fetches s n (eR 0x08 f) r s') ∧
    (∃ (s : State) (n : Nat) (f : FmtR) (r : RunTask) (s' : State), FmtR.wf f = true ∧ f.rsv = 0 ∧ Fetches s n (eR 0x09 f) r s') ∧
    (∃ (s : State) (n : Nat) (f : FmtI) (r : RunTask) (s' : State), FmtI.wf f = true ∧ Fetches s n (eI 0x0A f) r s') ∧
    (∃ (s : State) (n : Nat) (f : FmtI) (r : RunTask) (s' : State), FmtI.wf f = true ∧ Fetches s n (eI 0x0B f) r s') ∧
    (∃ (s : State) (n : Nat) (f : FmtI) (r : RunTask) (s' : State), FmtI.wf f = true ∧ f.ra = 0 ∧ Fetches s n (eI 0x0C f) r s') :=
  ⟨⟨(code (eR 0x01 (⟨31, 1, 2, 0⟩ : FmtR)) id), 0, ⟨31, 1, 2, 0⟩, run1, _, by decide, by decide, ⟨by decide, by decide, by decide, rfl, by decide⟩⟩,
   ⟨(code (eR 0x02 (⟨31, 1, 2, 0⟩ : FmtR)) id), 0, ⟨31, 1, 2, 0⟩, run1, _, by decide, by decide, ⟨by decide, by decide, by decide, rfl, by decide⟩⟩,
   ⟨(code (eR 0x03 (⟨31, 1, 2, 0⟩ : FmtR)) id), 0, ⟨31, 1, 2, 0⟩, run1, _, by decide, by decide, ⟨by decide, by decide, by decide, rfl, by decide⟩⟩,
   ⟨(code (eR 0x04 (⟨31, 1, 2, 0⟩ : FmtR)) id), 0, ⟨31, 1, 2, 0⟩, run1, _, by decide, by decide, ⟨by decide, by decide, by decide, rfl, by decide⟩⟩,
   ⟨(code (eR 0x05 (⟨31, 1, 2, 0⟩ : FmtR)) id), 0, ⟨31, 1, 2, 0⟩, run1, _, by decide, by decide, ⟨by decide, by decide, by decide, rfl, by decide⟩⟩,
   ⟨(code (eR 0x06 (⟨31, 1, 2, 0⟩ : FmtR)) id), 0, ⟨31, 1, 2, 0⟩, run1, _, by decide, by decide, ⟨by decide, by decide, by decide, rfl, by decide⟩⟩,
   ⟨(code (eR 0x07 (⟨31, 1, 2, 0⟩ : FmtR)) id), 0, ⟨31, 1, 2, 0⟩, run1, _, by decide, by decide, ⟨by decide, by decide, by decide, rfl, by decide⟩⟩,
   ⟨(code (eR 0x08 (⟨31, 1, 2, 0⟩ : FmtR)) id), 0, ⟨31, 1, 2, 0⟩, run1, _, by decide, by decide, ⟨by decide, by decide, by decide, rfl, by decide⟩⟩,
   ⟨(code (eR 0x09 (⟨31, 1, 2, 0⟩ : FmtR)) id), 0, ⟨31, 1, 2, 0⟩, run1, _, by decide, by decide, ⟨by decide, by decide, by decide, rfl, by decide⟩⟩,
   ⟨(code (eI 0x0A (⟨31, 0, 8192⟩ : FmtI)) id), 0, ⟨31, 0, 8192⟩, run1, _, by decide, ⟨by decide, by decide, by decide, rfl, by decide⟩⟩,
   ⟨(code (eI 0x0B (⟨31, 0, 8192⟩ : FmtI)) id), 0, ⟨31, 0, 8192⟩, run1, _, by decide, ⟨by decide, by decide, by decide, rfl, by decide⟩⟩,
   ⟨(code (eI 0x0C (⟨31, 0, 8192⟩ : FmtI)) id), 0, ⟨31, 0, 8192⟩, run1, _, by decide, by decide, ⟨by decide, by decide, by decide, rfl, by decide⟩⟩⟩

/-- The hypotheses of OwnMemoryAccess can be met. -/
theorem witness_OwnMemoryAccess :
    (∃ (s : State) (n : Nat) (f : FmtI) (r : RunTask) (s' : State) (a : AccR), FmtI.wf f = true ∧ Fetches s n (eI 0x0D f) r s' ∧ (s'.tile n).offset f.ra f.imm % 8 = 0 ∧
      (s'.tile n).busyRange opSpan ((s'.tile n).offset f.ra f.imm) 8 = false ∧ s'.read r.task.ctx .tile permRead (.sram n ((s'.tile n).offset f.ra f.imm)) 8 = a ∧ a.st = .ok) ∧
    (∃ (s : State) (n : Nat) (f : FmtI) (r : RunTask) (s' : State) (a : AccR), FmtI.wf f = true ∧ Fetches s n (eI 0x28 f) r s' ∧ (s'.tile n).offset f.ra f.imm % 256 = 0 ∧
      (s'.tile n).busyRange opSpan ((s'.tile n).offset f.ra f.imm) 256 = false ∧ s'.read r.task.ctx .tile permRead (.sram n ((s'.tile n).offset f.ra f.imm)) 256 = a ∧ a.st = .ok) ∧
    (∃ (s : State) (n : Nat) (f : FmtD) (r : RunTask) (s' : State) (a : AccR), FmtD.wf f = true ∧ f.rsv = 0 ∧ Fetches s n (eD 0x18 f) r s' ∧ (s'.tile n).offset f.ra f.imm % 64 = 0 ∧
      (s'.tile n).busyRange opSpan ((s'.tile n).offset f.ra f.imm) 64 = false ∧ s'.read r.task.ctx .tile permExec (.sram n ((s'.tile n).offset f.ra f.imm)) 64 = a ∧ a.st = .ok ∧
      viewBad a.data = false) ∧
    (∃ (s : State) (n : Nat) (f : FmtI) (r : RunTask) (s' : State) (a : AccR), FmtI.wf f = true ∧ Fetches s n (eI 0x0E f) r s' ∧ (s'.tile n).offset f.ra f.imm % 8 = 0 ∧
      (s'.tile n).busyRange opSpan ((s'.tile n).offset f.ra f.imm) 8 = false ∧
      s'.write r.task.ctx .tile permWrite (.sram n ((s'.tile n).offset f.ra f.imm)) (leBytes 8 ((s'.tile n).xr f.rd).toNat) = a ∧ a.st = .ok) ∧
    (∃ (s : State) (n : Nat) (f : FmtI) (r : RunTask) (s' : State) (a : AccR), FmtI.wf f = true ∧ Fetches s n (eI 0x29 f) r s' ∧ (s'.tile n).offset f.ra f.imm % 256 = 0 ∧
      (s'.tile n).busyRange opSpan ((s'.tile n).offset f.ra f.imm) 256 = false ∧
      s'.write r.task.ctx .tile permWrite (.sram n ((s'.tile n).offset f.ra f.imm)) ((s'.tile n).vr f.rd) = a ∧ a.st = .ok) ∧
    (∃ (s : State) (n : Nat) (f : FmtD) (r : RunTask) (s' : State) (a : AccR), FmtD.wf f = true ∧ f.rsv = 0 ∧ Fetches s n (eD 0x19 f) r s' ∧ (s'.tile n).offset f.ra f.imm % 64 = 0 ∧
      (s'.tile n).busyRange opSpan ((s'.tile n).offset f.ra f.imm) 64 = false ∧
      s'.write r.task.ctx .tile permWrite (.sram n ((s'.tile n).offset f.ra f.imm)) ((s'.tile n).dr f.dn) = a ∧ a.st = .ok) :=
  ⟨⟨(code (eI 0x0D (⟨31, 0, 8192⟩ : FmtI)) id), 0, ⟨31, 0, 8192⟩, run1, _, _, by decide, ⟨by decide, by decide, by decide, rfl, by decide⟩, by decide, by decide, rfl, by decide⟩,
   ⟨(code (eI 0x28 (⟨31, 0, 8192⟩ : FmtI)) id), 0, ⟨31, 0, 8192⟩, run1, _, _, by decide, ⟨by decide, by decide, by decide, rfl, by decide⟩, by decide, by decide, rfl, by decide⟩,
   ⟨{ code (eD 0x18 ⟨15, 0, 0, 8192⟩) id with mem := (code (eD 0x18 ⟨15, 0, 0, 8192⟩) id).mem.put (tilePa 0 8192) (view 16384 8 8 8 0) }, 0, ⟨15, 0, 0, 8192⟩, run1, _, _, by decide,
     by decide, ⟨by decide, by decide, by decide, rfl, by decide⟩, by decide, by decide, rfl, by decide⟩,
   ⟨(code (eI 0x0E (⟨31, 0, 8192⟩ : FmtI)) id), 0, ⟨31, 0, 8192⟩, run1, _, _, by decide, ⟨by decide, by decide, by decide, rfl, by decide⟩, by decide, by decide, rfl, by decide⟩,
   ⟨(code (eI 0x29 (⟨31, 0, 8192⟩ : FmtI)) id), 0, ⟨31, 0, 8192⟩, run1, _, _, by decide, ⟨by decide, by decide, by decide, rfl, by decide⟩, by decide, by decide, rfl, by decide⟩,
   ⟨(code (eD 0x19 ⟨15, 0, 0, 8192⟩) id), 0, ⟨15, 0, 0, 8192⟩, run1, _, _, by decide, by decide, ⟨by decide, by decide, by decide, rfl, by decide⟩, by decide, by decide, rfl,
     by decide⟩⟩

/-- The hypotheses of Branches can be met. -/
theorem witness_Branches :
    (∃ (s : State) (n : Nat) (f : FmtB) (r : RunTask) (s' : State), FmtB.wf f = true ∧ Fetches s n (eB 0x10 f) r s' ∧ (s'.tile n).xr f.ra = (s'.tile n).xr f.rb ∧
      0 ≤ ((s'.tile n).pc : Int) + 4 * sext f.off 16 ∧ ((s'.tile n).pc : Int) + 4 * sext f.off 16 < 2097152 ∧ (s'.tile n).pc % 4 = 0) ∧
    (∃ (s : State) (n : Nat) (f : FmtB) (r : RunTask) (s' : State), FmtB.wf f = true ∧ Fetches s n (eB 0x10 f) r s' ∧ (s'.tile n).xr f.ra ≠ (s'.tile n).xr f.rb ∧
      badTarget (((s'.tile n).pc : Int) + 4 * sext f.off 16) = false) ∧
    (∃ (s : State) (n : Nat) (f : FmtB) (r : RunTask) (s' : State), FmtB.wf f = true ∧ Fetches s n (eB 0x10 f) r s' ∧ badTarget (((s'.tile n).pc : Int) + 4 * sext f.off 16) = true) ∧
    (∃ (s : State) (n : Nat) (f : FmtB) (r : RunTask) (s' : State), FmtB.wf f = true ∧ Fetches s n (eB 0x11 f) r s' ∧ (s'.tile n).xr f.ra ≠ (s'.tile n).xr f.rb ∧
      0 ≤ ((s'.tile n).pc : Int) + 4 * sext f.off 16 ∧ ((s'.tile n).pc : Int) + 4 * sext f.off 16 < 2097152 ∧ (s'.tile n).pc % 4 = 0) ∧
    (∃ (s : State) (n : Nat) (f : FmtB) (r : RunTask) (s' : State), FmtB.wf f = true ∧ Fetches s n (eB 0x12 f) r s' ∧ ((s'.tile n).xr f.ra).toInt < ((s'.tile n).xr f.rb).toInt ∧
      0 ≤ ((s'.tile n).pc : Int) + 4 * sext f.off 16 ∧ ((s'.tile n).pc : Int) + 4 * sext f.off 16 < 2097152 ∧ (s'.tile n).pc % 4 = 0) ∧
    (∃ (s : State) (n : Nat) (f : FmtB) (r : RunTask) (s' : State), FmtB.wf f = true ∧ Fetches s n (eB 0x13 f) r s' ∧ ((s'.tile n).xr f.rb).toInt ≤ ((s'.tile n).xr f.ra).toInt ∧
      0 ≤ ((s'.tile n).pc : Int) + 4 * sext f.off 16 ∧ ((s'.tile n).pc : Int) + 4 * sext f.off 16 < 2097152 ∧ (s'.tile n).pc % 4 = 0) ∧
    (∃ (s : State) (n : Nat) (f : FmtJ) (r : RunTask) (s' : State), FmtJ.wf f = true ∧ Fetches s n (eJ 0x14 f) r s' ∧ 0 ≤ ((s'.tile n).pc : Int) + 4 * sext f.off 21 ∧
      ((s'.tile n).pc : Int) + 4 * sext f.off 21 < 2097152 ∧ (s'.tile n).pc % 4 = 0) ∧
    (∃ (s : State) (n : Nat) (f : FmtR) (r : RunTask) (s' : State), FmtR.wf f = true ∧ f.rsv = 0 ∧ Fetches s n (eR 0x15 f) r s' ∧ ((s'.tile n).xr f.ra).toNat < 2097152 ∧
      ((s'.tile n).xr f.ra).toNat % 4 = 0) :=
  ⟨⟨(code (eB 0x10 (⟨1, 2, 65535⟩ : FmtB)) id), 0, ⟨1, 2, 65535⟩, run1, _, by decide, ⟨by decide, by decide, by decide, rfl, by decide⟩, by decide⟩,
   ⟨(code (eB 0x10 (⟨1, 2, 65535⟩ : FmtB)) (fun t => t.setX 1 5)), 0, ⟨1, 2, 65535⟩, run1, _, by decide, ⟨by decide, by decide, by decide, rfl, by decide⟩, by decide⟩,
   ⟨(code (eB 0x10 ⟨1, 2, 0x8000⟩) id), 0, ⟨1, 2, 0x8000⟩, run1, _, by decide, ⟨by decide, by decide, by decide, rfl, by decide⟩, by decide⟩,
   ⟨(code (eB 0x11 (⟨1, 2, 65535⟩ : FmtB)) (fun t => t.setX 1 5)), 0, ⟨1, 2, 65535⟩, run1, _, by decide, ⟨by decide, by decide, by decide, rfl, by decide⟩, by decide⟩,
   ⟨(code (eB 0x12 (⟨1, 2, 65535⟩ : FmtB)) (fun t => t.setX 2 5)), 0, ⟨1, 2, 65535⟩, run1, _, by decide, ⟨by decide, by decide, by decide, rfl, by decide⟩, by decide⟩,
   ⟨(code (eB 0x13 (⟨1, 2, 65535⟩ : FmtB)) id), 0, ⟨1, 2, 65535⟩, run1, _, by decide, ⟨by decide, by decide, by decide, rfl, by decide⟩, by decide⟩,
   ⟨(code (eJ 0x14 (⟨31, 8⟩ : FmtJ)) id), 0, ⟨31, 8⟩, run1, _, by decide, ⟨by decide, by decide, by decide, rfl, by decide⟩, by decide⟩,
   ⟨(code (eR 0x15 (⟨31, 1, 2, 0⟩ : FmtR)) id), 0, ⟨31, 1, 2, 0⟩, run1, _, by decide, by decide, ⟨by decide, by decide, by decide, rfl, by decide⟩, by decide⟩⟩

/-- The hypotheses of DescriptorWrites can be met. -/
theorem witness_DescriptorWrites :
    (∃ (s : State) (n : Nat) (f : FmtD) (r : RunTask) (s' : State), FmtD.wf f = true ∧ f.rsv = 0 ∧ f.imm < 8 ∧ Fetches s n (eD 0x1A f) r s') ∧
    (∃ (s : State) (n : Nat) (f : FmtD) (r : RunTask) (s' : State), FmtD.wf f = true ∧ f.rsv = 0 ∧ f.imm < 2 ∧ Fetches s n (eD 0x1B f) r s') :=
  ⟨⟨(code (eD 0x1A (⟨15, 0, 0, 1⟩ : FmtD)) id), 0, ⟨15, 0, 0, 1⟩, run1, _, by decide, by decide, by decide, ⟨by decide, by decide, by decide, rfl, by decide⟩⟩,
   ⟨(code (eD 0x1B (⟨15, 0, 0, 1⟩ : FmtD)) id), 0, ⟨15, 0, 0, 1⟩, run1, _, by decide, by decide, by decide, ⟨by decide, by decide, by decide, rfl, by decide⟩⟩⟩

/-- The hypotheses of VectorArithmetic can be met. -/
theorem witness_VectorArithmetic :
    (∃ (s : State) (n : Nat) (f : FmtV) (r : RunTask) (s' : State), FmtV.wf f = true ∧ Fetches s n (eV 0x2A 0x00 f) r s') ∧
    (∃ (s : State) (n : Nat) (f : FmtV) (r : RunTask) (s' : State), FmtV.wf f = true ∧ Fetches s n (eV 0x2A 0x01 f) r s') ∧
    (∃ (s : State) (n : Nat) (f : FmtV) (r : RunTask) (s' : State), FmtV.wf f = true ∧ Fetches s n (eV 0x2A 0x02 f) r s') ∧
    (∃ (s : State) (n : Nat) (f : FmtV) (r : RunTask) (s' : State), FmtV.wf f = true ∧ Fetches s n (eV 0x2A 0x03 f) r s') ∧
    (∃ (s : State) (n : Nat) (f : FmtV) (r : RunTask) (s' : State), FmtV.wf f = true ∧ Fetches s n (eV 0x2A 0x20 f) r s') ∧
    (∃ (s : State) (n : Nat) (f : FmtV) (r : RunTask) (s' : State), FmtV.wf f = true ∧ Fetches s n (eV 0x2A 0x21 f) r s') ∧
    (∃ (s : State) (n : Nat) (f : FmtV) (r : RunTask) (s' : State), FmtV.wf f = true ∧ Fetches s n (eV 0x2A 0x22 f) r s') ∧
    (∃ (s : State) (n : Nat) (f : FmtV) (r : RunTask) (s' : State), FmtV.wf f = true ∧ Fetches s n (eV 0x2A 0x23 f) r s') ∧
    (∃ (s : State) (n : Nat) (f : FmtV) (r : RunTask) (s' : State), FmtV.wf f = true ∧ Fetches s n (eV 0x2A 0x0D f) r s') ∧
    (∃ (s : State) (n : Nat) (f : FmtV) (r : RunTask) (s' : State), FmtV.wf f = true ∧ Fetches s n (eV 0x2A 0x0E f) r s') :=
  ⟨⟨(code (eV 0x2A 0x00 (⟨31, 1, 2, 3⟩ : FmtV)) id), 0, ⟨31, 1, 2, 3⟩, run1, _, by decide, ⟨by decide, by decide, by decide, rfl, by decide⟩⟩,
   ⟨(code (eV 0x2A 0x01 (⟨31, 1, 2, 3⟩ : FmtV)) id), 0, ⟨31, 1, 2, 3⟩, run1, _, by decide, ⟨by decide, by decide, by decide, rfl, by decide⟩⟩,
   ⟨(code (eV 0x2A 0x02 (⟨31, 1, 2, 3⟩ : FmtV)) id), 0, ⟨31, 1, 2, 3⟩, run1, _, by decide, ⟨by decide, by decide, by decide, rfl, by decide⟩⟩,
   ⟨(code (eV 0x2A 0x03 (⟨31, 1, 2, 3⟩ : FmtV)) id), 0, ⟨31, 1, 2, 3⟩, run1, _, by decide, ⟨by decide, by decide, by decide, rfl, by decide⟩⟩,
   ⟨(code (eV 0x2A 0x20 (⟨31, 1, 2, 3⟩ : FmtV)) id), 0, ⟨31, 1, 2, 3⟩, run1, _, by decide, ⟨by decide, by decide, by decide, rfl, by decide⟩⟩,
   ⟨(code (eV 0x2A 0x21 (⟨31, 1, 2, 3⟩ : FmtV)) id), 0, ⟨31, 1, 2, 3⟩, run1, _, by decide, ⟨by decide, by decide, by decide, rfl, by decide⟩⟩,
   ⟨(code (eV 0x2A 0x22 (⟨31, 1, 2, 3⟩ : FmtV)) id), 0, ⟨31, 1, 2, 3⟩, run1, _, by decide, ⟨by decide, by decide, by decide, rfl, by decide⟩⟩,
   ⟨(code (eV 0x2A 0x23 (⟨31, 1, 2, 3⟩ : FmtV)) id), 0, ⟨31, 1, 2, 3⟩, run1, _, by decide, ⟨by decide, by decide, by decide, rfl, by decide⟩⟩,
   ⟨(code (eV 0x2A 0x0D (⟨31, 1, 2, 3⟩ : FmtV)) id), 0, ⟨31, 1, 2, 3⟩, run1, _, by decide, ⟨by decide, by decide, by decide, rfl, by decide⟩⟩,
   ⟨(code (eV 0x2A 0x0E (⟨31, 1, 2, 3⟩ : FmtV)) id), 0, ⟨31, 1, 2, 3⟩, run1, _, by decide, ⟨by decide, by decide, by decide, rfl, by decide⟩⟩⟩

/-- The hypotheses of VectorReductions can be met. -/
theorem witness_VectorReductions :
    (∃ (s : State) (n : Nat) (f : FmtV) (r : RunTask) (s' : State), FmtV.wf f = true ∧ Fetches s n (eV 0x2A 0x0F f) r s') ∧
    (∃ (s : State) (n : Nat) (f : FmtV) (r : RunTask) (s' : State), FmtV.wf f = true ∧ Fetches s n (eV 0x2A 0x10 f) r s') ∧
    (∃ (s : State) (n : Nat) (f : FmtV) (r : RunTask) (s' : State), FmtV.wf f = true ∧ Fetches s n (eV 0x2A 0x11 f) r s') ∧
    (∃ (s : State) (n : Nat) (f : FmtV) (r : RunTask) (s' : State), FmtV.wf f = true ∧ f.vc = 0 ∧ Fetches s n (eV 0x2A 0x19 f) r s') ∧
    (∃ (s : State) (n : Nat) (f : FmtV) (r : RunTask) (s' : State), FmtV.wf f = true ∧ f.vc = 1 ∧ Fetches s n (eV 0x2A 0x19 f) r s') ∧
    (∃ (s : State) (n : Nat) (f : FmtV) (r : RunTask) (s' : State), FmtV.wf f = true ∧ f.vc = 2 ∧ Fetches s n (eV 0x2A 0x19 f) r s') :=
  ⟨⟨(code (eV 0x2A 0x0F (⟨31, 1, 2, 3⟩ : FmtV)) id), 0, ⟨31, 1, 2, 3⟩, run1, _, by decide, ⟨by decide, by decide, by decide, rfl, by decide⟩⟩,
   ⟨(code (eV 0x2A 0x10 (⟨31, 1, 2, 3⟩ : FmtV)) id), 0, ⟨31, 1, 2, 3⟩, run1, _, by decide, ⟨by decide, by decide, by decide, rfl, by decide⟩⟩,
   ⟨(code (eV 0x2A 0x11 (⟨31, 1, 2, 3⟩ : FmtV)) id), 0, ⟨31, 1, 2, 3⟩, run1, _, by decide, ⟨by decide, by decide, by decide, rfl, by decide⟩⟩,
   ⟨(code (eV 0x2A 0x19 ⟨31, 1, 2, 0⟩) id), 0, ⟨31, 1, 2, 0⟩, run1, _, by decide, by decide, ⟨by decide, by decide, by decide, rfl, by decide⟩⟩,
   ⟨(code (eV 0x2A 0x19 ⟨31, 1, 2, 1⟩) id), 0, ⟨31, 1, 2, 1⟩, run1, _, by decide, by decide, ⟨by decide, by decide, by decide, rfl, by decide⟩⟩,
   ⟨(code (eV 0x2A 0x19 ⟨31, 1, 2, 2⟩) id), 0, ⟨31, 1, 2, 2⟩, run1, _, by decide, by decide, ⟨by decide, by decide, by decide, rfl, by decide⟩⟩⟩

/-- The hypotheses of VectorTranscendentals can be met. -/
theorem witness_VectorTranscendentals :
    (∃ (s : State) (n : Nat) (f : FmtV) (r : RunTask) (s' : State), FmtV.wf f = true ∧ Fetches s n (eV 0x2A 0x08 f) r s') ∧
    (∃ (s : State) (n : Nat) (f : FmtV) (r : RunTask) (s' : State), FmtV.wf f = true ∧ Fetches s n (eV 0x2A 0x09 f) r s') ∧
    (∃ (s : State) (n : Nat) (f : FmtV) (r : RunTask) (s' : State), FmtV.wf f = true ∧ Fetches s n (eV 0x2A 0x0A f) r s') ∧
    (∃ (s : State) (n : Nat) (f : FmtV) (r : RunTask) (s' : State), FmtV.wf f = true ∧ Fetches s n (eV 0x2A 0x0B f) r s') ∧
    (∃ (s : State) (n : Nat) (f : FmtV) (r : RunTask) (s' : State), FmtV.wf f = true ∧ Fetches s n (eV 0x2A 0x0C f) r s') ∧
    (∃ (a : Nat), fp32.dec a = .nan) ∧
    (∃ (a : Nat), fp32.dec a = .inf false) ∧
    (∃ (a : Nat), fp32.dec a = .inf true) ∧
    (∃ (a m : Nat) (e : Int), fp32.dec a = .fin false m e ∧ (fp32.dec 0x42B17217).lt (.fin false m e) = true) ∧
    (∃ (a : Nat) (neg : Bool) (e : Int), fp32.dec a = .fin neg 0 e) ∧
    (∃ (a m : Nat) (e : Int), fp32.dec a = .fin true m e ∧ m ≠ 0) ∧
    (∃ (a m : Nat) (e : Int), fp32.dec a = .fin false m e ∧ m ≠ 0) ∧
    (∃ (a : Nat) (neg : Bool) (m : Nat) (e : Int), fp32.dec a = .fin neg m e) ∧
    (∃ (a m : Nat) (e : Int), fp32.dec a = .fin false m e ∧ (fp32.dec 0x42B17217).lt (.fin false m e) = false ∧ leCent m e 8872 = true) ∧
    (∃ (a m : Nat) (e : Int), fp32.dec a = .fin true m e ∧ leCent m e 8733 = true) ∧
    (∃ (a : Nat × Int) (n : Nat), n = (if a.2 + (Nat.log2 a.1 : Int) < -126 then 1 else 2) ∧ nearMag n (fp32.grid a.1 a.2) a (fp32.mag rmRNE 0 a.1 a.2) = true) :=
  ⟨⟨(code (eV 0x2A 0x08 (⟨31, 1, 2, 3⟩ : FmtV)) id), 0, ⟨31, 1, 2, 3⟩, run1, _, by decide, ⟨by decide, by decide, by decide, rfl, by decide⟩⟩,
   ⟨(code (eV 0x2A 0x09 (⟨31, 1, 2, 3⟩ : FmtV)) id), 0, ⟨31, 1, 2, 3⟩, run1, _, by decide, ⟨by decide, by decide, by decide, rfl, by decide⟩⟩,
   ⟨(code (eV 0x2A 0x0A (⟨31, 1, 2, 3⟩ : FmtV)) id), 0, ⟨31, 1, 2, 3⟩, run1, _, by decide, ⟨by decide, by decide, by decide, rfl, by decide⟩⟩,
   ⟨(code (eV 0x2A 0x0B (⟨31, 1, 2, 3⟩ : FmtV)) id), 0, ⟨31, 1, 2, 3⟩, run1, _, by decide, ⟨by decide, by decide, by decide, rfl, by decide⟩⟩,
   ⟨(code (eV 0x2A 0x0C (⟨31, 1, 2, 3⟩ : FmtV)) id), 0, ⟨31, 1, 2, 3⟩, run1, _, by decide, ⟨by decide, by decide, by decide, rfl, by decide⟩⟩,
   ⟨0x7FC00000, by decide⟩,
   ⟨0x7F800000, by decide⟩,
   ⟨0xFF800000, by decide⟩,
   ⟨0x43000000, 8388608, -16, by decide⟩,
   ⟨0, false, -149, by decide⟩,
   ⟨0xBF800000, 8388608, -23, by decide⟩,
   ⟨0x3F800000, 8388608, -23, by decide⟩,
   ⟨0xBF800000, true, 8388608, -23, by decide⟩,
   ⟨0x3F800000, 8388608, -23, by decide⟩,
   ⟨0xBF800000, 8388608, -23, by decide⟩,
   ⟨(1, -1), _, rfl, by decide +kernel⟩⟩

/-- The hypotheses of VectorSelectionAndIntegers can be met. -/
theorem witness_VectorSelectionAndIntegers :
    (∃ (s : State) (n : Nat) (f : FmtV) (r : RunTask) (s' : State), FmtV.wf f = true ∧ Fetches s n (eV 0x2A 0x04 f) r s') ∧
    (∃ (s : State) (n : Nat) (f : FmtV) (r : RunTask) (s' : State), FmtV.wf f = true ∧ Fetches s n (eV 0x2A 0x05 f) r s') ∧
    (∃ (s : State) (n : Nat) (f : FmtV) (r : RunTask) (s' : State), FmtV.wf f = true ∧ Fetches s n (eV 0x2A 0x06 f) r s') ∧
    (∃ (s : State) (n : Nat) (f : FmtV) (r : RunTask) (s' : State), FmtV.wf f = true ∧ Fetches s n (eV 0x2A 0x07 f) r s') ∧
    (∃ (a b : Nat), (fp32.dec a = .nan ∨ fp32.dec b = .nan)) ∧
    (∃ (s : State) (n : Nat) (f : FmtV) (r : RunTask) (s' : State), FmtV.wf f = true ∧ Fetches s n (eV 0x2A 0x12 f) r s') ∧
    (∃ (s : State) (n : Nat) (f : FmtV) (r : RunTask) (s' : State), FmtV.wf f = true ∧ Fetches s n (eV 0x2A 0x13 f) r s') ∧
    (∃ (s : State) (n : Nat) (f : FmtV) (r : RunTask) (s' : State), FmtV.wf f = true ∧ Fetches s n (eV 0x2A 0x14 f) r s') ∧
    (∃ (s : State) (n : Nat) (f : FmtV) (r : RunTask) (s' : State), FmtV.wf f = true ∧ Fetches s n (eV 0x2A 0x15 f) r s') ∧
    (∃ (s : State) (n : Nat) (f : FmtV) (r : RunTask) (s' : State), FmtV.wf f = true ∧ Fetches s n (eV 0x2A 0x16 f) r s') ∧
    (∃ (s : State) (n : Nat) (f : FmtV) (r : RunTask) (s' : State), FmtV.wf f = true ∧ Fetches s n (eV 0x2A 0x17 f) r s') ∧
    (∃ (s : State) (n : Nat) (f : FmtV) (r : RunTask) (s' : State), FmtV.wf f = true ∧ Fetches s n (eV 0x2A 0x18 f) r s') :=
  ⟨⟨(code (eV 0x2A 0x04 (⟨31, 1, 2, 3⟩ : FmtV)) id), 0, ⟨31, 1, 2, 3⟩, run1, _, by decide, ⟨by decide, by decide, by decide, rfl, by decide⟩⟩,
   ⟨(code (eV 0x2A 0x05 (⟨31, 1, 2, 3⟩ : FmtV)) id), 0, ⟨31, 1, 2, 3⟩, run1, _, by decide, ⟨by decide, by decide, by decide, rfl, by decide⟩⟩,
   ⟨(code (eV 0x2A 0x06 (⟨31, 1, 2, 3⟩ : FmtV)) id), 0, ⟨31, 1, 2, 3⟩, run1, _, by decide, ⟨by decide, by decide, by decide, rfl, by decide⟩⟩,
   ⟨(code (eV 0x2A 0x07 (⟨31, 1, 2, 3⟩ : FmtV)) id), 0, ⟨31, 1, 2, 3⟩, run1, _, by decide, ⟨by decide, by decide, by decide, rfl, by decide⟩⟩,
   ⟨0x7FC00000, 0, by decide⟩,
   ⟨(code (eV 0x2A 0x12 (⟨31, 1, 2, 3⟩ : FmtV)) id), 0, ⟨31, 1, 2, 3⟩, run1, _, by decide, ⟨by decide, by decide, by decide, rfl, by decide⟩⟩,
   ⟨(code (eV 0x2A 0x13 (⟨31, 1, 2, 3⟩ : FmtV)) id), 0, ⟨31, 1, 2, 3⟩, run1, _, by decide, ⟨by decide, by decide, by decide, rfl, by decide⟩⟩,
   ⟨(code (eV 0x2A 0x14 (⟨31, 1, 2, 3⟩ : FmtV)) id), 0, ⟨31, 1, 2, 3⟩, run1, _, by decide, ⟨by decide, by decide, by decide, rfl, by decide⟩⟩,
   ⟨(code (eV 0x2A 0x15 (⟨31, 1, 2, 3⟩ : FmtV)) id), 0, ⟨31, 1, 2, 3⟩, run1, _, by decide, ⟨by decide, by decide, by decide, rfl, by decide⟩⟩,
   ⟨(code (eV 0x2A 0x16 (⟨31, 1, 2, 3⟩ : FmtV)) id), 0, ⟨31, 1, 2, 3⟩, run1, _, by decide, ⟨by decide, by decide, by decide, rfl, by decide⟩⟩,
   ⟨(code (eV 0x2A 0x17 (⟨31, 1, 2, 3⟩ : FmtV)) id), 0, ⟨31, 1, 2, 3⟩, run1, _, by decide, ⟨by decide, by decide, by decide, rfl, by decide⟩⟩,
   ⟨(code (eV 0x2A 0x18 (⟨31, 1, 2, 3⟩ : FmtV)) id), 0, ⟨31, 1, 2, 3⟩, run1, _, by decide, ⟨by decide, by decide, by decide, rfl, by decide⟩⟩⟩

/-- The hypotheses of Tallies can be met. -/
theorem witness_Tallies :
    (∃ (s : State) (n : Nat) (f : FmtS) (r : RunTask) (s' : State), FmtS.wf f = true ∧ f.rsv = 0 ∧ Fetches s n (eS 0x34 f) r s' ∧
      (((s'.tile n).tally f.tally).owner = none ∨ ((s'.tile n).tally f.tally).owner = some r.task.ctx)) ∧
    (∃ (s : State) (n : Nat) (f : FmtS) (r : RunTask) (s' : State), FmtS.wf f = true ∧ f.rsv = 0 ∧ f.imm ≠ 0 ∧ Fetches s n (eS 0x35 f) r s' ∧
      ((s'.tile n).tally f.tally).owner = some r.task.ctx) ∧
    (∃ (s : State) (n : Nat) (f : FmtS) (r : RunTask) (s' : State), FmtS.wf f = true ∧ f.rsv = 0 ∧ Fetches s n (eS 0x36 f) r s' ∧ ((s'.tile n).tally f.tally).owner = some r.task.ctx ∧
      ((s'.tile n).tally f.tally).count ≤ 0) ∧
    (∃ (s : State) (n : Nat) (f : FmtS) (r : RunTask) (s' : State), FmtS.wf f = true ∧ f.rsv = 0 ∧ Fetches s n (eS 0x36 f) r s' ∧ ((s'.tile n).tally f.tally).owner = some r.task.ctx ∧
      0 < ((s'.tile n).tally f.tally).count) ∧
    (∃ (s : State) (n : Nat) (f : FmtS) (r : RunTask) (s' : State), FmtS.wf f = true ∧ f.rsv = 0 ∧ Fetches s n (eS 0x37 f) r s' ∧ ((s'.tile n).tally f.tally).owner = some r.task.ctx) ∧
    (∃ (s : State) (n : Nat) (f : FmtS) (r : RunTask) (s' : State), FmtS.wf f = true ∧ f.rsv = 0 ∧ Fetches s n (eS 0x38 f) r s' ∧ ((s'.tile n).tally f.tally).owner = some r.task.ctx) ∧
    (∃ (s : State) (n : Nat) (f : FmtS) (r : RunTask) (s' : State) (c : Nat), FmtS.wf f = true ∧ f.rsv = 0 ∧ Fetches s n (eS 0x35 f) r s' ∧
      ((s'.tile n).tally f.tally).owner = some c ∧ c ≠ r.task.ctx) ∧
    (∃ (s : State) (n : Nat) (f : FmtS) (r : RunTask) (s' : State), FmtS.wf f = true ∧ f.rsv = 0 ∧ Fetches s n (eS 0x36 f) r s' ∧ ((s'.tile n).tally f.tally).owner = none) ∧
    (∃ (s : State) (n : Nat) (f : FmtS) (r : RunTask) (s' : State) (c : Nat), FmtS.wf f = true ∧ f.rsv = 0 ∧ Fetches s n (eS 0x34 f) r s' ∧
      ((s'.tile n).tally f.tally).owner = some c ∧ c ≠ r.task.ctx) :=
  ⟨⟨(code (eS 0x34 (⟨1, 0, 5, 1⟩ : FmtS)) id), 0, ⟨1, 0, 5, 1⟩, run1, _, by decide, by decide, ⟨by decide, by decide, by decide, rfl, by decide⟩, by decide⟩,
   ⟨(code (eS 0x35 (⟨1, 0, 5, 1⟩ : FmtS)) (tallied 1 0)), 0, ⟨1, 0, 5, 1⟩, run1, _, by decide, by decide, by decide, ⟨by decide, by decide, by decide, rfl, by decide⟩, by decide⟩,
   ⟨(code (eS 0x36 (⟨1, 0, 5, 1⟩ : FmtS)) (tallied 1 0)), 0, ⟨1, 0, 5, 1⟩, run1, _, by decide, by decide, ⟨by decide, by decide, by decide, rfl, by decide⟩, by decide⟩,
   ⟨(code (eS 0x36 (⟨1, 0, 5, 1⟩ : FmtS)) (tallied 1 1)), 0, ⟨1, 0, 5, 1⟩, run1, _, by decide, by decide, ⟨by decide, by decide, by decide, rfl, by decide⟩, by decide⟩,
   ⟨(code (eS 0x37 (⟨1, 0, 5, 1⟩ : FmtS)) (tallied 1 0)), 0, ⟨1, 0, 5, 1⟩, run1, _, by decide, by decide, ⟨by decide, by decide, by decide, rfl, by decide⟩, by decide⟩,
   ⟨(code (eS 0x38 (⟨1, 0, 5, 1⟩ : FmtS)) (tallied 1 0)), 0, ⟨1, 0, 5, 1⟩, run1, _, by decide, by decide, ⟨by decide, by decide, by decide, rfl, by decide⟩, by decide⟩,
   ⟨(code (eS 0x35 (⟨1, 0, 5, 1⟩ : FmtS)) (tallied 2 0)), 0, ⟨1, 0, 5, 1⟩, run1, _, 2, by decide, by decide, ⟨by decide, by decide, by decide, rfl, by decide⟩, by decide⟩,
   ⟨(code (eS 0x36 (⟨1, 0, 5, 1⟩ : FmtS)) id), 0, ⟨1, 0, 5, 1⟩, run1, _, by decide, by decide, ⟨by decide, by decide, by decide, rfl, by decide⟩, by decide⟩,
   ⟨(code (eS 0x34 (⟨1, 0, 5, 1⟩ : FmtS)) (tallied 2 0)), 0, ⟨1, 0, 5, 1⟩, run1, _, 2, by decide, by decide, ⟨by decide, by decide, by decide, rfl, by decide⟩, by decide⟩⟩

/-- The hypotheses of TileTransfers can be met. -/
theorem witness_TileTransfers :
    (∃ (s : State) (n : Nat) (f : FmtX) (r : RunTask) (s' : State), FmtX.wf f = true ∧ f.rsv = 0 ∧ Fetches s n (eX 0x30 f) r s' ∧ badAddr ((s'.tile n).xr f.ra).toNat = false ∧
      badAddr ((s'.tile n).xr f.rb).toNat = false ∧ ((s'.tile n).xr f.rc).toNat % 64 = 0 ∧ 64 ≤ ((s'.tile n).xr f.rc).toNat ∧ ((s'.tile n).xr f.rc).toNat ≤ 2097152 ∧
      ((bit ((s'.tile n).xr f.ra).toNat 63 = true ∨ bit ((s'.tile n).xr f.rb).toNat 63 = true)) ∧
      ((bit ((s'.tile n).xr f.ra).toNat 63 = true → (s'.tile n).busyRange opSpan (((s'.tile n).xr f.ra).toNat % 2097152) ((s'.tile n).xr f.rc).toNat = false)) ∧
      ((bit ((s'.tile n).xr f.rb).toNat 63 = true → (s'.tile n).busyRange opSpan (((s'.tile n).xr f.rb).toNat % 2097152) ((s'.tile n).xr f.rc).toNat = false)) ∧
      ((s'.tile n).xr f.ra).toNat % 64 = 0 ∧ ((s'.tile n).xr f.rb).toNat % 64 = 0 ∧ ((s'.tile n).tally f.tally).owner = some r.task.ctx) ∧
    (∃ (s : State) (n k : Nat) (q : Xfer) (a : AccR) (r : RunTask), (s.tile n).xfers[k]? = some q ∧
      (s.setTile n { s.tile n with xfers := (s.tile n).xfers.eraseIdx k }).copy q.ctx .tile (xferLoc n q.src) (xferLoc n q.dst) q.len = a ∧ (a.s.tile n).run = some r ∧
      r.task.age = q.taskAge ∧ a.st ≠ .violation) ∧
    (∃ (s : State) (n : Nat) (f : FmtS) (r : RunTask) (s' : State), FmtS.wf f = true ∧ f.rsv = 0 ∧ Fetches s n (eS 0x3C f) r s' ∧ (s'.tile n).outstanding = 0) ∧
    (∃ (s : State) (n : Nat) (f : FmtS) (r : RunTask) (s' : State), FmtS.wf f = true ∧ f.rsv = 0 ∧ Fetches s n (eS 0x3C f) r s' ∧ (s'.tile n).outstanding ≠ 0) :=
  ⟨⟨(code (eX 0x30 (⟨1, 2, 3, 0, 5⟩ : FmtX)) (fun t => (((tallied 1 1 t).setX 1 0x8000000000002000).setX 2 0).setX 3 64)), 0, ⟨1, 2, 3, 0, 5⟩, run1, _, by decide, by decide,
     ⟨by decide, by decide, by decide, rfl, by decide⟩, by decide⟩,
   ⟨(code 0 fun t => { t with xfers := [⟨5, 1, 0, 5, 0x8000000000002000, 0, 64⟩], outstanding := 1 }), 0, 0, _, _, _, rfl, rfl, rfl, by decide⟩,
   ⟨(code (eS 0x3C (⟨1, 0, 5, 1⟩ : FmtS)) id), 0, ⟨1, 0, 5, 1⟩, run1, _, by decide, by decide, ⟨by decide, by decide, by decide, rfl, by decide⟩, by decide⟩,
   ⟨(code (eS 0x3C (⟨1, 0, 5, 1⟩ : FmtS)) (fun t => { t with outstanding := 1 })), 0, ⟨1, 0, 5, 1⟩, run1, _, by decide, by decide, ⟨by decide, by decide, by decide, rfl, by decide⟩,
     by decide⟩⟩

/-- The hypotheses of TaskEnd can be met. -/
theorem witness_TaskEnd :
    (∃ (s : State) (n : Nat) (f : FmtS) (r : RunTask) (s' : State) (st : Status), FmtS.wf f = true ∧ f.rsv = 0 ∧ Fetches s n (eS 0x3D f) r s' ∧
      Status.ofCode? (((s'.tile n).xr f.r).toNat % 256) = some st ∧ (s'.tile n).outstanding = 0 ∧ (s'.tile n).ops = []) ∧
    (∃ (s : State) (n w : Nat) (r : RunTask) (s' : State), Fetches s n w r s' ∧ legalOps.contains (wOp w) = false) ∧
    (∃ (r : RunTask), kRecord r.task.desc = false) :=
  ⟨⟨(code (eS 0x3D (⟨1, 0, 5, 1⟩ : FmtS)) id), 0, ⟨1, 0, 5, 1⟩, run1, _, .ok, by decide, by decide, ⟨by decide, by decide, by decide, rfl, by decide⟩, by decide⟩,
   ⟨(code 0 id), 0, 0, run1, _, ⟨by decide, by decide, by decide, rfl, by decide⟩, by decide⟩,
   ⟨run1, by decide⟩⟩

/-- The hypotheses of ArrayOperations can be met. -/
theorem witness_ArrayOperations :
    (∃ (s : State) (n : Nat) (f : FmtT) (r : RunTask) (s' : State), FmtT.wf f = true ∧ f.rsv = 0 ∧ f.cfg ≠ 3 ∧ f.acc = 0 ∧ f.dc = 0 ∧ Fetches s n (eT 0x20 f) r s' ∧
      viewMal ((s'.tile n).dr f.da) = false ∧ viewMal ((s'.tile n).dr f.db) = false ∧ mmaShapeBad ((s'.tile n).dr f.da) ((s'.tile n).dr f.db) ((s'.tile n).dr 0) f.cfg 0 = false ∧
      viewRemote ((s'.tile n).dr f.da) = false ∧ viewRemote ((s'.tile n).dr f.db) = false ∧ s'.viewWindow n r.task.ctx permRead ((s'.tile n).dr f.da) = none ∧
      s'.viewWindow n r.task.ctx permRead ((s'.tile n).dr f.db) = none ∧ (s'.tile n).queued .mma < 2) ∧
    (∃ (s : State) (n : Nat) (f : FmtT) (r : RunTask) (s' : State), FmtT.wf f = true ∧ f.rsv = 0 ∧ f.da = 0 ∧ f.db = 0 ∧ f.cfg = 0 ∧ f.acc = 0 ∧ f.skip = 0 ∧
      Fetches s n (eT 0x21 f) r s' ∧ vDim0 ((s'.tile n).dr f.dc) = 8 ∧ vDim1 ((s'.tile n).dr f.dc) = 64 ∧ fmtScaled (vFormat ((s'.tile n).dr f.dc)) = false ∧
      ((s'.tile n).accSet (s'.tile n).cur).wide = false ∧ viewMal ((s'.tile n).dr f.dc) = false ∧ viewRemote ((s'.tile n).dr f.dc) = false ∧
      s'.viewWindow n r.task.ctx permWrite ((s'.tile n).dr f.dc) = none ∧ (s'.tile n).queued .drain < 2) ∧
    (∃ (s : State) (n : Nat) (f : FmtT) (r : RunTask) (s' : State), FmtT.wf f = true ∧ f.rsv = 0 ∧ f.db = 0 ∧ f.cfg = 0 ∧ f.acc = 0 ∧ f.skip = 0 ∧ Fetches s n (eT 0x22 f) r s' ∧
      vDim0 ((s'.tile n).dr f.da) = vDim0 ((s'.tile n).dr f.dc) ∧ vDim1 ((s'.tile n).dr f.da) = vDim1 ((s'.tile n).dr f.dc) ∧ fmtScaled (vFormat ((s'.tile n).dr f.dc)) = false ∧
      viewMal ((s'.tile n).dr f.da) = false ∧ viewMal ((s'.tile n).dr f.dc) = false ∧ viewRemote ((s'.tile n).dr f.da) = false ∧ viewRemote ((s'.tile n).dr f.dc) = false ∧
      s'.viewWindow n r.task.ctx permRead ((s'.tile n).dr f.da) = none ∧ s'.viewWindow n r.task.ctx permWrite ((s'.tile n).dr f.dc) = none ∧ (s'.tile n).queued .qcvt < 2) ∧
    (∃ (s : State) (n : Nat) (o : TileOp) (rest : List TileOp) (r : RunTask) (a : PlaneR Unit), takeOp .drain [] (s.tile n).ops = some (o, rest) ∧ (s.tile n).run = some r ∧
      o.wide = false ∧
      (s.setTile n { (s.tile n).setAcc o.set { (s.tile n).accSet o.set with cells := [] } with ops := rest }).storeView n r.task.ctx o.dc o.satDef o.ftzDef ((List.range (vDim1 o.dc)).map fun i => (List.range (vDim0 o.dc)).map fun j => cellNum o.fmt (((s.tile n).accSet o.set).cell (64 * (i / 8) + 8 * (i % 8) + j))) = a ∧
      a.st = .ok) ∧
    (∃ (s : State) (n : Nat) (o : TileOp) (rest : List TileOp) (r : RunTask) (a : PlaneR (List (List Machine.Num))) (b : PlaneR Unit), takeOp .qcvt [] (s.tile n).ops = some (o,
      rest) ∧ (s.tile n).run = some r ∧ State.rowsRead (vDim1 o.da) (s.setTile n { s.tile n with ops := rest }) n r.task.ctx o.da 0 = a ∧ a.st = .ok ∧
      a.s.storeView n r.task.ctx o.dc o.satDef o.ftzDef a.val = b ∧ b.st = .ok) ∧
    (∃ (s : State) (n : Nat) (fault : Int) (j : ShadowJob) (l : List ShadowJob), (s.tile n).shadow = j :: l ∧ drifts j fault = false) ∧
    (∃ (s : State) (n : Nat) (fault : Int) (j : ShadowJob) (l : List ShadowJob), (s.tile n).shadow = j :: l ∧ drifts j fault = true) :=
  ⟨⟨(code (eT 0x20 ⟨1, 2, 0, 0, 0, 0, 0⟩) (fun t => ((t.setD 1 viewA).setD 2 viewA).setD 3 viewD)), 0, ⟨1, 2, 0, 0, 0, 0, 0⟩, run1, _, by decide, by decide, by decide, by decide,
     by decide, ⟨by decide, by decide, by decide, rfl, by decide⟩, by decide⟩,
   ⟨(code (eT 0x21 ⟨0, 0, 3, 0, 0, 0, 0⟩) (fun t => ((t.setD 1 viewA).setD 2 viewA).setD 3 viewD)), 0, ⟨0, 0, 3, 0, 0, 0, 0⟩, run1, _, by decide, by decide, by decide, by decide,
     by decide, by decide, by decide, ⟨by decide, by decide, by decide, rfl, by decide⟩, by decide⟩,
   ⟨(code (eT 0x22 ⟨1, 0, 3, 0, 0, 0, 0⟩) (fun t => (t.setD 1 (view 16384 8 64 8 1)).setD 3 viewD)), 0, ⟨1, 0, 3, 0, 0, 0, 0⟩, run1, _, by decide, by decide, by decide, by decide,
     by decide, by decide, ⟨by decide, by decide, by decide, rfl, by decide⟩, by decide⟩,
   ⟨(code 0 fun t => { t with ops := [opOf .drain 0] }), 0, opOf .drain 0, [], run1, _, by decide, by decide, by decide, rfl, by decide⟩,
   ⟨(code 0 fun t => { t with ops := [opOf .qcvt 0] }), 0, opOf .qcvt 0, [], run1, _, _, by decide, by decide, rfl, by decide, rfl, by decide⟩,
   ⟨(code 0 fun t => { t with shadow := [⟨3, 1, [2, 3]⟩] }), 0, 0, ⟨3, 1, [2, 3]⟩, [], by decide +kernel⟩,
   ⟨(code 0 fun t => { t with shadow := [⟨3, 1, [2, 3]⟩] }), 0, 1099511627776, ⟨3, 1, [2, 3]⟩, [], by decide +kernel⟩⟩

/-- The hypotheses of MatrixProduct can be met. -/
theorem witness_MatrixProduct : ∃ (s : State) (n : Nat) (o : TileOp) (rest : List TileOp) (r : RunTask) (k : Nat), takeOp .mma [] (s.tile n).ops = some (o, rest) ∧
    (s.tile n).run = some r ∧ o.acc < 2 ∧ o.set < 2 ∧ k < 512 ∧ (readsA s n r.task.ctx o rest).st = .ok ∧ (readsB s n r.task.ctx o rest).st = .ok :=
  ⟨(code 0 fun t => { t with ops := [opOf .mma 0] }), 0, opOf .mma 0, [], run1, 511, by decide⟩

/-- The hypotheses of PostInstructions can be met. -/
theorem witness_PostInstructions :
    (∃ (s : State) (n : Nat) (f : FmtX) (r : RunTask) (u : State) (o : Origin) (rb rc : Nat) (d : Bytes), Posts s n f .pool r u o rb rc d) ∧
    (∃ (s : State) (n : Nat) (f : FmtX) (r : RunTask) (u : State) (o : Origin) (rb rc : Nat) (d : Bytes), Posts s n f .te r u o rb rc d ∧ bits rb 0 7 < 72 ∧
      u.teOwnerOf (bits rb 0 7) = some r.task.ctx ∧ u.ctxSt r.task.ctx = ctxOpen ∧ u.rd (Obj.teState (bits rb 0 7)) = ustActive ∧ directCount (u.chan (bits rb 0 7)).queue < 16) ∧
    (∃ (s : State) (n : Nat) (f : FmtX) (r : RunTask) (u : State) (o : Origin) (rb rc : Nat) (d : Bytes), Posts s n f .ni r u o rb rc d ∧ u.ctxSt r.task.ctx = ctxOpen ∧
      u.niqActive (bits rb 0 2) r.task.ctx = true ∧ niDirectCount (u.niq (bits rb 0 2) r.task.ctx).queue < 16) ∧
    (∃ (s : State) (n : Nat) (f : FmtX) (r : RunTask) (u : State) (o : Origin) (rb rc : Nat) (d : Bytes), Posts s n f .remote r u o rb rc d ∧ u.ctxSt r.task.ctx = ctxOpen ∧
      u.niqActive (n / 480) r.task.ctx = true ∧ niDirectCount (u.niq (n / 480) r.task.ctx).queue < 16) ∧
    (∃ (s : State) (n : Nat) (f : FmtX) (r : RunTask) (u : State) (o : Origin) (rb rc : Nat) (d : Bytes), Posts s n f .mailbox r u o rb rc d ∧
      mbSendCtx (u.bind (bits rb 0 4)) r.task.ctx = true ∧ u.rd (Obj.mbxState (bits rb 0 4)) = ustActive ∧ u.noReceiver (bits rb 0 4) = false ∧
      (u.mbox (bits rb 0 4)).queue.length < 32) ∧
    (∃ (s : State) (n : Nat) (f : FmtX) (r : RunTask) (s' u : State), FmtX.wf f = true ∧ f.rsv = 0 ∧ Fetches s n (eX 0x31 f) r s' ∧
      postForm ((s'.tile n).xr f.rb).toNat ((s'.tile n).xr f.rc).toNat = .bell ∧ ((s'.tile n).tally f.tally).owner = some r.task.ctx ∧
      u = s'.step1 n (fun t => { t with outstanding := t.outstanding + 1 }) ∧ mbSendCtx (u.bind (bits ((s'.tile n).xr f.rb).toNat 0 4)) r.task.ctx = true ∧
      (u.ringBell (bits ((s'.tile n).xr f.rb).toNat 0 4) (bits ((s'.tile n).xr f.rc).toNat 0 6)).2 = .ok) :=
  ⟨⟨(code postWord (posting 1 0)), 0, ⟨1, 2, 3, 0, 5⟩, run1, _, _, _, _, _, ⟨by decide, rfl, _, _, ⟨by decide, by decide, by decide, rfl, by decide⟩, rfl, rfl, by decide, by decide,
     by decide, by decide, rfl, by decide, rfl, rfl, rfl⟩⟩,
   ⟨((code postWord (posting 0x8000000000000001 0)).wr (Obj.teOwner 1) 1).wr (Obj.teState 1) ustActive, 0, ⟨1, 2, 3, 0, 5⟩, run1, _, _, _, _, _, ⟨by decide, rfl, _, _, ⟨by decide,
     by decide, by decide, rfl, by decide⟩, rfl, rfl, by decide, by decide, by decide, by decide, rfl, by decide, rfl, rfl, rfl⟩, by decide⟩,
   ⟨(code postWord (posting 0xC000000000000002 0)).wr (Obj.niqState 2 1) ustActive, 0, ⟨1, 2, 3, 0, 5⟩, run1, _, _, _, _, _, ⟨by decide, rfl, _, _, ⟨by decide, by decide, by decide,
     rfl, by decide⟩, rfl, rfl, by decide, by decide, by decide, by decide, rfl, by decide, rfl, rfl, rfl⟩, by decide⟩,
   ⟨(code postWord (posting 5 0x8000000000000007)).wr (Obj.niqState 0 1) ustActive, 0, ⟨1, 2, 3, 0, 5⟩, run1, _, _, _, _, _, ⟨by decide, rfl, _, _, ⟨by decide, by decide, by decide,
     rfl, by decide⟩, rfl, rfl, by decide, by decide, by decide, by decide, rfl, by decide, rfl, rfl, rfl⟩, by decide⟩,
   ⟨withMbx (code postWord (posting 0x4000000000000003 0)), 0, ⟨1, 2, 3, 0, 5⟩, run1, _, _, _, _, _, ⟨by decide, rfl, _, _, ⟨by decide, by decide, by decide, rfl, by decide⟩, rfl,
     rfl, by decide, by decide, by decide, by decide, rfl, by decide, rfl, rfl, rfl⟩, by decide⟩,
   ⟨withMbx (code postWord (posting 0x4000000000000003 0x800000000000003F)), 0, ⟨1, 2, 3, 0, 5⟩, run1, _, _, by decide, by decide, ⟨by decide, by decide, by decide, rfl, by decide⟩,
     by decide, by decide, rfl, by decide⟩⟩

/-- The hypotheses of PostArrival can be met. -/
theorem witness_PostArrival :
    (∃ (s : State) (k : Nat) (p : PostMsg), s.posts[k]? = some p ∧ s.holdsPosts p.target = false ∧
      (s.posts.take k).all (fun q => !(sameSource q.origin p.origin && q.target == p.target)) = true ∧ State.postCheck { s with posts := s.posts.eraseIdx k } p = none ∧
      (s.tile p.target).pool.length < 64 ∧ ((s.tile p.target).postQ.any fun q => sameSource q.origin p.origin) = false) ∧
    (∃ (s : State) (k : Nat) (p : PostMsg), s.posts[k]? = some p ∧ s.holdsPosts p.target = false ∧
      (s.posts.take k).all (fun q => !(sameSource q.origin p.origin && q.target == p.target)) = true ∧ State.postCheck { s with posts := s.posts.eraseIdx k } p = none ∧
      (64 ≤ (s.tile p.target).pool.length ∨ ((s.tile p.target).postQ.any fun q => sameSource q.origin p.origin) = true) ∧ (s.tile p.target).postQ.length < 8) ∧
    (∃ (s : State) (k : Nat) (p : PostMsg), s.posts[k]? = some p ∧ s.holdsPosts p.target = false ∧
      (s.posts.take k).all (fun q => !(sameSource q.origin p.origin && q.target == p.target)) = true ∧ State.postCheck { s with posts := s.posts.eraseIdx k } p = none ∧
      (64 ≤ (s.tile p.target).pool.length ∨ ((s.tile p.target).postQ.any fun q => sameSource q.origin p.origin) = true) ∧ 8 ≤ (s.tile p.target).postQ.length) ∧
    (∃ (s : State) (n : Nat) (p : PostMsg) (q : List PostMsg), s.holdsPosts n = false ∧ (s.tile n).postQ = p :: q ∧ (s.tile n).pool.length < 64 ∧ p.target = n ∧
      (s.setTile n { s.tile n with postQ := q }).postCheck p = none) ∧
    (∃ (s : State) (c : Nat) (p : PostMsg) (q : List PostMsg), (s.chan c).postQ = p :: q ∧ directCount (s.chan c).queue < 16) ∧
    (∃ (s : State) (n k : Nat) (p : PostMsg), (s.tile n).postQ[k]? = some p ∧ 64 ≤ (s.tile n).pool.length) ∧
    (∃ (s : State) (k : Nat) (d : TallyDec), s.decs[k]? = some d ∧ (s.decs.take k).all (fun e => !(e.src == d.src && e.tile == d.tile)) = true ∧ (s.tile d.tile).held = false ∧
      d.tile < 1920 ∧ ((s.tile d.tile).tally d.tally).owner = some d.ctx ∧ s.rd (Obj.tileState d.tile) ≠ ustFrozen) ∧
    (∃ (s : State) (k : Nat) (d : TallyDec), s.decs[k]? = some d ∧ (s.decs.take k).any (fun e => e.src == d.src && e.tile == d.tile) = true) ∧
    (∃ (s : State) (k : Nat) (d : TallyDec), s.decs[k]? = some d ∧ (s.decs.take k).all (fun e => !(e.src == d.src && e.tile == d.tile)) = true ∧ (s.tile d.tile).held = true) ∧
    (∃ (s : State) (k : Nat) (d : TallyDec), s.decs[k]? = some d ∧ (s.decs.take k).all (fun e => !(e.src == d.src && e.tile == d.tile)) = true ∧ (s.tile d.tile).held = false ∧
      ((s.tile d.tile).tally d.tally).owner ≠ some d.ctx) :=
  ⟨⟨{ B with posts := [post0] }, 0, post0, by decide⟩,
   ⟨onTile ({ (B.wr (Obj.ctxPoolLimit 1) 65) with posts := [post0] }) 1 fun t => { t with pool := List.replicate 64 entry0 }, 0, post0, by decide⟩,
   ⟨onTile ({ (B.wr (Obj.ctxPoolLimit 1) 65) with posts := [post0] }) 1 fun t => { t with pool := List.replicate 64 entry0, postQ := List.replicate 8 post0 }, 0, post0, by decide⟩,
   ⟨onTile B 1 fun t => { t with postQ := [post0] }, 1, post0, [], by decide⟩,
   ⟨B.setChan 3 { B.chan 3 with postQ := [post0] }, 3, _, _, rfl, by decide⟩,
   ⟨onTile B 1 fun t => { t with postQ := [post0], pool := List.replicate 64 entry0 }, 1, 0, post0, by decide⟩,
   ⟨{ onTile B 1 (tallied 1 1) with decs := [⟨.ni 0, 1, 5, 1, .destLost, causeDest, 1⟩] }, 0, ⟨.ni 0, 1, 5, 1, .destLost, causeDest, 1⟩, by decide⟩,
   ⟨{ onTile B 1 (tallied 1 1) with decs := [⟨.ni 0, 1, 5, 1, .destLost, causeDest, 1⟩, ⟨.ni 0, 1, 5, 1, .ok, causeNone, 1⟩] }, 1, ⟨.ni 0, 1, 5, 1, .ok, causeNone, 1⟩, by decide⟩,
   ⟨{ onTile B 1 (fun t => { t with subst := some ⟨2, 500, false, false⟩ }) with decs := [⟨.ni 0, 1, 5, 1, .destLost, causeDest, 1⟩] }, 0, ⟨.ni 0, 1, 5, 1, .destLost, causeDest, 1⟩,
     by decide⟩,
   ⟨{ onTile B 1 (tallied 2 1) with decs := [⟨.ni 0, 1, 5, 1, .ok, causeNone, 1⟩] }, 0, ⟨.ni 0, 1, 5, 1, .ok, causeNone, 1⟩, by decide⟩⟩

/-- The hypotheses of TaskSelection can be met. -/
theorem witness_TaskSelection :
    (∃ (s : State) (n : Nat) (u : State) (e : PoolTask), s.canStart n = true ∧ State.selectGo (s.order n).2 (s.setTile n { s.tile n with credit := (s.order n).1 }) n = (u, some e) ∧
      u.rd Obj.rngHealth = 0) ∧
    (∃ (s : State) (n : Nat) (r : RunTask), (s.tile n).run = some r ∧ kBudget r.task.desc * 1000 ≤ s.now - r.startNs) ∧
    (∃ (s : State) (n : Nat) (d : Nat × Nat), n < 1920 ∧ s.domUp (n / 480 + 1) = true ∧ s.rd (Obj.tileState n) = ustActive ∧ (s.tile n).held = false ∧ s.pollsAt d.2 = true ∧
      (s.tile n).stealGiven = [] ∧ (s.tile n).pool.any (s.tile n).ready = false ∧ nextNeighbour n (s.tile n).stealDir = some d) ∧
    (∃ (s : State) (v n : Nat) (e : PoolTask), v ∈ (s.tile n).stealAsked ∧ s.postAhead n v = false ∧ s.give v n = some e ∧ v ≠ n) ∧
    (∃ (s : State) (v n : Nat), v ∈ (s.tile n).stealAsked ∧ s.postAhead n v = true) ∧
    (∃ (s : State) (v n : Nat), v ∈ (s.tile n).stealAsked ∧ s.postAhead n v = false ∧ s.give v n = none) ∧
    (∃ (s : State) (n : Nat) (e : PoolTask) (l : List PoolTask), (s.tile n).stealGiven = e :: l ∧ s.canStart n = true ∧ s.rd Obj.rngHealth = 0) ∧
    (∃ (s : State) (v n : Nat) (e : PoolTask), s.give v n = some e) :=
  ⟨⟨onTile B 1 fun t => { t with pool := [entry0] }, 1, _, _, by decide, rfl, by decide⟩,
   ⟨onTile B 0 fun _ => tile1, 0, run1, by decide⟩,
   ⟨(B.wr (Obj.tileState 0) ustActive), 0, _, by decide, by decide, by decide, by decide, by decide, by decide, by decide, rfl⟩,
   ⟨onTile (onTile B 1 fun t => { t with stealAsked := [0] }) 0 fun t => { t with pool := [{ entry0 with desc := zeros 4 ++ [1] ++ zeros 59, age := 1 }, entry0] }, 0, 1,
     { entry0 with desc := zeros 4 ++ [1] ++ zeros 59, age := 1 }, by decide⟩,
   ⟨{ onTile B 1 fun t => { t with stealAsked := [0] } with posts := [⟨.tile 1 5 1 5 0, 1, 0, task0⟩] }, 0, 1, by decide⟩,
   ⟨onTile B 1 fun t => { t with stealAsked := [0] }, 0, 1, by decide⟩,
   ⟨onTile B 1 fun t => { t with stealGiven := [entry0] }, 1, entry0, [], by decide⟩,
   ⟨onTile (onTile B 1 fun t => { t with stealAsked := [0] }) 0 fun t => { t with pool := [{ entry0 with desc := zeros 4 ++ [1] ++ zeros 59, age := 1 }, entry0] }, 0, 1,
     { entry0 with desc := zeros 4 ++ [1] ++ zeros 59, age := 1 }, by decide⟩⟩

/-- The hypotheses of TileControl can be met. -/
theorem witness_TileControl :
    (∃ (s : State) (w : Who) (n : Nat), isOpCus w = true ∧ n < 1920 ∧ (s.tile n).subst = none ∧ s.rd (Obj.tileState n) = ustActive ∧ s.admits w = true) ∧
    (∃ (s : State) (w : Who) (n : Nat), isOpCus w = true ∧ n < 1920 ∧ (s.tile n).subst = none ∧ s.rd (Obj.tileState n) = ustFrozen ∧ s.admits w = true) ∧
    (∃ (s : State) (w : Who) (n : Nat), isOpCus w = true ∧ n < 1920 ∧ s.rd (Obj.tileState n) = ustDisabled ∧ s.mastersMay = true ∧ s.admits w = true) ∧
    (∃ (s : State) (w : Who) (n : Nat), isOpCus w = true ∧ n < 1920 ∧ s.rd (Obj.tileState n) = ustFrozen ∧ s.admits w = true) ∧
    (∃ (s : State) (w : Who), isOpCus w = false ∧ s.admits w = true) ∧
    (∃ (s : State) (w : Who) (n : Nat) (f : Freeze), isCus w = true ∧ n < 1920 ∧ s.rd (Obj.tileState n) = ustFrozen ∧ (s.tile n).frozen = some f ∧ f.wasQuiescing = false ∧
      (s.tile n).heldDisable = false ∧ s.admits w = true) ∧
    (∃ (s : State) (w : Who) (n : Nat) (f : Freeze), isCus w = true ∧ n < 1920 ∧ s.rd (Obj.tileState n) = ustFrozen ∧ (s.tile n).frozen = some f ∧ f.wasQuiescing = false ∧
      (s.tile n).heldDisable = false ∧ s.admits w = true) ∧
    (∃ (s : State) (w : Who) (n : Nat), isCus w = true ∧ n < 1920 ∧ s.rd (Obj.tileState n) ≠ ustFrozen ∧ s.admits w = true) :=
  ⟨⟨(B.wr (Obj.tileState 0) ustActive), op, 0, by decide⟩,
   ⟨(B.wr (Obj.tileState 0) ustFrozen), op, 0, by decide⟩,
   ⟨(B.wr (Obj.tileState 0) ustDisabled), op, 0, by decide⟩,
   ⟨(B.wr (Obj.tileState 0) ustFrozen), op, 0, by decide⟩,
   ⟨B, ten, by decide⟩,
   ⟨(onTile (B.wr (Obj.tileState 1919) ustFrozen) 1919 fun t => { t with frozen := some ⟨causeWindow, 1, 64, 0, false, .empty, .empty⟩ }), cus, 1919, ⟨causeWindow, 1, 64, 0, false,
     .empty, .empty⟩, by decide⟩,
   ⟨(onTile (B.wr (Obj.tileState 1919) ustFrozen) 1919 fun t => { t with frozen := some ⟨causeWindow, 1, 64, 0, false, .empty, .empty⟩ }), cus, 1919, ⟨causeWindow, 1, 64, 0, false,
     .empty, .empty⟩, by decide⟩,
   ⟨B, cus, 0, by decide⟩⟩

/-- The hypotheses of TileSubstitution can be met. -/
theorem witness_TileSubstitution :
    (∃ (s : State) (n : Nat), n < 1920 ∧ s.rd (Obj.tileState n) ≠ ustFailed) ∧
    (∃ (s : State) (n : Nat) (r : RunTask), (s.tile n).run = some r ∧ (s.tile n).waiting = false ∧ s.rd (Obj.tileState n) ≠ ustFailed) ∧
    (∃ (s : State) (w : Who) (n k : Nat), isOpCus w = true ∧ n < 1920 ∧ (s.tile n).subst = none ∧ s.rd (Obj.tileState n) ≠ ustFailed ∧ s.freeSpare (n / 480) = some k ∧
      s.admits w = true) ∧
    (∃ (s : State) (w : Who) (n k : Nat), isOpCus w = true ∧ n < 1920 ∧ (s.tile n).subst = none ∧ s.rd (Obj.tileState n) ≠ ustFailed ∧ s.freeSpare (n / 480) = some k ∧
      s.admits w = true) ∧
    (∃ (s : State) (n : Nat) (b : Subst), (s.tile n).subst = some b ∧ b.step = 1 ∧ (s.rd (Obj.tileState n) = ustQuiescing ∨ s.rd (Obj.tileState n) = ustDisabled)) ∧
    (∃ (s : State) (n : Nat) (b : Subst), (s.tile n).subst = some b ∧ 3 ≤ b.step ∧ b.spare ≠ s.siteOf n ∧ n < 1920 ∧ b.spare < 2048 ∧ s.siteOf n < 2048 ∧
      (s.tile n).disableAfterSubst = false) ∧
    (∃ (s : State) (a : Nat), mget s.mem.marks a = some .ue) ∧
    (∃ (s : State) (die mhz : Nat), die < 4 ∧ mhz % 25 = 0 ∧ 600 ≤ mhz ∧ mhz ≤ 1500 ∧ mhz ≤ s.rd (Obj.tileClockMhz die)) ∧
    (∃ (s : State) (die mhz : Nat), die < 4 ∧ mhz % 25 = 0 ∧ 600 ≤ mhz ∧ mhz ≤ 1500 ∧ s.rd (Obj.tileClockMhz die) < mhz ∧ s.rd Obj.pkgPowerState = pwrOn ∧ s.rd Obj.floorLatched ≠ 1 ∧
      s.hot die = false ∧ mhz ≤ s.dieClock die s.commonClock) ∧
    (∃ (s : State), ((∀ p ∈ s.chans, p.2.recs = [])) ∧ ((∀ p ∈ s.ni.queues, p.2.recs = []))) :=
  ⟨⟨B, 0, by decide⟩,
   ⟨onTile B 0 fun _ => tile1, 0, run1, by decide⟩,
   ⟨B, op, 0, _, by decide, by decide, by decide, by decide, rfl, by decide⟩,
   ⟨B, op, 0, _, by decide, by decide, by decide, by decide, rfl, by decide⟩,
   ⟨onTile (B.wr (Obj.tileState 0) ustDisabled) 0 fun t => { t with subst := some ⟨1, 500, false, false⟩ }, 0, ⟨1, 500, false, false⟩, by decide⟩,
   ⟨onTile (B.wr (Obj.tileState 0) ustDisabled) 0 fun t => { t with subst := some ⟨3, 500, false, false⟩ }, 0, ⟨3, 500, false, false⟩, by decide⟩,
   ⟨(marked .ue 5), 5, by decide⟩,
   ⟨(B.wr (Obj.tileClockMhz 3) 1500), 3, 600, by decide⟩,
   ⟨((B.wr (Obj.tileClockMhz 3) 600).wr (Obj.tileClockMhz 0) 1500), 3, 1500, by decide⟩,
   ⟨B, by decide⟩⟩

end Sys2Proof.Tests
end

section
/-! What a write of a control object and a request of a session come to (R440 to R447), and a unit's change of state with its event (R24): the rules that the proofs about
units, mailboxes, firmware and bring-up share. -/

namespace Sys2Proof.Machine

open Sys2Proof

section Requests

variable {c : Instr} {w : Who} {ok : Bool} {f : State → State × Nat} {s u : State} {code : Nat}

theorem State.ctl_answered (ha : s.admits w = true) (hok : ok = true) (hf : f s = (u, code)) (hcode : code ≠ rLater) :
    s.ctl w ok f = u.answer w.session w.reqId opWrite code [] 0 0 := by
  simp [State.ctl, ha, hok, hf, hcode]

theorem State.ctl_kept (ha : s.admits w = true) (hok : ok = true) (hf : f s = (u, rLater)) : s.ctl w ok f = u.keepOpen w := by
  simp [State.ctl, ha, hok, hf]

theorem State.ctl_noAccess (ha : s.admits w = true) (hok : ok = false) : s.ctl w ok f = s.answer w.session w.reqId opWrite rNoAccess [] 0 0 := by
  simp [State.ctl, ha, hok]

/-- A control write whose writer has access and whose own rules answer OK. -/
theorem accepted_of_ctl (hc : exec c s = .next (s.ctl w ok f)) (hok : ok = true) (hf : f s = (u, rOk)) : Accepted w c s u := fun ha => by
  rw [hc, State.ctl_answered ha hok hf (by decide)]

/-- A control write that its own rules keep in progress. -/
theorem kept_of_ctl (hc : exec c s = .next (s.ctl w ok f)) (hok : ok = true) (hf : f s = (u, rLater)) : Kept w c s u := fun ha => by
  rw [hc, State.ctl_kept ha hok hf]

/-- A control write whose own rules answer another result and change nothing. -/
theorem denied_of_ctl (hc : exec c s = .next (s.ctl w ok f)) (hok : ok = true) (hf : f s = (s, code)) (hcode : code ≠ rLater := by decide) :
    Denied w c s code := fun ha => by
  rw [hc, State.ctl_answered ha hok hf hcode]

/-- A control write whose writer has no access. -/
theorem denied_noAccess_of_ctl (hc : exec c s = .next (s.ctl w ok f)) (hok : ok = false) : Denied w c s rNoAccess := fun ha => by
  rw [hc, State.ctl_noAccess ha hok]

theorem isOpCus_of_isCus (h : isCus w = true) : isOpCus w = true := by
  unfold isCus at h
  simp [isOpCus, h]

variable {op : Nat} {q : NxReq} {x : Session} {k : State → Session → State} {t : State}

/-- A request is new to its session when no kept response bears its identifier, none in progress does, and some kept one is not above it (R441). -/
theorem Session.known_eq_false {n : Nat} (hkept : (x.kept.find? fun r => r.reqId = n) = none) (hopen : (x.openReqs.any fun o => o.reqId == n) = false)
    (hlow : x.kept ≠ [] → ∃ r ∈ x.kept, r.reqId ≤ n) : x.known n = false := by
  have hany : (x.kept.any fun r => r.reqId == n) = false := by simpa [List.any_eq_false] using hkept
  have hall : (!x.kept.isEmpty && x.kept.all fun r => decide (n < r.reqId)) = false := by
    by_cases he : x.kept = []
    · simp [he]
    · obtain ⟨r, hr, hle⟩ := hlow he
      have : (x.kept.all fun r => decide (n < r.reqId)) = false := by simpa using ⟨r, hr, hle⟩
      rw [this, Bool.and_false]
  simp only [Session.known, hany, hopen, hall, Bool.or_self]

/-- A request that keeps the session's rules is performed. -/
theorem Asks.request (h : Asks s op q x u) : s.request op q k = k u x := by
  obtain ⟨v, rfl, hframe, hst, hrole, hkept, hopen, hlow, hlen, hbad, rfl⟩ := h
  have hknown := Session.known_eq_false hkept hopen hlow
  simp [State.request, hframe, hst, hrole, hknown, hbad, Nat.not_le.mpr hlen]

theorem Asks.next (h : Asks s op q x u) (hc : exec c s = .next (s.request op q k)) (hk : k u x = t) : exec c s = .next t := by
  rw [hc, h.request, hk]

end Requests

theorem State.goState_of_ne {s : State} {o : Obj} {old new : Nat} (cls unit : Nat) (h : s.rd o = old) (hne : old ≠ new) :
    s.goState o cls unit new = (s.wr o new).unitEvent cls unit old new := by
  subst h
  simp [State.goState, hne]

end Sys2Proof.Machine
end

section
/-! What the recorder writes (R488 to R502): its objects are those of area 70, so that an event, and the records made of it, change no object of another area. -/

namespace Sys2Proof.Machine

open Sys2Proof

variable {s : State} {o p : Obj}

theorem key_ne_of_area {a : Nat} {p : Obj} (ho : keyArea o.key ≠ a) (hp : keyArea p.key = a) : p.key ≠ o.key := fun h => ho (h ▸ hp)

theorem State.rd_event_of_area (code cls unit ctx a0 a1 a2 : Nat) (ho : keyArea o.key ≠ 0x70) : (s.event code cls unit ctx a0 a1 a2).rd o = s.rd o :=
  s.rd_event _ _ _ _ _ _ _ o (key_ne_of_area ho (by decide))

theorem State.rd_makeRec (e : EventIn) (ho : keyArea o.key ≠ 0x70) : (s.makeRec e).rd o = s.rd o := by
  have hnew : Obj.erNewestSeq.key ≠ o.key := key_ne_of_area ho (by decide)
  have hold : Obj.erOldestSeq.key ≠ o.key := key_ne_of_area ho (by decide)
  have hcount : Obj.erFoundingCount.key ≠ o.key := key_ne_of_area ho (by decide)
  simp only [State.makeRec, State.erSync, State.rd_wr_ne _ _ _ _ hcount, State.rd_wr_ne _ _ _ _ hold, State.rd_wr_ne _ _ _ _ hnew]
  rfl

theorem State.rd_takeEvent (e : EventIn) (ho : keyArea o.key ≠ 0x70) : (s.takeEvent e).rd o = s.rd o := by
  have hrep : Obj.erRepeats.key ≠ o.key := key_ne_of_area ho (by decide)
  unfold State.takeEvent
  split
  · rw [State.rd_bump, if_neg hrep]
    rfl
  · exact State.rd_makeRec e ho

theorem State.rd_takeNext (ho : keyArea o.key ≠ 0x70) : s.takeNext.rd o = s.rd o := by
  unfold State.takeNext
  split
  · rfl
  · rfl
  · simp only
    split
    · exact State.rd_takeEvent _ ho
    · rw [State.rd_makeRec _ ho]
      exact State.rd_takeEvent _ ho

theorem State.rd_pace (ho : keyArea o.key ≠ 0x70) : s.pace.rd o = s.rd o := by
  unfold State.pace
  split
  · exact State.rd_takeNext ho
  · rfl

theorem State.rd_goState_of_area (cls unit new : Nat) (h : o.key ≠ p.key) (hp : keyArea p.key ≠ 0x70) : (s.goState o cls unit new).rd p = s.rd p :=
  s.rd_goState_ne o p cls unit new (key_ne_of_area hp (by decide)) h

/-- The end of a flush concerns the recorder alone. -/
theorem State.endFlush_boot (cause : Nat) : (s.endFlush cause).boot = s.boot := by
  unfold State.endFlush
  simp only [State.bump_boot]
  split <;> rfl

end Sys2Proof.Machine
end

section
/-! Enable, disable and release of tiles (R20, R24, R27, R96, R140, R346). -/

namespace Sys2Proof.Machine

open Sys2Proof

variable {s : State} {w : Who} {n : Nat}

theorem State.disableTile_active (hsub : (s.tile n).subst = none) (h : s.rd (Obj.tileState n) = ustActive) : s.disableTile n = s.quiesceTile n := by
  simp [State.disableTile, hsub, h]

theorem State.disableTile_frozen (hsub : (s.tile n).subst = none) (h : s.rd (Obj.tileState n) = ustFrozen) :
    s.disableTile n = s.setTile n { s.tile n with heldDisable := true } := by
  simp [State.disableTile, hsub, h]

theorem State.enableTile_disabled (h : s.rd (Obj.tileState n) = ustDisabled) (hm : s.mastersMay = true) :
    s.enableTile n = ((s.wr (Obj.tileState n) ustActive).unitEvent 0x01 n ustDisabled ustActive, rOk) := by
  simp [State.enableTile, h, hm, State.goState_of_ne 0x01 n h]

theorem State.enableTile_frozen (h : s.rd (Obj.tileState n) = ustFrozen) : s.enableTile n = (s, rRefused) := by
  simp [State.enableTile, h]

/-- A tile that was ACTIVE when it froze, and for which no disable is held, is ACTIVE again (R140). -/
theorem State.unfreeze_active {f : Freeze} {purge : Bool} (hf : (s.tile n).frozen = some f) (hq : f.wasQuiescing = false) (hd : (s.tile n).heldDisable = false) :
    s.unfreeze n purge =
      (let r := (s.setTile n { s.tile n with
        frozen := none, heldDisable := false, x := [], d := [], v := [], pc := 0, acc0 := .empty, acc1 := .empty,
        tallies := (s.tile n).tallies.map fun y => (y.1, y.2.settle) }).clearFreeze n
       (if purge then r.abortPool n (fun e => e.ctx == f.ctx) .abortedDisabled causeDisabled else r).goState (Obj.tileState n) 0x01 n ustActive) := by
  simp [State.unfreeze, hf, hq, hd]

/-- Settles O20: each request is a control write, and the equation of its function in the tile's state gives the answer. -/
theorem tileControl : Obligations.TileControl := by
  unfold Obligations.TileControl
  refine ⟨?disable, ?disableFrozen, ?enable, ?enableFrozen, ?enableNoAccess, ?releaseKeep, ?releasePurge, ?releaseRefused⟩
  case disable =>
    intro s w n hw hn hsub h
    exact accepted_of_ctl rfl hw (by simp [Nat.not_le.mpr hn, State.disableTile_active hsub h, State.quiesceTile])
  case disableFrozen =>
    intro s w n hw hn hsub h
    exact accepted_of_ctl rfl hw (by simp [Nat.not_le.mpr hn, State.disableTile_frozen hsub h])
  case enable =>
    intro s w n hw hn h hm
    exact accepted_of_ctl rfl hw (by simp [Nat.not_le.mpr hn, State.enableTile_disabled h hm])
  case enableFrozen =>
    intro s w n hw hn h
    exact denied_of_ctl rfl hw (by simp [Nat.not_le.mpr hn, State.enableTile_frozen h])
  case enableNoAccess =>
    intro s w n hw
    exact denied_noAccess_of_ctl rfl hw
  case releaseKeep =>
    intro s w n f hw hn h hf hq hd
    exact accepted_of_ctl rfl hw (by simp [Nat.not_le.mpr hn, h, State.unfreeze_active hf hq hd, State.clearFreeze])
  case releasePurge =>
    intro s w n f hw hn h hf hq hd
    exact accepted_of_ctl rfl hw (by simp [Nat.not_le.mpr hn, h, State.unfreeze_active hf hq hd, State.clearFreeze])
  case releaseRefused =>
    intro s w n hw hn h
    exact denied_of_ctl rfl hw (by simp [Nat.not_le.mpr hn, h])

end Sys2Proof.Machine
end

section
/-! Control of transfer channels (R24, R27, R186, R199, R200, R207, R210, R211, R346). -/

namespace Sys2Proof.Machine

open Sys2Proof

variable {s : State} {w : Who} {c o v : Nat}

theorem State.disableTe_active (hh : isHouse c = false) (h : s.rd (Obj.teState c) = ustActive) : s.disableTe w c = (s.quiesceTe c, rOk) := by
  simp [State.disableTe, hh, h]

theorem State.disableTe_house (hh : isHouse c = true) (hw : isCus w = false) : s.disableTe w c = (s, rNoAccess) := by
  simp [State.disableTe, hh, hw]

theorem State.enableTe_owned (h : s.rd (Obj.teState c) = ustDisabled) (ho : s.teOwnerOf c = some o) (hm : isHte c = true ∨ s.mastersMay = true) :
    s.enableTe c = ((s.wr (Obj.teState c) ustActive).unitEvent 0x04 c ustDisabled ustActive, rOk) := by
  have hmay : ¬(isHte c = false ∧ s.mastersMay = false) := by
    rintro ⟨h1, h2⟩
    simp [h1, h2] at hm
  simp [State.enableTe, h, ho, hmay, State.goState_of_ne 0x04 c h]

theorem State.enableTe_unowned (h : s.rd (Obj.teState c) = ustDisabled) (ho : s.teOwnerOf c = none) : s.enableTe c = (s, rRefused) := by
  simp [State.enableTe, h, ho]

theorem State.releaseTe_frozen (purge : Bool) (hw : isCus w = true) (h : s.rd (Obj.teState c) = ustFrozen) : s.releaseTe w c purge = (s.unfreezeTe c purge, rOk) := by
  simp [State.releaseTe, hw, h]

theorem State.releaseTe_refused (purge : Bool) (hw : isCus w = true) (h : s.rd (Obj.teState c) ≠ ustFrozen) : s.releaseTe w c purge = (s, rRefused) := by
  simp [State.releaseTe, hw, h]

/-- A FROZEN channel that is released without a purge is ACTIVE, and a disable held meanwhile takes effect (R27, R200). -/
theorem State.unfreezeTe_keep (h : s.rd (Obj.teState c) = ustFrozen) :
    s.unfreezeTe c false =
      (let r := ((s.setChan c { s.chan c with heldDisable := false, wasQuiescing := false }).wr (Obj.teState c) ustActive).unitEvent 0x04 c ustFrozen ustActive
       if (s.chan c).heldDisable then r.quiesceTe c else r) := by
  simp [State.unfreezeTe, State.goState_of_ne 0x04 c (old := ustFrozen) (s := s.setChan c _) h]

/-- With nothing in its queue, a purge drops nothing. -/
theorem State.teDropQueue_nil (st : Status) (hq : (s.chan c).queue = []) : s.teDropQueue c st = s.setChan c { s.chan c with queue := [] } := by
  simp [State.teDropQueue, hq]

theorem State.setChan_setChan (a b : TeChan) : (s.setChan c a).setChan c b = s.setChan c b := by
  simp [State.setChan]

theorem State.unfreezeTe_purge (h : s.rd (Obj.teState c) = ustFrozen) (hd : (s.chan c).heldDisable = false) (hq : (s.chan c).queue = []) :
    s.unfreezeTe c true = ((s.setChan c { s.chan c with queue := [], heldDisable := false, wasQuiescing := false }).wr (Obj.teState c) ustActive).unitEvent
      0x04 c ustFrozen ustActive := by
  simp [State.unfreezeTe, hd, State.teDropQueue_nil _ hq, State.setChan_setChan, State.goState_of_ne 0x04 c (old := ustFrozen) (s := s.setChan c _) h]

theorem State.setTeOwner_free (hh : isHouse c = false) (h : s.rd (Obj.teState c) = ustDisabled ∨ s.rd (Obj.teState c) = ustFailed) (h0 : 0 < v) (h64 : v < 64) :
    s.setTeOwner c v = (s.wr (Obj.teOwner c) v, rOk) := by
  have hrange : ¬(v ≠ 0xFF ∧ (v = 0 ∨ v > 63)) := by omega
  have hst : ¬(s.rd (Obj.teState c) ≠ ustDisabled ∧ s.rd (Obj.teState c) ≠ ustFailed) := by omega
  simp only [State.setTeOwner, hh, Bool.false_eq_true, if_false, if_neg hrange, if_neg hst]

/-- Settles O30: each request is a control write, and the equation of its function in the channel's state gives the answer. -/
theorem transferControl : Obligations.TransferControl := by
  unfold Obligations.TransferControl
  refine ⟨?disable, ?disableHouse, ?enable, ?enableUnowned, ?release, ?releaseHeld, ?purge, ?releaseRefused, ?fail, ?failIdle, ?owner⟩
  case disable =>
    intro s w c hw hc hh h
    exact accepted_of_ctl rfl hw (by simp [Nat.not_le.mpr hc, State.disableTe_active hh h])
  case disableHouse =>
    intro s w c hw hc hh hcus
    exact denied_of_ctl rfl hw (by simp [Nat.not_le.mpr hc, State.disableTe_house hh hcus])
  case enable =>
    intro s w c o hw hc h ho hm
    exact accepted_of_ctl rfl hw (by simp [Nat.not_le.mpr hc, State.enableTe_owned h ho hm])
  case enableUnowned =>
    intro s w c hw hc h ho
    exact denied_of_ctl rfl hw (by simp [Nat.not_le.mpr hc, State.enableTe_unowned h ho])
  case release =>
    intro s w c hw hc h hd
    exact accepted_of_ctl rfl (isOpCus_of_isCus hw) (by simp [Nat.not_le.mpr hc, State.releaseTe_frozen _ hw h, State.unfreezeTe_keep h, hd])
  case releaseHeld =>
    intro s w c hw hc h hd
    exact accepted_of_ctl rfl (isOpCus_of_isCus hw) (by simp [Nat.not_le.mpr hc, State.releaseTe_frozen _ hw h, State.unfreezeTe_keep h, hd])
  case purge =>
    intro s w c hw hc h hd hq
    exact accepted_of_ctl rfl (isOpCus_of_isCus hw) (by simp [Nat.not_le.mpr hc, State.releaseTe_frozen _ hw h, State.unfreezeTe_purge h hd hq])
  case releaseRefused =>
    intro s w c hw hc h
    exact denied_of_ctl rfl (isOpCus_of_isCus hw) (by simp [Nat.not_le.mpr hc, State.releaseTe_refused _ hw h])
  case fail =>
    intro s c hc hfailed hdis
    exact congrArg Host.Outcome.next (if_neg (by simp [Nat.not_le.mpr hc, hfailed, hdis]))
  case failIdle =>
    intro s c h
    exact congrArg Host.Outcome.next (if_pos (Or.inr (Or.inr h)))
  case owner =>
    intro s w c v hw hc hh h h0 h64
    exact accepted_of_ctl rfl hw (by simp [Nat.not_le.mpr hc, State.setTeOwner_free hh h h0 h64])

end Sys2Proof.Machine
end

section
/-! Lasers, and the failure, disable, enable and retrain of a port (R27, R239 to R241, R247). -/

namespace Sys2Proof.Machine

open Sys2Proof

variable {s : State} {p : Nat}

theorem State.disablePort_active (h : s.rd (Obj.portState p) = ustActive) :
    s.disablePort p = (((s.wr (Obj.portState p) ustQuiescing).unitEvent 0x05 p ustActive ustQuiescing).wr (Obj.rtAdmit p) 0, rOk) := by
  simp [State.disablePort, h, State.goState_of_ne 0x05 p h]

theorem State.enablePort_disabled (h : s.rd (Obj.portState p) = ustDisabled) :
    s.enablePort p = ((((s.wr (Obj.portState p) ustActive).unitEvent 0x05 p ustDisabled ustActive).wr (Obj.rtAdmit p) 0).startTraining p, rOk) := by
  simp [State.enablePort, h, State.goState_of_ne 0x05 p h]

theorem State.enablePort_failed (h : s.rd (Obj.portState p) = ustFailed) : s.enablePort p = (s, rRefused) := by
  simp [State.enablePort, h]

theorem State.retrainPort_of_trains (ht : s.trains p = true) :
    s.retrainPort p = (if s.rd (Obj.linkState p) = linkUp then (s.linkLoss p 3, rOk) else (s.startTraining p, rOk)) := by
  simp [State.retrainPort, ht]

/-- One of lasers 0 to 8 fails while laser 9 is SPARE: laser 9 takes its pair (R239). -/
theorem exec_laserFail_spare {e j : Nat} {u : State} (he : e < 4) (hj : j < 9) (hfailed : s.rd (Obj.laserState e j) ≠ ustFailed)
    (hret : s.rd (Obj.laserState e j) ≠ ustRetired) (hu : (s.goState (Obj.laserState e j) 0x07 (16 * e + j) ustFailed).addFail 0x07 (16 * e + j) = u)
    (hspare : u.rd (Obj.laserState e 9) = ustSpare) : exec (.laserFail e j) s = .next (u.swapLaser e j) := by
  have hruns : ¬(e ≥ 4 ∨ j ≥ 10 ∨ s.rd (Obj.laserState e j) = ustFailed ∨ s.rd (Obj.laserState e j) = ustRetired) := by
    simp only [hfailed, hret, or_false]
    omega
  have hne : j ≠ 9 := by omega
  refine (if_neg hruns).trans ?_
  simp only [hu, if_neg hne, if_pos hspare]

/-- Settles O35: a failed laser or port by the conditions of its row, the other requests as control writes in the port's state. -/
theorem portControl : Obligations.PortControl := by
  unfold Obligations.PortControl
  refine ⟨?laser, ?fail, ?disable, ?enable, ?enableFailed, ?retrainUp, ?retrainDown, ?retrainNoAccess⟩
  case laser =>
    intro s e j he hj hfailed hret hspare
    exact exec_laserFail_spare he hj hfailed hret rfl hspare
  case fail =>
    intro s p hp h
    exact congrArg Host.Outcome.next (if_neg (by simp [Nat.not_le.mpr hp, h]))
  case disable =>
    intro s w p hw hp h
    exact accepted_of_ctl rfl hw (by simp [Nat.not_le.mpr hp, State.disablePort_active h])
  case enable =>
    intro s w p hw hp h
    exact accepted_of_ctl rfl hw (by simp [Nat.not_le.mpr hp, State.enablePort_disabled h])
  case enableFailed =>
    intro s w p hw hp h
    exact denied_of_ctl rfl hw (by simp [Nat.not_le.mpr hp, State.enablePort_failed h])
  case retrainUp =>
    intro s w p hw hp ht h
    exact accepted_of_ctl rfl hw (by simp [Nat.not_le.mpr hp, State.retrainPort_of_trains ht, h])
  case retrainDown =>
    intro s w p hw hp ht h
    exact accepted_of_ctl rfl hw (by simp [Nat.not_le.mpr hp, State.retrainPort_of_trains ht, h])
  case retrainNoAccess =>
    intro s w p hw
    exact denied_noAccess_of_ctl rfl hw

end Sys2Proof.Machine
end

section
/-! Mailboxes and doorbells (R27, R440, R450 to R454). -/

namespace Sys2Proof.Machine

open Sys2Proof

variable {s : State} {m k : Nat}

theorem State.mbxPost_queued (g : MbxSender) (body : Bytes) (h : s.rd (Obj.mbxState m) = ustActive) (hr : s.noReceiver m = false)
    (hlen : (s.mbox m).queue.length < 32) :
    s.mbxPost m g body = (s.putMbox m { s.mbox m with
      queue := (s.mbox m).queue ++ [⟨g, (s.mbox m).seq + 1, s.pkgTime, body⟩], seq := (s.mbox m).seq + 1 }).deliver m := by
  simp [State.mbxPost, h, hr, Nat.not_le.mpr hlen]

/-- A SESSION mailbox delivers nothing by itself. -/
theorem State.deliver_session (h : mbKind (s.bind m) = 2) : s.deliver m = s := by
  simp [State.deliver, h]

@[simp] theorem State.bind_wr (o : Obj) (v : Nat) : (s.wr o v).bind m = s.bind m := rfl
@[simp] theorem State.bind_frameOut (id : Nat) (b : NxBody) : (s.frameOut id b).bind m = s.bind m := by simp [State.bind, State.rdo]

theorem key_mbxBellsPending_ne_mbxClaimant (m : Nat) : (Obj.mbxBellsPending m).key ≠ (Obj.mbxClaimant m).key := by
  simp only [Obj.mbxBellsPending, Obj.mbxClaimant, objKey]
  omega

/-- A ring in a claimed SESSION mailbox sets its bell, and tells the claimant where no bell was pending (R454). -/
theorem State.ringBell_session (h : s.rd (Obj.mbxState m) = ustActive) (hr : s.noReceiver m = false) (hk : mbKind (s.bind m) = 2) {u : State}
    (hu : u = s.wr (Obj.mbxBellsPending m) (setBit (s.rd (Obj.mbxBellsPending m)) k true)) :
    s.ringBell m k = (if s.rd (Obj.mbxBellsPending m) = 0 then u.frameOut (s.rd (Obj.mbxClaimant m)) (.event 1 m) else u, .ok) := by
  have hclaimant : u.rd (Obj.mbxClaimant m) = s.rd (Obj.mbxClaimant m) := by
    rw [hu, State.rd_wr_ne _ _ _ _ (key_mbxBellsPending_ne_mbxClaimant m)]
  have hbind : mbKind (u.bind m) = 2 := by rw [hu, State.bind_wr, hk]
  have hrang : s.ringBell m k =
      ((if mbKind (u.bind m) = 2 ∧ s.rd (Obj.mbxBellsPending m) = 0 then u.frameOut (u.rd (Obj.mbxClaimant m)) (.event 1 m) else u).deliver m, .ok) := by
    rw [hu]
    exact if_neg (by simp [h, hr])
  rw [hrang, hclaimant]
  by_cases h0 : s.rd (Obj.mbxBellsPending m) = 0
  · simp [h0, hbind, State.deliver_session]
  · simp [h0, hbind, State.deliver_session]

theorem State.disableMbx_active (h : s.rd (Obj.mbxState m) = ustActive) :
    s.disableMbx m = ((s.wr (Obj.mbxState m) ustQuiescing).unitEvent 0x0C m ustActive ustQuiescing, rOk) := by
  simp [State.disableMbx, h, State.goState_of_ne 0x0C m h]

theorem State.enableMbx_disabled (hk : mbKind (s.bind m) ≠ 0) (h : s.rd (Obj.mbxState m) = ustDisabled) :
    s.enableMbx m = (((s.setMbox m ⟨[], 0, false⟩).wr (Obj.mbxState m) ustActive).unitEvent 0x0C m ustDisabled ustActive, rOk) := by
  have hset : (s.setMbox m ⟨[], 0, false⟩).rd (Obj.mbxState m) = ustDisabled := h
  simp [State.enableMbx, h, hk, State.goState_of_ne 0x0C m hset]

theorem State.enableMbx_unbound (hk : mbKind (s.bind m) = 0) : s.enableMbx m = (s, rRefused) := by
  simp [State.enableMbx, hk]

/-- Settles O51: a request of a session by the operation it performs, a control write by the equation of its function, an expiry by the conditions of its row. -/
theorem mailboxes : Obligations.Mailboxes := by
  unfold Obligations.Mailboxes
  refine ⟨?send, ?sendNoAccess, ?recv, ?recvEmpty, ?claim, ?claimTaken, ?release, ?ring, ?ringSession, ?fetch, ?eventRepeat, ?expiry, ?ringHead, ?disable, ?enable,
    ?enableUnbound⟩
  case send =>
    intro s q x u hq hm hlen hadm hst hr hroom
    exact hq.next rfl (by simp [Nat.not_le.mpr hm, Nat.not_lt.mpr hlen, hadm, State.mbxPost_queued _ _ hst hr hroom])
  case sendNoAccess =>
    intro s q x u hq hm hlen hadm
    exact hq.next rfl (by simp [Nat.not_le.mpr hm, Nat.not_lt.mpr hlen, hadm])
  case recv =>
    intro s q x u g l hq hm hclaims hqueue
    exact hq.next rfl (by simp [Nat.not_le.mpr hm, hclaims, hqueue])
  case recvEmpty =>
    intro s q x u hq hm hclaims hqueue hbells
    exact hq.next rfl (by simp [Nat.not_le.mpr hm, hclaims, hqueue, hbells])
  case claim =>
    intro s q x u hq hm hk h0 hrole htenant
    exact hq.next rfl (by simp [Nat.not_le.mpr hm, hk, h0, Nat.not_lt.mpr hrole, htenant])
  case claimTaken =>
    intro s q x u hq hm h0
    exact hq.next rfl (by simp [Nat.not_le.mpr hm, h0])
  case release =>
    intro s q x u hq hm hclaims
    exact hq.next rfl (by simp [Nat.not_le.mpr hm, hclaims])
  case ring =>
    intro s q x u hq hm hadm hok
    exact hq.next rfl (by simp [Nat.not_le.mpr hm, hadm, hok])
  case ringSession =>
    intro s m k u hst hr hk hu
    exact State.ringBell_session hst hr hk hu
  case fetch =>
    intro s q x u hq hm hclaims
    exact hq.next rfl (by simp [Nat.not_le.mpr hm, hclaims])
  case eventRepeat =>
    intro s m hk hclaimant hbells
    exact congrArg Host.Outcome.next (if_pos ⟨hk, hclaimant, hbells⟩)
  case expiry =>
    intro s m k g hg
    show execMbxTtlExpiry m k s = _
    simp [execMbxTtlExpiry, hg]
  case ringHead =>
    intro s w m v hrole hm hk hctx hv
    exact accepted_of_ctl rfl (by simp [hrole, hm, hk, hctx]) (by simp [Nat.not_le.mpr hv])
  case disable =>
    intro s w m hw hm h
    exact accepted_of_ctl rfl hw (by simp [Nat.not_le.mpr hm, State.disableMbx_active h])
  case enable =>
    intro s w m hw hm hk h
    exact accepted_of_ctl rfl hw (by simp [Nat.not_le.mpr hm, State.enableMbx_disabled hk h])
  case enableUnbound =>
    intro s w m hw hm hk
    exact denied_of_ctl rfl hw (by simp [Nat.not_le.mpr hm, State.enableMbx_unbound hk])

end Sys2Proof.Machine
end

section
/-! Firmware staging, FD activation, faults of domains and the end of quiescing (R24, R28, R447, R455 to R459, R481, R483, R484, R505). -/

namespace Sys2Proof.Machine

open Sys2Proof

section Staging

variable {s u : State} {c : Instr} {w : Who} {e : Nat} {f : State → State × Nat} {v : Bytes}

/-! ## Staging (R455 to R457, R459, R463) -/

@[simp] theorem State.fwOf_setFw (x : FwElem) : (s.setFw e x).fwOf e = x := by simp [State.fwOf, State.setFw, mgetD]
@[simp] theorem State.rd_setFw (x : FwElem) (o : Obj) : (s.setFw e x).rd o = s.rd o := rfl
@[simp] theorem State.fwOf_wr (o : Obj) (n : Nat) : (s.wr o n).fwOf e = s.fwOf e := rfl
@[simp] theorem State.fwOf_bumpSat (o : Obj) (n : Nat) : (s.bumpSat o n).fwOf e = s.fwOf e := rfl
@[simp] theorem State.fwOf_event (code cls unit ctx a0 a1 a2 : Nat) : (s.event code cls unit ctx a0 a1 a2).fwOf e = s.fwOf e := by simp [State.fwOf]

/-- A write to the staging objects of an element of which no step runs. -/
theorem accepted_of_fwCtl (hc : exec c s = .next (s.fwCtl w e f)) (hw : isOpCus w = true) (he : isElem e = true) (hidle : s.rd (Obj.fwStageResult e) / 256 ≠ 1)
    (hf : f s = (u, rOk)) : Accepted w c s u :=
  accepted_of_ctl hc hw (by simp [he, hidle, hf])

/-- While a staging step runs, every write to the element's staging objects is refused (R463). -/
theorem denied_of_fwCtl_busy (hc : exec c s = .next (s.fwCtl w e f)) (hw : isOpCus w = true) (he : isElem e = true) (hbusy : s.rd (Obj.fwStageResult e) / 256 = 1) :
    Denied w c s rRefused :=
  denied_of_ctl hc hw (by simp [he, hbusy])

/-- Bytes written one after another from an offset stand there. -/
theorem mget_foldl_mput_range (m : NMap Byte) (d : Bytes) (off n k : Nat) :
    mget ((List.range n).foldl (fun m i => mput m (off + i) (d.getD i 0)) m) (off + k) = if k < n then some (d.getD k 0) else mget m (off + k) := by
  induction n with
  | zero => rfl
  | succ n ih =>
    rw [List.range_succ, List.foldl_append, List.foldl_cons, List.foldl_nil, mget_mput, ih]
    by_cases h : n = k
    · simp [h]
    · have hlt : k < n + 1 ↔ k < n := by omega
      simp [h, hlt]

theorem State.fwData_loading (h5 : 5 ≤ v.length) (hmax : v.length ≤ 1028) (hst : s.rd (Obj.fwState e) = fwLoading) :
    s.fwData e v = (s.setFw e { s.fwOf e with
      loading := (List.range (v.drop 4).length).foldl (fun m i => mput m (leAt v 0 4 + i) ((v.drop 4).getD i 0)) (s.fwOf e).loading
      loadEnd := max (s.fwOf e).loadEnd (leAt v 0 4 + (v.drop 4).length) }, rOk) := by
  have hlen : ¬(v.length < 5 ∨ v.length > 1028) := by omega
  simp only [State.fwData, if_neg hlen, hst, ne_eq, not_true, if_false]

theorem State.fwData_not_loading (h5 : 5 ≤ v.length) (hmax : v.length ≤ 1028) (hst : s.rd (Obj.fwState e) ≠ fwLoading) : s.fwData e v = (s, rRefused) := by
  have hlen : ¬(v.length < 5 ∨ v.length > 1028) := by omega
  simp only [State.fwData, if_neg hlen, if_pos hst]

/-- FW_STAGE_DATA puts its bytes at their offset, and the image reaches at least to their end. -/
theorem fwStageData_stages (hw : isOpCus w = true) (he : isElem e = true) (hidle : s.rd (Obj.fwStageResult e) / 256 ≠ 1) (h5 : 5 ≤ v.length) (hmax : v.length ≤ 1028)
    (hst : s.rd (Obj.fwState e) = fwLoading) : ∃ u, Accepted w (.fwStageData w e v) s u ∧
      (u.fwOf e).loadEnd = max (s.fwOf e).loadEnd (leAt v 0 4 + (v.drop 4).length) ∧
      ∀ i, i < (v.drop 4).length → mget (u.fwOf e).loading (leAt v 0 4 + i) = (v.drop 4)[i]? := by
  refine ⟨_, accepted_of_fwCtl rfl hw he hidle (State.fwData_loading h5 hmax hst), by simp, fun i hi => ?_⟩
  simp only [State.fwOf_setFw, mget_foldl_mput_range, if_pos hi, List.getElem?_eq_getElem hi, List.getD_eq_getElem _ _ hi]

theorem State.fwCommit_not_loading (h : s.rd (Obj.fwState e) ≠ fwLoading) : s.fwCommit e = s.fwBusy e (0x0200 + frNoImage) := by
  have hverdict : s.fwVerdict e = frNoImage := if_pos (Or.inl h)
  simp [State.fwCommit, hverdict]

theorem State.fwCommit_malformed (h : s.rd (Obj.fwState e) = fwLoading) (h0 : (s.fwOf e).loadEnd ≠ 0) (hslot : (s.fwOf e).loadEnd ≤ fwSlot e)
    (hbad : fwMalformed e (s.fwOf e).image = true) : s.fwCommit e = (s.wr (Obj.fwState e) fwFailed).fwBusy e (0x0200 + frMalformed) := by
  have hverdict : s.fwVerdict e = frMalformed := by simp [State.fwVerdict, h, h0, Nat.not_lt.mpr hslot, hbad]
  simp [State.fwCommit, hverdict]

theorem State.fwCommit_good (h : s.fwVerdict e = 0) :
    s.fwCommit e = (if (s.free 1).1 = 1 then ((s.free 1).2.wr (Obj.fwState e) fwFailed).fwBusy e (0x0200 + frFlash) else (s.free 1).2.fwStage e) := by
  simp [State.fwCommit, h]

theorem State.fwFinish_single {n : Nat} (h : s.mgmt.fwDue = [(e, n)]) :
    s.fwFinish = State.wr { s with mgmt := { s.mgmt with fwDue := [] } } (Obj.fwStageResult e) n := by
  simp [State.fwFinish, h]

end Staging

/-! ## Activation and fallback of FD firmware (R458, R459, R505) -/

section Activation

variable {s u : State} {e : Nat}

theorem State.measureIn_sec (s : State) (e d : Nat) : ∃ x, s.measureIn e d = { s with sec := x } := by
  unfold State.measureIn State.measure
  split
  · exact ⟨_, rfl⟩
  · exact ⟨s.sec, rfl⟩

/-- A measurement changes the security core alone. -/
theorem State.measureFw_sec (s : State) (e : Nat) : ∃ x, s.measureFw e = { s with sec := x } :=
  foldl_keeps (P := fun t : State => ∃ x, t = { s with sec := x }) (fun t d ⟨x, hx⟩ => by
    obtain ⟨y, hy⟩ := t.measureIn_sec e d
    exact ⟨y, by rw [hy, hx]⟩) (fwDomains e) s ⟨s.sec, rfl⟩

/-- So does the measurement of a domain that leaves reset. -/
theorem State.measureDomain_sec (s : State) (d : Nat) : ∃ x, s.measureDomain d = { s with sec := x } :=
  foldl_keeps (P := fun t : State => ∃ x, t = { s with sec := x }) (fun t e ⟨x, hx⟩ => by
    split
    · obtain ⟨y, hy⟩ := t.measureIn_sec e d
      exact ⟨y, by rw [hy, hx]⟩
    · exact ⟨x, hx⟩) [1, 2, 3, 4] s ⟨s.sec, rfl⟩

@[simp] theorem State.fwOf_measureFw (s : State) (e k : Nat) : (s.measureFw e).fwOf k = s.fwOf k := by
  obtain ⟨x, hx⟩ := s.measureFw_sec e
  rw [hx]
  rfl

@[simp] theorem State.rd_measureFw (s : State) (e : Nat) (o : Obj) : (s.measureFw e).rd o = s.rd o := by
  obtain ⟨x, hx⟩ := s.measureFw_sec e
  rw [hx]
  rfl

@[simp] theorem State.fwOf_fwSync (s : State) (e k : Nat) : (s.fwSync e).fwOf k = s.fwOf k := rfl

theorem State.rd_fwState_fwSync (s : State) (e : Nat) : (s.fwSync e).rd (Obj.fwState e) = s.rd (Obj.fwState e) := by
  simp [State.fwSync, State.rd_wr, Obj.fwState, Obj.fwRunningVersion, Obj.fwRunningSvn, Obj.fwRunningLevel, objKey]

theorem key_erRecordsLost_ne_fwState (e : Nat) : Obj.erRecordsLost.key ≠ (Obj.fwState e).key := by
  simp only [Obj.erRecordsLost, Obj.fwState, objKey]
  omega

/-- A STAGED image that is activated is the running one, and the one that ran is the previous one (R457). -/
theorem State.fwOf_activateFw {i : FwImage} (h : (s.fwOf e).staged = some i) :
    (s.activateFw e).fwOf e = { s.fwOf e with running := i, previous := some (s.fwOf e).running, staged := none, fresh := true } := by
  simp [State.activateFw, h]

theorem State.rd_fwState_activateFw {i : FwImage} (h : (s.fwOf e).staged = some i) : (s.activateFw e).rd (Obj.fwState e) = fwNone := by
  have hver : (Obj.fwStagedVersion e).key ≠ (Obj.fwState e).key := by simp [Obj.fwStagedVersion, Obj.fwState, objKey]
  have hslot : (Obj.fwActiveSlot e).key ≠ (Obj.fwState e).key := by simp [Obj.fwActiveSlot, Obj.fwState, objKey]
  simp [State.activateFw, h, State.rd_event _ _ _ _ _ _ _ _ _ (key_erRecordsLost_ne_fwState e), State.rd_fwState_fwSync, State.rd_wr_ne _ _ _ _ hver,
    State.rd_wr_ne _ _ _ _ hslot]

/-- Once the self-test of a new FD image has passed, it is the running one (R505). -/
theorem State.fdStarts_new {i : FwImage} (hnew : s.boot.fdNew = true) (h : (s.fwOf 3).staged = some i) :
    (s.fdStarts.fwOf 3).running = i ∧ (s.fdStarts.fwOf 3).staged = none ∧ s.fdStarts.rd (Obj.fwState 3) = fwNone := by
  simp [State.fdStarts, hnew, State.settleFw, State.fwOf_activateFw h, State.rd_fwState_activateFw h]

/-- A new FD image whose self-test has failed gives way to the one that still counts as running, which is not below the floor (R459, R505). -/
theorem State.fdFallback_new {i : FwImage} (hnew : s.boot.fdNew = true) (h : (s.fwOf 3).staged = some i) (hfloor : s.rd (Obj.fwSvnFloor 3) ≤ fwSvn (s.fwOf 3).running.hdr) :
    ∃ u, s.fdFallback = some u ∧ (u.fwOf 3).running = (s.fwOf 3).running ∧ (u.fwOf 3).staged = none ∧ (u.fwOf 3).previous = some i ∧
      u.rd (Obj.fwState 3) = fwFailed ∧ u.boot.fdNew = false := by
  have hver : (Obj.fwStagedVersion 3).key ≠ (Obj.fwState 3).key := by decide
  have hcount : (Obj.fwFallbacks 3).key ≠ (Obj.fwState 3).key := by decide
  obtain ⟨v, hv⟩ : ∃ v : State, v = { s.setFw 3 { s.fwOf 3 with staged := none, previous := some i, fresh := false } with boot := { s.boot with fdNew := false } } :=
    ⟨_, rfl⟩
  have hback : s.fdFallback = some ((((v.wr (Obj.fwState 3) fwFailed).wr (Obj.fwStagedVersion 3) 0).bumpSat (Obj.fwFallbacks 3) 32).event
      0x7C01 0x12 3 noCtx 3 (fwVersion (s.fwOf 3).running.hdr) 0) := by
    simp only [State.fdFallback, h, hnew, if_true, if_neg (Nat.not_lt.mpr hfloor), hv]
  have hfw : v.fwOf 3 = { s.fwOf 3 with staged := none, previous := some i, fresh := false } := by
    rw [hv]
    exact State.fwOf_setFw _
  refine ⟨_, hback, ?_, ?_, ?_, ?_, ?_⟩
  · rw [State.fwOf_event, State.fwOf_bumpSat, State.fwOf_wr, State.fwOf_wr, hfw]
  · rw [State.fwOf_event, State.fwOf_bumpSat, State.fwOf_wr, State.fwOf_wr, hfw]
  · rw [State.fwOf_event, State.fwOf_bumpSat, State.fwOf_wr, State.fwOf_wr, hfw]
  · rw [State.rd_event _ _ _ _ _ _ _ _ _ (key_erRecordsLost_ne_fwState 3), State.bumpSat, State.rd_wr_ne _ _ _ _ hcount, State.rd_wr_ne _ _ _ _ hver,
      State.rd_wr_same]
  · simp [hv]

theorem State.fdFault_again {t : Nat} (h : s.boot.fdFaultNs = some t) (hsoon : s.now < t + 3600000000000) :
    s.fdFault = State.park { s.event 0x0840 0x00 0 noCtx 4 4 0 with boot := { s.boot with fdFaultNs := some s.now } } pkFd := by
  simp [State.fdFault, h, hsoon]

theorem State.activateNow_fabric (hst : s.rd (Obj.fwState 3) = fwStaged) (hpwr : s.rd Obj.pkgPowerState = pwrFabric) (hreset : s.boot.fdReset = false) :
    s.activateNow 3 = ((List.range 18).foldl (fun s p => (s.disablePort p).1)
      (State.sendReport (State.fwResult { s with boot := { s.boot with fdReset := true, fdNew := true } } 3 0) true)).fdNext := by
  simp [State.activateNow, hst, hpwr, hreset]

theorem State.activateNow_elsewhere (hpwr : s.rd Obj.pkgPowerState ≠ pwrFabric) : s.activateNow e = s.fwResult e frNoImage :=
  if_pos (Or.inr (Or.inr (Or.inl hpwr)))

end Activation

/-! ## The end of quiescing (R24, R28) -/

theorem exec_quiesceGraceEnd (u : UnitRef) (s : State) : exec (.quiesceGraceEnd u) s = .next (s.graceEnd u) := rfl
theorem exec_quiesceDrained (u : UnitRef) (s : State) : exec (.quiesceDrained u) s = .next (s.drained u) := rfl
theorem exec_quiesceFailAbort (u : UnitRef) (s : State) : exec (.quiesceFailAbort u) s = .next (s.failQuiescing u) := rfl

/-- Settles O52: a staging request by the element's control write, an event of a unit or domain by the condition of its row. -/
theorem firmwareAndFaults : Obligations.FirmwareAndFaults := by
  unfold Obligations.FirmwareAndFaults
  refine ⟨?begin, ?busy, ?fwBusy, ?finish, ?data, ?dataRefused, ?commit, ?commitNoImage, ?commitMalformed, ?commitGood, ?abandon, ?floor, ?floorRefused, ?activate,
    ?activateElsewhere, ?selftestPass, ?selftestFail, ?fdFault, ?fdFaultAgain, ?startTimeout, ?startFallback, ?domainReset, ?fdReset, ?dieFault, ?graceTile, ?graceTe,
    ?graceNi, ?gracePort, ?graceMbx, ?drainedTile, ?drainedIdle, ?abortTe, ?abortPort, ?starts, ?fallsBack⟩
  case begin =>
    intro s w e hw he hidle
    exact accepted_of_fwCtl rfl hw he hidle rfl
  case busy =>
    intro s w e v hw he hbusy
    exact ⟨denied_of_fwCtl_busy rfl hw he hbusy, denied_of_fwCtl_busy rfl hw he hbusy, denied_of_fwCtl_busy rfl hw he hbusy, denied_of_fwCtl_busy rfl hw he hbusy⟩
  case fwBusy => exact fun s e v => rfl
  case finish => exact fun s e v h => State.fwFinish_single h
  case data => exact fun s w e v hw he hidle h5 hmax hst => fwStageData_stages hw he hidle h5 hmax hst
  case dataRefused =>
    intro s w e v hw he h5 hmax hst
    by_cases hidle : s.rd (Obj.fwStageResult e) / 256 = 1
    · exact denied_of_fwCtl_busy rfl hw he hidle
    · exact denied_of_ctl rfl hw (by simp [he, hidle, State.fwData_not_loading h5 hmax hst])
  case commit =>
    intro s w e hw he hidle
    exact accepted_of_fwCtl rfl hw he hidle rfl
  case commitNoImage => exact fun s e h => State.fwCommit_not_loading h
  case commitMalformed => exact fun s e h h0 hslot hbad => State.fwCommit_malformed h h0 hslot hbad
  case commitGood =>
    rintro s e w h rfl
    exact State.fwCommit_good h
  case abandon =>
    intro s w e hw he hidle
    exact accepted_of_fwCtl rfl hw he hidle rfl
  case floor =>
    rintro s w e v r hw he hlow hhigh rfl
    have hrange : ¬(v < s.toBe (Obj.fwSvnFloor e) ∨ s.rd (Obj.fwRunningSvn e) < v) := by omega
    exact kept_of_ctl rfl hw (by simp only [State.fwFloor, he, Bool.not_true, Bool.false_eq_true, if_false, if_neg hrange]; rfl)
  case floorRefused =>
    intro s w e v hw he hrange
    exact denied_of_ctl rfl hw (by simp only [State.fwFloor, he, Bool.not_true, Bool.false_eq_true, if_false, if_pos hrange])
  case activate =>
    intro s w hw hst hpwr hreset hidle
    exact accepted_of_fwCtl rfl hw rfl hidle (by rw [State.activateNow_fabric hst hpwr hreset])
  case activateElsewhere =>
    intro s w hw hpwr hidle
    exact accepted_of_fwCtl rfl hw rfl hidle (by rw [State.activateNow_elsewhere hpwr])
  case selftestPass =>
    intro s hreset hdown
    show execFdSelftestDone true s = _
    simp [execFdSelftestDone, hreset, hdown]
  case selftestFail =>
    intro s u hreset hdown hback
    show execFdSelftestDone false s = _
    simp [execFdSelftestDone, hreset, hdown, hback]
  case fdFault =>
    intro s hup
    exact congrArg Host.Outcome.next (if_pos hup)
  case fdFaultAgain => exact fun s t h hsoon => State.fdFault_again h hsoon
  case startTimeout =>
    intro s e he hpwr hstep hback
    show execFwStartTimeout e s = _
    simp [execFwStartTimeout, he, hpwr, hstep, hback]
  case startFallback =>
    intro s u hpwr hstep
    refine ⟨fun hback => ?_, fun hback => ?_⟩
    · show execFwStartTimeout 1 s = _
      simp [execFwStartTimeout, hpwr, hstep, hback]
    · show execFwStartTimeout 2 s = _
      simp [execFwStartTimeout, hpwr, hstep, hback]
  case domainReset =>
    intro s d h1 h4 hup
    have hruns : ¬(d = 0 ∨ d > 5 ∨ (!s.domUp d) = true) := by
      simp only [hup, Bool.not_true, Bool.false_eq_true, or_false]
      omega
    have hcompute : d ≠ 5 := by omega
    show execDomainFaultReset d s = _
    rw [execDomainFaultReset, if_neg hruns, if_neg hcompute]
  case fdReset =>
    intro s hup
    show execDomainFaultReset 5 s = _
    simp [execDomainFaultReset, hup]
  case dieFault =>
    intro s die k hdie h1 h3 hup
    have hruns : ¬(die ≥ 4 ∨ k = 0 ∨ k > 3 ∨ (!s.domUp (die + 1)) = true) := by
      simp only [hup, Bool.not_true, Bool.false_eq_true, or_false]
      omega
    exact congrArg Host.Outcome.next (if_neg hruns)
  case graceTile => exact fun s n h => by rw [exec_quiesceGraceEnd, State.graceEnd, if_pos h]
  case graceTe => exact fun s c h => by rw [exec_quiesceGraceEnd, State.graceEnd, if_pos h]
  case graceNi => exact fun s i h => by rw [exec_quiesceGraceEnd, State.graceEnd, if_pos h]
  case gracePort => exact fun s p h => by rw [exec_quiesceGraceEnd, State.graceEnd, if_pos h]
  case graceMbx => exact fun s m h => by rw [exec_quiesceGraceEnd, State.graceEnd, if_pos h]
  case drainedTile =>
    intro s n h hdrained
    rw [exec_quiesceDrained, State.drained, if_pos ⟨h, hdrained⟩, State.goState_of_ne 0x01 n h (by decide)]
  case drainedIdle =>
    intro s n h
    rw [Idles, exec_quiesceDrained, State.drained, if_neg fun hd => h hd.1]
  case abortTe => exact fun s c h => by rw [exec_quiesceFailAbort, State.failQuiescing, if_pos h]
  case abortPort => exact fun s p h => by rw [exec_quiesceFailAbort, State.failQuiescing, if_pos h]
  case starts => exact fun s i hnew h => State.fdStarts_new hnew h
  case fallsBack => exact fun s i hnew h hfloor => State.fdFallback_new hnew h hfloor

end Sys2Proof.Machine
end

section
/-! Cold reset and bring-up (R25, R181, R348, R364, R403, R447, R464 to R476, R481, R499). -/

namespace Sys2Proof.Machine

open Sys2Proof

/-! ## Cold reset (R181, R403, R447, R481) -/

section ColdReset

variable (s : State) {o : Obj}

/-- Of a map filtered by its keys, a read gives what it gave where the key stays, and nothing where it goes. -/
theorem mget_filter_key {α : Type} (f : Nat → Bool) (m : NMap α) (k : Nat) : mget (m.filter fun p => f p.1) k = if f k then mget m k else none := by
  induction m with
  | nil => simp
  | cons p m ih =>
    rw [List.filter_cons]
    by_cases hk : p.1 = k <;> by_cases hf : f p.1 = true <;> simp_all [mget_cons]

/-- Lowering rails changes which rails are up, and the boundary. -/
theorem State.lowerRails_frame (l : List Nat) : ∃ r e, s.lowerRails l = { s with boot := { s.boot with rails := r }, sent := e } :=
  foldl_keeps (P := fun t : State => ∃ r e, t = { s with boot := { s.boot with rails := r }, sent := e }) (fun t k ⟨r, e, h⟩ => by
    unfold State.lowerRail
    split
    · exact ⟨_, _, by rw [h]; rfl⟩
    · exact ⟨r, e, h⟩) l.reverse s ⟨_, _, rfl⟩

/-- Dropping what was being staged changes the firmware's slots and objects. -/
theorem State.resetFw_frame : ∃ r f, s.resetFw = { s with reg := r, mgmt := { s.mgmt with fw := f } } :=
  foldl_keeps (P := fun t : State => ∃ r f, t = { s with reg := r, mgmt := { s.mgmt with fw := f } }) (fun t k ⟨r, f, h⟩ => by
    simp only
    split
    · exact ⟨_, _, by rw [h]; rfl⟩
    · exact ⟨_, _, by rw [h]; rfl⟩) [1, 2, 3, 4] s ⟨_, _, rfl⟩

theorem State.rd_resetFw (ho : keyArea o.key ≠ 0x7C) : s.resetFw.rd o = s.rd o := by
  refine List.foldlRecOn (motive := fun t : State => t.rd o = s.rd o) [1, 2, 3, 4] _ rfl fun t h e he => ?_
  have hne : (Obj.fwState e).key ≠ o.key := key_ne_of_area ho (by revert e; decide)
  simp only
  split
  · rw [State.rd_wr_ne _ _ _ _ hne]
    exact h
  · exact h

theorem State.flBack_pending (k : Nat) : (s.flBack k).pending = s.pending := by
  unfold State.flBack
  split <;> rfl

theorem State.flPut_pending (k : Nat) (v : Bytes) : (s.flPut k v).pending = s.pending := by
  unfold State.flPut
  simp only
  split <;> rfl

theorem State.flSettle_pending : s.flSettle.pending = s.pending := by
  have hback : (s.mgmt.storing.foldl (fun s e => s.flBack e.2.2.1) s).pending = s.pending :=
    foldl_keeps (P := fun t : State => t.pending = s.pending) (fun t e h => (t.flBack_pending _).trans h) _ s rfl
  refine foldl_keeps (P := fun t : State => t.pending = s.pending) (fun t e h => ?_) _ _ hback
  simp only
  split
  · rw [State.flPut_pending, State.free_pending, h]
  · rw [State.free_pending, h]

/-- The state from which a cold reset lets the firmware's slots and the rails follow: what FL keeps, and reset values for the rest. -/
def State.coldBase : State :=
  { State.reset with
    reg := s.flSettle.reg.filter fun p => keptInFl s.flSettle.mgmt.persistReset p.1
    oct := s.flSettle.oct.filter fun p => keptInFl s.flSettle.mgmt.persistReset p.1
    sec := { State.reset.sec with uds := s.flSettle.sec.uds, arForce := s.flSettle.sec.arForce, arStored := s.flSettle.rdo Obj.authorityRecord }
    mgmt := { State.reset.mgmt with fw := s.flSettle.mgmt.fw }
    boot := s.flSettle.bootAfter s.flSettle.mgmt.persistReset
    rcd := { State.reset.rcd with mark := s.flSettle.rcd.mark, nextSeq := s.flSettle.rcd.mark, flCirc := s.flSettle.rcd.flCirc, flFound := s.flSettle.rcd.flFound }
    now := s.flSettle.now, fresh := s.flSettle.fresh, sent := s.flSettle.sent, pending := s.flSettle.pending }

theorem State.coldReset_eq : s.coldReset = (s.coldBase.resetFw.lowerRails computeRails).lowerRails fabricRails := rfl

/-- A cold reset leaves what FL keeps and reset values, but for the firmware's objects and slots, the rails and the boundary. -/
theorem State.coldReset_frame : ∃ r f l e, s.coldReset = { s.coldBase with
    reg := r, mgmt := { s.coldBase.mgmt with fw := f }, boot := { s.coldBase.boot with rails := l }, sent := e } := by
  obtain ⟨r, f, hfw⟩ := s.coldBase.resetFw_frame
  obtain ⟨l, e, hcompute⟩ := s.coldBase.resetFw.lowerRails_frame computeRails
  obtain ⟨l', e', hfabric⟩ := (s.coldBase.resetFw.lowerRails computeRails).lowerRails_frame fabricRails
  exact ⟨r, f, l', e', by rw [State.coldReset_eq, hfabric, hcompute, hfw]⟩

theorem State.rd_lowerRails (l : List Nat) : (s.lowerRails l).rd o = s.rd o := by
  obtain ⟨r, e, h⟩ := s.lowerRails_frame l
  rw [h]
  rfl

/-- An object that FL does not keep has its default after a cold reset. -/
theorem State.rd_coldReset_of_volatile (ho : keyArea o.key ≠ 0x7C) (hv : persistent o.key = false) : s.coldReset.rd o = o.dflt := by
  rw [State.coldReset_eq, State.rd_lowerRails, State.rd_lowerRails, State.rd_resetFw _ ho]
  have hkept : keptInFl s.flSettle.mgmt.persistReset o.key = false := by simp [keptInFl, hv]
  simp only [State.rd, State.coldBase, mgetD, mget_filter_key, hkept]
  rfl

theorem ctxState_volatile : ∀ c, c < 64 → keyArea (Obj.ctxState c).key ≠ 0x7C ∧ persistent (Obj.ctxState c).key = false := by decide

/-- After a cold reset the package is OFF and every context FREE. -/
theorem State.coldReset_off : s.coldReset.rd Obj.pkgPowerState = pwrOff ∧ ∀ c, 0 < c → c < 64 → s.coldReset.rd (Obj.ctxState c) = ctxFree := by
  refine ⟨s.rd_coldReset_of_volatile (by decide) (by decide), fun c h0 h64 => ?_⟩
  obtain ⟨harea, hvol⟩ := ctxState_volatile c h64
  rw [s.rd_coldReset_of_volatile harea hvol]
  exact if_neg (by omega)

/-- What a cold reset empties, and the waiting commands, which it leaves. -/
theorem State.coldReset_clears : s.coldReset.mem = Mem.init ∧ s.coldReset.tiles = [] ∧ s.coldReset.posts = [] ∧ s.coldReset.mgmt.sessions = [] ∧
    s.coldReset.boot.step = 0 ∧ s.coldReset.boot.resetWaits = false ∧ s.coldReset.pending = s.pending := by
  obtain ⟨r, f, l, e, h⟩ := s.coldReset_frame
  rw [h]
  exact ⟨rfl, rfl, rfl, rfl, rfl, rfl, s.flSettle_pending⟩

end ColdReset

/-! ## Steps ROOT and MANAGER (R364, R468, R470) -/

section Release

variable (s : State) {o : Obj}

theorem State.coldOrder_now (h : s.rcd.flush ≠ some 1) : s.coldOrder = s.coldReset := if_neg h

/-- While a flush that PFAIL_N started goes on, the always-on domain waits for it, and every other one is reset (R481). -/
theorem State.coldOrder_waits (h : s.rcd.flush = some 1) : s.coldOrder =
    { s.loseCompute.loseFabric with boot := { s.boot with resetWaits := true, inReset := [1, 2, 3, 4, 5] } } := if_pos h

theorem State.halt_bringup (c k : Nat) : (s.halt c k).rd Obj.bringupState = 0x30 ∧ (s.halt c k).rd Obj.bringupResult = 0x0200 + k ∧ (s.halt c k).boot.step = 0x30 := by
  refine ⟨?_, ?_, rfl⟩
  · refine (State.rd_event_of_area (o := Obj.bringupState) _ _ _ _ _ _ _ (by decide)).trans ?_
    rw [State.rd_wr_ne _ _ _ _ (by decide), State.rd_wr_ne _ _ _ _ (by decide), State.rd_wr_same]
  · refine (State.rd_event_of_area (o := Obj.bringupResult) _ _ _ _ _ _ _ (by decide)).trans ?_
    rw [State.rd_wr_ne _ _ _ _ (by decide), State.rd_wr_same]

/-- A domain that leaves reset has a new generation; no other object changes, and the clock does not. -/
theorem State.rd_leaveReset (d : Nat) (ho : (Obj.resetGeneration d).key ≠ o.key) : (s.leaveReset d).rd o = s.rd o := by
  unfold State.leaveReset
  obtain ⟨x, hx⟩ := State.measureDomain_sec _ d
  rw [hx]
  exact s.rd_wr_ne _ _ _ ho

theorem State.leaveReset_now (d : Nat) : (s.leaveReset d).now = s.now := by
  unfold State.leaveReset
  obtain ⟨x, hx⟩ := State.measureDomain_sec _ d
  rw [hx]
  rfl

theorem State.rd_with_steward (v : Steward) : ({ s with steward := v } : State).rd o = s.rd o := rfl

/-- At ROOT the position is taken from the straps, the boot is counted, and the clock starts (R8, R488). -/
theorem State.atRoot_counts (r : RootRes) : (s.atRoot r).rd Obj.position = r.straps % 64 ∧ (s.atRoot r).rd Obj.bootCount = (s.rd Obj.bootCount + 1) % 2 ^ 32 ∧
    (s.atRoot r).now = 0 := by
  refine ⟨?_, ?_, State.leaveReset_now _ 0⟩
  · rw [State.atRoot, State.rd_leaveReset _ 0 (by decide), State.rd_wr_ne _ _ _ _ (by decide), State.rd_wr_ne _ _ _ _ (by decide), State.rd_wr_ne _ _ _ _ (by decide),
      State.rd_with_steward, State.rd_wr_ne _ _ _ _ (by decide), State.rd_wr_same]
  · rw [State.atRoot, State.rd_leaveReset _ 0 (by decide), State.rd_wr_same, State.rd_wr_ne _ _ _ _ (by decide), State.rd_wr_ne _ _ _ _ (by decide),
      State.rd_with_steward, State.rd_wr_ne _ _ _ _ (by decide), State.rd_wr_ne _ _ _ _ (by decide)]
    rfl

end Release

/-! ## The field map (R464 to R467) -/

section FieldMap

variable {s : State} {a b : Bool}

theorem State.takeMap_newer (h : s.mapVerifies s.boot.mapNew = true) : s.takeMap true b = s.loadMap s.boot.mapNew := by
  simp [State.takeMap, h]

theorem State.takeMap_older (hnew : a = false ∨ s.mapVerifies s.boot.mapNew = false) (h : s.mapVerifies s.boot.mapOld = true) :
    s.takeMap a true = s.loadMap s.boot.mapOld := by
  have hno : (a && s.mapVerifies s.boot.mapNew) = false := Bool.and_eq_false_iff.mpr hnew
  simp [State.takeMap, hno, h]

theorem State.takeMap_rebuilt (hnew : a = false ∨ s.mapVerifies s.boot.mapNew = false) (hold : b = false ∨ s.mapVerifies s.boot.mapOld = false) :
    (s.takeMap a b).rd Obj.defectMapState = 1 := by
  have hno : (a && s.mapVerifies s.boot.mapNew) = false := Bool.and_eq_false_iff.mpr hnew
  have hno' : (b && s.mapVerifies s.boot.mapOld) = false := Bool.and_eq_false_iff.mpr hold
  simp only [State.takeMap, hno, hno', Bool.false_eq_true, if_false]
  rw [State.rd_event_of_area _ _ _ _ _ _ _ (by decide), State.rd_wr_same]

theorem State.writeMap_copies (s : State) : s.writeMap.boot.mapOld = s.boot.mapNew ∧ s.writeMap.boot.mapNew.seq = (s.rd Obj.defectMapSequence + 1) % 2 ^ 32 ∧
    s.writeMap.boot.mapDirty = [] ∧ s.writeMap.rd Obj.defectMapSequence = (s.rd Obj.defectMapSequence + 1) % 2 ^ 32 :=
  ⟨rfl, rfl, rfl, State.rd_wr_same _ _ _⟩

theorem State.zeroStep_mem (s : State) : s.zeroStep.mem.bytes = [] ∧ s.zeroStep.mem.spared = s.mem.spared := ⟨rfl, rfl⟩

end FieldMap

/-! ## The steps of bring-up (R468 to R476) -/

section Steps

variable {s : State} {r : StepRes} {k : Nat}

theorem State.stepDone_rails (h : s.boot.step = 0x10) (hr : r.pass = false) : s.stepDone r = s.stepFails 5 := by
  simp [State.stepDone, h, hr]

theorem State.stepDone_map (h : s.boot.step = 0x15) (hr : r.pass = true) : s.stepDone r = s.mapStep.stepGood := by
  simp [State.stepDone, h, hr]

theorem State.stepDone_zero (h : s.boot.step = 0x16) (hr : r.pass = true) : s.stepDone r = s.zeroStep.stepGood := by
  simp [State.stepDone, h, hr]

theorem State.stepDone_iceOut (h : s.boot.step = 0x17) (hr : r.pass = true) : s.stepDone r = s.iceOut := by
  simp [State.stepDone, h, hr]

theorem State.rd_bringupAuto_wr_bringupState (n : Nat) : (s.wr Obj.bringupState n).rd Obj.bringupAuto = s.rd Obj.bringupAuto := s.rd_wr_ne _ _ _ (by decide)

/-- With neither automatic bring-up nor a RUN, the package holds after a step (R469). -/
theorem State.stepGood_holds (hk : s.boot.step = k) (hre : s.boot.retest = false) (hauto : s.rd Obj.bringupAuto = 0) (hrun : s.boot.runAll = false) :
    s.stepGood = { (s.wr Obj.bringupState k).wr Obj.bringupResult 0x0200 with boot := { s.boot with step := k + 1, held := true, retest := false } } := by
  subst hk
  simp [State.stepGood, hre, hrun, State.rd_bringupAuto_wr_bringupState, hauto]

/-- In a re-test MEMORY_KAT follows TILE_KAT without a hold (R469). -/
theorem State.stepGood_retest (hk : s.boot.step = 0x13) (hre : s.boot.retest = true) :
    s.stepGood = { (s.wr Obj.bringupState 0x13).wr Obj.bringupResult 0x0100 with boot := { s.boot with step := 0x14, held := false } } := by
  simp [State.stepGood, hre, hk]

theorem State.stepGood_goes_on (hk : s.boot.step = k) (hre : s.boot.retest = false) (h : s.rd Obj.bringupAuto = 1 ∨ s.boot.runAll = true) :
    s.stepGood = { (s.wr Obj.bringupState k).wr Obj.bringupResult 0x0100 with boot := { s.boot with step := k + 1, held := false, retest := false } } := by
  subst hk
  simp [State.stepGood, hre, State.rd_bringupAuto_wr_bringupState, h]

end Steps

/-! ## ICE_OUT (R17, R185, R208, R345, R471) -/

section IceOut

variable (s : State) {o : Obj}

/-- The tiles come into service. -/
def State.iceTiles : State := (List.range 1920).foldl (fun s n => (s.goState (Obj.tileState n) 0x01 n ustActive).pace) s

/-- The channels take their default states, and the house channels come into service. -/
def State.iceChans : State :=
  (List.range 72).foldl (fun s c => if s.rd (Obj.teState c) = ustFailed ∧ 2 ≤ s.failsOf 0x04 c then s
    else s.goState (Obj.teState c) 0x04 c (if isHouse c then ustActive else ustDisabled)) s

/-- The network interfaces come into service. -/
def State.iceNis : State :=
  (List.range 4).foldl (fun s i => if s.rd (Obj.niState i) = ustFailed then s else s.goState (Obj.niState i) 0x0A i ustActive) s

/-- The package is ON, and bring-up has ended. -/
def State.iceOn : State :=
  let s := ((s.wr Obj.resourcesComplete 1).wr Obj.bringupState 0x20).wr Obj.bringupResult 0x0200
  let s := (s.wr Obj.bringupElapsedMs s.upMs).wr Obj.pkgPowerState pwrOn
  let s := s.event 0x0802 0x00 0 noCtx s.upMs 0 0
  { s with boot := { s.boot with step := 0x20, held := false, runAll := false, retest := false }, steward := { s.steward with ramp := min s.effCap 880 } }.recap

theorem State.iceOut_eq : s.iceOut = s.iceTiles.iceChans.iceNis.iceOn := by
  simp only [State.iceOut, State.iceTiles, State.iceChans, State.iceNis, State.iceOn]

theorem State.rd_recap (ho : keyArea o.key ≠ 0x50 ∨ o = Obj.pkgPowerState) : s.recap.rd o = s.rd o := by
  obtain ⟨hcap, hwhy⟩ : Obj.capInForceW.key ≠ o.key ∧ Obj.capReason.key ≠ o.key := by
    rcases ho with ho | rfl
    · exact ⟨key_ne_of_area ho (by decide), key_ne_of_area ho (by decide)⟩
    · decide
  unfold State.recap
  simp only [State.rd_with_steward, State.rd_wr_ne _ _ _ _ hcap, State.rd_wr_ne _ _ _ _ hwhy]

/-- The writes that end ICE_OUT; the event and the new cap change no object of another area. -/
theorem State.rd_iceOn_eq (h50 : keyArea o.key ≠ 0x50 ∨ o = Obj.pkgPowerState) (h70 : keyArea o.key ≠ 0x70) : s.iceOn.rd o =
    (((((s.wr Obj.resourcesComplete 1).wr Obj.bringupState 0x20).wr Obj.bringupResult 0x0200).wr Obj.bringupElapsedMs s.upMs).wr Obj.pkgPowerState pwrOn).rd o :=
  (State.rd_recap _ h50).trans (State.rd_event_of_area _ _ _ _ _ _ _ h70)

theorem State.iceOn_package : s.iceOn.rd Obj.pkgPowerState = pwrOn ∧ s.iceOn.rd Obj.bringupState = 0x20 ∧ s.iceOn.rd Obj.resourcesComplete = 1 := by
  refine ⟨?power, ?bringup, ?resources⟩
  case power => rw [s.rd_iceOn_eq (.inr rfl) (by decide), State.rd_wr_same]
  case bringup =>
    rw [s.rd_iceOn_eq (.inl (by decide)) (by decide), State.rd_wr_ne _ _ _ _ (by decide), State.rd_wr_ne _ _ _ _ (by decide), State.rd_wr_ne _ _ _ _ (by decide),
      State.rd_wr_same]
  case resources =>
    rw [s.rd_iceOn_eq (.inl (by decide)) (by decide), State.rd_wr_ne _ _ _ _ (by decide), State.rd_wr_ne _ _ _ _ (by decide), State.rd_wr_ne _ _ _ _ (by decide),
      State.rd_wr_ne _ _ _ _ (by decide), State.rd_wr_same]

/-- The end of ICE_OUT writes no object of a unit. -/
theorem State.rd_iceOn (h08 : keyArea o.key ≠ 0x08) (h50 : keyArea o.key ≠ 0x50) (h70 : keyArea o.key ≠ 0x70) : s.iceOn.rd o = s.rd o := by
  rw [s.rd_iceOn_eq (.inl h50) h70, State.rd_wr_ne _ _ _ _ (key_ne_of_area h50 (by decide)), State.rd_wr_ne _ _ _ _ (key_ne_of_area h08 (by decide)),
    State.rd_wr_ne _ _ _ _ (key_ne_of_area h08 (by decide)), State.rd_wr_ne _ _ _ _ (key_ne_of_area h08 (by decide)),
    State.rd_wr_ne _ _ _ _ (key_ne_of_area h08 (by decide))]

/-- A pass over units of which only one writes an object leaves in it what that one writes. -/
theorem State.rd_foldl_range {f : State → Nat → State} {k n v : Nat} (hk : k < n) (hother : ∀ t j, j ≠ k → (f t j).rd o = t.rd o)
    (hself : ∀ t, t.rd o = s.rd o → (f t k).rd o = v) : ((List.range n).foldl f s).rd o = v := by
  induction n with
  | zero => omega
  | succ n ih =>
    rw [List.range_succ, List.foldl_append, List.foldl_cons, List.foldl_nil]
    by_cases hn : n = k
    · subst hn
      refine hself _ (List.foldlRecOn (motive := fun t : State => t.rd o = s.rd o) _ _ rfl fun t ht j hj => ?_)
      rw [hother t j (by rw [List.mem_range] at hj; omega), ht]
    · rw [hother _ n hn, ih (by omega)]

theorem keyArea_tileState {n : Nat} (hn : n < 1920) : keyArea (Obj.tileState n).key = 0x10 := by
  simp only [keyArea, Obj.tileState, objKey]
  omega

theorem keyArea_teState {c : Nat} (hc : c < 72) : keyArea (Obj.teState c).key = 0x28 := by
  simp only [keyArea, Obj.teState, objKey]
  omega

theorem keyArea_niState {i : Nat} (hi : i < 4) : keyArea (Obj.niState i).key = 0x40 := by
  simp only [keyArea, Obj.niState, objKey]
  omega

theorem key_tileState_ne {n m : Nat} (h : n ≠ m) : (Obj.tileState n).key ≠ (Obj.tileState m).key := by
  simp only [Obj.tileState, objKey]
  omega

theorem key_teState_ne {c d : Nat} (h : c ≠ d) : (Obj.teState c).key ≠ (Obj.teState d).key := by
  simp only [Obj.teState, objKey]
  omega

theorem State.rd_iceTiles_tile {n : Nat} (hn : n < 1920) : s.iceTiles.rd (Obj.tileState n) = ustActive := by
  have hrec : keyArea (Obj.tileState n).key ≠ 0x70 := by rw [keyArea_tileState hn]; decide
  refine State.rd_foldl_range s hn (fun t j hj => ?_) fun t _ => ?_
  · rw [State.rd_pace hrec, State.rd_goState_of_area _ _ _ (key_tileState_ne hj) hrec]
  · rw [State.rd_pace hrec, State.rd_goState _ _ _ _ _ (key_ne_of_area hrec (by decide))]

theorem State.rd_iceTiles (h10 : keyArea o.key ≠ 0x10) (h70 : keyArea o.key ≠ 0x70) : s.iceTiles.rd o = s.rd o :=
  List.foldlRecOn (motive := fun t : State => t.rd o = s.rd o) _ _ rfl fun t ht n hn => by
    rw [State.rd_pace h70, State.rd_goState_of_area _ _ _ (key_ne_of_area h10 (keyArea_tileState (List.mem_range.mp hn))) h70, ht]

theorem State.rd_iceChans_chan {c : Nat} (hc : c < 72) (h : s.rd (Obj.teState c) ≠ ustFailed) :
    s.iceChans.rd (Obj.teState c) = if isHouse c then ustActive else ustDisabled := by
  have hrec : keyArea (Obj.teState c).key ≠ 0x70 := by rw [keyArea_teState hc]; decide
  refine State.rd_foldl_range s hc (fun t j hj => ?_) fun t ht => ?_
  · split
    · rfl
    · rw [State.rd_goState_of_area _ _ _ (key_teState_ne hj) hrec]
  · rw [if_neg fun hf => h (ht ▸ hf.1), State.rd_goState _ _ _ _ _ (key_ne_of_area hrec (by decide))]

theorem State.rd_iceChans (h28 : keyArea o.key ≠ 0x28) (h70 : keyArea o.key ≠ 0x70) : s.iceChans.rd o = s.rd o :=
  List.foldlRecOn (motive := fun t : State => t.rd o = s.rd o) _ _ rfl fun t ht c hc => by
    split
    · exact ht
    · rw [State.rd_goState_of_area _ _ _ (key_ne_of_area h28 (keyArea_teState (List.mem_range.mp hc))) h70, ht]

theorem State.rd_iceNis (h40 : keyArea o.key ≠ 0x40) (h70 : keyArea o.key ≠ 0x70) : s.iceNis.rd o = s.rd o :=
  List.foldlRecOn (motive := fun t : State => t.rd o = s.rd o) _ _ rfl fun t ht i hi => by
    split
    · exact ht
    · rw [State.rd_goState_of_area _ _ _ (key_ne_of_area h40 (keyArea_niState (List.mem_range.mp hi))) h70, ht]

/-- ICE_OUT leaves the package ON with its resources complete. -/
theorem State.iceOut_package : s.iceOut.rd Obj.pkgPowerState = pwrOn ∧ s.iceOut.rd Obj.bringupState = 0x20 ∧ s.iceOut.rd Obj.resourcesComplete = 1 := by
  rw [State.iceOut_eq]
  exact State.iceOn_package _

/-- ICE_OUT leaves every tile ACTIVE. -/
theorem State.iceOut_tile {n : Nat} (hn : n < 1920) : s.iceOut.rd (Obj.tileState n) = ustActive := by
  have harea : ∀ a, a ≠ 0x10 → keyArea (Obj.tileState n).key ≠ a := fun a ha h => ha (h ▸ keyArea_tileState hn)
  rw [State.iceOut_eq, State.rd_iceOn _ (harea _ (by decide)) (harea _ (by decide)) (harea _ (by decide)), State.rd_iceNis _ (harea _ (by decide)) (harea _ (by decide)),
    State.rd_iceChans _ (harea _ (by decide)) (harea _ (by decide)), State.rd_iceTiles_tile _ hn]

/-- ICE_OUT leaves a channel that has not failed DISABLED, and a house channel in service. -/
theorem State.iceOut_chan {c : Nat} (hc : c < 72) (h : s.rd (Obj.teState c) ≠ ustFailed) : s.iceOut.rd (Obj.teState c) = if isHouse c then ustActive else ustDisabled := by
  have harea : ∀ a, a ≠ 0x28 → keyArea (Obj.teState c).key ≠ a := fun a ha h => ha (h ▸ keyArea_teState hc)
  rw [State.iceOut_eq, State.rd_iceOn _ (harea _ (by decide)) (harea _ (by decide)) (harea _ (by decide)), State.rd_iceNis _ (harea _ (by decide)) (harea _ (by decide)),
    State.rd_iceChans_chan _ hc (by rwa [State.rd_iceTiles _ (harea _ (by decide)) (harea _ (by decide))])]

end IceOut

/-! ## Holding (R469, R470) -/

/-- A write of `bringup_cmd` that fits the present hold. -/
theorem accepted_of_bringupCtl {c : Instr} {s u : State} {w : Who} {ok : Bool} {f : State → State} (hc : exec c s = .next (s.bringupCtl w ok f))
    (hw : isOpCus w = true) (hok : ok = true) (hf : f s = u) : Accepted w c s u :=
  accepted_of_ctl hc hw (by rw [if_pos hok, hf])

theorem denied_of_bringupCtl {c : Instr} {s : State} {w : Who} {ok : Bool} {f : State → State} (hc : exec c s = .next (s.bringupCtl w ok f)) (hw : isOpCus w = true)
    (hok : ok = false) : Denied w c s rRefused :=
  denied_of_ctl hc hw (if_neg (by simp [hok]))

/-- Settles O53: resets and steps by the condition of their row, requests as control writes, and what a cold reset and ICE_OUT leave object by object. -/
theorem resetAndBringup : Obligations.ResetAndBringup := by
  unfold Obligations.ResetAndBringup
  refine ⟨?assertShort, ?assertRecorded, ?assertReset, ?watchdog, ?watchdogWaits, ?resetCmd, ?resetCmdRefused, ?flush, ?flushReset, ?railsFall, ?coldReset, ?release,
    ?releaseIdle, ?releaseIdentity, ?atRoot, ?halt, ?step, ?stepIdle, ?stepRails, ?stepMap, ?stepZero, ?stepIceOut, ?zero, ?iceOut, ?holds, ?retestOn, ?goesOn, ?mapNewer,
    ?mapOlder, ?mapRebuilt, ?next, ?run, ?retest, ?giveUp, ?noHold, ?holdTimeout, ?holdIdle, ?mapWrite, ?mapCopies, ?mapIdle⟩
  case assertShort => exact fun s n h => congrArg Host.Outcome.next (if_pos h)
  case assertRecorded => exact fun s n h1 h10 => congrArg Host.Outcome.next ((if_neg (Nat.not_lt.mpr h1)).trans (if_pos h10))
  case assertReset =>
    intro s n h10 hflush
    have h1 : ¬n < 1000 := by omega
    exact congrArg Host.Outcome.next ((if_neg h1).trans ((if_neg (Nat.not_lt.mpr h10)).trans (State.coldOrder_now _ hflush)))
  case watchdog => exact fun s h => congrArg Host.Outcome.next (s.coldOrder_now h)
  case watchdogWaits => exact fun s h => congrArg Host.Outcome.next (s.coldOrder_waits h)
  case resetCmd => exact fun s w hw => accepted_of_ctl rfl hw rfl
  case resetCmdRefused => exact fun s w v hw hv => denied_of_ctl rfl hw (if_pos hv)
  case flush =>
    intro s c h hwaits
    show execFlushDone s = _
    simp [execFlushDone, h, State.endFlush_boot, hwaits]
  case flushReset =>
    intro s c h hwaits
    show execFlushDone s = _
    simp [execFlushDone, h, State.endFlush_boot, hwaits]
  case railsFall => exact fun s => rfl
  case coldReset =>
    intro s
    obtain ⟨hoff, hctx⟩ := s.coldReset_off
    exact ⟨hoff, hctx, s.coldReset_clears⟩
  case release => exact fun s r h => congrArg Host.Outcome.next (if_pos h)
  case releaseIdle => exact fun s r h => congrArg Host.Outcome.next (if_neg h)
  case releaseIdentity => exact fun s r h => if_pos (by simp [h])
  case atRoot => exact fun s r => s.atRoot_counts r
  case halt => exact fun s c k => s.halt_bringup c k
  case step => exact fun s r h => congrArg Host.Outcome.next (if_pos h)
  case stepIdle => exact fun s r h => congrArg Host.Outcome.next (if_neg (by simp [h]))
  case stepRails => exact fun s r h hr => State.stepDone_rails h hr
  case stepMap => exact fun s r h hr => State.stepDone_map h hr
  case stepZero => exact fun s r h hr => State.stepDone_zero h hr
  case stepIceOut => exact fun s r h hr => State.stepDone_iceOut h hr
  case zero => exact fun s => s.zeroStep_mem
  case iceOut =>
    intro s
    obtain ⟨hpower, hbringup, hresources⟩ := s.iceOut_package
    exact ⟨hpower, hbringup, hresources, fun n hn => s.iceOut_tile hn, fun c hc h => s.iceOut_chan hc h⟩
  case holds => exact fun s k hk hre hauto hrun => State.stepGood_holds hk hre hauto hrun
  case retestOn => exact fun s hk hre => State.stepGood_retest hk hre
  case goesOn => exact fun s k hk hre h => State.stepGood_goes_on hk hre h
  case mapNewer => exact fun s b h => State.takeMap_newer h
  case mapOlder => exact fun s a hnew h => State.takeMap_older hnew h
  case mapRebuilt => exact fun s a b hnew hold => State.takeMap_rebuilt hnew hold
  case next => exact fun s w hw h => accepted_of_bringupCtl rfl hw h rfl
  case run => exact fun s w hw h => accepted_of_bringupCtl rfl hw h rfl
  case retest => exact fun s w hw h hstep => accepted_of_bringupCtl rfl hw (by rcases hstep with hstep | hstep <;> simp [h, hstep]) rfl
  case giveUp => exact fun s w hw h => accepted_of_bringupCtl rfl hw h rfl
  case noHold => exact fun s w hw h => ⟨denied_of_bringupCtl rfl hw h, denied_of_bringupCtl rfl hw h⟩
  case holdTimeout => exact fun s h => congrArg Host.Outcome.next (if_pos h)
  case holdIdle => exact fun s h => congrArg Host.Outcome.next (if_neg (by simp [h]))
  case mapWrite => exact fun s h => congrArg Host.Outcome.next (if_neg (by simp [h]))
  case mapCopies => exact fun s => s.writeMap_copies
  case mapIdle => exact fun s h => congrArg Host.Outcome.next (if_pos (by simp [h]))

end Sys2Proof.Machine
end

section
/-! Words that a running tile fetches: the fields of a word in formats V and T, and the instruction whose word stands at the program counter (R126, R130). -/

namespace Sys2Proof.Machine

open Sys2Proof

section Words

variable {op func : Nat} {f : FmtV} {g : FmtT}

theorem wOp_eV (hop : op < 64) (hfunc : func < 64) (hf : FmtV.wf f = true) : wOp (eV op func f) = op := by
  simp only [FmtV.wf, decide_eq_true_eq] at hf
  simp only [wOp, eV, bits, fld]
  omega

theorem wFunc_eV (hfunc : func < 64) : wFunc (eV op func f) = func := by
  simp only [wFunc, eV, bits, fld]
  omega

theorem wV_eV (hfunc : func < 64) (hf : FmtV.wf f = true) : wV (eV op func f) = f := by
  obtain ⟨vd, va, vb, vc⟩ := f
  simp only [FmtV.wf, decide_eq_true_eq] at hf
  simp only [wV, eV, bits, fld, FmtV.mk.injEq]
  omega

theorem wOp_eT (hop : op < 64) (hg : FmtT.wf g = true) : wOp (eT op g) = op := by
  simp only [FmtT.wf, decide_eq_true_eq] at hg
  simp only [wOp, eT, bits, fld]
  omega

theorem wT_eT (hg : FmtT.wf g = true) : wT (eT op g) = g := by
  obtain ⟨da, db, dc, cfg, acc, skip, rsv⟩ := g
  simp only [FmtT.wf, decide_eq_true_eq] at hg
  simp only [wT, eT, bits, fld, FmtT.mk.injEq]
  omega

end Words

section Fetched

variable {s s' : State} {n w op func : Nat} {r : RunTask} {c : Instr}

/-- The instruction whose word is fetched is performed in the state after the fetch. -/
theorem Fetches.instr {fits : Nat → Bool} {k : State → RunTask → State} (h : Fetches s n w r s') (hop : wOp w = op) (hfits : fits w = true) :
    s.instr n op fits k = k s' r := by
  obtain ⟨hrun, hbusy, hst, rfl, rfl⟩ := h
  simp [State.instr, hrun, hbusy, hst, hop, hfits]

/-- A vector function whose word is fetched writes its lanes to vd and nothing else. -/
theorem Fetches.vop {f : FmtV} {g : LaneFn} (h : Fetches s n (eV 0x2A func f) r s') (hfunc : func < 64) (hf : FmtV.wf f = true) :
    s.vop n func w f g = s'.wroteV n f.vd 1024 (s'.lanesOf n w f g) :=
  h.instr (wOp_eV (by decide) hfunc hf) (by simp [wV_eV hfunc hf, wFunc_eV hfunc])

/-- The command of a vector function whose word is fetched. -/
theorem exec_of_vop {f : FmtV} {g : LaneFn} (hc : exec c s = .next (s.vop n func w f g)) (hf : FmtV.wf f = true) (h : Fetches s n (eV 0x2A func f) r s')
    (hfunc : func < 64 := by decide) : exec c s = .next (s'.wroteV n f.vd 1024 (s'.lanesOf n w f g)) := by
  rw [hc, h.vop hfunc hf]

/-- An instruction of format T whose word is fetched. -/
theorem Fetches.instrT {f : FmtT} {k : State → RunTask → State} (h : Fetches s n (eT op f) r s') (hop : op < 64) (hf : FmtT.wf f = true) :
    s.instr n op (fun w => wT w = f) k = k s' r :=
  h.instr (wOp_eT hop hf) (by simp [wT_eT hf])

end Fetched

end Sys2Proof.Machine
end

section
/-! The element codes of R35 and R36, and the codes that the quantizer gives two-bit integers (R48). -/

namespace Sys2Proof.Machine

open Sys2Proof

/-- A code of the quantizer for a two-bit element: 0, 1 or −1, never 10 (R36, R48). -/
def TwoBitCode (c : Nat) : Prop := c = 0 ∨ c = 1 ∨ c = 3

section TwoBit

variable {f mode r : Nat} {neg : Bool}

theorem elemFp_twoBit (hf : f = 0x07 ∨ f = 0x10) : elemFp f = none := by rcases hf with rfl | rfl <;> rfl

theorem vmaxCode_twoBit (hf : f = 0x07 ∨ f = 0x10) : vmaxCode f = 1 := by rcases hf with rfl | rfl <;> rfl

theorem signCode_twoBit (hf : f = 0x07 ∨ f = 0x10) : TwoBitCode (signCode f neg 1) := by
  rcases hf with rfl | rfl <;> cases neg <;> simp [TwoBitCode, signCode, elemFp, signCode.fmtBitsOf, ofInt]

/-- A magnitude is emitted as Vmax, which is 1, as 0, or as a code between them that is not 0. -/
theorem quantElem_twoBit (hf : f = 0x07 ∨ f = 0x10) (m : Nat) (e : Int) : TwoBitCode (quantElem f mode r neg m e).code := by
  simp only [quantElem, elemFp_twoBit hf, vmaxCode_twoBit hf]
  split
  · exact .inl rfl
  · split
    · exact signCode_twoBit hf
    · next hmax =>
      split
      · exact .inl rfl
      · next hzero =>
        have hone : roundMag mode r m e (intUnit f) = 1 := by omega
        simpa only [hone] using signCode_twoBit hf

theorem quantPlain_twoBit (x : Num) : TwoBitCode (quantPlain 0x07 mode r x).1 := by
  cases x with
  | fin neg m e => exact quantElem_twoBit (.inl rfl) m e
  | inf neg => exact signCode_twoBit (.inl rfl)
  | nan => exact .inl rfl

theorem quantBlock_twoBit {floorMode : Bool} {v : Nat → Nat} {l : List Num} {k : Nat} (hk : k ∈ (quantBlock 0x10 mode floorMode v l).codes) : TwoBitCode k := by
  have zero {k : Nat} (h : k ∈ l.map fun _ => 0) : TwoBitCode k := .inl (List.mem_map.mp h).choose_spec.2.symm
  unfold quantBlock at hk
  split at hk
  · exact zero hk
  · dsimp only at hk
    split at hk
    · exact zero hk
    · simp only [List.mem_map, List.mem_mapIdx] at hk
      obtain ⟨q, ⟨i, hi, rfl⟩, rfl⟩ := hk
      split
      · exact quantElem_twoBit (.inr rfl) _ _
      · exact .inl rfl

end TwoBit

/-- Settles O1: the values by the tables' codes, the quantizer's codes by the rule for one element. -/
theorem elementCodes : Obligations.ElementCodes := by
  unfold Obligations.ElementCodes
  refine ⟨?e2m1, ?minusZero, ?int4, ?ut2, ?int2, ?blocks, ?plain⟩
  case e2m1 => rintro f (rfl | rfl) <;> decide
  case minusZero => rintro f (rfl | rfl) <;> exact ⟨-1, rfl⟩
  case int4 => rintro f (rfl | rfl) <;> decide
  case ut2 => decide
  case int2 => decide
  case blocks => exact fun _ _ _ _ _ hk => quantBlock_twoBit hk
  case plain => exact fun _ _ x => quantPlain_twoBit x

end Sys2Proof.Machine
end

section
/-! Vector arithmetic and transcendentals (R61, R84, R133). -/

namespace Sys2Proof.Machine

open Sys2Proof

/-- Settles O8: each instruction is its lane function on the fetched word. -/
theorem vectorArithmetic : Obligations.VectorArithmetic := by
  unfold Obligations.VectorArithmetic
  refine ⟨?fadd, ?fsub, ?fmul, ?ffma, ?badd, ?bsub, ?bmul, ?bfma, ?div, ?sqrt⟩
  case fadd => exact fun s n f r s' hf h => exec_of_vop rfl hf h
  case fsub => exact fun s n f r s' hf h => exec_of_vop rfl hf h
  case fmul => exact fun s n f r s' hf h => exec_of_vop rfl hf h
  case ffma => exact fun s n f r s' hf h => exec_of_vop rfl hf h
  case badd => exact fun s n f r s' hf h => exec_of_vop rfl hf h
  case bsub => exact fun s n f r s' hf h => exec_of_vop rfl hf h
  case bmul => exact fun s n f r s' hf h => exec_of_vop rfl hf h
  case bfma => exact fun s n f r s' hf h => exec_of_vop rfl hf h
  case div => exact fun s n f r s' hf h => exec_of_vop rfl hf h
  case sqrt => exact fun s n f r s' hf h => exec_of_vop rfl hf h

/-- A magnitude half a subnormal step below the smallest normal number 2^(−126). -/
def justSubnormal : Nat × Int := (0xFFFFFF, -150)

/-- Its nearest code is that of the smallest normal number, half a step away. -/
theorem mag_justSubnormal : fp32.mag rmRNE 0 justSubnormal.1 justSubnormal.2 = 0x00800000 := by decide

/-- The bound of one step holds for subnormal codes alone, so that the next normal code, one and a half steps away, may be picked too. -/
theorem ulpPick_justSubnormal : ulpPick 1 justSubnormal = 0x00800001 := by decide

/-- Refutes O10: its last clause takes the bound of one step wherever the value is subnormal, and the model wherever the code picked is. For a value half a step below
2^(−126) the nearest code lies within one step and the code picked does not. -/
theorem not_vectorTranscendentals : ¬ Obligations.VectorTranscendentals := by
  unfold Obligations.VectorTranscendentals
  rintro ⟨-, -, -, -, -, -, -, -, -, -, -, -, -, -, -, hbound⟩
  have hnearest : nearMag 1 (fp32.grid justSubnormal.1 justSubnormal.2) justSubnormal (fp32.mag rmRNE 0 justSubnormal.1 justSubnormal.2) = true := by
    rw [mag_justSubnormal]
    decide
  have hpicked := hbound 1 justSubnormal 1 (by decide) hnearest
  rw [ulpPick_justSubnormal] at hpicked
  exact absurd hpicked (by decide)

end Sys2Proof.Machine
end

section
/-! Array operations: the checks and the queue of an instruction that passes them, and the end of a drain, a conversion and a shadow check (R59, R60, R127, R129, R132,
R133). -/

namespace Sys2Proof.Machine

open Sys2Proof

section Issue

variable {s : State} {n : Nat} {r : RunTask} {reads writes : List Bytes} {shapeBad : Bool} {k : State → State} {kind : OpKind}

/-- Views of a right shape that are well formed, local and granted by a window pass their checks. -/
theorem State.viewsCheck_passes (hshape : shapeBad = false) (hmal : ∀ v ∈ reads ++ writes, viewMal v = false) (hlocal : ∀ v ∈ reads ++ writes, viewRemote v = false)
    (hread : ∀ v ∈ reads, s.viewWindow n r.task.ctx permRead v = none) (hwrite : ∀ v ∈ writes, s.viewWindow n r.task.ctx permWrite v = none) :
    s.viewsCheck n r reads writes shapeBad k = k s := by
  have hmals : (reads ++ writes).any viewMal = false := List.any_eq_false.mpr fun v hv => by simp [hmal v hv]
  have hlocals : (reads ++ writes).any viewRemote = false := List.any_eq_false.mpr fun v hv => by simp [hlocal v hv]
  have hreads : reads.findSome? (s.viewWindow n r.task.ctx permRead) = none := List.findSome?_eq_none_iff.mpr hread
  have hwrites : writes.findSome? (s.viewWindow n r.task.ctx permWrite) = none := List.findSome?_eq_none_iff.mpr hwrite
  simp only [State.viewsCheck, hshape, hmals, hlocals, hreads, hwrites]
  rfl

theorem State.issue_of_room (h : (s.tile n).queued kind < 2) : s.issue n kind k = k s := if_neg (by omega)

end Issue

section Ends

variable {s : State} {n : Nat} {o : TileOp} {rest : List TileOp} {r : RunTask}

theorem PlaneR.bind_of_ok {α β : Type} {p : PlaneR α} {d : β} {k : State → α → PlaneR β} (h : p.st = .ok) : p.bind d k = k p.s p.val := if_pos h

/-- A drain of a set in the shape of 64 rows that meets no error. -/
theorem exec_drainDone {a : PlaneR Unit} (htake : takeOp .drain [] (s.tile n).ops = some (o, rest)) (hrun : (s.tile n).run = some r) (hwide : o.wide = false)
    (hstore : (s.setTile n { (s.tile n).setAcc o.set { (s.tile n).accSet o.set with cells := [] } with ops := rest }).storeView n r.task.ctx o.dc o.satDef o.ftzDef
      ((List.range (vDim1 o.dc)).map fun i => (List.range (vDim0 o.dc)).map fun j =>
        cellNum o.fmt (((s.tile n).accSet o.set).cell (64 * (i / 8) + 8 * (i % 8) + j))) = a) (hok : a.st = .ok) :
    exec (.drainDone n) s = .next a.s := by
  subst hstore
  change execDrainDone n s = _
  simp only [execDrainDone, htake, hwide, Bool.false_eq_true, if_false]
  split
  · next r' hr' =>
    obtain rfl : r' = r := Option.some.inj (hr'.symm.trans hrun)
    rw [if_pos hok]
  · next hnone => simp [hrun] at hnone

/-- A conversion whose rows are read and stored without error. -/
theorem exec_qcvtDone {a : PlaneR (List (List Num))} {b : PlaneR Unit} (htake : takeOp .qcvt [] (s.tile n).ops = some (o, rest)) (hrun : (s.tile n).run = some r)
    (hread : State.rowsRead (vDim1 o.da) (s.setTile n { s.tile n with ops := rest }) n r.task.ctx o.da 0 = a) (haok : a.st = .ok)
    (hstore : a.s.storeView n r.task.ctx o.dc o.satDef o.ftzDef a.val = b) (hbok : b.st = .ok) :
    exec (.qcvtDone n) s = .next b.s := by
  subst hread hstore
  change execQcvtDone n s = _
  simp only [execQcvtDone, htake]
  split
  · next r' hr' =>
    obtain rfl : r' = r := Option.some.inj (hr'.symm.trans hrun)
    rw [PlaneR.bind_of_ok haok, if_pos hbok]
  · next hnone => simp [hrun] at hnone

/-- The end of a shadow check, by whether the sample shows drift. -/
theorem exec_shadowCheckDone {fault : Int} {j : ShadowJob} {l : List ShadowJob} (hqueue : (s.tile n).shadow = j :: l) :
    exec (.shadowCheckDone n fault) s = .next (if drifts j fault
      then ((((s.setTile n { s.tile n with shadow := l }).bump Obj.shadowSamples).bump Obj.shadowDrift).bumpSat (Obj.tileDrift n) 32).event 0x1001 0x01 n j.ctx j.kblock 0 0
      else (s.setTile n { s.tile n with shadow := l }).bump Obj.shadowSamples) := by
  change execShadowCheckDone n fault s = _
  simp only [execShadowCheckDone, hqueue]

end Ends

/-- Settles O15: an instruction passes its field rules, the checks of its views and the queue in turn, and the ends follow the equations above. -/
theorem arrayOperations : Obligations.ArrayOperations := by
  unfold Obligations.ArrayOperations
  refine ⟨?mma, ?drain, ?qcvt, ?drainDone, ?qcvtDone, ?noDrift, ?drift, ?rollover⟩
  case mma =>
    rintro s n ⟨da, db, dc, cfg, acc, skip, rsv⟩ r s' hf rfl hcfg rfl rfl h hmalA hmalB hshape hlocA hlocB hwinA hwinB hroom
    refine congrArg Host.Outcome.next ((h.instrT (by decide) hf).trans ?_)
    refine (if_neg (by simpa using hcfg)).trans ?_
    refine (State.viewsCheck_passes (by simpa using hshape) (by simp [hmalA, hmalB]) (by simp [hlocA, hlocB]) (by simp [hwinA, hwinB]) (by simp)).trans ?_
    exact State.issue_of_room hroom
  case drain =>
    rintro s n ⟨da, db, dc, cfg, acc, skip, rsv⟩ r s' hf rfl rfl rfl rfl rfl rfl h hcols hrows hplain hwide hmal hloc hwin hroom
    refine congrArg Host.Outcome.next ((h.instrT (by decide) hf).trans ?_)
    refine (if_neg (by simp)).trans ?_
    refine (State.viewsCheck_passes (by simp [hrows, hcols, hplain, hwide]) (by simp [hmal]) (by simp [hloc]) (by simp) (by simp [hwin])).trans ?_
    refine (State.issue_of_room hroom).trans ?_
    simp only [hcols]
    rfl
  case qcvt =>
    rintro s n ⟨da, db, dc, cfg, acc, skip, rsv⟩ r s' hf rfl rfl rfl rfl rfl h hcols hrows hplain hmalA hmalC hlocA hlocC hwinA hwinC hroom
    refine congrArg Host.Outcome.next ((h.instrT (by decide) hf).trans ?_)
    refine (if_neg (by simp)).trans ?_
    refine (State.viewsCheck_passes (by simp [hrows, hcols, hplain]) (by simp [hmalA, hmalC]) (by simp [hlocA, hlocC]) (by simp [hwinA]) (by simp [hwinC])).trans ?_
    exact State.issue_of_room hroom
  case drainDone => exact fun s n o rest r a htake hrun hwide hstore hok => exec_drainDone htake hrun hwide hstore hok
  case qcvtDone => exact fun s n o rest r a b htake hrun hread haok hstore hbok => exec_qcvtDone htake hrun hread haok hstore hbok
  case noDrift => exact fun s n fault j l hqueue hno => (exec_shadowCheckDone hqueue).trans (by simp [hno])
  case drift => exact fun s n fault j l hqueue hyes => (exec_shadowCheckDone hqueue).trans (by simp [hyes])
  case rollover => exact fun s n => rfl

end Sys2Proof.Machine
end

section
/-! The end of a matrix product (R40 to R44, R72, R73, R132, R133). -/

namespace Sys2Proof.Machine

open Sys2Proof

/-! ## Cells and accumulator sets -/

/-- A read of listed cells from which zeros are left out. -/
theorem mgetD_filter_cons (b n : Nat) (c : BitVec 32) (m : NMap (BitVec 32)) :
    mgetD (((b, c) :: m).filter fun p => p.2 != 0) n 0 = if c ≠ 0 ∧ b = n then c else mgetD (m.filter fun p => p.2 != 0) n 0 := by
  by_cases hc : c = 0
  · rw [List.filter_cons_of_neg (by simp [hc]), if_neg (fun h => h.1 hc)]
  · rw [List.filter_cons_of_pos (by simpa using hc), mgetD, mget_cons]
    by_cases hn : b = n
    · rw [if_pos hn, if_pos ⟨hc, hn⟩, Option.getD_some]
    · rw [if_neg hn, if_neg (fun h => hn h.2), mgetD]

/-- Listed from key `b` on, with zeros left out, the cells of a list read as the list. -/
theorem mgetD_mapIdx_filter (l : List (BitVec 32)) (b n : Nat) :
    mgetD ((l.mapIdx fun i c => (i + b, c)).filter fun p => p.2 != 0) n 0 = if n < b then 0 else l.getD (n - b) 0 := by
  induction l generalizing b with
  | nil => simp [mgetD]
  | cons c l ih =>
    have hshift : (l.mapIdx fun i c => (i + 1 + b, c)) = l.mapIdx fun i c => (i + (b + 1), c) := by simp only [Nat.add_assoc, Nat.add_comm 1]
    rw [List.mapIdx_cons, Nat.zero_add, hshift, mgetD_filter_cons, ih]
    rcases Nat.lt_trichotomy n b with hlt | rfl | hgt
    · simp [hlt, hlt.ne', Nat.lt_succ_of_lt hlt]
    · rw [if_pos (Nat.lt_succ_self n), if_neg (Nat.lt_irrefl n), Nat.sub_self, List.getD_cons_zero]
      by_cases hc : c = 0
      · rw [if_neg (fun h => h.1 hc), hc]
      · rw [if_pos ⟨hc, rfl⟩]
    · obtain ⟨d, rfl⟩ : ∃ d, n = b + 1 + d := ⟨n - (b + 1), by omega⟩
      rw [if_neg (by omega), if_neg (by omega), if_neg (by omega), show b + 1 + d - b = d + 1 by omega, Nat.add_sub_cancel_left, List.getD_cons_succ]

theorem mgetD_cellsOf (l : List (BitVec 32)) (k : Nat) : mgetD (cellsOf l) k 0 = l.getD k 0 :=
  mgetD_mapIdx_filter l 0 k

@[simp] theorem State.tile_bumpBy (s : State) (c : Obj) (k n : Nat) : (s.bumpBy c k).tile n = s.tile n := rfl

@[simp] theorem Tile.accSet_setAcc (t : Tile) (k : Nat) (v : AccSet) : (t.setAcc k v).accSet k = v := by
  unfold Tile.setAcc Tile.accSet
  split <;> rfl

theorem Tile.accSet_setAcc_other (t : Tile) {k : Nat} (v : AccSet) (hk : k < 2) : (t.setAcc k v).accSet (1 - k) = t.accSet (1 - k) := by
  obtain rfl | rfl : k = 0 ∨ k = 1 := by omega
  · rfl
  · rfl

@[simp] theorem Tile.setAcc_x (t : Tile) (k : Nat) (v : AccSet) : (t.setAcc k v).x = t.x := by
  unfold Tile.setAcc
  split <;> rfl

section Product

/-- The cells that an operation which loads none starts from (R132): those of its set under KEEP, else zero. -/
def TileOp.startCells (o : TileOp) (set : AccSet) : List (BitVec 32) := if o.acc = 1 then (List.range 512).map set.cell else List.replicate 512 0

/-- The segments that each of the eight arrays skips, from the rows of the first view (R73). -/
def TileOp.skipMasks (o : TileOp) (a : List (List Num)) : List (List Bool) :=
  (List.range 8).map fun k => if o.skip then skipMask ((List.range 8).map fun i => a.getD (cellRow o.cfg k i) []) (vDim0 o.da) else []

/-- The cells of an operation's set after it, each with its overflows, from the rows of its views; free values begin at `fr` (R40 to R44, R132). -/
def TileOp.cellsAfter (o : TileOp) (fr : Nat) (set : AccSet) (a b : List (List Num)) : List (BitVec 32 × Nat) :=
  (o.startCells set).mapIdx fun k acc =>
    mmaCell (pairFmt (vFormat o.da) (vFormat o.db)) (pairGroup (vFormat o.da) (vFormat o.db)) (Config.freeValue (fr + k)) acc
      (a.getD (cellRow o.cfg (k / 64) (k / 8 % 8)) []) (b.getD (cellCol o.cfg (k / 64) (k % 8)) []) ((o.skipMasks a).getD (k / 64) [])

/-- A state in which a tile's operation has given its set new cells and skipped `k` segments, its overflows and segments counted. -/
def State.putCells (s : State) (n : Nat) (o : TileOp) (cells : List (BitVec 32 × Nat)) (k : Nat) : State :=
  ((s.setTile n { (s.tile n).setAcc o.set { (s.tile n).accSet o.set with cells := cellsOf (cells.map (·.1)) } with skips := (s.tile n).skips + k }).bumpBy
    Obj.accOverflowCount (cells.foldl (fun n c => n + c.2) 0)).bumpBy Obj.zeroSkipSegments k

section Laws

variable {o : TileOp} {set : AccSet} {k : Nat}

theorem TileOp.length_startCells : (o.startCells set).length = 512 := by
  unfold TileOp.startCells
  split
  · rw [List.length_map, List.length_range]
  · rw [List.length_replicate]

theorem TileOp.getElem_startCells (h : k < (o.startCells set).length) : (o.startCells set)[k] = if o.acc = 1 then set.cell k else 0 := by
  have hget : (o.startCells set)[k]? = some (if o.acc = 1 then set.cell k else 0) := by
    rw [TileOp.length_startCells] at h
    unfold TileOp.startCells
    split
    · rw [List.getElem?_map, List.getElem?_range h, Option.map_some]
    · rw [List.getElem?_replicate, if_pos h]
  exact (List.getElem?_eq_some_iff.mp hget).2

theorem TileOp.getD_skipMasks {a : List (List Num)} (hk : k < 8) :
    (o.skipMasks a).getD k [] = if o.skip then skipMask ((List.range 8).map fun i => a.getD (cellRow o.cfg k i) []) (vDim0 o.da) else [] := by
  simp [TileOp.skipMasks, List.getD_eq_getElem?_getD, hk]

/-- A cell after an operation is its row by its column, added to what the operation starts from (R40, R132). -/
theorem TileOp.getD_cellsAfter {a b : List (List Num)} (fr : Nat) (hk : k < 512) :
    ((o.cellsAfter fr set a b).map (·.1)).getD k 0 =
      (mmaCell (pairFmt (vFormat o.da) (vFormat o.db)) (pairGroup (vFormat o.da) (vFormat o.db)) (Config.freeValue (fr + k)) (if o.acc = 1 then set.cell k else 0)
        (a.getD (cellRow o.cfg (k / 64) (k / 8 % 8)) []) (b.getD (cellCol o.cfg (k / 64) (k % 8)) [])
        (if o.skip then skipMask ((List.range 8).map fun i => a.getD (cellRow o.cfg (k / 64) i) []) (vDim0 o.da) else [])).1 := by
  have hlen : k < ((o.cellsAfter fr set a b).map (·.1)).length := by simpa [TileOp.cellsAfter, TileOp.length_startCells] using hk
  rw [List.getD_eq_getElem _ _ hlen, List.getElem_map]
  simp only [TileOp.cellsAfter, List.getElem_mapIdx]
  rw [TileOp.getElem_startCells, TileOp.getD_skipMasks (by omega)]

variable {s : State} {n : Nat}

theorem State.accSet_drawShadow (jobs : List ShadowJob) : ((s.drawShadow n jobs).tile n).accSet k = (s.tile n).accSet k := by
  simp only [State.drawShadow, State.tile_bumpBy, State.tile_setTile]
  rfl

theorem State.x_drawShadow (jobs : List ShadowJob) : ((s.drawShadow n jobs).tile n).x = (s.tile n).x := by
  simp only [State.drawShadow, State.tile_bumpBy, State.tile_setTile]

theorem State.accSet_putCells (cells : List (BitVec 32 × Nat)) :
    ((s.putCells n o cells k).tile n).accSet o.set = { (s.tile n).accSet o.set with cells := cellsOf (cells.map (·.1)) } := by
  simp only [State.putCells, State.tile_bumpBy, State.tile_setTile]
  exact Tile.accSet_setAcc _ _ _

theorem State.accSet_putCells_other (cells : List (BitVec 32 × Nat)) (hset : o.set < 2) :
    ((s.putCells n o cells k).tile n).accSet (1 - o.set) = (s.tile n).accSet (1 - o.set) := by
  simp only [State.putCells, State.tile_bumpBy, State.tile_setTile]
  exact Tile.accSet_setAcc_other _ _ hset

theorem State.x_putCells (cells : List (BitVec 32 × Nat)) : ((s.putCells n o cells k).tile n).x = (s.tile n).x := by
  simp only [State.putCells, State.tile_bumpBy, State.tile_setTile, Tile.setAcc_x]

end Laws

variable {s : State} {n : Nat} {o : TileOp} {rest : List TileOp} {r : RunTask}

/-- The end of the oldest array operation, where it loads no cells and its rows are read. -/
theorem exec_mmaDone (htake : takeOp .mma [] (s.tile n).ops = some (o, rest)) (hrun : (s.tile n).run = some r) (hacc : o.acc < 2)
    (hA : (readsA s n r.task.ctx o rest).st = .ok) (hB : (readsB s n r.task.ctx o rest).st = .ok) (drawn : List Nat) :
    ∃ k jobs, exec (.mmaDone n drawn) s = .next (((readsB s n r.task.ctx o rest).s.putCells n o
      (o.cellsAfter s.fresh (((readsB s n r.task.ctx o rest).s.tile n).accSet o.set) (readsA s n r.task.ctx o rest).val (readsB s n r.task.ctx o rest).val) k).drawShadow
        n jobs) := by
  change ∃ k jobs, execMmaDone n drawn s = _
  unfold execMmaDone
  split
  next hnone => simp [htake] at hnone
  next o' rest' hsome =>
  obtain ⟨rfl, rfl⟩ : o' = o ∧ rest' = rest := by simpa [htake, eq_comm] using hsome
  extract_lets ctx _ _ pf _ fr _ got _ a b _ set start _ _ nskip
  have hctx : ctx = r.task.ctx := by
    unfold ctx
    split
    · next r' hr' => rw [Option.some.inj (hr'.symm.trans hrun)]
    · next hnone => simp [hrun] at hnone
  have hgot : got = .ok (readsB s n r.task.ctx o' rest').s ((readsA s n r.task.ctx o' rest').val, (readsB s n r.task.ctx o' rest').val, []) := by
    unfold got
    rw [hctx]
    exact (PlaneR.bind_of_ok hA).trans ((PlaneR.bind_of_ok hB).trans (if_neg (by omega)))
  have hstart : start = o'.startCells set := by
    unfold start TileOp.startCells
    rw [if_neg (by omega : o'.acc ≠ 2)]
  clear_value got start
  subst hgot hstart
  exact ⟨nskip, _, if_neg (by simp [PlaneR.ok])⟩

end Product

/-- Settles O16: the operation's end puts its cells into its set, and each cell reads as its row by its column. -/
theorem matrixProduct : Obligations.MatrixProduct := by
  unfold Obligations.MatrixProduct
  intro s n drawn o rest r k htake hrun hacc hset hk hA hB
  obtain ⟨skipped, jobs, hexec⟩ := exec_mmaDone htake hrun hacc hA hB drawn
  refine ⟨_, hexec, ?cell, ?otherSet, ?registers, ?memory⟩
  case cell =>
    rw [State.accSet_drawShadow, State.accSet_putCells]
    exact (mgetD_cellsOf _ k).trans (TileOp.getD_cellsAfter s.fresh hk)
  case otherSet => rw [State.accSet_drawShadow, State.accSet_putCells_other _ hset]
  case registers => rw [State.x_drawShadow, State.x_putCells]
  case memory => rfl

end Sys2Proof.Machine
end

section
/-! The words of the instruction formats read back (R130), and the instruction of each format whose word a running tile fetches (R126). -/

namespace Sys2Proof.Machine

open Sys2Proof

/-! ## Words and their fields -/

theorem eT_lt (op : Nat) (f : FmtT) : eT op f < 2 ^ 32 := by
  simp only [eT, fld]
  omega

theorem eV_lt (op func : Nat) (f : FmtV) : eV op func f < 2 ^ 32 := by
  simp only [eV, fld]
  omega

section Formats

variable {op : Nat} (hop : op < 64)

include hop

theorem eR_fields {f : FmtR} (hf : FmtR.wf f = true) : wOp (eR op f) = op ∧ wR (eR op f) = f ∧ eR op f < 2 ^ 32 := by
  obtain ⟨rd, ra, rb, rsv⟩ := f
  simp only [FmtR.wf, decide_eq_true_eq] at hf
  simp only [wOp, wR, eR, bits, fld, FmtR.mk.injEq]
  omega

theorem eI_fields {f : FmtI} (hf : FmtI.wf f = true) : wOp (eI op f) = op ∧ wI (eI op f) = f ∧ eI op f < 2 ^ 32 := by
  obtain ⟨rd, ra, imm⟩ := f
  simp only [FmtI.wf, decide_eq_true_eq] at hf
  simp only [wOp, wI, eI, bits, fld, FmtI.mk.injEq]
  omega

theorem eB_fields {f : FmtB} (hf : FmtB.wf f = true) : wOp (eB op f) = op ∧ wB (eB op f) = f ∧ eB op f < 2 ^ 32 := by
  obtain ⟨ra, rb, off⟩ := f
  simp only [FmtB.wf, decide_eq_true_eq] at hf
  simp only [wOp, wB, eB, bits, fld, FmtB.mk.injEq]
  omega

theorem eJ_fields {f : FmtJ} (hf : FmtJ.wf f = true) : wOp (eJ op f) = op ∧ wJ (eJ op f) = f ∧ eJ op f < 2 ^ 32 := by
  obtain ⟨rd, off⟩ := f
  simp only [FmtJ.wf, decide_eq_true_eq] at hf
  simp only [wOp, wJ, eJ, bits, fld, FmtJ.mk.injEq]
  omega

theorem eD_fields {f : FmtD} (hf : FmtD.wf f = true) : wOp (eD op f) = op ∧ wD (eD op f) = f ∧ eD op f < 2 ^ 32 := by
  obtain ⟨dn, rsv, ra, imm⟩ := f
  simp only [FmtD.wf, decide_eq_true_eq] at hf
  simp only [wOp, wD, eD, bits, fld, FmtD.mk.injEq]
  omega

theorem eX_fields {f : FmtX} (hf : FmtX.wf f = true) : wOp (eX op f) = op ∧ wX (eX op f) = f ∧ eX op f < 2 ^ 32 := by
  obtain ⟨ra, rb, rc, rsv, tally⟩ := f
  simp only [FmtX.wf, decide_eq_true_eq] at hf
  simp only [wOp, wX, eX, bits, fld, FmtX.mk.injEq]
  omega

theorem eS_fields {f : FmtS} (hf : FmtS.wf f = true) : wOp (eS op f) = op ∧ wS (eS op f) = f ∧ eS op f < 2 ^ 32 := by
  obtain ⟨r, rsv, tally, imm⟩ := f
  simp only [FmtS.wf, decide_eq_true_eq] at hf
  simp only [wOp, wS, eS, bits, fld, FmtS.mk.injEq]
  omega

end Formats

/-! ## Fetched words -/

section Fetched

variable {s s' : State} {n op : Nat} {r : RunTask} {k : State → RunTask → State}

theorem Fetches.instrR {f : FmtR} (h : Fetches s n (eR op f) r s') (hop : op < 64) (hf : FmtR.wf f = true) : s.instr n op (fun w => wR w = f) k = k s' r :=
  h.instr (eR_fields hop hf).1 (by simp [eR_fields hop hf])

theorem Fetches.instrI {f : FmtI} (h : Fetches s n (eI op f) r s') (hop : op < 64) (hf : FmtI.wf f = true) : s.instr n op (fun w => wI w = f) k = k s' r :=
  h.instr (eI_fields hop hf).1 (by simp [eI_fields hop hf])

theorem Fetches.instrB {f : FmtB} (h : Fetches s n (eB op f) r s') (hop : op < 64) (hf : FmtB.wf f = true) : s.instr n op (fun w => wB w = f) k = k s' r :=
  h.instr (eB_fields hop hf).1 (by simp [eB_fields hop hf])

theorem Fetches.instrJ {f : FmtJ} (h : Fetches s n (eJ op f) r s') (hop : op < 64) (hf : FmtJ.wf f = true) : s.instr n op (fun w => wJ w = f) k = k s' r :=
  h.instr (eJ_fields hop hf).1 (by simp [eJ_fields hop hf])

theorem Fetches.instrD {f : FmtD} (h : Fetches s n (eD op f) r s') (hop : op < 64) (hf : FmtD.wf f = true) : s.instr n op (fun w => wD w = f) k = k s' r :=
  h.instr (eD_fields hop hf).1 (by simp [eD_fields hop hf])

theorem Fetches.instrX {f : FmtX} (h : Fetches s n (eX op f) r s') (hop : op < 64) (hf : FmtX.wf f = true) : s.instr n op (fun w => wX w = f) k = k s' r :=
  h.instr (eX_fields hop hf).1 (by simp [eX_fields hop hf])

theorem Fetches.instrS {f : FmtS} (h : Fetches s n (eS op f) r s') (hop : op < 64) (hf : FmtS.wf f = true) : s.instr n op (fun w => wS w = f) k = k s' r :=
  h.instr (eS_fields hop hf).1 (by simp [eS_fields hop hf])

/-! An instruction whose reserved field must be 0 passes that check (R138). -/

theorem Fetches.ruledR {f : FmtR} (h : Fetches s n (eR op f) r s') (hop : op < 64) (hf : FmtR.wf f = true) (hrsv : f.rsv = 0) :
    s.instr n op (fun w => wR w = f) (fun s r => if f.rsv ≠ 0 then s.faultTask n r causeMalformed 0 else k s r) = k s' r :=
  (h.instrR hop hf).trans (if_neg (not_not.mpr hrsv))

theorem Fetches.ruledD {f : FmtD} (h : Fetches s n (eD op f) r s') (hop : op < 64) (hf : FmtD.wf f = true) (hrsv : f.rsv = 0) :
    s.instr n op (fun w => wD w = f) (fun s r => if f.rsv ≠ 0 then s.faultTask n r causeMalformed 0 else k s r) = k s' r :=
  (h.instrD hop hf).trans (if_neg (not_not.mpr hrsv))

theorem Fetches.ruledS {f : FmtS} (h : Fetches s n (eS op f) r s') (hop : op < 64) (hf : FmtS.wf f = true) (hrsv : f.rsv = 0) :
    s.instr n op (fun w => wS w = f) (fun s r => if f.rsv ≠ 0 then s.faultTask n r causeMalformed 0 else k s r) = k s' r :=
  (h.instrS hop hf).trans (if_neg (not_not.mpr hrsv))

end Fetched

end Sys2Proof.Machine
end

section
/-! What stands where in a string of bytes: the little-endian fields of a layout read back (R11). -/

namespace Sys2Proof.Machine

open Sys2Proof

/-- The bytes `m` stand in `b` at offset `off`. -/
def StandsAt (b : Bytes) (off : Nat) (m : Bytes) : Prop := ∃ x y, b = x ++ m ++ y ∧ x.length = off

@[simp] theorem length_leBytes (n v : Nat) : (leBytes n v).length = n := by
  induction n generalizing v with
  | zero => rfl
  | succ n ih => simp [leBytes, ih]

theorem leNat_leBytes (n v : Nat) : leNat (leBytes n v) = v % 256 ^ n := by
  induction n generalizing v with
  | zero => simp [leBytes, leNat, Nat.mod_one]
  | succ n ih => simp [leBytes, leNat, ih, Nat.pow_succ', Nat.mod_mul]

theorem fit_of_length {n : Nat} {b : Bytes} (h : b.length = n) : fit n b = b := by
  subst h
  simp [fit]

theorem fit_of_le {n : Nat} {b : Bytes} (h : n ≤ b.length) : fit n b = b.take n := by
  rw [fit, List.take_append_of_le_length h]

theorem fit_append_zeros {n : Nat} {b : Bytes} (h : b.length ≤ n) : fit n b = b ++ zeros (n - b.length) := by
  rw [fit, List.take_append, List.take_of_length_le h]
  simp [zeros]

section Reads

variable {b m : Bytes} {off : Nat}

/-- Each part of a layout stands where the parts before it end. -/
theorem standsAt_part {l : List Bytes} (i : Nat) (hi : l[i]? = some m) (hoff : ((l.take i).map List.length).sum = off) : StandsAt l.flatten off m := by
  obtain ⟨hlt, rfl⟩ := List.getElem?_eq_some_iff.mp hi
  refine ⟨(l.take i).flatten, (l.drop (i + 1)).flatten, ?_, by rw [List.length_flatten, hoff]⟩
  calc l.flatten = (l.take i ++ l[i] :: l.drop (i + 1)).flatten := by rw [List.getElem_cons_drop, List.take_append_drop]
    _ = _ := by rw [List.flatten_append, List.flatten_cons, List.append_assoc]

theorem StandsAt.read (h : StandsAt b off m) : (b.drop off).take m.length = m := by
  obtain ⟨x, y, rfl, rfl⟩ := h
  simp

theorem StandsAt.leAt {n v : Nat} (h : StandsAt b off (leBytes n v)) : leAt b off n = v % 256 ^ n := by
  have hread := h.read
  rw [length_leBytes] at hread
  rw [Machine.leAt, hread, leNat_leBytes]

theorem byteAt_eq_leAt (b : Bytes) (off : Nat) : byteAt b off = leAt b off 1 := by
  unfold byteAt leAt
  rcases Nat.lt_or_ge off b.length with h | h
  · rw [List.drop_eq_getElem_cons h, List.take_succ_cons]
    simp [leNat, h]
  · simp [h, leNat, List.drop_of_length_le h]

theorem StandsAt.byteAt {v : Nat} (h : StandsAt b off (leBytes 1 v)) : byteAt b off = v % 256 := by
  rw [byteAt_eq_leAt, h.leAt, Nat.pow_one]

theorem StandsAt.slice {n : Nat} (h : StandsAt b off m) (hn : m.length = n) : slice b off n = m := by
  subst hn
  rw [Machine.slice, h.read]
  simp

end Reads

/-! ## The check sum -/

theorem crcByteStep_lt {k c : Nat} (hc : c < 2 ^ 32) : crcByteStep k c < 2 ^ 32 := by
  induction k generalizing c with
  | zero => exact hc
  | succ k ih =>
    have hhalf : c / 2 < 2 ^ 32 := by omega
    refine ih ?_
    split
    · exact Nat.xor_lt_two_pow hhalf (by decide)
    · exact hhalf

theorem crc32c_lt (b : Bytes) : crc32c b < 2 ^ 32 := by
  have hfold : b.foldl (fun c x => crcByteStep 8 (c ^^^ x.toNat)) 0xFFFFFFFF < 2 ^ 32 :=
    foldl_keeps (P := (· < 2 ^ 32)) (fun c x hc => crcByteStep_lt (Nat.xor_lt_two_pow hc (x.isLt.trans (by decide)))) b _ (by decide)
  exact Nat.xor_lt_two_pow hfold (by decide)

end Sys2Proof.Machine
end

section
/-! Frames on a link read back: a receiver takes from the flits of a packet and its trailer, and from a control flit, what they were made of (R222, R249). -/

namespace Sys2Proof.Machine

open Sys2Proof

/-! ## Packets -/

/-- The fields of a packet lie within their widths, and its payload has the length that its units say and room in its flits (R249). -/
structure Packet.Fits (p : Packet) : Prop where
  flits_pos : 1 ≤ p.flits
  flits_le : p.flits ≤ 5
  cls : p.cls < 8
  level : p.level < 8
  parity : p.parity < 2
  dst : p.dst < 2 ^ 24
  src : p.src < 2 ^ 24
  flags : p.flags < 256
  units : p.units < 256
  aux0 : p.aux0 < 256
  aux1 : p.aux1 < 256
  ni : p.ni.length = 20
  payload : p.payload.length = 16 * p.units
  room : 16 * p.units + 64 ≤ 64 * p.flits
  tag : p.tag.length = 16

/-- The fields of a trailer lie within their widths, and its reserved bits are 0 (R222). -/
structure Trailer.Fits (t : Trailer) : Prop where
  seq : t.seq < 2 ^ 24
  ack : t.ack < 2 ^ 24
  creditVc : t.creditVc < 256
  creditFlits : t.creditFlits < 256
  poolCredit : t.poolCredit < 2 ^ 16
  rsvZero : t.rsvZero = true

/-- The parts of a packet on the line, in order. -/
def Packet.parts (p : Packet) (t : Trailer) : List Bytes :=
  [leBytes 1 (16 * kindPacket + p.flits), leBytes 1 p.routeByte, leBytes 3 p.dst, leBytes 3 p.src, leBytes 1 p.flags, leBytes 1 p.units, leBytes 1 p.aux0,
    leBytes 1 p.aux1, p.ni, p.payload, zeros (64 * p.flits - 64 - 16 * p.units), p.tag, t.bytes, leBytes 4 (crc32c (p.body ++ t.bytes))]

section Packets

variable {p : Packet} (hp : p.Fits) (t : Trailer)

theorem Trailer.length_bytes : t.bytes.length = 12 := length_leBytes 12 _

include hp

theorem Packet.length_header : p.header.length = 32 := by
  simp [Packet.header, fit_of_length hp.ni, hp.ni]

theorem Packet.body_eq : p.body = p.header ++ p.payload ++ zeros (64 * p.flits - 64 - 16 * p.units) ++ p.tag := by
  have hlen : (p.header ++ p.payload).length = 32 + 16 * p.units := by rw [List.length_append, Packet.length_header hp, hp.payload]
  have hroom := hp.room
  have hpad : 64 * p.flits - 32 - (32 + 16 * p.units) = 64 * p.flits - 64 - 16 * p.units := by omega
  rw [Packet.body, fit_of_length hp.tag, fit_append_zeros (by omega), hlen, hpad]

theorem Packet.length_body : p.body.length = 64 * p.flits - 16 := by
  have hroom := hp.room
  simp only [Packet.body_eq hp, List.length_append, Packet.length_header hp, hp.payload, hp.tag, zeros, List.length_replicate]
  omega

theorem Packet.length_bytes : (p.bytes t).length = 64 * p.flits := by
  have hroom := hp.room
  simp only [Packet.bytes, List.length_append, Packet.length_body hp, Trailer.length_bytes, length_leBytes]
  omega

theorem Packet.bytes_eq_flatten : p.bytes t = (p.parts t).flatten := by
  simp [Packet.bytes, Packet.parts, Packet.body_eq hp, Packet.header, fit_of_length hp.ni]

/-- The route byte holds its four fields (R249). -/
theorem Packet.routeByte_fields : bits (p.routeByte % 256) 5 3 = p.cls ∧ bits (p.routeByte % 256) 2 3 = p.level ∧ bits (p.routeByte % 256) 1 1 = p.parity ∧
    bit (p.routeByte % 256) 0 = p.pool := by
  have hcls := hp.cls
  have hlevel := hp.level
  have hparity := hp.parity
  simp only [Packet.routeByte, bits, bit, fld, Nat.testBit_zero]
  cases p.pool <;> simp only [ofBool, decide_eq_true_eq, decide_eq_false_iff_not, if_true, Bool.false_eq_true, if_false] <;> omega

theorem Packet.byteAt_kind : byteAt (p.bytes t) 0 = 16 * kindPacket + p.flits := by
  have hle := hp.flits_le
  rw [Packet.bytes_eq_flatten hp]
  exact (standsAt_part 0 rfl rfl).byteAt.trans (Nat.mod_eq_of_lt (by rw [kindPacket]; omega))

/-- A receiver reads the fields of the packet that was sent. -/
theorem Packet.ofBytes_bytes : Packet.ofBytes (p.bytes t) = p := by
  have hroom := hp.room
  have hfive := hp.flits_le
  obtain ⟨hcls, hlevel, hparity, hpool⟩ := Packet.routeByte_fields hp
  have hlen := Packet.length_bytes hp t
  have hkind : byteAt (p.bytes t) 0 % 16 = p.flits := by rw [Packet.byteAt_kind hp, kindPacket]; omega
  rw [Packet.bytes_eq_flatten hp] at hlen hkind ⊢
  have hroute : byteAt (p.parts t).flatten 1 = p.routeByte % 256 := (standsAt_part 1 rfl rfl).byteAt
  have hdst : leAt (p.parts t).flatten 2 3 = p.dst := (standsAt_part 2 rfl rfl).leAt.trans (Nat.mod_eq_of_lt hp.dst)
  have hsrc : leAt (p.parts t).flatten 5 3 = p.src := (standsAt_part 3 rfl rfl).leAt.trans (Nat.mod_eq_of_lt hp.src)
  have hflags : byteAt (p.parts t).flatten 8 = p.flags := (standsAt_part 4 rfl rfl).byteAt.trans (Nat.mod_eq_of_lt hp.flags)
  have hunits : byteAt (p.parts t).flatten 9 = p.units := (standsAt_part 5 rfl rfl).byteAt.trans (Nat.mod_eq_of_lt hp.units)
  have haux0 : byteAt (p.parts t).flatten 10 = p.aux0 := (standsAt_part 6 rfl rfl).byteAt.trans (Nat.mod_eq_of_lt hp.aux0)
  have haux1 : byteAt (p.parts t).flatten 11 = p.aux1 := (standsAt_part 7 rfl rfl).byteAt.trans (Nat.mod_eq_of_lt hp.aux1)
  have hni : slice (p.parts t).flatten 12 20 = p.ni := (standsAt_part 8 rfl rfl).slice hp.ni
  have hpayload : slice (p.parts t).flatten 32 (16 * p.units) = p.payload :=
    (standsAt_part 9 rfl (by simp [Packet.parts, hp.ni])).slice hp.payload
  have htag : slice (p.parts t).flatten (64 * p.flits - 32) 16 = p.tag :=
    (standsAt_part 11 rfl (by simp [Packet.parts, hp.ni, hp.payload, zeros]; omega)).slice hp.tag
  have hmin : min (16 * p.units) (64 * p.flits - 64) = 16 * p.units := by omega
  simp only [Packet.ofBytes, hlen, hkind, hroute, hcls, hlevel, hparity, hpool, hdst, hsrc, hflags, hunits, haux0, haux1, hni, hmin, hpayload, htag]

end Packets

/-- A receiver reads the fields of the trailer that was sent. -/
theorem Trailer.ofBytes_bytes {t : Trailer} (ht : t.Fits) (b : Bytes) : Trailer.ofBytes (t.bytes ++ b) = t := by
  obtain ⟨seq, ack, ackValid, creditVc, creditFlits, poolCredit, rsvZero⟩ := t
  obtain ⟨hseq, hack, hvc, hflits, hpool, rfl⟩ := ht
  simp only at hseq hack hvc hflits hpool
  have hread : leAt (Trailer.bytes ⟨seq, ack, ackValid, creditVc, creditFlits, poolCredit, true⟩ ++ b) 0 12 =
      (256 * ofBool ackValid + fld poolCredit 16 16 + fld creditFlits 32 8 + fld creditVc 40 8 + fld ack 48 24 + fld seq 72 24) % 256 ^ 12 :=
    StandsAt.leAt ⟨[], b, rfl, rfl⟩
  simp only [Trailer.ofBytes, hread, bits, bit, fld, Trailer.mk.injEq, Nat.testBit_eq_decide_div_mod_eq, Bool.and_eq_true, beq_iff_eq]
  cases ackValid <;> simp only [ofBool, decide_eq_true_eq, decide_eq_false_iff_not, if_true, Bool.false_eq_true, if_false] <;> omega

/-! ## Flits -/

theorem length_flitsOf (n : Nat) (b : Bytes) : (flitsOf n b).length = n := by
  induction n generalizing b with
  | zero => rfl
  | succ n ih => simp [flitsOf, ih]

/-- Whole flits hold the bytes that were cut into them. -/
theorem bytesOfFlits_flitsOf {n : Nat} {b : Bytes} (h : b.length = 64 * n) : frameOf.bytesOfFlits ((flitsOf n b).map some) = b := by
  induction n generalizing b with
  | zero => exact (List.eq_nil_of_length_eq_zero h).symm
  | succ n ih =>
    have hrest : (b.drop 64).length = 64 * n := by simp [h]; omega
    rw [flitsOf, List.map_cons, frameOf.bytesOfFlits, Option.getD_some, ih hrest, fit_of_le (by omega), List.take_append_drop]

theorem byteAt_fit {n off : Nat} {b : Bytes} (hlen : n ≤ b.length) (hoff : off < n) : byteAt (fit n b) off = byteAt b off := by
  rw [fit_of_le hlen, byteAt, byteAt, List.getD_eq_getElem?_getD, List.getD_eq_getElem?_getD, List.getElem?_take_of_lt hoff]

/-- A frame that begins with a flit of a kind other than idle is read from that flit on. -/
theorem dropIdle_of_kind {f : Bytes} (l : List (Option Bytes)) (h : byteAt f 0 ≠ 16 * kindIdle) : dropIdle (some f :: l) = some f :: l := if_neg h

/-- The flits of a packet whose check sum and reserved bits are right. -/
theorem frameOf_flitsOf {n : Nat} {b : Bytes} {t : Trailer} (l : List (Option Bytes)) (hpos : 1 ≤ n) (hfive : n ≤ 5) (hlen : b.length = 64 * n)
    (hkind : byteAt b 0 = 16 * kindPacket + n) (hcrc : leAt b (b.length - 4) 4 = crc32c (b.take (b.length - 4)))
    (htrailer : Trailer.ofBytes (b.drop (b.length - 16)) = t) (hrsv : t.rsvZero = true) :
    frameOf ((flitsOf n b).map some ++ l) = (.pkt (Packet.ofBytes b) t, l) := by
  obtain ⟨m, rfl⟩ : ∃ m, n = m + 1 := ⟨n - 1, by omega⟩
  have hfirst : byteAt (fit 64 b) 0 = 16 * kindPacket + (m + 1) := (byteAt_fit (by omega) (by decide)).trans hkind
  have hnum : byteAt (fit 64 b) 0 % 16 = m + 1 := by rw [hfirst, kindPacket]; omega
  have hnotctl : byteAt (fit 64 b) 0 ≠ 16 * kindControl := by rw [hfirst, kindPacket, kindControl]; omega
  have hpacket : ¬ (byteAt (fit 64 b) 0 / 16 ≠ kindPacket ∨ m + 1 < 1 ∨ m + 1 > 5) := by rw [hfirst, kindPacket]; omega
  have hlong : ¬ ((flitsOf m (b.drop 64)).map some ++ l).length + 1 < m + 1 := by simp [length_flitsOf]
  have htake : (some (fit 64 b) :: ((flitsOf m (b.drop 64)).map some ++ l)).take (m + 1) = (flitsOf (m + 1) b).map some := by
    simp [flitsOf, length_flitsOf]
  have hdrop : ((flitsOf m (b.drop 64)).map some ++ l).drop (m + 1 - 1) = l := by simp [length_flitsOf]
  have hgot : ((flitsOf (m + 1) b).map some).any (·.isNone) = false := by simp
  change frameOf (some (fit 64 b) :: ((flitsOf m (b.drop 64)).map some ++ l)) = _
  rw [frameOf, dropIdle_of_kind _ (by rw [hfirst, kindPacket, kindIdle]; omega)]
  simp only [hnum, hnotctl, hpacket, hlong, htake, hdrop, hgot, bytesOfFlits_flitsOf hlen, htrailer, hcrc, hrsv, and_self, if_true, if_false, Bool.false_eq_true]

/-- A receiver takes from a packet's flits the packet and its trailer, and leaves the flits after them. -/
theorem frameOf_packet {p : Packet} {t : Trailer} (hp : p.Fits) (ht : t.Fits) (l : List (Option Bytes)) :
    frameOf ((flitsOf p.flits (p.bytes t)).map some ++ l) = (.pkt p t, l) := by
  have hroom := hp.room
  have hlen := Packet.length_bytes hp t
  have hbody := Packet.length_body hp
  have hbefore : (p.body ++ t.bytes).length = 64 * p.flits - 4 := by rw [List.length_append, hbody, Trailer.length_bytes]; omega
  have hcrc : leAt (p.bytes t) (64 * p.flits - 4) 4 = crc32c (p.body ++ t.bytes) :=
    (StandsAt.leAt ⟨p.body ++ t.bytes, [], (List.append_nil _).symm, hbefore⟩).trans (Nat.mod_eq_of_lt (crc32c_lt _))
  have htake : (p.bytes t).take (64 * p.flits - 4) = p.body ++ t.bytes := by rw [← hbefore]; exact List.take_left
  have hdrop : (p.bytes t).drop (64 * p.flits - 16) = t.bytes ++ leBytes 4 (crc32c (p.body ++ t.bytes)) := by
    rw [← hbody, Packet.bytes, List.append_assoc]
    exact List.drop_left
  have hframe := frameOf_flitsOf (t := t) l hp.flits_pos hp.flits_le hlen (Packet.byteAt_kind hp t) (by rw [hlen, hcrc, htake])
    (by rw [hlen, hdrop, Trailer.ofBytes_bytes ht]) ht.rsvZero
  rw [hframe, Packet.ofBytes_bytes hp]

/-! ## Control flits -/

/-- The fields of a control flit lie within their widths, and its op is one of the four (R222). -/
structure CtlFlit.Fits (f : CtlFlit) : Prop where
  op_pos : 1 ≤ f.op
  op_le : f.op ≤ 4
  ack : f.ack < 2 ^ 24
  replayFrom : f.replayFrom < 2 ^ 24
  mapLogical : f.mapLogical < 256
  mapPosition : f.mapPosition < 256
  mapAfter : f.mapAfter < 2 ^ 16
  credits_length : f.credits.length = 40
  credits : ∀ x ∈ f.credits, x < 256
  poolCredit : f.poolCredit < 2 ^ 32

/-- The parts of a control flit before its check sum, in order; the two numbers of 24 bits are followed by a zero byte. -/
def CtlFlit.parts (f : CtlFlit) : List Bytes :=
  [leBytes 1 (16 * kindControl), leBytes 1 f.op, leBytes 2 0, leBytes 3 f.ack, leBytes 1 0, leBytes 3 f.replayFrom, leBytes 1 0, leBytes 1 f.mapLogical,
    leBytes 1 f.mapPosition, leBytes 2 f.mapAfter, f.credits.map fun n => BitVec.ofNat 8 n, leBytes 4 f.poolCredit]

/-- A control flit on the line: its parts and their check sum. -/
def CtlFlit.line (f : CtlFlit) : List Bytes := f.parts ++ [leBytes 4 (crc32c f.parts.flatten)]

/-- A number of 24 bits in four bytes. -/
theorem leBytes_four_of_lt {v : Nat} (h : v < 2 ^ 24) : leBytes 4 v = leBytes 3 v ++ leBytes 1 0 := by
  have hlast : v / 256 / 256 / 256 = 0 := by omega
  simp [leBytes, hlast]

section Control

variable {f : CtlFlit} (hf : f.Fits)

include hf

theorem CtlFlit.length_parts : f.parts.flatten.length = 60 := by simp [CtlFlit.parts, hf.credits_length]

theorem CtlFlit.bytes_eq_flatten : f.bytes = f.line.flatten := by
  have hcredits : fit 40 (f.credits.map fun (n : Nat) => BitVec.ofNat 8 n) = f.credits.map fun n => BitVec.ofNat 8 n := fit_of_length (by simp [hf.credits_length])
  have hzeros : zeros 2 = leBytes 2 0 := rfl
  simp only [CtlFlit.bytes, CtlFlit.line, CtlFlit.parts, hcredits, hzeros, Nat.mod_eq_of_lt hf.ack, Nat.mod_eq_of_lt hf.replayFrom, leBytes_four_of_lt hf.ack,
    leBytes_four_of_lt hf.replayFrom, List.flatten_cons, List.flatten_nil, List.flatten_append, List.append_assoc, List.append_nil]

theorem CtlFlit.credits_read : (f.credits.map fun n => BitVec.ofNat 8 n).map (fun (x : Byte) => x.toNat) = f.credits := by
  rw [List.map_map]
  exact (List.map_congr_left fun x hx => Nat.mod_eq_of_lt (hf.credits x hx)).trans (List.map_id _)

/-- A receiver reads the fields of the control flit that was sent. -/
theorem CtlFlit.ofBytes_bytes : CtlFlit.ofBytes f.bytes = some f := by
  have hpos := hf.op_pos
  have hfour := hf.op_le
  rw [CtlFlit.bytes_eq_flatten hf]
  have hop : byteAt f.line.flatten 1 = f.op := (standsAt_part 1 rfl rfl).byteAt.trans (Nat.mod_eq_of_lt (by omega))
  have hrsv : leAt f.line.flatten 2 2 = 0 := (standsAt_part 2 rfl rfl).leAt.trans (Nat.zero_mod _)
  have hack : leAt f.line.flatten 4 3 = f.ack := (standsAt_part 3 rfl rfl).leAt.trans (Nat.mod_eq_of_lt hf.ack)
  have hackTop : byteAt f.line.flatten 7 = 0 := (standsAt_part 4 rfl rfl).byteAt.trans (Nat.zero_mod _)
  have hreplay : leAt f.line.flatten 8 3 = f.replayFrom := (standsAt_part 5 rfl rfl).leAt.trans (Nat.mod_eq_of_lt hf.replayFrom)
  have hreplayTop : byteAt f.line.flatten 11 = 0 := (standsAt_part 6 rfl rfl).byteAt.trans (Nat.zero_mod _)
  have hlogical : byteAt f.line.flatten 12 = f.mapLogical := (standsAt_part 7 rfl rfl).byteAt.trans (Nat.mod_eq_of_lt hf.mapLogical)
  have hposition : byteAt f.line.flatten 13 = f.mapPosition := (standsAt_part 8 rfl rfl).byteAt.trans (Nat.mod_eq_of_lt hf.mapPosition)
  have hafter : leAt f.line.flatten 14 2 = f.mapAfter := (standsAt_part 9 rfl rfl).leAt.trans (Nat.mod_eq_of_lt hf.mapAfter)
  have hcredits : slice f.line.flatten 16 40 = f.credits.map fun n => BitVec.ofNat 8 n := (standsAt_part 10 rfl rfl).slice (by simp [hf.credits_length])
  have hpool : leAt f.line.flatten 56 4 = f.poolCredit :=
    (standsAt_part 11 rfl (by simp [CtlFlit.line, CtlFlit.parts, hf.credits_length])).leAt.trans (Nat.mod_eq_of_lt hf.poolCredit)
  have hcrc : leAt f.line.flatten 60 4 = crc32c f.parts.flatten :=
    (standsAt_part 12 rfl (by simp [CtlFlit.line, CtlFlit.parts, hf.credits_length])).leAt.trans (Nat.mod_eq_of_lt (crc32c_lt _))
  have htake : f.line.flatten.take 60 = f.parts.flatten := by
    rw [CtlFlit.line, List.flatten_append, ← CtlFlit.length_parts hf]
    exact List.take_left
  have hgood : ¬ (f.op < 1 ∨ f.op > 4) := by omega
  simp only [CtlFlit.ofBytes, hop, hrsv, hack, hackTop, hreplay, hreplayTop, hlogical, hposition, hafter, hcredits, CtlFlit.credits_read hf, hpool, hcrc, htake, ne_eq,
    not_true, false_or, hgood, if_false]

theorem frameOf_control (l : List (Option Bytes)) : frameOf (some f.bytes :: l) = (.ctl f, l) := by
  have hkind : byteAt f.bytes 0 = 16 * kindControl := by
    rw [CtlFlit.bytes_eq_flatten hf]
    exact (standsAt_part 0 rfl rfl).byteAt.trans (Nat.mod_eq_of_lt (by decide))
  rw [frameOf, dropIdle_of_kind _ (by rw [hkind]; decide)]
  simp only [hkind, CtlFlit.ofBytes_bytes hf, if_true]

end Control

/-- Settles O60: the formats by their fields, the frames by the parts of their layouts. -/
theorem wordsRoundTrip : Obligations.WordsRoundTrip := by
  unfold Obligations.WordsRoundTrip
  refine ⟨?formatR, ?formatI, ?formatB, ?formatJ, ?formatD, ?formatT, ?formatV, ?formatX, ?formatS, ?packet, ?control⟩
  case formatR => exact fun op f hop hf => eR_fields hop hf
  case formatI => exact fun op f hop hf => eI_fields hop hf
  case formatB => exact fun op f hop hf => eB_fields hop hf
  case formatJ => exact fun op f hop hf => eJ_fields hop hf
  case formatD => exact fun op f hop hf => eD_fields hop hf
  case formatT => exact fun op f hop hf => ⟨wOp_eT hop hf, wT_eT hf, eT_lt op f⟩
  case formatV => exact fun op func f hop hfunc hf => ⟨wOp_eV hop hfunc hf, wFunc_eV hfunc, wV_eV hfunc hf, eV_lt op func f⟩
  case formatX => exact fun op f hop hf => eX_fields hop hf
  case formatS => exact fun op f hop hf => eS_fields hop hf
  case packet =>
    intro p t l hpos hfive hcls hlevel hparity hdst hsrc hflags hunits haux0 haux1 hni hpayload hroom htag hseq hack hvc hcredit hpool hrsv
    exact frameOf_packet ⟨hpos, hfive, hcls, hlevel, hparity, hdst, hsrc, hflags, hunits, haux0, haux1, hni, hpayload, hroom, htag⟩ ⟨hseq, hack, hvc, hcredit, hpool, hrsv⟩ l
  case control =>
    intro f l hpos hfour hack hreplay hlogical hposition hafter hlen hcredits hpool
    exact frameOf_control ⟨hpos, hfour, hack, hreplay, hlogical, hposition, hafter, hlen, hcredits, hpool⟩ l

end Sys2Proof.Machine
end

section
/-! Scalar, memory, branch and descriptor instructions of a running tile (R130, R131, R386, R388, R530). -/

namespace Sys2Proof.Machine

open Sys2Proof

variable {s s' : State} {n op : Nat} {r : RunTask}

/-! ## Scalar instructions -/

/-- A scalar instruction of format R whose word is fetched writes its destination and goes on. -/
theorem exec_of_aluR {c : Instr} {f : FmtR} {g : BitVec 64 → BitVec 64 → BitVec 64} (hc : exec c s = .next (s.aluR n op f g)) (hf : FmtR.wf f = true) (hrsv : f.rsv = 0)
    (h : Fetches s n (eR op f) r s') (hop : op < 64 := by decide) :
    exec c s = .next (s'.setTile n ((s'.tile n).setX f.rd (g ((s'.tile n).xr f.ra) ((s'.tile n).xr f.rb))).next) :=
  hc.trans (congrArg Host.Outcome.next (h.ruledR hop hf hrsv))

/-- Settles O4: format R by its rule, the immediates by their format's. -/
theorem scalarInstructions : Obligations.ScalarInstructions := by
  unfold Obligations.ScalarInstructions
  refine ⟨?add, ?sub, ?and, ?or, ?xor, ?shl, ?shr, ?mul, ?slt, ?addi, ?ori, ?lui⟩
  case add => exact fun s n f r s' hf hrsv h => exec_of_aluR rfl hf hrsv h
  case sub => exact fun s n f r s' hf hrsv h => exec_of_aluR rfl hf hrsv h
  case and => exact fun s n f r s' hf hrsv h => exec_of_aluR rfl hf hrsv h
  case or => exact fun s n f r s' hf hrsv h => exec_of_aluR rfl hf hrsv h
  case xor => exact fun s n f r s' hf hrsv h => exec_of_aluR rfl hf hrsv h
  case shl => exact fun s n f r s' hf hrsv h => exec_of_aluR (g := fun a b => a <<< (b.toNat % 64)) rfl hf hrsv h
  case shr => exact fun s n f r s' hf hrsv h => exec_of_aluR (g := fun a b => a >>> (b.toNat % 64)) rfl hf hrsv h
  case mul => exact fun s n f r s' hf hrsv h => exec_of_aluR rfl hf hrsv h
  case slt => exact fun s n f r s' hf hrsv h => (exec_of_aluR rfl hf hrsv h).trans (by simp only [BitVec.slt_iff_toInt_lt])
  case addi => exact fun s n f r s' hf h => congrArg Host.Outcome.next (h.instrI (by decide) hf)
  case ori => exact fun s n f r s' hf h => congrArg Host.Outcome.next (h.instrI (by decide) hf)
  case lui => exact fun s n f r s' hf hra h => congrArg Host.Outcome.next ((h.instrI (by decide) hf).trans (if_neg (not_not.mpr hra)))

/-- Settles O7: the field rules are kept, and the register is written. -/
theorem descriptorWrites : Obligations.DescriptorWrites := by
  unfold Obligations.DescriptorWrites
  refine ⟨?dsetw, ?dadv⟩
  case dsetw => exact fun s n f r s' hf hrsv himm h => congrArg Host.Outcome.next ((h.instrD (by decide) hf).trans (if_neg (by omega)))
  case dadv =>
    intro s n f r s' hf hrsv himm h
    refine congrArg Host.Outcome.next ((h.instrD (by decide) hf).trans ((if_neg (by omega)).trans ?_))
    by_cases h0 : f.imm = 0
    · simp [State.step1, h0, vOrigin0]
    · simp [State.step1, h0, vOrigin1]

/-! ## Own memory -/

section OwnMemory

variable {off len need : Nat} {a : AccR}

/-- A read of own SRAM at an aligned offset that no queued operation touches and a window grants goes on with the bytes read. -/
theorem State.ownRead_granted {k : State → Bytes → State} (halign : off % len = 0) (hidle : (s.tile n).busyRange opSpan off len = false)
    (hread : s.read r.task.ctx .tile need (.sram n off) len = a) (hok : a.st = .ok) : s.ownRead n r need off len k = k a.s a.data := by
  subst hread
  simp [State.ownRead, halign, hidle, hok]

/-- A write of own SRAM at such an offset is made, and the sequencer goes on. -/
theorem State.ownWrite_granted {d : Bytes} (halign : off % len = 0) (hidle : (s.tile n).busyRange opSpan off len = false)
    (hwrite : s.write r.task.ctx .tile permWrite (.sram n off) d = a) (hok : a.st = .ok) : s.ownWrite n r off len d = a.s.step1 n id := by
  subst hwrite
  simp [State.ownWrite, halign, hidle, hok]

end OwnMemory

/-- Settles O5: each access is a granted one, and a descriptor that R136 admits is loaded. -/
theorem ownMemoryAccess : Obligations.OwnMemoryAccess := by
  unfold Obligations.OwnMemoryAccess
  refine ⟨?ldx, ?vld, ?dld, ?stx, ?vst, ?dst⟩
  case ldx =>
    exact fun s n f r s' a hf h halign hidle hread hok =>
      congrArg Host.Outcome.next ((h.instrI (by decide) hf).trans (State.ownRead_granted halign hidle hread hok))
  case vld =>
    exact fun s n f r s' a hf h halign hidle hread hok =>
      congrArg Host.Outcome.next ((h.instrI (by decide) hf).trans (State.ownRead_granted halign hidle hread hok))
  case dld =>
    intro s n f r s' a hf hrsv h halign hidle hread hok hview
    refine congrArg Host.Outcome.next ((h.ruledD (by decide) hf hrsv).trans ?_)
    exact (State.ownRead_granted halign hidle hread hok).trans (if_neg (by simp [hview]))
  case stx =>
    exact fun s n f r s' a hf h halign hidle hwrite hok =>
      congrArg Host.Outcome.next ((h.instrI (by decide) hf).trans (State.ownWrite_granted halign hidle hwrite hok))
  case vst =>
    exact fun s n f r s' a hf h halign hidle hwrite hok =>
      congrArg Host.Outcome.next ((h.instrI (by decide) hf).trans (State.ownWrite_granted halign hidle hwrite hok))
  case dst =>
    exact fun s n f r s' a hf hrsv h halign hidle hwrite hok =>
      congrArg Host.Outcome.next ((h.ruledD (by decide) hf hrsv).trans (State.ownWrite_granted halign hidle hwrite hok))

/-! ## Branches -/

/-- A target that lies a number of instructions from an aligned program counter, below 2 MiB, keeps R530. -/
theorem badTarget_of_lt {pc : Nat} {k : Int} (h0 : 0 ≤ (pc : Int) + 4 * k) (hlt : (pc : Int) + 4 * k < 2097152) (hpc : pc % 4 = 0) : badTarget (pc + 4 * k) = false := by
  rw [badTarget, decide_eq_false_iff_not]
  omega

theorem State.jump_good {target : Int} {g : Tile → Tile} (h : badTarget target = false) :
    s.jump n r target g = s.setTile n { g (s.tile n) with pc := target.toNat, waiting := false } := if_neg (by simp [h])

section Branch

variable {c : Instr} {f : FmtB} {test : BitVec 64 → BitVec 64 → Bool} (hc : exec c s = .next (s.branch n op f test)) (hf : FmtB.wf f = true)
  (h : Fetches s n (eB op f) r s') (hop : op < 64)

include hc hf h hop

theorem exec_of_branch_taken (htest : test ((s'.tile n).xr f.ra) ((s'.tile n).xr f.rb) = true) (h0 : 0 ≤ ((s'.tile n).pc : Int) + 4 * sext f.off 16)
    (hlt : ((s'.tile n).pc : Int) + 4 * sext f.off 16 < 2097152) (hpc : (s'.tile n).pc % 4 = 0) :
    exec c s = .next (s'.setTile n { s'.tile n with pc := (((s'.tile n).pc : Int) + 4 * sext f.off 16).toNat, waiting := false }) :=
  hc.trans (congrArg Host.Outcome.next ((h.instrB hop hf).trans ((if_pos (.inl htest)).trans (State.jump_good (badTarget_of_lt h0 hlt hpc)))))

theorem exec_of_branch_passed (htest : test ((s'.tile n).xr f.ra) ((s'.tile n).xr f.rb) = false)
    (hgood : badTarget (((s'.tile n).pc : Int) + 4 * sext f.off 16) = false) : exec c s = .next (s'.setTile n (s'.tile n).next) :=
  hc.trans (congrArg Host.Outcome.next ((h.instrB hop hf).trans (if_neg (by simp [htest, hgood]))))

theorem exec_of_branch_misaligned (hbad : badTarget (((s'.tile n).pc : Int) + 4 * sext f.off 16) = true) :
    exec c s = .next (s'.faultTask n r causeMisaligned (ofInt 32 (((s'.tile n).pc : Int) + 4 * sext f.off 16))) :=
  hc.trans (congrArg Host.Outcome.next ((h.instrB hop hf).trans ((if_pos (.inr hbad)).trans (if_pos hbad))))

end Branch

/-- Settles O6: a branch by its test and its target, the jumps by theirs. -/
theorem branches : Obligations.Branches := by
  unfold Obligations.Branches
  refine ⟨?taken, ?passed, ?misaligned, ?bne, ?blt, ?bge, ?jal, ?jr⟩
  case taken => exact fun s n f r s' hf h heq h0 hlt hpc => exec_of_branch_taken rfl hf h (by decide) (by simpa using heq) h0 hlt hpc
  case passed => exact fun s n f r s' hf h hne hgood => exec_of_branch_passed rfl hf h (by decide) (by simpa using hne) hgood
  case misaligned => exact fun s n f r s' hf h hbad => exec_of_branch_misaligned rfl hf h (by decide) hbad
  case bne => exact fun s n f r s' hf h hne h0 hlt hpc => exec_of_branch_taken rfl hf h (by decide) (by simpa using hne) h0 hlt hpc
  case blt => exact fun s n f r s' hf h hless h0 hlt hpc => exec_of_branch_taken rfl hf h (by decide) (BitVec.slt_iff_toInt_lt.mpr hless) h0 hlt hpc
  case bge => exact fun s n f r s' hf h hle h0 hlt hpc => exec_of_branch_taken rfl hf h (by decide) (by simpa [BitVec.slt] using hle) h0 hlt hpc
  case jal => exact fun s n f r s' hf h h0 hlt hpc => congrArg Host.Outcome.next ((h.instrJ (by decide) hf).trans (State.jump_good (badTarget_of_lt h0 hlt hpc)))
  case jr =>
    intro s n f r s' hf hrsv h hlt halign
    have hgood : badTarget (((s'.tile n).xr f.ra).toNat : Int) = false := by
      rw [badTarget, decide_eq_false_iff_not]
      omega
    exact congrArg Host.Outcome.next ((h.ruledR (by decide) hf hrsv).trans (State.jump_good hgood))

end Sys2Proof.Machine
end

section
/-! Tallies, copies and the end of a task (R108 to R113, R127, R128, R131, R135, R138). -/

namespace Sys2Proof.Machine

open Sys2Proof

variable {s s' : State} {n op : Nat} {r : RunTask}

/-! ## Tallies -/

theorem tallyCause_owned {y : Tally} {ctx : Nat} (h : y.owner = some ctx) : tallyCause y ctx = causeNone := by simp [tallyCause, h]

theorem tallyCause_unowned {y : Tally} {ctx : Nat} (h : y.owner = none) : tallyCause y ctx = causeTallyUnowned := by simp [tallyCause, h]

theorem tallyCause_foreign {y : Tally} {ctx c : Nat} (h : y.owner = some c) (hne : c ≠ ctx) : tallyCause y ctx = causeTallyForeign := by simp [tallyCause, h, hne]

/-- OK is last in the order of R23. -/
theorem Status.first_ok (a : Status) : a.first .ok = a := by cases a <;> rfl

/-- A decrement with status OK changes the count alone (R111, R112). -/
theorem Tally.dec_ok (y : Tally) (k : Int) : y.dec k .ok causeNone = { y with count := sext (ofInt 32 (y.count - k)) 32 } := by
  simp [Tally.dec, Status.first_ok]

section TallyOp

variable {f : FmtS} {k : State → RunTask → Tally → State} (h : Fetches s n (eS op f) r s') (hop : op < 64) (hf : FmtS.wf f = true) (hrsv : f.rsv = 0)

include h hop hf hrsv

theorem Fetches.tallyOp_owned (howner : ((s'.tile n).tally f.tally).owner = some r.task.ctx) : s.tallyOp n op f k = k s' r ((s'.tile n).tally f.tally) :=
  (h.ruledS hop hf hrsv).trans (if_neg (not_not.mpr (tallyCause_owned howner)))

theorem Fetches.tallyOp_refused {cause : Nat} (hcause : tallyCause ((s'.tile n).tally f.tally) r.task.ctx = cause) (hne : cause ≠ causeNone) :
    s.tallyOp n op f k = s'.faultTask n r cause f.tally := by
  subst hcause
  exact (h.ruledS hop hf hrsv).trans (if_pos hne)

end TallyOp

/-- Settles O12: the owner's instructions by what they do to the tally, those of others by the cause that the check of its owner gives. -/
theorem tallies : Obligations.Tallies := by
  unfold Obligations.Tallies
  refine ⟨?tset, ?tdec, ?passes, ?waits, ?trd, ?tfree, ?tdecForeign, ?twaitUnowned, ?tsetForeign⟩
  case tset =>
    intro s n f r s' hf hrsv h howner
    have hcause : tallyCause ((s'.tile n).tally f.tally) r.task.ctx ≠ causeTallyForeign := by
      rcases howner with hnone | hmine
      · rw [tallyCause_unowned hnone]; decide
      · rw [tallyCause_owned hmine]; decide
    exact congrArg Host.Outcome.next ((h.ruledS (by decide) hf hrsv).trans (if_neg hcause))
  case tdec =>
    intro s n f r s' hf hrsv himm h howner
    refine congrArg Host.Outcome.next ((h.tallyOp_owned (by decide) hf hrsv howner).trans ((if_neg himm).trans ?_))
    rw [Tally.dec_ok]
  case passes =>
    exact fun s n f r s' hf hrsv h howner hcount =>
      congrArg Host.Outcome.next ((h.tallyOp_owned (by decide) hf hrsv howner).trans (if_pos (by simpa [Tally.fired] using hcount)))
  case waits =>
    exact fun s n f r s' hf hrsv h howner hcount =>
      congrArg Host.Outcome.next ((h.tallyOp_owned (by decide) hf hrsv howner).trans (if_neg (by simpa [Tally.fired] using hcount)))
  case trd => exact fun s n f r s' hf hrsv h howner => congrArg Host.Outcome.next (h.tallyOp_owned (by decide) hf hrsv howner)
  case tfree => exact fun s n f r s' hf hrsv h howner => congrArg Host.Outcome.next (h.tallyOp_owned (by decide) hf hrsv howner)
  case tdecForeign =>
    exact fun s n f r s' c hf hrsv h howner hne =>
      congrArg Host.Outcome.next (h.tallyOp_refused (by decide) hf hrsv (tallyCause_foreign howner hne) (by decide))
  case twaitUnowned =>
    exact fun s n f r s' hf hrsv h howner => congrArg Host.Outcome.next (h.tallyOp_refused (by decide) hf hrsv (tallyCause_unowned howner) (by decide))
  case tsetForeign =>
    exact fun s n f r s' c hf hrsv h howner hne =>
      congrArg Host.Outcome.next ((h.ruledS (by decide) hf hrsv).trans (if_pos (tallyCause_foreign howner hne)))

/-! ## Copies -/

/-- A copy whose range check does not fail leaves its task one outstanding operation fewer and sends the decrement of its tally. -/
theorem exec_xferComplete {k : Nat} {q : Xfer} {a : AccR} (hq : (s.tile n).xfers[k]? = some q)
    (hcopy : (s.setTile n { s.tile n with xfers := (s.tile n).xfers.eraseIdx k }).copy q.ctx .tile (xferLoc n q.src) (xferLoc n q.dst) q.len = a)
    (hrun : (a.s.tile n).run = some r) (hage : r.task.age = q.taskAge) (hst : a.st ≠ .violation) :
    exec (.xferComplete n k) s = .next ((a.s.setTile n { a.s.tile n with outstanding := (a.s.tile n).outstanding - 1 }).sendDec
      ⟨.tile n, n, q.tally, 1, a.st, causeNone, q.ctx⟩) := by
  subst hcopy
  change execXferComplete n k s = _
  simp only [execXferComplete, hq, hrun, hage, hst, if_true, if_false]

/-- Settles O13: an XFER passes its checks in the order of R135, a completion follows its equation, and FENCE looks at what is outstanding. -/
theorem tileTransfers : Obligations.TileTransfers := by
  unfold Obligations.TileTransfers
  refine ⟨?xfer, ?complete, ?passes, ?waits⟩
  case xfer =>
    intro s n f r s' hf hrsv h hdst hsrc hlen hmin hmax hown hdstIdle hsrcIdle hdstAlign hsrcAlign howner
    have hfields : ¬ (f.rsv ≠ 0 ∨ badAddr ((s'.tile n).xr f.ra).toNat = true ∨ badAddr ((s'.tile n).xr f.rb).toNat = true ∨ ((s'.tile n).xr f.rc).toNat % 64 ≠ 0 ∨
        ((s'.tile n).xr f.rc).toNat < 64 ∨ ((s'.tile n).xr f.rc).toNat > 2097152) := by
      simp only [hrsv, hdst, hsrc, hlen, ne_eq, not_true, Bool.false_eq_true, false_or]
      omega
    refine congrArg Host.Outcome.next ((h.instrX (by decide) hf).trans ((if_neg hfields).trans ?_))
    refine (if_neg (by rcases hown with h1 | h1 <;> simp [h1])).trans ?_
    refine (if_neg (by simp [hdstAlign, hsrcAlign])).trans ?_
    refine (if_neg (not_not.mpr (tallyCause_owned howner))).trans ?_
    exact if_neg (by simpa using ⟨hdstIdle, hsrcIdle⟩)
  case complete => exact fun s n k q a r hq hcopy hrun hage hst => exec_xferComplete hq hcopy hrun hage hst
  case passes =>
    exact fun s n f r s' hf hrsv h hnone => congrArg Host.Outcome.next ((h.ruledS (by decide) hf hrsv).trans (if_pos hnone))
  case waits =>
    exact fun s n f r s' hf hrsv h hsome => congrArg Host.Outcome.next ((h.ruledS (by decide) hf hrsv).trans (if_neg hsome))

/-! ## The end of a task -/

/-- An opcode outside the table stops the task at its instruction (R131, R138). -/
theorem exec_illegalInstruction {w : Nat} (h : Fetches s n w r s') (hop : legalOps.contains (wOp w) = false) :
    exec (.illegalInstruction n) s = .next (s'.faultTask n r causeIllegal (s.tile n).pc) := by
  obtain ⟨hrun, hbusy, hst, rfl, rfl⟩ := h
  change execIllegalInstruction n s = _
  simp only [execIllegalInstruction, hrun, hbusy, hst, hop, Bool.false_eq_true, Bool.not_false, reduceCtorEq, ne_eq, not_true, if_true, if_false]

section Completion

variable {st : Status} {cause : Nat}

/-- A task without a record completes by its counts and, where it names a done tally, that tally's decrement (R108, R111). -/
theorem State.completeTask_of_no_record {k : PoolTask} (exec clocks : Nat) (hrec : kRecord k.desc = false) :
    (s.completeTask k st cause exec false clocks).tiles = s.tiles ∧ (s.completeTask k st cause exec false clocks).mem = s.mem ∧
    (s.completeTask k st cause exec false clocks).decs =
      s.decs ++ (if kDoneValid k.desc then [⟨.tile exec, kDoneTile k.desc, kDoneTally k.desc, 1, st, cause, k.ctx⟩] else []) := by
  by_cases hst : st = .ok <;> by_cases hdone : kDoneValid k.desc = true <;> simp [State.completeTask, State.sendDec, hrec, hst, hdone]

theorem State.tile_of_tiles {t : State} (h : t.tiles = s.tiles) (k : Nat) : t.tile k = s.tile k := by rw [State.tile, h, State.tile]

/-- What the end of a task without a record leaves: the tile runs nothing and its context is charged the time; memory and the other tiles are as before (R108, R111, R392). -/
theorem State.endTask_of_no_record (hrec : kRecord r.task.desc = false) :
    ((s.endTask n r st cause).tile n).run = none ∧
    mgetD ((s.endTask n r st cause).tile n).credit r.task.ctx 0 = mgetD (s.tile n).credit r.task.ctx 0 - ((s.now - r.startNs : Nat) : Int) ∧
    (s.endTask n r st cause).decs = s.decs ++
      (if kDoneValid r.task.desc then [⟨.tile n, kDoneTile r.task.desc, kDoneTally r.task.desc, 1, st, cause, r.task.ctx⟩] else []) ∧
    (s.endTask n r st cause).mem = s.mem ∧
    (∀ k, k ≠ n → (s.endTask n r st cause).tile k = s.tile k) := by
  unfold State.endTask
  obtain ⟨htiles, hmem, hdecs⟩ := State.completeTask_of_no_record (s := _) (st := st) (cause := cause) n (s.runClocks n r) hrec
  refine ⟨?run, ?credit, hdecs, hmem, ?others⟩
  case run => rw [State.tile_of_tiles htiles, State.tile_of_tiles (State.bumpBy_tiles _ _ _), State.tile_setTile]
  case credit =>
    rw [State.tile_of_tiles htiles, State.tile_of_tiles (State.bumpBy_tiles _ _ _), State.tile_setTile]
    simp [mgetD]
  case others =>
    intro k hk
    rw [State.tile_of_tiles htiles, State.tile_of_tiles (State.bumpBy_tiles _ _ _), State.tile_setTile_ne _ _ hk.symm]

end Completion

/-- Settles O14: END passes its checks, and the end of a task follows what its completion leaves. -/
theorem taskEnd : Obligations.TaskEnd := by
  unfold Obligations.TaskEnd
  refine ⟨?ends, ?illegal, ?effect⟩
  case ends =>
    intro s n f r s' st hf hrsv h hst hnone hops
    refine congrArg Host.Outcome.next ((h.ruledS (by decide) hf hrsv).trans ?_)
    simp only [hst, hnone, hops, List.isEmpty_nil, and_self, if_true]
    rfl
  case illegal => exact fun s n w r s' h hop => exec_illegalInstruction h hop
  case effect => exact fun s n r st cause hrec => State.endTask_of_no_record hrec

end Sys2Proof.Machine
end

section
/-! POST in its forms (R113, R119, R189, R281, R451, R454). -/

namespace Sys2Proof.Machine

open Sys2Proof

variable {s s' u : State} {n : Nat} {f : FmtX} {r : RunTask} {o : Origin} {rb rc : Nat} {d : Bytes}

/-- A POST that issues begins the effect of its form. -/
theorem Posts.postInstr {form : PostForm} {k : State → RunTask → Origin → Nat → Nat → Bytes → State} (h : Posts s n f form r u o rb rc d) (hform : form ≠ .none_) :
    s.postInstr n f form k = k u r o rb rc d := by
  obtain ⟨hf, hrsv, s', a, hfetch, rfl, rfl, hpost, hbell, howner, hidle, rfl, hok, rfl, rfl, rfl⟩ := h
  refine (hfetch.instrX (by decide) hf).trans ?_
  simp [hpost, hform, hbell, hrsv, tallyCause_owned howner, hidle, hok]

/-- A POST of a bell reads no bytes. -/
theorem Fetches.postBell {k : State → RunTask → Origin → Nat → Nat → Bytes → State} (hf : FmtX.wf f = true) (hrsv : f.rsv = 0) (h : Fetches s n (eX 0x31 f) r s')
    (hpost : postForm ((s'.tile n).xr f.rb).toNat ((s'.tile n).xr f.rc).toNat = .bell) (howner : ((s'.tile n).tally f.tally).owner = some r.task.ctx) :
    s.postInstr n f .bell k = k (s'.step1 n fun t => { t with outstanding := t.outstanding + 1 }) r (.tile n f.tally r.task.ctx r.task.age r.epoch)
      ((s'.tile n).xr f.rb).toNat ((s'.tile n).xr f.rc).toNat [] := by
  refine (h.instrX (by decide) hf).trans ?_
  simp [hpost, hrsv, tallyCause_owned howner]

section Direct

variable {c i ctx : Nat} {b task : Bytes}

/-- A descriptor for an ACTIVE channel of its context with room among its posted ones enters the queue, and the POST is done (R189). -/
theorem State.teDirect_queued (hc : c < 72) (howner : s.teOwnerOf c = some ctx) (hopen : s.ctxSt ctx = ctxOpen) (hact : s.rd (Obj.teState c) = ustActive)
    (hroom : directCount (s.chan c).queue < 16) : s.teDirect c ctx o b = (s.setChan c ((s.chan c).push b true)).postDone o .ok causeNone := by
  simp [State.teDirect, Nat.not_le.mpr hc, howner, hopen, hact, hroom]

section CommandQueue

variable (hopen : s.ctxSt ctx = ctxOpen) (hact : s.niqActive i ctx = true) (hroom : niDirectCount (s.niq i ctx).queue < 16)

include hopen hact hroom

/-- A command for an ACTIVE command queue with room among its posted ones enters it, and the POST is done (R281). -/
theorem State.niDirect_queued : s.niDirect i ctx o false b task = (s.setNiq i ctx ((s.niq i ctx).push b true none task)).postDone o .ok causeNone := by
  simp [State.niDirect, hopen, hact, hroom]

/-- A POST of a task to a rank enters such a queue and ends with its command (R281). -/
theorem State.niDirect_remote : s.niDirect i ctx o true b task = s.setNiq i ctx ((s.niq i ctx).push b true (some o) task) := by
  simp [State.niDirect, hopen, hact, hroom]

end CommandQueue

end Direct

/-- Settles O17: each form begins its effect, and what it names takes what it posts. -/
theorem postInstructions : Obligations.PostInstructions := by
  unfold Obligations.PostInstructions
  refine ⟨?pool, ?te, ?ni, ?remote, ?mailbox, ?bell⟩
  case pool => exact fun s n f r u o rb rc d h => congrArg Host.Outcome.next (h.postInstr (by decide))
  case te =>
    exact fun s n f r u o rb rc d h hc howner hopen hact hroom =>
      congrArg Host.Outcome.next ((h.postInstr (by decide)).trans (State.teDirect_queued hc howner hopen hact hroom))
  case ni =>
    exact fun s n f r u o rb rc d h hopen hact hroom =>
      congrArg Host.Outcome.next ((h.postInstr (by decide)).trans (State.niDirect_queued hopen hact hroom))
  case remote =>
    exact fun s n f r u o rb rc d h hopen hact hroom =>
      congrArg Host.Outcome.next ((h.postInstr (by decide)).trans (State.niDirect_remote hopen hact hroom))
  case mailbox =>
    intro s n f r u o rb rc d h hsends hact hreceiver hroom
    refine congrArg Host.Outcome.next ((h.postInstr (by decide)).trans ((if_neg (by simp [hsends])).trans ?_))
    exact State.mbxPost_queued _ d hact hreceiver hroom
  case bell =>
    intro s n f r s' u hf hrsv h hpost howner hu hsends hrang
    subst hu
    refine congrArg Host.Outcome.next ((h.postBell hf hrsv hpost howner).trans ((if_neg (by simp [hsends])).trans ?_))
    simp only [hrang, if_true]

end Sys2Proof.Machine
end

section
/-! The load of an image (R144 to R146, R185). -/

namespace Sys2Proof.Machine

open Sys2Proof

variable {s u : State}

theorem State.jtiBegin_accepted {ctx addr : Nat} (hidle : mget s.jti ctx = none) (hopen : s.ctxSt ctx = ctxOpen) (hctx : ctx < 64) :
    s.jtiBegin ctx addr = ({ (s.jCheck ctx addr).1 with
      jti := mput (s.jCheck ctx addr).1.jti ctx ⟨(s.jCheck ctx addr).2.2, 3, (s.jCheck ctx addr).2.1, 0⟩ }.wr (Obj.jtiLoadStatus ctx) 0x0100, rOk) :=
  if_neg (by simp [hidle, hopen, Nat.not_le.mpr hctx])

theorem State.unlessHeld_of_eq {t : State} (h : t.heldHit = s.heldHit) : s.unlessHeld t = t := if_neg (by omega)

/-- The sections of an image that are placed in SRAM, each with the tiles that take it, and each tile with its index (R144). -/
def placements (b : Bytes) (set : List Nat) : List (Section × Nat × Nat) :=
  (((jSectionList b).filter Section.placed).map fun c => (if c.typ = 3 then set.take (jTiles b) else set).mapIdx fun i t => (c, i, t)).flatten

/-- The posts of an image's tasks, in record order (R144). -/
def taskPosts (ctx : Nat) (b : Bytes) (set : List Nat) : List PostMsg :=
  ((((jSectionList b).filter fun c => c.typ == 4).map (taskRecs b)).flatten).map fun r => ⟨.jti ctx, ctx, set.getD r.1 0, r.2⟩

/-- A load whose sections are all placed posts its tasks; memory is as the placement left it. -/
theorem State.jtiPlace_placed {ctx : Nat} {j : JtiLoad}
    (hplace : s.placeGo j.image (placements j.image (tilesOf (s.rdo (Obj.tileSet ctx)))) = (u, .ok)) :
    (s.jtiPlace ctx j).mem = u.mem ∧ (s.jtiPlace ctx j).heldHit = u.heldHit ∧
    (s.jtiPlace ctx j).posts = u.posts ++ taskPosts ctx j.image (tilesOf (s.rdo (Obj.tileSet ctx))) := by
  unfold placements at hplace
  simp only [State.jtiPlace, hplace, taskPosts]
  exact ⟨rfl, rfl, rfl⟩

/-- Settles O22: the write of a load as a control write, the placement by its result, the end by the condition of its row. -/
theorem imageLoad : Obligations.ImageLoad := by
  unfold Obligations.ImageLoad
  refine ⟨?load, ?placed, ?done⟩
  case load => exact fun s w ctx addr hw hidle hopen hctx => accepted_of_ctl rfl hw (State.jtiBegin_accepted hidle hopen hctx)
  case placed =>
    intro s ctx j u hj hstep hst hruns hplace hheld
    obtain ⟨hmem, hhit, hposts⟩ := State.jtiPlace_placed hplace
    refine ⟨s.jtiPlace ctx j, ?_, hmem, hposts⟩
    change execJtiPlacementDone ctx s = _
    have hgo : ¬ (j.step ≠ 3 ∨ j.status ≠ .ok ∨ (!s.placeRuns (tilesOf (s.rdo (Obj.tileSet ctx)))) = true) := by simp [hstep, hst, hruns]
    simp only [execJtiPlacementDone, hj, hgo, if_false, State.unlessHeld_of_eq (hhit.trans hheld)]
  case done =>
    intro s ctx j hj hstep hleft
    change execJtiLoadDone ctx s = _
    simp only [execJtiLoadDone, hj, hstep, hleft, ne_eq, not_true, false_and, or_self, if_false]

end Sys2Proof.Machine
end

section
/-! The bytes of memory after a store and after a fill with zeros (R79, R160, R166). -/

namespace Sys2Proof.Machine

open Sys2Proof

variable {m : Mem} {pa a : Nat} {d : Bytes}

theorem Mem.get_one : m.get a 1 = [mgetD m.bytes a 0] := by simp [Mem.get]

/-- The byte at an address after a store: the one stored there, or the former one outside the range. -/
theorem Mem.mgetD_bytes_put : mgetD (m.put pa d).bytes a 0 = if pa ≤ a ∧ a < pa + d.length then d.getD (a - pa) 0 else mgetD m.bytes a 0 := by
  induction d generalizing m pa with
  | nil => simp [Mem.put, Nat.not_lt.mpr]
  | cons b d ih =>
    rw [Mem.put, ih, mgetD_msetD, List.length_cons]
    by_cases hfirst : pa = a
    · simp [hfirst]
    · by_cases hin : pa ≤ a ∧ a < pa + (d.length + 1)
      · obtain ⟨k, rfl⟩ : ∃ k, a = pa + 1 + k := ⟨a - (pa + 1), by omega⟩
        rw [if_pos (by omega), if_pos hin, show pa + 1 + k - pa = k + 1 by omega, List.getD_cons_succ, Nat.add_sub_cancel_left]
      · rw [if_neg (by omega), if_neg hfirst, if_neg hin]

/-- A store is read back. -/
theorem Mem.get_put_same : (m.put pa d).get pa d.length = d := by
  refine List.ext_getElem (by simp [Mem.get]) fun i hi hd => ?_
  have hbyte := Mem.mgetD_bytes_put (m := m) (pa := pa) (d := d) (a := pa + i)
  rw [if_pos ⟨Nat.le_add_right pa i, Nat.add_lt_add_left hd pa⟩, Nat.add_sub_cancel_left, List.getD_eq_getElem d 0 hd] at hbyte
  simpa [Mem.get] using hbyte

/-- A store changes no byte outside its range. -/
theorem Mem.get_put_outside (h : a < pa ∨ pa + d.length ≤ a) : (m.put pa d).get a 1 = m.get a 1 := by
  rw [Mem.get_one, Mem.get_one, Mem.mgetD_bytes_put, if_neg (by omega)]

theorem Mem.get_of_bytes {m' : Mem} (n : Nat) (h : m'.bytes = m.bytes) : m'.get a n = m.get a n := by simp [Mem.get, h]

theorem Mem.get_zeroRange {base len : Nat} (hlo : base ≤ a) (hhi : a < base + len) : (m.zeroRange base len).get a 1 = [0] := by
  have hout : ¬(a < base ∨ base + len ≤ a) := by omega
  rw [Mem.get_one, Mem.zeroRange, mgetD, mget_filter_key (fun k => decide (k < base ∨ base + len ≤ k))]
  simp [hout]

@[simp] theorem Mem.put_lost : (m.put pa d).lost = m.lost := by rw [Mem.put_rest]
@[simp] theorem Mem.put_marks : (m.put pa d).marks = m.marks := by rw [Mem.put_rest]
@[simp] theorem Mem.put_flips : (m.put pa d).flips = m.flips := by rw [Mem.put_rest]
@[simp] theorem Mem.put_moves : (m.put pa d).moves = m.moves := by rw [Mem.put_rest]
@[simp] theorem Mem.put_evacs : (m.put pa d).evacs = m.evacs := by rw [Mem.put_rest]

end Sys2Proof.Machine
end

section
/-! What decides where a granule lies and what its check says (R152 to R162, R178), and what errors, evacuations and stores of the tiers leave of it. -/

namespace Sys2Proof.Machine

open Sys2Proof

variable {s t : State} {pa g st k : Nat}

section Place

variable (h : t.rd Obj.interleaveInForce = s.rd Obj.interleaveInForce)

include h

theorem State.pkgMode_of_interleave : t.pkgMode = s.pkgMode := by
  unfold State.pkgMode
  rw [h]

/-- The interleave mode is all that a granule's die and group depend on (R154, R155). -/
theorem State.place_of_interleave : t.place pa = s.place pa := by
  unfold State.place State.placeShallows State.placeDeeps
  rw [State.pkgMode_of_interleave h]

theorem State.groupOf_of_interleave : t.groupOf pa = s.groupOf pa := by
  unfold State.groupOf
  rw [State.pkgMode_of_interleave h]

theorem State.lostGranule_of_lost (hlost : t.mem.lost = s.mem.lost) : t.lostGranule g = s.lostGranule g := by
  simp only [State.lostGranule, State.place_of_interleave h, State.groupOf_of_interleave h, hlost]

theorem State.markOf_of_mem (hlost : t.mem.lost = s.mem.lost) (hmarks : t.mem.marks = s.mem.marks) (hflips : t.mem.flips = s.mem.flips) :
    t.markOf g = s.markOf g := by
  simp only [State.markOf, State.lostGranule_of_lost h hlost, hmarks, hflips]

end Place

/-! ## Evacuations and errors -/

theorem State.rd_interleave_event (code cls unit ctx a0 a1 a2 : Nat) :
    (s.event code cls unit ctx a0 a1 a2).rd Obj.interleaveInForce = s.rd Obj.interleaveInForce :=
  State.rd_event_of_area _ _ _ _ _ _ _ (by decide)

theorem State.rd_interleave_exhausted (cls unit b : Nat) (short : Bool) :
    (s.exhausted cls unit b short).rd Obj.interleaveInForce = s.rd Obj.interleaveInForce := by
  have hspare : Obj.spareExhausted.key ≠ Obj.interleaveInForce.key := by decide
  have hres : Obj.resourcesComplete.key ≠ Obj.interleaveInForce.key := by decide
  unfold State.exhausted
  cases short <;> simp [State.rd_interleave_event, State.rd_wr_ne, hspare, hres]

theorem key_evacProgress_ne_interleave : (Obj.evacProgress st k).key ≠ Obj.interleaveInForce.key := by
  simp only [Obj.evacProgress, Obj.interleaveInForce, objKey]
  omega

@[simp] theorem State.rd_with_mem (m : Mem) (o : Obj) : ({ s with mem := m } : State).rd o = s.rd o := rfl

/-- An evacuation that starts lists itself, and changes no address's place (R176, R177). -/
theorem State.rd_interleave_evacuate : (s.evacuate st k).rd Obj.interleaveInForce = s.rd Obj.interleaveInForce := by
  unfold State.evacuate
  split
  · rfl
  · split
    · exact State.rd_interleave_exhausted _ _ _ _
    · split
      · simp [State.rd_interleave_event, State.rd_wr_ne _ _ _ _ key_evacProgress_ne_interleave]
      · exact State.rd_interleave_exhausted _ _ _ _

theorem State.evacuate_mem : ∃ l, (s.evacuate st k).mem = { s.mem with evacs := l } := by
  unfold State.evacuate
  split
  · exact ⟨s.mem.evacs, rfl⟩
  · split
    · exact ⟨s.mem.evacs, State.exhausted_mem _ _ _ _ _⟩
    · split
      · exact ⟨_, by rw [State.event_mem]; rfl⟩
      · exact ⟨s.mem.evacs, State.exhausted_mem _ _ _ _ _⟩

/-- A correctable error clears the granule's differing bytes, notes its time and may list an evacuation; all else in memory stays (R159, R176). -/
theorem State.dramCe_mem : ∃ l c, (s.dramCe pa).mem = { s.mem with flips := mdel s.mem.flips (pa / 128 * 128), evacs := l, ceTimes := c } := by
  unfold State.dramCe
  simp only
  split
  · exact ⟨s.mem.evacs, s.mem.ceTimes, by simp⟩
  · split
    · obtain ⟨l, hl⟩ := State.evacuate_mem (s := State.event _ _ _ _ _ _ _ _)
      exact ⟨l, _, hl.trans (by simp; rfl)⟩
    · exact ⟨s.mem.evacs, _, by simp; rfl⟩

theorem State.rd_interleave_dramCe : (s.dramCe pa).rd Obj.interleaveInForce = s.rd Obj.interleaveInForce := by
  have hcount (u : State) : (u.bump Obj.memCeCount).rd Obj.interleaveInForce = u.rd Obj.interleaveInForce := (u.rd_bump _ _).trans (if_neg (by decide))
  unfold State.dramCe
  simp only
  split
  · exact hcount _
  · split
    · exact State.rd_interleave_evacuate.trans ((State.rd_interleave_event _ _ _ _ _ _ _).trans (hcount _))
    · exact (State.rd_interleave_event _ _ _ _ _ _ _).trans (hcount _)

/-- An uncorrectable read notes the granule and may list an evacuation; all else in memory stays (R158, R176). -/
theorem State.dramUe_mem : ∃ l u, (s.dramUe pa).mem = { s.mem with evacs := l, ueSeen := u } := by
  unfold State.dramUe
  simp only
  split
  · exact ⟨s.mem.evacs, s.mem.ueSeen, by simp⟩
  · split
    · exact ⟨s.mem.evacs, _, by simp; rfl⟩
    · split
      · obtain ⟨l, hl⟩ := State.evacuate_mem (s := { State.event _ _ _ _ _ _ _ _ with mem := _ })
        exact ⟨l, _, hl.trans (by simp; rfl)⟩
      · exact ⟨s.mem.evacs, _, by simp; rfl⟩

theorem State.rd_interleave_dramUe : (s.dramUe pa).rd Obj.interleaveInForce = s.rd Obj.interleaveInForce := by
  have hcount (u : State) : (u.bump Obj.memUeCount).rd Obj.interleaveInForce = u.rd Obj.interleaveInForce := (u.rd_bump _ _).trans (if_neg (by decide))
  unfold State.dramUe
  simp only
  split
  · exact hcount _
  · split
    · exact (State.rd_interleave_event _ _ _ _ _ _ _).trans (hcount _)
    · split
      · exact State.rd_interleave_evacuate.trans ((State.rd_interleave_event _ _ _ _ _ _ _).trans (hcount _))
      · exact (State.rd_interleave_event _ _ _ _ _ _ _).trans (hcount _)

/-! ## What the check says after an operation -/

/-- A granule whose check is not unwritten is in no lost part, and what its check says is what its differing bytes make of it (R157, R162). -/
theorem State.markOf_of_not_unwritten (h : s.markOf g ≠ some .unwritten) :
    s.lostGranule g = false ∧ mget s.mem.marks g ≠ some .unwritten ∧ s.markOf g = eccSays (mgetD s.mem.flips g []) := by
  have hw : ¬(s.lostGranule g = true ∨ mget s.mem.marks g = some .unwritten) := fun hw => h (if_pos hw)
  obtain ⟨hlost, hmark⟩ := not_or.mp hw
  exact ⟨Bool.eq_false_iff.mpr hlost, hmark, if_neg hw⟩

theorem State.markOf_eq_none (hlost : s.lostGranule g = false) (hmark : mget s.mem.marks g ≠ some .unwritten) (hflips : mgetD s.mem.flips g [] = []) :
    s.markOf g = none := by
  simp [State.markOf, hlost, hmark, hflips, eccSays]

theorem mgetD_mdel_same {α : Type} (m : NMap α) (n : Nat) (d : α) : mgetD (mdel m n) n d = d := by simp [mgetD]

/-- A correctable error is gone once its granule has been written back (R159). -/
theorem State.markOf_dramCe (h : s.markOf (pa / 128 * 128) ≠ some .unwritten) : (s.dramCe pa).markOf (pa / 128 * 128) = none := by
  obtain ⟨hlost, hmark, -⟩ := State.markOf_of_not_unwritten h
  obtain ⟨l, c, hmem⟩ := State.dramCe_mem (s := s) (pa := pa)
  refine State.markOf_eq_none ?_ ?_ ?_
  · rw [State.lostGranule_of_lost State.rd_interleave_dramCe (by rw [hmem]), hlost]
  · rwa [hmem]
  · rw [hmem]
    exact mgetD_mdel_same _ _ _

theorem State.markOf_dramUe : (s.dramUe pa).markOf g = s.markOf g := by
  obtain ⟨l, u, hmem⟩ := State.dramUe_mem (s := s) (pa := pa)
  exact State.markOf_of_mem State.rd_interleave_dramUe (by rw [hmem]) (by rw [hmem]) (by rw [hmem])

theorem State.lostGranule_of_renewed {n : Nat} (hn : 0 < n) (h : ∀ l ∈ s.mem.lost, (g, n) ∈ l.renewed) : s.lostGranule g = false := by
  unfold State.lostGranule
  refine List.any_eq_false.mpr fun l hl hin => ?_
  obtain ⟨-, -, -, -, -, hold⟩ := of_decide_eq_true hin
  have hnew : (l.renewed.any fun r => decide (r.1 ≤ g ∧ g < r.1 + r.2)) = true := List.any_eq_true.mpr ⟨(g, n), h l hl, by simpa using hn⟩
  exact absurd hold (by rw [hnew]; decide)

/-- After a whole-granule write the granule lies in no lost part that has not been renewed there (R162, R180). -/
theorem State.lostGranule_clearMark : (s.clearMark g).lostGranule g = false := by
  cases hlost : s.lostGranule g with
  | false => exact (State.lostGranule_of_lost (s := s) (t := s.clearMark g) rfl (by simp [State.clearMark, hlost])).trans hlost
  | true =>
    refine State.lostGranule_of_renewed (n := 128) (by decide) fun l hl => ?_
    simp only [State.clearMark, hlost, if_true, List.mem_map] at hl
    obtain ⟨old, -, rfl⟩ := hl
    exact List.mem_cons_self

theorem State.markOf_clearMark : (s.clearMark g).markOf g = none :=
  State.markOf_eq_none State.lostGranule_clearMark (by simp [State.clearMark]) (mgetD_mdel_same _ _ _)

/-- Stored bytes do not enter into what a check says of its granule. -/
theorem State.markOf_put {d : Bytes} : ({ s with mem := s.mem.put pa d } : State).markOf g = s.markOf g :=
  State.markOf_of_mem rfl (by simp) (by simp) (by simp)

/-! ## Reads and writes of the tiers -/

section Tiers

variable {d : Bytes} {n : Nat} (hr : s.regionOf pa = .shallows ∨ s.regionOf pa = .deeps)

include hr in
theorem State.tierAddr_of_tier : s.tierAddr pa = true := by
  obtain h | h := hr <;> simp [State.tierAddr, h]

include hr in
theorem State.regionOf_ne_hole : s.regionOf pa ≠ .hole := by
  obtain h | h := hr <;> simp [h]

include hr in
theorem State.readBlock_of_tier : s.readBlock pa n = s.readTier pa n := by
  obtain h | h := hr <;> simp [State.readBlock, h]

include hr in
theorem State.writeBlock_of_tier : s.writeBlock pa d = s.writeTier pa d := by
  obtain h | h := hr <;> simp [State.writeBlock, h]

theorem State.readTier_dead (h : s.deadGranule pa = true) : s.readTier pa n = (s.dramUe pa, .uncorrectable, []) := by
  simp [State.readTier, h]

theorem State.readTier_clean (h : s.deadGranule pa = false) (hm : s.markOf (pa / 128 * 128) = none) : s.readTier pa n = (s, .ok, s.mem.get pa n) := by
  simp [State.readTier, h, hm]

theorem State.readTier_ce (h : s.deadGranule pa = false) (hm : s.markOf (pa / 128 * 128) = some .ce) :
    s.readTier pa n = (s.dramCe pa, .ok, s.mem.get pa n) := by
  simp [State.readTier, h, hm]

theorem State.readTier_bad (h : s.deadGranule pa = false) (hm : s.markOf (pa / 128 * 128) = some .ue ∨ s.markOf (pa / 128 * 128) = some .unwritten) :
    s.readTier pa n = (s.dramUe pa, .uncorrectable, []) := by
  obtain hm | hm := hm <;> simp [State.readTier, h, hm]

/-- With no page on the move a store has no second place (R203). -/
theorem State.storeTier_of_no_moves (h : s.mem.moves = []) : s.storeTier pa d = { s with mem := s.mem.put pa d } := by
  simp [State.storeTier, State.mirror, h]

theorem State.writeTier_whole (h : s.deadGranule pa = false) (hlen : d.length = 128) (hmoves : s.mem.moves = []) :
    s.writeTier pa d = ({ s.clearMark (pa / 128 * 128) with mem := (s.clearMark (pa / 128 * 128)).mem.put pa d }, .ok) := by
  simp [State.writeTier, h, hlen, State.storeTier_of_no_moves (s := s.clearMark _) hmoves]

theorem State.writeTier_clean (h : s.deadGranule pa = false) (hlen : d.length ≠ 128) (hm : s.markOf (pa / 128 * 128) = none) (hmoves : s.mem.moves = []) :
    s.writeTier pa d = ({ s with mem := s.mem.put pa d }, .ok) := by
  simp [State.writeTier, h, hlen, hm, State.storeTier_of_no_moves hmoves]

theorem State.writeTier_ce (h : s.deadGranule pa = false) (hlen : d.length ≠ 128) (hm : s.markOf (pa / 128 * 128) = some .ce) (hmoves : s.mem.moves = []) :
    s.writeTier pa d = ({ s.dramCe pa with mem := (s.dramCe pa).mem.put pa d }, .ok) := by
  obtain ⟨l, c, hmem⟩ := State.dramCe_mem (s := s) (pa := pa)
  simp [State.writeTier, h, hlen, hm, State.storeTier_of_no_moves (s := s.dramCe pa) (by rw [hmem]; exact hmoves)]

theorem State.writeTier_bad (h : s.deadGranule pa = false) (hlen : d.length ≠ 128)
    (hm : s.markOf (pa / 128 * 128) = some .ue ∨ s.markOf (pa / 128 * 128) = some .unwritten) : s.writeTier pa d = (s.dramUe pa, .uncorrectable) := by
  obtain hm | hm := hm <;> simp [State.writeTier, h, hlen, hm]

include hr in
/-- MEM_WRITE within one granule of a tier is the write of that tier, and its answer (R160). -/
theorem exec_memWrite_of_tier (h0 : d ≠ []) (hfit : pa % 128 + d.length ≤ 128) :
    exec (.memWrite pa d) s = .next ((s.writeTier pa d).1.emit (.memAck (s.writeTier pa d).2)) := by
  change execMemWrite pa d s = _
  have hrun : ¬((!s.tierAddr pa) = true ∨ d.length = 0 ∨ pa % 128 + d.length > 128) := by
    simp [State.tierAddr_of_tier hr, h0, hfit]
  simp only [execMemWrite, if_neg hrun, State.writeBlock_of_tier hr]

include hr in
/-- A write that stores into a state with the same bytes and a clean check: what is stored, what the check says then, and what stays (R160). -/
theorem exec_memWrite_stored {u : State} (h0 : d ≠ []) (hfit : pa % 128 + d.length ≤ 128)
    (hw : s.writeTier pa d = ({ u with mem := u.mem.put pa d }, .ok)) (hbytes : u.mem.bytes = s.mem.bytes) (hclean : u.markOf (pa / 128 * 128) = none) :
    ∃ t : State, exec (.memWrite pa d) s = .next (t.emit (.memAck .ok)) ∧ t.mem.get pa d.length = d ∧ t.markOf (pa / 128 * 128) = none ∧
      ∀ a, a < pa ∨ pa + d.length ≤ a → t.mem.get a 1 = s.mem.get a 1 :=
  ⟨{ u with mem := u.mem.put pa d }, by rw [exec_memWrite_of_tier hr h0 hfit, hw], Mem.get_put_same, State.markOf_put.trans hclean,
    fun _ hout => (Mem.get_put_outside hout).trans (Mem.get_of_bytes 1 hbytes)⟩

end Tiers

/-- Settles O2: the write of the tier in each state of the check. -/
theorem granuleWrites : Obligations.GranuleWrites := by
  unfold Obligations.GranuleWrites
  refine ⟨?whole, ?part, ?bad⟩
  case whole =>
    intro s pa d hr ha hlen hdead hmoves
    have hg : pa / 128 * 128 = pa := by omega
    have h := exec_memWrite_stored hr (List.ne_nil_of_length_pos (by omega)) (by omega) (State.writeTier_whole hdead hlen hmoves)
      (State.clearMark_bytes _ _) State.markOf_clearMark
    rwa [hlen, hg] at h
  case part =>
    intro s pa d hr h0 hfit hdead hmoves hmark
    by_cases hlen : d.length = 128
    · exact exec_memWrite_stored hr h0 hfit (State.writeTier_whole hdead hlen hmoves) (State.clearMark_bytes _ _) State.markOf_clearMark
    · obtain hnone | hce := hmark
      · exact exec_memWrite_stored hr h0 hfit (State.writeTier_clean hdead hlen hnone hmoves) rfl hnone
      · exact exec_memWrite_stored hr h0 hfit (State.writeTier_ce hdead hlen hce hmoves) (State.dramCe_bytes _ _) (State.markOf_dramCe (by simp [hce]))
  case bad =>
    intro s pa d hr h0 hfit hlen hdead hmark
    exact ⟨s.dramUe pa, by rw [exec_memWrite_of_tier hr h0 hfit, State.writeTier_bad hdead hlen.ne hmark], State.dramUe_bytes _ _, State.markOf_dramUe⟩

end Sys2Proof.Machine
end

section
/-! Commands of the base dies, evacuations and die failures (R152, R157 to R165, R176 to R181). -/

namespace Sys2Proof.Machine

open Sys2Proof

variable {s : State} {pa g st p : Nat} {e : Evac}

/-! ## Reads by a base die -/

theorem State.servePos_of_evacs {m : Mem} (h : m.evacs = s.mem.evacs) : ({ s with mem := m } : State).servePos pa = s.servePos pa := by
  unfold State.servePos
  rw [h]
  rfl

theorem State.deadGranule_of_evacs {m : Mem} (h : m.evacs = s.mem.evacs) : ({ s with mem := m } : State).deadGranule pa = s.deadGranule pa := by
  unfold State.deadGranule
  rw [State.servePos_of_evacs h]
  rfl

/-- Bytes that come to differ change memory alone, and start no evacuation. -/
theorem State.plant_mem (l : List CellErr) : ∃ m, s.plant g l = { s with mem := m } ∧ m.evacs = s.mem.evacs := by
  unfold State.plant
  simp only
  split
  · exact ⟨s.mem, rfl, rfl⟩
  · exact ⟨s.mem, rfl, rfl⟩
  · split
    · exact ⟨_, rfl, Mem.put_evacs⟩
    · exact ⟨_, rfl, rfl⟩

theorem State.regionOf_plant (l : List CellErr) : (s.plant g l).regionOf pa = s.regionOf pa := by
  obtain ⟨m, h, -⟩ := State.plant_mem (s := s) (g := g) l
  rw [h]
  rfl

theorem State.deadGranule_plant (l : List CellErr) : (s.plant g l).deadGranule pa = s.deadGranule pa := by
  obtain ⟨m, h, hevacs⟩ := State.plant_mem (s := s) (g := g) l
  rw [h, State.deadGranule_of_evacs hevacs]

/-- A granule that is uncorrectable or unwritten stays so whatever comes to differ (R158, R162). -/
theorem State.plant_of_bad (l : List CellErr) (h : s.markOf (g / 128 * 128) = some .ue ∨ s.markOf (g / 128 * 128) = some .unwritten) : s.plant g l = s := by
  unfold State.plant
  obtain h | h := h <;> simp only [h]

theorem State.granuleRead_cells (l : List CellErr) (hr : s.regionOf g = .shallows ∨ s.regionOf g = .deeps) :
    s.granuleRead g (.cells l) = (s.plant g l).readTier g 128 := by
  simp only [State.granuleRead, if_neg (State.regionOf_ne_hole hr), State.readBlock_of_tier ((State.regionOf_plant l (pa := g)).symm ▸ hr)]

/-- A read of another granule that the check sees, and any of a die that has failed (R158, R181). -/
theorem State.granuleRead_other {o : Nat} (hr : s.regionOf g = .shallows ∨ s.regionOf g = .deeps) (h : s.deadGranule g = true ∨ Config.eccSeesOther g o = true) :
    s.granuleRead g (.wrongGranule o) = (s.dramUe g, .uncorrectable, []) := by
  simp only [State.granuleRead, if_neg (State.regionOf_ne_hole hr), if_pos h]

theorem State.granuleRead_hole (f : ReadErr) (h : s.regionOf g = .hole) : s.granuleRead g f = (s.event 0x2004 0x00 0 noCtx g 0 0, .violation, []) := by
  simp [State.granuleRead, State.readBlock, h]

/-- Of a die that has failed nothing is read (R181). -/
theorem State.granuleRead_dead (f : ReadErr) (hr : s.regionOf g = .shallows ∨ s.regionOf g = .deeps) (h : s.deadGranule g = true) :
    ∃ t, s.granuleRead g f = (t, .uncorrectable, []) := by
  cases f with
  | cells l => exact ⟨_, (State.granuleRead_cells l hr).trans (State.readTier_dead (by rw [State.deadGranule_plant, h]))⟩
  | wrongGranule o => exact ⟨_, State.granuleRead_other hr (Or.inl h)⟩

theorem exec_memRead {f : ReadErr} {t : State} {r : Status} {d : Bytes} (ha : s.tierAddr pa = true) (h : s.granuleRead (pa / 128 * 128) f = (t, r, d)) :
    exec (.memRead pa f) s = .next (t.emit (.memReply r d)) := by
  change execMemRead pa f s = _
  simp [execMemRead, ha, h]

theorem exec_patrolScrub {f : ReadErr} {t : State} {r : Status} {d : Bytes} (last : Bool) (hr : s.regionOf pa = .shallows ∨ s.regionOf pa = .deeps)
    (h : s.granuleRead (pa / 128 * 128) f = (t, r, d)) : exec (.patrolScrub pa f last) s = .next (if last then t.bumpSat Obj.scrubPasses 32 else t) := by
  change execPatrolScrub pa f last s = _
  simp [execPatrolScrub, State.tierAddr_of_tier hr, State.regionOf_ne_hole hr, h]

section Reads

variable {l : List CellErr} (hg : g / 128 * 128 = g) (hr : s.regionOf g = .shallows ∨ s.regionOf g = .deeps) (hdead : s.deadGranule g = false)

include hg hr hdead

/-- A read that meets cells that have come to differ, by what the check says of them (R157 to R159). -/
theorem State.granuleRead_clean (h : (s.plant g l).markOf g = none) :
    s.granuleRead g (.cells l) = (s.plant g l, .ok, (s.plant g l).mem.get g 128) := by
  rw [State.granuleRead_cells l hr, State.readTier_clean (by rw [State.deadGranule_plant, hdead]) (by rw [hg, h])]

theorem State.granuleRead_ce (h : (s.plant g l).markOf g = some .ce) :
    s.granuleRead g (.cells l) = ((s.plant g l).dramCe g, .ok, (s.plant g l).mem.get g 128) := by
  rw [State.granuleRead_cells l hr, State.readTier_ce (by rw [State.deadGranule_plant, hdead]) (by rw [hg, h])]

theorem State.granuleRead_bad (h : (s.plant g l).markOf g = some .ue ∨ (s.plant g l).markOf g = some .unwritten) :
    s.granuleRead g (.cells l) = ((s.plant g l).dramUe g, .uncorrectable, []) := by
  rw [State.granuleRead_cells l hr, State.readTier_bad (by rw [State.deadGranule_plant, hdead]) (by rw [hg]; exact h)]

end Reads

/-- An atomic of a granule whose check is clean reads, computes and stores (R161). -/
theorem State.atomic_clean {fn n x c : Nat} {wide : Bool} (hn : n = if wide then 8 else 4) (hr : s.regionOf pa = .shallows ∨ s.regionOf pa = .deeps)
    (halign : pa % n = 0) (hfn : fn ≤ 9) (hdead : s.deadGranule pa = false) (hm : s.markOf (pa / 128 * 128) = none) (hmoves : s.mem.moves = []) :
    s.atomic pa fn wide x c =
      ({ s with mem := s.mem.put pa (leBytes n (atomicFn fn (8 * n) (leNat (s.mem.get pa n)) x c)) }, .ok, leNat (s.mem.get pa n)) := by
  have hsize : n ≠ 128 := by subst hn; cases wide <;> decide
  have hwrite (v : Nat) : s.writeBlock pa (leBytes n v) = ({ s with mem := s.mem.put pa (leBytes n v) }, .ok) := by
    rw [State.writeBlock_of_tier hr, State.writeTier_clean hdead (by rwa [length_leBytes]) hm hmoves]
  have hread : s.readBlock pa n = (s, .ok, s.mem.get pa n) := by rw [State.readBlock_of_tier hr, State.readTier_clean hdead hm]
  unfold State.atomic
  simp only [← hn]
  obtain h | h := hr <;> simp [h, halign, Nat.not_lt.mpr hfn, hread, hwrite]

/-! ## Evacuations -/

theorem State.evacOf_eq_none (h : s.mem.evacs.any (fun e => decide (e.stack = st)) = false) : s.evacOf st = none :=
  List.find?_eq_none.mpr (List.any_eq_false.mp h)

theorem State.stack_of_evacOf (h : s.evacOf st = some e) : e.stack = st := by
  unfold State.evacOf at h
  simpa using List.find?_some h

/-- The evacuation of a die onto a spare as step 1 lists it: nothing copied yet, under the house channel of the stack's home die (R177, R185). -/
def State.freshEvac (s : State) (st p sp : Nat) : Evac :=
  ⟨st, s.rd (Obj.dramLogical st p), p, sp, 0, 0, 0, false, (s.houseOf (stackHome st)).getD (16 * stackHome st + 15)⟩

/-- The evacuation of a die of a stack that has a spare and none under way (R176, R177). -/
theorem State.evacuate_starts {sp : Nat} (hfree : s.mem.evacs.any (fun e => decide (e.stack = st)) = false) (hsp : s.spareDie st = some sp) :
    s.evacuate st p = ({ s with mem := { s.mem with evacs := s.mem.evacs ++ [s.freshEvac st p sp] } }.wr (Obj.evacProgress st p) 0).event
      0x2003 0x03 (32 * st + p) noCtx 1 0 0 := by
  have hsame : s.mem.evacs.any (fun e => decide (e.stack = st ∧ e.old = p)) = false := by
    rw [List.any_eq_false] at hfree ⊢
    exact fun e he hboth => hfree e he (decide_eq_true (of_decide_eq_true hboth).1)
  simp only [State.evacuate, hsame, hfree, hsp, Bool.false_eq_true, if_false]
  rfl

/-- A group whose granules are clean is copied: the cursor of its channel advances, and after the last group the spare serves (R177, R211). -/
theorem exec_evacGroupCopied {chan : Nat} (h : s.evacOf st = some e) (hrun : s.houseRuns e.ch = true)
    (hcur : (if chan = 0 then e.cur0 else e.cur1) < groupsOf st) (hclean : s.badGranules e chan (if chan = 0 then e.cur0 else e.cur1) = []) {e' : Evac}
    (he' : e' = if chan = 0 then { e with cur0 := e.cur0 + 1 } else { e with cur1 := e.cur1 + 1 }) :
    exec (.evacGroupCopied st chan) s = .next (if e'.cur0 ≥ groupsOf st ∧ e'.cur1 ≥ groupsOf st then ((s.bumpBy Obj.teBytes 1920).setEvac e').evacDone e'
      else (s.bumpBy Obj.teBytes 1920).setEvac e') := by
  change execEvacGroupCopied st chan s = _
  subst he'
  unfold execEvacGroupCopied
  by_cases hc : chan = 0
  · simp only [hc, if_true] at hcur hclean
    simp [h, hc, hrun, hclean, Nat.not_le.mpr hcur]
  · simp only [hc, if_false] at hcur hclean
    simp [h, hc, hrun, hclean, Nat.not_le.mpr hcur]

/-! ### The objects of a die -/

theorem keyArea_dramState_ne_recorder {k : Nat} (hst : st < 32) (hk : k < 17) : keyArea (Obj.dramState st k).key ≠ 0x70 := by
  simp only [Obj.dramState, objKey, keyArea]
  omega

theorem keyArea_dramLogical_ne_recorder {k : Nat} (hst : st < 32) (hk : k < 17) : keyArea (Obj.dramLogical st k).key ≠ 0x70 := by
  simp only [Obj.dramLogical, objKey, keyArea]
  omega

theorem key_dramState_ne {k j : Nat} (h : k ≠ j) : (Obj.dramState st k).key ≠ (Obj.dramState st j).key := by
  simp only [Obj.dramState, objKey]
  omega

theorem key_dramLogical_ne {k j : Nat} (h : k ≠ j) : (Obj.dramLogical st k).key ≠ (Obj.dramLogical st j).key := by
  simp only [Obj.dramLogical, objKey]
  omega

theorem key_dramState_ne_dramLogical (k j : Nat) : (Obj.dramState st k).key ≠ (Obj.dramLogical st j).key := by
  simp only [Obj.dramState, Obj.dramLogical, objKey]
  omega

/-- The end of an evacuation whose old die has not failed: the spare serves the logical die, the old die is RETIRED, and no byte changes (R177). -/
theorem State.evacDone_serves (hst : e.stack < 32) (hold : e.old < 17) (hspare : e.spare < 17) (hne : e.old ≠ e.spare) (hf : e.oldFailed = false) :
    (s.evacDone e).rd (Obj.dramLogical e.stack e.spare) = e.logical ∧ (s.evacDone e).rd (Obj.dramLogical e.stack e.old) = 0xFF ∧
    (s.evacDone e).rd (Obj.dramState e.stack e.spare) = ustActive ∧ (s.evacDone e).rd (Obj.dramState e.stack e.old) = ustRetired ∧
    (s.evacDone e).mem.bytes = s.mem.bytes := by
  have hoS := keyArea_dramState_ne_recorder hst hold
  have hsS := keyArea_dramState_ne_recorder hst hspare
  have hoL := keyArea_dramLogical_ne_recorder hst hold
  have hsL := keyArea_dramLogical_ne_recorder hst hspare
  simp only [State.evacDone, hf, Bool.false_eq_true, if_false]
  refine ⟨?_, ?_, ?_, ?_, by simp [State.dropEvac]⟩
  · rw [State.rd_event_of_area _ _ _ _ _ _ _ hsL, State.rd_mapNote, State.rd_goState_of_area _ _ _ (key_dramState_ne_dramLogical _ _) hsL, State.rd_mapNote,
      State.rd_goState_of_area _ _ _ (key_dramState_ne_dramLogical _ _) hsL, State.rd_wr_same]
  · rw [State.rd_event_of_area _ _ _ _ _ _ _ hoL, State.rd_mapNote, State.rd_goState_of_area _ _ _ (key_dramState_ne_dramLogical _ _) hoL, State.rd_mapNote,
      State.rd_goState_of_area _ _ _ (key_dramState_ne_dramLogical _ _) hoL, State.rd_wr_ne _ _ _ _ (key_dramLogical_ne hne.symm), State.rd_wr_same]
  · rw [State.rd_event_of_area _ _ _ _ _ _ _ hsS, State.rd_mapNote, State.rd_goState _ _ _ _ _ (key_ne_of_area hsS (by decide))]
  · rw [State.rd_event_of_area _ _ _ _ _ _ _ hoS, State.rd_mapNote, State.rd_goState_of_area _ _ _ (key_dramState_ne hne.symm) hoS, State.rd_mapNote,
      State.rd_goState _ _ _ _ _ (key_ne_of_area hoS (by decide))]

theorem State.loseGroups_none (c lo : Nat) : s.loseGroups e c lo lo = s := if_pos (le_refl _)

/-- A spare that stops before anything was copied gives up the evacuation of a die that has not failed (R180). -/
theorem exec_spareDieUnresponsive_unstarted (h : s.evacOf st = some e) (h0 : e.cur0 = 0) (h1 : e.cur1 = 0) (hf : e.oldFailed = false) :
    exec (.spareDieUnresponsive st) s = .next (((((s.dropEvac e).goState (Obj.dramState st e.spare) 0x03 (32 * st + e.spare) ustFailed).addFail 0x03
      (32 * st + e.spare)).event 0x2003 0x03 (32 * st + e.old) noCtx 3 0 0).exhausted 0x03 (32 * st + e.old) 2 false) := by
  change execSpareDieUnresponsive st s = _
  obtain rfl := State.stack_of_evacOf h
  simp [execSpareDieUnresponsive, h, State.evacAbandon, h0, h1, hf, State.loseGroups_none]

/-! ### Die failures -/

/-- An ACTIVE die that fails where no spare is free for it stays mapped and FAILED (R181). -/
theorem exec_dramDieFail_mapped (hst : st < 32) (hp : p < 17) (hact : s.rd (Obj.dramState st p) = ustActive)
    (hnone : (s.evacOf st = none ∧ s.spareDie st = none) ∨ ∃ e, s.evacOf st = some e ∧ p ≠ e.old ∧ p ≠ e.spare) :
    exec (.dramDieFail st p) s = .next ((((s.wr (Obj.dramState st p) ustFailed).unitEvent 0x03 (32 * st + p) ustActive ustFailed).addFail 0x03 (32 * st + p)).exhausted
      0x03 (32 * st + p) 2 true) := by
  change execDramDieFail st p s = _
  have hgo := State.goState_of_ne (new := ustFailed) 0x03 (32 * st + p) hact (by decide)
  unfold execDramDieFail
  obtain ⟨he, hsp⟩ | ⟨e, he, hold, hspare⟩ := hnone
  · simp [he, hsp, hgo, hact, Nat.not_le.mpr hst, Nat.not_le.mpr hp]
  · simp [he, hold, hspare, hgo, hact, Nat.not_le.mpr hst, Nat.not_le.mpr hp]

theorem find?_updFirst {α : Type} (q : α → Bool) (a : α) (ha : q a = true) {l : List α} {b : α} (h : l.find? q = some b) :
    (updFirst q (fun _ => a) l).find? q = some a := by
  induction l with
  | nil => simp at h
  | cons x l ih =>
    by_cases hx : q x = true
    · simp [updFirst, hx, ha]
    · simp only [List.find?_cons_of_neg hx] at h
      simpa [updFirst, hx] using ih h

theorem State.evacOf_setEvac {e' : Evac} (h : s.evacOf st = some e) (hst : e'.stack = st) : (s.setEvac e').evacOf st = some e' := by
  subst hst
  exact find?_updFirst (fun x : Evac => decide (x.stack = e'.stack)) e' (by simp) h

/-- An ACTIVE die that fails where a spare is free is evacuated as a die that has failed (R180). -/
theorem exec_dramDieFail_evacuates {sp : Nat} (hst : st < 32) (hp : p < 17) (hact : s.rd (Obj.dramState st p) = ustActive)
    (hfree : s.mem.evacs.any (fun e => decide (e.stack = st)) = false) (hsp : s.spareDie st = some sp) :
    ∃ t, exec (.dramDieFail st p) s = .next t ∧ t.evacOf st = some { s.freshEvac st p sp with oldFailed := true } := by
  have hnone := State.evacOf_eq_none hfree
  have hlisted : (s.evacuate st p).evacOf st = some (s.freshEvac st p sp) := by
    simp only [State.evacuate_starts hfree hsp, State.evacOf, State.event_mem, State.wr_mem, List.find?_append]
    rw [show s.mem.evacs.find? (fun e => decide (e.stack = st)) = none from hnone]
    simp [State.freshEvac]
  refine ⟨(s.evacuate st p).setEvac { s.freshEvac st p sp with oldFailed := true }, ?_, State.evacOf_setEvac hlisted rfl⟩
  change execDramDieFail st p s = _
  unfold execDramDieFail
  simp [hnone, hsp, hact, hlisted, Nat.not_le.mpr hst, Nat.not_le.mpr hp]

/-- Settles O24: a read by what its check says, a write and an atomic by the rules of the tier, an evacuation by its cursors. -/
theorem dramCommands : Obligations.DramCommands := by
  unfold Obligations.DramCommands
  refine ⟨?read, ?readOther, ?readDead, ?write, ?atomic, ?hole, ?patrol, ?refresh, ?temp, ?plantBad, ?evacuate, ?copied, ?copiedLast, ?done, ?idle, ?serve, ?oldDie,
    ?spareDie, ?failUnspared, ?failSpared, ?failBusy⟩
  case read =>
    intro s pa g l p hg hp hr hreg hdead
    subst hg hp
    have hg : pa / 128 * 128 / 128 * 128 = pa / 128 * 128 := by omega
    have hrg := hreg.symm ▸ hr
    have ha := State.tierAddr_of_tier hr
    exact ⟨fun h => exec_memRead ha (State.granuleRead_clean hg hrg hdead h), fun h => exec_memRead ha (State.granuleRead_ce hg hrg hdead h),
      fun h => exec_memRead ha (State.granuleRead_bad hg hrg hdead h)⟩
  case readOther =>
    intro s pa o hr hreg hsees
    exact exec_memRead (State.tierAddr_of_tier hr) (State.granuleRead_other (hreg.symm ▸ hr) (Or.inr hsees))
  case readDead =>
    intro s pa f hr hreg hdead
    obtain ⟨t, ht⟩ := State.granuleRead_dead f (hreg.symm ▸ hr) hdead
    exact ⟨t, exec_memRead (State.tierAddr_of_tier hr) ht⟩
  case write =>
    intro s pa d hr h0 hlen hfit hdead hm hmoves
    rw [exec_memWrite_of_tier hr h0 hfit, State.writeTier_clean hdead hlen.ne hm hmoves]
  case atomic =>
    intro s pa fn wide x c n hn hr halign hfn hdead hm hmoves
    change execMemAtomic pa fn wide x c s = _
    simp [execMemAtomic, State.tierAddr_of_tier hr, State.atomic_clean hn hr halign hfn hdead hm hmoves]
  case hole =>
    intro s pa f hr hreg
    exact exec_memRead (by simp [State.tierAddr, hr]) (State.granuleRead_hole f hreg)
  case patrol =>
    intro s pa g l p last hg hp hr hreg hdead
    subst hg hp
    have hg : pa / 128 * 128 / 128 * 128 = pa / 128 * 128 := by omega
    have hrg := hreg.symm ▸ hr
    exact ⟨fun h => exec_patrolScrub last hr (State.granuleRead_clean hg hrg hdead h), fun h => exec_patrolScrub last hr (State.granuleRead_ce hg hrg hdead h),
      fun h => exec_patrolScrub last hr (State.granuleRead_bad hg hrg hdead (Or.inl h))⟩
  case refresh =>
    exact fun s st p b => ⟨rfl, rfl⟩
  case temp =>
    intro s st p t
    refine ⟨_, rfl, s.rd_wr_same _ _, rfl, ?_, fun k hk => ?_⟩
    · by_cases h : 95 < t <;> simp [h]
    · by_cases h : 95 < t <;> simp [h, mget_mput_ne, mget_mdel_ne, hk.symm]
  case plantBad =>
    exact fun s g l h => State.plant_of_bad l h
  case evacuate =>
    intro s w st p sp hw hst hp hact hsp hfree
    refine accepted_of_ctl rfl hw ?_
    simp [Nat.not_le.mpr hst, Nat.not_le.mpr hp, State.beginEvac, hact, hsp, hfree, State.evacuate_starts hfree hsp, State.freshEvac]
  case copied =>
    intro s st e h hrun hcur hclean
    rw [exec_evacGroupCopied (chan := 0) h hrun (Nat.lt_of_succ_lt hcur) hclean rfl, if_neg fun hend => hcur.not_ge hend.1]
    rfl
  case copiedLast =>
    intro s st e h hrun h0 h1 hclean
    rw [exec_evacGroupCopied (chan := 1) h hrun (h1 ▸ Nat.lt_succ_self e.cur1) hclean rfl, if_pos ⟨h0.ge, h1.ge⟩]
    rfl
  case done =>
    exact fun s e hst hold hspare hne hf => State.evacDone_serves hst hold hspare hne hf
  case idle =>
    intro s st e h hrun
    have idles (chan : Nat) : exec (.evacGroupCopied st chan) s = .next s := by
      change execEvacGroupCopied st chan s = _
      simp [execEvacGroupCopied, h, hrun]
    exact ⟨idles 0, idles 1⟩
  case serve =>
    intro s e pa hevacs hplace
    simp [State.servePos, hevacs, hplace]
  case oldDie =>
    intro s st e h
    change execOldDieUnresponsive st s = _
    simp [execOldDieUnresponsive, h]
  case spareDie =>
    exact fun s st e h _ h0 h1 hf => exec_spareDieUnresponsive_unstarted h h0 h1 hf
  case failUnspared =>
    exact fun s st p hst hp he hact hsp => exec_dramDieFail_mapped hst hp hact (Or.inl ⟨he, hsp⟩)
  case failSpared =>
    intro s st p sp hst hp hfree hact hsp
    obtain ⟨t, ht, hlisted⟩ := exec_dramDieFail_evacuates hst hp hact hfree hsp
    exact ⟨t, _, ht, hlisted, rfl, rfl, rfl, rfl, rfl⟩
  case failBusy =>
    exact fun s st p e hst hp he hold hspare hact => exec_dramDieFail_mapped hst hp hact (Or.inr ⟨e, he, hold, hspare⟩)

end Sys2Proof.Machine
end

section
/-! Page maps, walks and fills (R166 to R175). -/

namespace Sys2Proof.Machine

open Sys2Proof

variable {s t : State} {w : Who} {c va : Nat} {b : Bytes}

/-- Either command is a write of `page_map_cmd` (R172). -/
theorem exec_pageMap (hop : pmOp b = 1) : exec (.pageMap w c b) s = .next (s.ctl w (pageWriter w c) fun s => s.pageCmd c b) := by
  change execPageMap w c b s = _
  simp [execPageMap, hop]

theorem exec_pageUnmap (hop : pmOp b = 2) : exec (.pageUnmap w c b) s = .next (s.ctl w (pageWriter w c) fun s => s.pageCmd c b) := by
  change execPageUnmap w c b s = _
  simp [execPageUnmap, hop]

/-- A page-map command that has passed the checks of R172. -/
theorem State.pageCmd_of_idle (hlen : b.length = 32) (h0 : c ≠ 0) (hc : c < 64) (hidle : s.rd (Obj.pageMapStatus c) / 256 ≠ 1) :
    s.pageCmd c b = (if pmOp b = 2 then s.pageUnmapRun c b else s.pageMapRun c b, rOk) := by
  have hrun : ¬(c = 0 ∨ c ≥ 64 ∨ s.rd (Obj.pageMapStatus c) / 256 = 1) := by omega
  simp only [State.pageCmd, hlen, ne_eq, not_true, if_false, if_neg hrun]
  split <;> rfl

/-- A MAP that no result of R172 but OK applies to maps its pages. -/
theorem State.pageMapRun_maps (hwf : s.pmMalformedCmd b = false) (hopen : s.ctxSt c = ctxOpen) (hmeets : s.pagesIn c (pmVa b) (pmLen b) = [])
    (hquota : s.mappedMib c + pmLen b / 1048576 ≤ s.rd (Obj.ctxQuotaMib c))
    (htables : tablesFor (s.mem.pages ++ (List.range (pmLen b / pageSize (pmBig b))).map fun i =>
      (⟨c, pmVa b + i * pageSize (pmBig b), pmBig b, 0, false⟩ : PageEnt)) ≤ 4096)
    (hmap : State.mapGo (pmLen b / pageSize (pmBig b)) s c b (pmVa b) = some t) : s.pageMapRun c b = (t.syncMapped c).wr (Obj.pageMapStatus c) 0x0200 := by
  simp only [State.pageMapRun, hwf, hopen, hmeets, hmap, Nat.not_lt.mpr hquota, Nat.not_lt.mpr htables, Bool.false_eq_true, ne_eq, not_true, List.isEmpty_nil,
    Bool.not_true, if_false]
  rfl

/-- An UNMAP of whole pages none of which moves takes them out. -/
theorem State.pageUnmapRun_unmaps (hwf : s.pmMalformedCmd b = false) (hopen : s.ctxSt c = ctxOpen)
    (hwhole : (s.pagesIn c (pmVa b) (pmLen b)).any (fun p => decide (p.va < pmVa b) || decide (pmVa b + pmLen b < p.va + p.size)) = false)
    (hall : ((s.pagesIn c (pmVa b) (pmLen b)).map (·.size)).foldl (· + ·) 0 = pmLen b) (hstill : (s.pagesIn c (pmVa b) (pmLen b)).any (·.moving) = false) :
    s.pageUnmapRun c b = (s.unmapPages c (s.pagesIn c (pmVa b) (pmLen b))).wr (Obj.pageMapStatus c) 0x0100 := by
  simp only [State.pageUnmapRun, hwf, hopen, hwhole, hall, hstill, Bool.false_eq_true, or_self, ne_eq, not_true, if_false]

/-- Mapping goes on to the end with every page and frame that it started with (R173). -/
theorem State.mapGo_keeps {n : Nat} (h : State.mapGo n s c b va = some t) : s.mem.pages ⊆ t.mem.pages ∧ s.mem.frames ⊆ t.mem.frames := by
  induction n generalizing s va with
  | zero =>
    obtain rfl := Option.some.inj h
    exact ⟨List.Subset.refl _, List.Subset.refl _⟩
  | succ n ih =>
    rw [State.mapGo] at h
    cases hpage : s.takePage (pmTier b) (pmDie b) (pmBig b) with
    | none => simp [hpage] at h
    | some pa =>
      simp only [hpage] at h
      obtain ⟨hpages, hframes⟩ := ih h
      exact ⟨List.Subset.trans (List.subset_append_left _ _) hpages, List.Subset.trans (List.subset_append_left _ _) hframes⟩

/-- Each page that a MAP asks for is mapped, to a frame of its own that the context has taken (R173, R174). -/
theorem State.mapGo_maps {n i : Nat} (h : State.mapGo n s c b va = some t) (hi : i < n) :
    ∃ pa, (⟨c, va + i * pageSize (pmBig b), pmBig b, pa, false⟩ : PageEnt) ∈ t.mem.pages ∧ (⟨pa, pmBig b, .mapped c⟩ : Frame) ∈ t.mem.frames := by
  induction n generalizing s va i with
  | zero => exact absurd hi (Nat.not_lt_zero i)
  | succ n ih =>
    rw [State.mapGo] at h
    cases hpage : s.takePage (pmTier b) (pmDie b) (pmBig b) with
    | none => simp [hpage] at h
    | some pa =>
      simp only [hpage] at h
      cases i with
      | zero =>
        obtain ⟨hpages, hframes⟩ := State.mapGo_keeps h
        exact ⟨pa, hpages (by simp), hframes (by simp)⟩
      | succ i =>
        obtain ⟨pa, hp, hf⟩ := ih h (Nat.lt_of_succ_lt_succ hi)
        rw [show va + pageSize (pmBig b) + i * pageSize (pmBig b) = va + (i + 1) * pageSize (pmBig b) by rw [Nat.succ_mul]; omega] at hp
        exact ⟨pa, hp, hf⟩

@[simp] theorem State.syncMapped_mem : (s.syncMapped c).mem = s.mem := rfl

/-- What a finished fill of a released page leaves in memory (R160, R175, R402). -/
theorem State.freeFrame_fillDone_mem (f : Fill) (pa : Nat) : ((s.fillDone f).freeFrame pa).mem =
    { s.mem.zeroRange f.base f.len with frames := s.mem.frames.filter (fun x => x.pa != pa), fills := s.mem.fills.filter fun x => x != f } := rfl

/-- The page whose walk an access waits for: the one that holds the address, or the 2 MiB that none maps (R168). -/
theorem exec_tableWalkDone {k : Nat} {p : PageEnt} (ue : Bool) (h : (s.pageOf c va = some p ∧ k = p.va) ∨ (s.pageOf c va = none ∧ k = va / 2097152 * 2097152)) :
    exec (.tableWalkDone c va ue) s = .next (if ue then { s.bump Obj.tcMissCount with
        mem := { s.mem with walkUe := (c, k) :: s.mem.walkUe.filter fun x => x != (c, k) } }.event 0x2005 0x0D c c va 0 0
      else { s.bump Obj.tcMissCount with mem := { s.mem with walkUe := s.mem.walkUe.filter fun x => x != (c, k) } }) := by
  change execTableWalkDone c va ue s = _
  have hpage : (s.bump Obj.tcMissCount).pageOf c va = s.pageOf c va := rfl
  obtain ⟨hp, rfl⟩ | ⟨hp, rfl⟩ := h <;> simp only [execTableWalkDone, hpage, hp, State.bump_mem]

/-- Settles O25: a command of R172 by the checks that it passes, a mapping page by page, a fill and a walk by what they leave. -/
theorem paging : Obligations.Paging := by
  unfold Obligations.Paging
  refine ⟨?map, ?mapped, ?unmap, ?noAccess, ?fill, ?walk, ?walkBad, ?access⟩
  case map =>
    intro s w c b t hw hop hlen h0 hc hidle hwf hopen hmeets hquota htables hmap
    exact accepted_of_ctl (exec_pageMap hop) hw (by simp [State.pageCmd_of_idle hlen h0 hc hidle, hop, State.pageMapRun_maps hwf hopen hmeets hquota htables hmap])
  case mapped =>
    exact fun n s t c b va h i hi => State.mapGo_maps h hi
  case unmap =>
    intro s w c b hw hop hlen h0 hc hidle hwf hopen hwhole hall hstill
    exact accepted_of_ctl (exec_pageUnmap hop) hw (by simp [State.pageCmd_of_idle hlen h0 hc hidle, hop, State.pageUnmapRun_unmaps hwf hopen hwhole hall hstill])
  case noAccess =>
    intro s w c b hw hop
    exact denied_noAccess_of_ctl (exec_pageMap hop) hw
  case fill =>
    intro s pa f h
    have hmem := State.freeFrame_fillDone_mem (s := s) f pa
    refine ⟨(s.fillDone f).freeFrame pa, ?_, by rw [hmem], by rw [hmem], fun a hlo hhi => ?_⟩
    · change execUnmapFillDone pa s = _
      simp only [execUnmapFillDone, h]
    · exact (Mem.get_of_bytes 1 (by rw [hmem])).trans (Mem.get_zeroRange (m := s.mem) hlo hhi)
  case walk =>
    exact fun s c va p k h => exec_tableWalkDone false h
  case walkBad =>
    exact fun s c va p k h => exec_tableWalkDone true h
  case access =>
    intro s c m need va n hwin hpage hbad
    simp [State.resolve, hwin, hpage, List.contains_iff_mem.mp hbad]

end Sys2Proof.Machine
end

section
/-! The life of a context: open, retire, shootdowns and the fills of a retire (R170, R175, R381 to R383, R399 to R402, R407). -/

namespace Sys2Proof.Machine

open Sys2Proof

variable {s : State} {c : Nat} {b : Bytes} {o : Obj}

theorem foldl_eq_self {α β : Type} {f : β → α → β} {l : List α} {b : β} (h : ∀ a ∈ l, f b a = b) : l.foldl f b = b := by
  induction l with
  | nil => rfl
  | cons a l ih =>
    rw [List.foldl_cons, h a List.mem_cons_self]
    exact ih fun x hx => h x (List.mem_cons_of_mem a hx)

/-! ## The commands of `ctx_cmd` -/

/-- An OPEN of a FREE context that keeps the rules of R382, by the random generator's health (R407). -/
theorem State.openCmd_of_free (hc : c < 64) (hlen : b.length = 16) (h0 : c ≠ 0) (hidle : s.rd (Obj.ctxStatus c) / 256 ≠ 1) (hwf : s.openMalformed b = false)
    (hfree : s.ctxSt c = ctxFree) : s.openCmd c b = (if s.rd Obj.rngHealth = 0 then s.openCtx c b else s.wr (Obj.ctxStatus c) 0x0209, rOk) := by
  by_cases hrng : s.rd Obj.rngHealth = 0 <;> simp [State.openCmd, Nat.not_le.mpr hc, hlen, h0, hidle, hwf, hfree, hrng, cxRngFail]

/-- A RETIRE of an OPEN context for which no commit is under way takes its step 1 (R398, R400). -/
theorem State.retireCmd_open (hc : c < 64) (hlen : b.length = 16) (h0 : c ≠ 0) (hz : allZero (slice b 1 15) = true) (hopen : s.ctxSt c = ctxOpen)
    (hafter : s.ctxs.retireAfter.contains c = false) (hprot : s.ctxs.prots.any (fun p => p.ctx == c) = false) :
    s.retireCmd c b = (s.retireBegin c, rOk) := by
  simp only [State.retireCmd, if_neg (Nat.not_le.mpr hc), hlen, h0, hz, hopen, hafter, hprot]
  rfl

theorem State.retireCmd_retiring (hc : c < 64) (hlen : b.length = 16) (h0 : c ≠ 0) (hz : allZero (slice b 1 15) = true) (hret : s.ctxSt c = ctxRetiring) :
    s.retireCmd c b = (s, rOk) := by
  simp [State.retireCmd, Nat.not_le.mpr hc, hlen, h0, hz, hret]

theorem exec_contextOpen {w : Who} (hop : byteAt b 0 ≠ 2) : exec (.contextOpen w c b) s = .next (s.ctl w (isOpCus w) fun s => s.openCmd c b) := by
  change execContextOpen w c b s = _
  simp [execContextOpen, hop]

theorem exec_contextRetire {w : Who} (hop : byteAt b 0 = 2) : exec (.contextRetire w c b) s = .next (s.ctl w (isOpCus w) fun s => s.retireCmd c b) := by
  change execContextRetire w c b s = _
  simp [execContextRetire, hop]

/-! ## What an opened context reads -/

/-- The number of an object of 8-bit sub names its area and entry, and its sub (R445). -/
theorem objKey_eq_iff {a e n a' e' n' : Nat} (hn : n < 256) (hn' : n' < 256) :
    objKey a e n = objKey a' e' n' ↔ a * 65536 + e = a' * 65536 + e' ∧ n = n' := by
  simp only [objKey]
  omega

theorem State.rd_setCtxState_same (v : Nat) (hc : c < 64) : (s.setCtxState c v).rd (Obj.ctxState c) = v := by
  have hc' : c < 256 := by omega
  simp [State.setCtxState, State.rd_wr, Obj.ctxState, Obj.ctxOpenMask, Obj.confidentialResident, objKey_eq_iff, hc']

theorem State.rd_setCtxState_ne (v : Nat) (hst : (Obj.ctxState c).key ≠ o.key) (hmask : Obj.ctxOpenMask.key ≠ o.key)
    (hres : Obj.confidentialResident.key ≠ o.key) : (s.setCtxState c v).rd o = s.rd o := by
  simp only [State.setCtxState, State.rd_wr_ne _ _ _ _ hres, State.rd_wr_ne _ _ _ _ hmask, State.rd_wr_ne _ _ _ _ hst]

/-- The objects that an OPEN gives the values of its command, and those it puts back to 0 (R383). -/
def State.openNumbers (s : State) (c : Nat) (b : Bytes) : State :=
  (((((s.wr (Obj.ctxFlagsInForce c) (byteAt b 1 % 2)).wr (Obj.ctxWeight c) (byteAt b 2)).wr (Obj.ctxPoolLimit c) (byteAt b 3)).wr
    (Obj.ctxQuotaMib c) (leAt b 4 4)).wr (Obj.protEpoch c) 0).wr (Obj.niJob c) 0

/-- The rest of an OPEN: the image key and the traces of the last holder, the rules of a confidential context, the exchange key and the context's state. -/
def State.openRest (s : State) (c : Nat) (b : Bytes) : State :=
  let s := { s with ctxs := { s.ctxs with imageKey := mput s.ctxs.imageKey c (byteAt b 8) },
                    sec := { s.sec with images := mdel s.sec.images c, chains := mdel s.sec.chains c, commits := mdel s.sec.commits c } }
  let s := if byteAt b 1 % 2 = 1 then (s.wr (Obj.niEncRequired c) 1).tapReset else s
  ((s.makeXkey c).setCtxState c ctxOpen).wr (Obj.ctxStatus c) 0x0200

theorem State.openCtx_eq : s.openCtx c b = ((s.openClean c).openNumbers c b).openRest c b := rfl

/-- The objects that the rest of an OPEN writes. -/
def openRestKeys (c : Nat) : List Nat :=
  [(Obj.niEncRequired c).key, Obj.keysGenerated.key, (Obj.ctxState c).key, Obj.ctxOpenMask.key, Obj.confidentialResident.key, (Obj.ctxStatus c).key]

theorem State.rd_openRest (ho : o.key ∉ openRestKeys c) : (s.openRest c b).rd o = s.rd o := by
  simp only [openRestKeys, List.mem_cons, List.not_mem_nil, or_false, not_or] at ho
  obtain ⟨henc, hgen, hst, hmask, hres, hstat⟩ := ho
  have hxkey (u : State) : (u.makeXkey c).rd o = u.rd o := (State.rd_bump _ _ _).trans (if_neg (Ne.symm hgen))
  unfold State.openRest
  simp only [State.rd_wr_ne _ _ _ _ (Ne.symm hstat), State.rd_setCtxState_ne _ (Ne.symm hst) (Ne.symm hmask) (Ne.symm hres), hxkey]
  split
  · exact State.rd_wr_ne _ _ _ _ (Ne.symm henc)
  · rfl

/-- Nothing of this concerns memory, the tiles or the network interfaces. -/
theorem State.openRest_frame : (s.openRest c b).mem = s.mem ∧ (s.openRest c b).tiles = s.tiles ∧ (s.openRest c b).ni = s.ni := by
  unfold State.openRest
  split <;> exact ⟨rfl, rfl, rfl⟩

theorem State.openNumbers_frame : (s.openNumbers c b).mem = s.mem ∧ (s.openNumbers c b).tiles = s.tiles ∧ (s.openNumbers c b).ni = s.ni := ⟨rfl, rfl, rfl⟩

theorem State.openCtx_frame :
    (s.openCtx c b).mem = (s.openClean c).mem ∧ (s.openCtx c b).tiles = (s.openClean c).tiles ∧ (s.openCtx c b).ni = (s.openClean c).ni := by
  obtain ⟨hmem, htiles, hni⟩ := State.openRest_frame (s := (s.openClean c).openNumbers c b) (c := c) (b := b)
  obtain ⟨hmem', htiles', hni'⟩ := State.openNumbers_frame (s := s.openClean c) (c := c) (b := b)
  exact ⟨hmem.trans hmem', htiles.trans htiles', hni.trans hni'⟩

theorem State.rd_openNumbers (hc : c < 64) :
    (s.openNumbers c b).rd (Obj.ctxFlagsInForce c) = byteAt b 1 % 2 ∧ (s.openNumbers c b).rd (Obj.ctxWeight c) = byteAt b 2 ∧
    (s.openNumbers c b).rd (Obj.ctxPoolLimit c) = byteAt b 3 ∧ (s.openNumbers c b).rd (Obj.ctxQuotaMib c) = leAt b 4 4 ∧
    (s.openNumbers c b).rd (Obj.protEpoch c) = 0 ∧ (s.openNumbers c b).rd (Obj.niJob c) = 0 := by
  have hc' : c < 256 := by omega
  simp [State.openNumbers, State.rd_wr, Obj.ctxFlagsInForce, Obj.ctxWeight, Obj.ctxPoolLimit, Obj.ctxQuotaMib, Obj.protEpoch, Obj.niJob, objKey_eq_iff, hc']

theorem not_mem_openRestKeys (hc : c < 64) :
    ∀ o ∈ [Obj.ctxFlagsInForce c, Obj.ctxWeight c, Obj.ctxPoolLimit c, Obj.ctxQuotaMib c, Obj.protEpoch c, Obj.niJob c], o.key ∉ openRestKeys c := by
  have hc' : c < 256 := by omega
  simp [openRestKeys, Obj.ctxFlagsInForce, Obj.ctxWeight, Obj.ctxPoolLimit, Obj.ctxQuotaMib, Obj.protEpoch, Obj.niJob, Obj.niEncRequired, Obj.keysGenerated,
    Obj.ctxState, Obj.ctxOpenMask, Obj.confidentialResident, Obj.ctxStatus, objKey_eq_iff, hc']

/-- What the objects of a context read once it has opened (R383). -/
theorem State.rd_openCtx (hc : c < 64) :
    (s.openCtx c b).rd (Obj.ctxFlagsInForce c) = byteAt b 1 % 2 ∧ (s.openCtx c b).rd (Obj.ctxWeight c) = byteAt b 2 ∧
    (s.openCtx c b).rd (Obj.ctxPoolLimit c) = byteAt b 3 ∧ (s.openCtx c b).rd (Obj.ctxQuotaMib c) = leAt b 4 4 ∧
    (s.openCtx c b).rd (Obj.protEpoch c) = 0 ∧ (s.openCtx c b).rd (Obj.niJob c) = 0 := by
  have hkeys := not_mem_openRestKeys hc
  simp only [List.forall_mem_cons] at hkeys
  obtain ⟨hflags, hweight, hpool, hquota, hepoch, hjob, -⟩ := hkeys
  rw [State.openCtx_eq, State.rd_openRest hflags, State.rd_openRest hweight, State.rd_openRest hpool, State.rd_openRest hquota, State.rd_openRest hepoch,
    State.rd_openRest hjob]
  exact State.rd_openNumbers hc

theorem State.ctxSt_of_pos (h : 0 < c) : s.ctxSt c = s.rd (Obj.ctxState c) := if_neg h.ne'

theorem State.ctxSt_openCtx (h0 : 0 < c) (hc : c < 64) : (s.openCtx c b).ctxSt c = ctxOpen := by
  have hstat : (Obj.ctxStatus c).key ≠ (Obj.ctxState c).key := by simp [Obj.ctxStatus, Obj.ctxState, objKey]
  rw [State.ctxSt_of_pos h0, State.openCtx_eq, State.openRest]
  exact (State.rd_wr_ne _ _ _ _ hstat).trans (State.rd_setCtxState_same _ hc)

theorem State.confidential_openCtx (h0 : 0 < c) (hc : c < 64) (hb : byteAt b 1 < 2) : (s.openCtx c b).confidential c = (byteAt b 1 == 1) := by
  obtain ⟨hflags, -⟩ := State.rd_openCtx (s := s) (b := b) hc
  rw [State.confidential, State.ctxSt_openCtx h0 hc, hflags]
  interval_cases byteAt b 1 <;> simp [h0.ne', bit]

/-- A context opens with no rank table (R383). -/
theorem State.ranks_openCtx {k : Nat} (hk : k < 4096) : mget (s.openCtx c b).ni.ranks (4096 * c + k) = none := by
  obtain ⟨-, -, hni⟩ := State.openCtx_frame (s := s) (c := c) (b := b)
  have hkey : (4096 * c + k) / 4096 = c := by omega
  simp only [hni, State.openClean, mget_filter_key (fun n => decide (n / 4096 ≠ c)), hkey, ne_eq, not_true, decide_false, Bool.false_eq_true, if_false]

/-- A FREE context that no channel is owned by leaves nothing of the channels' to take back. -/
theorem State.openClean_of_unowned (h : ∀ k, k < 72 → s.teOwnerOf k ≠ some c) : (s.openClean c).mem = s.mem ∧ (s.openClean c).tiles = s.tiles := by
  have hfold : (List.range 72).foldl (fun s k => if s.teOwnerOf k = some c then s.retireTe k else s) s = s :=
    foldl_eq_self fun k hk => if_neg (h k (List.mem_range.mp hk))
  simp only [State.openClean, hfold, and_self]

/-! ## The end of a retire -/

/-- The context's pages, frames and walks leave memory, and its withheld SRAM is withheld from all (R400, R402). -/
def State.releaseMem (s : State) (c : Nat) : State :=
  { s with mem := { s.mem with
    pages := s.mem.pages.filter (fun p => p.ctx != c), frames := s.mem.frames.filter (fun f => !f.ofCtx c), walkUe := s.mem.walkUe.filter (fun x => x.1 != c),
    sramHeld := s.mem.sramHeld.map fun (h : SramHold) => if h.ctx = c then { h with ctx := 0 } else h } }

/-- The windows of a context, committed and staged, at their default. -/
def State.clearWindows (s : State) (c : Nat) : State :=
  (List.range 64).foldl (fun s w => (s.clro (Obj.window c w)).clro (Obj.windowStaged c w)) s

/-- The other traces of a context that has retired with a job number, and its end (R400). -/
def State.retireRest (s : State) (c job : Nat) : State :=
  let s := s.clro (Obj.tileSet c)
  let x := s.ctxs
  let s := { s with
    ctxs := { x with imageKey := mdel x.imageKey c, stagedTiles := mdel x.stagedTiles c, retireJob := mdel x.retireJob c,
                     frozenReads := x.frozenReads.filter fun p => decide (p.1 % 64 ≠ c) }
    sec := { s.sec with images := mdel s.sec.images c, chains := mdel s.sec.chains c, commits := mdel s.sec.commits c } }
  let s := ((s.clro (Obj.tenantSessionKey c)).wr (Obj.protEpoch c) 0).clr (Obj.ctxFlagsInForce c)
  let s := (s.clr (Obj.niEncRequired c)).wr (Obj.retireStep c) 0
  let s := ((s.bump Obj.retires).setCtxState c ctxFree).event 0x6003 0x0D c c 2 job 0
  s.wr (Obj.ctxStatus c) 0x0200

theorem State.retireEnd_eq :
    s.retireEnd c = (((s.releaseMem c).syncMapped c).clearWindows c).retireRest c (mgetD s.ctxs.retireJob c 0) := rfl

theorem State.clearWindows_mem : (s.clearWindows c).mem = s.mem := by
  unfold State.clearWindows
  exact foldl_keeps (P := fun x : State => x.mem = s.mem) (fun u w hu => by simpa [State.clro] using hu) (List.range 64) s rfl

theorem State.retireRest_mem (job : Nat) : (s.retireRest c job).mem = s.mem := by
  simp only [State.retireRest, State.wr_mem, State.event_mem]
  rfl

theorem State.retireEnd_mem : (s.retireEnd c).mem = (s.releaseMem c).mem := by
  rw [State.retireEnd_eq, State.retireRest_mem, State.clearWindows_mem, State.syncMapped_mem]

theorem State.rd_retireRest (job : Nat) (hc : c < 64) : (s.retireRest c job).rd (Obj.ctxState c) = ctxFree ∧ (s.retireRest c job).rd (Obj.protEpoch c) = 0 ∧
    (s.retireRest c job).rd (Obj.retireStep c) = 0 := by
  have hc' : c < 256 := by omega
  have hstat : ∀ o ∈ [Obj.ctxState c, Obj.protEpoch c, Obj.retireStep c], (Obj.ctxStatus c).key ≠ o.key ∧ Obj.erRecordsLost.key ≠ o.key := by
    simp [Obj.ctxStatus, Obj.ctxState, Obj.protEpoch, Obj.retireStep, Obj.erRecordsLost, objKey_eq_iff, hc']
  have hstate : ∀ o ∈ [Obj.protEpoch c, Obj.retireStep c], (Obj.ctxState c).key ≠ o.key ∧ Obj.ctxOpenMask.key ≠ o.key ∧
      Obj.confidentialResident.key ≠ o.key ∧ Obj.retires.key ≠ o.key := by
    simp [Obj.ctxState, Obj.ctxOpenMask, Obj.confidentialResident, Obj.retires, Obj.protEpoch, Obj.retireStep, objKey_eq_iff, hc']
  have hepoch : ∀ o ∈ [Obj.ctxFlagsInForce c, Obj.niEncRequired c, Obj.retireStep c], o.key ≠ (Obj.protEpoch c).key := by
    simp [Obj.ctxFlagsInForce, Obj.niEncRequired, Obj.retireStep, Obj.protEpoch, objKey_eq_iff, hc']
  simp only [List.forall_mem_cons, List.not_mem_nil, false_imp_iff, implies_true, and_true] at hstat hstate hepoch
  obtain ⟨⟨hs1, hs2⟩, ⟨he1, he2⟩, hr1, hr2⟩ := hstat
  obtain ⟨⟨he3, he4, he5, he6⟩, hr3, hr4, hr5, hr6⟩ := hstate
  obtain ⟨hf, hn, hr⟩ := hepoch
  refine ⟨?_, ?_, ?_⟩ <;> unfold State.retireRest
  · rw [State.rd_wr_ne _ _ _ _ hs1, State.rd_event _ _ _ _ _ _ _ _ _ hs2, State.rd_setCtxState_same _ hc]
  · rw [State.rd_wr_ne _ _ _ _ he1, State.rd_event _ _ _ _ _ _ _ _ _ he2, State.rd_setCtxState_ne _ he3 he4 he5, State.rd_bump, if_neg he6,
      State.rd_wr_ne _ _ _ _ hr, State.clr, State.rd_wr_ne _ _ _ _ hn, State.clr, State.rd_wr_ne _ _ _ _ hf, State.rd_wr_same]
  · rw [State.rd_wr_ne _ _ _ _ hr1, State.rd_event _ _ _ _ _ _ _ _ _ hr2, State.rd_setCtxState_ne _ hr3 hr4 hr5, State.rd_bump, if_neg hr6, State.rd_wr_same]

/-- What remains of a context that has retired (R400, R402). -/
theorem State.retireEnd_leaves (h0 : 0 < c) (hc : c < 64) : (s.retireEnd c).ctxSt c = ctxFree ∧ (s.retireEnd c).rd (Obj.protEpoch c) = 0 ∧
    (s.retireEnd c).rd (Obj.retireStep c) = 0 ∧ (∀ p ∈ (s.retireEnd c).mem.pages, p.ctx ≠ c) ∧ (∀ h ∈ (s.retireEnd c).mem.sramHeld, h.ctx ≠ c) ∧
    (s.retireEnd c).mem.bytes = s.mem.bytes := by
  obtain ⟨hst, hepoch, hstep⟩ := State.rd_retireRest (s := ((s.releaseMem c).syncMapped c).clearWindows c) (mgetD s.ctxs.retireJob c 0) hc
  refine ⟨(State.ctxSt_of_pos h0).trans hst, hepoch, hstep, ?_, ?_, ?_⟩ <;> rw [State.retireEnd_mem]
  · intro p hp
    simpa using (List.mem_filter.mp hp).2
  · intro h hh
    obtain ⟨old, -, rfl⟩ := List.mem_map.mp hh
    split
    · exact h0.ne
    · assumption
  · rfl

/-! ## Shootdowns and fills -/

/-- The last cache that acknowledges leads to what follows the shootdown (R170). -/
theorem exec_shootdownAck_last {k cache : Nat} {h : Shootdown} (hk : s.mem.shoots[k]? = some h) (hlast : h.waiting.filter (fun x => x != cache) = []) :
    exec (.shootdownAck k cache) s = .next ({ s with mem := { s.mem with shoots := s.mem.shoots.eraseIdx k } }.shootDone { h with waiting := [] }) := by
  change execShootdownAck k cache s = _
  simp only [execShootdownAck, hk, hlast, List.isEmpty_nil, if_true]

theorem exec_shootdownAck_more {k cache : Nat} {h : Shootdown} (hk : s.mem.shoots[k]? = some h) (hmore : h.waiting.filter (fun x => x != cache) ≠ []) :
    exec (.shootdownAck k cache) s =
      .next { s with mem := { s.mem with shoots := s.mem.shoots.set k { h with waiting := h.waiting.filter fun x => x != cache } } } := by
  change execShootdownAck k cache s = _
  simp only [execShootdownAck, hk, List.isEmpty_iff, if_neg hmore]

/-- A fill of a retire that ends leads to step 5 when it was the last (R400). -/
theorem exec_retireFillDone {f : Fill} (hf : s.fillReady (·.ofRetire c) = some f) : exec (.retireFillDone c) s = .next ((s.fillDone f).retireCheck c) := by
  change execRetireFillDone c s = _
  simp only [execRetireFillDone, hf]

/-- Settles O26: a command of `ctx_cmd` by the checks that it passes, an opened and a retired context by the objects written, a shootdown by who has still to acknowledge
it, a fill by what is left to fill. -/
theorem contextLife : Obligations.ContextLife := by
  unfold Obligations.ContextLife
  refine ⟨?opens, ?rngFailed, ?opened, ?retire, ?retiring, ?retireHouse, ?noAccess, ?quietEnd, ?lastAck, ?ack, ?lastFill, ?fill, ?fillHeld, ?retired, ?jobHold⟩
  case opens =>
    intro s w c b hw hop hc hlen h0 hidle hwf hfree hrng
    exact accepted_of_ctl (exec_contextOpen hop) hw (by simp [State.openCmd_of_free hc hlen h0 hidle hwf hfree, hrng])
  case rngFailed =>
    intro s w c b hw hop hc hlen h0 hidle hwf hfree hrng
    exact accepted_of_ctl (exec_contextOpen hop) hw (by simp [State.openCmd_of_free hc hlen h0 hidle hwf hfree, hrng])
  case opened =>
    intro s c b h0 hc hb
    obtain ⟨-, hweight, hpool, hquota, hepoch, hjob⟩ := State.rd_openCtx (s := s) (b := b) hc
    obtain ⟨hmem, htiles, -⟩ := State.openCtx_frame (s := s) (c := c) (b := b)
    refine ⟨State.ctxSt_openCtx h0 hc, hweight, hpool, hquota, hepoch, hjob, State.confidential_openCtx h0 hc hb, fun k hk => State.ranks_openCtx hk, fun hown => ?_⟩
    obtain ⟨hmem', htiles'⟩ := State.openClean_of_unowned hown
    exact ⟨hmem.trans hmem', htiles.trans htiles'⟩
  case retire =>
    intro s w c b hw hop hc hlen h0 hz hopen hafter hprot
    exact accepted_of_ctl (exec_contextRetire hop) hw (State.retireCmd_open hc hlen h0 hz hopen hafter hprot)
  case retiring =>
    intro s w c b hw hop hc hlen h0 hz hret
    exact accepted_of_ctl (exec_contextRetire hop) hw (State.retireCmd_retiring hc hlen h0 hz hret)
  case retireHouse =>
    intro s w b hw hop hlen ha
    have hcmd : s.retireCmd 0 b = (s.wr (Obj.ctxStatus 0) 0x0203, rRefused) := by simp [State.retireCmd, hlen, cxNotOpen]
    rw [exec_contextRetire hop, State.ctl_answered ha hw hcmd (by decide)]
  case noAccess =>
    exact fun s w c b hw hop => denied_noAccess_of_ctl (exec_contextOpen hop) hw
  case quietEnd =>
    intro s c h0 hret hstep
    change execRetireQuietEnd c s = _
    simp [execRetireQuietEnd, h0, hret, hstep]
  case lastAck =>
    exact fun s k cache h hk hlast => exec_shootdownAck_last hk hlast
  case ack =>
    exact fun s k cache h hk hmore => exec_shootdownAck_more hk hmore
  case lastFill =>
    intro s c f hf hnone
    rw [exec_retireFillDone hf, State.retireCheck, if_neg (by simp [hnone])]
  case fill =>
    intro s c f hf hmore
    rw [exec_retireFillDone hf, State.retireCheck, if_pos hmore]
  case fillHeld =>
    intro s c hnone hfills
    change execRetireFillDone c s = _
    simp [execRetireFillDone, hnone, State.retireCheck, hfills]
  case retired =>
    exact fun s c h0 hc => State.retireEnd_leaves h0 hc
  case jobHold =>
    exact fun s j => rfl

end Sys2Proof.Machine
end

section
/-! A descriptor that starts, a migration and its copy, and the page frame that a migration leaves (R191, R192, R198, R201 to R204). -/

namespace Sys2Proof.Machine

open Sys2Proof

variable {s u : State} {c mode : Nat} {a : TeActive}

/-! ## Descriptors that start -/

theorem Starts.mode_eq (h : Starts s c mode a u) : dMode a.bytes = mode := by
  obtain ⟨d, q, -, hmode, -, -, rfl, -⟩ := h
  exact hmode

/-- A descriptor that is put among those in progress has met no held tile yet. -/
theorem Starts.heldHit_eq (h : Starts s c mode a u) : u.heldHit = s.heldHit := by
  obtain ⟨d, q, -, -, -, -, -, rfl⟩ := h
  rfl

/-- The oldest descriptor of a channel goes on as its mode does (R192, R198). -/
theorem Starts.teStart {want : Nat → Bool} {k : State → TeActive → State} (h : Starts s c mode a u) (hwant : want mode = true) :
    s.teStart c want k = s.unlessHeld (k u a) := by
  obtain ⟨d, q, hqueue, rfl, hmay, hgood, rfl, rfl⟩ := h
  have howner (v : TeChan) : (s.setChan c v).teOwnerOf c = s.teOwnerOf c := rfl
  have hgood' (v : TeChan) : (s.setChan c v).teMalformed c d.bytes = false := hgood
  simp only [State.teStart, hqueue, hwant, hmay, hgood', howner, State.chan_setChan, State.rd_setChan, State.setChan_setChan, Bool.not_true, Bool.false_eq_true, or_self,
    if_false]

@[simp] theorem State.updActive_heldHit (n : Nat) (f : TeActive → TeActive) : (s.updActive c n f).heldHit = s.heldHit := rfl

/-! ## The start of a migration -/

/-- A MIGRATE of a page that lies elsewhere takes the free page for it, and waits for the shootdown (R201, R202 step 1). -/
theorem State.migrateTry_moves {ctx pa : Nat} {p : PageEnt} (hctx : (s.teOwnerOf c).getD 0 = ctx) (hwin : s.check ctx .te permRead (teLoc ctx (dSrc a.bytes)) 1 = none)
    (hpage : s.pageOf ctx (dSrc a.bytes) = some p) (hstill : p.moving = false) (haway : s.alreadyThere p.pa (dAux a.bytes % 256) (dAux a.bytes / 256 % 256) = false)
    (hfree : s.takePage (dAux a.bytes % 256) (dAux a.bytes / 256 % 256) p.big = some pa) :
    s.migrateTry c a = (({ s with mem := { s.mem with
      pages := s.mem.pages.map fun (q : PageEnt) => if q = p then { q with moving := true } else q
      frames := s.mem.frames ++ [(⟨pa, p.big, .reserved⟩ : Frame)]
      moves := s.mem.moves ++ [(⟨c, a.serial, ctx, p.va, p.big, p.pa, pa, 0, false, false⟩ : Move)] } }.syncMem).shoot
        (.migrateStart (moveKey c a.serial)) []).updActive c a.serial fun x => { x with phase := .working } := by
  subst hctx
  simp only [State.migrateTry, hwin, hpage, hstill, haway, hfree, Bool.false_eq_true, if_false]

/-- While no MIGRATE of the channel waits, TE_MIGRATE is the next descriptor's start (R198). -/
theorem exec_teMigrate_starts (hnone : (s.chan c).active.filter (fun a => a.phase == .waitPage || a.phase == .waitMove) = []) (h : Starts s c 6 a u)
    (hheld : (u.migrateTry c a).heldHit = s.heldHit) : exec (.teMigrate c) s = .next (u.migrateTry c a) := by
  change execTeMigrate c s = _
  simp only [execTeMigrate, hnone, List.foldl_nil, h.teStart (want := (· == 6)) rfl, State.unlessHeld_of_eq hheld]

/-! ## The copy and its end -/

/-- A granule that is read without error is copied with its check, and the cursor goes on (R202 step 2). -/
theorem exec_migrationGranuleCopied_good {k : Nat} {m : Move} {r : State × Status × Bytes} (hmove : s.moveOf c k = some m) (hstart : m.started = true)
    (hmore : m.cursor < granulesOf m.big) (hread : s.readBlock (m.src + 128 * m.cursor) 128 = r) (hok : r.2.1 = .ok) :
    exec (.migrationGranuleCopied c k) s = .next ({ r.1.clearMark (m.dst + 128 * m.cursor) with
      mem := (r.1.clearMark (m.dst + 128 * m.cursor)).mem.put (m.dst + 128 * m.cursor) r.2.2 }.setMove { m with cursor := m.cursor + 1 }) := by
  subst hread
  change execMigrationGranuleCopied c k s = _
  simp [execMigrationGranuleCopied, hmove, hstart, Nat.not_le.mpr hmore, hok]

/-- Memory that cannot be filled is withheld: a frame of its page or a range of a tile, and no byte and no mapping (R402). -/
theorem State.withhold_mem (f : Fill) : ∃ frames held, (s.withhold f).mem = { s.mem with frames := frames, sramHeld := held } := by
  have hmem : ((s.bumpSat Obj.pagesWithheld 32).exhausted 0x00 0 7 false).mem = s.mem := State.exhausted_mem _ _ _ _ _
  unfold State.withhold
  split <;> exact ⟨_, _, by dsimp only; rw [hmem]⟩

/-- A fill that is asked for changes no byte and no mapping before it ends (R402). -/
theorem State.addFill_mem (why : FillWhy) (base len : Nat) :
    ∃ frames held fills, (s.addFill why base len).mem = { s.mem with frames := frames, sramHeld := held, fills := fills } := by
  unfold State.addFill
  split
  · exact ⟨_, _, _, rfl⟩
  · obtain ⟨frames, held, h⟩ := s.withhold_mem ⟨why, base, len, 0⟩
    exact ⟨frames, held, _, h⟩

theorem State.releaseFrame_mem (pa : Nat) (big : Bool) :
    ∃ frames held fills, (s.releaseFrame pa big).mem = { s.mem with frames := frames, sramHeld := held, fills := fills } := by
  obtain ⟨frames, held, fills, h⟩ := State.addFill_mem (s := { s with mem := { s.mem with
    frames := s.mem.frames.map fun (f : Frame) => if f.pa = pa then { f with use := .filling } else f } }) (.page pa) pa (pageSize big)
  exact ⟨frames, held, fills, h⟩

theorem State.wakeUnmaps_none (h : s.mem.waitUnmap = []) : s.wakeUnmaps.mem = s.mem := by
  simp only [State.wakeUnmaps, h, List.foldl_nil]
  rw [← h]

/-- At the end of its copy a page's entry points to the destination, and no byte changes (R202 steps 3 and 4). -/
theorem exec_migrationCopyDone_moves {k : Nat} {m : Move} (hmove : s.moveOf c k = some m) (hend : m.cursor = granulesOf m.big) (hnone : s.mem.waitUnmap = []) :
    ∃ t, exec (.migrationCopyDone c k) s = .next t ∧
      t.mem.pages = s.mem.pages.map (fun (p : PageEnt) => if p.ctx = m.ctx ∧ p.va = m.va then { p with pa := m.dst, moving := false } else p) ∧
      t.mem.bytes = s.mem.bytes := by
  obtain ⟨v, hv⟩ : ∃ v : State, v = { s.dropMove m with mem := { (s.dropMove m).mem with
    pages := s.mem.pages.map fun (p : PageEnt) => if p.ctx = m.ctx ∧ p.va = m.va then { p with pa := m.dst, moving := false } else p
    frames := s.mem.frames.map fun (f : Frame) => if f.pa = m.dst then { f with use := .mapped m.ctx } else f } } := ⟨_, rfl⟩
  obtain ⟨frames, held, fills, hrel⟩ := v.releaseFrame_mem m.src m.big
  obtain ⟨t, ht⟩ : ∃ t : State, t = ((v.releaseFrame m.src m.big).bump Obj.migrations).teEnd c k (if m.ue then .uncorrectable else .ok) tdNone
    (pageSize m.big) := ⟨_, rfl⟩
  have hexec : exec (.migrationCopyDone c k) s = .next t.wakeUnmaps := by
    change execMigrationCopyDone c k s = _
    simp only [execMigrationCopyDone, hmove, hend, Nat.lt_irrefl, if_false, ht, hv]
    rfl
  have hmem : t.mem = { v.mem with frames := frames, sramHeld := held, fills := fills } := by
    rw [ht, ← hrel]
    rfl
  have hwake : t.wakeUnmaps.mem = t.mem := State.wakeUnmaps_none (by rw [hmem, hv]; exact hnone)
  refine ⟨_, hexec, ?_, ?_⟩
  · rw [hwake, hmem, hv]
  · rw [hwake, hmem, hv]
    rfl

/-- Settles O29: a MIGRATE by the page that it moves and the page that it takes, a wait by whether it lasts, a copy by its granule, its end by what is written in the
tables. -/
theorem migration : Obligations.Migration := by
  unfold Obligations.Migration
  refine ⟨?starts, ?expires, ?waitsNot, ?granule, ?done⟩
  case starts =>
    intro s c a u p pa hnone h hwin hpage hstill haway hfree
    have htry := State.migrateTry_moves rfl hwin hpage hstill haway hfree
    rw [exec_teMigrate_starts hnone h (by rw [htry]; exact h.heldHit_eq), htry]
  case expires =>
    intro s c k a h
    change execMigrateWaitExpiry c k s = _
    simp only [execMigrateWaitExpiry, h]
    rfl
  case waitsNot =>
    intro s c k h
    change execMigrateWaitExpiry c k s = _
    simp only [execMigrateWaitExpiry, h]
  case granule => exact fun s c k m r hmove hstart hmore hread hok => exec_migrationGranuleCopied_good hmove hstart hmore hread hok
  case done => exact fun s c k m hmove hend hnone => exec_migrationCopyDone_moves hmove hend hnone

end Sys2Proof.Machine
end

section
/-! Host transfers over a queue pair: how a descriptor sends its requests, and what answers, timeouts and a port that is down do to it (R199, R205, R206, R211). -/

namespace Sys2Proof.Machine

open Sys2Proof

variable {s u : State} {c h q mode : Nat} {a : TeActive} {w : Who} {v : Bytes}

/-! ## Requests -/

@[simp] theorem State.sendRdma_heldHit (l : List RdmaPkt) (next : Nat) : (s.sendRdma h q l next).heldHit = s.heldHit :=
  foldl_keeps (P := fun t : State => t.heldHit = s.heldHit) (f := fun s x => s.emit (.rdma h q x)) (fun _ _ ht => ht) l _ rfl

/-- On a READY queue pair a READ is one request (R206). -/
theorem State.hostStart_read (hready : s.rd (Obj.hteQpState (c - 64) (dCount a.bytes)) = qpReady) (hmode : dMode a.bytes = 8) :
    s.hostStart c a = s.sendRdma (c - 64) (dCount a.bytes) [⟨(s.qp (c - 64) (dCount a.bytes)).psn, 0x0C, dAux a.bytes, dLen a.bytes, a.serial, [], none⟩]
      (((s.qp (c - 64) (dCount a.bytes)).psn + pktCount (s.qpMtu (c - 64) (dCount a.bytes)) (dLen a.bytes)) % 2 ^ 24) := by
  simp only [State.hostStart, hready, hmode, ne_eq, not_true, if_false, if_true]

/-- On a READY queue pair a WRITE whose source is read whole goes out in packets of the path MTU; the mode that carries immediate data takes it from the tag (R206). -/
theorem State.hostStart_write {r : AccR} (hready : s.rd (Obj.hteQpState (c - 64) (dCount a.bytes)) = qpReady) (hmode : dMode a.bytes ≠ 8)
    (hread : s.read ((s.teOwnerOf c).getD 0) .hte permRead (teLoc ((s.teOwnerOf c).getD 0) (dSrc a.bytes)) (dLen a.bytes) = r) (hok : r.st = .ok) (hwin : r.win = false)
    (hdata : r.data ≠ []) :
    s.hostStart c a = (r.s.updActive c a.serial fun x => { x with status := .ok, detail := tdNone, failAddr := r.addr }).sendRdma (c - 64) (dCount a.bytes)
      (writePkts (cdiv r.data.length (s.qpMtu (c - 64) (dCount a.bytes))) (s.qpMtu (c - 64) (dCount a.bytes)) (s.qp (c - 64) (dCount a.bytes)).psn (dAux a.bytes) a.serial
        r.data (if dMode a.bytes = 10 then some (leNat (dTag a.bytes)) else none))
      (((s.qp (c - 64) (dCount a.bytes)).psn + cdiv r.data.length (s.qpMtu (c - 64) (dCount a.bytes))) % 2 ^ 24) := by
  simp only [State.hostStart, hready, hmode, hread, hok, hwin, List.isEmpty_iff, hdata, and_true, ne_eq, not_true, Bool.false_eq_true, if_false]

/-- While its priority is not paused, the oldest host descriptor starts in its mode's row (R206, R432). -/
theorem Starts.hostGo (hs : Starts s c mode a u) (hgoes : s.qpPaused (c - 64) (dCount a.bytes) = false) (hheld : (u.hostStart c a).heldHit = s.heldHit) :
    s.hostGo c mode = u.hostStart c a := by
  have hhead : ((s.chan c).queue.head?.any fun d => s.qpPaused (c - 64) (dCount d.bytes)) = false := by
    obtain ⟨d, l, hqueue, -, -, -, rfl, -⟩ := hs
    simpa [hqueue] using hgoes
  simp only [State.hostGo, hhead, Bool.false_eq_true, if_false, hs.teStart (want := (· == mode)) (beq_self_eq_true mode), State.unlessHeld_of_eq hheld]

/-- The row of a WRITE, by the immediate data that its mode carries. -/
theorem Starts.hostGo_write {r : AccR} (hs : Starts s c mode a u) (hmode : mode ≠ 8) (hgoes : s.qpPaused (c - 64) (dCount a.bytes) = false)
    (hready : u.rd (Obj.hteQpState (c - 64) (dCount a.bytes)) = qpReady)
    (hread : u.read ((u.teOwnerOf c).getD 0) .hte permRead (teLoc ((u.teOwnerOf c).getD 0) (dSrc a.bytes)) (dLen a.bytes) = r) (hok : r.st = .ok) (hwin : r.win = false)
    (hheld : r.s.heldHit = s.heldHit) (hdata : r.data ≠ []) :
    s.hostGo c mode = (r.s.updActive c a.serial fun x => { x with status := .ok, detail := tdNone, failAddr := r.addr }).sendRdma (c - 64) (dCount a.bytes)
      (writePkts (cdiv r.data.length (u.qpMtu (c - 64) (dCount a.bytes))) (u.qpMtu (c - 64) (dCount a.bytes)) (u.qp (c - 64) (dCount a.bytes)).psn (dAux a.bytes) a.serial
        r.data (if mode = 10 then some (leNat (dTag a.bytes)) else none))
      (((u.qp (c - 64) (dCount a.bytes)).psn + cdiv r.data.length (u.qpMtu (c - 64) (dCount a.bytes))) % 2 ^ 24) := by
  have hstart := State.hostStart_write hready (hs.mode_eq ▸ hmode) hread hok hwin hdata
  rw [hs.mode_eq] at hstart
  rw [hs.hostGo hgoes (by rw [hstart, State.sendRdma_heldHit, State.updActive_heldHit, hheld]), hstart]

/-! ## Answers -/

/-- While a READ is the oldest request that waits, an acknowledgement ends no WRITE (R206). -/
theorem State.ackWrites_of_read {x : RdmaPkt} {l : List RdmaPkt} (n : Nat) (hwait : (s.qp h q).unacked = x :: l) (hop : x.op = 0x0C) : s.ackWrites h q n = s := by
  have hne : ¬(x.op = 0x0A ∧ psnDist x.psn n < 2 ^ 23) := by simp [hop]
  simp only [State.ackWrites, hwait, ackedWrites, if_neg hne, List.isEmpty_nil, if_true]

/-- The far end refuses a READ: it ends with VIOLATION, and the queue pair fails (R206). -/
theorem exec_rdmaResponse_refused {r : RdmaResp} {x : RdmaPkt} {l : List RdmaPkt} (hready : s.rd (Obj.hteQpState h q) = qpReady) (hkind : r.kind = 1) (hlow : 0 < r.code)
    (hhigh : r.code < 32) (hwait : (s.qp h q).unacked = x :: l) (hop : x.op = 0x0C) :
    exec (.rdmaResponse h q r) s = .next (s.qpFail h q (· == x.serial) .violation tdRemoteAccess) := by
  have hcode : ¬(r.code = 0 ∨ r.code ≥ 32) := by omega
  change execRdmaResponse h q r s = _
  simp only [execRdmaResponse, hready, hkind, State.ackWrites_of_read _ hwait hop, if_neg hcode, hwait, List.head?_cons, ne_eq, not_true, one_ne_zero, OfNat.one_ne_ofNat,
    if_false]

/-! ## Configuration -/

/-- A good configuration of a queue pair of a DISABLED channel is taken, and the queue pair starts afresh (R205, R211). -/
theorem State.setQpCfg_ready (hlen : v.length = 32) (h19 : byteAt v 19 = 0) (h23 : byteAt v 23 = 1) (hz : allZero (slice v 24 8) = true) (h20 : byteAt v 20 ≤ 1)
    (h21 : byteAt v 21 ≤ 1) (hdis : s.rd (Obj.teState (64 + h)) = ustDisabled) :
    s.setQpCfg h q v = (((s.wro (Obj.hteQp h q) v).setQp h q HteQp.init).wr (Obj.hteQpState h q) qpReady, rOk) := by
  have hwf : ¬(byteAt v 19 ≠ 0 ∨ byteAt v 23 > 1 ∨ (!allZero (slice v 24 8)) = true) := by simp [h19, h23, hz]
  have hrange : ¬(byteAt v 20 > 1 ∨ byteAt v 21 > 1) := by omega
  have hvalid : bit (byteAt v 23) 0 = true := by rw [h23]; decide
  simp only [State.setQpCfg, hlen, hdis, if_neg hwf, if_neg hrange, hvalid, ne_eq, not_true, if_false, if_true]

/-- Settles O31: a host descriptor by the requests of its mode, an answer or a timeout by what waits on the queue pair, a configuration as a control write. -/
theorem hostTransfers : Obligations.HostTransfers := by
  unfold Obligations.HostTransfers
  refine ⟨?read, ?write, ?writeImm, ?request, ?ack, ?data, ?refused, ?expired, ?again, ?mark, ?portDown, ?config⟩
  case read =>
    intro s c a u hs hgoes hready
    have hstart := State.hostStart_read hready hs.mode_eq
    have hheld : (u.hostStart c a).heldHit = s.heldHit := by rw [hstart, State.sendRdma_heldHit, hs.heldHit_eq]
    exact congrArg Host.Outcome.next ((hs.hostGo hgoes hheld).trans hstart)
  case write =>
    exact fun s c a u r hs hgoes hready hread hok hwin hheld hdata =>
      congrArg Host.Outcome.next (hs.hostGo_write (by decide) hgoes hready hread hok hwin hheld hdata)
  case writeImm =>
    exact fun s c a u r hs hgoes hready hread hok hwin hheld hdata =>
      congrArg Host.Outcome.next (hs.hostGo_write (by decide) hgoes hready hread hok hwin hheld hdata)
  case request => exact fun s p q => rfl
  case ack =>
    intro s h q r hready hkind
    change execRdmaResponse h q r s = _
    simp [execRdmaResponse, hready, hkind]
  case data =>
    intro s h q r hready hkind
    change execRdmaResponse h q r s = _
    simp [execRdmaResponse, hready, hkind]
  case refused => exact fun s h q r x l hready hkind hlow hhigh hwait hop => exec_rdmaResponse_refused hready hkind hlow hhigh hwait hop
  case expired =>
    intro s h q x l hwait hmany
    change execRdmaAckTimeout h q s = _
    simp [execRdmaAckTimeout, hwait, hmany]
  case again =>
    intro s h q x l hwait hfew
    change execRdmaAckTimeout h q s = _
    simp [execRdmaAckTimeout, hwait, Nat.not_le.mpr hfew]
  case mark => exact fun s h q => rfl
  case portDown => exact fun s h q hdown huses => congrArg Host.Outcome.next (if_pos ⟨hdown, huses⟩)
  case config =>
    intro s w h q v hw hh hq hlen h19 h23 hz h20 h21 hdis
    have hexists : ¬(h ≥ 8 ∨ q ≥ 16) := by omega
    exact accepted_of_ctl rfl hw (by rw [if_neg hexists, State.setQpCfg_ready hlen h19 h23 hz h20 h21 hdis])

end Sys2Proof.Machine
end

section
/-! Links and lanes: what the named operations on them change, and where their objects lie (R213, R217, R236, R247, R445). -/

namespace Sys2Proof.Machine

open Sys2Proof

/-! ## Keys -/

theorem keySub_objKey {n : Nat} (a e : Nat) (hn : n < 256) : keySub (objKey a e n) = n := by
  simp only [keySub, objKey]
  omega

/-- Objects of different subs are different objects. -/
theorem key_ne_of_sub {o p : Obj} (h : keySub o.key ≠ keySub p.key) : o.key ≠ p.key := fun e => h (e ▸ rfl)

theorem keySub_erRecordsLost : keySub Obj.erRecordsLost.key = 0 := keySub_objKey _ _ (by omega)
theorem keySub_laneSubstitutions : keySub Obj.laneSubstitutions.key = 0 := keySub_objKey _ _ (by omega)
theorem keySub_linkState (p : Nat) : keySub (Obj.linkState p).key = 2 := keySub_objKey _ _ (by omega)
theorem keySub_farEnd (p : Nat) : keySub (Obj.farEnd p).key = 3 := keySub_objKey _ _ (by omega)
theorem keySub_sparesFree (p : Nat) : keySub (Obj.sparesFree p).key = 4 := keySub_objKey _ _ (by omega)
theorem keySub_fecCorrected (p : Nat) : keySub (Obj.fecCorrected p).key = 5 := keySub_objKey _ _ (by omega)
theorem keySub_fecUncorrected (p : Nat) : keySub (Obj.fecUncorrected p).key = 6 := keySub_objKey _ _ (by omega)
theorem keySub_laneBerEst (p i : Nat) : keySub (Obj.laneBerEst p i).key = 4 := keySub_objKey _ _ (by omega)
theorem keySub_laneEyeMv (p i : Nat) : keySub (Obj.laneEyeMv p i).key = 5 := keySub_objKey _ _ (by omega)
theorem keySub_laneState {dir : Nat} (p i : Nat) (hdir : dir < 2) : keySub (Obj.laneState p i dir).key = dir := keySub_objKey _ _ (by omega)
theorem keySub_laneLogical {dir : Nat} (p i : Nat) (hdir : dir < 2) : keySub (Obj.laneLogical p i dir).key = 2 + dir := keySub_objKey _ _ (by omega)

theorem keyArea_laneState {p i dir : Nat} (hp : p < 18) (hi : i < 18) (hdir : dir < 2) : keyArea (Obj.laneState p i dir).key = 0x30 := by
  simp only [keyArea, Obj.laneState, objKey]
  omega

theorem keyArea_d2dState {l : Nat} (hl : l < 53) : keyArea (Obj.d2dState l).key = 0x30 := by
  simp only [keyArea, Obj.d2dState, objKey]
  omega

/-! ## Links and flits -/

variable {s : State} {o : Obj} {p dir i : Nat}

/-- The row of an event of an UP link does not idle. -/
theorem not_down (hp : p < 18) (hup : s.rd (Obj.linkState p) = linkUp) : ¬(p ≥ 18 ∨ s.rd (Obj.linkState p) ≠ linkUp) := by
  simp [Nat.not_le.mpr hp, hup]

theorem State.rd_sendFlits (b : Bytes) : (s.sendFlits p b).rd o = s.rd o := rfl

/-! ## Lanes -/

theorem State.setLane_mem (st : Nat) : (s.setLane p dir i st).mem = s.mem := by
  unfold State.setLane
  split_ifs <;> simp

/-- A position's change of state moves its state object and nothing else. -/
theorem State.rd_setLane (st : Nat) : (s.setLane p dir i st).rd o = (s.goState (Obj.laneState p i dir) 0x06 (laneUnit p i) st).rd o := by
  unfold State.setLane
  split_ifs <;> simp

theorem State.rd_setLane_ne (st : Nat) (hlost : Obj.erRecordsLost.key ≠ o.key) (h : (Obj.laneState p i dir).key ≠ o.key) : (s.setLane p dir i st).rd o = s.rd o := by
  rw [State.rd_setLane, State.rd_goState_ne _ _ _ _ _ _ hlost h]

theorem State.rd_setLane_same (st : Nat) (hlost : Obj.erRecordsLost.key ≠ (Obj.laneState p i dir).key) : (s.setLane p dir i st).rd (Obj.laneState p i dir) = st := by
  rw [State.rd_setLane, State.rd_goState _ _ _ _ _ hlost]

theorem State.rd_syncSpares (h : (Obj.sparesFree p).key ≠ o.key) : (s.syncSpares p).rd o = s.rd o := s.rd_wr_ne _ _ _ h

end Sys2Proof.Machine
end

section
/-! The link layer and the in-package links (R213, R214, R217, R220 to R229, R482). -/

namespace Sys2Proof.Machine

open Sys2Proof

variable {s u v : State} {p : Nat}

/-! ## Frames (R222 to R226) -/

/-- What LINK_PACKET_RECEIVE makes of the first frame `x` of port `p` in state `s`, where `u` is the state in which its flits are taken. -/
def State.onFrame (s u : State) (p : Nat) : LinkFrame → State
  | .pkt k tr => u.packetIn p k tr
  | .bad q => u.askReplay p q
  | .badCtl => u
  | .wait => s
  | .ctl _ => s

theorem Fronts.receive {x : LinkFrame} (h : Fronts s p x u) : exec (.linkPacketReceive p) s = .next (s.onFrame u p x) := by
  obtain ⟨hp, hup, rest, hframe, rfl⟩ := h
  refine (if_neg (not_down hp hup)).trans ?_
  simp only [hframe]
  cases x <;> rfl

/-- Taking a frame's flits changes those alone. -/
theorem Fronts.link_eq {x : LinkFrame} (h : Fronts s p x u) : ∃ rest, u.link p = { s.link p with rxFlits := rest } := by
  obtain ⟨-, -, rest, -, rfl⟩ := h
  exact ⟨rest, State.link_setLink ..⟩

theorem Fronts.takeCtl {f : CtlFlit} {op : Nat} (h : Fronts s p (.ctl f) v) (hop : f.op = op) : s.takeCtl p op = some (f, v.flitIn p f) := by
  obtain ⟨hp, hup, rest, hframe, rfl⟩ := h
  refine (if_neg (not_down hp hup)).trans ?_
  simp only [hframe, if_pos hop]

/-- A port's link with an accepted packet in its landing buffer, before the trailer's acknowledgement and credits (R223, R224). -/
def LinkPort.accept (l : LinkPort) (id now : Nat) (k : Packet) : LinkPort :=
  { l with rxNext := (l.rxNext + 1) % 2 ^ 24, asked := false, ackDue := true, rxQ := l.rxQ ++ [(⟨id, now, true, k⟩ : RxWait)] }

variable {k : Packet} {tr : Trailer}

theorem State.packetIn_expected (hp : p < 14) (hseq : tr.seq = (s.link p).rxNext) :
    s.packetIn p k tr = ({ s with router := { s.router with nextId := s.router.nextId + 1 } }.setLink p
      (LinkPort.credit (if tr.ackValid then ((s.link p).accept s.router.nextId s.now k).ack tr.ack else (s.link p).accept s.router.nextId s.now k)
        tr.creditVc tr.creditFlits tr.poolCredit)).resident k.parity true := by
  simp only [State.packetIn, if_pos hseq, if_neg (Nat.not_le.mpr hp)]
  rfl

theorem State.packetIn_duplicate (hne : tr.seq ≠ (s.link p).rxNext) (hold : seqDist tr.seq (s.link p).rxNext < 2 ^ 23) : s.packetIn p k tr = s := by
  simp only [State.packetIn, if_neg hne, if_pos hold]

theorem State.askReplay_first (q : Option Nat) (h : (s.link p).asked = false) :
    s.askReplay p q = (s.setLink p { s.link p with asked := true }).sendFlits p (CtlFlit.bytes ((s.link p).flit 2 (s.link p).rxNext 0 0 0)) :=
  if_neg (by simp [h])

theorem State.askReplay_again {q : Option Nat} (h : (s.link p).asked = true) (hq : q ≠ some (s.link p).rxNext) : s.askReplay p q = s := if_pos ⟨h, hq⟩

/-! ## Acknowledgement, replay and loss (R224 to R229) -/

theorem exec_ackDeadline_due (hp : p < 18) (hup : s.rd (Obj.linkState p) = linkUp) (hdue : (s.link p).ackDue = true) (hvc : (s.link p).retVc = [])
    (hpool : (s.link p).retPool = 0) : exec (.ackDeadline p) s =
      .next ((s.setLink p { s.link p with ackDue := false }).sendFlits p (CtlFlit.bytes ⟨1, (s.link p).ackNum, 0, 0, 0, 0, List.replicate 40 0, 0⟩)) := by
  have hcredits : (List.range 40).map (fun v => min 255 (mgetD ([] : NMap Nat) v 0)) = List.replicate 40 0 := by decide
  refine congrArg Host.Outcome.next ((if_neg (by simp [Nat.not_le.mpr hp, hup, hdue])).trans ?_)
  simp only [hvc, hpool, hcredits, Nat.zero_min, Nat.sub_zero, List.filterMap_nil]
  rfl

theorem exec_replayReq {f : CtlFlit} {n : Nat} (h : Fronts s p (.ctl f) v) (hop : f.op = 2) (hu : u = v.flitIn p f)
    (hn : n = if (u.link p).reqCount > 0 ∧ (u.link p).reqNum = f.replayFrom then (u.link p).reqCount + 1 else 1) :
    exec (.replayReq p) s = .next (if n ≥ 8 then (u.setLink p { u.link p with reqNum := f.replayFrom, reqCount := n }).linkLoss p 3
      else (u.setLink p { u.link p with reqNum := f.replayFrom, reqCount := n }).resendFrom p fun h => decide (seqDist f.replayFrom h.tr.seq < 2 ^ 23)) := by
  subst hu hn
  change execReplayReq p s = _
  simp only [execReplayReq, h.takeCtl hop]

theorem exec_replayTimeout (hp : p < 18) (hup : s.rd (Obj.linkState p) = linkUp) (hheld : (s.link p).held ≠ []) :
    exec (.replayTimeout p) s = .next (if (s.link p).timeouts + 1 ≥ 4 then (s.setLink p { s.link p with timeouts := (s.link p).timeouts + 1 }).linkLoss p 3
      else (s.setLink p { s.link p with timeouts := (s.link p).timeouts + 1 }).resendFrom p fun _ => true) :=
  congrArg Host.Outcome.next (if_neg (by simp [Nat.not_le.mpr hp, hup, hheld]))

theorem exec_linkLoss {c : Nat} (hp : p < 18) (hc : c = 1 ∨ c = 2) :
    exec (.linkLoss p c) s = .next (if s.rd (Obj.linkState p) = linkUp then s.linkLoss p c else s.trainingFails p) :=
  congrArg Host.Outcome.next (if_pos ⟨hp, hc⟩)

/-! ## In-package links (R213, R214, R482) -/

section InPackage

variable {l dir seq gen m : Nat} {unit : Bytes}

/-- A direction of an in-package link that has seen unit `seq` sent (R213). -/
def D2dLink.saw (d : D2dLink) (dir seq : Nat) : D2dLink := { d with sent := setDir d.sent dir (max (dirOf d.sent dir) (seq + 1)) }

/-- What D2D_UNIT_RECEIVE makes of a unit of the confirmed generation on an ACTIVE link. -/
theorem exec_d2dUnitReceive_confirmed (hl : d2dExists l = true) (hact : s.rd (Obj.d2dState l) = ustActive) (hgen : mget s.boot.confirmed (d2dDomain l) = some gen) :
    exec (.d2dUnitReceive l dir seq gen unit) s = .next (
      if d2dUnitOk unit ∧ seq = dirOf (s.d2dOf l).rxNext dir then
        s.setD2d l { (s.d2dOf l).saw dir seq with
          rxNext := setDir (s.d2dOf l).rxNext dir (dirOf (s.d2dOf l).rxNext dir + 1), asked := setDir (s.d2dOf l).asked dir false }
      else if d2dUnitOk unit ∧ seq < dirOf (s.d2dOf l).rxNext dir then s
      else if dirOf (s.d2dOf l).asked dir = true ∧ seq ≠ dirOf (s.d2dOf l).rxNext dir then s.setD2d l ((s.d2dOf l).saw dir seq)
      else ((s.setD2d l { (s.d2dOf l).saw dir seq with asked := setDir (s.d2dOf l).asked dir true }).bumpBy (Obj.d2dReplays l)
        (max (dirOf (s.d2dOf l).sent dir) (seq + 1) - dirOf (s.d2dOf l).rxNext dir)).emit (.d2dReplay l dir (dirOf (s.d2dOf l).rxNext dir))) :=
  congrArg Host.Outcome.next (if_neg (by simp [hl, hact, hgen]))

/-- A unit of another generation and a copy of an earlier one are discarded. -/
theorem exec_d2dUnitReceive_discards
    (h : mget s.boot.confirmed (d2dDomain l) ≠ some gen ∨ d2dUnitOk unit = true ∧ seq < dirOf (s.d2dOf l).rxNext dir) :
    exec (.d2dUnitReceive l dir seq gen unit) s = .next s := by
  by_cases hrun : d2dExists l = true ∧ s.rd (Obj.d2dState l) = ustActive ∧ mget s.boot.confirmed (d2dDomain l) = some gen
  · obtain ⟨hl, hact, hgen⟩ := hrun
    have hold := h.resolve_left (fun hne => hne hgen)
    rw [exec_d2dUnitReceive_confirmed hl hact hgen, if_neg (fun hnext => hold.2.ne hnext.2), if_pos hold]
  · refine congrArg Host.Outcome.next (if_pos ?_)
    rw [Bool.not_eq_true_eq_eq_false, ← Bool.not_eq_true, ← Ne, ne_comm (a := some gen)]
    tauto

/-- A unit that fails its check or comes too early has every unit held sent again, once (R213). -/
theorem exec_d2dUnitReceive_bad (hl : d2dExists l = true) (hact : s.rd (Obj.d2dState l) = ustActive) (hgen : mget s.boot.confirmed (d2dDomain l) = some gen)
    (hbad : d2dUnitOk unit = false ∨ dirOf (s.d2dOf l).rxNext dir < seq) :
    exec (.d2dUnitReceive l dir seq gen unit) s = .next (
      if dirOf (s.d2dOf l).asked dir = true ∧ seq ≠ dirOf (s.d2dOf l).rxNext dir then s.setD2d l ((s.d2dOf l).saw dir seq)
      else ((s.setD2d l { (s.d2dOf l).saw dir seq with asked := setDir (s.d2dOf l).asked dir true }).bumpBy (Obj.d2dReplays l)
        (max (dirOf (s.d2dOf l).sent dir) (seq + 1) - dirOf (s.d2dOf l).rxNext dir)).emit (.d2dReplay l dir (dirOf (s.d2dOf l).rxNext dir))) := by
  have hnot : ¬(d2dUnitOk unit = true ∧ seq ≤ dirOf (s.d2dOf l).rxNext dir) := by
    rcases hbad with hbad | hlt
    · simp [hbad]
    · exact fun h => absurd hlt (Nat.not_lt.mpr h.2)
  rw [exec_d2dUnitReceive_confirmed hl hact hgen, if_neg fun h => hnot ⟨h.1, h.2.le⟩, if_neg fun h => hnot ⟨h.1, h.2.le⟩]

theorem lt_of_d2dExists (h : d2dExists l = true) : l < 53 := by
  simp only [d2dExists, Bool.or_eq_true, decide_eq_true_eq] at h
  omega

theorem key_erRecordsLost_ne_d2dState (hl : l < 53) : Obj.erRecordsLost.key ≠ (Obj.d2dState l).key :=
  key_ne_of_area (a := 0x70) (by rw [keyArea_d2dState hl]; decide) (by decide)

theorem State.d2dOf_of_d2d {t : State} (h : t.d2d = s.d2d) : t.d2dOf l = s.d2dOf l := by simp only [State.d2dOf, h]

theorem State.d2dOf_setD2d (d : D2dLink) : (s.setD2d l d).d2dOf l = d := by simp [State.d2dOf, State.setD2d, mgetD]

/-- A failed lane whose module has a redundant one: the link retrains onto it and stays ACTIVE (R214). -/
theorem exec_d2dLaneFail_repaired (hl : d2dExists l = true) (hact : s.rd (Obj.d2dState l) = ustActive) (hm : m < d2dModules l) (hused : mgetD (s.d2dOf l).used m 0 < 4) :
    ∃ t, exec (.d2dLaneFail l m) s = .next t ∧ t.rd (Obj.d2dState l) = ustActive ∧ mgetD (t.d2dOf l).used m 0 = mgetD (s.d2dOf l).used m 0 + 1 ∧
      t.mem = s.mem ∧ t.links = s.links := by
  have hrun : ¬((!d2dExists l) = true ∨ s.rd (Obj.d2dState l) ≠ ustActive ∨ m ≥ d2dModules l) := by simp [hl, hact, Nat.not_le.mpr hm]
  refine ⟨_, (if_neg hrun).trans (if_pos hused), ?state, ?used, ?mem, ?links⟩
  case state =>
    rw [State.rd_mapNote, State.rd_event _ _ _ _ _ _ _ _ _ (key_erRecordsLost_ne_d2dState (lt_of_d2dExists hl)), State.rd_wr_ne]
    · exact hact
    · simp only [Obj.d2dLanesRepaired, Obj.d2dState, objKey]
      omega
  case used =>
    rw [State.d2dOf_of_d2d (s := s.setD2d l { s.d2dOf l with used := mput (s.d2dOf l).used m (mgetD (s.d2dOf l).used m 0 + 1) }) (by simp), State.d2dOf_setD2d]
    simp [mgetD]
  case mem =>
    simp only [State.mapNote_mem, State.event_mem, State.wr_mem]
    rfl
  case links =>
    simp only [State.mapNote_links, State.event_links, State.wr_links]
    rfl

theorem State.exhausted_links (cls unit k : Nat) (short : Bool) : (s.exhausted cls unit k short).links = s.links := by
  unfold State.exhausted
  cases short <;> simp

theorem State.rd_exhausted {o : Obj} (cls unit k : Nat) (short : Bool) (hspare : Obj.spareExhausted.key ≠ o.key) (hres : Obj.resourcesComplete.key ≠ o.key)
    (hlost : Obj.erRecordsLost.key ≠ o.key) : (s.exhausted cls unit k short).rd o = s.rd o := by
  unfold State.exhausted
  cases short <;> simp [State.rd_event, State.rd_wr_ne, hspare, hres, hlost]

/-- A failed lane whose module has no redundant one left: a link between compute dies fails (R214). -/
theorem exec_d2dLaneFail_fails (hl : l < 14) (hact : s.rd (Obj.d2dState l) = ustActive) (hm : m < d2dModules l) (hused : 4 ≤ mgetD (s.d2dOf l).used m 0) :
    ∃ t, exec (.d2dLaneFail l m) s = .next t ∧ t.rd (Obj.d2dState l) = ustFailed ∧ t.mem = s.mem ∧ t.links = s.links := by
  have hrun : ¬((!d2dExists l) = true ∨ s.rd (Obj.d2dState l) ≠ ustActive ∨ m ≥ d2dModules l) := by simp [d2dExists, hl, hact, Nat.not_le.mpr hm]
  have hstack : ¬(16 ≤ l ∧ l < 48) := by omega
  have hport : ¬ 49 ≤ l := by omega
  have harea := keyArea_d2dState (show l < 53 by omega)
  have hlost := key_erRecordsLost_ne_d2dState (show l < 53 by omega)
  refine ⟨((s.goState (Obj.d2dState l) 0x09 l ustFailed).addFail 0x09 l).exhausted 0x09 l 6 true, ?next, ?state, ?mem, ?links⟩
  case next =>
    refine (if_neg hrun).trans ((if_neg (Nat.not_lt.mpr hused)).trans (congrArg Host.Outcome.next ?_))
    rw [if_neg hstack, if_neg hport]
  case state =>
    have hspare : Obj.spareExhausted.key ≠ (Obj.d2dState l).key := key_ne_of_area (a := 0x08) (by rw [harea]; decide) (by decide)
    have hres : Obj.resourcesComplete.key ≠ (Obj.d2dState l).key := key_ne_of_area (a := 0x08) (by rw [harea]; decide) (by decide)
    rw [State.rd_exhausted _ _ _ _ hspare hres hlost, State.rd_addFail, State.rd_goState _ _ _ _ _ hlost]
  case mem => rw [State.exhausted_mem, State.addFail_mem, State.goState_mem]
  case links => rw [State.exhausted_links, State.addFail_links, State.goState_links]

end InPackage

/-! ## Codewords (R220, R221) -/

section Codewords

variable {levels : List (List Nat)}

/-- Counting corrected symbols moves the counts of a port's positions alone: its flits, every object and memory stay. -/
theorem State.countFixed_frame (lanes : List Nat) :
    ((s.countFixed p lanes).link p).rxFlits = (s.link p).rxFlits ∧ (s.countFixed p lanes).reg = s.reg ∧ (s.countFixed p lanes).mem = s.mem := by
  induction lanes generalizing s with
  | nil => exact ⟨rfl, rfl, rfl⟩
  | cons k ks ih =>
    rw [State.countFixed, List.foldl_cons, ← State.countFixed]
    split
    · exact ih
    · obtain ⟨hflits, hreg, hmem⟩ := ih (s := s.setLink p _)
      exact ⟨by rw [hflits, State.link_setLink], hreg, hmem⟩

theorem State.lineTaken_rxFlits : ((s.lineTaken p levels).link p).rxFlits = (s.link p).rxFlits := by rw [State.lineTaken, State.link_setLink]

theorem State.link_bumpBy (o : Obj) (n : Nat) : (s.bumpBy o n).link p = s.link p := rfl

/-- Flits come in on a port, behind those that have not been taken. -/
def State.takeFlits (s : State) (p : Nat) (l : List (Option Bytes)) : State := s.setLink p { s.link p with rxFlits := (s.link p).rxFlits ++ l }

theorem State.takeFlits_rxFlits (l : List (Option Bytes)) : ((s.takeFlits p l).link p).rxFlits = (s.link p).rxFlits ++ l := by rw [State.takeFlits, State.link_setLink]

theorem State.rd_takeFlits {o : Obj} (l : List (Option Bytes)) : (s.takeFlits p l).rd o = s.rd o := rfl

theorem exec_codewordReceive_corrected {flits : List Bytes} {n : Nat} {lanes : List Nat} (hp : p < 18) (hup : s.rd (Obj.linkState p) = linkUp)
    (hrx : (rsOf p).receive (s.lineIn p levels) = some (flits, n, lanes)) : exec (.codewordReceive p levels) s =
      .next ((((s.lineTaken p levels).bumpBy (Obj.fecCorrected p) n).countFixed p lanes).takeFlits p (flits.map some)) := by
  refine congrArg Host.Outcome.next ((if_neg (not_down hp hup)).trans ?_)
  simp only [hrx]
  rfl

theorem exec_codewordReceive_lost (hp : p < 18) (hup : s.rd (Obj.linkState p) = linkUp) (hrx : (rsOf p).receive (s.lineIn p levels) = none) :
    exec (.codewordReceive p levels) s =
      .next (((s.lineTaken p levels).bump (Obj.fecUncorrected p)).takeFlits p (List.replicate ((rsOf p).k * (rsOf p).w / 512) none)) := by
  refine congrArg Host.Outcome.next ((if_neg (not_down hp hup)).trans ?_)
  simp only [hrx]
  rfl

theorem key_fecCorrected_ne_fecUncorrected (p : Nat) : (Obj.fecCorrected p).key ≠ (Obj.fecUncorrected p).key :=
  key_ne_of_sub (by rw [keySub_fecCorrected, keySub_fecUncorrected]; omega)

theorem RsCode.decode_of_isWord (c : RsCode) {r : List Nat} (h : c.isWord r = true) : c.decode r = some r := if_pos h

/-- What the decoder gives is a codeword within the reach of the code. -/
theorem RsCode.decode_sound {c : RsCode} {r v : List Nat} (h : c.decode r = some v) :
    c.isWord v = true ∧ ((List.zip r v).filter fun p => p.1 != p.2).length ≤ c.t := by
  by_cases hw : c.isWord r = true
  · obtain rfl : r = v := Option.some.inj ((c.decode_of_isWord hw).symm.trans h)
    have hsame : (List.zip r r).filter (fun p => p.1 != p.2) = [] := by
      simp [List.zip, List.zipWith_self]
    simp [hw, hsame]
  · rw [RsCode.decode, if_neg hw, Option.ite_none_right_eq_some] at h
    obtain ⟨⟨hword, -, hdist⟩, hv⟩ := h
    cases hv
    exact ⟨hword, hdist⟩

end Codewords

/-! ## Lanes on the line (R217) -/

theorem dibitsOf_succ (n v : Nat) : dibitsOf (n + 1) v = dibitsOf n (v / 4) ++ [v % 4] := by
  simp only [dibitsOf, List.range_succ, List.map_append, List.map_cons, List.map_nil, Nat.add_sub_cancel, Nat.sub_self, pow_zero, Nat.div_one]
  refine congrArg (· ++ [v % 4]) (List.map_congr_left fun i hi => ?_)
  rw [Nat.div_div_eq_div_mul, ← pow_succ', show n - 1 - i + 1 = n - i by have := List.mem_range.mp hi; omega]

theorem ofDibits_append (l : List Nat) (d : Nat) : ofDibits (l ++ [d]) = 4 * ofDibits l + d := by simp [ofDibits]

theorem length_dibitsOf (n v : Nat) : (dibitsOf n v).length = n := by simp [dibitsOf]

/-- Pairs of bits taken out of a number and put together again: the number, cut to those pairs. -/
theorem ofDibits_dibitsOf (n v : Nat) : ofDibits (dibitsOf n v) = v % 4 ^ n := by
  induction n generalizing v with
  | zero => rw [pow_zero, Nat.mod_one]; rfl
  | succ n ih => rw [dibitsOf_succ, ofDibits_append, ih, pow_succ', Nat.mod_mul, Nat.add_comm]

/-- Pairs of bits put together and taken out again. -/
theorem dibitsOf_ofDibits {l : List Nat} (h : ∀ v ∈ l, v < 4) : dibitsOf l.length (ofDibits l) = l := by
  induction l using List.reverseRecOn with
  | nil => rfl
  | append_singleton l d ih =>
    have hd : d < 4 := h d (by simp)
    rw [List.length_append, List.length_singleton, dibitsOf_succ, ofDibits_append, show (4 * ofDibits l + d) / 4 = ofDibits l by omega,
      show (4 * ofDibits l + d) % 4 = d by omega, ih fun v hv => h v (by simp [hv])]

/-- The pairs of a number are those of the number cut to them. -/
theorem dibitsOf_mod (n v : Nat) : dibitsOf n (v % 4 ^ n) = dibitsOf n v := by
  have h4 : ∀ d ∈ dibitsOf n v, d < 4 := by
    intro d hd
    obtain ⟨i, -, rfl⟩ := List.mem_map.mp hd
    exact Nat.mod_lt _ (by omega)
  have h := dibitsOf_ofDibits h4
  rwa [length_dibitsOf, ofDibits_dibitsOf] at h

/-- A run of pairs under 34 bits of the scrambler, twice: the pairs themselves, whatever the scrambler's bits. -/
theorem dibitsOf_xor_xor {l : List Nat} (k : Nat) (hlen : l.length = 17) (h4 : ∀ v ∈ l, v < 4) :
    dibitsOf 17 (ofDibits (dibitsOf 17 (ofDibits l ^^^ k)) ^^^ k) = l := by
  have hbits : ((ofDibits l ^^^ k) % 2 ^ 34 ^^^ k) % 2 ^ 34 = ofDibits l % 2 ^ 34 := by
    rw [Nat.xor_mod_two_pow, Nat.mod_mod, ← Nat.xor_mod_two_pow, Nat.xor_assoc, Nat.xor_self, Nat.xor_zero]
  have hpow : 4 ^ 17 = 2 ^ 34 := by norm_num
  rw [ofDibits_dibitsOf, ← dibitsOf_mod, hpow, hbits, ← hpow, dibitsOf_mod, ← hlen, dibitsOf_ofDibits h4]

/-- Scrambling from one state is its own inverse, and both leave the scrambler in one state. -/
theorem scrLane_scrLane {n st : Nat} {d : List Nat} (hlen : d.length = 17 * n) (h4 : ∀ v ∈ d, v < 4) : scrLane n st (scrLane n st d).1 = (d, (scrLane n st d).2) := by
  induction n generalizing st d with
  | zero => rw [List.eq_nil_of_length_eq_zero hlen]; rfl
  | succ n ih =>
    have hrun : (d.take 17).length = 17 := by rw [List.length_take]; omega
    have hpad : (d ++ List.replicate 17 0).take 17 = d.take 17 := List.take_append_of_le_length (by omega)
    have hrest := ih (st := (scrStep st).2) (d := d.drop 17) (by rw [List.length_drop]; omega) fun v hv => h4 v (List.mem_of_mem_drop hv)
    have htake (a b c : List Nat) (ha : a.length = 17) : (a ++ b ++ c).take 17 = a := by rw [List.append_assoc, List.take_left' ha]
    have htwice (k : Nat) := dibitsOf_xor_xor k hrun fun v hv => h4 v (List.mem_of_mem_take hv)
    simp only [scrLane, hpad, htake _ _ _ (length_dibitsOf 17 _), List.drop_left' (length_dibitsOf 17 _), hrest, htwice, List.take_append_drop]

theorem gray_gray : ∀ v, v < 4 → gray (gray v) = v ∧ gray v < 4 := by decide

/-- Settles O32: a frame by its kind, a unit of an in-package link by its number and its check, a codeword by the decoder. -/
theorem linkLayer : Obligations.LinkLayer := by
  unfold Obligations.LinkLayer
  refine ⟨?packet, ?duplicate, ?asks, ?silent, ?badCtl, ?wait, ?ackCredit, ?ackDeadline, ?replayFirst, ?replayEighth, ?timeout, ?timeoutFourth, ?lossUp, ?lossTraining,
    ?unitNext, ?unitResend, ?unitBehind, ?unitDiscarded, ?laneRepaired, ?laneFails, ?codeword, ?codewordLost, ?scrambler, gray_gray, ?decodeSound, ?decodeWord, rfl, rfl⟩
  case packet =>
    intro s p k tr u l h hp hl hseq
    obtain ⟨rest, hlink⟩ := h.link_eq
    obtain rfl := hl
    have hnow : u.now = s.now := by
      obtain ⟨-, -, _, -, rfl⟩ := h
      rfl
    rw [h.receive, State.onFrame, State.packetIn_expected hp (by simpa [hlink] using hseq), LinkPort.accept, hlink, hnow]
  case duplicate =>
    intro s p k tr u h hne hold
    obtain ⟨rest, hlink⟩ := h.link_eq
    rw [h.receive, State.onFrame, State.packetIn_duplicate (by simpa [hlink] using hne) (by simpa [hlink] using hold)]
  case asks =>
    intro s p q u h hasked
    obtain ⟨rest, hlink⟩ := h.link_eq
    rw [h.receive, State.onFrame, State.askReplay_first q (by simpa [hlink] using hasked), hlink]
    rfl
  case silent =>
    intro s p q u h hasked hq
    obtain ⟨rest, hlink⟩ := h.link_eq
    rw [h.receive, State.onFrame, State.askReplay_again (by simpa [hlink] using hasked) (by simpa [hlink] using hq)]
  case badCtl =>
    intro s p u h
    exact h.receive
  case wait =>
    intro s p u h
    exact h.receive
  case ackCredit =>
    intro s p f u h hop
    change execAckCredit p s = _
    rw [execAckCredit, h.takeCtl hop, State.flitIn]
  case ackDeadline =>
    intro s p hp hup hdue hvc hpool
    exact exec_ackDeadline_due hp hup hdue hvc hpool
  case replayFirst =>
    intro s p f v u h hop hu hzero
    rw [exec_replayReq (n := 1) h hop hu (by simp [hzero]), if_neg (by decide)]
  case replayEighth =>
    intro s p f v u h hop hu hseven hnum
    rw [exec_replayReq (n := 8) h hop hu (by simp [hseven, hnum]), if_pos (by decide)]
  case timeout =>
    intro s p hp hup hheld hfew
    rw [exec_replayTimeout hp hup hheld, if_neg (by omega)]
  case timeoutFourth =>
    intro s p hp hup hheld hmany
    rw [exec_replayTimeout hp hup hheld, if_pos (by omega)]
  case lossUp =>
    intro s p c hp hc hup u hu
    rw [exec_linkLoss hp hc, if_pos hup, hu]
    exact congrArg Host.Outcome.next (if_neg (not_not_intro hup))
  case lossTraining =>
    intro s p c hp hc hdown htrain
    rw [exec_linkLoss hp hc, if_neg hdown]
    exact congrArg Host.Outcome.next (if_neg (Nat.not_lt.mpr htrain))
  case unitNext =>
    intro s l dir seq gen unit d hl hact hgen hok hseq hd
    rw [exec_d2dUnitReceive_confirmed hl hact hgen, if_pos ⟨hok, hseq⟩, ← hseq, hd]
    rfl
  case unitResend =>
    intro s l dir seq gen unit d hl hact hgen hbad hask hd
    rw [exec_d2dUnitReceive_bad hl hact hgen hbad, if_neg (fun h => hask.elim (fun hf => by simp [hf] at h) h.2), hd]
    rfl
  case unitBehind =>
    intro s l dir seq gen unit d hl hact hgen hbad hasked hne hd
    rw [exec_d2dUnitReceive_bad hl hact hgen hbad, if_pos ⟨hasked, hne⟩, hd]
    rfl
  case unitDiscarded =>
    intro s l dir seq gen unit h
    exact exec_d2dUnitReceive_discards h
  case laneRepaired =>
    intro s l m hl hact hm hused
    exact exec_d2dLaneFail_repaired hl hact hm hused
  case laneFails =>
    intro s l m hl hact hm hused
    exact exec_d2dLaneFail_fails hl hact hm hused
  case codeword =>
    intro s p w flits n lanes hp hup hrx
    obtain ⟨hflits, hreg, hmem⟩ := State.countFixed_frame (s := (s.lineTaken p w).bumpBy (Obj.fecCorrected p) n) (p := p) lanes
    refine ⟨_, exec_codewordReceive_corrected hp hup hrx, ?_, ?_, hmem⟩
    · rw [State.takeFlits_rxFlits, hflits, State.link_bumpBy, State.lineTaken_rxFlits]
    · rw [State.rd_takeFlits, State.rd, hreg]
      exact State.rd_wr_ne _ _ _ _ (key_fecCorrected_ne_fecUncorrected p)
  case codewordLost =>
    intro s p w hp hup hrx
    refine ⟨_, exec_codewordReceive_lost hp hup hrx, ?_, ?_, rfl⟩
    · rw [State.takeFlits_rxFlits, State.bump, State.link_bumpBy, State.lineTaken_rxFlits]
    · rw [State.rd_takeFlits]
      exact State.rd_wr_ne _ _ _ _ (key_fecCorrected_ne_fecUncorrected p).symm
  case scrambler =>
    intro n st d hlen h4
    exact scrLane_scrLane hlen h4
  case decodeSound =>
    intro c r v h
    exact RsCode.decode_sound h
  case decodeWord =>
    intro c r h
    exact c.decode_of_isWord h

end Sys2Proof.Machine
end

section
/-! Lane substitution (R236 to R239, R242). -/

namespace Sys2Proof.Machine

open Sys2Proof

/-! ## Keys of lanes -/

section Keys

variable {p q dir i j : Nat}

theorem key_erRecordsLost_ne_laneState (hp : p < 18) (hi : i < 18) (hdir : dir < 2) : Obj.erRecordsLost.key ≠ (Obj.laneState p i dir).key :=
  key_ne_of_area (a := 0x70) (by rw [keyArea_laneState hp hi hdir]; decide) (by decide)

theorem key_erRecordsLost_ne_laneLogical (hdir : dir < 2) : Obj.erRecordsLost.key ≠ (Obj.laneLogical p i dir).key :=
  key_ne_of_sub (by rw [keySub_erRecordsLost, keySub_laneLogical p i hdir]; omega)

theorem key_laneState_ne (h : i ≠ j) : (Obj.laneState p i dir).key ≠ (Obj.laneState p j dir).key := by
  simp only [Obj.laneState, objKey]
  omega

theorem key_laneLogical_ne (h : i ≠ j) : (Obj.laneLogical p i dir).key ≠ (Obj.laneLogical p j dir).key := by
  simp only [Obj.laneLogical, objKey]
  omega

theorem key_laneState_ne_laneLogical (hdir : dir < 2) : (Obj.laneState p i dir).key ≠ (Obj.laneLogical p j dir).key :=
  key_ne_of_sub (by rw [keySub_laneState p i hdir, keySub_laneLogical p j hdir]; omega)

theorem key_laneState_ne_linkState (hdir : dir < 2) : (Obj.laneState p i dir).key ≠ (Obj.linkState q).key :=
  key_ne_of_sub (by rw [keySub_laneState p i hdir, keySub_linkState]; omega)

theorem key_erRecordsLost_ne_linkState : Obj.erRecordsLost.key ≠ (Obj.linkState q).key :=
  key_ne_of_sub (by rw [keySub_erRecordsLost, keySub_linkState]; omega)

theorem key_laneSubstitutions_ne_laneState (hdir : dir < 2) : Obj.laneSubstitutions.key ≠ (Obj.laneState p i dir).key := by
  simp only [Obj.laneSubstitutions, Obj.laneState, objKey]
  omega

theorem key_laneSubstitutions_ne_laneLogical (hdir : dir < 2) : Obj.laneSubstitutions.key ≠ (Obj.laneLogical p i dir).key :=
  key_ne_of_sub (by rw [keySub_laneSubstitutions, keySub_laneLogical p i hdir]; omega)

end Keys

variable {s u v : State} {p dir k old new oldTo i j n : Nat} {ns : List Nat}

/-! ## A lane moves (R236 step 5, R237) -/

/-- A logical lane at its new position and no longer at its old one, before the move is counted and recorded. -/
def State.carryOver (s : State) (p dir k old new oldTo : Nat) : State :=
  let s := ((s.setLane p dir new ustActive).setLogical p dir new k).setLogical p dir old 0xFF
  if s.rd (Obj.laneState p old dir) = ustFailed then s else s.setLane p dir old oldTo

theorem State.moveLane_eq (abrupt : Bool) : s.moveLane p dir k old new oldTo abrupt =
    (((s.carryOver p dir k old new oldTo).bump Obj.laneSubstitutions).event 0x3004 0x06 (laneUnit p old) noCtx k new (if abrupt then 2 else 1)).syncSpares p := rfl

theorem State.carryOver_mem : (s.carryOver p dir k old new oldTo).mem = s.mem := by
  unfold State.carryOver
  simp only
  split
  · exact State.setLane_mem _
  · exact (State.setLane_mem _).trans (State.setLane_mem _)

theorem State.moveLane_mem (abrupt : Bool) : (s.moveLane p dir k old new oldTo abrupt).mem = s.mem := by
  rw [State.moveLane_eq, State.syncSpares, State.wr_mem, State.event_mem, State.bump_mem, State.carryOver_mem]

theorem State.rd_carryOver_ne {o : Obj} (hlost : Obj.erRecordsLost.key ≠ o.key) (hstate : ∀ i, (Obj.laneState p i dir).key ≠ o.key)
    (hlogical : ∀ i, (Obj.laneLogical p i dir).key ≠ o.key) : (s.carryOver p dir k old new oldTo).rd o = s.rd o := by
  unfold State.carryOver State.setLogical
  simp only
  split <;> simp [State.rd_wr_ne, State.rd_setLane_ne, hlost, hstate, hlogical]

/-- The logical lanes of a direction's positions after a move. -/
theorem State.rd_laneLogical_carryOver (hdir : dir < 2) : (s.carryOver p dir k old new oldTo).rd (Obj.laneLogical p j dir) =
    if j = old then 0xFF else if j = new then k else s.rd (Obj.laneLogical p j dir) := by
  have hset (t : State) (i st : Nat) : (t.setLane p dir i st).rd (Obj.laneLogical p j dir) = t.rd (Obj.laneLogical p j dir) :=
    State.rd_setLane_ne st (key_erRecordsLost_ne_laneLogical hdir) (key_laneState_ne_laneLogical hdir)
  have hwr (t : State) (i x : Nat) : (t.wr (Obj.laneLogical p i dir) x).rd (Obj.laneLogical p j dir) = if j = i then x else t.rd (Obj.laneLogical p j dir) := by
    by_cases h : j = i
    · rw [if_pos h, h, State.rd_wr_same]
    · rw [if_neg h, State.rd_wr_ne _ _ _ _ (key_laneLogical_ne (Ne.symm h))]
  unfold State.carryOver State.setLogical
  simp only
  split <;> simp only [hset, hwr]

/-- The states of a direction's positions after a move: the old one takes the state given unless it has failed. -/
theorem State.rd_laneState_carryOver (hp : p < 18) (hdir : dir < 2) (hold : old < 18) (hj : j < 18) (hne : old ≠ new) :
    (s.carryOver p dir k old new oldTo).rd (Obj.laneState p j dir) =
      if j = old then (if s.rd (Obj.laneState p old dir) = ustFailed then ustFailed else oldTo) else if j = new then ustActive else s.rd (Obj.laneState p j dir) := by
  have hset (t : State) {a b : Nat} (st : Nat) (hb : b < 18) :
      (t.setLane p dir a st).rd (Obj.laneState p b dir) = if b = a then st else t.rd (Obj.laneState p b dir) := by
    have hlost := key_erRecordsLost_ne_laneState hp hb hdir
    by_cases h : b = a
    · rw [if_pos h, ← h, State.rd_setLane_same st hlost]
    · rw [if_neg h, State.rd_setLane_ne st hlost (key_laneState_ne (Ne.symm h))]
  have hwr (t : State) (a b x : Nat) : (t.wr (Obj.laneLogical p a dir) x).rd (Obj.laneState p b dir) = t.rd (Obj.laneState p b dir) :=
    State.rd_wr_ne _ _ _ _ (key_laneState_ne_laneLogical hdir).symm
  unfold State.carryOver State.setLogical
  simp only [hwr, hset _ _ hold, if_neg hne]
  rcases eq_or_ne j old with rfl | hjo
  · by_cases hf : s.rd (Obj.laneState p j dir) = ustFailed <;> simp [hwr, hset _ _ hj, hf, hne]
  · by_cases hf : s.rd (Obj.laneState p old dir) = ustFailed <;> simp [hwr, hset _ _ hj, hf, hjo]

/-- A move, its count and its record read like the positions it moved wherever they do not count or record. -/
theorem State.rd_moveLane {o : Obj} (abrupt : Bool) (hlost : Obj.erRecordsLost.key ≠ o.key) (hcount : Obj.laneSubstitutions.key ≠ o.key)
    (hspares : (Obj.sparesFree p).key ≠ o.key) : (s.moveLane p dir k old new oldTo abrupt).rd o = (s.carryOver p dir k old new oldTo).rd o := by
  rw [State.moveLane_eq, State.rd_syncSpares hspares, State.rd_event _ _ _ _ _ _ _ _ _ hlost, State.rd_bump, if_neg hcount]

theorem State.rd_laneLogical_moveLane (abrupt : Bool) (hdir : dir < 2) : (s.moveLane p dir k old new oldTo abrupt).rd (Obj.laneLogical p j dir) =
    if j = old then 0xFF else if j = new then k else s.rd (Obj.laneLogical p j dir) := by
  rw [State.rd_moveLane abrupt (key_erRecordsLost_ne_laneLogical hdir) (key_laneSubstitutions_ne_laneLogical hdir)
    (key_ne_of_sub (by rw [keySub_sparesFree, keySub_laneLogical p j hdir]; omega)), State.rd_laneLogical_carryOver hdir]

theorem State.rd_laneState_moveLane (abrupt : Bool) (hp : p < 18) (hdir : dir < 2) (hold : old < 18) (hj : j < 18) (hne : old ≠ new) :
    (s.moveLane p dir k old new oldTo abrupt).rd (Obj.laneState p j dir) =
      if j = old then (if s.rd (Obj.laneState p old dir) = ustFailed then ustFailed else oldTo) else if j = new then ustActive else s.rd (Obj.laneState p j dir) := by
  rw [State.rd_moveLane abrupt (key_erRecordsLost_ne_laneState hp hj hdir) (key_laneSubstitutions_ne_laneState hdir)
    (key_ne_of_sub (by rw [keySub_sparesFree, keySub_laneState p j hdir]; omega)), State.rd_laneState_carryOver hp hdir hold hj hne]

theorem State.rd_laneSubstitutions_moveLane (abrupt : Bool) (hdir : dir < 2) :
    (s.moveLane p dir k old new oldTo abrupt).rd Obj.laneSubstitutions = (s.rd Obj.laneSubstitutions + 1) % 2 ^ 64 := by
  rw [State.moveLane_eq, State.rd_syncSpares (key_ne_of_sub (by rw [keySub_sparesFree, keySub_laneSubstitutions]; omega)),
    State.rd_event _ _ _ _ _ _ _ _ _ (by decide), State.rd_bump, if_pos rfl,
    State.rd_carryOver_ne (by decide) (fun _ => (key_laneSubstitutions_ne_laneState hdir).symm) fun _ => (key_laneSubstitutions_ne_laneLogical hdir).symm]

/-! ## A link that stays UP -/

theorem State.rd_linkState_setLane (st q : Nat) (hdir : dir < 2) : (s.setLane p dir i st).rd (Obj.linkState q) = s.rd (Obj.linkState q) :=
  State.rd_setLane_ne st key_erRecordsLost_ne_linkState (key_laneState_ne_linkState hdir)

theorem State.rd_linkState_syncSpares (q : Nat) : (s.syncSpares p).rd (Obj.linkState q) = s.rd (Obj.linkState q) :=
  State.rd_syncSpares (key_ne_of_sub (by rw [keySub_sparesFree, keySub_linkState]; omega))

theorem State.rd_linkState_moveLane_rx (abrupt : Bool) (q : Nat) : (s.moveLane p 1 k old new oldTo abrupt).rd (Obj.linkState q) = s.rd (Obj.linkState q) := by
  have hlogical (i : Nat) : (Obj.laneLogical p i 1).key ≠ (Obj.linkState q).key := key_ne_of_sub (by rw [keySub_laneLogical p i (by omega), keySub_linkState]; omega)
  rw [State.rd_moveLane abrupt key_erRecordsLost_ne_linkState (key_ne_of_sub (by rw [keySub_laneSubstitutions, keySub_linkState]; omega))
    (key_ne_of_sub (by rw [keySub_sparesFree, keySub_linkState]; omega)),
    State.rd_carryOver_ne key_erRecordsLost_ne_linkState (fun _ => key_laneState_ne_linkState (by omega)) hlogical]

/-- One lost position moves to a spare: what is under way for its lane ends, and the transmitter is asked to follow (R237). -/
theorem State.abruptMove_cons {is : List Nat} (hu : u = s.moveLane p 1 (s.rd (Obj.laneLogical p i 1)) i n ustDisabled true) :
    s.abruptMove p (i :: is) (n :: ns) = State.abruptMove ((u.setLink p { u.link p with
      subs := (u.link p).subs.filter (fun x => x.logical != s.rd (Obj.laneLogical p i 1))
      switches := (u.link p).switches.filter (fun x => !(x.dir == 1 && x.logical == s.rd (Obj.laneLogical p i 1))) }).sendFlits p
        (CtlFlit.bytes ((u.link p).flit 3 0 (s.rd (Obj.laneLogical p i 1)) n 1))) p is ns := by
  simp only [State.abruptMove, State.sendCtl, ← hu, State.link_setLink, LinkPort.flit, LinkPort.ackNum]

theorem State.rd_linkState_abruptMove (q : Nat) {is ns : List Nat} : (s.abruptMove p is ns).rd (Obj.linkState q) = s.rd (Obj.linkState q) := by
  induction is generalizing s ns with
  | nil => rfl
  | cons i is ih =>
    cases ns with
    | nil => rfl
    | cons n ns => rw [State.abruptMove_cons rfl, ih, State.rd_sendFlits, State.rd_setLink, State.rd_linkState_moveLane_rx]

theorem State.rd_linkState_disableLanes (q : Nat) (l : List Nat) :
    (l.foldl (fun s i => s.setLane p 1 i ustDisabled) s).rd (Obj.linkState q) = s.rd (Obj.linkState q) := by
  induction l generalizing s with
  | nil => rfl
  | cons i l ih => rw [List.foldl_cons, ih, State.rd_linkState_setLane _ q (by omega)]

/-- Positions lost abruptly for whose lanes there are as many free spares: the lanes move, and the lost spares are DISABLED (R237). -/
theorem State.abruptLoss_moves {l data spare free : List Nat} (hdata : data = (l.dedup.filter fun i => decide (i < 18) && s.rd (Obj.laneLogical p i 1) != 0xFF))
    (hspare : spare = (l.dedup.filter fun i => decide (i < 18) && s.rd (Obj.laneState p i 1) == ustSpare))
    (hfree : free = ((s.freeLanes p 1).filter fun i => !spare.contains i)) (hle : data.length ≤ free.length) :
    s.abruptLoss p l = ((spare.foldl (fun s i => s.setLane p 1 i ustDisabled) s).abruptMove p data free).syncSpares p := by
  subst hdata hspare hfree
  exact if_neg (Nat.not_lt.mpr hle)

/-! ## Requests, maps and switches (R236 to R239) -/

section Requests

variable {f : CtlFlit}

theorem exec_laneReq_copies (h : Fronts s p (.ctl f) v) (hop : f.op = 4) (hk : f.mapLogical < 16) (hu : u = v.flitIn p f)
    (hnone : (u.link p).copies.any (fun c => c.1 == f.mapLogical) = false)
    (hn : n ∈ u.freeLanes p 0 ∨ n = f.mapLogical ∧ u.rd (Obj.laneState p n 0) = ustDisabled) (hcarrier : u.carrier p 0 f.mapLogical = some i) :
    exec (.laneReq p n) s = .next (u.setLink p { u.link p with copies := (u.link p).copies ++ [(f.mapLogical, n)] }) := by
  subst hu
  have htake : (n = f.mapLogical ∧ (v.flitIn p f).rd (Obj.laneState p f.mapLogical 0) = ustDisabled) ∨ ((v.flitIn p f).freeLanes p 0).contains n = true := by
    rcases hn with hfree | ⟨rfl, hdis⟩
    · exact Or.inr (List.contains_iff_mem.mpr hfree)
    · exact Or.inl ⟨rfl, hdis⟩
  change execLaneReq p n s = _
  simp only [execLaneReq, h.takeCtl hop, hcarrier]
  rw [if_neg (by simp [hnone, Nat.not_le.mpr hk]), if_pos htake]

/-- A map of a lane that this receiver has asked to be copied arms its own switch (R236 step 4). -/
theorem exec_laneMap_receiver {x : LaneSub} (h : Fronts s p (.ctl f) v) (hop : f.op = 3) (hk : f.mapLogical < 16) (hpos : f.mapPosition < 18) (hmin : 1 ≤ f.mapAfter)
    (hmax : f.mapAfter ≤ 1024) (hu : u = v.flitIn p f)
    (hsub : (u.link p).subs.find? (fun x => decide (x.logical = f.mapLogical ∧ x.new = f.mapPosition)) = some x) :
    exec (.laneMap p) s = .next (u.armSwitch p ⟨1, x.logical, x.new, x.oldTo, false⟩) := by
  subst hu
  change execLaneMap p s = _
  simp only [execLaneMap, h.takeCtl hop, hsub]
  exact if_neg (by omega)

/-- Any other map is the demand of a far receiver that has lost the lane (R237). -/
theorem exec_laneMap_transmitter (h : Fronts s p (.ctl f) v) (hop : f.op = 3) (hk : f.mapLogical < 16) (hpos : f.mapPosition < 18) (hmin : 1 ≤ f.mapAfter)
    (hmax : f.mapAfter ≤ 1024) (hu : u = v.flitIn p f)
    (hsub : (u.link p).subs.find? (fun x => decide (x.logical = f.mapLogical ∧ x.new = f.mapPosition)) = none)
    (hspare : u.rd (Obj.laneState p f.mapPosition 0) = ustSpare) (hcarrier : u.carrier p 0 f.mapLogical = some i) :
    exec (.laneMap p) s = .next (u.armSwitch p ⟨0, f.mapLogical, f.mapPosition, u.txOldTo p i f.mapLogical f.mapPosition, true⟩) := by
  subst hu
  change execLaneMap p s = _
  simp only [execLaneMap, h.takeCtl hop, hsub, hcarrier]
  exact (if_neg (by omega)).trans (if_neg (not_not_intro hspare))

end Requests

section Copies

variable {x : LaneSub} {c : Nat × Nat}

theorem exec_laneCopyAligned_sub (hp : p < 18) (hup : s.rd (Obj.linkState p) = linkUp)
    (hsub : (s.link p).subs.any (fun x => x.logical == k && decide (x.step < 3)) = true) : exec (.laneCopyAligned p k n) s =
      .next (s.setLink p { s.link p with subs := updFirst (fun x => x.logical == k) (fun x => { x with step := 3 }) (s.link p).subs }) :=
  (if_neg (not_down hp hup)).trans (if_pos hsub)

theorem exec_laneCopyAligned_strange (hp : p < 18) (hup : s.rd (Obj.linkState p) = linkUp)
    (hsub : (s.link p).subs.any (fun x => x.logical == k && decide (x.step < 3)) = false) (hx : s.strangeCopy p k n = some x) :
    exec (.laneCopyAligned p k n) s = .next (s.setLink p { s.link p with subs := (s.link p).subs ++ [x] }) := by
  refine (if_neg (not_down hp hup)).trans ((if_neg (by simp [hsub])).trans ?_)
  simp only [hx]

theorem exec_laneCopyAligned_copy (hp : p < 18) (hup : s.rd (Obj.linkState p) = linkUp)
    (hsub : (s.link p).subs.any (fun x => x.logical == k && decide (x.step < 3)) = false) (hx : s.strangeCopy p k n = none)
    (hc : (s.link p).copies.find? (fun c => decide (c.1 = k)) = some c) (hcarrier : s.carrier p 0 k = some i)
    (hidle : (s.link p).switches.any (fun x => x.dir == 0 && x.logical == k) = false) : exec (.laneCopyAligned p k n) s =
      .next (((s.free 10).2.armSwitch p ⟨0, k, c.2, s.txOldTo p i k c.2, false⟩).sendFlits p (CtlFlit.bytes ((s.link p).flit 3 0 k c.2 ((s.free 10).1 + 1)))) := by
  refine (if_neg (not_down hp hup)).trans ((if_neg (by simp [hsub])).trans ?_)
  simp only [hx, hc, hcarrier, hidle]
  rfl

end Copies

/-- A port's link when the switch of a lane in a direction has been made: nothing is under way for it there. -/
def LinkPort.switched (l : LinkPort) (dir k : Nat) : LinkPort :=
  { l with
    switches := l.switches.filter (fun y => !(y.dir == dir && y.logical == k))
    subs := if dir = 1 then l.subs.filter (fun y => y.logical != k) else l.subs
    copies := if dir = 0 then l.copies.filter (fun y => y.1 != k) else l.copies }

/-- Laser 9 takes the pair that the last lane of a worn laser leaves, while it is SPARE (R239). -/
def State.laserYields (s : State) (p dir old : Nat) : Prop :=
  dir = 0 ∧ p ≥ 14 ∧ (s.rd (Obj.laneLogical p (old / 2 * 2) 0) = 0xFF ∧ s.rd (Obj.laneLogical p (old / 2 * 2 + 1) 0) = 0xFF) ∧
    s.laserWorn (p - 14) (old / 2) = true ∧ s.rd (Obj.laserState (p - 14) 9) = ustSpare

section Switches

variable {x : LaneSwitch}

theorem exec_laneSwitch_moves (hx : (s.link p).switches.find? (fun x => decide (x.dir = dir ∧ x.logical = k)) = some x) (hcarrier : s.carrier p dir k = some old)
    (hu : u = (s.setLink p ((s.link p).switched dir k)).moveLane p dir k old x.new x.oldTo x.abrupt) (hyields : ¬ u.laserYields p dir old) :
    exec (.laneSwitch p dir k) s = .next u := by
  subst hu
  change execLaneSwitch p dir k s = _
  simp only [execLaneSwitch, hx, hcarrier]
  exact congrArg Host.Outcome.next (if_neg hyields)

theorem exec_laneSwitch_yields (hx : (s.link p).switches.find? (fun x => decide (x.dir = dir ∧ x.logical = k)) = some x) (hcarrier : s.carrier p dir k = some old)
    (hu : u = (s.setLink p ((s.link p).switched dir k)).moveLane p dir k old x.new x.oldTo x.abrupt) (hyields : u.laserYields p dir old) :
    exec (.laneSwitch p dir k) s = .next (u.swapLaser (p - 14) (old / 2)) := by
  subst hu
  change execLaneSwitch p dir k s = _
  simp only [execLaneSwitch, hx, hcarrier]
  exact congrArg Host.Outcome.next (if_pos hyields)

end Switches

/-! ## Lost, disabled and enabled positions (R237, R238, R242) -/

theorem exec_laneSerdesFail (hp : p < 18) (hdir : dir < 2) (hi : i < 18) (hst : s.rd (Obj.laneState p i dir) ≠ ustFailed) :
    exec (.laneSerdesFail p dir i) s = .next (if dir = 1 ∧ s.rd (Obj.laneLogical p i dir) ≠ 0xFF ∧ s.rd (Obj.linkState p) = linkUp then
      ((s.setLane p dir i ustFailed).syncSpares p).abruptLoss p [i] else (s.setLane p dir i ustFailed).syncSpares p) := by
  have hrun : ¬(p ≥ 18 ∨ dir ≥ 2 ∨ i ≥ 18 ∨ s.rd (Obj.laneState p i dir) = ustFailed) := by
    simp only [hst, or_false]
    omega
  refine (if_neg hrun).trans ?_
  simp only [State.rd_linkState_syncSpares, State.rd_linkState_setLane _ p hdir]

theorem State.disableLane_spare (h : s.rd (Obj.laneState p i 1) = ustSpare) : s.disableLane p i = ((s.setLane p 1 i ustDisabled).syncSpares p, rOk) := if_pos h

theorem State.disableLane_active (h : s.rd (Obj.laneState p i 1) = ustActive) (hfree : s.freeLanes p 1 = n :: ns) : s.disableLane p i =
    (if s.rd (Obj.linkState p) = linkUp then s.startSub p i ustDisabled else s.moveLane p 1 (s.rd (Obj.laneLogical p i 1)) i n ustDisabled false, rOk) := by
  simp only [State.disableLane, h, hfree, List.head?_cons]
  split_ifs <;> simp_all

theorem State.startSub_free (hk : s.rd (Obj.laneLogical p i 1) ≠ 0xFF) (hnone : (s.link p).subs.any (fun y => y.logical == s.rd (Obj.laneLogical p i 1)) = false)
    (hfree : s.freeLanes p 1 = n :: ns) : s.startSub p i oldTo =
      (s.setLink p { s.link p with subs := (s.link p).subs ++ [(⟨s.rd (Obj.laneLogical p i 1), i, n, 1, oldTo⟩ : LaneSub)] }).sendFlits p
        (CtlFlit.bytes ((s.link p).flit 4 0 (s.rd (Obj.laneLogical p i 1)) 0xFF 0)) := by
  have hrun : ¬(s.rd (Obj.laneLogical p i 1) = 0xFF ∨ (s.link p).subs.any (fun x => x.logical == s.rd (Obj.laneLogical p i 1)) = true) := by simp [hk, hnone]
  refine (if_neg hrun).trans ?_
  simp only [hfree, List.head?_cons]
  rfl

theorem State.enableLane_disabled (h : s.rd (Obj.laneState p i 1) = ustDisabled) :
    s.enableLane p i = (s.setLink p { s.link p with enabling := (s.link p).enabling.filter (fun k => k != i) ++ [i] }, rOk) := by
  simp [State.enableLane, h]

theorem State.returnLane_unserved (h : 16 ≤ i ∨ s.carrier p 1 i = none) : s.returnLane p i = (s.setLane p 1 i ustSpare).syncSpares p := by
  have hnone : (if i < 16 then s.carrier p 1 i else none) = none := ite_eq_right_iff.mpr fun hlt => h.resolve_left (Nat.not_le.mpr hlt)
  simp only [State.returnLane, hnone]

theorem State.returnLane_served (hi : i < 16) (hj : s.carrier p 1 i = some j) : s.returnLane p i =
    if s.rd (Obj.linkState p) = linkUp then (s.setLink p { s.link p with
      subs := ((s.link p).subs.filter fun x => x.logical != i) ++ [(⟨i, j, i, 1, ustSpare⟩ : LaneSub)] }).sendFlits p (CtlFlit.bytes ((s.link p).flit 4 0 i 0xFF 0))
    else s.moveLane p 1 i j i ustSpare false := by
  simp only [State.returnLane, if_pos hi, hj]
  rfl

/-- Settles O33: a message or an event of a lane by the state of the lane's substitution and its positions, a move by what becomes of its two positions. -/
theorem laneSubstitution : Obligations.LaneSubstitution := by
  unfold Obligations.LaneSubstitution
  refine ⟨?req, ?mapReceiver, ?mapTransmitter, ?arm, ?alignedSub, ?alignedStrange, ?alignedCopy, ?switchMoves, ?switchYields, ?move, ?abrupt, ?abruptSpares, ?abruptOne,
    ?abruptTooMany, ?serdes, ?serdesCarried, ?serdesState, ?disableSpare, ?disableActive, ?startSub, ?enable, ?returnUnserved, ?returnDown, ?returnUp⟩
  case req =>
    intro s p f v u i n h hop hk hu hnone hn hcarrier
    exact exec_laneReq_copies h hop hk hu hnone hn hcarrier
  case mapReceiver =>
    intro s p f v u x h hop hk hpos hmin hmax hu hsub
    exact exec_laneMap_receiver h hop hk hpos hmin hmax hu hsub
  case mapTransmitter =>
    intro s p f v u i h hop hk hpos hmin hmax hu hsub hspare hcarrier
    exact exec_laneMap_transmitter h hop hk hpos hmin hmax hu hsub hspare hcarrier
  case arm =>
    intro s p x
    exact ⟨by rw [State.armSwitch, State.link_setLink], rfl, rfl⟩
  case alignedSub =>
    intro s p k n hp hup hsub
    exact exec_laneCopyAligned_sub hp hup hsub
  case alignedStrange =>
    intro s p k n x hp hup hsub hx
    exact exec_laneCopyAligned_strange hp hup hsub hx
  case alignedCopy =>
    intro s p k n c i hp hup hsub hx hc hcarrier hidle
    exact exec_laneCopyAligned_copy hp hup hsub hx hc hcarrier hidle
  case switchMoves =>
    intro s p dir k x old u hx hcarrier hu hstays
    refine exec_laneSwitch_moves hx hcarrier hu ?_
    rintro ⟨hdir, hp, ⟨heven, hodd⟩, hworn, hspare⟩
    exact hstays hdir hp heven hodd hworn hspare
  case switchYields =>
    intro s p k x old u hx hcarrier hu hp heven hodd hworn hspare
    exact exec_laneSwitch_yields hx hcarrier hu ⟨rfl, hp, ⟨heven, hodd⟩, hworn, hspare⟩
  case move =>
    intro s p dir k old new st abrupt t ht hp hdir hold hnew hne
    subst ht
    refine ⟨?_, ?_, ?_, ?_, State.rd_laneSubstitutions_moveLane abrupt hdir, State.moveLane_mem abrupt⟩
    · rw [State.rd_laneLogical_moveLane abrupt hdir, if_neg hne.symm, if_pos rfl]
    · rw [State.rd_laneState_moveLane abrupt hp hdir hold hnew hne, if_neg hne.symm, if_pos rfl]
    · rw [State.rd_laneLogical_moveLane abrupt hdir, if_pos rfl]
    · rw [State.rd_laneState_moveLane abrupt hp hdir hold hold hne, if_pos rfl]
  case abrupt =>
    intro s p l hp hup
    exact congrArg Host.Outcome.next (if_neg (not_down hp hup))
  case abruptSpares =>
    intro s p l data spare free hdata hspare hfree hle
    have hmoves := State.abruptLoss_moves hdata hspare hfree hle
    refine ⟨hmoves, ?_⟩
    rw [hmoves, State.rd_linkState_syncSpares, State.rd_linkState_abruptMove, State.rd_linkState_disableLanes]
  case abruptOne =>
    intro s p i is n ns u hu
    exact State.abruptMove_cons hu
  case abruptTooMany =>
    intro s p l hlt
    exact if_pos hlt
  case serdes =>
    intro s p dir i hp hdir hi hst hstays
    rw [exec_laneSerdesFail hp hdir hi hst, if_neg]
    rintro ⟨rfl, hcarried, hup⟩
    exact hstays.elim (by decide) fun h => h.elim hcarried fun h => h hup
  case serdesCarried =>
    intro s p i hp hi hst hcarried hup
    rw [exec_laneSerdesFail hp (by decide) hi hst, if_pos ⟨rfl, hcarried, hup⟩]
  case serdesState =>
    intro s p dir i hp hdir hi _
    exact ⟨State.rd_setLane_same ustFailed (key_erRecordsLost_ne_laneState hp hi hdir), State.setLane_mem ustFailed⟩
  case disableSpare =>
    intro s w p i hw hp hi h
    exact accepted_of_ctl rfl hw (by rw [if_neg (by omega), State.disableLane_spare h])
  case disableActive =>
    intro s w p i n ns hw hp hi h hfree
    exact accepted_of_ctl rfl hw (by rw [if_neg (by omega), State.disableLane_active h hfree])
  case startSub =>
    intro s p i x n ns hk hnone hfree
    exact State.startSub_free hk hnone hfree
  case enable =>
    intro s w p i hw hp hi h
    exact accepted_of_ctl rfl hw (by rw [if_neg (by omega), State.enableLane_disabled h])
  case returnUnserved =>
    intro s p i h
    exact State.returnLane_unserved h
  case returnDown =>
    intro s p i j hi hj hdown
    rw [State.returnLane_served hi hj, if_neg hdown]
  case returnUp =>
    intro s p i j hi hj hup
    rw [State.returnLane_served hi hj, if_pos hup]

end Sys2Proof.Machine
end

section
/-! Link training and the margins of lanes (R218, R229, R232 to R236). -/

namespace Sys2Proof.Machine

open Sys2Proof

variable {s u : State} {p i : Nat}

/-! ## The order of positions (R218, R232) -/

/-- Positions are in the order wanted when the frames of at least 16 name each the position that stands at its place. -/
theorem inOrder_iff {want order : List Nat} (hwant : want.length = 18) : inOrder want order = true ↔
    order.length = 18 ∧ 16 ≤ (order.filter (· < 18)).length ∧ ∀ i, i < 18 → order.getD i 18 < 18 → order.getD i 18 = want.getD i 18 := by
  simp only [inOrder, Bool.and_eq_true, beq_iff_eq, decide_eq_true_eq, and_assoc]
  refine and_congr_right fun hlen => and_congr_right fun _ => ?_
  have hget (i : Nat) (hi : i < 18) : order.getD i 18 = order[i] ∧ want.getD i 18 = want[i] := by
    simp [List.getD_eq_getElem?_getD, hlen, hwant, hi]
  simp only [List.all_eq_true, List.mem_iff_getElem, List.length_zip, hlen, hwant, Nat.min_self, forall_exists_index, Bool.or_eq_true, decide_eq_true_eq, beq_iff_eq]
  constructor
  · intro h i hi hlt
    have hat := h _ i hi rfl
    rw [List.getElem_zip] at hat
    rw [(hget i hi).1] at hlt ⊢
    rw [(hget i hi).2]
    exact (hat.resolve_left (Nat.not_le.mpr hlt)).symm
  · rintro h x i hi rfl
    have hat := h i hi
    rw [(hget i hi).1, (hget i hi).2] at hat
    rw [List.getElem_zip]
    exact (Nat.lt_or_ge order[i] 18).elim (fun hlt => Or.inr (hat hlt).symm) Or.inl

theorem keptOrder_iff (order : List Nat) : keptOrder order = true ↔
    order.length = 18 ∧ 16 ≤ (order.filter (· < 18)).length ∧ ∀ i, i < 18 → order.getD i 18 < 18 → order.getD i 18 = i := by
  have hwant : ∀ i, i < 18 → (List.range 18).getD i 18 = i := by decide
  rw [keptOrder, inOrder_iff (by decide)]
  refine and_congr_right fun _ => and_congr_right fun _ => forall_congr' fun i => forall_congr' fun hi => ?_
  rw [hwant i hi]

theorem reversedOrder_iff (order : List Nat) : reversedOrder order = true ↔
    order.length = 18 ∧ 16 ≤ (order.filter (· < 18)).length ∧ ∀ i, i < 18 → order.getD i 18 < 18 → order.getD i 18 = 17 - i := by
  have hwant : ∀ i, i < 18 → (List.range 18).reverse.getD i 18 = 17 - i := by decide
  rw [reversedOrder, inOrder_iff (by decide)]
  refine and_congr_right fun _ => and_congr_right fun _ => forall_congr' fun i => forall_congr' fun hi => ?_
  rw [hwant i hi]

/-! ## The steps of training (R232 to R234) -/

theorem exec_trainingSignalDetected {n : Nat} (hp : p < 18) (htrain : (s.link p).train = 1) (htrains : s.trains p = true) (hn : 16 ≤ n)
    (hlaser : (s.link p).laserAtTrain = none) :
    exec (.trainingSignalDetected p n) s = .next ((s.setLink p { s.link p with train := 2 }).wr (Obj.linkState p) linkTraining) := by
  refine (if_neg (by simp [Nat.not_le.mpr hp, htrain, htrains, Nat.not_lt.mpr hn])).trans ?_
  simp only [hlaser]

/-- The far end and the order of the positions as TRAINING_FRAMES_CHECKED finds them (R218, R234). -/
theorem exec_trainingFramesChecked {a b c inv : Nat} {order : List Nat} (hp : p < 18) (htrain : (s.link p).train = 3) :
    exec (.trainingFramesChecked p a b c order inv) s =
      if (keptOrder order ∨ reversedOrder order) ∧ (s.wr (Obj.farEnd p) (farWord b c a)).wiringOk p a b c then
        .next ((s.wr (Obj.farEnd p) (farWord b c a)).setLink p { s.link p with train := 4, reversed := reversedOrder order, inverted := inv })
      else .next ((((s.wr (Obj.farEnd p) (farWord b c a)).setLink p { s.link p with train := 0 }).wr (Obj.linkState p) linkMiswired).event 0x3003 0x05 p noCtx
        ((((s.wr (Obj.farEnd p) (farWord b c a)).setLink p { s.link p with train := 0 }).wr (Obj.linkState p) linkMiswired).wiringWord p b) (farWord b c a) 0) :=
  if_neg (by simp [Nat.not_le.mpr hp, htrain])

/-- A port whose wiring or positions are wrong reads MISWIRED, with the far end found (R234). -/
theorem State.miswired_reads {w : Nat} (code cls unit ctx a0 a1 a2 : Nat) (hp : p < 18)
    (hu : u = (((s.wr (Obj.farEnd p) w).setLink p { s.link p with train := 0 }).wr (Obj.linkState p) linkMiswired).event code cls unit ctx a0 a1 a2) :
    u.rd (Obj.linkState p) = linkMiswired ∧ u.rd (Obj.farEnd p) = w ∧ (u.link p).train = 0 := by
  subst hu
  have harea : keyArea (Obj.farEnd p).key ≠ 0x70 := by
    simp only [keyArea, Obj.farEnd, objKey]
    omega
  have hkey : (Obj.linkState p).key ≠ (Obj.farEnd p).key := key_ne_of_sub (by rw [keySub_linkState, keySub_farEnd]; omega)
  refine ⟨?_, ?_, ?_⟩
  · rw [State.rd_event _ _ _ _ _ _ _ _ _ key_erRecordsLost_ne_linkState, State.rd_wr_same]
  · rw [State.rd_event_of_area _ _ _ _ _ _ _ harea, State.rd_wr_ne _ _ _ _ hkey, State.rd_setLink, State.rd_wr_same]
  · simp [State.link, State.setLink, mgetD]

theorem State.mem_overLimit (l : List Nat) :
    i ∈ s.overLimit p l ↔ i < 18 ∧ (i < l.length → 10 ^ (12 - s.rd (Obj.laneBerLimit (if p < 14 then 0 else 1))) < l.getD i 0) := by
  rw [State.overLimit, List.mem_filter, List.mem_range, State.berLimit]
  refine and_congr_right fun _ => ?_
  rcases Nat.lt_or_ge i l.length with hlt | hge
  · simp [hlt]
  · simp [Nat.not_lt.mpr hge]

theorem exec_berMeasureDone {a b : List Nat} (hp : p < 18) (htrain : (s.link p).train = 4) (hu : u = (s.relocked p (s.overLimit p a)).retrained p (s.overLimit p b)) :
    exec (.berMeasureDone p a b) s =
      if (u.passing p 0 (s.overLimit p a)).length < 16 ∨ (u.passing p 1 (s.overLimit p b)).length < 16 then
        .next (((s.setLink p { s.link p with train := 0 }).wr (Obj.linkState p) linkDown).event 0x3007 0x05 p noCtx (u.passing p 0 (s.overLimit p a)).length
          (u.passing p 1 (s.overLimit p b)).length 0)
      else .next ((((u.mapLanes p 0 (s.overLimit p a)).mapLanes p 1 (s.overLimit p b)).syncSpares p).linkUpNow p) := by
  subst hu
  exact (if_neg (Nat.not_le.mpr hp)).trans (if_neg (not_not_intro htrain))

theorem exec_berMeasureDone_outside {a b : List Nat} (hp : p < 18) (htrain : (s.link p).train ≠ 4) :
    exec (.berMeasureDone p a b) s = .next ((s.relocked p (s.overLimit p a)).retrained p (s.overLimit p b)) :=
  (if_neg (Nat.not_le.mpr hp)).trans (if_pos htrain)

/-! ## Margins (R235, R236) -/

/-- A port's link in the second that a MARGIN_MEASURE begins: the counts of ACTIVE and SPARE positions are those of the second that ended (R235). -/
def State.nextSecond (s : State) (p : Nat) : State :=
  s.setLink p { s.link p with
    fixed := [],
    fixedLast := (s.link p).fixed.filter fun c => s.rd (Obj.laneState p c.1 1) == ustActive || s.rd (Obj.laneState p c.1 1) == ustSpare }

theorem State.mget_fixedLast_nextSecond : mget ((s.nextSecond p).link p).fixedLast i =
    if s.rd (Obj.laneState p i 1) = ustActive ∨ s.rd (Obj.laneState p i 1) = ustSpare then mget (s.link p).fixed i else none := by
  rw [State.nextSecond, State.link_setLink]
  refine (mget_filter_key (fun k => s.rd (Obj.laneState p k 1) == ustActive || s.rd (Obj.laneState p k 1) == ustSpare) _ i).trans ?_
  simp only [Bool.or_eq_true, beq_iff_eq]

/-- One reading of an electrical port. -/
theorem exec_marginMeasure_reading {r : LaneRead} (pw : Int) (hp : p < 14) : exec (.marginMeasure p [r] [] pw) s = .next ((s.nextSecond p).laneReading p r) := by
  refine (if_neg (by omega)).trans ?_
  simp only [if_pos hp]
  rfl

/-- A position's error estimate and eye are written (R247). -/
def State.keepReading (s : State) (p : Nat) (r : LaneRead) : State := (s.wr (Obj.laneBerEst p r.pos) (min r.ber (2 ^ 32 - 1))).wr (Obj.laneEyeMv p r.pos) r.eye

variable {r : LaneRead}

theorem State.laneReading_spare (hi : r.pos < 18) (h : s.rd (Obj.laneState p r.pos 1) = ustSpare) : s.laneReading p r = s.keepReading p r := by
  refine (if_neg (by simp [Nat.not_le.mpr hi, h])).trans (if_neg ?_)
  simp [h]

theorem State.laneReading_unused (hspare : s.rd (Obj.laneState p r.pos 1) ≠ ustSpare) (hactive : s.rd (Obj.laneState p r.pos 1) ≠ ustActive) : s.laneReading p r = s :=
  if_pos (Or.inr ⟨hactive, hspare⟩)

/-- An ACTIVE position of an UP link whose error ratio is past the limit is substituted (R236). -/
theorem State.laneReading_past (hi : r.pos < 18) (h : s.rd (Obj.laneState p r.pos 1) = ustActive) (hup : s.rd (Obj.linkState p) = linkUp)
    (hpast : (s.keepReading p r).berLimit p < r.ber) : s.laneReading p r = (s.keepReading p r).startSub p r.pos ustDisabled := by
  have hlink : (s.keepReading p r).rd (Obj.linkState p) = linkUp := by
    have hest : (Obj.laneBerEst p r.pos).key ≠ (Obj.linkState p).key := key_ne_of_sub (by rw [keySub_laneBerEst, keySub_linkState]; omega)
    have heye : (Obj.laneEyeMv p r.pos).key ≠ (Obj.linkState p).key := key_ne_of_sub (by rw [keySub_laneEyeMv, keySub_linkState]; omega)
    rw [State.keepReading, State.rd_wr_ne _ _ _ _ heye, State.rd_wr_ne _ _ _ _ hest, hup]
  exact (if_neg (by simp [Nat.not_le.mpr hi, h])).trans (if_pos ⟨hpast, h, hlink⟩)

theorem State.rd_laneBerEst_keepReading : (s.keepReading p r).rd (Obj.laneBerEst p r.pos) = min r.ber (2 ^ 32 - 1) := by
  have hkey : (Obj.laneEyeMv p r.pos).key ≠ (Obj.laneBerEst p r.pos).key := key_ne_of_sub (by rw [keySub_laneEyeMv, keySub_laneBerEst]; omega)
  rw [State.keepReading, State.rd_wr_ne _ _ _ _ hkey, State.rd_wr_same]

theorem State.rd_laneEyeMv_keepReading : (s.keepReading p r).rd (Obj.laneEyeMv p r.pos) = r.eye := State.rd_wr_same ..

theorem State.link_keepReading : (s.keepReading p r).link p = s.link p := rfl

/-- No limit is above one error per bit. -/
theorem State.berLimit_le (s : State) (p : Nat) : s.berLimit p ≤ 10 ^ 12 := Nat.pow_le_pow_right (by omega) (Nat.sub_le _ _)

/-- Settles O34: training by its step and its verdict on positions, a reading by the state of its position. -/
theorem training : Obligations.Training := by
  unfold Obligations.Training
  refine ⟨?signal, ?equalised, ?framesGood, ?framesBad, keptOrder_iff, reversedOrder_iff, ?limit, ?berPasses, ?berFails, ?berOutside, ?interval, ?spare, ?unused, ?past⟩
  case signal =>
    intro s p n hp htrain htrains hn hlaser
    exact exec_trainingSignalDetected hp htrain htrains hn hlaser
  case equalised =>
    intro s p hp htrain
    exact congrArg Host.Outcome.next (if_neg (by simp [Nat.not_le.mpr hp, htrain]))
  case framesGood =>
    intro s p a b c order inv hp htrain horder hwiring
    rw [exec_trainingFramesChecked hp htrain, if_pos ⟨horder, hwiring⟩]
  case framesBad =>
    intro s p a b c order inv hp htrain hbad
    have hnot : ¬((keptOrder order = true ∨ reversedOrder order = true) ∧ (s.wr (Obj.farEnd p) (farWord b c a)).wiringOk p a b c = true) := by
      rintro ⟨horder, hwiring⟩
      rcases hbad with ⟨hkept, hrev⟩ | hwired
      · simp [hkept, hrev] at horder
      · simp [hwired] at hwiring
    exact ⟨_, (exec_trainingFramesChecked hp htrain).trans (if_neg hnot), State.miswired_reads _ _ _ _ _ _ _ hp rfl⟩
  case limit =>
    intro s p l i
    exact State.mem_overLimit l
  case berPasses =>
    intro s p a b u hp htrain hu htx hrx
    rw [exec_berMeasureDone hp htrain hu, if_neg (by omega)]
  case berFails =>
    intro s p a b u hp htrain hu hfew
    rw [exec_berMeasureDone hp htrain hu, if_pos hfew]
  case berOutside =>
    intro s p a b hp htrain
    exact exec_berMeasureDone_outside hp htrain
  case interval =>
    intro s p hp hdown htrains
    exact congrArg Host.Outcome.next ((if_pos ⟨hp, hdown, htrains⟩).trans (if_pos htrains))
  case spare =>
    intro s p i ber eye pw hp hi hber h
    have hread : (s.nextSecond p).laneReading p ⟨i, ber, eye⟩ = (s.nextSecond p).keepReading p ⟨i, ber, eye⟩ := State.laneReading_spare hi h
    refine ⟨_, (exec_marginMeasure_reading pw hp).trans (congrArg Host.Outcome.next hread), ?_, State.rd_laneEyeMv_keepReading, ?_, ?_, ?_⟩
    · exact State.rd_laneBerEst_keepReading.trans (Nat.min_eq_left hber)
    · rw [State.link_keepReading, State.nextSecond, State.link_setLink]
    · rw [State.link_keepReading, State.mget_fixedLast_nextSecond, if_pos (Or.inr h)]
    · rw [State.link_keepReading, State.nextSecond, State.link_setLink]
  case unused =>
    intro s p i ber eye pw hp hspare hactive
    have hread : (s.nextSecond p).laneReading p ⟨i, ber, eye⟩ = s.nextSecond p := State.laneReading_unused hspare hactive
    refine ⟨_, (exec_marginMeasure_reading pw hp).trans (congrArg Host.Outcome.next hread), rfl, ?_⟩
    rw [State.mget_fixedLast_nextSecond, if_neg (by simp [hspare, hactive])]
  case past =>
    intro s p i eye pw u hp hi h hup hu
    have hnext : u = s.nextSecond p := hu
    have hpast : ((s.nextSecond p).keepReading p ⟨i, 10 ^ 13, eye⟩).berLimit p < 10 ^ 13 := (State.berLimit_le _ p).trans_lt (by norm_num)
    have hread := State.laneReading_past (s := s.nextSecond p) (r := ⟨i, 10 ^ 13, eye⟩) hi h hup hpast
    rw [exec_marginMeasure_reading pw hp, hread, hnext]
    rfl

end Sys2Proof.Machine
end

section
/-! Packets that come into the router and leave it: the landing and injection queues, room in the buffer banks, and what an input and an output make of a packet
(R251 to R258, R264, R267, R268, R271). -/

namespace Sys2Proof.Machine

open Sys2Proof

variable {s t u : State} {p b : Nat} {err : Option EccMark}

/-! ### The landing buffer and the queue of an NI -/

section Queues

variable {w : RxWait} {before l rest : List RxWait} {e : EgPkt} {passed waiting : List EgPkt}

theorem State.landed_takes (hroom : s.inputRoom p w.pkt = true) (hfree : before.any (fun b => mgOrdered b.pkt w.pkt) = false) :
    s.landed p before (w :: l) = some (w, before ++ l) := if_pos ⟨hroom, by simp [hfree]⟩

theorem State.landed_noRoom (hroom : s.inputRoom p w.pkt = false) : s.landed p before (w :: l) = s.landed p (before ++ [w]) l := if_neg (by simp [hroom])

theorem State.landed_ordered (hbehind : before.any (fun b => mgOrdered b.pkt w.pkt) = true) : s.landed p before (w :: l) = s.landed p (before ++ [w]) l :=
  if_neg fun h => by simp [hbehind] at h

theorem State.injectPick_takes (hroom : s.canInject p e.pkt = true) (hfree : passed.any (fun b => b.pkt.cls == e.pkt.cls) = false) :
    s.injectPick p passed (e :: waiting) = some (e, passed ++ waiting) := if_pos ⟨hroom, by simp [hfree]⟩

theorem State.injectPick_noRoom (hroom : s.canInject p e.pkt = false) : s.injectPick p passed (e :: waiting) = s.injectPick p (passed ++ [e]) waiting :=
  if_neg (by simp [hroom])

theorem State.injectPick_behind (hbehind : passed.any (fun b => b.pkt.cls == e.pkt.cls) = true) :
    s.injectPick p passed (e :: waiting) = s.injectPick p (passed ++ [e]) waiting := if_neg fun h => by simp [hbehind] at h

end Queues

/-! ### Where a packet lies in the banks -/

theorem mgetD_mput {α : Type} (m : NMap α) (n k : Nat) (v d : α) : mgetD (mput m n v) k d = if n = k then v else mgetD m k d := by
  simp only [mgetD, mget_mput]
  split <;> rfl

/-- What one bank takes of `n` flits (R258). -/
def State.bankShare (s : State) (p b n : Nat) : Nat := if s.bankOpen p b then min n (248 - s.bankUse p b) else 0

theorem State.bankShare_le (n : Nat) : s.bankShare p b n ≤ n := by
  unfold State.bankShare
  split <;> omega

theorem State.bankShare_fits {n : Nat} (h : s.bankShare p b n ≠ 0) : s.bankOpen p b = true ∧ s.bankUse p b + s.bankShare p b n ≤ 248 := by
  unfold State.bankShare at h ⊢
  split at h
  · next hopen => exact ⟨hopen, by rw [if_pos hopen]; omega⟩
  · exact absurd rfl h

theorem State.bankPlace_zero (l : List Nat) : s.bankPlace p l 0 = some [] := by cases l <;> rfl

/-- The flits of a packet in the banks of a list: the first bank's share, and the rest in the banks after it. -/
theorem State.bankPlace_cons {l : List Nat} {n : Nat} {m : NMap Nat} (hn : n ≠ 0) (h : s.bankPlace p (b :: l) n = some m) :
    ∃ r, s.bankPlace p l (n - s.bankShare p b n) = some r ∧ m = if s.bankShare p b n = 0 then r else mput r b (s.bankShare p b n) := by
  cases n with
  | zero => exact absurd rfl hn
  | succ n =>
    obtain ⟨r, hr, hm⟩ := Option.map_eq_some_iff.mp h
    exact ⟨r, hr, hm.symm⟩

theorem State.bankPlace_elsewhere {l : List Nat} {n c : Nat} {m : NMap Nat} (h : s.bankPlace p l n = some m) (hc : c ∉ l) : mgetD m c 0 = 0 := by
  induction l generalizing n m with
  | nil =>
    cases n with
    | zero => cases h; rfl
    | succ n => cases h
  | cons b l ih =>
    by_cases hn : n = 0
    · rw [hn, State.bankPlace_zero] at h
      cases h; rfl
    · obtain ⟨r, hr, rfl⟩ := State.bankPlace_cons hn h
      obtain ⟨hne, hl⟩ := not_or.mp (List.mem_cons.not.mp hc)
      split
      · exact ih hr hl
      · rw [mgetD_mput, if_neg (Ne.symm hne), ih hr hl]

theorem State.bankPlace_fits {l : List Nat} {n c : Nat} {m : NMap Nat} (h : s.bankPlace p l n = some m) (hc : mgetD m c 0 ≠ 0) :
    s.bankOpen p c = true ∧ s.bankUse p c + mgetD m c 0 ≤ 248 := by
  induction l generalizing n m with
  | nil => exact absurd (State.bankPlace_elsewhere h (List.not_mem_nil)) hc
  | cons b l ih =>
    by_cases hn : n = 0
    · rw [hn, State.bankPlace_zero] at h
      cases h
      exact absurd rfl hc
    · obtain ⟨r, hr, rfl⟩ := State.bankPlace_cons hn h
      by_cases hk : s.bankShare p b n = 0
      · rw [if_pos hk] at hc ⊢
        exact ih hr hc
      · rw [if_neg hk, mgetD_mput] at hc ⊢
        by_cases hb : b = c
        · subst hb
          rw [if_pos rfl]
          exact State.bankShare_fits hk
        · rw [if_neg hb] at hc ⊢
          exact ih hr hc

theorem State.bankPlace_total {l : List Nat} {n : Nat} {m : NMap Nat} (hl : l.Nodup) (h : s.bankPlace p l n = some m) :
    (l.map fun b => mgetD m b 0).sum = n := by
  induction l generalizing n m with
  | nil =>
    cases n with
    | zero => rfl
    | succ n => cases h
  | cons b l ih =>
    by_cases hn : n = 0
    · rw [hn, State.bankPlace_zero] at h
      cases h
      simp [hn, mgetD]
    · obtain ⟨r, hr, rfl⟩ := State.bankPlace_cons hn h
      obtain ⟨hb, hl⟩ := List.nodup_cons.mp hl
      have hrest := ih hl hr
      have hle := s.bankShare_le (p := p) (b := b) n
      rw [List.map_cons, List.sum_cons]
      by_cases hk : s.bankShare p b n = 0
      · rw [if_pos hk, State.bankPlace_elsewhere hr hb, hrest]
        omega
      · have hsame : (l.map fun c => mgetD (mput r b (s.bankShare p b n)) c 0) = l.map fun c => mgetD r c 0 :=
          List.map_congr_left fun c hc => by rw [mgetD_mput, if_neg (fun hbc : b = c => hb (hbc ▸ hc))]
        rw [if_neg hk, hsame, hrest, mgetD_mput, if_pos rfl]
        omega

/-! ### A packet comes in -/

theorem exec_routerPacketIn {w : RxWait} {rest : List RxWait} {m : NMap Nat} (hp : p < 18) (hland : s.landed p [] (s.link p).rxQ = some (w, rest))
    (hopen : s.bankOpen p b = true) (hplace : s.bankPlace p (banksFrom b) w.pkt.flits = some m)
    (hu : u = ((s.setLink p { s.link p with rxQ := rest }).bump (Obj.rtPktsIn p)).bumpBy (Obj.rtFlitsIn p) w.pkt.flits) :
    exec (.routerPacketIn p b err) s = .next (if w.pkt.malformed then ((u.bump Obj.dropMalformed).giveBackFlits p w.owed w.pkt).resident w.pkt.parity false
      else u.checkedEnter w.id p w.arrNs b m w.owed w.pkt err) := by
  have hgo : ¬(p ≥ 18 ∨ (!s.bankOpen p b) = true) := by simp [hopen, hp]
  subst hu
  show execRouterPacketIn p b err s = _
  simp only [execRouterPacketIn, hland, if_neg hgo, hplace]

theorem State.giveBackFlits_reserve {k : Packet} (hp : p < 18) (hpool : k.pool = false) : s.giveBackFlits p true k =
    s.setLink p { s.link p with retVc := mput (s.link p).retVc k.vc (mgetD (s.link p).retVc k.vc 0 + k.flits) } := by
  have hgo : ¬(p ≥ 18 ∨ (!true) = true) := by simp [hp]
  simp only [State.giveBackFlits, if_neg hgo, hpool, Bool.false_eq_true, if_false]

theorem State.giveBackFlits_unowed (k : Packet) : s.giveBackFlits p false k = s := if_pos (Or.inr rfl)

/-! ### A packet is injected -/

theorem misclassed_iff {k : Packet} (hgood : k.malformed = false) : misclassed p k = true ↔ ¬(k.cls = clsMG ↔ p = 22) := by
  simp [misclassed, hgood]

theorem exec_routerInject_malformed {k : Packet} (hlo : 18 ≤ p) (hhi : p ≤ 22) (hhead : s.injectHead p = some (k, t)) (hbad : k.malformed = true) :
    exec (.routerInject p err) s = .next (t.bump Obj.dropMalformed) := by
  have hgo : ¬(p < 18 ∨ p > 22) := by omega
  show execRouterInject p err s = _
  simp only [execRouterInject, if_neg hgo, hhead, if_pos hbad]

theorem exec_routerInject_misclassed {k : Packet} (hlo : 18 ≤ p) (hhi : p ≤ 22) (hhead : s.injectHead p = some (k, t)) (hgood : k.malformed = false)
    (hcls : ¬(k.cls = clsMG ↔ p = 22)) : exec (.routerInject p err) s = .next (t.bump Obj.dropClass) := by
  have hgo : ¬(p < 18 ∨ p > 22) := by omega
  show execRouterInject p err s = _
  simp only [execRouterInject, if_neg hgo, hhead, hgood, Bool.false_eq_true, if_false, if_pos ((misclassed_iff hgood).mpr hcls)]

theorem State.pool_stamped (k : Packet) : (!s.ownRoom p (s.stamped p k)) = decide (5 < s.vcUse p (8 * k.cls) + k.flits) := by
  simp [State.ownRoom, State.stamped, Packet.vc, ← decide_not]

theorem exec_routerInject_enters {k q : Packet} {m : NMap Nat} {id : Nat} (hlo : 18 ≤ p) (hhi : p ≤ 22) (hhead : s.injectHead p = some (k, t)) (hgood : k.malformed = false)
    (hcls : k.cls = clsMG ↔ p = 22)
    (hq : q = { k with src := s.fabAddr (if p = 22 then 0 else p - 18), level := 0, parity := s.rd Obj.injectParity, pool := decide (5 < s.vcUse p (8 * k.cls) + k.flits) })
    (hplace : s.bankPlace p (List.range 8) q.flits = some m)
    (hid : (id, u) = State.newId (((t.bump (Obj.rtPktsIn p)).bumpBy (Obj.rtFlitsIn p) q.flits).resident q.parity true)) :
    exec (.routerInject p err) s = .next (u.checkedEnter id p s.now ((m.head?.map (·.1)).getD 0) m false q err) := by
  have hgo : ¬(p < 18 ∨ p > 22) := by omega
  have hclass : ¬misclassed p k = true := fun h => (misclassed_iff hgood).mp h hcls
  have hflits : (s.stamped p k).flits = q.flits := by rw [hq]; rfl
  have hparity : (s.stamped p k).parity = q.parity := by rw [hq]; rfl
  show execRouterInject p err s = _
  simp only [execRouterInject, if_neg hgo, hhead, hgood, Bool.false_eq_true, if_false, if_neg hclass, State.pool_stamped, hflits, hparity, hplace, ← hid]
  rw [hq]
  rfl

/-! ### A packet goes out, or stays too long -/

theorem exec_routerPacketSend {out : Nat} {e : RtEntry} {k : Packet} {v : State} {rest : List (Nat × Packet)} (hgrant : s.granted out = some (e, k))
    (hrest : (takeFirst (fun j => j == (out, k)) e.jobs).map Prod.snd = some rest)
    (hu : u = ((s.bump (Obj.rtPktsOut out)).bumpBy (Obj.rtFlitsOut out) k.flits).bump (Obj.rtClassOut out k.cls))
    (hv : v = if out < 18 ∧ k.probe = false ∧ bit (bits (u.entFor k) 22 18) out = true then u.bump (Obj.rtNonminimal out) else u) :
    exec (.routerPacketSend out) s = .next (State.setJobs ((if k.cls = clsMG then v else { v with router := { v.router with
      lastCl := if k.cls = clsCL then out :: v.router.lastCl.filter (· != out) else v.router.lastCl.filter (· != out) } }).sendOn out e.inPort e.arrNs k) e rest) := by
  subst hv hu
  show execRouterPacketSend out s = _
  simp only [execRouterPacketSend, hgrant, hrest, Option.getD_some, Bool.not_eq_eq_eq_not, Bool.not_true]

theorem State.sendOn_ni {out port arr : Nat} {k : Packet} (hlo : 18 ≤ out) (hhi : out < 22) : s.sendOn out port arr k =
    s.setNi (out - 18) { s.niOf (out - 18) with rxQ := (s.niOf (out - 18)).rxQ ++ [{ k with pool := !s.reserveOk out k }] } := by
  rw [State.sendOn, if_neg (by omega : out ≠ 22), if_pos hlo]

theorem State.sendOn_reserve {out port arr : Nat} {k : Packet} (hout : out < 18) (hown : s.reserveOk out k = true) : s.sendOn out port arr k =
    State.linkSend (s.setLink out { s.link out with spentVc := mput (s.link out).spentVc k.vcNext (mgetD (s.link out).spentVc k.vcNext 0 + k.flits) }) out arr
      { k with level := k.level + 1, pool := false } := by
  simp only [State.sendOn, if_neg (by omega : out ≠ 22), if_neg (by omega : ¬out ≥ 18), hown, if_true, Bool.not_true]

theorem State.sendOn_pool {out port arr : Nat} {k : Packet} (hout : out < 18) (hown : s.reserveOk out k = false) : s.sendOn out port arr k =
    State.linkSend (s.setLink out { s.link out with spentPool := (s.link out).spentPool + k.flits }) out arr { k with level := k.level + 1, pool := true } := by
  simp only [State.sendOn, if_neg (by omega : out ≠ 22), if_neg (by omega : ¬out ≥ 18), hown, Bool.false_eq_true, if_false, Bool.not_false]

theorem State.eligible_iff {out : Nat} {k : Packet} (hout : out < 18) (hprobe : k.probe = false) :
    s.eligible out k = true ↔ s.portOpen out = true ∧ k.level < 7 ∧ s.creditOk out k = true ∧ (s.link out).holds out k = true := by
  have hm : out ≠ 22 := by omega
  have hni : ¬out ≥ 18 := by omega
  simp only [State.eligible, if_neg hm, if_neg hni, hprobe, Bool.false_eq_true, if_false, Bool.and_eq_true, decide_eq_true_eq, and_assoc]

theorem exec_residenceLimitExpiry_buffered {id : Nat} {e : RtEntry} (hfind : s.router.bufs.find? (fun e => decide (e.id = id)) = some e) :
    exec (.residenceLimitExpiry id) s = .next ((s.bump Obj.dropResidence).freeEntry e) := by
  show execResidenceLimitExpiry id s = _
  simp only [execResidenceLimitExpiry, hfind]

theorem exec_residenceLimitExpiry_landed {id : Nat} {w : RxWait} (hnone : s.router.bufs.find? (fun e => decide (e.id = id)) = none)
    (hport : (List.range 18).find? (fun p => (s.link p).rxQ.any fun w => w.id == id) = some p) (hfind : (s.link p).rxQ.find? (fun w => decide (w.id = id)) = some w) :
    exec (.residenceLimitExpiry id) s =
      .next ((((s.setLink p { s.link p with rxQ := (s.link p).rxQ.filter fun x => x.id != id }).bump Obj.dropResidence).giveBackFlits p w.owed w.pkt).resident w.pkt.parity false) := by
  show execResidenceLimitExpiry id s = _
  simp only [execResidenceLimitExpiry, hnone, hport, hfind]

end Sys2Proof.Machine
end

section
/-! Buffer banks that fail or wear out, and what the agent writes of the router (R258, R273, R276, R279). -/

namespace Sys2Proof.Machine

open Sys2Proof

variable {s u : State} {p b : Nat} {w : Who}

theorem State.spareBank_joins {k : Nat} (why : Nat) (hk : (List.range 8).find? (fun b => decide (s.rd (Obj.rtBankState p b) = ustSpare)) = some k) :
    s.spareBank p b why =
      (((s.goState (Obj.rtBankState p k) 0x08 (8 * p + k) ustActive).event 0x3801 0x08 (8 * p + b) noCtx why 0 0).mapNote 0x08 (8 * p + k), true) := by
  simp only [State.spareBank, hk]

theorem State.spareBank_exhausted (why : Nat) (hk : (List.range 8).find? (fun b => decide (s.rd (Obj.rtBankState p b) = ustSpare)) = none) :
    s.spareBank p b why = (s.exhausted 0x08 (8 * p + b) 5 false, false) := by
  simp only [State.spareBank, hk]

theorem State.exhausted_router (cls unit k : Nat) (short : Bool) : (s.exhausted cls unit k short).router = s.router := by
  unfold State.exhausted
  cases short <;> simp

/-- A bank that holds no packet fails: nothing is lost, and a spare bank joins or the flits are withheld (R258). -/
theorem exec_routerBankFail_empty (hp : p ≤ 22) (hb : b ≤ 7) (hactive : s.rd (Obj.rtBankState p b) = ustActive)
    (hempty : s.router.bufs.filter (fun e => e.inPort == p && decide (mgetD e.banks b 0 ≠ 0)) = []) (hworn : s.router.worn = [])
    (hu : u = (s.goState (Obj.rtBankState p b) 0x08 (8 * p + b) ustFailed).addFail 0x08 (8 * p + b)) :
    exec (.routerBankFail p b) s = .next (if (u.spareBank p b 2).2 then (u.spareBank p b 2).1 else { (u.spareBank p b 2).1 with
      router := { (u.spareBank p b 2).1.router with
        poolDebt := mput (u.spareBank p b 2).1.router.poolDebt p (mgetD (u.spareBank p b 2).1.router.poolDebt p 0 + 248) } }) := by
  have hgo : ¬(p > 22 ∨ b > 7 ∨ s.rd (Obj.rtBankState p b) ≠ ustActive) := by simp [hp, hb, hactive]
  have hrouter : u.router = s.router := by simp [hu]
  have hlost : u.router.bufs.filter (fun e => e.inPort == p && decide (mgetD e.banks b 0 ≠ 0)) = [] := hrouter ▸ hempty
  have hnone : u.router.worn = [] := hrouter ▸ hworn
  have hkept : { u with router := { u.router with worn := [] } } = u := by rw [← hnone]
  show execRouterBankFail p b s = _
  simp only [execRouterBankFail, if_neg hgo, ← hu, hlost, List.foldl_nil, hnone, List.filter_nil, hkept, List.contains_nil, Bool.false_eq_true, if_false]

theorem State.bankCe_below (hu : u = s.bumpSat (Obj.rtBankCe p b) 32) (hlow : u.rd (Obj.rtBankCe p b) < u.rd Obj.rtBankCeLimit) : s.bankCe p b = u := by
  subst hu
  exact if_pos (Or.inl hlow)

theorem State.bankCe_worn {r : State} (hu : u = s.bumpSat (Obj.rtBankCe p b) 32) (hlimit : u.rd Obj.rtBankCeLimit ≤ u.rd (Obj.rtBankCe p b))
    (hworn : s.router.worn.contains (8 * p + b) = false) (htold : s.router.told.contains (8 * p + b) = false) (hactive : u.rd (Obj.rtBankState p b) = ustActive)
    (hspare : u.spareBank p b 1 = (r, true)) : s.bankCe p b = { r with router := { r.router with worn := r.router.worn ++ [8 * p + b] } } := by
  have hrouter : u.router = s.router := by rw [hu, State.bumpSat_router]
  have hgo : ¬(u.rd (Obj.rtBankCe p b) < u.rd Obj.rtBankCeLimit ∨ u.router.worn.contains (8 * p + b) = true ∨ u.router.told.contains (8 * p + b) = true ∨
      u.rd (Obj.rtBankState p b) ≠ ustActive) := by
    rintro (h | h | h | h)
    · exact absurd h (Nat.not_lt.mpr hlimit)
    · exact absurd (hrouter ▸ h) (Bool.eq_false_iff.mp hworn)
    · exact absurd (hrouter ▸ h) (Bool.eq_false_iff.mp htold)
    · exact h hactive
  simp only [State.bankCe, ← hu, if_neg hgo, hspare, if_true]

theorem exec_wornBankEmptied (hb : b < 8) (hworn : s.router.worn = [8 * p + b]) (hempty : s.bankUse p b = 0) : exec (.wornBankEmptied p b) s =
    .next (({ s with router := { s.router with worn := [] } }.goState (Obj.rtBankState p b) 0x08 (8 * p + b) ustRetired).mapNote 0x08 (8 * p + b)) := by
  have hport : (8 * p + b) / 8 = p := by omega
  have hbank : (8 * p + b) % 8 = b := by omega
  show Host.Outcome.next (s.retireBank (8 * p + b)) = _
  simp [State.retireBank, hport, hbank, hworn, hempty]

theorem State.bankLoading_free (h : s.rd (Obj.routeBankResident b) = 0) : s.bankLoading b = (s.wr (Obj.routeBankState b) 1, rOk) := if_neg (not_not.mpr h)

theorem State.bankLoading_held (h : s.rd (Obj.routeBankResident b) ≠ 0) : s.bankLoading b = (s, rRefused) := if_pos h

/-- Entries of the local table are loaded into a bank that is LOADING (R259, R273). -/
theorem State.routeLoad_local {v : Bytes} (hlen : v.length = 8 + 8 * leAt v 2 2) (hbank : byteAt v 0 ≤ 1) (htable : byteAt v 1 = 0) (hn : 0 < leAt v 2 2)
    (hend : leAt v 4 4 + leAt v 2 2 ≤ 64) (hloading : s.rd (Obj.routeBankState (byteAt v 0)) = 1)
    (hgood : ((List.range (leAt v 2 2)).map fun i => leAt v (8 + 8 * i) 8).any (fun e => decide (e / 2 ^ 44 ≠ 0) || bit e 21) = false) :
    s.routeLoad v = ({ s with router := { s.router with
      routes := putRoutes ((List.range (leAt v 2 2)).map fun i => leAt v (8 + 8 * i) 8) s.router.routes (65536 * (2 * byteAt v 0) + leAt v 4 4) } }, rOk) := by
  have hrange : ¬(byteAt v 0 > 1 ∨ byteAt v 1 > 1 ∨ leAt v 2 2 = 0 ∨ leAt v 2 2 > 64) := by omega
  have hmay : ¬(s.rd (Obj.routeBankState (byteAt v 0)) ≠ 1 ∨ leAt v 4 4 + leAt v 2 2 > (if byteAt v 1 = 0 then 64 else 65536)) := by
    rw [if_pos htable]
    omega
  simp only [State.routeLoad, if_neg (not_not.mpr hlen), if_neg hrange, if_neg hmay, hgood, Bool.false_eq_true, if_false]
  rw [htable, Nat.add_zero]

theorem State.setParity_valid {v : Nat} (hv : v ≤ 1) (hvalid : s.rd (Obj.routeBankState v) = 2) : s.setParity v = (s.wr Obj.injectParity v, rOk) := by
  rw [State.setParity, if_neg (Nat.not_lt.mpr hv), if_neg (not_not.mpr hvalid)]

theorem State.setParity_invalid {v : Nat} (hv : v ≤ 1) (hvalid : s.rd (Obj.routeBankState v) ≠ 2) : s.setParity v = (s, rRefused) := by
  rw [State.setParity, if_neg (Nat.not_lt.mpr hv), if_pos hvalid]

theorem State.setAdmit_open (hp : p < 18) : s.setAdmit p 1 = (s.wr (Obj.rtAdmit p) 1, rOk) := by
  have hport : ¬p ≥ 23 := by omega
  have hlink : ¬p ≥ 18 := by omega
  simp [State.setAdmit, if_neg hport, if_neg hlink]

theorem State.setAdmit_closed (hp : p < 18) : s.setAdmit p 0 = ((s.wr (Obj.rtAdmit p) 0).reroute p, rOk) := by
  have hport : ¬p ≥ 23 := by omega
  have hlink : ¬p ≥ 18 := by omega
  simp [State.setAdmit, if_neg hport, if_neg hlink]

end Sys2Proof.Machine
end

section
/-! O37: the router's buffers. -/

namespace Sys2Proof.Machine

open Sys2Proof

/-- Settles O37: every row by the branch that its conditions choose, the banks of a packet by induction on the banks in their order. -/
theorem routerBuffers : Obligations.RouterBuffers := by
  unfold Obligations.RouterBuffers
  refine ⟨?landFirst, ?landPast, ?landOrdered, ?packetIn, ?reserve, ?banks, ?inject, ?injectMalformed, ?injectClass, ?injectNone, ?pickFirst, ?pickPast, ?pickBehind, ?send, ?toNi,
    ?onReserve, ?onPool, ?eligible, ?residence, ?residenceLanded, ?bankFail, ?bankFailNoSpare, ?ceBelow, ?ceWorn, ?wornEmptied, ?loading, ?loadingHeld, ?valid, ?load, ?parity,
    ?parityInvalid, ?portOpened, ?portClosed, ?portNoAccess⟩
  case landFirst =>
    intro s p w l hroom
    exact State.landed_takes hroom rfl
  case landPast =>
    intro s p x w l hx hw hfree
    rw [State.landed_noRoom hx]
    exact State.landed_takes hw (by simp [hfree])
  case landOrdered =>
    intro s p x w hx hbehind
    rw [State.landed_noRoom hx, State.landed_ordered (by simp [hbehind])]
    rfl
  case packetIn =>
    intro s p b w rest m u hp hland hopen hplace hu
    refine ⟨fun err hbad => ?_, fun hgood => ⟨?_, ?_, ?_⟩⟩
    · rw [exec_routerPacketIn hp hland hopen hplace hu, if_pos hbad]
    all_goals
      rw [exec_routerPacketIn hp hland hopen hplace hu, hgood]
      rfl
  case reserve =>
    intro s port p hport hpool
    exact State.giveBackFlits_reserve hport hpool
  case banks =>
    intro s p l n m hl h
    exact ⟨fun b hb => State.bankPlace_fits h hb, List.sum_eq_foldl.symm.trans (State.bankPlace_total hl h)⟩
  case inject =>
    intro s p k t m q u id hlo hhi hhead hgood hcls hq hplace hid
    refine ⟨exec_routerInject_enters hlo hhi hhead hgood hcls hq hplace hid, exec_routerInject_enters hlo hhi hhead hgood hcls hq hplace hid, ?_⟩
    rw [exec_routerInject_enters hlo hhi hhead hgood hcls hq hplace hid]
    exact congrArg (fun v => Host.Outcome.next (State.resident v q.parity false)) (State.giveBackFlits_unowed q)
  case injectMalformed =>
    intro s p k t err hlo hhi hhead hbad
    exact exec_routerInject_malformed hlo hhi hhead hbad
  case injectClass =>
    intro s p k t err hlo hhi hhead hgood hcls
    exact exec_routerInject_misclassed hlo hhi hhead hgood hcls
  case injectNone =>
    intro s p err hlo hhi hnone
    show execRouterInject p err s = _
    simp [execRouterInject, hnone]
  case pickFirst =>
    intro s p e l hroom
    exact State.injectPick_takes hroom rfl
  case pickPast =>
    intro s p x e l hx he hne
    rw [State.injectPick_noRoom hx]
    exact State.injectPick_takes he (by simp [hne])
  case pickBehind =>
    intro s p x e hx hcls
    rw [State.injectPick_noRoom hx, State.injectPick_behind (by simp [hcls])]
    rfl
  case send =>
    intro s out e p u v rest hgrant hrest hu hv
    exact exec_routerPacketSend hgrant hrest hu hv
  case toNi =>
    intro s out port arr p hlo hhi
    exact State.sendOn_ni hlo hhi
  case onReserve =>
    intro s out port arr p hout hown
    exact State.sendOn_reserve hout hown
  case onPool =>
    intro s out port arr p hout hown
    exact State.sendOn_pool hout hown
  case eligible =>
    intro s out p hout hprobe
    exact State.eligible_iff hout hprobe
  case residence =>
    intro s id e hfind
    exact exec_residenceLimitExpiry_buffered hfind
  case residenceLanded =>
    intro s id p w hnone hport hfind
    exact exec_residenceLimitExpiry_landed hnone hport hfind
  case bankFail =>
    intro s p b k hp hb hactive hempty hworn hk
    rw [exec_routerBankFail_empty hp hb hactive hempty hworn rfl, State.spareBank_joins 2 hk]
    rfl
  case bankFailNoSpare =>
    intro s p b u hp hb hactive hempty hworn hu hk
    rw [exec_routerBankFail_empty hp hb hactive hempty hworn hu, State.spareBank_exhausted 2 hk]
    simp [State.exhausted_router]
  case ceBelow =>
    intro s port bank u hu hlow
    exact State.bankCe_below hu hlow
  case ceWorn =>
    intro s port bank u r hu hlimit hworn htold hactive hspare
    exact State.bankCe_worn hu hlimit hworn htold hactive hspare
  case wornEmptied =>
    intro s p b hb hworn hempty
    exact exec_wornBankEmptied hb hworn hempty
  case loading =>
    intro s w b hw hb h
    exact accepted_of_ctl rfl hw (by simp only [if_neg (Nat.not_lt.mpr hb), State.bankLoading_free h])
  case loadingHeld =>
    intro s w b hw hb h
    exact denied_of_ctl rfl hw (by simp only [if_neg (Nat.not_lt.mpr hb), State.bankLoading_held h])
  case valid =>
    intro s w b hw hb
    exact accepted_of_ctl rfl hw (if_neg (Nat.not_lt.mpr hb))
  case load =>
    intro s w v hw hlen hbank htable hn hend hloading hgood
    exact accepted_of_ctl rfl (by simp [hw]) (State.routeLoad_local hlen hbank htable hn hend hloading hgood)
  case parity =>
    intro s w v hw hv hvalid
    exact accepted_of_ctl rfl hw (State.setParity_valid hv hvalid)
  case parityInvalid =>
    intro s w v hw hv hvalid
    exact denied_of_ctl rfl hw (State.setParity_invalid hv hvalid)
  case portOpened =>
    intro s w p hw hp
    exact accepted_of_ctl rfl hw (State.setAdmit_open hp)
  case portClosed =>
    intro s w p hw hp
    exact accepted_of_ctl rfl hw (State.setAdmit_closed hp)
  case portNoAccess =>
    intro s w p v hw
    exact denied_noAccess_of_ctl rfl hw

end Sys2Proof.Machine
end

section
/-! What an NI makes of the packets in its buffer: the packet that a row serves, the entry of a request, and the placing of its bytes (R100, R270, R287, R290 to R293). -/

namespace Sys2Proof.Machine

open Sys2Proof

variable {s t u v : State} {i c : Nat} {p : Packet} {d : Bytes} {r : RxMsg} {a : AccR}

/-! ### The packet that a row serves -/

section Rows

variable {mine : Packet → Bool} {iv : State → Packet → Bytes} {k : State → Nat → Packet → Bytes → State} {before rest : List Packet} {want : Nat → Bool}

theorem State.rxFrom_serves (hmine : mine p = true) (hfree : before.any (rxBehind · p) = false)
    (ht : t = (s.setNi i { s.niOf i with rxQ := before ++ rest }).rxServe i iv k p) (hheld : t.heldHit ≤ s.heldHit) : s.rxFrom i mine iv k before (p :: rest) = t := by
  have hserved : ¬((!mine p) = true ∨ before.any (rxBehind · p) = true) := by simp [hmine, hfree]
  rw [State.rxFrom, if_neg hserved, ← ht]
  exact if_neg (Nat.not_lt.mpr hheld)

theorem State.rxFrom_passes (h : mine p = false ∨ before.any (rxBehind · p) = true) : s.rxFrom i mine iv k before (p :: rest) = s.rxFrom i mine iv k (before ++ [p]) rest :=
  if_pos (h.imp_left fun hmine => by simp [hmine])

theorem rxBehind_iff (b p : Packet) : rxBehind b p = true ↔ b.cls = p.cls ∧ b.cls ≠ clsRP := by simp [rxBehind]

/-- A row does its work on the oldest packet where that is its own (R270, R284, R300). -/
theorem Receives.row (h : Receives s i c p d u) (hwant : want p.op = true) (ht : k u c p d = t) (hheld : t.heldHit ≤ s.heldHit) : s.rxRow i want k = t := by
  obtain ⟨rest, hq, hcls, hok, rfl, hdis, hfail, hctx, hopen⟩ := h
  have hmine : (p.cls != clsCL && want p.op) = true := by simp [hcls, hwant]
  have hon : ¬((s.setNi i { s.niOf i with rxQ := rest }).rd (Obj.niState i) = ustDisabled ∨ (s.setNi i { s.niOf i with rxQ := rest }).rd (Obj.niState i) = ustFailed) :=
    not_or.mpr ⟨hdis, hfail⟩
  rw [State.rxRow, State.rxPacket, hq]
  refine State.rxFrom_serves hmine rfl ?_ hheld
  simp only [State.rxServe, List.nil_append, if_neg hon, hctx, hopen, if_pos hok, ht]

end Rows

/-! ### The entry of a request -/

theorem NewRequest.ctx_eq (h : NewRequest s i c p d r v) : r.ctx = c := by
  obtain ⟨u, -, -, -, -, rfl⟩ := h
  rfl

/-- The first packet of a new message is served with its new entry (R292, R295). -/
theorem NewRequest.row {want : Nat → Bool} {k : Nat → Packet → Bytes → State → RxMsg → Bool → State} (h : NewRequest s i c p d r v) (hwant : want p.op = true)
    (ht : k c p d v r true = t) (hheld : t.heldHit ≤ s.heldHit) : s.rxRow i want (fun s c p d => s.rxEntry i c p (k c p d)) = t := by
  obtain ⟨u, hrec, hnew, hquiet, rfl, rfl⟩ := h
  refine hrec.row hwant ?_ hheld
  simp only [State.rxEntry, hnew, if_neg hquiet, ht]

theorem Receives.row_duplicate {want : Nat → Bool} {k : Nat → Packet → Bytes → State → RxMsg → Bool → State} (h : Receives s i c p d u) (hwant : want p.op = true)
    (hentry : u.rxOf i c p = some r) (hdup : r.quarantined = true ∨ bit r.bitmap p.index = true) (ht : u.bump Obj.rxDuplicates = t) (hheld : t.heldHit ≤ s.heldHit) :
    s.rxRow i want (fun s c p d => s.rxEntry i c p (k c p d)) = t := by
  refine h.row hwant ?_ hheld
  simp only [State.rxEntry, hentry, if_pos hdup, ht]

/-! ### The bytes of a packet -/

section Place

variable {perm base : Nat} {done : State → RxMsg → State}

theorem State.placeRx_done (ha : s.write r.ctx .ni perm ((niLoc r.ctx base).adv (256 * p.index)) (d.take p.bytesIn) = a) (hok : a.st = .ok)
    (hall : (a.s.countRx r p).2.got = (a.s.countRx r p).2.len) : s.placeRx r p d perm base done = done (a.s.countRx r p).1 (a.s.countRx r p).2 := by
  rw [State.placeRx, ha, if_neg (not_not.mpr hok)]
  exact if_pos hall

theorem State.placeRx_more (ha : s.write r.ctx .ni perm ((niLoc r.ctx base).adv (256 * p.index)) (d.take p.bytesIn) = a) (hok : a.st = .ok)
    (hmore : (a.s.countRx r p).2.got ≠ (a.s.countRx r p).2.len) : s.placeRx r p d perm base done = (a.s.countRx r p).1 := by
  rw [State.placeRx, ha, if_neg (not_not.mpr hok)]
  exact if_neg hmore

theorem State.placeRx_fails (ha : s.write r.ctx .ni perm ((niLoc r.ctx base).adv (256 * p.index)) (d.take p.bytesIn) = a) (hbad : a.st ≠ .ok) :
    s.placeRx r p d perm base done = a.s.rxFail r a := by
  rw [State.placeRx, ha, if_pos hbad]

end Place

theorem key_rxWindowRefused_ne_protEpoch (c : Nat) : Obj.rxWindowRefused.key ≠ (Obj.protEpoch c).key := by
  simp only [Obj.rxWindowRefused, Obj.protEpoch, objKey]
  omega

/-- A request of the present epoch that misses its window is counted and answered with its status (R287, R396). -/
theorem State.rxFail_window (hwin : a.win = true) (hop : r.op ≠ poCopyTo) (hepoch : r.epoch = a.s.rd (Obj.protEpoch r.ctx)) :
    s.rxFail r a = (a.s.bump Obj.rxWindowRefused).ackRx r a.st 0 [] := by
  have hsame : ¬(a.win = true ∧ r.epoch ≠ (a.s.bump Obj.rxWindowRefused).rd (Obj.protEpoch r.ctx)) := by
    rw [State.rd_bump, if_neg (key_rxWindowRefused_ne_protEpoch r.ctx)]
    exact fun h => h.2 hepoch
  simp only [State.rxFail, if_pos hwin, if_neg hsame, if_neg hop]

end Sys2Proof.Machine
end

section
/-! What each op does at its target, and what a reply does at the requester (R286 to R289, R297, R308, R309). -/

namespace Sys2Proof.Machine

open Sys2Proof

variable {s t u v : State} {i c : Nat} {p : Packet} {d : Bytes} {r : RxMsg} {a : AccR} {b : Inbox} {o : OutMsg}

/-! ### Requests at the target -/

theorem exec_rxPut_new (h : NewRequest s i c p d r v) (hop : p.op = poPut)
    (ht : v.placeRx r p d (v.remoteNeed p.src permWrite) p.target (fun s r => (s.land i c p.sub).ackRx r .ok 0 []) = t) (hheld : t.heldHit ≤ s.heldHit) :
    exec (.rxPut i) s = .next t := congrArg Host.Outcome.next (h.row (by simp [hop]) ht hheld)

theorem exec_rxFwd_new (h : NewRequest s i c p d r v) (hop : p.op = poFwd)
    (ht : v.placeRx r p d (v.remoteNeed p.src permWrite) p.target (fun s r => s.ackRx r .ok 0 []) = t) (hheld : t.heldHit ≤ s.heldHit) :
    exec (.rxFwd i) s = .next t := congrArg Host.Outcome.next (h.row (by simp [hop]) ht hheld)

theorem exec_rxGet_read {n : Nat} (h : NewRequest s i c p d r v) (hop : p.op = poGet) (hn : n = min 65536 (max 1 (leAt d 0 4)))
    (ha : v.read c .ni (v.remoteNeed p.src permRead) (niLoc c p.target) n = a) (hok : a.st = .ok)
    (ht : (a.s.sendData_ { r with len := n } a.data true).updRx r.id (fun x => { x with quarantined := true, len := n, got := n }) = t) (hheld : t.heldHit ≤ s.heldHit) :
    exec (.rxGet i) s = .next t := by
  refine congrArg Host.Outcome.next (h.row (by simp [hop]) ?_ hheld)
  simp only [← hn, ha, if_pos hok, ht]

theorem exec_rxAtomic_done {m : State × Status × Nat} {x : State × Status × Nat} (h : NewRequest s i c p d r v) (hop : p.op = poAtomic32 ∨ p.op = poAtomic64)
    (hm : v.resolve c .ni (v.remoteNeed p.src permAtomic) (niLoc c p.target) (if p.op == poAtomic64 then 8 else 4) = m) (hres : m.2.1 = .ok)
    (hx : m.1.atomic m.2.2 p.sub (p.op == poAtomic64) (leAt d 0 8) (leAt d 8 8) = x) (hok : x.2.1 = .ok)
    (ht : x.1.ackRx r .ok 0 (leBytes 8 x.2.2 ++ zeros 8) = t) (hheld : t.heldHit ≤ s.heldHit) : exec (.rxAtomic i) s = .next t := by
  refine congrArg Host.Outcome.next (h.row (by simpa using hop) ?_ hheld)
  simp only [hm, hres, hx, hok, ne_eq, not_true_eq_false, if_false, if_true, ht]

theorem State.notifyPut_full {value src origin : Nat} (hfull : (s.rd (Obj.notifyTail c) + 1) % s.rd (Obj.notifyEntries c) = s.rd (Obj.notifyHead c)) :
    s.notifyPut c value src origin = (s, .timeout, false) := if_pos hfull

/-- A message's entry is written at the tail of the ring (R287). -/
theorem State.notifyPut_written {value src : Nat} (hroom : (s.rd (Obj.notifyTail c) + 1) % s.rd (Obj.notifyEntries c) ≠ s.rd (Obj.notifyHead c))
    (ha : s.write c .ni (s.remoteNeed src permWrite) ((niLoc c (s.rd (Obj.notifyBase c))).adv (16 * s.rd (Obj.notifyTail c)))
      (leBytes 8 value ++ leBytes 3 src ++ leBytes 1 0 ++ zeros 4) = a) (hok : a.st = .ok) :
    s.notifyPut c value src 0 = (a.s.wr (Obj.notifyTail c) ((s.rd (Obj.notifyTail c) + 1) % s.rd (Obj.notifyEntries c)), .ok, false) := by
  simp only [State.notifyPut, if_neg hroom, if_true, ha, hok, ne_eq, not_true_eq_false, if_false]

theorem exec_rxNotify_new {st : Status} (h : NewRequest s i c p d r v) (hop : p.op = poNotify) (hput : v.notifyPut c (leAt d 0 8) p.src 0 = (u, st, false))
    (ht : u.ackRx r st 0 [] = t) (hheld : t.heldHit ≤ s.heldHit) : exec (.rxNotify i) s = .next t := by
  refine congrArg Host.Outcome.next (h.row (by simp [hop]) ?_ hheld)
  simp only [hput, Bool.false_eq_true, if_false, ht]

theorem exec_rxTask_new (h : NewRequest s i c p d r v) (hop : p.op = poTask)
    (ht : { v.updRx r.id (fun x => { x with bitmap := 1, got := x.len }) with posts := v.posts ++ [⟨.ni i r.id, c, p.target, fit 64 d⟩] } = t)
    (hheld : t.heldHit ≤ s.heldHit) : exec (.rxTask i) s = .next t := congrArg Host.Outcome.next (h.row (by simp [hop]) ht hheld)

theorem exec_rxCopyTo_read {dst : Nat} (h : NewRequest s i c p d r v) (hop : p.op = poCopyTo)
    (ha : (v.updRx r.id fun x => { x with bitmap := 1, got := x.len }).read c .ni (v.remoteNeed p.src permRead) (niLoc c p.target) p.msgLen = a) (hok : a.st = .ok)
    (hdst : a.s.rankAddr c (leAt d 8 4 % 4096) = some dst) (ht : a.s.forward ⟨i, c, r.id, dst, leAt d 0 6, a.data⟩ = t) (hheld : t.heldHit ≤ s.heldHit) :
    exec (.rxCopyTo i) s = .next t := by
  have hneed : (v.updRx r.id fun x => { x with bitmap := 1, got := x.len }).remoteNeed p.src permRead = v.remoteNeed p.src permRead := rfl
  refine congrArg Host.Outcome.next (h.row (by simp [hop]) ?_ hheld)
  simp only [hneed, ha, hok, ne_eq, not_true_eq_false, if_false, hdst, ht]

/-! ### The message that a COPY_TO makes -/

section Forward

variable {j : FwdJob}

theorem State.forward_sends (hfree : s.fwdBar j = none) (hroom : s.outsAt j.ni < 8192) : s.forward j = s.sendFwd j := by
  simp only [State.forward, hfree, if_pos hroom]

theorem State.forward_waits (hfree : s.fwdBar j = none) (hfull : 8192 ≤ s.outsAt j.ni) : s.forward j = { s with ni := { s.ni with fwdQ := s.ni.fwdQ ++ [j] } } := by
  simp only [State.forward, hfree, if_neg (Nat.not_lt.mpr hfull)]

theorem State.forward_barred {st : Status} (hbar : s.fwdBar j = some st) : s.forward j = s.fwdFail j st := by
  simp only [State.forward, hbar]

theorem State.fwdBar_eq (s : State) (j : FwdJob) : s.fwdBar j = if (s.blocked [j.dst]).isSome = true then some .destLost else
    if s.mustKey j.ctx = true ∨ s.canSend j.ni j.ctx = false then some .violation else none := by
  simp only [State.fwdBar, Bool.not_eq_eq_eq_not, Bool.not_true]

end Forward

/-! ### Tokens -/

theorem exec_rxToken_unknown (h : NewRequest s i c p d r v) (hop : p.op = poToken) (hnone : v.inbox c (p.target / 2 ^ 40) = none)
    (ht : (v.bump Obj.dispatchRefused).ackRx r .ok (2 ^ 48 - 1) [] = t) (hheld : t.heldHit ≤ s.heldHit) : exec (.rxToken i) s = .next t := by
  refine congrArg Host.Outcome.next (h.row (by simp [hop]) ?_ hheld)
  simp only [hnone, ht]

theorem exec_rxToken_refused (h : NewRequest s i c p d r v) (hop : p.op = poToken) (hinbox : v.inbox c (p.target / 2 ^ 40) = some b)
    (hfull : b.capacity ≤ b.next ∨ b.slotBytes < p.msgLen) (ht : (v.bump Obj.dispatchRefused).ackRx r .ok (2 ^ 48 - 1) [] = t) (hheld : t.heldHit ≤ s.heldHit) :
    exec (.rxToken i) s = .next t := by
  have hrefused : b.next ≥ b.capacity ∨ p.msgLen > b.slotBytes := hfull
  refine congrArg Host.Outcome.next (h.row (by simp [hop]) ?_ hheld)
  simp only [hinbox, true_and, if_pos hrefused, ht]

/-- A token that does not complete with its first packet takes the next slot (R308). -/
theorem exec_rxToken_placed {x : State} (h : NewRequest s i c p d r v) (hop : p.op = poToken) (hinbox : v.inbox c (p.target / 2 ^ 40) = some b) (hslot : b.next < b.capacity)
    (hlen : p.msgLen ≤ b.slotBytes) (hx : x = (v.setInbox { b with next := b.next + 1 }).updRx r.id (fun _ => { r with place := some b.next }))
    (ha : x.write c .ni (x.remoteNeed p.src permWrite) ((niLoc c (b.area + b.next * b.slotBytes)).adv (256 * p.index)) (d.take p.bytesIn) = a) (hok : a.st = .ok)
    (hmore : (a.s.countRx { r with place := some b.next } p).2.got ≠ (a.s.countRx { r with place := some b.next } p).2.len)
    (ht : (a.s.countRx { r with place := some b.next } p).1 = t) (hheld : t.heldHit ≤ s.heldHit) : exec (.rxToken i) s = .next t := by
  have hroom : ¬(b.next ≥ b.capacity ∨ p.msgLen > b.slotBytes) := by omega
  obtain rfl := h.ctx_eq
  refine congrArg Host.Outcome.next (h.row (by simp [hop]) ?_ hheld)
  simp only [hinbox, true_and, if_neg hroom, if_true, ← hx]
  exact (State.placeRx_more (r := { r with place := some b.next }) ha hok hmore).trans ht

theorem exec_rxDone_counted (h : NewRequest s i c p d r v) (hop : p.op = poDone) (hinbox : v.inbox c (p.target / 2 ^ 40) = some b)
    (ht : (v.ackRx r .ok 0 []).fireInbox i { b with doneGot := b.doneGot + 1, announced := b.announced + leAt d 0 4 } = t) (hheld : t.heldHit ≤ s.heldHit) :
    exec (.rxDone i) s = .next t := by
  refine congrArg Host.Outcome.next (h.row (by simp [hop]) ?_ hheld)
  simp only [hinbox, ht]

/-! ### Replies at the requester -/

/-- The one answer that a PUT waits for completes it (R286). -/
theorem exec_rxAck_put (h : Receives s i c p d u) (hop : p.op = poAck) (hout : u.outOf i c p = some o) (hlive : o.quarantined = false) (hwaits : o.waiting = [p.src])
    (hsub : p.sub = 0) (hst : o.status = .ok) (hput : o.op = poPut) (ht : u.outDone { o with waiting := [], status := .ok } .ok o.detail = t)
    (hheld : t.heldHit ≤ s.heldHit) : exec (.rxAck i) s = .next t := by
  have hcode : (Status.ofCode? 0).getD .violation = .ok := rfl
  have hfirst : Status.ok.first .ok = .ok := rfl
  have hnew : ¬(o.quarantined = true ∨ (!o.waiting.contains p.src) = true) := by simp [hlive, hwaits]
  have hlast : o.waiting.filter (· != p.src) = [] := by simp [hwaits]
  have hatomic : ¬(o.op = poAtomic32 ∨ o.op = poAtomic64) := by simp [hput]
  have htoken : ¬o.op = poToken := by simp [hput]
  refine congrArg Host.Outcome.next (h.row (by simp [hop]) ?_ hheld)
  simp only [hout, if_neg hnew, hsub, hcode, hst, hfirst, if_true, hlast, List.isEmpty_nil, Bool.not_true, Bool.false_eq_true, if_false, true_and, and_true, if_neg hatomic, if_neg htoken,
    ht]

/-- The last bytes of a GET's reply complete it (R292). -/
theorem exec_rxData_last (h : Receives s i c p d u) (hop : p.op = poData) (hout : u.outOf i c p = some o) (hlive : o.quarantined = false)
    (hnew : bit o.bitmap p.index = false) (hget : o.op = poGet) (hlen : p.msgLen = o.len)
    (ha : u.write c .ni permWrite ((niLoc c o.localAddr).adv (256 * p.index)) (d.take p.bytesIn) = a) (hok : a.st = .ok) (hall : o.got + p.bytesIn = o.len)
    (ht : (a.s.updOut o fun _ => { o with got := o.got + p.bytesIn, bitmap := o.bitmap + 2 ^ p.index }).outDone
      { o with got := o.got + p.bytesIn, bitmap := o.bitmap + 2 ^ p.index } .ok ndNone = t) (hheld : t.heldHit ≤ s.heldHit) : exec (.rxData i) s = .next t := by
  have htaken : ¬(o.quarantined = true ∨ bit o.bitmap p.index = true ∨ o.op ≠ poGet ∨ p.msgLen ≠ o.len) := by simp [hlive, hnew, hget, hlen]
  have hearly : ¬(p.lastFlag = true ∧ o.got + p.bytesIn < o.len) := by simp [hall]
  refine congrArg Host.Outcome.next (h.row (by simp [hop]) ?_ hheld)
  simp only [hout, if_neg htaken, ha, hok, ne_eq, not_true_eq_false, if_false, if_neg hearly, if_pos hall, ht]

/-! ### Time -/

theorem exec_quarantineExpiry_out {k : Nat} (hout : s.ni.outs[k]? = some o) (hq : o.quarantined = true) :
    exec (.quarantineExpiry false k) s = .next (State.fwdNext { s with ni := { s.ni with outs := s.ni.outs.eraseIdx k } } o.ni) := by
  show execQuarantineExpiry false k s = _
  simp only [execQuarantineExpiry, Bool.false_eq_true, if_false, hout, if_pos hq]

theorem exec_rxPartialExpiry {id : Nat} (hfind : (s.ni.rxs.find? fun r => r.id = id ∧ !r.quarantined ∧ r.got < r.len) = some r) :
    exec (.rxPartialExpiry id) s = .next ((s.bump Obj.rxPartialExpired).freeRx r) := by
  show execRxPartialExpiry id s = _
  simp only [execRxPartialExpiry, hfind]

theorem exec_niOpTimeout {slot m : Nat} (hfind : (s.ni.outs.find? fun o => o.ni = i ∧ o.ctx = c ∧ o.slot = slot ∧ o.msgId = m ∧ !o.quarantined) = some o) :
    exec (.niOpTimeout i c slot m) s = .next (s.outDone o .timeout ndNoReply) := by
  show execNiOpTimeout i c slot m s = _
  simp only [execNiOpTimeout, hfind]

end Sys2Proof.Machine
end

section
/-! O40: requests at a target, replies, quarantine and timeouts. -/

namespace Sys2Proof.Machine

open Sys2Proof

/-- Settles O40: a row serves its packet with the message's entry, and each op takes the branch that its access chooses. -/
theorem networkReceipt : Obligations.NetworkReceipt := by
  unfold Obligations.NetworkReceipt
  refine ⟨?putDone, ?putMore, ?putWindow, ?putDuplicate, ?fwdDone, ?get, ?atomic, ?notify, ?notifyFull, ?task, ?copyTo, ?fwdSends, ?fwdWaits, ?fwdBarred, ?fwdBar, ?serves, ?passes,
    ?behind, ?tokenUnknown, ?tokenRefused, ?tokenPlaced, ?done, ?ack, ?data, ?rxQuarantine, ?outQuarantine, ?partialExpiry, ?timeout⟩
  case putDone =>
    intro s i c p d r v a t h hop ha hok hall ht hheld
    obtain rfl := h.ctx_eq
    exact exec_rxPut_new h hop ((State.placeRx_done ha hok hall).trans ht.symm) hheld
  case putMore =>
    intro s i c p d r v a t h hop ha hok hmore ht hheld
    obtain rfl := h.ctx_eq
    exact exec_rxPut_new h hop ((State.placeRx_more ha hok hmore).trans ht.symm) hheld
  case putWindow =>
    intro s i c p d r v a t h hop ha hviol hwin hput hepoch ht hheld
    obtain rfl := h.ctx_eq
    refine exec_rxPut_new h hop ?_ hheld
    rw [State.placeRx_fails ha (by simp [hviol]), State.rxFail_window hwin (by simp [hput]) hepoch, hviol, ht]
  case putDuplicate =>
    intro s i c p d r u t h hop hentry hdup ht hheld
    exact congrArg Host.Outcome.next (h.row_duplicate (by simp [hop]) hentry hdup ht.symm hheld)
  case fwdDone =>
    intro s i c p d r v a t h hop ha hok hall ht hheld
    obtain rfl := h.ctx_eq
    exact exec_rxFwd_new h hop ((State.placeRx_done ha hok hall).trans ht.symm) hheld
  case get =>
    intro s i c p d r v a n t h hop hn ha hok ht hheld
    exact exec_rxGet_read h hop hn ha hok ht.symm hheld
  case atomic =>
    intro s i c p d r v m b t h hop hm hres hb hok ht hheld
    exact exec_rxAtomic_done h hop hm hres hb hok ht.symm hheld
  case notify =>
    intro s i c p d r v a t h hop hroom ha hok ht hheld
    exact exec_rxNotify_new h hop (State.notifyPut_written hroom ha hok) ht.symm hheld
  case notifyFull =>
    intro s i c p d r v t h hop hfull ht hheld
    exact exec_rxNotify_new h hop (State.notifyPut_full hfull) ht.symm hheld
  case task =>
    intro s i c p d r v t h hop ht hheld
    exact exec_rxTask_new h hop ht.symm hheld
  case copyTo =>
    intro s i c p d r v a dst t h hop ha hok hdst ht hheld
    exact exec_rxCopyTo_read h hop ha hok hdst ht.symm hheld
  case fwdSends =>
    intro s j hfree hroom
    exact State.forward_sends hfree hroom
  case fwdWaits =>
    intro s j hfree hfull
    exact State.forward_waits hfree hfull
  case fwdBarred =>
    intro s j st hbar
    exact State.forward_barred hbar
  case fwdBar => exact State.fwdBar_eq
  case serves =>
    intro s i mine iv k before p rest t hmine hfree ht hheld
    exact State.rxFrom_serves hmine hfree ht hheld
  case passes =>
    intro s i mine iv k before p rest h
    exact State.rxFrom_passes h
  case behind => exact rxBehind_iff
  case tokenUnknown =>
    intro s i c p d r v t h hop hnone ht hheld
    exact exec_rxToken_unknown h hop hnone ht.symm hheld
  case tokenRefused =>
    intro s i c p d r v b t h hop hinbox hfull ht hheld
    exact exec_rxToken_refused h hop hinbox hfull ht.symm hheld
  case tokenPlaced =>
    intro s i c p d r v b x a t h hop hinbox hslot hlen hx ha hok hmore ht hheld
    exact exec_rxToken_placed h hop hinbox hslot hlen hx ha hok hmore ht.symm hheld
  case done =>
    intro s i c p d r v b t h hop hinbox ht hheld
    exact exec_rxDone_counted h hop hinbox ht.symm hheld
  case ack =>
    intro s i c p d u o t h hop hout hlive hwaits hsub hst hput ht hheld
    exact exec_rxAck_put h hop hout hlive hwaits hsub hst hput ht.symm hheld
  case data =>
    intro s i c p d u o a t h hop hout hlive hnew hget hlen ha hok hall ht hheld
    exact exec_rxData_last h hop hout hlive hnew hget hlen ha hok hall ht.symm hheld
  case rxQuarantine =>
    intro s k
    rfl
  case outQuarantine =>
    intro s k o hout hq
    exact exec_quarantineExpiry_out hout hq
  case partialExpiry =>
    intro s id r hfind
    exact exec_rxPartialExpiry hfind
  case timeout =>
    intro s i c slot m o hfind
    exact exec_niOpTimeout hfind

end Sys2Proof.Machine
end

section
/-! A command at the head of an NI's queue goes on as its op does, and the oldest CL packet of an NI is served for its session (R280, R283, R285, R303, R306). -/

namespace Sys2Proof.Machine

open Sys2Proof

variable {s t u v : State} {i c : Nat} {ins : Instr}

@[simp] theorem State.setNiq_setNiq (v w : NiQueue) : (s.setNiq i c v).setNiq i c w = s.setNiq i c w := by simp [State.setNiq]

section Starts

variable {op : Nat} {a : NiActive} {want : Nat → Bool} {k : State → NiActive → State}

/-- The oldest command of a queue goes on as its op does (R280, R285). -/
theorem NiStarts.niStart (h : NiStarts s i c op a u) (hwant : want op = true) : s.niStart i c want k = s.unlessHeld (k u a) := by
  obtain ⟨d, q, hqueue, rfl, hmay, hroom, hgood, hkey, rfl, rfl⟩ := h
  have hgood' (v : NiQueue) : (s.setNiq i c v).niMalformed d.bytes = false := hgood
  have hkey' (v : NiQueue) : ¬(nOp d.bytes < 8 ∧ (s.setNiq i c v).mustKey c = true) := fun hbar => Bool.false_ne_true ((hkey hbar.1).symm.trans hbar.2)
  have hstarts : ¬((!want (nOp d.bytes)) = true ∨ (!s.niMayStart i c d) = true ∨ s.outsAt i + msgsOf d.bytes > 8192) := by simp [hwant, hmay, hroom]
  simp only [State.niStart, hqueue, if_neg hstarts, hgood', Bool.false_eq_true, if_false, if_neg (hkey' _), State.niq_setNiq, State.setNiq_setNiq]
  rfl

theorem NiStarts.next (h : NiStarts s i c op a u) (hc : exec ins s = .next (s.niStart i c want k)) (hwant : want op = true) (hk : k u a = t) :
    exec ins s = .next (s.unlessHeld t) := by
  rw [hc, h.niStart hwant, hk]

end Starts

section Packets

variable {n : Nat} {x : ClSession} {p : Packet} {d : Bytes} {ahead : Bool} {kind : Nat → Bool} {k : State → ClSession → Packet → Bytes → Bool → State}

/-- A CL packet of the present or the next invocation of a session that is not BROKEN is served for it (R303, R306). -/
theorem ReceivesCl.clPacket (h : ReceivesCl s i n x p d ahead u) (hkind : kind n = true) (hk : k u x p d ahead = t) (hheld : t.heldHit ≤ s.heldHit) :
    s.clPacket i kind k = t := by
  obtain ⟨rest, c, hq, hcls, rfl, rfl, hdis, hfail, hctx, hopen, hok, hsess, hwhole, hstage, hoff, hinv, hnext⟩ := h
  have hmine : (p.cls == clsCL && kind p.clKind) = true := by simp [hcls, hkind]
  have hon : ¬((s.setNi i { s.niOf i with rxQ := rest }).rd (Obj.niState i) = ustDisabled ∨ (s.setNi i { s.niOf i with rxQ := rest }).rd (Obj.niState i) = ustFailed) :=
    not_or.mpr ⟨hdis, hfail⟩
  have hfits : ¬(x.broken.isSome = true ∨ (p.clStage = 1 ∧ x.line1.isNone = true) ∨ 256 * p.clOff ≥ x.len) := by
    rintro (hbroken | ⟨hone, hnone⟩ | hpast)
    · simp [hwhole] at hbroken
    · simp [Option.isNone_iff_eq_none.mp hnone] at hstage
      exact hstage hone
    · omega
  rw [State.clPacket, State.rxPacket, hq]
  refine State.rxFrom_serves hmine rfl ?_ hheld
  symm
  simp only [State.rxServe, List.nil_append, if_neg hon, hctx, hopen, hok, Bool.not_true, Bool.false_eq_true, if_false, hsess, if_neg hfits]
  cases ahead with
  | false => exact (if_pos hinv).trans hk
  | true => exact (if_neg (hnext rfl)).trans ((if_pos hinv).trans hk)

theorem ReceivesCl.next (h : ReceivesCl s i n x p d ahead u) (hc : exec ins s = .next (s.clPacket i kind k)) (hkind : kind n = true) (hk : k u x p d ahead = t)
    (hheld : t.heldHit ≤ s.heldHit) : exec ins s = .next t := by
  rw [hc, h.clPacket hkind hk hheld]

end Packets

end Sys2Proof.Machine
end

section
/-! Collective sessions, their invocations and their packets (R296, R302 to R306). -/

namespace Sys2Proof.Machine

open Sys2Proof

variable {s t u v : State} {i c n : Nat} {x y : ClSession}

/-! ## Sessions -/

/-- The session that a CL_OPEN asks for (R302). -/
def clOpened (i c : Nat) (b : Bytes) : ClSession :=
  ⟨c, nSub b, i, nLocal b, nRemote b, nLen b, nCount b % 256, bits (nCount b) 8 8, bits (nCount b) 16 8, nCount b / 2 ^ 24, lineOf (nOperand b % 65536),
    if bit (nOperand b) 32 then some (lineOf (bits (nOperand b) 16 16)) else none, [], 0, none, 0, [], [.empty, .empty], [.empty, .empty], [], none, none⟩

/-- A CL_OPEN of a session number that its context does not use opens it where the buffer and the context have room (R302). -/
theorem exec_clOpen_new {a : NiActive} (h : NiStarts s i c 9 a u) (hnew : u.clSess c (nSub a.bytes) = none) : exec (.clOpen i c) s = .next (s.unlessHeld
    (if 16777216 < u.clUsed + (clOpened i c a.bytes).reserved ∨ 16 ≤ (u.ni.sessions.filter fun y => y.ctx == c).length then
      u.updNiActive i c a.serial fun a => a.merge .timeout ndSession
    else State.clCount { u with ni := { u.ni with sessions := u.ni.sessions ++ [clOpened i c a.bytes] } })) := by
  refine h.next (show exec (.clOpen i c) s = _ from rfl) rfl ?_
  simp only [hnew, Option.isSome_none, Bool.false_eq_true, if_false]
  rfl

theorem State.clSess_setSess (h : s.clSess x.ctx x.num = some y) : (s.setSess x).clSess x.ctx x.num = some x := by
  have hsame : (fun z : ClSession => decide (z.ctx = x.ctx ∧ z.num = x.num)) = fun z => z.ctx == x.ctx && z.num == x.num := by
    funext z
    simp [Bool.beq_eq_decide_eq]
  unfold State.clSess at h ⊢
  rw [hsame] at h ⊢
  exact find?_updFirst _ x (by simp) h

theorem State.clTryClose_open (h : x.closing = none) : s.clTryClose x = s := by rw [State.clTryClose, h]

/-- A CL_CLOSE completes where no invocation runs or waits (R306). -/
theorem State.clTryClose_idle {k : Nat} (hclosing : x.closing = some k) (hrun : x.running = none) (hqueued : x.queued = []) :
    s.clTryClose x = (s.clDrop x).clCmdDone x.ctx k .ok ndNone := by
  simp [State.clTryClose, hclosing, hrun, hqueued]

/-- The outcome of a command is of its queue alone. -/
@[simp] theorem State.clSess_clCmdDone (ctx k : Nat) (st : Status) (detail : Nat) : (s.clCmdDone ctx k st detail).clSess c n = s.clSess c n := rfl

@[simp] theorem State.clSess_foldl_clCmdDone (l : List Nat) (ctx : Nat) (st : Status) (detail : Nat) :
    (l.foldl (fun s k => s.clCmdDone ctx k st detail) s).clSess c n = s.clSess c n := by
  induction l generalizing s with
  | nil => rfl
  | cons k l ih => rw [List.foldl_cons, ih, State.clSess_clCmdDone]

/-- The session that a broken one leaves behind (R306). -/
def ClSession.brokenBy (x : ClSession) (st : Status) (d : Nat) : ClSession := { x with running := none, queued := [], broken := some (st, d) }

/-- A session whose invocation ends with a status other than OK is BROKEN with that status (R306). -/
theorem State.clSess_clBreak (st : Status) (d : Nat) (h : s.clSess x.ctx x.num = some x) (hopen : x.closing = none) :
    (s.clBreak x st d).clSess x.ctx x.num = some (x.brokenBy st d) := by
  show ((State.setSess _ (x.brokenBy st d)).clTryClose (x.brokenBy st d)).clSess x.ctx x.num = _
  rw [State.clTryClose_open (x := x.brokenBy st d) hopen]
  refine State.clSess_setSess (x := x.brokenBy st d) (y := x) ?_
  refine (State.clSess_foldl_clCmdDone x.queued x.ctx st d).trans ?_
  cases x.running <;> exact h

/-! ## Invocations -/

/-- The oldest invocation that waits begins with the accumulators kept for it (R304). -/
theorem exec_clInvocationStart_next {k : Nat} {l : List Nat} (h : s.clSess c n = some x) (hqueued : x.queued = k :: l) (hidle : x.running = none) :
    exec (.clInvocationStart c n) s = .next (s.unlessHeld (State.clAdvance 2 ((s.setSess { x with
      queued := l, running := some k, inv := (x.inv + 1) % 2 ^ 32, stage := 0, parts := x.nextParts, nextParts := [], cur := x.nxt, nxt := [.empty, .empty] }).clStageStart c n) c n)) := by
  show execClInvocationStart c n s = _
  simp only [execClInvocationStart, h, hqueued, hidle, Option.isSome_none, Bool.false_eq_true, if_false]

theorem exec_clInvocationStart_running (h : s.clSess c n = some x) (hrun : x.running.isSome = true) : exec (.clInvocationStart c n) s = .next s := by
  show execClInvocationStart c n s = _
  cases hqueued : x.queued <;> simp only [execClInvocationStart, h, hqueued, hrun, if_true]

theorem exec_clTimeout_running (h : s.clSess c n = some x) (hrun : x.running.isSome = true) : exec (.clTimeout c n) s = .next (s.clBreak x .timeout ndSession) := by
  have hbusy : ¬x.running.isNone = true := by simp [Option.isSome_iff_ne_none.mp hrun]
  show execClTimeout c n s = _
  simp only [execClTimeout, h, if_neg hbusy]

theorem exec_suspectTimeout_first {pos : Nat} (hbit : bit (s.rd Obj.suspectMask) pos = true) (hnew : s.ni.suspect50.contains pos = false) :
    exec (.suspectTimeout pos) s =
      .next (({ s with ni := { s.ni with suspect50 := s.ni.suspect50 ++ [pos] } }.loseOuts (· == pos) ndSuspect).loseSessions (· == pos)) := by
  show execSuspectTimeout pos s = _
  simp only [execSuspectTimeout, hbit, hnew, Bool.not_false, and_self, if_true]

/-! ## Contributions and results -/

/-- A member is counted once for each part (R303). -/
theorem ClStage.reduce_heard {g : ClStage} {m off : Nat} (fresh : Nat) (d : Bytes) (h : bit (mgetD g.heard off 0) m = true) : g.reduce x fresh m off d = (g, true) := if_pos h

theorem ClStage.reduce_unheard {g : ClStage} {m off : Nat} (fresh : Nat) (d : Bytes) (h : bit (mgetD g.heard off 0) m = false) : (g.reduce x fresh m off d).2 = false := by
  simp [ClStage.reduce, h]

theorem clElem_nan {op v a : Nat} (b : Nat) (h : bf16.dec a = .nan) : clElem 1 op v a b = bf16.nanCode v := if_pos (Or.inl h)

section Contribution

variable {p : Packet} {d : Bytes} {ahead : Bool}

/-- A contribution to a part of this member's shard, from a member of the line at its own position (R303). -/
def State.TakesPart (s : State) (x : ClSession) (p : Packet) : Prop :=
  x.kind ≤ 1 ∧ ((s.myShard x p.clStage).1 ≤ p.clOff ∧ p.clOff < (s.myShard x p.clStage).1 + (s.myShard x p.clStage).2) ∧
    bit (x.line p.clStage).mask ((x.line p.clStage).idxOf (p.src / 4 % 64)) = true ∧
    (x.line p.clStage).posOf ((x.line p.clStage).idxOf (p.src / 4 % 64)) = p.src / 4 % 64

theorem State.TakesPart.expected (h : s.TakesPart x p) : ¬(x.kind > 1 ∨
    (!decide ((s.myShard x p.clStage).1 ≤ p.clOff ∧ p.clOff < (s.myShard x p.clStage).1 + (s.myShard x p.clStage).2)) = true ∨
    (!bit (x.line p.clStage).mask ((x.line p.clStage).idxOf (p.src / 4 % 64))) = true ∨
    (x.line p.clStage).posOf ((x.line p.clStage).idxOf (p.src / 4 % 64)) ≠ p.src / 4 % 64) := by
  obtain ⟨hkind, hshard, hmember, hplace⟩ := h
  simp [Nat.not_lt.mpr hkind, hshard, hmember, hplace]

/-- Such a contribution of a member that is not yet counted is reduced into the accumulators of its invocation; the owner goes on where it is of the stage that runs (R303,
R304). -/
theorem exec_rxContrib_reduces {acc acc' : List ClStage} (h : ReceivesCl s i 0 x p d ahead u) (hpart : u.TakesPart x p) (hacc : acc = if ahead then x.nxt else x.cur)
    (hunheard : bit (mgetD (acc.getD p.clStage .empty).heard p.clOff 0) ((x.line p.clStage).idxOf (p.src / 4 % 64)) = false)
    (hreduced : stageSet acc p.clStage ((acc.getD p.clStage .empty).reduce x u.fresh ((x.line p.clStage).idxOf (p.src / 4 % 64)) p.clOff d).1 = acc')
    (hv : { u.setSess (if ahead then { x with nxt := acc' } else { x with cur := acc' }) with fresh := u.fresh + 128 } = v)
    (ht : (if ahead = true ∨ p.clStage ≠ x.stage then v else State.clAdvance 2 (v.clOwner x.ctx x.num) x.ctx x.num) = t) (hheld : t.heldHit ≤ s.heldHit) :
    exec (.rxContrib i) s = .next t := by
  refine h.next (show exec (.rxContrib i) s = _ from rfl) rfl ?_ hheld
  subst hacc hreduced hv ht
  simp only [if_neg hpart.expected, ClStage.reduce_unheard _ _ hunheard, Bool.false_eq_true, if_false]

theorem exec_rxContrib_broadcast (h : ReceivesCl s i 0 x p d ahead u) (hkind : 1 < x.kind) (ht : u.bump Obj.clUnexpected = t) (hheld : t.heldHit ≤ s.heldHit) :
    exec (.rxContrib i) s = .next t :=
  h.next rfl rfl ((if_pos (Or.inl hkind)).trans ht) hheld

theorem exec_rxResult_written {a : AccR} (h : ReceivesCl s i 1 x p d false u) (hrun : x.running.isSome = true) (hnew : x.parts.contains (clPart p.clStage p.clOff) = false)
    (ha : u.write x.ctx .ni permWrite ((niLoc x.ctx x.resAddr).adv (256 * p.clOff)) (fit 256 d) = a) (hok : a.st = .ok)
    (ht : State.clAdvance 2 (a.s.setSess { x with parts := x.parts ++ [clPart p.clStage p.clOff] }) x.ctx x.num = t) (hheld : t.heldHit ≤ s.heldHit) :
    exec (.rxResult i) s = .next t := by
  have hbusy : x.running.isNone = false := by simpa using hrun
  refine h.next (show exec (.rxResult i) s = _ from rfl) rfl ?_ hheld
  simp only [Bool.false_eq_true, if_false, hnew, hbusy, and_false, or_self, ha, hok, ne_eq, not_true_eq_false, ht]

theorem exec_rxResult_duplicate (h : ReceivesCl s i 1 x p d false u) (hdup : x.parts.contains (clPart p.clStage p.clOff) = true) (ht : u.bump Obj.rxDuplicates = t)
    (hheld : t.heldHit ≤ s.heldHit) : exec (.rxResult i) s = .next t :=
  h.next rfl rfl ((if_pos (Or.inl hdup)).trans ht) hheld

end Contribution

/-- Settles O41: a command of a session goes on as its op does, a CL packet is served for its session, and a session that breaks keeps its place in the list of sessions. -/
theorem collectiveSessions : Obligations.CollectiveSessions := by
  unfold Obligations.CollectiveSessions
  refine ⟨?opens, ?runs, ?runsNoKey, ?runsBroken, ?closes, ?closed, ?starts, ?startWaits, ?countedOnce, ?nan, ?nextContrib, ?contrib, ?broadcast, ?result, ?duplicate, ?timeout,
    ?breaks, ?suspect⟩
  case opens =>
    rintro s i c a u x h hnew rfl
    refine ⟨fun hfull => ?_, fun hroom hfew => ?_⟩
    · rw [exec_clOpen_new h hnew]
      exact congrArg (fun t => Host.Outcome.next (s.unlessHeld t)) (if_pos hfull)
    · rw [exec_clOpen_new h hnew]
      exact congrArg (fun t => Host.Outcome.next (s.unlessHeld t)) (if_neg (not_or.mpr ⟨Nat.not_lt.mpr hroom, Nat.not_le.mpr hfew⟩))
  case runs =>
    intro s i c a u x h hx hwhole hkey
    exact h.next rfl rfl (by simp only [hx, hwhole, hkey, Bool.false_eq_true, if_false])
  case runsNoKey =>
    intro s i c a u x h hx hwhole hkey
    exact h.next rfl rfl (by simp only [hx, hwhole, hkey, if_true])
  case runsBroken =>
    intro s i c a u x st h hx hbroken
    exact h.next rfl rfl (by simp only [hx, hbroken])
  case closes =>
    intro s i c a u x h hx
    exact h.next rfl rfl (by simp only [hx])
  case closed =>
    intro s x k hclosing hrun hqueued
    exact State.clTryClose_idle hclosing hrun hqueued
  case starts =>
    intro s c n x k l h hqueued hidle
    exact exec_clInvocationStart_next h hqueued hidle
  case startWaits =>
    intro s c n x h hrun
    exact exec_clInvocationStart_running h hrun
  case countedOnce =>
    intro g x fresh m off d h
    exact ClStage.reduce_heard fresh d h
  case nan =>
    intro op v a b h
    exact clElem_nan b h
  case nextContrib =>
    intro s i x p d u g t h hkind hlo hhi hmember hplace hunheard hg ht hheld
    subst hg
    exact exec_rxContrib_reduces h ⟨hkind, ⟨hlo, hhi⟩, hmember, hplace⟩ rfl hunheard rfl rfl ((if_pos (Or.inl rfl)).trans ht.symm) hheld
  case contrib =>
    intro s i x p d u g t h hkind hlo hhi hmember hplace hunheard hg hstage ht hheld
    subst hg
    exact exec_rxContrib_reduces h ⟨hkind, ⟨hlo, hhi⟩, hmember, hplace⟩ rfl hunheard rfl rfl ((if_neg (by simp [hstage])).trans ht.symm) hheld
  case broadcast =>
    intro s i x p d u t h hkind ht hheld
    exact exec_rxContrib_broadcast h hkind ht.symm hheld
  case result =>
    intro s i x p d u a t h hrun hnew ha hok ht hheld
    exact exec_rxResult_written h hrun hnew ha hok ht.symm hheld
  case duplicate =>
    intro s i x p d u t h hdup ht hheld
    exact exec_rxResult_duplicate h hdup ht.symm hheld
  case timeout =>
    intro s c n x h hrun
    exact exec_clTimeout_running h hrun
  case breaks =>
    intro s x st d h hopen
    exact State.clSess_clBreak st d h hopen
  case suspect =>
    intro s pos hbit hnew
    exact exec_suspectTimeout_first hbit hnew

end Sys2Proof.Machine
end

section
/-! O3: a receive entry whose message stays incomplete (R294). -/

namespace Sys2Proof.Machine

open Sys2Proof

variable {s : State} {r : RxMsg}

theorem State.rd_freeRx (o : Obj) : (s.freeRx r).rd o = s.rd o := rfl

/-- A freed entry gives back its slot for a reply, and no packet leaves or stays (R294, R295). -/
theorem State.egress_freeRx (i : Nat) : ((s.freeRx r).niOf i).egress = (s.niOf i).egress := by
  simp only [State.freeRx, State.niOf, State.setNi, mgetD, mget_mput]
  split
  case isTrue h => simp [h]
  case isFalse => rfl

theorem State.mem_rxs_freeRx {x : RxMsg} : x ∈ (s.freeRx r).ni.rxs ↔ x ∈ s.ni.rxs ∧ x.id ≠ r.id := by simp [State.freeRx, State.setNi, List.mem_filter]

/-- Settles O3: the entry that is found is counted and filtered out of the entries, and the rest of the state is that of the count. -/
theorem partialReceipt : Obligations.PartialReceipt := by
  intro s id r hfind
  have hid : r.id = id := by
    have hr := List.find?_some hfind
    exact (of_decide_eq_true hr).1
  refine ⟨_, exec_rxPartialExpiry hfind, ?counted, ?freed, rfl, rfl, fun i => State.egress_freeRx i, rfl, rfl⟩
  case counted => rw [State.rd_freeRx, State.rd_bump, if_pos rfl]
  case freed => exact fun x hx => hid ▸ (State.mem_rxs_freeRx.mp hx).2

end Sys2Proof.Machine
end

section
/-! Key slots, security commands and reports (R299, R301, R407, R419 to R428). -/

namespace Sys2Proof.Machine

open Sys2Proof

variable {s t u : State} {w : Who} {c k : Nat} {b v : Bytes}

/-! ## Security commands -/

section Commands

variable {op : Nat} {ins : Instr} {f : State → State}

/-- A security command that is taken up is answered OK with what it starts (R419). -/
theorem ScTakes.accepted (h : ScTakes s w c op b) (hc : exec ins s = .next (s.scCmd w c op b f)) (hf : f s = u) : Accepted w ins s u := by
  obtain ⟨hop, hwho, hown, hpos, hc64, hlen, hfree, hretiring, hidle⟩ := h
  have hstands : ¬(c = 0 ∨ s.ctxSt c = ctxFree ∨ s.rd (Obj.scStatus c) / 256 = 1) := by simp [Nat.pos_iff_ne_zero.mp hpos, hfree, hidle]
  rw [State.scCmd, if_neg (not_not.mpr hop)] at hc
  refine accepted_of_ctl hc (by simp [hwho, hown]) ?_
  simp only [if_neg (Nat.not_le.mpr hc64), hlen, ne_eq, not_true_eq_false, if_false, if_neg hstands, if_neg hretiring, hf]

/-- While a command of the context is under way, another is refused (R419). -/
theorem denied_of_scCmd_busy (hop : byteAt b 0 = op) (hwho : (isCus w || isTenant w c) = true) (hown : s.sbUnowned w.session = false) (hc64 : c < 64) (hlen : b.length = 64)
    (hbusy : s.rd (Obj.scStatus c) / 256 = 1) (hc : exec ins s = .next (s.scCmd w c op b f)) : Denied w ins s rRefused := by
  rw [State.scCmd, if_neg (not_not.mpr hop)] at hc
  refine denied_of_ctl hc (by simp [hwho, hown]) ?_
  simp only [if_neg (Nat.not_le.mpr hc64), hlen, ne_eq, not_true_eq_false, if_false, hbusy, or_true, if_true]

end Commands

theorem State.scStart_done {r : State × Nat} (h : s.scPerform c b = r) (hdone : r.2 ≠ scHeld) :
    s.scStart c b = State.wr { r.1 with sec := { r.1.sec with scRuns := mput r.1.sec.scRuns c ⟨b, some r.2⟩ } } (Obj.scStatus c) 0x0100 := by
  simp only [State.scStart, h, if_neg hdone]

theorem State.scStart_held {r : State × Nat} (h : s.scPerform c b = r) (hheld : r.2 = scHeld) :
    s.scStart c b = State.wr { s with sec := { s.sec with scRuns := mput s.sec.scRuns c ⟨b, none⟩ } } (Obj.scStatus c) 0x0100 := by
  simp only [State.scStart, h, if_pos hheld]

theorem State.scFinish_done (h : s.sec.scRuns = [(c, ⟨b, some k⟩)]) :
    s.scFinish = State.wr { s with sec := { s.sec with scRuns := [] } } (Obj.scStatus c) (0x0200 + k) := by
  simp [State.scFinish, h, mdel]

theorem State.scFinish_held (h : s.sec.scRuns = [(c, ⟨b, none⟩)]) : s.scFinish = s.scStart c b := by
  simp only [State.scFinish, h, List.foldl_cons, List.foldl_nil]

/-- An ACTIVATE of an epoch that a slot holds as RX_ONLY, in time, waits for its time (R422). -/
theorem State.activateKey_waits (hzero : allZero (slice b 1 7) = true ∧ allZero (slice b 16 8) = true ∧ allZero (slice b 28 36) = true)
    (hslot : ((List.range 4).find? fun k => s.slotSt c k == slotRxOnly && mgetD s.sec.slotEpochs (4 * c + k) 0 == leAt b 24 4) = some k)
    (hsync : s.rd Obj.ptpState = 1 ∧ s.rd Obj.ptpOffsetAbsNs ≤ 20000) (hsoon : s.pkgTime + 1000000 ≤ leAt b 8 8) (hlate : leAt b 8 8 ≤ s.pkgTime + 10000000000) :
    s.activateKey c b = (State.wr { s with sec := { s.sec with actSlot := mput s.sec.actSlot c k } } (Obj.activatePending c) (leAt b 8 8), scOk) := by
  have hgood : ¬(s.rd Obj.ptpState ≠ 1 ∨ 20000 < s.rd Obj.ptpOffsetAbsNs ∨ leAt b 8 8 < s.pkgTime + 1000000 ∨ s.pkgTime + 10000000000 < leAt b 8 8) := by omega
  simp only [State.activateKey, hzero, Bool.not_true, Bool.false_eq_true, or_self, if_false, hslot, if_neg hgood]

/-- A KEYGEN whose epoch is not above the highest of its context is STALE (R420). -/
theorem State.keygen_stale (hlo : 1 ≤ byteAt b 1) (hhi : byteAt b 1 ≤ 63) (hzero : allZero (slice b 2 6) = true ∧ allZero (slice b 28 36) = true)
    (hlist : scBadAddr (leAt b 8 8) = false) (hout : scBadAddr (leAt b 16 8) = false) (hjob : s.rd (Obj.niJob c) ≠ 0) (hepoch : leAt b 24 4 ≤ s.rd (Obj.keyEpochHigh c)) :
    s.keygen c b = (s, scStale) := by
  simp only [State.keygen, Nat.not_lt.mpr hlo, Nat.not_lt.mpr hhi, hzero, hlist, hout, Bool.not_true, Bool.false_eq_true, or_self, if_false, if_neg hjob, if_pos hepoch]

/-! ## Key slots -/

theorem byteAt_patch_same {off : Nat} (x : Byte) (h : off < b.length) : byteAt (patch b off [x]) off = x.toNat := by
  simp [byteAt, patch, h, Nat.min_eq_left h.le]

/-- A key that is loaded stands in its slot as RX_ONLY, under its epoch (R299, R420). -/
theorem State.slotSt_loadKey (e : Nat) (key : Bytes) (hk : k < 4) (hlen : (s.rdo (Obj.keySlotState c)).length = 4) : (s.loadKey c k e key).slotSt c k = slotRxOnly := by
  show byteAt ((s.setSlot c k slotRxOnly).rdo (Obj.keySlotState c)) k = _
  rw [State.setSlot, State.rdo_wro_same, byteAt_patch_same _ (hk.trans_eq hlen.symm)]
  rfl

theorem State.loadKey_keeps (e : Nat) (key : Bytes) :
    (s.loadKey c k e key).rd (Obj.keyEpochHigh c) = e ∧ mget (s.loadKey c k e key).sec.slotKeys (4 * c + k) = some key :=
  ⟨State.rd_wr_same .., mget_mput_same ..⟩

/-- At its time, the slot that ACTIVATE named becomes the transmit slot (R301, R422). -/
theorem exec_keyActivationTime_switches (hc : c < 64) (hset : s.rd (Obj.activatePending c) ≠ 0) (htime : s.rd (Obj.activatePending c) ≤ s.pkgTime)
    (hslot : mget s.sec.actSlot c = some k) : exec (.keyActivationTime c) s =
      .next (((State.switchSlot { s with sec := { s.sec with actSlot := mdel s.sec.actSlot c } } c k).wr (Obj.activatePending c) 0).event
        0x6802 0x0D c c (mgetD s.sec.slotEpochs (4 * c + k) 0) 1 0) := by
  have hdue : ¬(c ≥ 64 ∨ s.rd (Obj.activatePending c) = 0 ∨ s.pkgTime < s.rd (Obj.activatePending c)) := by omega
  show execKeyActivationTime c s = _
  simp only [execKeyActivationTime, if_neg hdue, hslot]

/-! ## Records and keys -/

theorem State.writeAr_stores {r : State × Nat} (hlen : v.length = 320) (hok : s.arOk v = true) (hr : s.storeOct w Obj.authorityRecord v = r) : s.writeAr w v =
    (State.wr { r.1 with sec := { r.1.sec with arStored := v } } Obj.authorityPending (if allZero (arOwner v) = true then 0 else arMode v), r.2) := by
  simp only [State.writeAr, hlen, hok, hr, ne_eq, not_true_eq_false, Bool.not_true, Bool.false_eq_true, if_false]

theorem State.writeAr_refused (hlen : v.length = 320) (hbad : s.arOk v = false) : s.writeAr w v = (s, rRefused) := by
  simp only [State.writeAr, hlen, hbad, ne_eq, not_true_eq_false, Bool.not_false, if_false, if_true]

/-- A tenant image key is in use while a context that is not FREE names it (R413). -/
theorem State.imageKey_inUse_iff : ((List.range 64).any fun c => s.ctxSt c != ctxFree && mget s.ctxs.imageKey c == some k) = true ↔
    ∃ c, c < 64 ∧ s.ctxSt c ≠ ctxFree ∧ mget s.ctxs.imageKey c = some k := by
  simp [List.any_eq_true]

theorem State.writeImageKey_stores (hk : k < 8) (hlen : v.length = 64) (hfree : ¬∃ c, c < 64 ∧ s.ctxSt c ≠ ctxFree ∧ mget s.ctxs.imageKey c = some k) :
    s.writeImageKey w k v = s.storeOct w (Obj.tenantImageKey k) v := by
  rw [State.writeImageKey, if_neg (Nat.not_le.mpr hk), if_neg (not_not.mpr hlen), if_neg (State.imageKey_inUse_iff.not.mpr hfree)]

theorem State.writeImageKey_refused (hk : k < 8) (hlen : v.length = 64) (hused : ∃ c, c < 64 ∧ s.ctxSt c ≠ ctxFree ∧ mget s.ctxs.imageKey c = some k) :
    s.writeImageKey w k v = (s, rRefused) := by
  rw [State.writeImageKey, if_neg (Nat.not_le.mpr hk), if_neg (not_not.mpr hlen), if_pos (State.imageKey_inUse_iff.mpr hused)]

/-! ## Reports -/

theorem State.pkgAsk_asks {x : Session} (hlen : v.length = 32) (hx : s.session? w.session = some x) :
    s.pkgAsk w v = ((s.setSession { x with pkgStatus := 0x0100 }).attestAsk (.pkg w.session v), rOk) := by
  simp only [State.pkgAsk, hlen, hx, ne_eq, not_true_eq_false, if_false]

/-- The first request that waits is answered where it can be (R427). -/
theorem State.attestServe_first {r : AttReq} {rest : List AttReq} (hq : s.sec.attest = r :: rest) (hdo : s.attestDo r = some t) :
    s.attestServe = { t with sec := { t.sec with attest := rest } } := by
  simp only [State.attestServe, hq, State.attestFrom, List.any_nil, Bool.false_eq_true, if_false, hdo, List.nil_append]

theorem State.pkgAttest_reports {sid : Nat} {x : Session} (hx : s.session? sid = some x) (hid : s.hasIdentity = true) :
    s.pkgAttest sid v = (s.setSession { x with pkgReport := s.report none v, pkgStatus := 0x0200 }).bump Obj.attestRequests := by
  simp only [State.pkgAttest, hx, hid, Bool.not_true, Bool.false_eq_true, if_false]

theorem State.pkgAttest_noIdentity {sid : Nat} {x : Session} (hx : s.session? sid = some x) (hid : s.hasIdentity = false) :
    s.pkgAttest sid v = s.setSession { x with pkgStatus := 0x0204 } := by
  simp only [State.pkgAttest, hx, hid, Bool.not_false, if_true]

section ContextReport

variable (hzero : allZero (slice v 40 8) = true) (hctx : s.ctxSt c ≠ ctxFree) (hid : s.hasIdentity = true)

include hzero hctx hid

/-- A report whose place cannot be written ends with WINDOW (R428). -/
theorem State.ctxAttest_window (hbad : scBadAddr (leAt v 32 8) = true ∨ (s.check c .te permWrite (teLoc c (leAt v 32 8)) (s.report (some c) (v.take 32)).length).isSome = true) :
    s.ctxAttest c v = (s, 3) := by
  simp only [State.ctxAttest, hzero, hctx, hid, Bool.not_true, Bool.false_eq_true, if_false, if_pos hbad]

theorem State.ctxAttest_written {r : State × Nat} (hgood : scBadAddr (leAt v 32 8) = false)
    (hopen : (s.check c .te permWrite (teLoc c (leAt v 32 8)) (s.report (some c) (v.take 32)).length).isSome = false)
    (hr : s.scWrite c (leAt v 32 8) (s.report (some c) (v.take 32)) = r) (hok : r.2 = scOk) : s.ctxAttest c v = (r.1.bump Obj.attestRequests, 0) := by
  have hdone : ¬scOk = scHeld := by decide
  simp only [State.ctxAttest, hzero, hctx, hid, Bool.not_true, Bool.false_eq_true, if_false, hgood, hopen, or_self, hr, hok, if_neg hdone, ne_eq, not_true_eq_false]

end ContextReport

/-- A context's report that does not wait ends with its result (R427). -/
theorem State.attestDo_ctx {r : State × Nat} (h : s.ctxAttest c v = r) (hdone : r.2 ≠ scHeld) : s.attestDo (.ctx c v) = some (r.1.wr (Obj.ctxAttestStatus c) (0x0200 + r.2)) := by
  simp only [State.attestDo, h, if_neg hdone]

/-- Settles O47: a command that is taken up starts what its op says, a record or key is stored or refused by its own rules, and the first request for a report is answered. -/
theorem trustCommands : Obligations.TrustCommands := by
  unfold Obligations.TrustCommands
  refine ⟨?keygen, ?import_, ?unsealed, ?performs, ?startDone, ?startHeld, ?finishDone, ?finishHeld, ?busy, ?activate, ?stale, ?loadKey, ?switches, ?notYet, ?rng, ?rngAgain,
    ?record, ?recordBad, ?recordNoAccess, ?imageKey, ?imageKeyUsed, ?pkgAsk, ?ctxAsk, ?ctxAskFull, ?ask, ?pkgReport, ?pkgNoIdentity, ?ctxReport⟩
  case keygen =>
    intro s w c b h
    exact h.accepted (show exec (.keygen w c b) s = _ from rfl) rfl
  case import_ =>
    intro s w c b h
    exact h.accepted (show exec (.import_ w c b) s = _ from rfl) rfl
  case unsealed =>
    intro s w c b h
    exact h.accepted (show exec (.unseal w c b) s = _ from rfl) rfl
  case performs =>
    intro s c b
    refine ⟨fun h => ?_, fun h => ?_, fun h => ?_⟩ <;> simp [State.scPerform, h]
  case startDone =>
    intro s c b r h hdone
    exact State.scStart_done h hdone
  case startHeld =>
    intro s c b r h hheld
    exact State.scStart_held h hheld
  case finishDone =>
    intro s c b k h
    exact State.scFinish_done h
  case finishHeld =>
    intro s c b h
    exact State.scFinish_held h
  case busy =>
    intro s w c b hop hwho hown hc hlen hbusy
    exact denied_of_scCmd_busy hop hwho hown hc hlen hbusy (show exec (.keygen w c b) s = _ from rfl)
  case activate =>
    intro s w c b k h hz1 hz2 hz3 hslot hlocked hoffset hsoon hlate
    exact h.accepted (show exec (.activate w c b) s = _ from rfl) (congrArg (fun r : State × Nat => r.1.wr (Obj.scStatus c) (0x0200 + r.2))
      (State.activateKey_waits ⟨hz1, hz2, hz3⟩ hslot ⟨hlocked, hoffset⟩ hsoon hlate))
  case stale =>
    intro s c b hlo hhi hz1 hz2 hlist hout hjob hepoch
    exact State.keygen_stale hlo hhi ⟨hz1, hz2⟩ hlist hout hjob hepoch
  case loadKey =>
    intro s c k e key hk hlen
    obtain ⟨hepoch, hkey⟩ := State.loadKey_keeps (s := s) (c := c) (k := k) e key
    exact ⟨hepoch, hkey, State.slotSt_loadKey e key hk hlen⟩
  case switches =>
    intro s c k hc hset htime hslot
    exact exec_keyActivationTime_switches hc hset htime hslot
  case notYet =>
    intro s c hearly
    exact congrArg Host.Outcome.next (if_pos (Or.inr (Or.inr hearly)))
  case rng =>
    intro s hgood
    exact congrArg Host.Outcome.next (if_neg hgood)
  case rngAgain =>
    intro s hbad
    exact congrArg Host.Outcome.next (if_pos hbad)
  case record =>
    intro s w v r hw hlen hok hr
    refine kept_of_ctl rfl (by simp [hw]) ?_
    rw [State.writeAr_stores hlen hok hr, ← hr]
    rfl
  case recordBad =>
    intro s w v hw hlen hbad
    exact denied_of_ctl rfl (by simp [hw]) (State.writeAr_refused hlen hbad)
  case recordNoAccess =>
    intro s w v hw howned
    exact denied_noAccess_of_ctl rfl (by simp [hw, howned])
  case imageKey =>
    intro s w k v r hw hown hk hlen hfree hr
    refine kept_of_ctl rfl (by simp [hw, hown]) ?_
    rw [State.writeImageKey_stores hk hlen, hr, ← hr]
    · rfl
    · rintro ⟨c, hc, hnotFree, hkey⟩
      exact (hfree c hc).elim hnotFree fun hother => hother hkey
  case imageKeyUsed =>
    intro s w k v c hw hown hk hlen hc hnotFree hkey
    exact denied_of_ctl rfl (by simp [hw, hown]) (State.writeImageKey_refused hk hlen ⟨c, hc, hnotFree, hkey⟩)
  case pkgAsk =>
    intro s w n x hlo hhi hlen hx
    exact accepted_of_ctl rfl (by simp [hlo, hhi]) (State.pkgAsk_asks hlen hx)
  case ctxAsk =>
    intro s w c v hw hc hlen hroom
    refine accepted_of_ctl rfl hw ?_
    rw [State.ctxAsk, if_neg (Nat.not_le.mpr hc), if_neg (not_not.mpr hlen)]
    exact if_neg (Nat.not_le.mpr hroom)
  case ctxAskFull =>
    intro s w c v hw hc hlen hfull
    refine denied_of_ctl rfl hw ?_
    rw [State.ctxAsk, if_neg (Nat.not_le.mpr hc), if_neg (not_not.mpr hlen)]
    exact if_pos hfull
  case ask =>
    intro s r
    rfl
  case pkgReport =>
    intro s sid n x rest u hq hx hid hu
    exact State.attestServe_first hq (congrArg some ((State.pkgAttest_reports hx hid).trans hu.symm))
  case pkgNoIdentity =>
    intro s sid n x rest u hq hx hid hu
    exact State.attestServe_first hq (congrArg some ((State.pkgAttest_noIdentity hx hid).trans hu.symm))
  case ctxReport =>
    intro s c v rest r hq hzero hctx hid hr
    have hwindow : 3 ≠ scHeld := by decide
    have hdone : 0 ≠ scHeld := by decide
    refine ⟨fun hbad => ⟨_, rfl, ?_⟩, fun hgood hopen hok => ⟨_, rfl, ?_⟩⟩
    · exact State.attestServe_first hq (State.attestDo_ctx (State.ctxAttest_window hzero hctx hid hbad) hwindow)
    · exact State.attestServe_first hq (State.attestDo_ctx (State.ctxAttest_written hzero hctx hid hgood hopen hr hok) hdone)

end Sys2Proof.Machine
end

section
/-! Writes whose session is not open any more (R438, R441): they change nothing, so that a statement which gives such a write an answer fails. -/

namespace Sys2Proof.Machine

open Sys2Proof

section Closed

variable {s : State} {w : Who} {ok : Bool} {f : State → State × Nat} {c : Instr}

theorem State.ctl_closed (hnone : s.session? w.session = none) (hne : w.session ≠ 0) : s.ctl w ok f = s := by
  simp [State.ctl, State.admits, State.writes, hnone, hne]

theorem State.answer_closed {id q op r off n : Nat} {d : Bytes} (hnone : s.session? id = none) : s.answer id q op r d off n = s := by
  rw [State.answer, hnone]

/-- A command that changes nothing is not answered to a closed session with an object written. -/
theorem Idles.ne_answer {o : Obj} {v q op r off n : Nat} {d : Bytes} (h : Idles c s) (hnone : s.session? w.session = none) (hv : s.rd o ≠ v) :
    exec c s ≠ .next ((s.wr o v).answer w.session q op r d off n) := by
  have hanswer : (s.wr o v).answer w.session q op r d off n = s.wr o v := State.answer_closed hnone
  rw [h, hanswer]
  intro hnext
  have hs : s = s.wr o v := Host.Outcome.next.inj hnext
  exact hv (by rw [hs, State.rd_wr_same])

end Closed

/-- An Operator whose session, number 7, is not open. -/
def closedOperator : Who := ⟨roleOperator, 0, 7, 1⟩

/-! ## Slices -/

/-- A CREATE of slice 0 (R335). -/
def createSlice : Bytes := 1 :: zeros 15

theorem idles_sliceCreate_closed {s : State} (hnone : s.session? closedOperator.session = none) : Idles (.sliceCreate closedOperator createSlice) s := by
  have hcode : ¬(byteAt createSlice 0 = 2 ∨ byteAt createSlice 0 = 3) := by decide
  refine congrArg Host.Outcome.next ((if_neg hcode).trans ?_)
  exact State.ctl_closed hnone (by decide)

/-- Refutes O44: a CREATE at a package that is not the Wellhead is said to be answered whoever writes it. One of a session that is not open changes nothing, and
`slice_status` keeps its value. -/
theorem not_electionAndSlices : ¬ Obligations.ElectionAndSlices := by
  unfold Obligations.ElectionAndSlices
  rintro ⟨-, -, -, -, -, -, -, -, -, -, -, -, -, -, -, -, -, -, hcreate, -⟩
  exact (idles_sliceCreate_closed rfl).ne_answer rfl (by decide)
    (hcreate .reset closedOperator createSlice (by decide) (by decide) (by decide) (by decide) (by decide))

/-! ## A rail map (R338) -/

/-- A read of a map that lists a value for each of some keys. -/
theorem mget_map_pair {α : Type} {f : Nat → α} {l : List Nat} {k : Nat} (hk : k ∈ l) : mget (l.map fun i => (i, f i)) k = some (f k) := by
  induction l with
  | nil => simp at hk
  | cons a l ih =>
    rw [List.map_cons, mget_cons]
    split
    case isTrue h => exact congrArg (fun i => some (f i)) h
    case isFalse h => exact ih ((List.mem_cons.mp hk).resolve_left (Ne.symm h))

theorem leNat_zeros (n : Nat) : leNat (zeros n) = 0 := by
  induction n with
  | zero => rfl
  | succ n ih => simpa [zeros, List.replicate_succ, leNat] using ih

/-- The digest of 528 bytes of zero. -/
def railDigest : Bytes := fit 32 (sha256 (zeros 528))

/-- A rail map without routes, all zero but for its digest. -/
def emptyRail : Bytes := zeros 528 ++ railDigest

theorem length_railDigest : railDigest.length = 32 := by
  simp only [railDigest, fit, zeros, List.length_take, List.length_append, List.length_replicate]
  omega

theorem length_emptyRail : emptyRail.length = 560 := by
  rw [emptyRail, List.length_append, length_railDigest, zeros, List.length_replicate]

/-- What lies before the digest is zero. -/
theorem take_drop_emptyRail {off n : Nat} (h : off + n ≤ 528) : (emptyRail.drop off).take n = zeros n := by
  have hoff : off ≤ (zeros 528).length := by rw [zeros, List.length_replicate]; omega
  have hn : n ≤ ((zeros 528).drop off).length := by rw [zeros, List.length_drop, List.length_replicate]; omega
  rw [emptyRail, List.drop_append_of_le_length hoff, List.take_append_of_le_length hn, zeros, List.drop_replicate, List.take_replicate, zeros]
  congr 1
  omega

theorem leAt_emptyRail {off n : Nat} (h : off + n ≤ 528) : leAt emptyRail off n = 0 := by rw [leAt, take_drop_emptyRail h, leNat_zeros]

/-- The map keeps the rules of R338. -/
theorem railBad_emptyRail : railBad emptyRail = false := by
  have hroutes : railRoutes emptyRail = 0 := leAt_emptyRail (by decide)
  have hcat : railCat emptyRail = 0 := leAt_emptyRail (by decide)
  have hzero : allZero (slice emptyRail 8 8) = true := by
    rw [slice, take_drop_emptyRail (by decide)]
    decide
  have hdigest : slice emptyRail 528 32 = fit 32 (sha256 (emptyRail.take 528)) := by
    have hlast : emptyRail.drop 528 = railDigest := List.drop_left' (by rw [zeros, List.length_replicate])
    have hfirst : emptyRail.take 528 = zeros 528 := take_drop_emptyRail (off := 0) (Nat.le_refl _)
    rw [slice, hlast, hfirst, List.take_of_length_le (by rw [length_railDigest]), length_railDigest]
    exact List.append_nil _
  simp only [railBad, hroutes, hcat, hzero, Nat.mul_zero, Nat.add_zero, hdigest, List.range_zero, List.any_nil, bne_self_eq_false]
  decide

/-- A Wellhead that has loaded the map, with no session open. -/
def railLoaded : State :=
  { State.reset.wr Obj.agentState agWellhead with wh := { Wellhead.init with railLoad := (List.range 560).map fun i => (i, emptyRail.getD i 0) } }

/-- What has been loaded, read byte by byte, is the map. -/
theorem map_railLoad {n : Nat} (h : n ≤ 560) : (List.range n).map (fun i => mgetD railLoaded.wh.railLoad i 0) = emptyRail.take n := by
  refine List.ext_getElem (by simp [length_emptyRail, h]) fun i h1 h2 => ?_
  have hi : i < n := by simpa using h1
  have hlen : i < emptyRail.length := by rw [length_emptyRail]; omega
  rw [List.getElem_map, List.getElem_range, List.getElem_take, railLoaded, mgetD, mget_map_pair (List.mem_range.mpr (hi.trans_le h)), Option.getD_some,
    List.getD_eq_getElem _ _ hlen]

theorem idles_railMapCommit_closed {s : State} (hnone : s.session? closedOperator.session = none) : Idles (.railMapCommit closedOperator 1) s :=
  congrArg Host.Outcome.next (State.ctl_closed hnone (by decide))

/-- Refutes O42: the COMMIT of a rail map that is not newer is said to be answered whoever writes it. One of a session that is not open changes nothing, and
`rail_map_status` keeps its value. -/
theorem not_agentMessages : ¬ Obligations.AgentMessages := by
  unfold Obligations.AgentMessages
  rintro ⟨-, -, -, -, -, -, -, -, -, -, -, -, -, -, -, -, hcommit, -⟩
  have hroutes : railRoutes ((List.range 8).map fun i => mgetD railLoaded.wh.railLoad i 0) = 0 := by
    rw [map_railLoad (by decide), railRoutes, leAt, List.drop_take]
    exact leAt_emptyRail (off := 6) (n := 2) (by decide)
  have hheld : emptyRail = (List.range (560 + 8 * 0)).map fun i => mgetD railLoaded.wh.railLoad i 0 := by
    rw [map_railLoad (by decide), List.take_of_length_le (by rw [length_emptyRail])]
  have hversion : leAt emptyRail 0 4 ≤ railLoaded.rd Obj.railMapVersion := by
    rw [leAt_emptyRail (by decide)]
    exact Nat.zero_le _
  exact (idles_railMapCommit_closed rfl).ne_answer rfl (by decide)
    (hcommit railLoaded closedOperator emptyRail (by decide) (by decide) (by rw [hroutes]; decide) (by rw [hroutes]; exact hheld) railBad_emptyRail hversion)

end Sys2Proof.Machine
end

section
/-! What the agent's messages leave as it was (R313 to R316), and what it does with the one that it takes from its ring. -/

namespace Sys2Proof.Machine

open Sys2Proof

section Messages

variable {s u t : State} {i : InMsg} {typ : Nat} {c : Instr} {k : State → InMsg → State}

/-- A message that the agent takes is acted upon in the state in which its ring no longer holds it. -/
theorem Takes.onMsg (h : Takes s typ i u) : s.onMsg typ k = k u i := by
  obtain ⟨rest, v, htake, rfl, ⟨hpath, rfl⟩ | ⟨port, hpath, hflood, rfl⟩ | ⟨port, w, hpath, hflood, horigin, hseen, rfl, rfl⟩⟩ := h
  · simp only [State.onMsg, htake, hpath]
  · simp only [State.onMsg, htake, hpath, hflood, Bool.not_false, if_true]
  · have hnew : ¬(i.msg.origin = s.pos ∨ s.agent.seen.contains (i.msg.origin, i.msg.typ, i.msg.seq) = true) := by
      rw [hseen]
      exact fun h => h.elim horigin Bool.false_ne_true
    simp only [State.onMsg, htake, hpath, hflood, Bool.not_true, Bool.false_eq_true, if_false]
    exact if_neg hnew

theorem Takes.next (h : Takes s typ i u) (hc : exec c s = .next (s.onMsg typ k)) (hk : k u i = t) : exec c s = .next t := by
  rw [hc, h.onMsg, hk]

end Messages

section Sending

variable (s : State) (m : AgentMsg)

@[simp] theorem State.mkMsg_wh (typ gen arg : Nat) (pay : Bytes) : (s.mkMsg typ gen arg pay).1.wh = s.wh := rfl
@[simp] theorem State.mkMsg_reg (typ gen arg : Nat) (pay : Bytes) : (s.mkMsg typ gen arg pay).1.reg = s.reg := rfl

@[simp] theorem State.floodOn_wh (x : Option Nat) : (s.floodOn m x).wh = s.wh :=
  List.foldlRecOn (motive := fun t : State => t.wh = s.wh) _ _ rfl fun _ ht _ _ => ht

@[simp] theorem State.floodOn_reg (x : Option Nat) : (s.floodOn m x).reg = s.reg :=
  List.foldlRecOn (motive := fun t : State => t.reg = s.reg) _ _ rfl fun _ ht _ _ => ht

@[simp] theorem State.sendSb_wh (dst : Option Nat) : (s.sendSb dst m).wh = s.wh := by
  unfold State.sendSb
  split
  · rfl
  · split
    · rfl
    · split <;> simp

@[simp] theorem State.sendSb_reg (dst : Option Nat) : (s.sendSb dst m).reg = s.reg := by
  unfold State.sendSb
  split
  · rfl
  · split
    · rfl
    · split <;> simp

@[simp] theorem State.floodOn_steward (x : Option Nat) : (s.floodOn m x).steward = s.steward :=
  List.foldlRecOn (motive := fun t : State => t.steward = s.steward) _ _ rfl fun _ ht _ _ => ht

@[simp] theorem State.sendSb_steward (dst : Option Nat) : (s.sendSb dst m).steward = s.steward := by
  unfold State.sendSb
  split
  · rfl
  · split
    · rfl
    · split <;> simp

@[simp] theorem State.sendAll_steward : (s.sendAll m).steward = s.steward := by simp [State.sendAll]
@[simp] theorem State.sendAll_reg : (s.sendAll m).reg = s.reg := by simp [State.sendAll]

@[simp] theorem State.toAgent_wh (path : MgPath) (cat : Nat) (ok : Bool) : (s.toAgent path cat ok m).wh = s.wh := by
  unfold State.toAgent
  split_ifs <;> rfl

/-- A message to a position concerns the agent's rings and what leaves the package (R315, R439). -/
@[simp] theorem State.sendBoth_wh (q : Nat) : (s.sendBoth q m).wh = s.wh := by
  unfold State.sendBoth
  split
  · simp
  · rw [State.sendSb_wh, State.sendData]
    split
    · rfl
    · simp

@[simp] theorem State.reprobe_wh (q p gen : Nat) (fence : Bool) : (s.reprobe q p gen fence).wh = s.wh := by simp [State.reprobe]

end Sending

end Sys2Proof.Machine
end

section
/-! The Wellhead (R319 to R325, R333, R342, R343): its map, its fences and its epochs. -/

namespace Sys2Proof.Machine

open Sys2Proof

section Map

variable {s u : State} {i : InMsg} {q : Nat}

theorem State.cameBack_failed (hwh : s.isWh = true) (hmap : s.wh.mapFormed = true) (hfailed : s.rd (Obj.posState q) = ustFailed) (hback : s.wh.back.contains q = false) :
    s.cameBack q = State.reprobe (State.raiseGen { s with wh := { s.wh with back := q :: s.wh.back } } q) q 0xFF
      ((State.raiseGen { s with wh := { s.wh with back := q :: s.wh.back } } q).rd (Obj.posGeneration q)) false := by
  have hback' : ¬s.wh.back.contains q = true := by rw [hback]; exact Bool.false_ne_true
  have hformed : ¬(!s.isWh || !s.wh.mapFormed) = true := by rw [hwh, hmap]; decide
  exact if_neg fun h => h.elim (fun h => hformed (by rw [h]; rfl)) fun h => h.elim (fun h => hformed (by rw [h, Bool.or_true])) fun h => h.elim (· hfailed) hback'

theorem State.cameBack_of_not_failed (h : s.rd (Obj.posState q) ≠ ustFailed) : s.cameBack q = s := if_pos (.inr (.inr (.inl h)))

@[simp] theorem State.mapFormed_cameBack : (s.cameBack q).wh.mapFormed = s.wh.mapFormed := by
  unfold State.cameBack
  split
  · rfl
  · rw [State.reprobe_wh]
    rfl

/-- A REPORT shows that FD is powered after one over the same path that did not (R323). -/
theorem repOf_was_iff {l : List Report} {f : Nat} : ((!(match repOf l q with
    | some r => bit r.flags 2
    | none => true)) = true ∧ bit f 2 = true) ↔ ((repOf l q).any fun r => !bit r.flags 2) = true ∧ bit f 2 = true := by
  cases repOf l q <;> rfl

/-- The Wellhead acts on a message of its term from a position. -/
theorem not_ignored {m : AgentMsg} (hwh : s.isWh = true) (hpos : m.origin < 64) (hterm : m.term = s.rd Obj.agentTerm) :
    ¬((!s.isWh) = true ∨ m.origin ≥ 64 ∨ m.term ≠ s.rd Obj.agentTerm) := by
  rw [hwh]
  rintro (h | h | h)
  · exact Bool.false_ne_true h
  · omega
  · exact h hterm

/-- The last REPORTs over one path. -/
def Wellhead.reports (w : Wellhead) : MgPath → List Report
  | .mgmt => w.repMgmt
  | .data _ => w.repData

/-- A REPORT takes the place of its position's last one over the same path. -/
def State.keepReport (s : State) (r : Report) : MgPath → State
  | .mgmt => { s with wh := { s.wh with repMgmt := upsert (·.pos) r s.wh.repMgmt } }
  | .data _ => { s with wh := { s.wh with repData := upsert (·.pos) r s.wh.repData } }

@[simp] theorem State.mapFormed_keepReport (r : Report) (path : MgPath) : (s.keepReport r path).wh.mapFormed = s.wh.mapFormed := by cases path <;> rfl

/-- A REPORT at a Wellhead that has its map: the position may have come back (R323), its REPORT is kept, and the verdicts are evaluated. -/
theorem exec_report_formed {v : State} {r : Report} {path : MgPath} (h : Takes s mgReport i u) (hwh : u.isWh = true) (hpos : i.msg.origin < 64)
    (hterm : i.msg.term = u.rd Obj.agentTerm) (hpath : i.path = path) (hmap : u.wh.mapFormed = true)
    (hv : v = if (repOf (u.wh.reports path) i.msg.origin).any (fun r => !bit r.flags 2) = true ∧ bit (byteAt i.msg.payload 0) 2 = true then u.cameBack i.msg.origin else u)
    (hr : r = ⟨i.msg.origin, byteAt i.msg.payload 0, (List.range 18).map fun p => slice i.msg.payload (16 + 12 * p) 12⟩) :
    exec .report s = .next (v.keepReport r path).evaluate := by
  have hformed : (v.keepReport r path).wh.mapFormed = true := by
    rw [State.mapFormed_keepReport, hv]
    split
    · rw [State.mapFormed_cameBack, hmap]
    · exact hmap
  refine h.next rfl ((if_neg (not_ignored hwh hpos hterm)).trans ?_)
  extract_lets was w
  have hw : w = v := by
    subst hpath
    exact (if_congr repOf_was_iff rfl rfl).trans hv.symm
  clear_value w
  subst hw hr hpath
  exact if_pos hformed

/-! ## Acknowledgements and notices -/

theorem exec_hbAck_counted (h : Takes s mgHbAck i u) (hwh : u.isWh = true) (hpos : i.msg.origin < 64) (hterm : i.msg.term = u.rd Obj.agentTerm)
    (hgen : u.rd (Obj.posGeneration i.msg.origin) ≤ leAt i.msg.payload 12 4) (hpath : i.path = .mgmt) (hreplica : bit i.msg.arg 1 = false)
    (hepoch : leAt i.msg.payload 8 4 ≠ 0) : exec .hbAck s = .next
      (State.epochAcked { u with wh := { u.wh with acksMgmt := ackIn u.wh.acksMgmt i.msg.origin } } i.msg.origin (leAt i.msg.payload 8 4)).evaluate := by
  refine h.next rfl ((if_neg (not_ignored hwh hpos hterm)).trans ?_)
  simp only [if_neg hepoch, if_neg (Nat.not_lt.mpr hgen), hpath, hreplica, Bool.false_eq_true, false_and, if_false]

/-- An acknowledgement under an older generation does not count for the verdicts (R320). -/
theorem exec_hbAck_older (h : Takes s mgHbAck i u) (hwh : u.isWh = true) (hpos : i.msg.origin < 64) (hterm : i.msg.term = u.rd Obj.agentTerm)
    (hgen : leAt i.msg.payload 12 4 < u.rd (Obj.posGeneration i.msg.origin)) (hreplica : bit i.msg.arg 1 = false)
    (hepoch : leAt i.msg.payload 8 4 ≠ 0) : exec .hbAck s = .next (u.epochAcked i.msg.origin (leAt i.msg.payload 8 4)).evaluate := by
  refine h.next rfl ((if_neg (not_ignored hwh hpos hterm)).trans ?_)
  simp only [if_neg hepoch, if_pos hgen, hreplica, Bool.false_eq_true, false_and, if_false]

@[simp] theorem State.isWh_syncSuspect : s.syncSuspect.isWh = s.isWh := by
  have hsuspect : Obj.suspectMask.key ≠ Obj.agentState.key := by decide
  have hlost : Obj.lostMask.key ≠ Obj.agentState.key := by decide
  refine congrArg (· == agWellhead) ?_
  exact (State.rd_wr_ne _ _ _ _ hlost).trans (State.rd_wr_ne _ _ _ _ hsuspect)

theorem exec_lossNotice_noticed (h : Takes s mgLossNotice i u) (hpos : i.msg.arg < 64) (hother : i.msg.arg ≠ u.pos) (hterm : u.follows i.msg = true)
    (hwh : u.isWh = false) : exec .lossNotice s = .next
      (State.syncSuspect { u with agent := { u.agent with noticed := (i.msg.arg, i.msg.gen) :: u.agent.noticed.filter fun n => n.1 != i.msg.arg } }) := by
  have htaken : ¬(i.msg.arg ≥ 64 ∨ (!u.follows i.msg) = true) := by
    rw [hterm]
    rintro (h | h)
    · omega
    · exact Bool.false_ne_true h
  refine h.next rfl ((if_neg htaken).trans ?_)
  simp only [if_neg hother]
  exact if_neg (by rw [State.isWh_syncSuspect]; exact hwh ▸ Bool.false_ne_true)

/-! ## Heartbeats -/

/-- The periods in a row without a quorum of acknowledgements, with the one that ends; the first period after taking office counts for none (R329). -/
def State.fewPeriods (s : State) : Nat := if decide (s.ackedBoth < s.rd Obj.whQuorum) && !s.wh.acksMgmt.isEmpty then s.wh.noQuorum + 1 else 0

theorem State.fewPeriods_quorum (h : s.rd Obj.whQuorum ≤ s.ackedBoth) : s.fewPeriods = 0 :=
  if_neg (by rw [decide_eq_false (Nat.not_lt.mpr h)]; exact Bool.false_ne_true)

theorem State.fewPeriods_few (h : s.ackedBoth < s.rd Obj.whQuorum) (hacks : s.wh.acksMgmt ≠ []) : s.fewPeriods = s.wh.noQuorum + 1 :=
  if_pos (by simp [h, hacks])

/-- After five such periods, and when its own position is fenced, the Wellhead steps down (R329). -/
theorem exec_heartbeatInterval_stepsDown {n : Nat} (hwh : s.isWh = true) (hn : s.fewPeriods = n)
    (hdown : n ≥ 5 ∨ (s.wh.mapFormed = true ∧ s.rd (Obj.posState s.pos) = ustFenced)) :
    exec .heartbeatInterval s = .next (State.stepDown { s with wh := { s.wh with noQuorum := n } }) := by
  subst hn
  exact (if_neg (by rw [hwh]; exact Bool.false_ne_true)).trans (if_pos hdown)

/-- Otherwise it evaluates the verdicts, begins a period and sends its heartbeat (R319, R321, R324). -/
theorem exec_heartbeatInterval_goesOn {n : Nat} (hwh : s.isWh = true) (hn : s.fewPeriods = n)
    (hup : ¬(n ≥ 5 ∨ (s.wh.mapFormed = true ∧ s.rd (Obj.posState s.pos) = ustFenced)))
    (hu : u = (State.evaluate { s with wh := { s.wh with noQuorum := n } }).newPeriod.nameStandby.sendHeartbeat) :
    exec .heartbeatInterval s = .next ((u.epochAcked u.pos (u.rd Obj.agentEpoch)).capsIfDue).replicate := by
  subst hn hu
  exact (if_neg (by rw [hwh]; exact Bool.false_ne_true)).trans (if_neg hup)

/-! ## Fences -/

theorem idles_fenceReprobeInterval (hlinks : ∀ k, (s.lk k).2 ≠ lkFenced) (hpos : ∀ q, q < 64 → s.rd (Obj.posState q) ≠ ustFenced) (hwh : s.isWh = true) :
    Idles .fenceReprobeInterval s := by
  have hnone : ((List.range 64).filter fun q => s.rd (Obj.posState q) == ustFenced) = [] :=
    List.filter_eq_nil_iff.mpr fun q hq => by simpa using hpos q (List.mem_range.mp hq)
  have hnoLink : (lkAll.filter fun k => (s.lk k).2 == lkFenced) = [] := List.filter_eq_nil_iff.mpr fun k _ => by simpa using hlinks k
  refine (if_neg (by rw [hwh]; exact Bool.false_ne_true)).trans (congrArg Host.Outcome.next ?_)
  simp only [hnone, List.foldl_nil, hnoLink]

/-- A REPROBE under a new generation changes no link. -/
theorem State.lk_reprobe_raiseGen (k p gen : Nat) (fence : Bool) : ((s.raiseGen q).reprobe q p gen fence).lk k = s.lk k := by
  rw [State.lk, State.reprobe_wh]
  rfl

theorem State.rd_raiseGen : (s.raiseGen q).rd (Obj.posGeneration q) = (s.rd (Obj.posGeneration q) + 1) % 2 ^ 32 := State.rd_wr_same _ _ _

/-- One fenced position and no fenced link: the position's REPROBE is sent again under a new generation (R322). -/
theorem exec_fenceReprobeInterval_one (hwh : s.isWh = true) (hone : ((List.range 64).filter fun q => s.rd (Obj.posState q) == ustFenced) = [q])
    (hlinks : (lkAll.all fun k => (s.lk k).2 != lkFenced) = true) :
    exec .fenceReprobeInterval s = .next ((s.raiseGen q).reprobe q 0xFF ((s.rd (Obj.posGeneration q) + 1) % 2 ^ 32) true) := by
  have hnoLink : (lkAll.filter fun k => (s.lk k).2 == lkFenced) = [] :=
    List.filter_eq_nil_iff.mpr fun k hk => by simpa using List.all_eq_true.mp hlinks k hk
  refine (if_neg (by rw [hwh]; exact Bool.false_ne_true)).trans (congrArg Host.Outcome.next ?_)
  simp only [hone, List.foldl_cons, List.foldl_nil, State.lk_reprobe_raiseGen, hnoLink, State.rd_raiseGen]

/-! ## Epochs -/

theorem State.tryEpoch_waits {r : EpochRun} (hrun : s.wh.run = some r) (h : r.committed = false ∨ s.allAcked r = false) : s.tryEpoch = s := by
  have hfree : (r.committed && s.allAcked r) = false := by
    rcases h with h | h <;> rw [h]
    · rw [Bool.false_and]
    · rw [Bool.and_false]
  refine if_pos (.inr (.inr (.inr ?_)))
  simp only [hrun, hfree]
  rfl

theorem State.tryEpoch_starts {r : EpochRun} {n : Nat} {v : State} (hwh : s.isWh = true) (hmap : s.wh.mapFormed = true) (hdirty : s.wh.dirty = true)
    (hrun : s.wh.run = some r) (hcommitted : r.committed = true) (hacked : s.allAcked r = true)
    (hn : n = s.wh.lastEpoch + (if (s.wh.lastEpoch + 1) % 2 = s.rd Obj.whEpoch % 2 then 2 else 1))
    (hv : v = { s with wh := { s.wh with run := some ⟨n, s.rd Obj.whMapGen, s.routeMap, [], false, [], s.actives, s.agent.railMap⟩, dirty := false, lastEpoch := n } }) :
    s.tryEpoch = s.actives.foldl (fun t q => (t.mkMsg mgPrepare n (t.rd Obj.whMapGen) s.routeMap).1.sendBoth q (t.mkMsg mgPrepare n (t.rd Obj.whMapGen) s.routeMap).2) v := by
  have hnum : (if (s.wh.lastEpoch + 1) % 2 = s.rd Obj.whEpoch % 2 then s.wh.lastEpoch + 1 + 1 else s.wh.lastEpoch + 1) = n := by
    rw [hn]
    split <;> rfl
  subst hv
  have hdue : ¬((!s.isWh) = true ∨ (!s.wh.mapFormed) = true ∨ (!s.wh.dirty) = true ∨ (!(r.committed && s.allAcked r)) = true) := by
    simp [hwh, hmap, hdirty, hcommitted, hacked]
  unfold State.tryEpoch
  simp only [hrun]
  rw [if_neg hdue, hnum]
  rfl

/-- A READY is taken into account: the epoch runs, awaits it from this position, and is not committed (R342). -/
theorem exec_ready_taken {r : EpochRun} {t : State} (h : Takes s mgReady i u) (hwh : u.isWh = true) (hrun : u.wh.run = some r) (hterm : i.msg.term = u.rd Obj.agentTerm)
    (hopen : r.committed = false) (hepoch : r.epoch = i.msg.gen) (hmember : r.members.contains i.msg.origin = true) (hnew : r.ready.contains i.msg.origin = false)
    (ht : (if i.msg.payload.take 8 ≠ tableDigest (tablesOf r.routeMap r.rail i.msg.origin) then ((u.abandonEpoch r.epoch).fencePos i.msg.origin).afterChange
      else (State.tryCommit { u with wh := { u.wh with run := some { r with ready := i.msg.origin :: r.ready } } }).tryEpoch) = t) : exec .ready s = .next t := by
  have hawaited : ¬((!u.isWh) = true ∨ i.msg.term ≠ u.rd Obj.agentTerm ∨ r.committed = true ∨ r.epoch ≠ i.msg.gen ∨ (!r.members.contains i.msg.origin) = true ∨
      r.ready.contains i.msg.origin = true) := by
    rw [hwh, hopen, hmember, hnew]
    simp [hterm, hepoch]
  refine h.next rfl ?_
  simp only [hrun]
  rw [if_neg hawaited]
  exact ht

theorem State.tryCommit_waits {r : EpochRun} (hrun : s.wh.run = some r) (h : (r.members.all fun p => r.ready.contains p) = false) : s.tryCommit = s := by
  unfold State.tryCommit
  simp only [hrun]
  exact if_pos (.inr (.inr (by rw [h]; rfl)))

theorem State.tryCommit_commits {r : EpochRun} (hwh : s.isWh = true) (hrun : s.wh.run = some r) (hopen : r.committed = false)
    (h : (r.members.all fun p => r.ready.contains p) = true) : ∃ v, ∃ x : State × AgentMsg,
    v = ((State.wr { s with wh := { s.wh with run := some { r with committed := true } } } Obj.whEpoch r.epoch).bump Obj.epochsCommitted).event 0x4C02 0x00 0 noCtx
      r.epoch 1 0 ∧ x = ((List.range 64).foldl (fun s q => s.wr (Obj.posUsablePorts q) (rmMask r.routeMap q)) v).mkMsg mgCommit r.epoch 0 [] ∧
    s.tryCommit = ((x.1.sendAll x.2).commitEpoch r.epoch).sendReplica := by
  have hready : ¬((!s.isWh) = true ∨ r.committed = true ∨ (!r.members.all fun p => r.ready.contains p) = true) := by simp only [hwh, hopen, h]; decide
  refine ⟨_, _, rfl, rfl, ?_⟩
  unfold State.tryCommit
  simp only [hrun]
  exact if_neg hready

theorem exec_epochReadyTimeout_open {r : EpochRun} (hwh : s.isWh = true) (hrun : s.wh.run = some r) (hopen : r.committed = false) : exec .epochReadyTimeout s =
    .next (((r.members.filter fun q => !r.ready.contains q).foldl (fun s q => s.fencePos q) (s.abandonEpoch r.epoch)).afterChange) := by
  have hruns : ¬((!s.isWh) = true ∨ r.committed = true) := by rw [hwh, hopen]; decide
  change execEpochReadyTimeout s = _
  unfold execEpochReadyTimeout
  simp only [hrun]
  exact if_neg hruns

theorem exec_epochAckTimeout_missing {r : EpochRun} (hwh : s.isWh = true) (hrun : s.wh.run = some r) (hcommitted : r.committed = true) (h : s.allAcked r = false) :
    exec .epochAckTimeout s = .next (((r.members.filter fun q => !r.acked.contains q).foldl (fun s q => s.fencePos q) s).afterChange) := by
  have hwaits : ¬((!s.isWh) = true ∨ (!r.committed) = true ∨ s.allAcked r = true) := by rw [hwh, hcommitted, h]; decide
  change execEpochAckTimeout s = _
  unfold execEpochAckTimeout
  simp only [hrun]
  exact if_neg hwaits

theorem idles_epochAckTimeout {r : EpochRun} (hrun : s.wh.run = some r) (h : s.allAcked r = true) : Idles .epochAckTimeout s := by
  change execEpochAckTimeout s = _
  unfold execEpochAckTimeout
  simp only [hrun]
  exact if_pos (.inr (.inr h))

theorem State.allAcked_iff (r : EpochRun) : s.allAcked r = true ↔ ∀ q ∈ r.members, r.acked.contains q = true ∨ q = s.pos ∧ s.rd Obj.agentEpoch = r.epoch := by
  simp only [State.allAcked, List.all_eq_true, Bool.or_eq_true, Bool.and_eq_true, beq_iff_eq]

theorem State.epochAcked_later {r : EpochRun} {e : Nat} (hrun : s.wh.run = some r) (hcommitted : r.committed = true) (he : r.epoch < e) : s.epochAcked q e =
    State.tryEpoch { s.wr Obj.whEpoch e with wh := { s.wh with run := some { r with epoch := e, acked := [q] }, lastEpoch := max s.wh.lastEpoch e } } := by
  unfold State.epochAcked
  simp only [hrun]
  rw [if_neg (by rw [hcommitted]; decide), if_pos he]

end Map

section Verdicts

variable {reps : List Report} {acks : List (List Nat)} {age q : Nat} {r : Report}

theorem posVerdict_unusable (hr : repOf reps q = some r) (h : bit r.flags 5 = true ∨ bit r.flags 4 = false ∨ bit r.flags 2 = false) : posVerdict reps acks age q = 2 := by
  unfold posVerdict
  simp only [hr]
  exact if_pos (by simpa using h)

/-- A healthy position's verdict follows its acknowledgements and the age of its generation (R319). -/
theorem posVerdict_healthy (hr : repOf reps q = some r) (hstays : bit r.flags 5 = false) (hhealthy : bit r.flags 4 = true) (hfd : bit r.flags 2 = true) :
    posVerdict reps acks age q = if acks.any fun a => a.contains q then 1 else if age < 5 then 0 else 2 := by
  unfold posVerdict
  simp only [hr]
  exact if_neg (by simp [hstays, hhealthy, hfd])

variable {st a b : Nat} {out : Nat}

/-- Both verdicts UNUSABLE exclude an ACTIVE or fenced unit (R321). -/
theorem nextVerd_excluded (hst : st = ustActive ∨ st = ustFenced) (ha : a = 2) (hb : b = 2) : nextVerd st out (a, b) = out := by
  rcases hst with rfl | rfl <;> simp [nextVerd, ha, hb]

/-- One verdict UNUSABLE fences an ACTIVE unit (R321). -/
theorem nextVerd_fenced (out : Nat) (hst : st = ustActive) (hab : (a = 2) ≠ (b = 2)) : nextVerd st out (a, b) = ustFenced := by
  have hboth : ¬(a = 2 ∧ b = 2) := fun ⟨ha, hb⟩ => hab (by rw [ha, hb])
  have hone : a = 2 ∨ b = 2 := by
    by_contra h
    obtain ⟨ha, hb⟩ := not_or.mp h
    exact hab (propext ⟨fun h => absurd h ha, fun h => absurd h hb⟩)
  exact (if_pos hst).trans ((if_neg hboth).trans (if_pos hone))

/-- Both verdicts USABLE make any other unit ACTIVE (R321). -/
theorem nextVerd_usable (out : Nat) (hst : st ≠ ustActive) (ha : a = 1) (hb : b = 1) : nextVerd st out (a, b) = ustActive := (if_neg hst).trans (if_pos ⟨ha, hb⟩)

end Verdicts

/-- Settles O43: a message by what the Wellhead makes of it, a timer by what it finds fenced or missing, an epoch by the stage that it stands at. -/
theorem wellheadMap : Obligations.WellheadMap := by
  unfold Obligations.WellheadMap
  refine ⟨?reportMgmt, ?reportData, ?reportTerm, ?back, ?notFailed, ?unusable, ?healthy, ?reportElsewhere, ?units, ?ack, ?ackOlder, ?notice, ?quorum, ?fencedSelf, ?period,
    ?few, ?heartbeatElsewhere, ?noneFenced, ?oneFenced, ?raise, ?readyDigest, ?readyMore, ?readyLast, ?readyTimeout, ?ackTimeout, ?allAcked, ?acked, ?starts, ?waits, ?later,
    ?forms, ?formsElsewhere⟩
  case reportMgmt => exact fun s i u v r h hwh hpos hterm hpath hmap hv hr => exec_report_formed h hwh hpos hterm hpath hmap hv hr
  case reportData => exact fun s i u v r port h hwh hpos hterm hpath hmap hv hr => exec_report_formed h hwh hpos hterm hpath hmap hv hr
  case reportTerm => exact fun s i u h hterm => h.next rfl (if_pos (.inr (.inr hterm)))
  case back => exact fun s q hwh hmap hfailed hback => ⟨_, rfl, State.cameBack_failed hwh hmap hfailed hback⟩
  case notFailed => exact fun s q h => State.cameBack_of_not_failed h
  case unusable => exact fun reps acks age q r hr h => posVerdict_unusable hr h
  case healthy => exact fun reps acks age q r hr hstays hhealthy hfd => posVerdict_healthy hr hstays hhealthy hfd
  case reportElsewhere => exact fun s i u h hwh => h.next rfl (if_pos (.inl (by rw [hwh]; rfl)))
  case units =>
    exact fun st out a b => ⟨fun hst ha hb => nextVerd_excluded (.inl hst) ha hb, fun hst hab => nextVerd_fenced out hst hab, fun hst ha hb => nextVerd_usable out hst ha hb,
      fun hst ha hb => nextVerd_excluded (.inr hst) ha hb⟩
  case ack => exact fun s i u h hwh hpos hterm hgen hpath hreplica hepoch => exec_hbAck_counted h hwh hpos hterm hgen hpath hreplica hepoch
  case ackOlder => exact fun s i u h hwh hpos hterm hgen hreplica hepoch => exec_hbAck_older h hwh hpos hterm hgen hreplica hepoch
  case notice => exact fun s i u h hpos hother hterm hwh => exec_lossNotice_noticed h hpos hother hterm hwh
  case quorum =>
    intro s u hwh hquorum hfenced hu
    refine exec_heartbeatInterval_goesOn hwh (State.fewPeriods_quorum hquorum) ?_ hu
    exact fun h => h.elim (by decide) fun h => hfenced h.1 h.2
  case fencedSelf => exact fun s hwh hmap hfenced => ⟨_, exec_heartbeatInterval_stepsDown hwh rfl (.inr ⟨hmap, hfenced⟩)⟩
  case period => exact fun s => ⟨rfl, rfl⟩
  case few =>
    intro s hwh hfew hacks hn
    exact exec_heartbeatInterval_stepsDown hwh ((State.fewPeriods_few hfew hacks).trans (congrArg (· + 1) hn)) (.inl (Nat.le_refl 5))
  case heartbeatElsewhere => exact fun s hwh => if_pos (by rw [hwh]; rfl)
  case noneFenced => exact fun s hwh hlinks hpos => idles_fenceReprobeInterval hlinks hpos hwh
  case oneFenced => exact fun s q hwh hone hlinks => exec_fenceReprobeInterval_one hwh hone hlinks
  case raise => exact fun s q => ⟨State.rd_raiseGen, rfl, rfl, by simp [State.raiseGen, mgetD]⟩
  case readyDigest =>
    intro s i u r h hwh hrun hterm hopen hepoch hmember hnew hdigest
    exact exec_ready_taken h hwh hrun hterm hopen hepoch hmember hnew (if_pos hdigest)
  case readyMore =>
    intro s i u r h hwh hrun hterm hopen hepoch hmember hnew hdigest hall
    refine exec_ready_taken h hwh hrun hterm hopen hepoch hmember hnew ((if_neg (not_not.mpr hdigest)).trans ?_)
    rw [State.tryCommit_waits rfl hall]
    exact State.tryEpoch_waits (r := { r with ready := i.msg.origin :: r.ready }) rfl (.inl hopen)
  case readyLast =>
    intro s i u r h hwh hrun hterm hopen hepoch hmember hnew hdigest hall
    obtain ⟨v, x, hv, hx, hcommit⟩ := State.tryCommit_commits
      (s := { u with wh := { u.wh with run := some { r with ready := i.msg.origin :: r.ready } } }) hwh rfl hopen hall
    refine ⟨v, _, x, hv, hx, rfl, exec_ready_taken h hwh hrun hterm hopen hepoch hmember hnew ((if_neg (not_not.mpr hdigest)).trans ?_)⟩
    rw [hcommit]
  case readyTimeout => exact fun s r hwh hrun hopen => exec_epochReadyTimeout_open hwh hrun hopen
  case ackTimeout => exact fun s r hwh hrun hcommitted h => exec_epochAckTimeout_missing hwh hrun hcommitted h
  case allAcked => exact fun s r hrun _ h => idles_epochAckTimeout hrun h
  case acked => exact fun s r => State.allAcked_iff r
  case starts => exact fun s r n v hwh hmap hdirty hrun hcommitted hacked hn hv => State.tryEpoch_starts hwh hmap hdirty hrun hcommitted hacked hn hv
  case waits => exact fun s r hrun h => State.tryEpoch_waits hrun h
  case later => exact fun s q e r hrun hcommitted he => State.epochAcked_later hrun hcommitted he
  case forms => exact fun s hwh hmap => congrArg Host.Outcome.next (if_pos ⟨hwh, by rw [hmap]; rfl⟩)
  case formsElsewhere => exact fun s hwh => congrArg Host.Outcome.next (if_neg fun h => Bool.false_ne_true (hwh.symm.trans h.1))

end Sys2Proof.Machine
end

section
/-! Caps, SAFETY and the tray (R349, R368, R370, R372, R373): a park of the package, and the park of its tray at the Wellhead. -/

namespace Sys2Proof.Machine

open Sys2Proof

theorem State.rd_of_reg {s t : State} (h : s.reg = t.reg) (o : Obj) : s.rd o = t.rd o := by rw [State.rd, h, State.rd]

section Orders

variable {s : State}

/-- A sequence is a number of 32 bits, so that none is above the largest one. -/
theorem mod_le_of_largest {n m : Nat} (h : 2 ^ 32 - 1 ≤ m) : n % 2 ^ 32 ≤ m := by
  have := Nat.mod_lt n (show 0 < 2 ^ 32 by decide)
  omega

theorem State.takeCaps_old {seq arg : Nat} {table : Bytes} (h : seq ≤ s.rd Obj.capSequence) : s.takeCaps seq arg table = s := if_pos h

theorem State.takeSafety_old {seq park low reason : Nat} (h : seq ≤ s.steward.safetyRx) : s.takeSafety seq park low reason = s := if_pos h

/-- The Wellhead's own CAP_TABLE is ignored at the largest sequence (R368), and sending it writes no object. -/
theorem State.reg_sendTable (table : Bytes) (h : 2 ^ 32 - 1 ≤ s.rd Obj.capSequence) : (s.sendTable table).reg = s.reg := by
  unfold State.sendTable
  extract_lets seq arg old t r
  have hreg : (r.1.sendAll r.2).reg = s.reg := State.sendAll_reg _ _
  have hold : seq ≤ (r.1.sendAll r.2).rd Obj.capSequence := by
    rw [State.rd_of_reg hreg]
    exact mod_le_of_largest h
  rw [State.takeCaps_old hold, hreg]

theorem State.rd_sendCaps {o : Obj} (hbudget : Obj.catchmentBudgetW.key ≠ o.key) (hlevel : Obj.catchmentLevelW.key ≠ o.key) (h : 2 ^ 32 - 1 ≤ s.rd Obj.capSequence) :
    s.sendCaps.rd o = s.rd o := by
  unfold State.sendCaps
  extract_lets held b g c cap off entry old t
  have hseq : ((t.wr Obj.catchmentBudgetW b).wr Obj.catchmentLevelW (c.1.getD 0xFFFF)).rd Obj.capSequence = s.rd Obj.capSequence := by
    rw [State.rd_wr_ne _ _ _ _ (by decide), State.rd_wr_ne _ _ _ _ (by decide)]
    exact State.rd_with_steward s _
  rw [State.rd_of_reg (State.reg_sendTable _ (by rw [hseq]; exact h)), State.rd_wr_ne _ _ _ _ hlevel, State.rd_wr_ne _ _ _ _ hbudget]
  exact State.rd_with_steward s _

/-- The Wellhead's own SAFETY is ignored at the largest sequence (R370). -/
theorem State.rd_sendSafety {o : Obj} (reason : Nat) (hbudget : Obj.catchmentBudgetW.key ≠ o.key) (hlevel : Obj.catchmentLevelW.key ≠ o.key)
    (hcaps : 2 ^ 32 - 1 ≤ s.rd Obj.capSequence) (hsafety : 2 ^ 32 - 1 ≤ s.steward.safetyRx) : (s.sendSafety reason).rd o = s.rd o := by
  unfold State.sendSafety
  extract_lets seq park low old t r
  have hreg : (r.1.sendAll r.2).reg = s.reg := State.sendAll_reg _ _
  have hold : seq ≤ (r.1.sendAll r.2).steward.safetyRx := by
    rw [State.sendAll_steward]
    exact mod_le_of_largest hsafety
  rw [State.takeSafety_old hold, State.rd_sendCaps hbudget hlevel (by rw [State.rd_of_reg hreg]; exact hcaps), State.rd_of_reg hreg]

/-- The Wellhead parks a tray (R372). -/
theorem State.rd_parkMask_parkTray {t : Nat} (reason : Nat) (hpark : bit (s.rd Obj.parkMask) t = false) (hcaps : 2 ^ 32 - 1 ≤ s.rd Obj.capSequence)
    (hsafety : 2 ^ 32 - 1 ≤ s.steward.safetyRx) : (s.parkTray t reason).rd Obj.parkMask = setBit (s.rd Obj.parkMask) t true := by
  rw [State.parkTray, if_neg (by rw [hpark]; exact Bool.false_ne_true), State.rd_sendSafety reason (by decide) (by decide), State.rd_event_of_area _ _ _ _ _ _ _ (by decide),
    State.rd_wr_same]
  · rw [State.rd_event_of_area _ _ _ _ _ _ _ (by decide), State.rd_wr_ne _ _ _ _ (by decide)]
    exact hcaps
  · rw [State.event_steward, State.wr_steward]
    exact hsafety

end Orders

/-! ## A stop of a package at rest (R347, R403) -/

section Stop

variable {s : State} {o : Obj}

/-- No tile has a post that waits, and the recorder takes no event. -/
def State.Quiet (s : State) : Prop := s.rcd.loaded = false ∧ ∀ n, (s.tile n).postQ = []

theorem State.pace_of_quiet (h : s.Quiet) : s.pace = s := by
  have hnext : s.takeNext = s := by
    unfold State.takeNext
    rw [h.1]
  rw [State.pace, hnext, ite_self]

theorem State.Quiet.setTile {n : Nat} {t : Tile} (h : s.Quiet) (ht : t.postQ = []) : (s.setTile n t).Quiet := by
  refine ⟨h.1, fun k => ?_⟩
  by_cases hk : n = k
  · rw [← hk, State.tile_setTile, ht]
  · rw [State.tile_setTile_ne _ _ hk, h.2]

theorem State.loaded_goState (cls unit new : Nat) : (s.goState o cls unit new).rcd.loaded = s.rcd.loaded := by
  unfold State.goState
  split
  · rfl
  · unfold State.unitEvent State.event State.offer
    split <;> rfl

theorem State.Quiet.goState (h : s.Quiet) (cls unit new : Nat) : (s.goState o cls unit new).Quiet := by
  refine ⟨by rw [State.loaded_goState, h.1], fun k => ?_⟩
  rw [State.tile, State.goState_tiles]
  exact h.2 k

/-- What the units of a quiet package leave as it is when they are to quiesce: the orders, and every object but those of tiles and of the recorder. -/
def State.Rests (s t : State) : Prop := t.Quiet ∧ t.steward = s.steward ∧ ∀ o : Obj, keyArea o.key ≠ 0x10 → keyArea o.key ≠ 0x70 → t.rd o = s.rd o

theorem State.Quiet.rests (h : s.Quiet) : s.Rests s := ⟨h, rfl, fun _ _ _ => rfl⟩

theorem State.Rests.trans {t u : State} (h : s.Rests t) (h' : t.Rests u) : s.Rests u :=
  ⟨h'.1, h'.2.1.trans h.2.1, fun o h10 h70 => (h'.2.2 o h10 h70).trans (h.2.2 o h10 h70)⟩

theorem State.Quiet.rests_setTile {n : Nat} {t : Tile} (h : s.Quiet) (ht : t.postQ = []) : s.Rests (s.setTile n t) := ⟨h.setTile ht, rfl, fun _ _ _ => rfl⟩

theorem State.Quiet.rests_goState {n : Nat} (h : s.Quiet) (hn : n < 1920) (new : Nat) : s.Rests (s.goState (Obj.tileState n) 0x01 n new) :=
  ⟨h.goState _ _ _, State.goState_steward _ _ _ _ _, fun _ h10 h70 => State.rd_goState_of_area _ _ _ (key_ne_of_area h10 (keyArea_tileState hn)) h70⟩

theorem State.abortPosts_of_quiet {p : PostMsg → Bool} {st : Status} {cause : Nat} (h : s.Quiet) (n : Nat) :
    s.abortPosts n p st cause = s.setTile n { s.tile n with postQ := [] } := by
  simp [State.abortPosts, State.postsDone, h.2 n]

theorem State.Quiet.rests_quiesceTile {n : Nat} (h : s.Quiet) (hn : n < 1920) : s.Rests (s.quiesceTile n) := by
  have hset : s.Rests (s.setTile n { s.tile n with graceOver := false }) := h.rests_setTile (h.2 n)
  have hgo := hset.trans (hset.1.rests_goState hn ustQuiescing)
  unfold State.quiesceTile
  extract_lets t
  rw [State.abortPosts_of_quiet hgo.1]
  exact hgo.trans (hgo.1.rests_setTile rfl)

theorem State.Quiet.rests_disableTile {n : Nat} (h : s.Quiet) (hn : n < 1920) : s.Rests (s.disableTile n) := by
  have hactive : ∀ t : Tile, t.postQ = [] → s.Rests (if s.rd (Obj.tileState n) = ustActive then s.quiesceTile n
      else if s.rd (Obj.tileState n) = ustFrozen then s.setTile n t else s) := by
    intro t ht
    split_ifs
    · exact h.rests_quiesceTile hn
    · exact h.rests_setTile ht
    · exact h.rests
  unfold State.disableTile
  extract_lets st t
  split
  · split
    · exact h.rests_setTile (h.2 n)
    · exact hactive _ (h.2 n)
  · exact hactive _ (h.2 n)

/-- A pass over units that leaves a state as it is at each of them. -/
theorem foldl_of_fixed {α β : Type} {f : α → β → α} {a : α} {l : List β} (h : ∀ b ∈ l, f a b = a) : l.foldl f a = a :=
  List.foldlRecOn (motive := (· = a)) l f rfl fun _ ht b hb => by rw [ht, h b hb]

theorem State.disablePort_cases (p : Nat) :
    (s.disablePort p).1 = s ∨ (s.disablePort p).1 = (s.goState (Obj.portState p) 0x05 p ustQuiescing).wr (Obj.rtAdmit p) 0 := by
  simp only [State.disablePort]
  split
  · exact .inr rfl
  · exact .inl rfl

theorem State.steward_disablePort (p : Nat) : (s.disablePort p).1.steward = s.steward := by
  rcases s.disablePort_cases p with h | h <;> rw [h]
  rw [State.wr_steward, State.goState_steward]

theorem State.rd_disablePort {p : Nat} (hp : p < 18) (h30 : keyArea o.key ≠ 0x30) (h38 : keyArea o.key ≠ 0x38) (h70 : keyArea o.key ≠ 0x70) :
    (s.disablePort p).1.rd o = s.rd o := by
  have hstate : (Obj.portState p).key ≠ o.key := key_ne_of_area h30 (by simp only [Obj.portState, keyArea, objKey]; omega)
  have hadmit : (Obj.rtAdmit p).key ≠ o.key := key_ne_of_area h38 (by simp only [Obj.rtAdmit, keyArea, objKey]; omega)
  rcases s.disablePort_cases p with h | h <;> rw [h]
  rw [State.rd_wr_ne _ _ _ _ hadmit, State.rd_goState_of_area _ _ _ hstate h70]

/-- A quiet package whose channels and interfaces do not work comes to rest (R347): the orders stay, and every object but those of tiles, ports and the recorder. -/
theorem State.quiesceAll_rests (h : s.Quiet) (hte : ∀ c, c < 72 → s.rd (Obj.teState c) ≠ ustActive) (hni : ∀ i, i < 4 → s.rd (Obj.niState i) ≠ ustActive) :
    (s.quiesceAll true).steward = s.steward ∧ ∀ o : Obj, keyArea o.key ≠ 0x10 → keyArea o.key ≠ 0x30 → keyArea o.key ≠ 0x38 → keyArea o.key ≠ 0x70 →
      (s.quiesceAll true).rd o = s.rd o := by
  unfold State.quiesceAll
  extract_lets tiles chans nis
  have htiles : s.Rests tiles := List.foldlRecOn (motive := s.Rests) _ _ h.rests fun t ht n hn => by
    have hn' := ht.trans (ht.1.rests_disableTile (List.mem_range.mp hn))
    rw [State.pace_of_quiet hn'.1]
    exact hn'
  have hchans : chans = tiles := foldl_of_fixed fun c hc => if_neg (by
    have hc' := List.mem_range.mp hc
    rw [htiles.2.2 _ (by rw [keyArea_teState hc']; decide) (by rw [keyArea_teState hc']; decide)]
    exact hte c hc')
  have hnis : nis = chans := foldl_of_fixed fun i hi => if_neg (by
    have hi' := List.mem_range.mp hi
    rw [hchans, htiles.2.2 _ (by rw [keyArea_niState hi']; decide) (by rw [keyArea_niState hi']; decide)]
    exact hni i hi')
  rw [if_pos rfl, hnis, hchans]
  constructor
  · exact List.foldlRecOn (motive := fun t : State => t.steward = s.steward) _ _ htiles.2.1 fun t ht p _ => (State.steward_disablePort p).trans ht
  · intro o h10 h30 h38 h70
    exact List.foldlRecOn (motive := fun t : State => t.rd o = s.rd o) _ _ (htiles.2.2 o h10 h70) fun t ht p hp =>
      (State.rd_disablePort (List.mem_range.mp hp) h30 h38 h70).trans ht

/-- Contexts that are FREE have nothing to retire (R403). -/
theorem State.retireAll_free (h : ∀ c, c < 64 → c = 0 ∨ s.ctxSt c = ctxFree) : s.retireAll = s := foldl_of_fixed fun c hc => if_pos (h c (List.mem_range.mp hc))

/-- The spare drawn for the one tile under substitution goes back (R102). -/
theorem State.abandonSwaps_one {n : Nat} {t : Tile} {b : Subst} (htiles : s.tiles = [(n, t)]) (hsubst : t.subst = some b) (hstep : b.step < 3) :
    s.abandonSwaps = (s.setTile n { t with subst := none }).wr (Obj.spareTilesFree (dieOf n)) (s.rd (Obj.spareTilesFree (dieOf n)) + 1) := by
  have htile : s.tile n = t := by simp [State.tile, htiles, mgetD, mget]
  rw [State.abandonSwaps, htiles, List.foldl_cons, List.foldl_nil]
  simp only [htile, hsubst, if_pos hstep]

/-- A package that is ordered to park, with its cap of then (R347, R349). -/
def State.parkOrdered (s : State) (why : Nat) : State :=
  State.recap { s with steward := { s.steward with parkWhy := if s.steward.parkWhy.contains why then s.steward.parkWhy else s.steward.parkWhy ++ [why], parkOrder := true } }

/-- A package ON that is ordered to park, when its stop begins (R347). -/
def State.stopBegun (s : State) (why : Nat) : State :=
  let w := s.parkOrdered why
  State.wr { w.wr Obj.pkgPowerState pwrStopping with steward := { w.steward with stopTo := pwrParked, raising := [] } } Obj.resourcesComplete 0

theorem State.stop_of_on {dest : Nat} {ports : Bool} (hdest : (dest == pwrParked) = ports) (h : s.rd Obj.pkgPowerState = pwrOn) :
    s.stop dest =
      (State.wr { s.wr Obj.pkgPowerState pwrStopping with steward := { s.steward with stopTo := dest, raising := [] } } Obj.resourcesComplete 0).retireAll.abandonSwaps.quiesceAll
        ports := by
  have hstopping : s.rd Obj.pkgPowerState ≠ pwrStopping := by
    rw [h]
    decide
  have hhalt : (if s.rd Obj.pkgPowerState = pwrStarting ∧ s.boot.step ≠ 0x30 then s.halt s.boot.step 8 else s) = s := if_neg (by
    rw [h]
    exact fun hstart => absurd hstart.1 (by decide))
  simp only [State.stop, if_neg hstopping, if_pos (show s.rd Obj.pkgPowerState = pwrStarting ∨ s.rd Obj.pkgPowerState = pwrOn from .inr h), hhalt, hdest]

theorem State.park_of_on (why : Nat) (h : s.rd Obj.pkgPowerState = pwrOn) : s.park why = (s.stopBegun why).retireAll.abandonSwaps.quiesceAll true := by
  have hon : (s.parkOrdered why).rd Obj.pkgPowerState = pwrOn := (State.rd_recap _ (.inr rfl)).trans h
  have hoff : (s.parkOrdered why).rd Obj.pkgPowerState ≠ pwrOff := by
    rw [hon]
    decide
  have hfabric : (s.parkOrdered why).rd Obj.pkgPowerState ≠ pwrFabric := by
    rw [hon]
    decide
  exact (if_neg hoff).trans ((if_neg hfabric).trans (State.stop_of_on rfl hon))

end Stop

end Sys2Proof.Machine
end

section
/-! An alarm of a tray (R372, R377) that makes the package which takes it the Wellhead by an object's key that two objects share. -/

namespace Sys2Proof.Machine

open Sys2Proof

theorem testBit_setBit_true (v i : Nat) : (setBit v i true).testBit i = true := by
  unfold setBit
  split
  case isTrue h => exact h
  case isFalse h =>
    rw [if_pos rfl, Nat.add_comm, Nat.testBit_two_pow_add_eq]
    simpa using h

section Alarm

variable {s u : State} {i : InMsg}

theorem State.alarmWh_leak {t : Nat} (h : s.isWh = true) : s.alarmWh t 1 = s.parkTray t 3 := by simp [State.alarmWh, h]

/-- A package that a leak in its tray makes the Wellhead parks the tray as well (R372). -/
theorem exec_trayAlarm_ne_of_park (h : Takes s mgTrayAlarm i u) (htray : i.msg.arg % 256 = State.trayOf u.pos) (halarm : i.msg.arg / 256 % 256 = 1)
    (hwh : (u.park pkLeak).isWh = true) (hpark : bit ((u.park pkLeak).rd Obj.parkMask) (i.msg.arg % 256) = false)
    (hcaps : 2 ^ 32 - 1 ≤ (u.park pkLeak).rd Obj.capSequence) (hsafety : 2 ^ 32 - 1 ≤ (u.park pkLeak).steward.safetyRx) :
    exec .trayAlarm s ≠ .next (u.alarmed (i.msg.arg / 256 % 256)) := by
  have hexec : exec .trayAlarm s = .next ((u.park pkLeak).parkTray (i.msg.arg % 256) 3) := by
    refine h.next rfl ?_
    simp only [if_pos htray, halarm]
    exact State.alarmWh_leak hwh
  rw [hexec, halarm, show u.alarmed 1 = u.park pkLeak from rfl]
  intro hnext
  have hmask := congrArg (fun t : State => bit (t.rd Obj.parkMask) (i.msg.arg % 256)) (Host.Outcome.next.inj hnext)
  simp only [State.rd_parkMask_parkTray 3 hpark hcaps hsafety, hpark] at hmask
  exact absurd hmask (by rw [show bit (setBit _ _ true) _ = true from testBit_setBit_true _ _]; decide)

end Alarm

/-- A number above those of the tiles, whose count of free spare tiles has the key of `agent_state`. -/
def farTile : Nat := 480 * (Obj.agentState.key - (Obj.spareTilesFree 0).key)

/-- The tile with that number, for which a spare has been drawn. -/
def swappedTile : Tile := { Tile.init with subst := some ⟨1, 0, false, false⟩ }

/-- A leak in tray 0. -/
def leakAlarm : InMsg := ⟨.mgmt, 0xFFFF, ⟨mgTrayAlarm, 0, 1, 0, 0, 1, 0, 256, []⟩⟩

/-- An ORPHAN package ON whose interfaces are DISABLED, with a substitution under way at the far tile and the largest sequences (R368, R370), and with these messages in the
agent's ring. -/
def farSwap (inbox : List InMsg) : State :=
  let s := ((State.reset.wr Obj.agentState agOrphan).wr Obj.pkgPowerState pwrOn).wr Obj.capSequence (2 ^ 32 - 1)
  let s := (List.range 4).foldl (fun s i => s.wr (Obj.niState i) ustDisabled) s
  { s with tiles := [(farTile, swappedTile)], steward := { s.steward with safetyRx := 2 ^ 32 - 1 }, agent := { s.agent with inbox := inbox, maxTerm := 1 } }

theorem takes_leakAlarm : Takes (farSwap [leakAlarm]) mgTrayAlarm leakAlarm (farSwap []) := ⟨[], _, rfl, rfl, .inl ⟨rfl, rfl⟩⟩

theorem retireAll_farSwap : ((farSwap []).stopBegun pkLeak).retireAll = (farSwap []).stopBegun pkLeak := State.retireAll_free (by decide)

/-- Its stop with the spare of the far tile given back, which counts `agent_state` up from ORPHAN to WELLHEAD. -/
def farWellhead : State :=
  ((State.setTile ((farSwap []).stopBegun pkLeak) farTile { swappedTile with subst := none }).wr (Obj.spareTilesFree (dieOf farTile)) agWellhead)

theorem park_farSwap : (farSwap []).park pkLeak = farWellhead.quiesceAll true := by
  rw [State.park_of_on pkLeak (by decide), retireAll_farSwap, State.abandonSwaps_one (t := swappedTile) rfl rfl (by decide)]
  rfl

theorem quiet_farWellhead : farWellhead.Quiet := by
  have hquiet : ((farSwap []).stopBegun pkLeak).Quiet := by
    refine ⟨rfl, fun n => ?_⟩
    change (mgetD [(farTile, swappedTile)] n Tile.init).postQ = []
    rw [mgetD, mget_cons]
    split <;> rfl
  exact hquiet.setTile (n := farTile) (t := { swappedTile with subst := none }) rfl

/-- Refutes O46: a package that is not the Wellhead is said to do no more on a leak in its tray than to park. The model gives a tile any number, and the count of free spare
tiles of a die that does not exist has the key of `agent_state`: the park of an ORPHAN that has drawn a spare for `farTile` leaves it WELLHEAD, which parks the tray. -/
theorem not_rackSteward : ¬ Obligations.RackSteward := by
  unfold Obligations.RackSteward
  rintro ⟨-, -, -, -, -, -, -, -, -, -, -, -, -, -, -, -, -, -, -, -, -, -, -, -, htrayAlarm, -⟩
  obtain ⟨hsteward, hrd⟩ := State.quiesceAll_rests quiet_farWellhead (by decide) (by decide)
  rw [← park_farSwap] at hsteward hrd
  refine exec_trayAlarm_ne_of_park takes_leakAlarm (by decide) (by decide) ?_ ?_ ?_ ?_ (htrayAlarm _ _ _ takes_leakAlarm (by decide) (by decide))
  · rw [State.isWh, hrd _ (by decide) (by decide) (by decide) (by decide)]
    decide
  · rw [hrd _ (by decide) (by decide) (by decide) (by decide)]
    decide
  · rw [hrd _ (by decide) (by decide) (by decide) (by decide)]
    decide
  · rw [hsteward]
    decide

end Sys2Proof.Machine
end

section
/-! What reset leaves (R345, R447, R481). -/

namespace Sys2Proof.Machine

open Sys2Proof

theorem State.rd_reset (o : Obj) : State.reset.rd o = o.dflt := rfl

theorem State.rdo_reset (o : Oct) : State.reset.rdo o = o.dflt := rfl

/-- Settles O58: no object has been written, so that each reads its default, and the rest stands in `State.reset` itself. -/
theorem resetState : Obligations.ResetState := by
  unfold Obligations.ResetState
  exact ⟨State.rd_reset Obj.pkgPowerState, State.rd_reset, State.rdo_reset, rfl, State.reset_mem_wf, rfl, rfl, rfl, rfl⟩

end Sys2Proof.Machine
end

section
/-! Caps, orders and the ways between the power states (R345, R347, R349, R351, R361, R364, R377). -/

namespace Sys2Proof.Machine

open Sys2Proof

variable {s : State} {w : Who} {v : Nat}

/-! ## The effective cap (R350, R351) -/

/-- The least of a start value and of what a list gives is at most each of them, and one of them. -/
theorem foldl_min_least {α : Type} {f : α → Nat} {l : List α} {c m : Nat} (hm : l.foldl (fun c a => min c (f a)) c = m) :
    m ≤ c ∧ (∀ a ∈ l, m ≤ f a) ∧ (m = c ∨ ∃ a ∈ l, m = f a) := by
  induction l generalizing c with
  | nil => exact ⟨hm.ge, by simp, .inl hm.symm⟩
  | cons x xs ih =>
    obtain ⟨hstart, hall, hone⟩ := ih hm
    refine ⟨hstart.trans (min_le_left _ _), List.forall_mem_cons.mpr ⟨hstart.trans (min_le_right _ _), hall⟩, ?_⟩
    rcases hone with h | ⟨a, ha, h⟩
    · rcases min_choice c (f x) with hc | hx
      · exact .inl (h.trans hc)
      · exact .inr ⟨x, List.mem_cons_self, h.trans hx⟩
    · exact .inr ⟨a, List.mem_cons_of_mem _ ha, h⟩

theorem State.effCap_least : s.effCap ≤ 2600 ∧ (∀ l ∈ s.limits, s.effCap ≤ l.2) ∧ (s.effCap = 2600 ∨ ∃ l ∈ s.limits, s.effCap = l.2) :=
  foldl_min_least rfl

/-! ## A host request (R351) -/

theorem accepted_hostPowerRequest (hw : isOpCus w = true) (hv : v = 0 ∨ (900 ≤ v ∧ v ≤ 2600)) :
    Accepted w (.hostPowerRequest w v) s (s.wr Obj.hostPowerRequest v).applyOrders.starting :=
  accepted_of_ctl rfl hw (if_neg (by omega))

theorem denied_hostPowerRequest (hw : isOpCus w = true) (hne : v ≠ 0) (hv : v < 900 ∨ 2600 < v) : Denied w (.hostPowerRequest w v) s rOutOfRange :=
  denied_of_ctl rfl hw (if_pos ⟨hne, hv⟩)

/-! ## The release of a park (R349, R377) -/

theorem denied_parkRelease (hw : isOpCus w = true) (h : s.rd Obj.pkgPowerState ≠ pwrParked ∨ s.parkCleared = false) : Denied w (.parkRelease w v) s rRefused :=
  denied_of_ctl rfl hw (if_pos (.inr (by simpa using h)))

/-- A package whose park is released, as it stands before its cap follows: OFF without an order to park. -/
def State.parkReleased (s : State) : State :=
  let s := { s with steward := { s.steward with parkOrder := false, parkWhy := [] }, boot := { s.boot with step := if s.boot.dead then 0x30 else 2 } }
  (if s.rd Obj.bringupState = 0x30 then s else s.wr Obj.bringupState 0x02).wr Obj.pkgPowerState pwrOff

theorem State.releasePark_cleared (hparked : s.rd Obj.pkgPowerState = pwrParked) (hcleared : s.parkCleared = true) :
    s.releasePark 1 = (s.parkReleased.recap, rOk) :=
  if_neg (by simp [hparked, hcleared])

theorem State.parkReleased_orders : s.parkReleased.steward = { s.steward with parkOrder := false, parkWhy := [] } ∧ s.parkReleased.mem = s.mem := by
  unfold State.parkReleased
  extract_lets t
  split <;> exact ⟨rfl, rfl⟩

theorem accepted_parkRelease (hw : isOpCus w = true) (hparked : s.rd Obj.pkgPowerState = pwrParked) (hcleared : s.parkCleared = true) :
    Accepted w (.parkRelease w 1) s s.parkReleased.recap :=
  accepted_of_ctl rfl hw (State.releasePark_cleared hparked hcleared)

theorem State.parkReleased_recap : s.parkReleased.recap.rd Obj.pkgPowerState = pwrOff ∧ s.parkReleased.recap.steward.parkOrder = false ∧
    s.parkReleased.recap.steward.parkWhy = [] ∧ s.parkReleased.recap.mem = s.mem := by
  obtain ⟨hsteward, hmem⟩ := s.parkReleased_orders
  refine ⟨(State.rd_recap _ (.inr rfl)).trans (State.rd_wr_same _ _ _), ?_, ?_, hmem⟩
  · exact congrArg Steward.parkOrder hsteward
  · exact congrArg Steward.parkWhy hsteward

/-- A loop of the tray that does not read DRY keeps the park (R377). -/
theorem State.parkCleared_wet (h : s.rd Obj.trayStatus % 4 ≠ 0) : s.parkCleared = false := by simp [State.parkCleared, h]

/-- So does a cause of the park that is not over. -/
theorem State.parkCleared_of_cause {why : Nat} (hwhy : s.steward.parkWhy.contains why = true) (h : s.causeOver why = false) : s.parkCleared = false := by
  have hall : s.steward.parkWhy.all s.causeOver = false := List.all_eq_false.mpr ⟨why, by simpa using hwhy, by simp [h]⟩
  rw [State.parkCleared, hall, Bool.and_false]

theorem State.causeOver_hub (h : bit (s.rd Obj.trayStatus) 3 = true) : s.causeOver pkHub = false := by simp [State.causeOver, h]

/-! ## The end of a stop, and the start of the fabric (R347, R349, R364) -/

theorem exec_stopComplete_stopping (h : s.rd Obj.pkgPowerState = pwrStopping) (hsubst : s.substRuns = false) : exec .stopComplete s = .next s.stopDone :=
  congrArg Host.Outcome.next (if_pos ⟨h, hsubst⟩)

theorem exec_stopComplete_fabric (h : s.rd Obj.pkgPowerState = pwrFabric) (hpark : s.steward.parkOrder = true) : exec .stopComplete s = .next (s.fabricDown pwrParked) :=
  congrArg Host.Outcome.next ((if_neg (by simp [h])).trans (if_pos ⟨h, hpark⟩))

theorem idles_stopComplete (hstop : s.rd Obj.pkgPowerState = pwrStopping → s.substRuns = true) (hfabric : s.rd Obj.pkgPowerState = pwrFabric → s.steward.parkOrder = false) :
    Idles .stopComplete s := by
  refine congrArg Host.Outcome.next ((if_neg fun h => ?_).trans (if_neg fun h => ?_))
  · simp [hstop h.1] at h
  · simp [hfabric h.1] at h

section FabricStart

variable {r : StepRes} (hoff : s.rd Obj.pkgPowerState = pwrOff) (hpark : s.steward.parkOrder = false) (hstep : s.boot.step = 2)
include hoff hpark hstep

/-- Neither the power state nor an order nor the step of bring-up keeps the fabric from its start. -/
theorem State.fabricStart_ready : ¬(s.rd Obj.pkgPowerState ≠ pwrOff ∨ s.steward.parkOrder = true ∨ s.boot.step ≠ 2) := by simp [hoff, hpark, hstep]

theorem exec_fabricStartTimer_starts (href : s.hasRef = true) : exec (.fabricStartTimer r) s = .next (s.fabricStep r) :=
  congrArg Host.Outcome.next ((if_neg (State.fabricStart_ready hoff hpark hstep)).trans (if_neg (by simp [href])))

theorem exec_fabricStartTimer_waits (href : s.hasRef = false) : exec (.fabricStartTimer r) s = .next { s with boot := { s.boot with held := true } } :=
  congrArg Host.Outcome.next ((if_neg (State.fabricStart_ready hoff hpark hstep)).trans (if_pos (by simp [href])))

end FabricStart

theorem exec_pfailClearTimer_stops (hpend : s.steward.pfailPend = true) (hpin : s.boot.pfailN = true) (hrails : s.steward.railBad = []) :
    exec .pfailClearTimer s = .next (State.stop { s with steward := { s.steward with pfailPend := false } } pwrFabric) :=
  congrArg Host.Outcome.next (if_pos ⟨hpend, hpin, by rw [hrails]; rfl⟩)

end Sys2Proof.Machine
end

section
/-! Clocks, VTILE and the floor latch (R91, R92, R354 to R361). -/

namespace Sys2Proof.Machine

open Sys2Proof

variable {s : State} {o : Obj} {die mhz : Nat}

/-! ## A clock falls or rises (R92, R358) -/

theorem State.reg_settleClocks (n : Nat) : (s.settleClocks n).reg = s.reg := by
  unfold State.settleClocks
  split <;> rfl

theorem State.rd_setClock : (s.setClock die mhz).rd o = (s.wr (Obj.tileClockMhz die) mhz).rd o := by
  refine State.rd_of_reg (congrArg (mput · _ _) ?_) o
  refine List.foldlRecOn (motive := fun t : State => t.reg = s.reg) _ _ rfl fun t ht x _ => ?_
  split
  · rw [State.reg_settleClocks, ht]
  · exact ht

theorem State.rd_lowerClock_same : (s.lowerClock die mhz).rd (Obj.tileClockMhz die) = mhz := State.rd_setClock.trans (State.rd_wr_same _ _ _)

theorem State.rd_lowerClock_ne (h : (Obj.tileClockMhz die).key ≠ o.key) : (s.lowerClock die mhz).rd o = s.rd o := State.rd_setClock.trans (State.rd_wr_ne _ _ _ _ h)

theorem keyArea_tileClockMhz (h : die < 4) : keyArea (Obj.tileClockMhz die).key = 0x10 := by
  simp only [keyArea, Obj.tileClockMhz, objKey]
  omega

theorem key_tileClockMhz_ne {d : Nat} (h : d ≠ die) : (Obj.tileClockMhz d).key ≠ (Obj.tileClockMhz die).key := by
  simp only [Obj.tileClockMhz, objKey]
  omega

/-- A die whose raise has been taken up waits for none. -/
def State.raiseTaken (s : State) (die : Nat) : State := { s with steward := { s.steward with raising := mdel s.steward.raising die } }

/-- VTILE has reached the value for a clock that was to rise: the clock moves, unless its die is above its control point (R358, R359). -/
theorem exec_vtileReached_raising {c : Nat} (hraise : mget s.steward.raising die = some c) : exec (.vtileReached die) s =
    .next (if die < 4 ∧ s.rd Obj.pkgPowerState = pwrOn ∧ !s.hot die then (s.raiseTaken die).setClock die c else s.raiseTaken die) := by
  change execVtileReached die s = _
  rw [execVtileReached, hraise]
  rfl

theorem idles_vtileReached (h : mget s.steward.raising die = none) : Idles (.vtileReached die) s := by
  change execVtileReached die s = _
  rw [execVtileReached, h]

/-- A die above its control point loses a step of 25 MHz (R359). -/
theorem exec_thermalStep_hot {t : Int} (hdie : die < 4) (htemp : mget s.steward.temps die = some t) (hhot : controlPoint die < t) (hon : s.rd Obj.pkgPowerState = pwrOn) :
    exec (.thermalStep die) s = .next (State.lowerClock { s with steward := { s.steward with thermalSteps := mput s.steward.thermalSteps die (min 36 (s.stepsOff die + 1)) } } die
      (max 600 (s.rd (Obj.tileClockMhz die) - 25))) := by
  change execThermalStep die s = _
  rw [execThermalStep, htemp]
  exact if_pos ⟨hdie, hhot, hon⟩

/-! ## The clocks of the steward (R354 to R356) -/

/-- A step of 25 MHz at which the steward expects power and current within the cap it follows and the VTILE limits (R355, R356). -/
def State.clockFits (s : State) (c : Nat) : Prop :=
  Config.powerAt s.steward.railMw c ≤ 1000 * s.steward.ramp ∧ ∀ d, d < 4 → Config.ampsAt s.steward.railMw d c ≤ 7000

/-- The top clock is the floor clock or a step above it that fits. -/
theorem State.topClock_cases : s.topClock = 600 ∨ (600 ≤ s.topClock ∧ s.clockFits s.topClock) := by
  unfold State.topClock
  cases hfind : List.find? _ ((List.range 37).map (1500 - 25 * ·)) with
  | none => exact .inl rfl
  | some c =>
    refine .inr ⟨?_, ?_⟩
    · obtain ⟨k, hk, rfl⟩ := List.mem_map.mp (List.mem_of_find?_eq_some hfind)
      have := List.mem_range.mp hk
      simp only [Option.getD_some]
      omega
    · simpa [State.clockFits] using List.find?_some hfind

theorem State.le_topClock : 600 ≤ s.topClock := by
  rcases s.topClock_cases with h | h
  · exact h.ge
  · exact h.1

theorem State.wantClock_bounds : (s.overPower = true → s.wantClock ≤ max 600 (s.commonClock - 25)) ∧
    (1000 * s.steward.ramp < s.powerMw → s.wantClock ≤ max 600 s.commonClock) ∧ s.wantClock ≤ s.topClock := by
  have htop := s.le_topClock
  unfold State.wantClock
  extract_lets cur
  split_ifs with hover hpower
  · refine ⟨fun _ => ?_, fun _ => ?_, ?_⟩ <;> omega
  · exact ⟨fun h => absurd h hover, fun _ => by omega, by omega⟩
  · exact ⟨fun h => absurd h hover, fun h => absurd h hpower, le_rfl⟩

theorem State.control_on (hon : s.rd Obj.pkgPowerState = pwrOn) (hfloor : s.rd Obj.floorLatched ≠ 1) :
    s.control = if s.wantClock < s.commonClock then s.lowerClocks s.wantClock else s.raiseClocks s.wantClock :=
  if_neg (by simp [hon, hfloor])

/-! ## The floor latch (R357, R360, R361) -/

section Floor

variable {c : Nat}

theorem State.dieClock_floor : s.dieClock die 600 = 600 := max_eq_left (Nat.sub_le _ _)

theorem State.rd_floorClocks (ho : keyArea o.key ≠ 0x10) : s.floorClocks.rd o = s.rd o :=
  List.foldlRecOn (motive := fun t : State => t.rd o = s.rd o) _ _ rfl fun _ ht _ hd =>
    (State.rd_lowerClock_ne (key_ne_of_area ho (keyArea_tileClockMhz (List.mem_range.mp hd)))).trans ht

/-- At the floor no die has a clock above 600 MHz (R357). -/
theorem State.rd_tileClockMhz_floorClocks (hdie : die < 4) : s.floorClocks.rd (Obj.tileClockMhz die) = min (s.rd (Obj.tileClockMhz die)) 600 := by
  refine State.rd_foldl_range s hdie (fun _ _ hd => State.rd_lowerClock_ne (key_tileClockMhz_ne hd)) fun t ht => ?_
  rw [State.rd_lowerClock_same, State.dieClock_floor, ht]

theorem State.rd_recap_of_ne (hcap : Obj.capInForceW.key ≠ o.key) (hwhy : Obj.capReason.key ≠ o.key) : s.recap.rd o = s.rd o :=
  (State.rd_wr_ne _ _ _ _ hwhy).trans (State.rd_wr_ne _ _ _ _ hcap)

/-- The latch set and counted, with the clocks at the floor (R357, R360). -/
def State.floorSet (s : State) : State := ((s.wr Obj.floorLatched 1).bump Obj.throttleEvents).floorClocks

/-- The floor in force and recorded, before the POWER_REPORT goes out. -/
def State.floorTold (s : State) (c : Nat) : State :=
  (State.recap { s.floorSet with steward := { s.floorSet.steward with floorSetNs := s.floorSet.now } }).event 0x5001 0x00 0 noCtx c 0 0

theorem State.rd_floorTold (h70 : keyArea o.key ≠ 0x70) (hcap : Obj.capInForceW.key ≠ o.key) (hwhy : Obj.capReason.key ≠ o.key) :
    (s.floorTold c).rd o = s.floorSet.rd o :=
  (State.rd_event_of_area _ _ _ _ _ _ _ h70).trans (State.rd_recap_of_ne hcap hwhy)

/-- An agent that is STARTING sends no POWER_REPORT (R370) and is no Wellhead. -/
theorem State.setFloor_of_starting (hagent : s.rd Obj.agentState = agStarting) : s.setFloor c = s.floorTold c := by
  have hstarting : (s.floorTold c).rd Obj.agentState = agStarting := by
    rw [State.rd_floorTold (by decide) (by decide) (by decide), State.floorSet, State.rd_floorClocks (by decide), State.rd_bump, if_neg (by decide),
      State.rd_wr_ne _ _ _ _ (by decide), hagent]
  have hsent : (s.floorTold c).sendPower = s.floorTold c := if_pos hstarting
  change (if (s.floorTold c).sendPower.isWh then (s.floorTold c).sendPower.beginAlert else (s.floorTold c).sendPower) = s.floorTold c
  rw [hsent, if_neg (by rw [State.isWh, hstarting]; decide)]

theorem State.rd_floorTold_latch : (s.floorTold c).rd Obj.floorLatched = 1 := by
  rw [State.rd_floorTold (by decide) (by decide) (by decide), State.floorSet, State.rd_floorClocks (by decide), State.rd_bump, if_neg (by decide), State.rd_wr_same]

theorem State.rd_floorTold_count : (s.floorTold c).rd Obj.throttleEvents = (s.rd Obj.throttleEvents + 1) % 2 ^ 64 := by
  rw [State.rd_floorTold (by decide) (by decide) (by decide), State.floorSet, State.rd_floorClocks (by decide), State.rd_bump, if_pos rfl, State.rd_wr_ne _ _ _ _ (by decide)]

theorem State.rd_floorTold_clock (hdie : die < 4) : (s.floorTold c).rd (Obj.tileClockMhz die) ≤ 600 := by
  have harea := keyArea_tileClockMhz hdie
  have h50 : keyArea (Obj.tileClockMhz die).key ≠ 0x50 := by rw [harea]; decide
  rw [State.rd_floorTold (by rw [harea]; decide) (key_ne_of_area h50 (by decide)) (key_ne_of_area h50 (by decide)), State.floorSet, State.rd_tileClockMhz_floorClocks hdie]
  exact min_le_right _ _

end Floor

/-! ## The pins of the floor (R360, R361) -/

theorem exec_throttleAssert_falls (h : s.boot.throttleN = true) :
    exec .throttleAssert s = .next (State.setFloor { s with boot := { s.boot with throttleN := false } } 1) :=
  congrArg Host.Outcome.next (if_pos h)

theorem idles_throttleAssert (h : s.boot.throttleN = false) : Idles .throttleAssert s := congrArg Host.Outcome.next (if_neg (by simp [h]))

theorem exec_floorLatchTimeout_clears (hpin : s.boot.throttleN = true) (hnone : s.rd Obj.agentWellhead = 0xFF) :
    exec .floorLatchTimeout s = .next (s.wr Obj.floorLatched 0).recap :=
  congrArg Host.Outcome.next (if_pos ⟨hpin, .inl hnone⟩)

theorem idles_floorLatchTimeout (h : s.boot.throttleN = false) : Idles .floorLatchTimeout s := congrArg Host.Outcome.next (if_neg (by simp [h]))

theorem exec_pfailAssert_falls (h : s.boot.pfailN = true) :
    exec .pfailAssert s = .next (((State.setFloor (State.bump { s with
      boot := { s.boot with pfailN := false }, steward := { s.steward with pfailPend := true } } Obj.pfailEvents) 2).sendReport true).startFlush 1) :=
  congrArg Host.Outcome.next (if_pos h)

end Sys2Proof.Machine
end

section
/-! Readings of rails and sensors, regulator faults, trips and the tray's lines (R334, R354, R359, R362, R363, R499, R510). -/

namespace Sys2Proof.Machine

open Sys2Proof

variable {s : State}

/-! ## Regulator faults and rails that read well (R363) -/

section Rails

variable {rail st : Nat} {r : RailRead}

/-- A fault of a rail that is known to be bad is a further order to park; in a step of STARTING it would end the step. -/
theorem State.regFault_known (hknown : s.steward.railBad.contains rail = true) (hstep : s.rd Obj.pkgPowerState = pwrStarting → s.boot.step = 0x30) :
    s.regFault rail st = s.park pkRail := by
  have hno : ¬(s.rd Obj.pkgPowerState = pwrStarting ∧ s.boot.step ≠ 0x30) := fun h => h.2 (hstep h.1)
  simp only [State.regFault, hknown, if_true]
  exact congrArg (State.park · pkRail) (if_neg hno)

/-- A new fault is recorded, and its rail is known to be bad from then on. -/
theorem State.regFault_new (hnew : s.steward.railBad.contains rail = false) (hstate : s.rd Obj.pkgPowerState ≠ pwrStarting) :
    s.regFault rail st =
      State.park { s.event 0x5003 0x0F rail noCtx st 0 0 with steward := { s.steward with railBad := s.steward.railBad ++ [rail] } } pkRail := by
  have hno : (s.event 0x5003 0x0F rail noCtx st 0 0).rd Obj.pkgPowerState ≠ pwrStarting := by
    rw [State.rd_event_of_area _ _ _ _ _ _ _ (by decide)]
    exact hstate
  simp only [State.regFault, hnew, Bool.false_eq_true, if_false, State.event_steward]
  exact congrArg (State.park · pkRail) (if_neg fun h => hno h.1)

theorem exec_regulatorFault (hrail : rail < 16) : exec (.regulatorFault rail st) s = .next (s.regFault rail st) := congrArg Host.Outcome.next (if_pos hrail)

theorem railFault_good (up : Bool) (hans : r.answered = true) (htol : r.inTol = true) (hst : r.status = 0) : railFault up r = false := by
  simp [railFault, hans, htol, hst]

/-- A rail that answers in tolerance with a clean status has its telemetry kept, and is not bad any more (R363, R380). -/
theorem State.takeRail_good (hrail : r.rail < 16) (hans : r.answered = true) (htol : r.inTol = true) (hst : r.status = 0) :
    (s.takeRail r).rdo (Obj.railTelemetry r.rail) = railBytes r ∧ r.rail ∉ (s.takeRail r).steward.railBad := by
  rw [State.takeRail, if_neg (by omega)]
  simp only [hans, if_true, railFault_good _ hans htol hst, Bool.false_eq_true, if_false]
  exact ⟨State.rdo_wro_same _ _ _, by simp⟩

end Rails

/-! ## The polls (R354, R359, R362) -/

/-- A die's hot hours are counted beside the rest of what the steward keeps (R487). -/
theorem State.steward_countHot (die : Nat) : ∃ h, (s.countHot die).steward = { s.steward with hotMs := h } := by
  unfold State.countHot
  split
  · exact ⟨_, rfl⟩
  · extract_lets n o
    split_ifs <;> exact ⟨_, rfl⟩

theorem State.steward_foldl_countHot (l : List Nat) : ∃ h, (l.foldl (fun s d => s.countHot d) s).steward = { s.steward with hotMs := h } := by
  refine List.foldlRecOn (motive := fun t : State => ∃ h, t.steward = { s.steward with hotMs := h }) _ _ ⟨_, rfl⟩ fun t ⟨h, ht⟩ d _ => ?_
  obtain ⟨h', hd⟩ := t.steward_countHot d
  exact ⟨h', by rw [hd, ht]⟩

/-- The sums of the present 100 ms stand apart from the objects and the steward (R399). -/
theorem State.sumUp_frame (watts : Nat) : (s.sumUp watts).reg = s.reg ∧ (s.sumUp watts).steward = s.steward :=
  List.foldlRecOn (motive := fun t : State => t.reg = s.reg ∧ t.steward = s.steward) _ _ ⟨rfl, rfl⟩ fun _ ht _ _ => ht

/-- Mean power of the millisecond that ends (R354). -/
def State.meanMw (s : State) : Nat := if s.steward.pwrN = 0 then s.powerMw else s.steward.pwrSum / s.steward.pwrN

/-- The cap followed rises by its rate (R353), not while the floor latch is set (R360). -/
def State.nextRamp (s : State) : Nat := min s.effCap (if s.rd Obj.floorLatched = 1 then s.steward.ramp else s.steward.ramp + s.rd Obj.riseRateWPerMs)

/-- The steward at the end of a millisecond: its mean kept, its sums begun anew, the cap followed one step on. -/
def State.msEnded (s : State) : State :=
  let amps := (List.range 4).map fun d => leAt (s.rdo (Obj.railTelemetry d)) 2 2
  { s with steward := { s.steward with
      pwrSum := 0, pwrN := 0, msMw := (s.meanMw :: s.steward.msMw).take 100, msAmp := (amps :: s.steward.msAmp).take 100, ramp := s.nextRamp } }

/-- The state that a poll without readings leaves. -/
def State.msPolled (s : State) : State :=
  let w := s.meanMw / 1000
  ((((List.range 6).foldl (fun s d => s.countHot d) s.msEnded).wr Obj.pkgPowerW w).bumpBy Obj.pkgEnergyMj w).sumUp w

theorem exec_pmbusPoll_nil : exec (.pmbusPoll []) s = .next s.msPolled := rfl

theorem State.rd_pkgPowerW_msPolled : s.msPolled.rd Obj.pkgPowerW = s.meanMw / 1000 := by
  rw [State.msPolled, State.rd_of_reg (State.sumUp_frame _).1, State.bumpBy, State.rd_wr_ne _ _ _ _ (by decide), State.rd_wr_same]

theorem State.steward_msPolled : s.msPolled.steward.ramp = s.nextRamp ∧ s.msPolled.steward.pwrN = 0 := by
  obtain ⟨h, hsteward⟩ := s.msEnded.steward_foldl_countHot (List.range 6)
  rw [State.msPolled, (State.sumUp_frame _).2, State.bumpBy_steward, State.wr_steward, hsteward]
  exact ⟨rfl, rfl⟩

/-! ## Trips (R359) -/

section Trips

variable {die v : Nat}

/-- A trip with its record and its reading, before the die is acted upon. -/
def State.tripRead (s : State) (die v : Nat) : State :=
  { s.event 0x5002 0x10 die noCtx v 0 0 with steward := { s.steward with temps := mput s.steward.temps die ((v / 100 : Nat) : Int) } }

theorem State.tripRead_eq : { s.event 0x5002 0x10 die noCtx v 0 0 with steward := { (s.event 0x5002 0x10 die noCtx v 0 0).steward with
    temps := mput (s.event 0x5002 0x10 die noCtx v 0 0).steward.temps die ((v / 100 : Nat) : Int) } } = s.tripRead die v := by
  rw [State.event_steward]
  rfl

/-- A reading at the maximum of a die, 15 °C above its control point, trips it. -/
theorem exec_thermalTrip (hdie : die < 43) (h : 100 * (controlPoint die + 15).toNat ≤ v) : exec (.thermalTrip die v) s = .next (s.trip die v) :=
  congrArg Host.Outcome.next (if_pos ⟨h, hdie⟩)

theorem idles_thermalTrip (h : 43 ≤ die) : Idles (.thermalTrip die v) s := congrArg Host.Outcome.next (if_neg fun hd => absurd hd.2 (by omega))

/-- A trip of MD or of FL is recorded alone. -/
theorem State.trip_recorded (h : die = 5 ∨ die = 42) : s.trip die v = s.tripRead die v := by
  rw [State.trip, if_neg (by omega), if_pos h, State.tripRead_eq]

/-- A trip of a DRAM die is an order for FABRIC. -/
theorem State.trip_fabric (hlow : 10 ≤ die) (hhigh : die < 42) :
    s.trip die v = State.applyOrders { s.tripRead die v with steward := { (s.tripRead die v).steward with thermalFabric := true } } := by
  rw [State.trip, if_neg (by omega), if_neg (by omega), if_pos hlow, State.tripRead_eq]

/-- A trip of an optical engine parks the package. -/
theorem State.trip_parks (hlow : 6 ≤ die) (hhigh : die ≤ 9) : s.trip die v = (s.tripRead die v).park pkTrip := by
  rw [State.trip, if_neg (by omega), if_neg (by omega), if_neg (by omega), State.tripRead_eq]

theorem controlPoint_optical (hlow : 6 ≤ die) (hhigh : die ≤ 9) : controlPoint die = 75 := by
  rw [controlPoint, if_neg (by omega), if_neg (by omega), if_pos ⟨hlow, hhigh⟩]

theorem controlPoint_dram (hlow : 10 ≤ die) (hhigh : die < 42) : controlPoint die = 95 := by
  rw [controlPoint, if_neg (by omega), if_neg (by omega), if_neg (by omega)]

end Trips

/-! ## The tray's lines (R334, R499, R510) -/

theorem exec_trayPresDeassert_falls (h : s.boot.trayPresN = false) :
    exec .trayPresDeassert s = .next ((State.sendReport (State.event { s with boot := { s.boot with trayPresN := true } }
      0x5005 0x14 (State.trayOf s.pos) noCtx 0 0 0) true).startFlush 2) :=
  congrArg Host.Outcome.next (if_neg (by simp [h]))

/-- While the line is low the status of every rail is asked for, and nothing else changes. -/
theorem exec_pmbusAlert_low : ∃ t, exec (.pmbusAlert true) s = .next t ∧ t.boot = { s.boot with pmbusAlertN := false } ∧ t.mem = s.mem ∧ t.reg = s.reg :=
  ⟨_, rfl, List.foldlRecOn (motive := fun t : State => t.boot = { s.boot with pmbusAlertN := false } ∧ t.mem = s.mem ∧ t.reg = s.reg) _ _ ⟨rfl, rfl, rfl⟩
    fun _ ht _ _ => ht⟩

end Sys2Proof.Machine
end

section
/-! O45: the power states of the package, its caps and its rails. -/

namespace Sys2Proof.Machine

open Sys2Proof

/-- Settles O45: an order by the cap and the power state it meets, a pin by its level, a reading by what the steward keeps of it. -/
theorem packagePower : Obligations.PackagePower := by
  unfold Obligations.PackagePower
  refine ⟨?request, ?requestRange, ?cap, ?release, ?releaseEarly, ?wet, ?hub, ?releaseElsewhere, ?throttle, ?throttleLow, ?floor, ?throttleHigh, ?latchClears, ?latchStays,
    ?pfail, ?pfailHigh, ?pfailClears, ?trayPres, ?alertLow, ?alertHigh, ?faultKnown, ?faultNew, ?stops, ?stopWaits, ?stopElsewhere, ?parks, ?fabricStarts, ?fabricWaits,
    ?poll, ?control, ?want, ?top, ?rail, ?millisecond, ?vtileMoves, ?vtileHot, ?vtileNone, ?step, ?clock, ?tripMd, ?tripOptical, ?tripFl, ?tripNone, ?tripDram⟩
  case request => exact fun s w v hw hv => accepted_hostPowerRequest hw hv
  case requestRange => exact fun s w v hw hne hv => denied_hostPowerRequest hw hne hv
  case cap => exact fun s => State.effCap_least
  case release => exact fun s w hw hparked hcleared => ⟨_, accepted_parkRelease hw hparked hcleared, State.parkReleased_recap⟩
  case releaseEarly => exact fun s w v hw h => denied_parkRelease hw (.inr h)
  case wet => exact fun s h => State.parkCleared_wet h
  case hub => exact fun s hwhy h => State.parkCleared_of_cause hwhy (State.causeOver_hub h)
  case releaseElsewhere => exact fun s w v hw h => denied_parkRelease hw (.inl h)
  case throttle => exact fun s h => exec_throttleAssert_falls h
  case throttleLow => exact fun s h => idles_throttleAssert h
  case floor =>
    intro s c _ hagent
    rw [State.setFloor_of_starting hagent]
    exact ⟨State.rd_floorTold_latch, State.rd_floorTold_count, fun d hd => State.rd_floorTold_clock hd⟩
  case throttleHigh => exact fun s => rfl
  case latchClears => exact fun s hpin hnone => exec_floorLatchTimeout_clears hpin hnone
  case latchStays => exact fun s h => idles_floorLatchTimeout h
  case pfail => exact fun s h => exec_pfailAssert_falls h
  case pfailHigh => exact fun s => rfl
  case pfailClears => exact fun s hpend hpin hrails => exec_pfailClearTimer_stops hpend hpin hrails
  case trayPres => exact fun s h => exec_trayPresDeassert_falls h
  case alertLow => exact fun s => exec_pmbusAlert_low
  case alertHigh => exact fun s => rfl
  case faultKnown => exact fun s rail st hrail hknown hstep => by rw [exec_regulatorFault hrail, State.regFault_known hknown hstep]
  case faultNew => exact fun s rail st hrail hnew hstate => by rw [exec_regulatorFault hrail, State.regFault_new hnew hstate]
  case stops => exact fun s h hsubst => exec_stopComplete_stopping h hsubst
  case stopWaits => exact fun s hsubst h => idles_stopComplete (fun _ => hsubst) fun hfabric => absurd (h.symm.trans hfabric) (by decide)
  case stopElsewhere => exact fun s h hfabric => idles_stopComplete (fun hstop => absurd hstop h) hfabric
  case parks => exact fun s h hpark => exec_stopComplete_fabric h hpark
  case fabricStarts => exact fun s r hoff hpark hstep href => exec_fabricStartTimer_starts hoff hpark hstep href
  case fabricWaits => exact fun s r hoff hpark hstep href => exec_fabricStartTimer_waits hoff hpark hstep href
  case poll =>
    intro s rails temps v u hv hu
    subst hv hu
    rfl
  case control => exact fun s hon hfloor => State.control_on hon hfloor
  case want => exact fun s => State.wantClock_bounds
  case top => exact fun s => s.topClock_cases.imp_right And.right
  case rail => exact fun s r hrail hans htol hst => State.takeRail_good hrail hans htol hst
  case millisecond => exact fun s => ⟨_, exec_pmbusPoll_nil, State.rd_pkgPowerW_msPolled, State.steward_msPolled⟩
  case vtileMoves =>
    intro s die c v hraise hdie hon hcool hv
    subst hv
    rw [exec_vtileReached_raising hraise]
    exact congrArg Host.Outcome.next (if_pos ⟨hdie, hon, by simp [hcool]⟩)
  case vtileHot =>
    intro s die c hraise hhot
    rw [exec_vtileReached_raising hraise]
    exact congrArg Host.Outcome.next (if_neg (by simp [hhot]))
  case vtileNone => exact fun s die h => idles_vtileReached h
  case step => exact fun s die t hdie htemp hhot hon => exec_thermalStep_hot hdie htemp hhot hon
  case clock => exact fun s die mhz => ⟨rfl, rfl⟩
  case tripMd => exact fun s v h => by rw [exec_thermalTrip (by decide) h, State.trip_recorded (.inl rfl), State.tripRead]
  case tripOptical =>
    intro s die v hlow hhigh h
    rw [exec_thermalTrip (by omega) (by rw [controlPoint_optical hlow hhigh]; exact h), State.trip_parks hlow hhigh, State.tripRead]
  case tripFl => exact fun s v h => by rw [exec_thermalTrip (by decide) h, State.trip_recorded (.inr rfl), State.tripRead]
  case tripNone => exact fun s die v h => idles_thermalTrip h
  case tripDram =>
    intro s die v hlow hhigh h
    rw [exec_thermalTrip (by omega) (by rw [controlPoint_dram hlow hhigh]; exact h), State.trip_fabric hlow hhigh, State.tripRead]

end Sys2Proof.Machine
end

section
/-! COMMIT and DISCARD of protection state (R389, R395 to R399). -/

namespace Sys2Proof.Machine

open Sys2Proof

section Reads

variable {s : State} {c k n : Nat}

/-- What a loop over a range leaves of a reading that its turn `k` alone changes. -/
theorem foldl_range_of_turn {α β : Type} {f : α → Nat → α} {g : α → β} {a : α} {v : β} (hk : k < n) (hother : ∀ t j, j ≠ k → g (f t j) = g t)
    (hself : ∀ t, g t = g a → g (f t k) = v) : g ((List.range n).foldl f a) = v := by
  induction n with
  | zero => omega
  | succ n ih =>
    rw [List.range_succ, List.foldl_append, List.foldl_cons, List.foldl_nil]
    by_cases hn : n = k
    · subst hn
      refine hself _ (List.foldlRecOn (motive := fun t => g t = g a) _ _ rfl fun t ht j hj => ?_)
      rw [List.mem_range] at hj
      rw [hother t j (by omega), ht]
    · rw [hother _ n hn, ih (by omega)]

theorem mapIdx_pair (l : List Bytes) : (l.mapIdx fun i e => (i, e)) = (List.range l.length).map fun i => (i, l.getD i []) := by
  refine List.ext_getElem (by simp) fun i h1 h2 => ?_
  have hi : i < l.length := by simpa using h1
  simp [hi]

theorem key_window_ne {i j : Nat} (h : i ≠ j) : (Obj.window c i).key ≠ (Obj.window c j).key := by
  simp only [Obj.window, objKey]
  omega

theorem key_windowStaged_ne {i j : Nat} (h : i ≠ j) : (Obj.windowStaged c i).key ≠ (Obj.windowStaged c j).key := by
  simp only [Obj.windowStaged, objKey]
  omega

theorem key_windowStaged_ne_window (i j : Nat) : (Obj.windowStaged c i).key ≠ (Obj.window c j).key := by
  simp only [Obj.windowStaged, Obj.window, objKey]
  omega

theorem key_window_ne_tileSet (hc : c < 64) (i : Nat) : (Obj.window c i).key ≠ (Obj.tileSet c).key := by
  simp only [Obj.window, Obj.tileSet, objKey]
  omega

end Reads

/-! ## A commit takes effect (R395, R399) -/

/-- The new tile set and windows of a commit written in place of the committed ones. -/
def State.putProt (s : State) (p : ProtRun) : State :=
  (p.newWins.mapIdx fun i e => (i, e)).foldl (fun s e => s.wro (Obj.window p.ctx e.1) e.2) (s.wro (Obj.tileSet p.ctx) p.newTiles)

section Commit

variable {s : State} {p : ProtRun} {w : Who} {c k : Nat}

theorem State.putProt_frame : ∃ o, s.putProt p = { s with oct := o } :=
  List.foldlRecOn (motive := fun t : State => ∃ o, t = { s with oct := o }) _ _ ⟨_, rfl⟩ fun _ ⟨_, ht⟩ _ _ => ht ▸ ⟨_, rfl⟩

theorem State.rdo_tileSet_putProt (hc : p.ctx < 64) : (s.putProt p).rdo (Obj.tileSet p.ctx) = p.newTiles :=
  List.foldlRecOn (motive := fun t : State => t.rdo (Obj.tileSet p.ctx) = p.newTiles) _ _ (s.rdo_wro_same _ _) fun t ht e _ =>
    (t.rdo_wro_ne _ _ _ (key_window_ne_tileSet hc e.1)).trans ht

theorem State.rdo_window_putProt (hk : k < p.newWins.length) : (s.putProt p).rdo (Obj.window p.ctx k) = p.newWins.getD k [] := by
  rw [State.putProt, mapIdx_pair, List.foldl_map]
  exact foldl_range_of_turn (g := fun t : State => t.rdo (Obj.window p.ctx k)) hk (fun t j hj => t.rdo_wro_ne _ _ _ (key_window_ne hj)) fun t _ => t.rdo_wro_same _ _

/-- The readings kept from view are the contexts' own record (R399). -/
theorem State.freezeAll_frame (l : List Nat) : ∃ x, l.foldl (fun s n => s.freezeReads c n) s = { s with ctxs := x } :=
  List.foldlRecOn (motive := fun t : State => ∃ x, t = { s with ctxs := x }) _ _ ⟨s.ctxs, rfl⟩ fun _ ⟨_, ht⟩ _ _ => ht ▸ ⟨_, rfl⟩

/-- The new set in force with the next epoch, and the set that it replaced kept for the steps that follow (R395). -/
def State.inForce (s : State) (p : ProtRun) : State :=
  ((s.setProt { p with step := 2, oldTiles := s.rdo (Obj.tileSet p.ctx), oldWins := s.windowsOf p.ctx }).wr (Obj.protEpoch p.ctx)
    ((s.rd (Obj.protEpoch p.ctx) + 1) % 2 ^ 32)).putProt p

theorem State.inForce_frame : (s.inForce p).rd (Obj.protEpoch p.ctx) = (s.rd (Obj.protEpoch p.ctx) + 1) % 2 ^ 32 ∧ (s.inForce p).mem = s.mem := by
  obtain ⟨o, ho⟩ := State.putProt_frame (s := (s.setProt { p with step := 2, oldTiles := s.rdo (Obj.tileSet p.ctx), oldWins := s.windowsOf p.ctx }).wr
    (Obj.protEpoch p.ctx) ((s.rd (Obj.protEpoch p.ctx) + 1) % 2 ^ 32)) (p := p)
  rw [State.inForce, ho]
  exact ⟨State.rd_wr_same _ _ _, rfl⟩

/-- A commit that breaks no rule and waits for nothing puts its set in force; a confidential context's new tiles are kept from view besides (R395, R399). -/
theorem State.protTry_inForce (hrules : p.newWins.any windowBad = false) (hoverlap : s.protOverlap p.ctx p.newTiles p.newWins = false)
    (hexclusive : s.protExclusive p.ctx p.newTiles = false) (hwaits : s.protWaits p.ctx p.newTiles p.newWins = false) :
    ∃ x, s.protTry p = { s.inForce p with ctxs := x } := by
  have htry : s.protTry p = if (s.inForce p).confidential p.ctx
      then ((tilesOf p.newTiles).filter fun n => !tileIn (s.rdo (Obj.tileSet p.ctx)) n).foldl (fun s n => s.freezeReads p.ctx n) (s.inForce p) else s.inForce p := by
    simp only [State.protTry, hrules, hoverlap, hexclusive, hwaits, Bool.false_eq_true, if_false]
    rfl
  rw [htry]
  split
  · exact State.freezeAll_frame _
  · exact ⟨_, rfl⟩

/-! ## The end of a commit (R395) -/

/-- The decrements of a context that are delivered change no memory (R111). -/
theorem State.applyDec_mem (d : TallyDec) : (s.applyDec d).mem = s.mem := by
  unfold State.applyDec
  simp only
  split_ifs
  · simp
  · rfl
  · rfl

theorem State.deliverDecs_mem : (s.deliverDecs c).mem = s.mem :=
  List.foldlRecOn (motive := fun t : State => t.mem = s.mem) _ _ rfl fun t ht d _ => (t.applyDec_mem d).trans ht

/-- A commit that took nothing from the context ends as its old requests drain. -/
theorem exec_protOldRequestsDrained_ends (hp : s.ctxs.prots.find? (fun p => p.ctx == c && p.step == 2) = some p) (hold : tilesOf p.oldTiles = []) (hfills : s.mem.fills = []) :
    exec (.protOldRequestsDrained c) s = .next (((s.deliverDecs c).setProt { p with step := 4 }).protEnd p) := by
  have hmem : ((s.deliverDecs c).setProt { p with step := 4 }).mem.fills = [] := by
    rw [← hfills]
    exact congrArg Mem.fills State.deliverDecs_mem
  show execProtOldRequestsDrained c s = _
  simp only [execProtOldRequestsDrained, hp, hold, List.filter_nil, List.foldl_nil, hmem, List.any_nil, Bool.false_eq_true, if_false]

theorem exec_protFillDone_ends {f : Fill} (hf : s.fillReady (fun f => f.why == .commitSram c) = some f)
    (hlast : (s.fillDone f).mem.fills.any (fun f => f.why == .commitSram c) = false) (hp : s.ctxs.prots.find? (fun p => p.ctx == c && p.step == 4) = some p) :
    exec (.protFillDone c) s = .next ((s.fillDone f).protEnd p) := by
  have hprots : (s.fillDone f).ctxs.prots = s.ctxs.prots := rfl
  show execProtFillDone c s = _
  simp only [execProtFillDone, hf, hlast, Bool.false_eq_true, if_false, hprots, hp]

/-! ## The writes (R395) -/

theorem State.protCommit_open (hc : c < 64) (h0 : c ≠ 0) (hconf : s.confidential c = true → isCus w = true) (hidle : s.rd (Obj.protStatus c) / 256 ≠ 1)
    (hopen : s.ctxSt c = ctxOpen) :
    s.protCommit w c = ((({ s with ctxs := { s.ctxs with prots := s.ctxs.prots ++
      [(⟨c, 1, s.staged c, (List.range 64).map fun w => s.rdo (Obj.windowStaged c w), [], []⟩ : ProtRun)] } }.wr (Obj.protStatus c) 0x0100).protTry
        ⟨c, 1, s.staged c, (List.range 64).map fun w => s.rdo (Obj.windowStaged c w), [], []⟩), rOk) := by
  have hmay : ¬(s.confidential c = true ∧ (!isCus w) = true) := fun ⟨h, hn⟩ => by simp [hconf h] at hn
  simp only [State.protCommit, ge_iff_le, if_neg (Nat.not_le.mpr hc), if_neg h0, if_neg hmay, if_neg hidle, if_neg (not_not.mpr hopen)]

theorem State.protCommit_notOpen (hc : c < 64) (h0 : c ≠ 0) (hconf : s.confidential c = true → isCus w = true) (hidle : s.rd (Obj.protStatus c) / 256 ≠ 1)
    (hopen : s.ctxSt c ≠ ctxOpen) : s.protCommit w c = (s.wr (Obj.protStatus c) 0x0204, rRefused) := by
  have hmay : ¬(s.confidential c = true ∧ (!isCus w) = true) := fun ⟨h, hn⟩ => by simp [hconf h] at hn
  simp only [State.protCommit, ge_iff_le, if_neg (Nat.not_le.mpr hc), if_neg h0, if_neg hmay, if_neg hidle, if_pos hopen]
  rfl

/-- The staged copy made the committed one. -/
def State.unstage (s : State) (c : Nat) : State :=
  (List.range 64).foldl (fun s w => s.wro (Obj.windowStaged c w) (s.rdo (Obj.window c w)))
    { s with ctxs := { s.ctxs with stagedTiles := mput s.ctxs.stagedTiles c (s.rdo (Obj.tileSet c)) } }

theorem State.protDiscard_open (hc : c < 64) (h0 : c ≠ 0) (hconf : s.confidential c = true → isCus w = true) (hidle : s.rd (Obj.protStatus c) / 256 ≠ 1)
    (hopen : s.ctxSt c = ctxOpen) : s.protDiscard w c = (s.unstage c, rOk) := by
  refine (if_neg (Nat.not_le.mpr hc)).trans (if_neg ?_)
  rintro (h | ⟨hc, hn⟩ | h | h)
  · exact h0 h
  · simp [hconf hc] at hn
  · exact h hopen
  · exact hidle h

theorem State.unstage_frame : ∃ o, s.unstage c = { s with
    ctxs := { s.ctxs with stagedTiles := mput s.ctxs.stagedTiles c (s.rdo (Obj.tileSet c)) }, oct := o } :=
  List.foldlRecOn (motive := fun t : State => ∃ o, t = { s with
    ctxs := { s.ctxs with stagedTiles := mput s.ctxs.stagedTiles c (s.rdo (Obj.tileSet c)) }, oct := o }) _ _ ⟨_, rfl⟩ fun _ ⟨_, ht⟩ _ _ => ht ▸ ⟨_, rfl⟩

/-- Every staged window reads as the committed one, which stays. -/
theorem State.rdo_windowStaged_unstage (hk : k < 64) : (s.unstage c).rdo (Obj.windowStaged c k) = s.rdo (Obj.window c k) := by
  have hboth := foldl_range_of_turn (f := fun (s : State) w => s.wro (Obj.windowStaged c w) (s.rdo (Obj.window c w)))
    (g := fun t : State => (t.rdo (Obj.windowStaged c k), t.rdo (Obj.window c k))) (v := (s.rdo (Obj.window c k), s.rdo (Obj.window c k)))
    (a := { s with ctxs := { s.ctxs with stagedTiles := mput s.ctxs.stagedTiles c (s.rdo (Obj.tileSet c)) } }) hk
    (fun t j hj => by simp only [State.rdo_wro_ne _ _ _ _ (key_windowStaged_ne hj), State.rdo_wro_ne _ _ _ _ (key_windowStaged_ne_window j k)])
    (fun t ht => by
      have hwin : t.rdo (Obj.window c k) = s.rdo (Obj.window c k) := congrArg Prod.snd ht
      simp only [State.rdo_wro_same, State.rdo_wro_ne _ _ _ _ (key_windowStaged_ne_window k k), hwin])
  simpa only [State.unstage] using congrArg Prod.fst hboth

end Commit

/-- Settles O27: a write by the context's state, a commit by what its checks say of the staged set, an end by what is left to fill. -/
theorem protectionCommit : Obligations.ProtectionCommit := by
  unfold Obligations.ProtectionCommit
  refine ⟨?commit, ?notOpen, ?inForce, ?drained, ?filled, ?discard⟩
  case commit => exact fun s w c hw hc h0 hconf hopen hidle => accepted_of_ctl rfl hw (State.protCommit_open hc h0 hconf hidle hopen)
  case notOpen =>
    exact fun s w c hw hc h0 hconf hopen hidle hadm => congrArg Host.Outcome.next (State.ctl_answered hadm hw (State.protCommit_notOpen hc h0 hconf hidle hopen) (by decide))
  case inForce =>
    intro s p h0 hc hrules hoverlap hexclusive hwaits hlen
    obtain ⟨x, htry⟩ := State.protTry_inForce hrules hoverlap hexclusive hwaits
    obtain ⟨hepoch, hmem⟩ := State.inForce_frame (s := s) (p := p)
    rw [htry]
    exact ⟨hepoch, State.rdo_tileSet_putProt hc, fun k hk => State.rdo_window_putProt (hlen ▸ hk), hmem⟩
  case drained => exact fun s c p hp hold hfills => exec_protOldRequestsDrained_ends hp hold hfills
  case filled => exact fun s c f p hf hlast hp => exec_protFillDone_ends hf hlast hp
  case discard =>
    intro s w c hw hc h0 hconf hopen hidle
    obtain ⟨o, hframe⟩ := State.unstage_frame (s := s) (c := c)
    refine ⟨s.unstage c, accepted_of_ctl rfl hw (State.protDiscard_open hc h0 hconf hidle hopen), ?_, fun k hk => State.rdo_windowStaged_unstage hk, ?_, ?_⟩
    · rw [hframe]
      simp [State.staged, mgetD]
    · rw [hframe]
    · rw [hframe]

end Sys2Proof.Machine
end

section
/-! SPDM in a session (R407, R410, R429, R444). -/

namespace Sys2Proof.Machine

open Sys2Proof

section Messages

variable {s u t : State} {sid code : Nat} {x : Session} {m r : Bytes} {c : Instr} {k : State → Session → Bytes → State × Bytes}

/-- A waiting request of its code and version is answered as its row says. -/
theorem Speaks.next (h : Speaks s sid code x m u) (hc : exec c s = .next (s.spdmDo sid code k)) (hk : k u x m = (t, r)) :
    exec c s = .next (t.frameOut sid (.spdm r)) := by
  obtain ⟨y, hy, hm, hcode, hversion, rfl, rfl⟩ := h
  simp only [hc, State.spdmDo, hy, hm, hcode, hversion, ne_eq, not_true_eq_false, if_false, hk]

/-- What waits in a session has no part in the package's certificates, measurements and keys. -/
theorem Speaks.spdmChain_eq (h : Speaks s sid code x m u) : u.spdmChain = s.spdmChain := by
  obtain ⟨y, -, -, -, -, -, rfl⟩ := h
  rfl

theorem Speaks.spdmBlocks_eq (h : Speaks s sid code x m u) : u.spdmBlocks = s.spdmBlocks := by
  obtain ⟨y, -, -, -, -, -, rfl⟩ := h
  rfl

theorem Speaks.spdmSign_eq (h : Speaks s sid code x m u) (ctx transcript : Bytes) : u.spdmSign ctx transcript = s.spdmSign ctx transcript := by
  obtain ⟨y, -, -, -, -, -, rfl⟩ := h
  rfl

theorem Speaks.rd_eq (h : Speaks s sid code x m u) (o : Obj) : u.rd o = s.rd o := by
  obtain ⟨y, -, -, -, -, -, rfl⟩ := h
  rfl

/-- A request of another version than its row's is answered with VersionMismatch (R429). -/
theorem State.spdmDo_version {y : Session} (hy : s.session? sid = some y) (hm : y.spdm = some m) (hcode : byteAt m 1 = code)
    (hversion : byteAt m 0 ≠ (if code = 0x84 then 0x10 else 0x13)) :
    s.spdmDo sid code k = (s.setSession { y with spdm := none }).frameOut sid (.spdm [0x13, 0x7F, 0x41, 0]) := by
  simp only [State.spdmDo, hy, hm, hcode, ne_eq, not_true_eq_false, if_false, hversion, not_false_eq_true, if_true]

theorem exec_spdmUnsupported_unknown (hx : s.session? sid = some x) (hm : x.spdm = some m) (hcode : spdmKnown (byteAt m 1) = false) :
    exec (.spdmUnsupported sid) s = .next ((s.setSession { x with spdm := none }).frameOut sid (.spdm [0x13, 0x7F, 0x07, BitVec.ofNat 8 (byteAt m 1)])) := by
  show execSpdmUnsupported sid s = _
  simp only [execSpdmUnsupported, hx, hm, hcode, Bool.false_eq_true, if_false]

/-! ## A message arrives (R444) -/

variable {f : NxFrame}

theorem exec_spdm_waits (hf : s.frameIn f ntSpdm m = (u, some x)) (hst : x.st = SessState.opened) (hrole : x.role ≠ roleSteward) (hfree : x.spdm = none) :
    exec (.spdm f m) s = .next (u.setSession { x with spdm := some m }) := by
  show execSpdm f m s = _
  simp [execSpdm, hf, hst, hrole, hfree]

theorem exec_spdm_discards (hf : s.frameIn f ntSpdm m = (u, some x)) (hst : x.st = SessState.opened) (hrole : x.role ≠ roleSteward) (hbusy : x.spdm.isSome = true) :
    exec (.spdm f m) s = .next u := by
  show execSpdm f m s = _
  simp [execSpdm, hf, hst, hrole, hbusy]

/-! ## Certificates, the challenge and the measurements (R407, R410, R429) -/

theorem exec_getDigests (h : Speaks s sid 0x81 x m u) (hr : r = [0x13, 0x01, 1, 1] ++ fit 32 (sha256 s.spdmChain)) :
    exec (.getDigests sid) s = .next ((u.setSession { x with spdmCert := x.spdmCert ++ m ++ r }).frameOut sid (.spdm r)) := by
  refine h.next rfl ?_
  simp only [h.spdmChain_eq, hr]

theorem exec_getCertificate_portion {p : Bytes} (h : Speaks s sid 0x82 x m u) (hslot : byteAt m 2 = 0) (hoff : leAt m 4 2 < s.spdmChain.length)
    (hp : p = (s.spdmChain.drop (leAt m 4 2)).take (min (leAt m 6 2) 1184))
    (hr : r = bytesOf [[0x13, 0x02, 0, 0], leBytes 2 p.length, leBytes 2 (s.spdmChain.length - leAt m 4 2 - p.length), p]) :
    exec (.getCertificate sid) s = .next ((u.setSession { x with spdmCert := x.spdmCert ++ m ++ r }).frameOut sid (.spdm r)) := by
  refine h.next rfl ?_
  simp only [h.spdmChain_eq, hslot, ne_eq, not_true_eq_false, false_or, if_neg (Nat.not_le.mpr hoff), hp, hr]

theorem exec_getCertificate_otherSlot (h : Speaks s sid 0x82 x m u) (hslot : byteAt m 2 ≠ 0) :
    exec (.getCertificate sid) s = .next (u.frameOut sid (.spdm (spdmErr seInvalid))) :=
  h.next rfl (if_pos (.inl hslot))

/-- A challenge without a measurement summary is answered with a nonce and signed with what the session has seen (R429). -/
theorem exec_challenge_answers {n : Bytes × State} (h : Speaks s sid 0x83 x m u) (hslot : byteAt m 2 = 0) (htype : byteAt m 3 = 0) (hlen : 44 ≤ m.length)
    (hrng : s.rd Obj.rngHealth = 0) (hn : u.random 32 = n)
    (hr : r = bytesOf [[0x13, 0x03, 0, 1], fit 32 (sha256 s.spdmChain), fit 32 n.1, [], [0, 0], slice m 36 8]) :
    exec (.challenge sid) s = .next ((n.2.setSession { x with spdmCert := [] }).frameOut sid
      (.spdm (r ++ s.spdmSign txtChallenge (x.spdmVca ++ x.spdmCert ++ m ++ r)))) := by
  refine h.next rfl ?_
  simp only [hslot, htype, ne_eq, not_true_eq_false, false_and, false_or, or_false, if_neg (Nat.not_lt.mpr hlen), h.rd_eq, hrng, if_false, if_true, hn, h.spdmChain_eq,
    h.spdmSign_eq, hr]

/-- The number of measurements, unsigned, with a nonce (R429). -/
theorem exec_getMeasurements_count {n : Bytes × State} (h : Speaks s sid 0xE0 x m u) (hunsigned : bit (byteAt m 2) 0 = false) (hop : byteAt m 3 = 0)
    (hrng : s.rd Obj.rngHealth = 0) (hn : u.random 32 = n)
    (hr : r = bytesOf [[0x13, 0x60], leBytes 1 s.spdmBlocks.length, [0], leBytes 1 0, leBytes 3 0, [], fit 32 n.1, [0, 0], slice m 4 8]) :
    exec (.getMeasurements sid) s = .next ((n.2.setSession { x with spdmMeas := x.spdmMeas ++ m ++ r }).frameOut sid (.spdm r)) := by
  refine h.next rfl ?_
  simp only [hunsigned, hop, ne_eq, not_true_eq_false, false_and, false_or, if_false, if_true, Bool.false_eq_true, h.rd_eq, hrng, hn, h.spdmBlocks_eq, hr]
  rfl

end Messages

/-- Settles O48: an arrival by whether a message waits, a request by its code, its version and its fields. -/
theorem spdmMessages : Obligations.SpdmMessages := by
  unfold Obligations.SpdmMessages
  refine ⟨?waits, ?discards, ?version, ?capabilities, ?algorithms, ?digests, ?certificate, ?otherSlot, ?challenge, ?measurements, ?unsupported, ?otherVersion⟩
  case waits => exact fun s f m u x hf hst hrole hfree => exec_spdm_waits hf hst hrole hfree
  case discards => exact fun s f m u x hf hst hrole hbusy => exec_spdm_discards hf hst hrole hbusy
  case version => exact fun s sid x m u h => h.next rfl rfl
  case capabilities => exact fun s sid x m u r h hr => h.next rfl (by rw [hr])
  case algorithms => exact fun s sid x m u r h hr => h.next rfl (by rw [hr])
  case digests => exact fun s sid x m u r h hr => exec_getDigests h hr
  case certificate => exact fun s sid x m u p r h hslot hoff hp hr => exec_getCertificate_portion h hslot hoff hp hr
  case otherSlot => exact fun s sid x m u h hslot => exec_getCertificate_otherSlot h hslot
  case challenge => exact fun s sid x m u n r h hslot htype hlen hrng hn hr => ⟨_, exec_challenge_answers h hslot htype hlen hrng hn hr, rfl⟩
  case measurements => exact fun s sid x m u n r h hunsigned hop hrng hn hr => exec_getMeasurements_count h hunsigned hop hrng hn hr
  case unsupported => exact fun s sid x m hx hm hcode => exec_spdmUnsupported_unknown hx hm hcode
  case otherVersion => exact fun s sid x m hx hm hcode hversion => congrArg Host.Outcome.next (State.spdmDo_version hx hm hcode hversion)

end Sys2Proof.Machine
end

section
/-! Frames of sessions, requests that are turned away, and the end of a session (R433, R434, R438 to R441). -/

namespace Sys2Proof.Machine

open Sys2Proof

section Frames

variable {s t u : State} {f : NxFrame} {typ id : Nat} {b : Bytes} {x : Session} {q : NxReq} {w : Who} {r : NxResp}

/-! ## Frames (R433, R434) -/

/-- A frame that passes the header's checks and a session's key is taken, where its number is one that the replay window takes. -/
theorem State.frameIn_keyed (hport : f.dport = udpNxf) (hlegal : f.legal b.length = true) (htyp : f.typ = typ) (hx : s.sessFor f = some x) (hcarries : s.carries x = true)
    (htag : f.tagOk x.rxKey b = true) : s.frameIn f typ b =
      if x.win.accepts f.seq then (s.setSession { x with win := x.win.take f.seq, addr := f.addr, udp := f.sport },
        some { x with win := x.win.take f.seq, addr := f.addr, udp := f.sport }) else (s.bump Obj.nxfReplayDrop, none) := by
  cases hwin : x.win.accepts f.seq with
  | true => simp [State.frameIn, hport, hlegal, htyp, hx, hcarries, htag, hwin]
  | false => simp [State.frameIn, hport, hlegal, htyp, hx, hcarries, htag, hwin]

theorem State.frameIn_illegal (hport : f.dport = udpNxf) (hlegal : f.legal b.length = false) : s.frameIn f typ b = (s.bump Obj.nxfFramesBad, none) := by
  simp [State.frameIn, hport, hlegal]

theorem State.frameIn_badTag (hport : f.dport = udpNxf) (hlegal : f.legal b.length = true) (htyp : f.typ = typ) (hx : s.sessFor f = some x) (hcarries : s.carries x = true)
    (htag : f.tagOk x.rxKey b = false) : s.frameIn f typ b = (s.bump Obj.nxfFramesBad, none) := by
  simp [State.frameIn, hport, hlegal, htyp, hx, hcarries, htag]

theorem State.frameOut_carried {e : NxBody} (hx : s.session? id = some x) (hcarries : s.carries x = true) :
    s.frameOut id e = (s.setSession { x with txSeq := x.txSeq + 1 }).emit (.nxf x.port x.addr x.udp (nxSeal x.txKey e.typ x.peerId (x.txSeq + 1) e.bytes)) := by
  simp only [State.frameOut, hx, hcarries, if_true, Session.frame]

theorem State.frameOut_uncarried {e : NxBody} (hx : s.session? id = some x) (hcarries : s.carries x = false) : s.frameOut id e = s := by
  simp only [State.frameOut, hx, hcarries, Bool.false_eq_true, if_false]

theorem ReplayWin.accepts_above {v : ReplayWin} {n : Nat} (h : v.high < n) : v.accepts n = true ∧ (v.take n).high = n :=
  ⟨if_pos h, congrArg ReplayWin.high (if_pos h)⟩

theorem ReplayWin.accepts_highest {v : ReplayWin} : v.accepts v.high = false := (if_neg (Nat.lt_irrefl _)).trans (if_pos rfl)

theorem ReplayWin.accepts_below {v : ReplayWin} {n : Nat} (h : n + 64 < v.high) : v.accepts n = false := by
  have hfar : ¬ v.high - n ≤ 64 := by omega
  rw [ReplayWin.accepts, if_neg (by omega), if_neg (by omega), decide_eq_false hfar, Bool.false_and]

/-! ## Requests that are not performed (R440, R441) -/

theorem Session.known_of_kept {n : Nat} (h : (x.kept.find? fun r => r.reqId = n) = some r) : x.known n = true := by
  have hany : (x.kept.any fun r => r.reqId == n) = true :=
    List.any_eq_true.mpr ⟨r, List.mem_of_find?_eq_some h, by simpa using List.find?_some h⟩
  simp only [Session.known, hany, Bool.true_or]

theorem State.turnAway_kept {n op : Nat} (h : (x.kept.find? fun r => r.reqId = n) = some r) : s.turnAway x n op = s.frameOut x.id (.resp r) := by
  simp only [State.turnAway, h]

theorem State.turnAway_busy {n op : Nat} (h : x.known n = false) : s.turnAway x n op = s.answer x.id n op rBusy [] 0 0 := by
  cases hfind : x.kept.find? fun r => r.reqId = n with
  | none => simp only [State.turnAway, hfind, h, Bool.false_eq_true, if_false]
  | some r => exact absurd (Session.known_of_kept hfind) (by simp [h])

/-- A request that its session has answered is answered from what was kept. -/
theorem State.request_repeated {op : Nat} {k : State → Session → State} (hop : q.op = op) (hf : s.frameIn q.frame ntRequest q.body = (u, some x))
    (hst : x.st = SessState.opened) (hrole : x.role ≠ roleSteward) (hkept : (x.kept.find? fun r => r.reqId = q.reqId) = some r) :
    s.request op q k = u.frameOut x.id (.resp r) := by
  simp [State.request, hop, hf, hst, hrole, Session.known_of_kept hkept, State.turnAway_kept hkept]

/-- A request of an operation that R440 does not know is MALFORMED. -/
theorem State.request_unknown {op : Nat} {k : State → Session → State} (hop : opKnown op = true) (hq : opKnown q.op = false)
    (hf : s.frameIn q.frame ntRequest q.body = (u, some x)) (hst : x.st = SessState.opened) (hrole : x.role ≠ roleSteward) (hnew : x.known q.reqId = false)
    (hroom : x.openReqs.length < 16) :
    s.request op q k = (u.setSession { x with openReqs := x.openReqs ++ [⟨q.reqId, q.op⟩] }).answer x.id q.reqId q.op rMalformed [] 0 0 := by
  have hne : q.op ≠ op := fun h => by simp [← h, hq] at hop
  simp [State.request, hq, hf, hst, hrole, hnew, Nat.not_le.mpr hroom, hne]

theorem State.request_discarded {op : Nat} {k : State → Session → State} (hop : q.op = op) (hf : s.frameIn q.frame ntRequest q.body = (u, none)) :
    s.request op q k = u := by
  simp [State.request, hop, hf]

/-- A write of a session that may write, and whose request is not to be performed, is turned away (R441). -/
theorem State.ctl_turnedAway {ok : Bool} {g : State → State × Nat} (hx : s.session? w.session = some x) (hwrites : s.writes w = true)
    (hnot : x.known w.reqId = true ∨ 16 ≤ x.openReqs.length) : s.ctl w ok g = s.turnAway x w.reqId opWrite := by
  have hadmits : s.admits w = false := by
    rcases hnot with hknown | hfull
    · simp [State.admits, hx, hknown]
    · simp [State.admits, hx, Nat.not_lt.mpr hfull]
  simp [State.ctl, hadmits, hx, hwrites]

/-! ## The end of a session (R438, R453) -/

theorem State.session?_eq_none_iff : s.session? id = none ↔ ∀ y ∈ s.mgmt.sessions, y.id ≠ id := by
  simp [State.session?, List.find?_eq_none]

theorem id_of_mem_updFirst {y : Session} {l : List Session} (h : y ∈ updFirst (fun z => z.id == x.id) (fun _ => x) l) : ∃ z ∈ l, z.id = y.id := by
  induction l with
  | nil => exact absurd h List.not_mem_nil
  | cons z l ih =>
    rw [updFirst] at h
    by_cases hz : z.id = x.id
    · rw [if_pos (by simp [hz])] at h
      rcases List.mem_cons.mp h with rfl | hy
      · exact ⟨z, List.mem_cons_self, hz⟩
      · exact ⟨y, List.mem_cons_of_mem z hy, rfl⟩
    · rw [if_neg (by simp [hz])] at h
      rcases List.mem_cons.mp h with rfl | hy
      · exact ⟨y, List.mem_cons_self, rfl⟩
      · obtain ⟨v, hv, hid⟩ := ih hy
        exact ⟨v, List.mem_cons_of_mem z hv, hid⟩

/-- A session that is not there is not put there by an update of another. -/
theorem State.session?_setSession_none (h : s.session? id = none) : (s.setSession x).session? id = none := by
  rw [State.session?_eq_none_iff] at h ⊢
  intro y hy
  obtain ⟨z, hz, hid⟩ := id_of_mem_updFirst hy
  exact hid ▸ h z hz

theorem State.session?_frameOut_none {k : Nat} {e : NxBody} (h : s.session? id = none) : (s.frameOut k e).session? id = none := by
  cases hx : s.session? k with
  | none => rwa [State.frameOut, hx]
  | some y =>
    cases hcarries : s.carries y with
    | true => rw [State.frameOut_carried hx hcarries]; exact State.session?_setSession_none h
    | false => rwa [State.frameOut_uncarried hx hcarries]

theorem State.session?_answer_none {k n op res off total : Nat} {d : Bytes} (h : s.session? id = none) : (s.answer k n op res d off total).session? id = none := by
  cases hx : s.session? k with
  | none => rwa [State.answer_closed hx]
  | some y =>
    simp only [State.answer, hx]
    exact State.session?_frameOut_none (State.session?_setSession_none h)

/-- A tile's post that completes is its tile's and its tally's affair. -/
theorem State.postDone_tile_mgmt (n k c age epoch : Nat) (st : Status) (cause : Nat) : (s.postDone (.tile n k c age epoch) st cause).mgmt = s.mgmt := by
  unfold State.postDone
  simp only
  have hcount : (if st = .timeout then s.bump Obj.postsTimedOut else s).mgmt = s.mgmt := by split <;> rfl
  split
  · split
    · exact hcount
    · exact hcount
  · exact hcount

theorem State.session?_sendDone_none {g : MbxSender} {st : Status} {cause : Nat} (h : s.session? id = none) : (s.sendDone g st cause).session? id = none := by
  cases g with
  | tile n k c age epoch => rwa [State.session?, State.sendDone, State.postDone_tile_mgmt]
  | session k port role c req => exact State.session?_answer_none h

theorem State.session?_receiverGone_none {m cause : Nat} {st : Status} (h : s.session? id = none) : (s.receiverGone m st cause).session? id = none :=
  List.foldlRecOn (motive := fun t : State => t.session? id = none) _ _ h fun _ ht _ _ => State.session?_sendDone_none ht

theorem State.session?_dropClaims_none {k : Nat} (h : s.session? id = none) : (s.dropClaims k).session? id = none :=
  List.foldlRecOn (motive := fun t : State => t.session? id = none) _ _ h fun t ht m _ => by
    split
    · exact State.session?_receiverGone_none ht
    · exact ht

/-- A session that closes is gone. -/
theorem State.session?_closeSession (reason : Option Nat) : (s.closeSession id reason).session? id = none := by
  cases hx : s.session? id with
  | none => rwa [State.closeSession, hx]
  | some x =>
    simp only [State.closeSession, hx]
    refine State.session?_dropClaims_none (State.session?_eq_none_iff.mpr fun y hy => ?_)
    simpa using (List.mem_filter.mp hy).2

end Frames

end Sys2Proof.Machine
end

section
/-! Sessions that open, prove, close and carry agent traffic, what waits for FL, and the management ports (R415, R417, R431, R432, R435 to R439, R447). -/

namespace Sys2Proof.Machine

open Sys2Proof

/-! ## OPEN_REQ and PROVE (R417, R433, R435, R436) -/

section Opening

variable {s u : State} {p sid : Nat} {f : NxFrame} {b : Bytes} {x : Session}

/-- An OPEN_REQ that arrives on a port that runs, whose header and length are right, is answered as its verdict says. -/
theorem exec_openReq_legal (hp : p < 3) (hup : s.nxfUp = true) (hruns : s.portRuns p = true) (hport : f.dport = udpNxf) (hlegal : f.legal b.length = true)
    (hzero : f.session = 0) (htyp : f.typ = ntOpenReq) (hlen : b.length = 100) : exec (.openReq p f b) s = .next
      (if s.openVerdict p f.peer b = 0 then s.openSession p f b
       else (s.refuseOpen 0 (s.openVerdict p f.peer b) (byteAt b 96)).openAnswer p f 0 (leBytes 1 (s.openVerdict p f.peer b) ++ zeros 167)) := by
  have hserved : ¬(p ≥ 3 ∨ (!s.nxfUp) = true ∨ (!s.portRuns p) = true ∨ f.dport ≠ udpNxf) := by simp [Nat.not_le.mpr hp, hup, hruns, hport]
  have hgood : ¬((!f.legal b.length) = true ∨ f.session ≠ 0 ∨ b.length ≠ 100) := by rw [hlegal]; simp [hzero, hlen]
  exact congrArg Host.Outcome.next ((if_neg hserved).trans ((if_neg hgood).trans (if_neg (not_not.mpr htyp))))

/-- A refusal of 168 bytes, as frame 1 of session 0. -/
theorem State.openAnswer_refusal (v : Nat) : s.openAnswer p f 0 (leBytes 1 v ++ zeros 167) =
    s.emit (.nxf p f.addr f.sport (nxHeader ntOpenResp 0 1 168 ++ (leBytes 1 v ++ zeros 167))) := by
  have hlen : (leBytes 1 v ++ zeros 167).length = 168 := by
    rw [zeros, List.length_append, length_leBytes, List.length_replicate]
  rw [State.openAnswer, hlen]

theorem exec_openReq_bad (hp : p < 3) (hup : s.nxfUp = true) (hruns : s.portRuns p = true) (hport : f.dport = udpNxf)
    (hbad : f.legal b.length = false ∨ f.session ≠ 0 ∨ b.length ≠ 100) : exec (.openReq p f b) s = .next (s.bump Obj.nxfFramesBad) := by
  have hserved : ¬(p ≥ 3 ∨ (!s.nxfUp) = true ∨ (!s.portRuns p) = true ∨ f.dport ≠ udpNxf) := by simp [Nat.not_le.mpr hp, hup, hruns, hport]
  exact congrArg Host.Outcome.next ((if_neg hserved).trans (if_pos (by simpa using hbad)))

theorem idles_openReq (h : s.portRuns p = false ∨ f.dport ≠ udpNxf) : Idles (.openReq p f b) s :=
  congrArg Host.Outcome.next (if_pos (.inr (.inr (h.imp_left fun hruns => by simp [hruns]))))

theorem exec_prove_segment (hf : s.frameIn f ntProve b = (u, some x)) (hst : x.st = SessState.proving) (hours : x.weOpened = false) :
    exec (.prove f b) s = .next (u.takeSeg x b) := by
  show execProve f b s = _
  simp [execProve, hf, hst, hours]

theorem exec_proveTimeout_proving (hx : s.session? sid = some x) (hst : x.st = SessState.proving) : exec (.proveTimeout sid) s = .next (s.closeSession sid none) := by
  show execProveTimeout sid s = _
  simp only [execProveTimeout, hx, hst, if_true]

end Opening

/-! ## Closing (R437, R438) -/

section Closing

variable {s u : State} {sid c : Nat} {f : NxFrame} {v : Bytes} {x : Session}

theorem exec_sessionIdleExpiry_opened (hx : s.session? sid = some x) (hst : x.st = SessState.opened) :
    exec (.sessionIdleExpiry sid) s = .next (s.closeSession sid (some 1)) := by
  show execSessionIdleExpiry sid s = _
  simp only [execSessionIdleExpiry, hx, hst, if_true]

theorem exec_close_taken (hf : s.frameIn f ntClose [] = (u, some x)) : exec (.close f) s = .next (u.closeSession x.id none) := by
  show execClose f s = _
  simp only [execClose, hf]

theorem State.writeClose_opened (hx : s.session? sid = some x) (hst : x.st = SessState.opened) : s.writeClose sid = (s.closeSession sid (some 2), rOk) := by
  simp only [State.writeClose, hx, hst, if_true]

theorem State.writeClose_none (hx : s.session? sid = none) : s.writeClose sid = (s, rRefused) := by
  simp only [State.writeClose, hx]

theorem State.writeTenantKey_changed (h0 : 0 < c) (hc : c < 64) (hlen : v.length = 32) (hv : s.rdo (Obj.tenantSessionKey c) ≠ v) :
    s.writeTenantKey c v = ((s.wro (Obj.tenantSessionKey c) v).closeSessions (fun x => x.role == roleTenant && x.ctx == c) 3, rOk) := by
  have hsame : (s.rdo (Obj.tenantSessionKey c) == v) = false := by simpa using hv
  simp only [State.writeTenantKey, ge_iff_le, if_neg (Nat.not_le.mpr hc), hlen, ne_eq, not_true_eq_false, if_false, if_neg (Nat.pos_iff_ne_zero.mp h0), hsame,
    Bool.false_eq_true]

end Closing

/-! ## Agent traffic and Steward sessions (R436, R437, R439) -/

section Agents

variable {s u : State} {f : NxFrame} {m : AgentMsg} {x : Session} {key b : Bytes} {win : ReplayWin} {q : Nat} {o : Opening}

theorem exec_agent_steward (hf : s.frameIn f ntAgent m.body = (u, some x)) (hrole : x.role = roleSteward) (hst : x.st = SessState.opened) :
    exec (.agent f m) s = .next (u.toAgent .mgmt 0 true m) := by
  show execAgent f m s = _
  simp [execAgent, hf, hrole, hst]

theorem exec_agent_other (hf : s.frameIn f ntAgent m.body = (u, some x)) (hrole : x.role ≠ roleSteward) : exec (.agent f m) s = .next (u.bump Obj.nxfFramesBad) := by
  show execAgent f m s = _
  simp [execAgent, hf, hrole]

/-- A group frame of another position goes by whether a Steward session with it is open. -/
theorem GroupFrame.exec_eq (h : GroupFrame f m) (hother : f.sender ≠ s.pos) : exec (.agentGroup f m) s = .next
    (if (s.stewardSess f.sender).isNone then
       (if (s.bump Obj.nxfGroupNokey).pos < f.sender ∧ !(s.bump Obj.nxfGroupNokey).hasSteward f.sender then (s.bump Obj.nxfGroupNokey).askSession f.sender f.addr
        else s.bump Obj.nxfGroupNokey)
     else s.groupIn f m) := by
  obtain ⟨hport, hlegal, hgroup, hpos, htyp⟩ := h
  have hgood : ¬((!f.legal m.body.length) = true ∨ f.session < 0xFFFFFF00 ∨ 64 ≤ f.sender) := by simp [hlegal, Nat.not_lt.mpr hgroup, Nat.not_le.mpr hpos]
  have htaken : ¬(f.typ ≠ ntAgentGroup ∨ f.sender = s.pos) := by simp [htyp, hother]
  exact congrArg Host.Outcome.next ((if_neg (not_not.mpr hport)).trans ((if_neg hgood).trans (if_neg htaken)))

theorem GroupFrame.exec_open (h : GroupFrame f m) (hother : f.sender ≠ s.pos) (hopen : (s.stewardSess f.sender).isSome = true) :
    exec (.agentGroup f m) s = .next (s.groupIn f m) := by
  have hsome : (s.stewardSess f.sender).isNone = false := Option.isNone_eq_false_iff.mpr hopen
  rw [h.exec_eq hother, hsome, if_neg (by decide)]

theorem State.pos_bump_nokey : (s.bump Obj.nxfGroupNokey).pos = s.pos := (s.rd_bump Obj.nxfGroupNokey Obj.position).trans (if_neg (by decide))

theorem GroupFrame.exec_lower (h : GroupFrame f m) (hlower : f.sender < s.pos) (hnone : s.stewardSess f.sender = none) :
    exec (.agentGroup f m) s = .next (s.bump Obj.nxfGroupNokey) := by
  have hnot : ¬((s.bump Obj.nxfGroupNokey).pos < f.sender ∧ (!(s.bump Obj.nxfGroupNokey).hasSteward f.sender) = true) := by
    rw [State.pos_bump_nokey]
    omega
  rw [h.exec_eq hlower.ne, hnone, Option.isNone_none, if_pos rfl, if_neg hnot]

/-- The lower of two positions asks for the session that is missing. -/
theorem GroupFrame.exec_higher (h : GroupFrame f m) (hhigher : s.pos < f.sender) (hnone : s.stewardSess f.sender = none) (hfree : s.hasSteward f.sender = false) :
    exec (.agentGroup f m) s = .next ((s.bump Obj.nxfGroupNokey).askSession f.sender f.addr) := by
  have hfree : (s.bump Obj.nxfGroupNokey).hasSteward f.sender = false := hfree
  rw [h.exec_eq hhigher.ne', hnone, Option.isNone_none, if_pos rfl, if_pos ⟨State.pos_bump_nokey.symm ▸ hhigher, by simp [hfree]⟩]

theorem State.groupIn_taken (hkey : (s.mgmt.peerKeys.find? fun k => k.1 = f.sender) = some (f.sender, key, win)) (htag : f.tagOk key m.body = true)
    (hwin : win.accepts f.seq = true) : s.groupIn f m =
      State.toAgent { s with mgmt := { s.mgmt with peerKeys := upsert (·.1) (f.sender, key, win.take f.seq) s.mgmt.peerKeys } } .mgmt 0 true m := by
  simp only [State.groupIn, hkey, htag, hwin, Bool.not_true, Bool.false_eq_true, if_false]

theorem State.groupIn_badTag (hkey : (s.mgmt.peerKeys.find? fun k => k.1 = f.sender) = some (f.sender, key, win)) (htag : f.tagOk key m.body = false) :
    s.groupIn f m = s.bump Obj.nxfFramesBad := by
  simp only [State.groupIn, hkey, htag, Bool.not_false, if_true]

/-- A position that was asked within the last second is not asked again. -/
theorem State.askSession_asked {a : Bytes} (ho : (s.mgmt.opening.find? fun (o : Opening) => o.pos = q) = some o) (hrecent : s.now < o.time + 1000000000) :
    s.askSession q a = s := by
  have hpos : o.pos = q := by simpa using List.find?_some ho
  exact if_pos (.inl (List.any_eq_true.mpr ⟨o, List.mem_of_find?_eq_some ho, by simp [hpos, hrecent]⟩))

theorem exec_groupKey_kept (hf : s.frameIn f ntGroupKey key = (u, some x)) (hpeer : x.peer = some q) (hst : x.st = SessState.opened) (hlen : key.length = 32) :
    exec (.groupKey f key) s = .next { u with mgmt := { u.mgmt with peerKeys := upsert (·.1) (q, key, ⟨0, 0⟩) u.mgmt.peerKeys } } := by
  show execGroupKey f key s = _
  simp [execGroupKey, hf, hpeer, hst, hlen]

/-- The position that answered is waited for no more. -/
def State.answered (s : State) (f : NxFrame) : State := { s with mgmt := { s.mgmt with opening := s.mgmt.opening.filter fun (o : Opening) => o.pos != f.peer } }

theorem exec_openResp_asked (hport : f.dport = udpNxf) (hlegal : f.legal b.length = true) (htyp : f.typ = ntOpenResp)
    (ho : (s.mgmt.opening.find? fun (o : Opening) => o.pos = f.peer) = some o) (hlen : b.length = 168) : exec (.openResp f b) s = .next
      (if byteAt b 0 ≠ 0 ∨ s.hasSteward f.peer then s.answered f else (s.answered f).openedBy f o.priv o.body b) := by
  show execOpenResp f b s = _
  rw [hlen] at hlegal
  simp only [execOpenResp, hport, hlen, hlegal, htyp, ho, ne_eq, not_true_eq_false, Bool.not_true, Bool.false_eq_true, if_false]
  rfl

theorem exec_proveResp_opens (hf : s.frameIn f ntProveResp b = (u, some x)) (hours : x.weOpened = true) (hst : x.st = SessState.proving) (hlen : b.length = 2)
    (hok : byteAt b 0 = 0) : exec (.proveResp f b) s =
      .next ((u.setSession { x with st := SessState.opened }).countSessions.frameOut x.id (.groupKey u.mgmt.groupKey)) := by
  show execProveResp f b s = _
  simp [execProveResp, hf, hours, hst, hlen, hok]

theorem exec_proveResp_frees (hf : s.frameIn f ntProveResp b = (u, some x)) (hours : x.weOpened = true) (hst : x.st = SessState.proving) (hlen : b.length = 2)
    (hbad : byteAt b 0 ≠ 0) : exec (.proveResp f b) s = .next (u.closeSession x.id none) := by
  show execProveResp f b s = _
  simp [execProveResp, hf, hours, hst, hlen, hbad]

end Agents

/-! ## Persistence (R447) -/

section Persistence

variable {s : State} {sid q k : Nat} {v : Bytes} {rest : List (Nat × Nat × Nat × Bytes)}

theorem keyIsInt_operatorKeys : keyIsInt Obj.operatorKeys.key = false := by decide

theorem State.flPut_int (h : keyIsInt k = true) :
    s.flPut k v = { s with reg := mput s.reg k (leNat v), boot := { s.boot with flReg := mput s.boot.flReg k (leNat v) } } := if_pos h

theorem State.flPut_oct (h : keyIsInt k = false) : s.flPut k v = { s with oct := mput s.oct k v, boot := { s.boot with flOct := mput s.boot.flOct k v } } :=
  if_neg (by simp [h])

/-- The oldest waiting value takes effect and its write is answered. -/
theorem exec_persistStoreDone_value (h : s.mgmt.storing = (sid, q, k, v) :: rest) (hk : k ≠ Obj.operatorKeys.key) :
    exec .persistStoreDone s = .next ((State.flPut { s with mgmt := { s.mgmt with storing := rest } } k v).answer sid q opWrite rOk [] 0 0) := by
  show execPersistStoreDone s = _
  simp only [execPersistStoreDone, h, if_neg hk]

/-- Sessions whose key leaves the list close as the list takes effect (R438). -/
theorem exec_persistStoreDone_operatorKeys (h : s.mgmt.storing = (sid, q, Obj.operatorKeys.key, v) :: rest) : exec .persistStoreDone s = .next
    (((State.opKeysChange { s with mgmt := { s.mgmt with storing := rest } } v).flPut Obj.operatorKeys.key v).answer sid q opWrite rOk [] 0 0) := by
  show execPersistStoreDone s = _
  simp only [execPersistStoreDone, h, if_true]

theorem idles_persistStoreDone (h : s.mgmt.storing = []) : Idles .persistStoreDone s := by
  show execPersistStoreDone s = _
  simp only [execPersistStoreDone, h]

end Persistence

/-! ## Ports (R431, R432) -/

section Ports

variable {s : State} {p k : Nat} {a : Bytes}

theorem exec_mportLinkChange_running {up : Bool} (hp : p < 3) (hruns : s.portRuns p = true) : exec (.mportLinkChange p up) s = .next (s.wr (Obj.mportLink p) (ofBool up)) :=
  congrArg Host.Outcome.next (if_neg (by simp [Nat.not_le.mpr hp, hruns]))

theorem exec_arpNdEcho_answers (hp : p < 3) (hlink : s.rd (Obj.mportLink p) = 1) (h : s.answersFor p k a = true) :
    exec (.arpNdEcho p k a false) s = .next (s.emit (.netReply p k a)) :=
  congrArg Host.Outcome.next (if_pos ⟨hp, hlink, rfl, h⟩)

theorem idles_arpNdEcho {tagged : Bool} (h : s.answersFor p k a = false ∨ tagged = true ∧ p = 2) : Idles (.arpNdEcho p k a tagged) s := by
  refine congrArg Host.Outcome.next (if_neg ?_)
  rintro ⟨-, -, htag, hans⟩
  rcases h with hnot | ⟨rfl, rfl⟩
  · simp [hnot] at hans
  · simp at htag

theorem State.answersFor_iff : s.answersFor p k a = true ↔
    (a = s.linkLocal p ∨ a = s.ownIp p ∧ allZero a = false) ∧ (k = 2 ∨ k = 0 ∧ ipv4 a = true ∨ k = 1 ∧ ipv4 a = false) := by
  have hkind : ((k == 2 || (k == 0) == ipv4 a) && decide (k < 3)) = true ↔ k = 2 ∨ k = 0 ∧ ipv4 a = true ∨ k = 1 ∧ ipv4 a = false := by
    rcases k with _ | _ | _ | k
    · cases ipv4 a <;> simp
    · cases ipv4 a <;> simp
    · simp
    · simp
  rw [State.answersFor, Bool.and_assoc, Bool.and_eq_true, hkind]
  simp

theorem exec_pfcPause_port {b : Bool} (hp : p < 2) (hk : k < 8) : exec (.pfcPause p k b) s =
    .next { s with mgmt := { s.mgmt with paused := msetD s.mgmt.paused p 0 (setBit (mgetD s.mgmt.paused p 0) k b) } } :=
  congrArg Host.Outcome.next (if_pos ⟨hp, hk⟩)

end Ports

end Sys2Proof.Machine
end

section
/-! O49: sessions from their opening to their end, and the management path. -/

namespace Sys2Proof.Machine

open Sys2Proof

/-- Settles O49: a frame by the checks that it passes, a session by its state, a write by its rules, a port by what it serves. -/
theorem managementSessions : Obligations.ManagementSessions := by
  unfold Obligations.ManagementSessions
  refine ⟨?opens, ?refuses, ?openBad, ?openElsewhere, ?takes, ?replayed, ?illegal, ?sends, ?sendsNot, ?proves, ?proofFails, ?proofLate, ?idle, ?closes, ?closeWrite,
    ?closeNone, ?gone, ?operatorKeys, ?tenantKey, ?agent, ?agentOther, ?group, ?groupBad, ?groupLower, ?groupHigher, ?asked, ?groupKey, ?answered, ?answeredNot,
    ?proofTaken, ?proofRefused, ?persistReset, ?persistRefused, ?storedInt, ?storedOct, ?storedKeys, ?storedNone, ?link, ?mka, ?echo, ?echoNot, ?answers, ?pause,
    ?keepalive, ?repeated, ?badTag, ?unknown, ?writeRepeated, ?writeBusy, ?window⟩
  case opens =>
    intro s p f b hp hup hruns hport hlegal hzero htyp hlen hv
    rw [exec_openReq_legal hp hup hruns hport hlegal hzero htyp hlen, if_pos hv]
  case refuses =>
    intro s p f b v hp hup hruns hport hlegal hzero htyp hlen hv hne
    rw [exec_openReq_legal hp hup hruns hport hlegal hzero htyp hlen, hv, if_neg hne, State.openAnswer_refusal]
  case openBad => exact fun s p f b hp hup hruns hport hbad => exec_openReq_bad hp hup hruns hport hbad
  case openElsewhere => exact fun s p f b h => idles_openReq h
  case takes =>
    intro s f typ b x y hport hlegal htyp hx hcarries htag hwin hy
    rw [State.frameIn_keyed hport hlegal htyp hx hcarries htag, if_pos hwin, hy]
  case replayed =>
    intro s f typ b x hport hlegal htyp hx hcarries htag hwin
    rw [State.frameIn_keyed hport hlegal htyp hx hcarries htag, if_neg (by simp [hwin])]
  case illegal => exact fun s f typ b hport hlegal => State.frameIn_illegal hport hlegal
  case sends => exact fun s id x b hx hcarries => State.frameOut_carried hx hcarries
  case sendsNot => exact fun s id x b hx hcarries => State.frameOut_uncarried hx hcarries
  case proves => exact fun s f b u x hf hst hours => exec_prove_segment hf hst hours
  case proofFails => exact fun s x p v hv => if_neg hv
  case proofLate => exact fun s sid x hx hst => exec_proveTimeout_proving hx hst
  case idle => exact fun s sid x hx hst => exec_sessionIdleExpiry_opened hx hst
  case closes => exact fun s f u x hf => exec_close_taken hf
  case closeWrite => exact fun s w sid x hw hx hst => accepted_of_ctl rfl hw (State.writeClose_opened hx hst)
  case closeNone => exact fun s w sid hw hx => denied_of_ctl rfl hw (State.writeClose_none hx)
  case gone => exact fun s id r => State.session?_closeSession r
  case operatorKeys =>
    intro s w v r hw hlen hr
    exact kept_of_ctl rfl hw ((if_neg (not_not.mpr hlen)).trans (by rw [← hr, State.storeOct]))
  case tenantKey => exact fun s w c v hw h0 hc hlen hv => accepted_of_ctl rfl hw (State.writeTenantKey_changed h0 hc hlen hv)
  case agent => exact fun s f m u x hf hrole hst => exec_agent_steward hf hrole hst
  case agentOther => exact fun s f m u x hf hrole => exec_agent_other hf hrole
  case group =>
    intro s f m key win h hother hopen hkey htag hwin
    rw [h.exec_open hother hopen, State.groupIn_taken hkey htag hwin]
  case groupBad =>
    intro s f m key win h hother hopen hkey htag
    rw [h.exec_open hother hopen, State.groupIn_badTag hkey htag]
  case groupLower => exact fun s f m h hlower hnone => h.exec_lower hlower hnone
  case groupHigher => exact fun s f m h hhigher hnone hfree => h.exec_higher hhigher hnone hfree
  case asked => exact fun s q a o ho hrecent => State.askSession_asked ho hrecent
  case groupKey => exact fun s f key u x q hf hpeer hst hlen => exec_groupKey_kept hf hpeer hst hlen
  case answered =>
    intro s f o body hport hlegal htyp ho hlen hok hfree
    rw [exec_openResp_asked hport hlegal htyp ho hlen, if_neg (by simp [hok, hfree]), State.answered]
  case answeredNot =>
    intro s f o body hport hlegal htyp ho hlen hnot
    rw [exec_openResp_asked hport hlegal htyp ho hlen, if_pos hnot, State.answered]
  case proofTaken => exact fun s f b u x hf hours hst hlen hok => exec_proveResp_opens hf hours hst hlen hok
  case proofRefused => exact fun s f b u x hf hours hst hlen hbad => exec_proveResp_frees hf hours hst hlen hbad
  case persistReset => exact fun s w hw => accepted_of_ctl rfl hw rfl
  case persistRefused => exact fun s w v hw hv => denied_of_ctl rfl hw (if_pos hv)
  case storedInt =>
    intro s sid q k v rest h hint
    have hk : k ≠ Obj.operatorKeys.key := fun hk => absurd hint (by rw [hk, keyIsInt_operatorKeys]; decide)
    rw [exec_persistStoreDone_value h hk, State.flPut_int hint]
  case storedOct =>
    intro s sid q k v rest h hoct hk
    rw [exec_persistStoreDone_value h hk, State.flPut_oct hoct]
  case storedKeys =>
    intro s sid q v rest u h hu
    rw [exec_persistStoreDone_operatorKeys h, hu]
    rfl
  case storedNone => exact fun s h => idles_persistStoreDone h
  case link => exact fun s p up hp hruns => exec_mportLinkChange_running hp hruns
  case mka => exact fun s b => rfl
  case echo => exact fun s p k a hp hlink h => exec_arpNdEcho_answers hp hlink h
  case echoNot => exact fun s p k a b h => idles_arpNdEcho h
  case answers => exact fun s p k a => State.answersFor_iff
  case pause => exact fun s p k b hp hk => exec_pfcPause_port hp hk
  case keepalive => exact fun s q x u hq => hq.next rfl rfl
  case repeated => exact fun s q v x r hop hf hst hrole hkept => congrArg Host.Outcome.next (State.request_repeated hop hf hst hrole hkept)
  case badTag =>
    intro s q x hop hport hlegal htyp hx hcarries htag
    exact congrArg Host.Outcome.next (State.request_discarded hop (State.frameIn_badTag hport hlegal htyp hx hcarries htag))
  case unknown =>
    intro s q v x hq hf hst hrole hnew hroom
    exact congrArg Host.Outcome.next (State.request_unknown (by decide) hq hf hst hrole hnew hroom)
  case writeRepeated =>
    intro s w x r v hx hwrites hkept
    exact congrArg Host.Outcome.next ((State.ctl_turnedAway hx hwrites (.inl (Session.known_of_kept hkept))).trans (State.turnAway_kept hkept))
  case writeBusy =>
    intro s w x v hx hwrites hnew hfull
    exact congrArg Host.Outcome.next ((State.ctl_turnedAway hx hwrites (.inr hfull)).trans (State.turnAway_busy hnew))
  case window => exact fun w q => ⟨ReplayWin.accepts_above, fun h => h ▸ ReplayWin.accepts_highest, ReplayWin.accepts_below⟩

end Sys2Proof.Machine
end

section
/-! READ, WRITE and NEXT of the dictionary (R440, R442, R443, R446, R447). -/

namespace Sys2Proof.Machine

open Sys2Proof

section Access

variable {s u : State} {q : NxReq} {x : Session} {r : DictRow} {w : Who} {e sub : Nat} {v : Bytes} {p : State × Nat}

/-! ## READ -/

/-- A READ of an object that has no row of its own and that its session may read is answered with a portion of the value. -/
theorem exec_read_portion (hq : Asks s opRead q x u) (hsnap : ¬(q.area = 0x70 ∧ q.entry = 0x11)) (hmbx : ¬(q.area = 0x78 ∧ q.entry = 0x100 ∧ q.sub = 0))
    (hrow : u.rowFor q.area q.entry q.sub = some r) (hreach : u.reaches x.role x.ctx r q.entry q.sub Acc.canRead = true)
    (hoff : q.offset ≤ (u.readObj x r q.entry q.sub).length) :
    exec (.read q) s = .next (u.answer x.id q.reqId opRead rOk (((u.readObj x r q.entry q.sub).drop q.offset).take q.length) q.offset
      (u.readObj x r q.entry q.sub).length) := by
  refine hq.next (congrArg Host.Outcome.next (if_neg hsnap)) ?_
  simp only [hrow, hreach, Bool.not_true, Bool.false_eq_true, if_false, if_neg hmbx, if_neg (Nat.not_lt.mpr hoff)]

theorem exec_read_noObject (hq : Asks s opRead q x u) (hsnap : ¬(q.area = 0x70 ∧ q.entry = 0x11)) (hrow : u.rowFor q.area q.entry q.sub = none) :
    exec (.read q) s = .next (u.answer x.id q.reqId opRead rNoObject [] 0 0) := by
  refine hq.next (congrArg Host.Outcome.next (if_neg hsnap)) ?_
  simp only [hrow]

theorem exec_read_noAccess (hq : Asks s opRead q x u) (hsnap : ¬(q.area = 0x70 ∧ q.entry = 0x11)) (hrow : u.rowFor q.area q.entry q.sub = some r)
    (hreach : u.reaches x.role x.ctx r q.entry q.sub Acc.canRead = false) : exec (.read q) s = .next (u.answer x.id q.reqId opRead rNoAccess [] 0 0) := by
  refine hq.next (congrArg Host.Outcome.next (if_neg hsnap)) ?_
  simp only [hrow, hreach, Bool.not_false, if_true]

/-! ## WRITE -/

/-- A WRITE that has no row of its own, of an object that its session may write, is answered as the value is taken; one whose value goes to FL is answered later. -/
theorem exec_write_takes (hq : Asks s opWrite q x u) (hown : ownWrite q = false) (hrow : u.rowFor q.area q.entry q.sub = some r)
    (hreach : u.reaches x.role x.ctx r q.entry q.sub Acc.canWrite = true) (harea : q.area ≠ 0x68)
    (hp : u.writeVal ⟨x.role, x.ctx, x.id, q.reqId⟩ r q.entry q.sub q.value = p) :
    exec (.write q) s = .next (if p.2 = rLater then p.1 else p.1.answer x.id q.reqId opWrite p.2 [] 0 0) := by
  refine hq.next (congrArg Host.Outcome.next (if_neg (by simp [hown]))) ?_
  simp only [hrow, hreach, harea, Bool.not_true, Bool.false_eq_true, false_and, or_false, if_false, hp]

/-- An integer value of the type's length, within the row's range and admitted by the state, is taken up. -/
theorem State.writeVal_u32 (hty : r.ty = .u32) (hlen : v.length = 4) (hrng : r.rng.ok (leNat v) = true) (hrule : s.intRule w r e sub (leNat v) = rOk)
    (harea : r.area ≠ 0x88) :
    s.writeVal w r e sub v = (if r.pers then s.storeReg w (objAt r e sub) (leNat v)
      else if r.area = 0x10 ∧ r.base = 0x4000 ∧ sub = 3 then (s.cutBusy (e - r.base), rOk)
      else (s.wr (objAt r e sub) (leNat v), rOk)) := by
  have hwidth : v.length = ObjTy.u32.width := hlen
  simp only [State.writeVal, hty, hwidth, hrng, hrule, ne_eq, not_true_eq_false, Bool.not_true, Bool.false_eq_true, if_false, if_neg harea]

theorem State.writeVal_badLength (hty : r.ty = .u32) (hlen : v.length ≠ 4) : s.writeVal w r e sub v = (s, rBadLength) := by
  simp only [State.writeVal, hty]
  exact if_pos hlen

/-! ## NEXT -/

/-- The rows of an area of which a role may read or write something. -/
def rowsFor (area role : Nat) : List DictRow := (dictArea area).filter fun r => (r.acc role).canRead || (r.acc role).canWrite

theorem exec_nextObj_none (hq : Asks s opNext q x u) (h84 : q.area ≠ 0x84) (h88 : q.area ≠ 0x88)
    (hnext : u.nextGo x (rowsFor q.area x.role) 65536 q.entry q.sub = none) : exec (.nextObj q) s = .next (u.answer x.id q.reqId opNext rNoObject [] 0 0) := by
  rw [rowsFor] at hnext
  refine hq.next rfl ?_
  simp only [h84, h88, or_self, false_and, if_false, hnext]

theorem exec_nextObj_found {k : Nat} (hq : Asks s opNext q x u) (h84 : q.area ≠ 0x84) (h88 : q.area ≠ 0x88)
    (hnext : u.nextGo x (rowsFor q.area x.role) 65536 q.entry q.sub = some (r, e, k)) :
    exec (.nextObj q) s = .next (u.answer x.id q.reqId opNext rOk (bytesOf [leBytes 1 q.area, leBytes 2 e, leBytes 1 k, leBytes 1 r.ty.code, leBytes 2 r.ty.size,
      leBytes 1 (ofBool (r.acc x.role).canRead + 2 * ofBool (r.acc x.role).canWrite), leBytes 1 (ofBool r.pers)]) 0 9) := by
  rw [rowsFor] at hnext
  refine hq.next rfl ?_
  simp only [h84, h88, or_self, false_and, if_false, hnext]

end Access

/-- Settles O50: a request by the row of its object and what its session may do, a value by its type, its range and its rules. -/
theorem dictionaryAccess : Obligations.DictionaryAccess := by
  unfold Obligations.DictionaryAccess
  refine ⟨?portion, ?noObject, ?noAccess, ?takes, ?kept, ?toFl, ?later, ?ring, ?badLength, ?last, ?found⟩
  case portion => exact fun s q x u r hq hsnap hmbx hrow hreach hoff => exec_read_portion hq hsnap hmbx hrow hreach hoff
  case noObject => exact fun s q x u hq hsnap hrow => exec_read_noObject hq hsnap hrow
  case noAccess => exact fun s q x u r hq hsnap hrow hreach => exec_read_noAccess hq hsnap hrow hreach
  case takes =>
    intro s q x u r v hq hown hrow hreach harea hv hlater
    rw [exec_write_takes hq hown hrow hreach harea hv, if_neg hlater]
  case kept =>
    intro s w r e sub v hty hlen hrng hrule harea hpers hbusy
    rw [State.writeVal_u32 hty hlen hrng hrule harea, if_neg (by simp [hpers]), if_neg hbusy]
  case toFl =>
    intro s w r e sub v hty hlen hrng hrule harea hpers
    rw [State.writeVal_u32 hty hlen hrng hrule harea, if_pos hpers, State.storeReg]
  case later =>
    intro s q x u r v hq hown hrow hreach harea hv
    rw [exec_write_takes hq hown hrow hreach harea hv, if_pos rfl]
  case ring => exact fun s w r e sub v hring hdisabled hfailed => if_pos ⟨hring, hdisabled, hfailed⟩
  case badLength => exact fun s w r e sub v hty hlen => State.writeVal_badLength hty hlen
  case last => exact fun s q x u hq h84 h88 hnext => exec_nextObj_none hq h84 h88 hnext
  case found => exact fun s q x u r e k hq h84 h88 hnext => exec_nextObj_found hq h84 h88 hnext

end Sys2Proof.Machine
end

section
/-! Reference clocks, package time and the spare policy (R470, R477 to R479, R485, R486). -/

namespace Sys2Proof.Machine

open Sys2Proof

section Clocks

variable {s : State} {n src : Nat} {d : Int} {r : WearRead}

/-! ## Reference clocks (R470, R477, R478) -/

theorem exec_noReferenceTimeout_holds (hstep : s.boot.step = 2) (hheld : s.boot.held = true) (hoff : s.rd Obj.pkgPowerState = pwrOff) (hnone : s.hasRef = false) :
    exec .noReferenceTimeout s = .next { s.halt 3 4 with boot := { (s.halt 3 4).boot with step := 2, held := true } } :=
  congrArg Host.Outcome.next (if_pos ⟨hstep, hheld, hoff, by simp [hnone]⟩)

theorem idles_noReferenceTimeout (h : s.hasRef = true) : Idles .noReferenceTimeout s :=
  congrArg Host.Outcome.next (if_neg fun ⟨_, _, _, hnone⟩ => by simp [h] at hnone)

/-- RCLK_A is in use and lost while RCLK_B is there: the package switches (R478). -/
theorem State.refLost_switches (h : s.rd Obj.refState = 1) (hother : s.boot.refB = true) :
    s.refLost false = ((State.wr { s with boot := { s.boot with refA := false } } Obj.refState 2).bump Obj.refSwitches).event 0x0810 0x00 0 noCtx 2 0 0 := by
  refine (if_neg (not_not.mpr h)).trans ?_
  exact if_pos hother

theorem State.refLost_holdsOver (h : s.rd Obj.refState = 1) (hother : s.boot.refB = false) :
    s.refLost false = (State.wr { s with boot := { s.boot with refA := false } } Obj.refState 3).event 0x0810 0x00 0 noCtx 3 0 0 := by
  refine (if_neg (not_not.mpr h)).trans ?_
  exact if_neg (by simp [hother])

/-- The reference that is not in use may go without more. -/
theorem State.refLost_unused (h : s.rd Obj.refState = 1) : s.refLost true = { s with boot := { s.boot with refB := false } } := by
  refine if_pos ?_
  show s.rd Obj.refState ≠ 2
  omega

theorem State.refBack_fromHoldover (h : s.rd Obj.refState = 3) (hheld : s.boot.held = false) :
    s.refBack false = State.wr { s with boot := { s.boot with refA := true } } Obj.refState 1 := by
  have hlocks : (if s.rd Obj.refState = 0 ∨ s.rd Obj.refState = 3 then State.wr { s with boot := { s.boot with refA := true } } Obj.refState 1
      else { s with boot := { s.boot with refA := true } }) = State.wr { s with boot := { s.boot with refA := true } } Obj.refState 1 := if_pos (.inr h)
  refine Eq.trans (if_neg ?_) hlocks
  rintro ⟨hwas, -⟩
  have : (State.wr { s with boot := { s.boot with refA := true } } Obj.refState 1).boot.held = true := hlocks ▸ hwas
  simp [hheld] at this

/-! ## Package time (R479) -/

theorem State.unlock_unlocked (h : s.rd Obj.ptpState = 0) : s.unlock = s := if_pos h

/-- An estimate within 20 µs is slewed as time passes. -/
theorem State.ptpSync_near (h : d.natAbs ≤ 20000) :
    s.ptpSync d = { s.wr Obj.ptpOffsetAbsNs d.natAbs with boot := { s.boot with ptpHeard := true, ptpOffset := d } } := by
  have hmin : min d.natAbs 0xFFFFFFFF = d.natAbs := by omega
  have hstep : ¬ 1000000 < d.natAbs := by omega
  simp only [State.ptpSync, hmin, gt_iff_lt, if_neg hstep, if_neg (Nat.not_lt.mpr h)]
  rfl

/-- An estimate above 1 ms is stepped at once; package time that is not locked has no lock to lose. -/
theorem State.ptpSync_steps (hfar : 1000000 < d.natAbs) (hfits : d.natAbs < 2 ^ 32) (hst : s.rd Obj.ptpState = 0) :
    s.ptpSync d = State.event { s.wr Obj.ptpOffsetAbsNs d.natAbs with
      boot := { s.boot with ptpHeard := true, ptpOffset := 0, ptpDelta := s.boot.ptpDelta - d } } 0x0812 0x00 0 noCtx (ofInt 64 (-d)) 0 0 := by
  have hmin : min d.natAbs 0xFFFFFFFF = d.natAbs := by omega
  have hlock : 20000 < d.natAbs := by omega
  simp only [State.ptpSync, hmin, gt_iff_lt, if_pos hfar, if_pos hlock]
  refine State.unlock_unlocked ?_
  rw [State.rd_event_of_area _ _ _ _ _ _ _ (by decide)]
  exact (s.rd_wr_ne Obj.ptpOffsetAbsNs Obj.ptpState _ (by decide)).trans hst

theorem idles_ptpSync (h : src ≠ s.boot.ptpSource) : Idles (.ptpSync src d) s := congrArg Host.Outcome.next (if_neg h)

/-! ## The spare policy (R485, R486) -/

/-- Where the policy is off an ageing reading is kept, and nothing is asked for. -/
theorem State.policy_siteAge_off {k v : Nat} (hk : k < 2048) (hoff : s.rd Obj.sparePolicyEnable ≠ 1) :
    s.policy (.siteAge k v) = (s.wr (Obj.siteAge k) (min v 0xFFFF)).wr (Obj.wearAge (k / 512)) (max (s.rd (Obj.wearAge (k / 512))) (min v 0xFFFF)) := by
  have hkey : (Obj.siteAge k).key ≠ (Obj.wearAge (k / 512)).key := by
    simp only [Obj.siteAge, Obj.wearAge, objKey]
    omega
  simp only [State.policy, ge_iff_le, if_neg (Nat.not_le.mpr hk), hoff, false_and, if_false, State.rd_wr_ne _ _ _ _ hkey]

theorem State.policy_drift_asks (hn : n < 1920) (hon : s.rd Obj.sparePolicyEnable = 1) (hdrift : s.rd Obj.shadowDriftLimit < s.rd (Obj.tileDrift n))
    (hsubst : (s.tile n).subst = none) : s.policy (.drift n) = ((s.asks 0x01 n 1).swapTile n false).1 := by
  refine (if_pos ⟨hon, hdrift⟩).trans (if_neg ?_)
  simp [hsubst, Nat.not_le.mpr hn]

theorem idles_sparePolicyRequest_drift (hoff : s.rd Obj.sparePolicyEnable ≠ 1) : Idles (.sparePolicyRequest (.drift n)) s :=
  congrArg Host.Outcome.next (if_neg fun ⟨hon, _⟩ => hoff hon)

theorem idles_sparePolicyRequest_noRow (hoff : s.rd Obj.sparePolicyEnable ≠ 1) : Idles (.sparePolicyRequest (.noRow n)) s :=
  congrArg Host.Outcome.next (if_neg fun ⟨hon, _⟩ => hoff hon)

end Clocks

/-- Settles O54: a reference by the one in use and the other, package time by the size of the estimate, the policy by its enable and its limit. -/
theorem clocksAndPolicy : Obligations.ClocksAndPolicy := by
  unfold Obligations.ClocksAndPolicy
  refine ⟨?noReference, ?hasReference, ?switches, ?holdsOver, ?unused, ?returns, ?foreign, ?near, ?steps, ?locks, ?timeout, ?unlocked, ?better, ?worse, ?siteAge, ?drift,
    ?off⟩
  case noReference => exact fun s hstep hheld hoff hnone => exec_noReferenceTimeout_holds hstep hheld hoff hnone
  case hasReference => exact fun s h => idles_noReferenceTimeout h
  case switches => exact fun s h hother => congrArg Host.Outcome.next (State.refLost_switches h hother)
  case holdsOver => exact fun s h hother => congrArg Host.Outcome.next (State.refLost_holdsOver h hother)
  case unused => exact fun s h => congrArg Host.Outcome.next (State.refLost_unused h)
  case returns => exact fun s h hheld => congrArg Host.Outcome.next (State.refBack_fromHoldover h hheld)
  case foreign => exact fun s src h => idles_ptpSync h
  case near => exact fun s d h => congrArg Host.Outcome.next ((if_pos rfl).trans (State.ptpSync_near h))
  case steps => exact fun s d hfar hfits hst => congrArg Host.Outcome.next ((if_pos rfl).trans (State.ptpSync_steps hfar hfits hst))
  case locks => exact fun s hheard hnear => congrArg Host.Outcome.next (if_pos ⟨hheard, hnear⟩)
  case timeout => exact fun s h => congrArg Host.Outcome.next (State.unlock_unlocked (s := { s with boot := { s.boot with ptpHeard := false } }) h)
  case unlocked => exact fun s h => if_neg h
  case better => exact fun s n => rfl
  case worse => exact fun s n => rfl
  case siteAge => exact fun s k v hk hoff => congrArg Host.Outcome.next (State.policy_siteAge_off hk hoff)
  case drift => exact fun s n hn hon hdrift hsubst => congrArg Host.Outcome.next (State.policy_drift_asks hn hon hdrift hsubst)
  case off => exact fun s n hoff => ⟨idles_sparePolicyRequest_drift hoff, idles_sparePolicyRequest_noRow hoff⟩

end Sys2Proof.Machine
end

section
/-! A step of the package: the command at the front of its queue, or a microsecond in which nothing waits (R248, R279, R399, R479). -/

namespace Sys2Proof.Machine

open Sys2Proof

section Time

variable {s : State} {o : Obj}

/-- With nothing under BUSY, nothing ends. -/
theorem State.finish_of_idle (hsc : s.sec.scRuns = []) (hattest : s.sec.attest = []) (hfw : s.mgmt.fwDue = []) : s.finish = s := by
  have hscFinish : s.scFinish = s := by rw [State.scFinish, hsc, List.foldl_nil]
  have hserve : s.attestServe = s := by rw [State.attestServe, hattest, State.attestFrom]
  have hfwFinish : s.fwFinish = s := by
    rw [State.fwFinish, hfw, List.foldl_nil, ← hfw]
  rw [State.finish, hscFinish, hserve, hfwFinish]

theorem State.slew_eq : ∃ b, s.slew = { s with boot := b } := by
  unfold State.slew
  split
  · exact ⟨s.boot, rfl⟩
  · exact ⟨_, rfl⟩

theorem State.countStalls_empty (h : s.router.bufs = []) : s.countStalls = s := if_pos (by simp [h])

/-- The clocks of stalled outputs are counted in their objects, and nowhere else (R279). -/
theorem State.countStalls_counts (ho : ∀ p, p < 23 → o.key ≠ (Obj.rtStallClocks p).key) : s.countStalls.rd o = s.rd o := by
  unfold State.countStalls
  split
  · rfl
  · refine List.foldlRecOn (motive := fun t : State => t.rd o = s.rd o) _ _ rfl fun t ht p hp => ?_
    have hp : p < 23 := List.mem_range.mp (List.mem_filter.mp hp).1
    exact (t.rd_wr_ne _ _ _ (Ne.symm (ho p hp))).trans ht

theorem State.countStalls_frame : ∃ r, s.countStalls = { s with reg := r } := by
  unfold State.countStalls
  split
  · exact ⟨s.reg, rfl⟩
  · exact List.foldlRecOn (motive := fun t : State => ∃ r, t = { s with reg := r }) _ _ ⟨s.reg, rfl⟩ fun t ⟨r, ht⟩ p _ => ht ▸ ⟨_, rfl⟩

theorem State.coarsen_eq : ∃ c, s.coarsen = { s with ctxs := c } := ⟨_, rfl⟩

theorem State.coarsenEnergy_eq : ∃ c, s.coarsenEnergy = { s with ctxs := c } := ⟨_, rfl⟩

/-- A microsecond with nothing under BUSY: the clock moves, package time slews, stalls are counted and the coarse readings are taken. -/
theorem State.tick_of_idle (h : s.finish = s) : ∃ b c, s.tick = { State.countStalls { s with now := s.now + 1000, boot := b } with ctxs := c } := by
  obtain ⟨b, hslew⟩ := State.slew_eq (s := { s with now := s.now + 1000 })
  refine ⟨b, ?_⟩
  simp only [State.tick, h, hslew]
  generalize State.countStalls { s with now := s.now + 1000, boot := b } = u
  obtain ⟨c, hcoarse⟩ := u.coarsen_eq
  by_cases hms : u.now % 100000000 = 0
  · rw [if_pos hms, hcoarse]
    split
    · exact State.coarsenEnergy_eq (s := { u with ctxs := c })
    · exact ⟨c, rfl⟩
  · rw [if_neg hms]
    split
    · exact u.coarsenEnergy_eq
    · exact ⟨u.ctxs, rfl⟩

theorem step_of_empty (h : s.pending = []) : step s = .next s.tick := by rw [step, h]

theorem State.tick_frame (h : s.finish = s) : s.tick.now = s.now + 1000 ∧ s.tick.pending = s.pending ∧ s.tick.mem = s.mem ∧ s.tick.tiles = s.tiles ∧ s.tick.oct = s.oct := by
  obtain ⟨b, c, htick⟩ := State.tick_of_idle h
  obtain ⟨r, hframe⟩ := State.countStalls_frame (s := { s with now := s.now + 1000, boot := b })
  rw [htick, hframe]
  exact ⟨rfl, rfl, rfl, rfl, rfl⟩

theorem State.tick_reg (h : s.finish = s) (hbufs : s.router.bufs = []) : s.tick.reg = s.reg := by
  obtain ⟨b, c, htick⟩ := State.tick_of_idle h
  rw [htick, State.countStalls_empty (s := { s with now := s.now + 1000, boot := b }) hbufs]

theorem State.rd_tick (h : s.finish = s) (ho : ∀ p, p < 23 → o.key ≠ (Obj.rtStallClocks p).key) : s.tick.rd o = s.rd o := by
  obtain ⟨b, c, htick⟩ := State.tick_of_idle h
  rw [htick]
  exact State.countStalls_counts (s := { s with now := s.now + 1000, boot := b }) ho

/-- What ends under BUSY ends before the microsecond passes. -/
theorem State.tick_of_finish (h : s.finish.finish = s.finish) : s.tick = s.finish.tick := by simp only [State.tick, h]

end Time

/-- Settles O57: the queue's front by the definition of a step, an empty queue by what its microsecond changes. -/
theorem stepRunsFront : Obligations.StepRunsFront := by
  unfold Obligations.StepRunsFront
  refine ⟨?front, ?idle, ?busy, ?ends⟩
  case front => exact fun c q s => rfl
  case idle =>
    intro s hpending hsc hattest hfw
    have hfinish := State.finish_of_idle hsc hattest hfw
    obtain ⟨hnow, hrest, hmem, htiles, hoct⟩ := State.tick_frame hfinish
    exact ⟨s.tick, step_of_empty hpending, hnow, hrest.trans hpending, hmem, htiles, hoct, State.tick_reg hfinish, fun o ho => State.rd_tick hfinish ho⟩
  case busy =>
    intro s hpending hsc hattest hfw hrest
    rw [step_of_empty hpending, step_of_empty hrest, State.tick_of_finish (State.finish_of_idle hsc hattest hfw)]
  case ends => exact fun s => rfl

end Sys2Proof.Machine
end

section
/-! A clear of the event recorder by a session that is not open any more (R438, R441, R498). -/

namespace Sys2Proof.Machine

open Sys2Proof

/-- A Custodian whose session, number 7, is not open. -/
def closedCustodian : Who := ⟨roleCustodian, 0, 7, 1⟩

theorem idles_recorderClear_closed {s : State} {v : Nat} (hnone : s.session? closedCustodian.session = none) : Idles (.recorderClear closedCustodian v) s :=
  congrArg Host.Outcome.next (State.ctl_closed hnone (by decide))

/-- Refutes O56: a clear is said to be under way whoever of the Custodian's role writes it. One of a session that is not open changes nothing: after it no clear is under
way, where none was. -/
theorem not_eventRecorder : ¬ Obligations.EventRecorder := by
  unfold Obligations.EventRecorder
  rintro ⟨-, -, -, -, -, -, -, -, -, -, -, -, -, -, -, -, -, hclear, -⟩
  obtain ⟨t, hnext, hunderway, -⟩ := hclear State.reset closedCustodian (by decide) rfl (by decide)
  have hidle : Idles (.recorderClear closedCustodian (State.reset.rd Obj.erNewestSeq)) State.reset := idles_recorderClear_closed rfl
  have hsame : State.reset = t := Host.Outcome.next.inj (hidle.symm.trans hnext)
  have hnone : State.reset.rcd.clear = none := rfl
  rw [← hsame, hnone] at hunderway
  exact absurd hunderway (by simp)

end Sys2Proof.Machine
end

section
/-! The test access port (R520 to R522). -/

namespace Sys2Proof.Machine

open Sys2Proof

section TestAccess

variable {s t : State} {c : Instr} {i v : Nat} {drive float : Bool} {out : Option Nat}

theorem State.tap_resident (h : s.rd Obj.confidentialResident = 1) : s.tap i drive float out = s := if_pos h

/-- An instruction that shifts a value out. -/
theorem State.tap_shifts (h : s.rd Obj.confidentialResident ≠ 1) :
    s.tap i drive float (some v) = State.emit { s with boot := { s.boot with tapInstr := i, tapDrive := drive, tapFloat := float } } (.tdo v) := if_neg h

theorem State.tap_silent (h : s.rd Obj.confidentialResident ≠ 1) :
    s.tap i drive float none = { s with boot := { s.boot with tapInstr := i, tapDrive := drive, tapFloat := float } } := if_neg h

theorem exec_sample_of_free (h : s.rd Obj.confidentialResident ≠ 1) :
    exec .sample s = .next (State.tap { s with boot := { s.boot with bsr := s.pins } } tapSample false false (some s.pins)) :=
  congrArg Host.Outcome.next (if_neg h)

theorem exec_preload_of_free (h : s.rd Obj.confidentialResident ≠ 1) :
    exec (.preload v) s = .next (State.tap { s with boot := { s.boot with bsr := v } } tapPreload false false none) :=
  congrArg Host.Outcome.next (if_neg h)

theorem exec_extest_of_tapFree (h : s.tapFree = true) : exec .extest s = .next (s.tap tapExtest true false none) := congrArg Host.Outcome.next (if_pos h)

theorem exec_highz_of_tapFree (h : s.tapFree = true) : exec .highz s = .next (s.tap tapHighz false true none) := congrArg Host.Outcome.next (if_pos h)

/-- Where lands may not be driven, EXTEST acts as BYPASS (R521). -/
theorem exec_extest_of_not_tapFree (h : s.tapFree = false) : exec .extest s = .next (s.tap tapBypass false false none) :=
  congrArg Host.Outcome.next (if_neg (by simp [h]))

theorem exec_highz_of_not_tapFree (h : s.tapFree = false) : exec .highz s = .next (s.tap tapBypass false false none) :=
  congrArg Host.Outcome.next (if_neg (by simp [h]))

/-- What the test port does not reach: keys, memory, tiles, tables and objects. -/
def State.TapKeeps (s t : State) : Prop :=
  t.sec = s.sec ∧ t.mem = s.mem ∧ t.tiles = s.tiles ∧ t.ctxs = s.ctxs ∧ t.reg = s.reg ∧ t.oct = s.oct

theorem State.tapKeeps_refl : s.TapKeeps s := ⟨rfl, rfl, rfl, rfl, rfl, rfl⟩

theorem State.tapKeeps_tap : s.TapKeeps (s.tap i drive float out) := by
  by_cases h : s.rd Obj.confidentialResident = 1
  · rw [State.tap_resident h]
    exact State.tapKeeps_refl
  · cases out with
    | none => rw [State.tap_silent h]; exact State.tapKeeps_refl
    | some v => rw [State.tap_shifts h]; exact State.tapKeeps_refl

/-- An instruction leaves all of that, whether or not it acts. -/
theorem tapKeeps_of_exec (hc : (∃ b, c = .bypass b) ∨ c = .idcode ∨ c = .sample ∨ (∃ v, c = .preload v) ∨ c = .extest ∨ c = .highz) (h : exec c s = .next t) :
    s.TapKeeps t := by
  have of_next {u : State} (hu : exec c s = .next u) (hk : s.TapKeeps u) : s.TapKeeps t := by
    rw [hu] at h
    exact Host.Outcome.next.inj h ▸ hk
  rcases hc with ⟨b, rfl⟩ | rfl | rfl | ⟨v, rfl⟩ | rfl | rfl
  · exact of_next rfl State.tapKeeps_tap
  · exact of_next rfl State.tapKeeps_tap
  · by_cases hres : s.rd Obj.confidentialResident = 1
    · exact of_next (congrArg Host.Outcome.next (if_pos hres)) State.tapKeeps_refl
    · exact of_next (exec_sample_of_free hres) (State.tapKeeps_tap (s := { s with boot := { s.boot with bsr := s.pins } }))
  · by_cases hres : s.rd Obj.confidentialResident = 1
    · exact of_next (congrArg Host.Outcome.next (if_pos hres)) State.tapKeeps_refl
    · exact of_next (exec_preload_of_free hres) (State.tapKeeps_tap (s := { s with boot := { s.boot with bsr := v } }))
  · cases hfree : s.tapFree with
    | true => exact of_next (exec_extest_of_tapFree hfree) State.tapKeeps_tap
    | false => exact of_next (exec_extest_of_not_tapFree hfree) State.tapKeeps_tap
  · cases hfree : s.tapFree with
    | true => exact of_next (exec_highz_of_tapFree hfree) State.tapKeeps_tap
    | false => exact of_next (exec_highz_of_not_tapFree hfree) State.tapKeeps_tap

theorem idles_extest_of_resident (h : s.rd Obj.confidentialResident = 1) : Idles .extest s := by
  cases hfree : s.tapFree with
  | true => exact (exec_extest_of_tapFree hfree).trans (congrArg Host.Outcome.next (State.tap_resident h))
  | false => exact (exec_extest_of_not_tapFree hfree).trans (congrArg Host.Outcome.next (State.tap_resident h))

theorem idles_highz_of_resident (h : s.rd Obj.confidentialResident = 1) : Idles .highz s := by
  cases hfree : s.tapFree with
  | true => exact (exec_highz_of_tapFree hfree).trans (congrArg Host.Outcome.next (State.tap_resident h))
  | false => exact (exec_highz_of_not_tapFree hfree).trans (congrArg Host.Outcome.next (State.tap_resident h))

end TestAccess

/-- Settles O55: an instruction by whether a confidential context is resident, EXTEST and HIGHZ by the power state too. -/
theorem testPort : Obligations.TestPort := by
  unfold Obligations.TestPort
  refine ⟨?bypass, ?idcode, ?sample, ?preload, ?extest, ?highz, ?extestBarred, ?resident, ?highzBarred, ?frame⟩
  case bypass => exact fun s b h => congrArg Host.Outcome.next (State.tap_shifts h)
  case idcode => exact fun s h => congrArg Host.Outcome.next (State.tap_shifts h)
  case sample => exact fun s h => (exec_sample_of_free h).trans (congrArg Host.Outcome.next (State.tap_shifts h))
  case preload => exact fun s v h => (exec_preload_of_free h).trans (congrArg Host.Outcome.next (State.tap_silent h))
  case extest => exact fun s h hfree => by rw [exec_extest_of_tapFree hfree, State.tap_silent h]
  case highz => exact fun s h hfree => by rw [exec_highz_of_tapFree hfree, State.tap_silent h]
  case extestBarred => exact fun s h hfree => by rw [exec_extest_of_not_tapFree hfree, State.tap_silent h]
  case resident =>
    intro s b v h
    exact ⟨congrArg Host.Outcome.next (State.tap_resident h), congrArg Host.Outcome.next (State.tap_resident h), congrArg Host.Outcome.next (if_pos h),
      congrArg Host.Outcome.next (if_pos h), idles_extest_of_resident h, idles_highz_of_resident h⟩
  case highzBarred => exact fun s h hfree => by rw [exec_highz_of_not_tapFree hfree, State.tap_silent h]
  case frame => exact fun s t c hc h => tapKeeps_of_exec hc h

end Sys2Proof.Machine
end
